-- ==== Sys2Proof/Word.lean ====
section
/-! DEFINITION. The word types of the module and the sparse table that registers, memories and unit
tables are held in. -/

namespace Sys2Proof

/-- A byte of memory. -/
abbrev Byte := BitVec 8
/-- A 32-bit register, cell or sequence number. -/
abbrev W32 := BitVec 32
/-- A 64-bit word: an instruction word, a virtual address, a register of control space. -/
abbrev W64 := BitVec 64
/-- The data of one 64 B line; byte i of the line is bits [8i + 7 : 8i] (R235, 00_scope: little-endian). -/
abbrev Line := BitVec 512

/-- A sparse table: pairs (key, value), keys strictly rising, no value equal to what an unlisted key
reads as. `Machine/Ops.lean` holds its reads and writes. -/
abbrev Tbl (α : Type) := List (Nat × α)

end Sys2Proof
end

