-- ==== Sys2Proof/Syntax.lean ====
section
/-! DEFINITION. The commands of the module: one constructor of `Instr` per row of spec/opcode_table.json,
with what the event brings to the module from outside the unit it happens in. The table gives the rows no
operands; the operands below are the model's (log 1). -/

namespace Sys2Proof

/-- MOESI states of a caching agent's line (R239). -/
inductive Moesi | m | o | e | s | i
deriving DecidableEq, Repr

/-- What a home receives in class F0 while a line's transaction is open (R241, R243, R245). -/
inductive HomeReply
  /-- acknowledgement of an Inval -/
  | ack
  /-- a forwarded owner has sent its data to the requester; `passed`: ownership went with it (R245) -/
  | forwarded (dirty passed : Bool)
  /-- Recall data -/
  | recalled (dirty poison : Bool) (data : Line)
deriving DecidableEq, Repr

/-- Atomic memory operations of the A extension that a scalar hart performs (R240, R205). -/
inductive AmoOp | swap | add | xor | and | or | min | max | minu | maxu | lr | sc
deriving DecidableEq, Repr

/-- A KSL transaction header slot (R331). -/
structure KslHdr where
  ttype : BitVec 4
  release : Bool
  tag : BitVec 10
  lenm1 : BitVec 9
  ctx : BitVec 16
  status : BitVec 8
  addr : W64
  /-- every RES0 bit of the slot, 0 in a well-formed header -/
  res0 : W64
deriving DecidableEq, Repr

/-- How a KSL training step ends (R325, R326, R327). -/
inductive TrainEnd
  /-- step 1, 4: done -/
  | done
  /-- step 1: no far end -/
  | noDetect
  /-- step 2: cable kind (1 passive, 2 active), length in 0.1 m, loss in 0.25 dB -/
  | measured (cable : BitVec 2) (length : BitVec 10) (loss : BitVec 8)
  /-- step 3 or 4: the lanes that failed -/
  | lanes (failed : BitVec 16)
  /-- step 5: the far end's ROLE and epoch -/
  | linked (role : Bool) (epoch : W32)
deriving DecidableEq, Repr

/-- A KFT transport header (R378); fields that a packet kind does not use are 0. -/
structure KftHdr where
  /-- logical port it arrives by, or leaves by -/
  lp : BitVec 4
  ver : BitVec 4
  ptype : BitVec 4
  flow : BitVec 4
  ece : Bool
  op : BitVec 3
  src : BitVec 8
  dst : BitVec 8
  session : BitVec 16
  len : BitVec 16
  psn : W32
  ackPsn : W32
  ackMap : W64
  offset : BitVec 42
  set : BitVec 8
  member : BitVec 6
  backup : Bool
  opid : BitVec 24
  credits : BitVec 8
  status : BitVec 8
  /-- frame integrity: CRC-32C good, and authentication good for a SECURE peer (R377) -/
  good : Bool
  /-- the frame arrived CE-marked (R380) -/
  ce : Bool
deriving DecidableEq, Repr

/-- A Ridge frame header (R400) with its integrity. -/
structure FrameHdr where
  stream : BitVec 12
  cls : BitVec 3
  hop : BitVec 3
  seq : BitVec 10
  ackseq : BitVec 10
  nak : Bool
  first : Bool
  last : Bool
  crClass : BitVec 3
  crHop : BitVec 3
  crCount : BitVec 8
  /-- CRC-32C over bytes 0x00 to 0xFB agrees -/
  crcOk : Bool
deriving DecidableEq, Repr

/-- A guest request header (R423). -/
structure GuestHdr where
  op : BitVec 4
  acq : Bool
  rel : Bool
  tag : BitVec 10
  addr : BitVec 52
  mask : W64
  res0 : Bool
deriving DecidableEq, Repr

/-- A resource identifier RID (R495): KIND, DIE, UNIT. -/
structure Rid where
  kind : BitVec 8
  die : BitVec 5
  unit : BitVec 19
deriving DecidableEq, Repr

/-- Where a host-window or peer-window access comes from (R381, R340). -/
inductive OutSrc
  | thread (sp : Fin 128) (op : Nat)
  | hart (h : Fin 128) (write : Bool) (pa : BitVec 52) (ctx : BitVec 16) (data : W64)
deriving DecidableEq, Repr

/-- What the site survey finds (R458): resources that fail, read off the listed items. -/
structure Survey where
  /-- input within 40.0 to 50.0 V -/
  inputOk : Bool
  /-- coolant inlet 45 °C or less -/
  coolantOk : Bool
  /-- bit n: die n passes its rails, DIE_ID, self-test and route items -/
  dies : W32
  /-- units that fail their self-test, pattern test or training, by RID -/
  failed : List Rid
  /-- guest sites 14, 15 whose identity item fails -/
  guestBad : BitVec 2
  /-- logical fabric ports present -/
  fabPresent : BitVec 16
  /-- each KSL port: far end detected, with cable kind, length and loss -/
  ksl : List (BitVec 2 × BitVec 10 × BitVec 8)
  /-- Ridge modules that fail to train, as (die, local number) -/
  ridgeBad : List (Fin 32 × Fin 64)
deriving DecidableEq, Repr

/-- A PTP event message as the timestamp units see it (R383, R384). -/
structure PtpMsg where
  /-- logical port of the selected master -/
  port : BitVec 4
  /-- PTP time (ns) that the message fixes for now -/
  ptp : W64
  /-- |offset| has stayed below 100 ns for the last 16 s -/
  steady : Bool
deriving DecidableEq, Repr

/-- The commands (spec/opcode_table.json), in the table's order. -/
inductive Instr where
  -- registers
  | registerWrite (die : Fin 32) (off : BitVec 28) (width : Nat) (val hw : W64) (ctx : BitVec 16)
  | partCommit (md : Fin 6)
  | quotaCommit
  | arbCommit (die : Fin 32)
  | treelineCommit
  -- lane instructions: Spur, group slot, instruction word
  | intReg (sp : Fin 128) (sl : Fin 32) (w : W64)
  | intImm (sp : Fin 128) (sl : Fin 32) (w : W64)
  | fpReg (sp : Fin 128) (sl : Fin 32) (w : W64)
  | fpImm (sp : Fin 128) (sl : Fin 32) (w : W64)
  | specialFunction (sp : Fin 128) (sl : Fin 32) (w : W64)
  | cvt (sp : Fin 128) (sl : Fin 32) (w : W64)
  | ldG (sp : Fin 128) (sl : Fin 32) (w : W64)
  | stG (sp : Fin 128) (sl : Fin 32) (w : W64)
  | ldL (sp : Fin 128) (sl : Fin 32) (w : W64)
  | stL (sp : Fin 128) (sl : Fin 32) (w : W64)
  | atG (sp : Fin 128) (sl : Fin 32) (w : W64)
  | atL (sp : Fin 128) (sl : Fin 32) (w : W64)
  | haulLane (sp : Fin 128) (sl : Fin 32) (w : W64)
  | haulBulk (sp : Fin 128) (sl : Fin 32) (w : W64)
  | copyUnitComplete (sp : Fin 128) (job : Nat)
  | arriveGet (sp : Fin 128) (sl : Fin 32) (w : W64)
  | arriveWait (sp : Fin 128) (sl : Fin 32) (w : W64)
  | barSync (sp : Fin 128) (sl : Fin 32) (w : W64)
  | barArrive (sp : Fin 128) (sl : Fin 32) (w : W64)
  | fenceS (sp : Fin 128) (sl : Fin 32) (w : W64)
  | br (sp : Fin 128) (sl : Fin 32) (w : W64)
  | brC (sp : Fin 128) (sl : Fin 32) (w w2 : W64)
  | exit (sp : Fin 128) (sl : Fin 32) (w : W64)
  | nop (sp : Fin 128) (sl : Fin 32) (w : W64)
  | movSp (sp : Fin 128) (sl : Fin 32) (w : W64)
  | laneShfl (sp : Fin 128) (sl : Fin 32) (w : W64)
  | laneVote (sp : Fin 128) (sl : Fin 32) (w : W64)
  | cmInvL1 (sp : Fin 128) (sl : Fin 32) (w : W64)
  | cmInvL1All (sp : Fin 128) (sl : Fin 32) (w : W64)
  | cmClean (sp : Fin 128) (sl : Fin 32) (w : W64)
  | cmFlush (sp : Fin 128) (sl : Fin 32) (w : W64)
  | cmZero (sp : Fin 128) (sl : Fin 32) (w : W64)
  | cmPfL2 (sp : Fin 128) (sl : Fin 32) (w : W64)
  /-- `blk`: number of the 256 B block; `sec`: its 64 B sector -/
  | l1FillReturn (sp : Fin 128) (blk : Nat) (ctx : BitVec 16) (sec : Fin 4)
  | stallLimitExpiry (sp : Fin 128) (sl : Fin 32)
  -- launches; `td` is tensor die 16 + td, `cid` an open command
  | blockStart (td : Fin 16)
  | launch (cid : Nat)
  | timedLaunchStart (td : Fin 16) (cid : Nat) (t : W64)
  -- matrix unit
  | mxOpen (sp : Fin 128) (sl : Fin 32) (w : W64)
  | seatGrant (sp : Fin 128)
  | mxClose (sp : Fin 128) (sl : Fin 32) (w : W64)
  | mxLdw (sp : Fin 128) (sl : Fin 32) (w : W64)
  | mxLdacc (sp : Fin 128) (sl : Fin 32) (w : W64)
  | mxMma (sp : Fin 128) (sl : Fin 32) (w : W64)
  | mxDrain (sp : Fin 128) (sl : Fin 32) (w : W64)
  | mxWait (sp : Fin 128) (sl : Fin 32) (w : W64)
  | mxInstrComplete (sp : Fin 128) (id : Nat)
  | rampUpStepEnd (sp : Fin 128) (arr : Fin 4)
  | rampHoldExpiry (sp : Fin 128) (arr : Fin 4)
  | releaseStepEnd (sp : Fin 128) (arr : Fin 4)
  -- roped teams
  | teamRegister (cid : Nat)
  | teamReservationTake (res : BitVec 8) (sp : Fin 128)
  | teamRelease (cid : Nat)
  | teamStep (cid : Nat)
  | teamDeadlineCheck (res : BitVec 8) (t : W64)
  | teamDispatch (team : Nat) (t : W64)
  | teamDispatchReceive (td : Fin 16) (seq : W32)
  | teamBlockStart (sp : Fin 128)
  | teamStagingDone (sp : Fin 128)
  | entryDoneNotice (td src : Fin 16) (team : Nat)
  | teamScatter (team : Nat)
  | teamRowComplete (team : Nat)
  -- Couloir engines; `md` is memory die 5 + md
  | clPortAssemble (sp : Fin 128) (sl : Fin 32) (n : Fin 3) (data : BitVec 128)
  | clSubmit (sp : Fin 128) (sl : Fin 32) (data : BitVec 128)
  | clSubmitSend (sp : Fin 128) (sl : Fin 32)
  | clCommandReceive (md : Fin 6) (id : Nat)
  | clScanStep (md : Fin 6) (eng : Fin 16)
  | clResultDeliver (md : Fin 6) (id : Nat)
  -- scalar harts
  | scalarLoad (h : Fin 128) (rd : Fin 32) (va : W64) (lg : Fin 4) (signed : Bool)
  | scalarStore (h : Fin 128) (va : W64) (lg : Fin 4) (data : W64)
  | scalarAmo (h : Fin 128) (op : AmoOp) (rd : Fin 32) (va : W64) (dbl aq rl : Bool) (data : W64)
  | scalarFence (h : Fin 128) (pred succ : BitVec 4)
  | fenceI (h : Fin 128)
  | wrsWait (h : Fin 128) (sto : Bool)
  | cboClean (h : Fin 128) (va : W64)
  | cboFlush (h : Fin 128) (va : W64) (inval : Bool)
  | cboZero (h : Fin 128) (va : W64)
  | scalarPrefetch (h : Fin 128) (va : W64) (write : Bool)
  -- homes; `src` is a caching agent 0 to 63 (R236), or 64 + 64 × die + unit for an uncached agent
  | homeReadShared (md : Fin 6) (src : Nat) (ctx : BitVec 16) (line : Nat)
  | homeReadUnique (md : Fin 6) (src : Nat) (ctx : BitVec 16) (line : Nat)
  | homeUpgrade (md : Fin 6) (src : Nat) (ctx : BitVec 16) (line : Nat)
  | homeZero (md : Fin 6) (src : Nat) (ctx : BitVec 16) (line : Nat)
  | homeClean (md : Fin 6) (src : Nat) (ctx : BitVec 16) (line : Nat)
  | homeFlush (md : Fin 6) (src : Nat) (ctx : BitVec 16) (line : Nat)
  | homeRdonce (md : Fin 6) (src : Nat) (ctx : BitVec 16) (line : Nat)
  | homeWrline (md : Fin 6) (src : Nat) (ctx : BitVec 16) (line : Nat) (data : Line)
  | homeWrpart (md : Fin 6) (src : Nat) (ctx : BitVec 16) (line : Nat) (data : Line) (mask : W64)
  | homeWb (md : Fin 6) (agent : Fin 64) (line : Nat) (data : Line) (poison : Bool)
  | homeOffer (md : Fin 6) (agent : Fin 64) (line : Nat) (data : Line) (poison : Bool)
  | homeQueuedRequestStart (md : Fin 6) (line : Nat)
  | homeReplyReceive (md : Fin 6) (agent : Fin 64) (line : Nat) (reply : HomeReply)
  | fwdShared (agent : Fin 64) (line : Nat) (requester : Nat)
  | fwdUnique (agent : Fin 64) (line : Nat) (requester : Nat)
  | fwdOnce (agent : Fin 64) (line : Nat) (requester : Nat)
  | recall (agent : Fin 64) (line : Nat)
  | inval (agent : Fin 64) (line : Nat)
  | dataGrantReceive (agent : Fin 64) (line : Nat) (st : Moesi) (data : Line) (poison : Bool)
  | writebackAckReceive (agent : Fin 64) (line : Nat) (declined : Bool)
  | victimQueueDrain (md : Fin 6)
  | dirProbe (md : Fin 6) (val : W64)
  | dirProbeDone (md : Fin 6)
  -- contexts, translation, claims
  | ctxLoad (ctx : BitVec 16)
  | ctxInvalidate (ctx : BitVec 16)
  | ctxInvalidateDone
  | ctxUnload (ctx : BitVec 16)
  | tlbMissRequest (md : Fin 6) (td : Fin 16) (stream : Fin 256) (ctx : BitVec 16) (va : W64)
  | engineTlbMiss (md : Fin 6) (eng : Nat) (ctx : BitVec 16) (va : W64)
  | walkStart (md : Fin 6) (fromEngine : Bool)
  | walkReadReply (md : Fin 6) (walk : Nat)
  | walkReplyReceive (md : Fin 6) (walk : Nat)
  | claimQuery (md : Fin 6) (h : Fin 128) (pa : BitVec 52)
  | ctxFaultRecordTimer (tgt : Fin 32) (ctx : BitVec 16) (t : W64)
  | claimSet (ctx : BitVec 16) (mode : BitVec 2)
  | claimSetFlush (ctx : BitVec 16) (mode : BitVec 2)
  | claimSetZero (ctx : BitVec 16) (mode : BitVec 2)
  | claimChangeDone
  -- memory tiers
  /-- `errs`, `errs2`: codeword byte positions in error at the first read and at the re-read (R295) -/
  | hbmAccess (md : Fin 6) (line : Nat) (ctx : BitVec 16) (write : Option Line) (errs errs2 : List (Fin 72))
  | hbmControllerGrant (md : Fin 6) (stack : Fin 4) (t : W64)
  | hbmTempSample (md : Fin 6) (stack : Fin 4) (temp : BitVec 8)
  /-- `linkErr`: a link error that the one re-read does not clear (R477) -/
  | boardAccess (line : Nat) (write : Option Line) (poison linkErr : Bool)
  | flashWriteComplete (page : Nat)
  /-- `reason`: 0 reclaim, 1 wear levelling, 2 read refresh, 3 program or erase failure -/
  | flashRelocate (block : Nat) (reason : Fin 4) (wear : BitVec 8) (spare : BitVec 10)
  | poolAgeTick
  | poolEvict (fromBoard : Bool) (quotaOf : Option (BitVec 16))
  | poolMoveDone (handle : BitVec 24)
  | poolFreeWaitTimeout (cid : Nat)
  | tierAlloc (cid : Nat)
  | tierFree (cid : Nat)
  | tierHold (cid : Nat)
  | tierRelease (cid : Nat)
  | tierDemote (cid : Nat)
  | streamDieTransfer (handle : BitVec 24)
  -- KSL
  | kslEnableWrite (port : Fin 2) (enable : Bool)
  | kslTrainStepDone (port : Fin 2) (r : TrainEnd)
  | kslTrainTimeout (port : Fin 2)
  | kslFlitReceive (port : Fin 2) (flit : BitVec 2048)
  | kslNakReceive (port : Fin 2) (ackseq : BitVec 12)
  | kslRd (port : Fin 2) (hdr : KslHdr)
  | kslWr (port : Fin 2) (hdr : KslHdr) (data : List Byte)
  | kslDb (port : Fin 2) (hdr : KslHdr) (data : W64)
  | kslCpl (port : Fin 2) (hdr : KslHdr) (data : List Byte)
  | kslWack (port : Fin 2) (hdr : KslHdr)
  | kslMsgEpoch (port : Fin 2) (value : W32)
  | kslMsgNotify (port : Fin 2) (queue : BitVec 18)
  | kslInboundPerformed (port : Fin 2) (tag : BitVec 10)
  | kslRetrain (port : Fin 2)
  | kslRetrainDone (port : Fin 2) (ok : Bool) (ackseq : BitVec 12)
  | kslPortLostTimeout (port : Fin 2)
  | cableMate (port : Fin 2)
  | cableUnmate (port : Fin 2)
  | cblOvercurrent (port : Fin 2)
  | cblPowerRetry (port : Fin 2)
  -- queues
  | queueEnable (q : BitVec 18)
  | queueHalt (q : BitVec 18)
  | queueResume (q : BitVec 18)
  | queueDisable (q : BitVec 18)
  | queueDisableDone (q : BitVec 18)
  | queueQuery (q : BitVec 18)
  | doorbell (q : BitVec 18) (ctx : BitVec 16) (val : W64)
  | queueFetch (q : BitVec 18)
  | tornReread (q : BitVec 18)
  | commandAccept (q : BitVec 18) (t : W64)
  | commandHandoff (q : BitVec 18) (t : W64)
  | nopCommand (cid : Nat)
  | copy (cid : Nat)
  | copyEngineComplete (eng : Fin 16)
  | completionPost (cid : Nat) (t : W64)
  | journalRecordAck (jseq : W64)
  | eventPost (q : BitVec 18) (t : W64)
  | notifyWindowExpiry (q : BitVec 18)
  -- fabric
  | fabPortEnable (p : Fin 8) (b : Bool) (enable : Bool)
  | fabPortLinkChange (lp : Fin 16) (up : Bool)
  | fabPauseRx (p : Fin 8)
  | fabArpNdRequest (lp : Fin 16) (addr : BitVec 128)
  | fabModulePresent (p : Fin 8)
  | peerLoad (p : BitVec 8)
  | peerUnload (p : BitVec 8)
  | kftDataWrite (h : KftHdr) (data : List Byte)
  | kftReadRequest (h : KftHdr) (len : BitVec 37)
  | kftReadResponse (h : KftHdr) (data : List Byte)
  | kftCollData (h : KftHdr) (data : List Byte) (t : W64)
  | kftReady (h : KftHdr) (a : W64) (t : W64)
  | kftAck (h : KftHdr)
  | kftSession (h : KftHdr)
  | kftInboundPerformed (peer : BitVec 8) (flow : BitVec 4) (psn : W32)
  | kftAckTimer (peer : BitVec 8) (flow : BitVec 4)
  | kftRtoExpiry (peer : BitVec 8) (flow : BitVec 4) (psn : W32)
  | kftFlowAbandon (peer : BitVec 8) (flow : BitVec 4)
  | fabWrite (cid : Nat)
  | fabRead (cid : Nat)
  | timedFabStart (cid : Nat) (t : W64)
  | fabCommandComplete (cid : Nat)
  | collSet (cid : Nat)
  | collRelease (cid : Nat)
  | collBarrier (cid : Nat) (t : W64)
  | collBroadcast (cid : Nat) (t : W64)
  | collAllGather (cid : Nat) (t : W64)
  | collReduceScatter (cid : Nat) (t : W64)
  | collMergePartials (cid : Nat) (t : W64)
  | collWaitExpiry (set : BitVec 8) (step : W32) (t : W64)
  | collDeadline (set : BitVec 8) (step : W32) (t : W64)
  | collMissingTimeout (set : BitVec 8) (step : W32) (t : W64)
  | collComplete (cid : Nat)
  -- time
  | ptpMessage (msg : PtpMsg)
  | agHoldoverTimeout (t : W64)
  | ppsEdge (t : W64)
  | ppsLossTimeout (t : W64)
  -- Ridge and arbiters
  | ridgeFrameReceive (die : Fin 32) (mod : Fin 64) (f : FrameHdr) (payload : BitVec 1920)
  | ridgeNakResend (die : Fin 32) (mod : Fin 64) (ackseq : BitVec 10)
  | ridgeRetrain (die : Fin 32) (mod : Fin 64) (ok : Bool)
  | ridgeModuleRetire (die : Fin 32) (mod : Fin 64)
  | arbGrant (die : Fin 32) (arb : Nat)
  | lockWatchdogExpiry (die : Fin 32) (arb : Nat)
  -- Col gate; `g` is guest site 14 + g
  | guestRead (g : Fin 2) (h : GuestHdr)
  | guestWriteLine (g : Fin 2) (h : GuestHdr) (data : Line)
  | guestWritePart (g : Fin 2) (h : GuestHdr) (data : Line)
  | guestCacheableRequest (g : Fin 2) (h : GuestHdr)
  | colRateRelease (g : Fin 2) (t : W64)
  | colAnswerReturn (g : Fin 2) (tag : BitVec 10)
  | colInboundRequest (g : Fin 2) (ctx : BitVec 16) (off : BitVec 28) (width : Nat) (write : Option W64)
  | guestAnswer (g : Fin 2) (id : Nat) (data : W64) (status : BitVec 8)
  | colGuestTimeout (g : Fin 2) (id : Nat)
  | colKill (g : Fin 2)
  | guestLinkFault (g : Fin 2)
  -- power
  /-- volts in 10 mV, amperes in 10 mA, watts; `overLong`: more than 20 ms of overpower within 100 ms -/
  | inputSample (v i : BitVec 16) (p : BitVec 16) (overLong : Bool)
  | inputVoltageTrip (v : BitVec 16)
  /-- `m`: the measurement; `e`: the estimator's average over its interval, both in quarter watts -/
  | railTelemetrySample (grp : Fin 40) (m e : Nat)
  /-- rail group 0 to 39, or 40: the input stage -/
  | telemetryTimeout (src : Fin 41)
  | powerReport (die : Fin 32) (k : Nat)
  | grantCompute (k : Nat)
  | grantReceive (die : Fin 32) (t : W64)
  | epochBoundary (die : Fin 32) (k : Nat)
  | lendStatusTick (die : Fin 32)
  | loanReceive (die : Fin 32)
  /-- `e`: the activity estimate in quarter watts -/
  | powerControlTick (die : Fin 32) (e : Nat)
  | droopAssert (grp : Fin 40)
  | droopRelease (grp : Fin 40)
  | droopHoldEnd (die : Fin 32)
  | droopRecoveryEnd (die : Fin 32)
  | tjSample (die : Fin 32) (temps : List (BitVec 8))
  | coolantSample (temp : BitVec 8)
  -- power-on, boot, resets, security
  /-- `straps`: ADDR1, ADDR0, MGMT_I3C -/
  | powerOn (straps : BitVec 3)
  | powerLoss
  | resetNAssert
  | siteSurvey (r : Survey)
  | surveyTimeout (coolant : Bool)
  | imageSelect
  | bootSequence
  | bootTimeout
  | fabricReadyTimeout
  | lockSet (die : Fin 32) (bits : BitVec 19)
  | resetCold (ctx : BitVec 16)
  | resetWarm (ctx : BitVec 16)
  | resetDie (ctx : BitVec 16) (die : Fin 32)
  | dieResetDone (die : Fin 32) (pass : Bool)
  | resetContext (ctx target : BitVec 16)
  | secAttestReport (ctx : BitVec 16) (addr : BitVec 48) (bufk : BitVec 4)
  | secIdentityCerts (ctx : BitVec 16) (addr : BitVec 48) (bufk : BitVec 4)
  | secOwnerEnrol (ctx : BitVec 16) (addr : BitVec 48)
  | secRequestComplete
  -- reliability
  | correctedError (rid : Rid) (cls : Bool) (pa : BitVec 52) (detail : BitVec 16) (t : W64)
  | uncorrectedError (rid : Rid) (pa : BitVec 52) (detail : BitVec 16) (t : W64)
  | stackRebuildStep (md : Fin 6) (stack : Fin 4)
  | stackRebuildDone (md : Fin 6) (stack : Fin 4)
  | screeHbmStep (md : Fin 6) (stack : Fin 4) (errs errs2 : List (Fin 72))
  | screeBoardStep (linkErr : Bool)
  | screePeriodEnd (board : Bool)
  | cairnCalibration (rid : Rid)
  | cairnTaskEnd (rid : Rid) (watchdog : Bool)
  | selftestRequest (ctx : BitVec 16) (val : W64)
  | selftestStart
  | selftestStartTimeout
  /-- `res`: 0 passed, 1 failed, 2 ended by the watchdog -/
  | selftestResult (res : Fin 3)
  | telemetryRecord (t : W64)
  | fatalError (cause : BitVec 3) (die : Fin 32)
  -- power-down, management, JTAG
  | powerdownRequest
  | powerdownDrainTimeout
  /-- `static`: the address comes by SETDASA from the static address; otherwise by ENTDAA -/
  | i3cAddressAssign (static : Bool) (addr : BitVec 7)
  | alertRead
  | mctpSetEid (eid : BitVec 8)
  | pldmDiscovery
  | pldmSensorRead (sensor : Fin 9)
  | pldmWarmReset
  | pldmPowerdown
  | pldmFruRead
  | pldmFirmwareUpdate (off : Nat) (data : List Byte) (last : Bool)
  | firmwareUpdateVerify
  | jtagBypass (code : Nat)
  | jtagIdcode
  | jtagSamplePreload (preload : List Bool)
  | jtagExtest
  | jtagHighz
  | resetNRelease
  | powerdownDrainDone
  | collSendInstant (set : BitVec 8) (step : W32) (t : W64)
  | dieWritebackTimeout (die : Fin 32)
  | contextResetDone
  | asynchronousInterrupt (h : Fin 128) (cause : Nat)
  /-- `va`, `ctx`: the operands of the instruction when it names them -/
  | sfenceVma (h : Fin 128) (va : Option W64) (ctx : Option (BitVec 16))
  | directAccessResponse (sp : Fin 128) (op : Nat)
  | outboundWindowRequest (src : OutSrc)
deriving DecidableEq, Repr

end Sys2Proof
end

