-- ==== Sys2Proof/Config.lean ====
section
/-! DEFINITION. What one implementation fixes and the manual does not give: free values and functions
without a body (nothing in Lean can evaluate them), each named in the assumption log. -/

namespace Sys2Proof.Config

/-- A fresh value the manual leaves open; `State.free` counts the draws (log 4). -/
opaque freeWord : Nat → W64

/-- HUB_MODULE_SERIAL.SERIAL: fused, different on every module (01_organisation, HUB_MODULE_SERIAL; log 5). -/
opaque serial : W64

/-- Set index of a line in a directory slice: the manual gives 16 ways but no index function (R248, R252; log 6). -/
opaque dirSet : Nat → Nat
/-- Set index of a line in an L3 slice (08_caches_coherence, table of caches; log 6). -/
opaque l3Set : Nat → Nat
/-- Set index of a line in a scalar cluster L2 (08_caches_coherence, table of caches; log 6). -/
opaque clusterSet : Nat → Nat
/-- Set index of a line in a core L1 data cache (08_caches_coherence, table of caches; log 6). -/
opaque coreSet : Nat → Nat
/-- Set index of a die TLB entry, from its size as a power of two and its page: the manual gives 1,024 sets and no index
function (table before R274; log 6). -/
opaque tlbSet : Nat → Nat → Nat

/-- Special functions of the lane units inside the error bound of R153, before the bound that can be
computed is applied (log 7). -/
opaque sfRcp : W32 → W32
/-- See `sfRcp`. -/
opaque sfRsqrt : W32 → W32
/-- See `sfRcp`. -/
opaque sfSqrt : W32 → W32
/-- See `sfRcp`. -/
opaque sfExp2 : W32 → W32
/-- See `sfRcp`. -/
opaque sfLog2 : W32 → W32
/-- See `sfRcp`. -/
opaque sfSin : W32 → W32
/-- See `sfRcp`. -/
opaque sfCos : W32 → W32
/-- See `sfRcp`. -/
opaque sfTanh : W32 → W32

/-- Result of an integer shift whose count is 32 or more: R522 names the operation and no result (log 8). -/
opaque shiftOver : Nat → W32 → W32 → W32

/-- SHA-512 of a byte string, as R463, R466 and R471 use it (log 9). -/
opaque sha512 : List Byte → Line
/-- The signatures that end an attestation report (R472; log 9). -/
opaque reportSignature : List Byte → List Byte
/-- The identity public keys of the module (R470, R472; log 9). -/
opaque identityKeys : List Byte
/-- The identity certificates in configuration flash (16_startup, R470; log 9). -/
opaque identityCerts : List Byte
/-- LZ4 block compression of 64 KiB, and its inverse (R322; log 9). -/
opaque lz4 : List Byte → List Byte
/-- AES-256-GCM sealing under the key of a context with the salt and key epoch; IV and additional data, then the
plain text (R322, R323; log 9). -/
opaque aesSeal : Nat → Nat → List Byte → List Byte → List Byte
/-- A transport payload sealed for a SECURE peer (R377; log 9): fabric secret, HKDF information string, IV, header,
payload. -/
opaque kftSeal : W64 → List Byte → List Byte → List Byte → List Byte → List Byte
/-- Where in a landing zone a packet of collective data lands: the manual gives the zone and no place in it (R393;
log 21). Arguments: set, step, member, backup, offset. -/
opaque landPlace : Nat → Nat → Nat → Bool → Nat → Nat
/-- Whether a byte that a drain stopped by a context reset was to write has been written: the manual says that part of
its output is (R133; log 23). Arguments: draw, address. -/
opaque drainPart : Nat → Nat → Bool
/-- Whether a matrix instruction still reads the old value of a byte that was written while it was queued: the manual says
that it reads the old value or the new one (R122; log 16). Arguments: draw, address. -/
opaque mxOld : Nat → Nat → Bool
/-- Frames that the input buffer of a Ridge module holds for a class and hop: the manual gives no size (R410; log 24).
Arguments: die, local module, class, hop. -/
opaque ridgeBuffer : Nat → Nat → Nat → Nat → Nat
/-- Bytes of the configuration flash below its middle that are left to image copy A beside the 64 KiB of the identity
certificates: the manual gives the flash no capacity (16_startup, JESD216; log 25). -/
opaque flashRoom : Nat
/-- Fused hash of a vendor key slot, of all four enrolled at manufacture (R463, R465; log 25). -/
opaque vendorHash : Nat → List Byte
/-- Digest of the mask ROM of the security processor (R471; log 9). -/
opaque bootRom : List Byte
/-- Identity block of the partner die at a guest site, read through its sideband (R457, R471; log 31). -/
opaque partnerBlock : Nat → List Byte
/-- Do an Ed25519 and an ML-DSA-65 signature of a digest verify (R463, R466; log 9)? Arguments: the signer record, the
digest. -/
opaque recordSigned : List Byte → Line → Bool
/-- Flash block of a physical page: the geometry of a flash channel is not given (R308, R310; log 18). -/
opaque flashBlock : Nat → Nat
/-- Flash channel of a physical page (R308; log 18). -/
opaque flashChannel : Nat → Nat
/-- The fabric secret that boot unwraps from a FABRIC_SECRET section, or none (R468; log 9). -/
opaque fabricSecret : List Byte → Option W64

/-- Watts that an activity-estimator reading or a power step costs on a die class (15_power, R443, R450;
weights are in the configuration image; log 10), in quarter watts: less than 2^15, as the cost of one step of one die. -/
opaque stepCost : Nat → BitVec 15

end Sys2Proof.Config
end

