-- ==== Sys2Proof/Machine/SpurState.lean ====
section
/-! DEFINITION. State of the tensor dies: Spurs with their groups, blocks, copies, outstanding accesses, L1 and
matrix unit (chapters 02 and 03), roped-team residents (05) and the Couloir port (06). Every default is the value
after reset. -/

namespace Sys2Proof.Machine

/-- A TLB entry (R273): one leaf of 4 KiB, 64 KiB or 2 MiB, for one context. -/
structure TlbEntry where
  ctx : BitVec 16
  /-- page size as a power of two: 12, 16 or 21 -/
  sh : Nat
  vpn : Nat
  ppn : Nat
  r : Bool
  w : Bool
  x : Bool
  d : Bool
  /-- memory type: 0 NC, 1 NU, 2 DS (R200) -/
  pbmt : BitVec 2
  /-- the claim check at fill allows writes (R283) -/
  wok : Bool
deriving DecidableEq, Repr

/-- An entry of the reconvergence stack (R50, R51). -/
structure JoinEntry where
  join : W64
  /-- active mask when the entry was pushed, less exited lanes -/
  full : BitVec 64
  /-- lanes that take the branch, less exited lanes -/
  taken : BitVec 64
  target : W64
  /-- the group is running the taken lanes -/
  onTaken : Bool
deriving DecidableEq, Repr

/-- What an issued instruction holds a group for (R36). -/
inductive GroupWait
  /-- arrive.wait (R64) -/
  | arrive (ctr : Nat) (target : W32)
  /-- bar.sync (R69) -/
  | bar (b : BitVec 4) (target : Nat)
  /-- fence.s (R72) of a kind and scope -/
  | fence (kind scope : BitVec 3)
  /-- mx.open before the seat is granted (R107) -/
  | mxOpen
  /-- mx.wait (R123) -/
  | mxWait
  /-- mx.close (R113) -/
  | mxClose
  /-- a store to TNS_CL_PORT3 before its submission is sent (R180) -/
  | clSubmit
deriving DecidableEq, Repr

/-- A thread group in a group slot. -/
structure Group where
  /-- number of this resident group on its Spur, in start order (R36) -/
  gid : Nat := 0
  /-- block slot -/
  blk : Nat
  /-- group number within the block -/
  idx : Nat
  width : Nat := 16
  /-- lane unit, 0 or 1 (R39) -/
  unit : Nat := 0
  nregs : Nat := 1
  pc : W64 := 0
  active : BitVec 64 := 0
  stack : List JoinEntry := []
  /-- register r of lane L at L * 256 + r; unlisted reads 0 (R48) -/
  regs : Tbl W32 := []
  /-- predicates p0 to p6 of lane L, bit n is pn -/
  preds : Tbl Byte := []
  /-- high half of Alpenglow time latched by lane (R90) -/
  latch : Tbl W32 := []
  wait : Option GroupWait := none
  /-- stopped; it takes no further issue (R81) -/
  stop : Bool := false
  /-- the group ended; its slot returns with its block (R38, R53) -/
  done : Bool := false
deriving DecidableEq, Repr

/-- A resident block (R38). -/
structure Block where
  /-- kernel (its launch command), or the residency of a team block -/
  kid : Nat
  team : Option Nat := none
  /-- block number b (R45) -/
  num : Nat
  ctx : BitVec 16
  groups : Nat := 1
  width : Nat := 16
  /-- block and grid dimensions and PARAMS, for mov.sp (R32, R89) -/
  bx : Nat := 1
  by_ : Nat := 1
  gx : Nat := 1
  gy : Nat := 1
  params : W64 := 0
  gran0 : Nat := 0
  grans : Nat := 0
  /-- arrival counters per block, 0 in the shared mode (R65) -/
  ctrs : Nat := 0
  /-- arrival counts of the 16 barriers -/
  bars : Tbl Nat := []
  faultQueue : BitVec 18 := 0
  tag : W32 := 0
  /-- FAULT_POLICY = 1: a fault stops only this block (R42) -/
  stopBlockOnly : Bool := true
  /-- STALL_LIMIT (R42) -/
  stall : Nat := 0
  /-- status of the block's first fault, which alone is recorded (R82) -/
  fault : Option Byte := none
  stopping : Bool := false
  /-- a team block between two entries of its schedule: staged, or done with an entry (R168, R169) -/
  idle : Bool := false
deriving DecidableEq, Repr

/-- An arrival counter (R63). -/
structure Counter where
  issue : W32 := 0
  done : W32 := 0
  /-- numbers past DONE whose copies have finished -/
  fin : List W32 := []
  /-- those of them that were issued without a byte to move and hold no copy place -/
  zero : List W32 := []
deriving DecidableEq, Repr

/-- How far one lane of an outstanding access has come. -/
inductive LaneSt | xlt | ready | miss | sent | done
deriving DecidableEq, Repr

/-- One piece of a copy: global virtual address, local address in the Spur, length (R63, R521). -/
structure CopyPart where
  va : W64
  la : Nat
  len : Nat
  /-- a piece in a host or peer window: sent, or done with the bytes read -/
  pa : Nat := 0
  st : LaneSt := .xlt
  data : List Byte := []
  poison : Bool := false
deriving DecidableEq, Repr

/-- An outstanding asynchronous copy (R63, R66). -/
structure CopyJob where
  id : Nat
  slot : Nat
  blk : Nat
  gidx : Nat
  pc : W64
  ctx : BitVec 16
  ctr : Nat
  num : W32
  toGlobal : Bool
  scope : BitVec 3
  parts : List CopyPart
  /-- a copy of the launch unit for a row of a roped team (R168, R170); it counts on no counter -/
  row : Option Nat := none
deriving DecidableEq, Repr

/-- One lane of an outstanding access: data is the store data or operand, then the loaded value. -/
structure MemLane where
  lane : Nat
  va : W64
  pa : Nat := 0
  typ : BitVec 2 := 0
  st : LaneSt := .xlt
  data : BitVec 128 := 0
  cmp : W64 := 0
deriving DecidableEq, Repr

/-- What an outstanding access does. -/
inductive MemKind
  | load (vd : Nat)
  | store
  | atomic (aop : BitVec 4) (aty : BitVec 3) (vd : Nat)
  | maint (func : BitVec 5)
deriving DecidableEq, Repr

/-- A global load, store, atomic or cache maintenance operation that has issued and not completed (R516). -/
structure MemOp where
  id : Nat
  gid : Nat
  slot : Nat
  blk : Nat
  pc : W64
  ctx : BitVec 16
  kind : MemKind
  size : Nat
  order : BitVec 3 := 0
  scope : BitVec 3 := 0
  /-- served past the L1 (R213) -/
  direct : Bool := true
  /-- CACHE = 0b01, or BYPASS: read without caching (R241) -/
  once : Bool := false
  lanes : List MemLane
  /-- the L2 has acknowledged its writes (R72) -/
  acked : Bool := false
deriving DecidableEq, Repr

/-- A way of the Spur's L1: a 256 B line of one context (R74). -/
structure L1Line where
  blk : Nat
  ctx : BitVec 16
  valid : BitVec 4 := 0
  sec : Tbl Line := []
deriving DecidableEq, Repr

/-- A miss register of the L1 (R77). -/
structure L1Miss where
  blk : Nat
  ctx : BitVec 16
  way : Option Nat
  /-- sectors requested and not yet returned -/
  req : BitVec 4
  /-- line, or sectors, marked not-to-install (R79) -/
  noLine : Bool := false
  noSec : BitVec 4 := 0
  /-- waiting loads: (operation, sector) -/
  waiters : List (Nat × Nat) := []
deriving DecidableEq, Repr

/-- A weight tile in a buffer (R96): packed element bytes of its K rows, and its scale bytes. -/
structure Tile where
  fmt : BitVec 4
  rows : List (List Byte)
  scales : List Byte
deriving DecidableEq, Repr

/-- A queued matrix instruction with its operands as read at issue (R115, R116). -/
inductive MxOp
  | ldw (amask : BitVec 4) (fmt : BitVec 4) (base stride astride sbase : Nat)
  | ldacc (amask : BitVec 4) (rows acc : Nat) (fmt : BitVec 4) (src sstride : Nat)
  | mma (amask : BitVec 4) (sw za : Bool) (afmt : BitVec 4) (k m acc abase astride ascale : Nat)
  | drain (amask : BitVec 4) (rows acc : Nat) (ofmt : BitVec 4) (act : BitVec 3) (bias sc sr clr : Bool)
      (ctr : Option (Nat × W32)) (dest dstride biasv scv oscale : Nat)
deriving DecidableEq, Repr

/-- An instruction of the matrix queue (R120). -/
structure MxInstr where
  id : Nat
  slot : Nat
  blk : Nat
  /-- local memory of the block: first byte in the Spur's local memory -/
  base : Nat
  op : MxOp
  /-- local memory as it stood at the issue, with what instructions of the queue have written since (R121, R122) -/
  old : List (Nat × Byte) := []
deriving DecidableEq, Repr

/-- The current ramp of one array (R125, R126). -/
inductive RampPhase | off | up (i : Nat) | full | down (k : Nat)
deriving DecidableEq, Repr

/-- The matrix unit of a Spur. -/
structure MxUnit where
  /-- group slot that holds the seat -/
  seat : Option Nat := none
  /-- region mask (R107) -/
  mask : BitVec 64 := 0
  /-- group slots that wait for the seat, in the order of their requests (R108) -/
  waiters : List Nat := []
  /-- the region closes when its queue is empty (R113, R132) -/
  closing : Bool := false
  /-- a selected array of the region was retired: the group's next issue faults (R130) -/
  arrayHit : Bool := false
  /-- arrays that instructions of the region have selected -/
  sel : BitVec 4 := 0
  queue : List MxInstr := []
  /-- weight buffers of array j: active at j, shadow at 4 + j -/
  bufs : Tbl (Option Tile) := []
  /-- their formats as the queued instructions leave them -/
  issueBufs : Tbl (Option (BitVec 4)) := []
  /-- cell (row, column) at row * 512 + column -/
  acc : Tbl W32 := []
  /-- kind of slice j of a row at row * 4 + j: 0 zero, 1 FP32, 2 INT32 (R99) -/
  kinds : Tbl (BitVec 2) := []
  /-- kinds as the queued instructions leave them -/
  issueKinds : Tbl (BitVec 2) := []
  ramps : Tbl RampPhase := []
deriving DecidableEq, Repr

/-- The assembly buffer of a group at the Couloir port (R177), and its submission held under R180. -/
structure ClBuf where
  parts : Tbl (BitVec 128) := []
  held : Option Line := none
deriving DecidableEq, Repr

/-- The resources that a reserved residency holds on a Spur (R155, R167). -/
structure TeamHold where
  res : Nat
  slot : Nat
  groups : Nat
  width : Nat
  regs : Nat
  /-- lane unit with the larger half -/
  big : Nat
deriving DecidableEq, Repr

/-- One Spur. -/
structure Spur where
  groups : Tbl Group := []
  blocks : Tbl Block := []
  /-- local memory bytes; unlisted reads 0 -/
  lmem : List (Nat × Byte) := []
  /-- context that last held a granule, plus 1 (R48) -/
  granCtx : Tbl Nat := []
  counters : Tbl Counter := []
  copies : List CopyJob := []
  ops : List MemOp := []
  /-- next number for operations, copies and matrix instructions -/
  nextId : Nat := 0
  /-- L1 way w of set i at i * 8 + w -/
  l1 : Tbl L1Line := []
  l1miss : List L1Miss := []
  lfsr : BitVec 16 := 0
  utlb : List TlbEntry := []
  mx : MxUnit := {}
  /-- stochastic-rounding generator (R145) -/
  sr : W64 := 0
  /-- Couloir submissions by group slot -/
  clBufs : Tbl ClBuf := []
  holds : List TeamHold := []
  /-- context whose team block last held the staging area, plus 1 (R168) -/
  stageCtx : Nat := 0
deriving DecidableEq, Repr

/-- A kernel as its launch descriptor gives it (R42). -/
structure Kernel where
  cid : Nat
  ctx : BitVec 16
  entry : W64
  params : W64
  gx : Nat
  gy : Nat
  gz : Nat
  bx : Nat
  by_ : Nat
  bz : Nat
  regs : Nat
  grans : Nat
  width : Nat
  ctrMode : BitVec 2
  stopBlockOnly : Bool
  timed : Bool
  dieMask : BitVec 16
  spurMask : BitVec 8
  stall : Nat
  maxBlocks : Nat
  faultQueue : BitVec 18
  tag : W32
  startAt : W64
  panyx : Bool := false
  /-- no further block starts (R81, R85) -/
  stopped : Bool := false
  /-- status of the first fault record (R82) -/
  first : Option Byte := none
  /-- R49 left a die's share unrun -/
  unrun : Bool := false
  /-- selected dies that have not finished their share -/
  left : List Nat := []
  /-- DMA blocks finished per die: td ↦ next block index of the die's share -/
  next : Tbl Nat := []
deriving DecidableEq, Repr

/-- A translation miss waiting in a stream's or engine's queue (R274, R276). -/
structure MissEntry where
  ctx : BitVec 16
  va : W64
  /-- the request has been sent to a memory die -/
  sent : Bool := false
deriving DecidableEq, Repr

/-- One tensor die: launch unit, die TLB and streams. -/
structure TensorDie where
  /-- pending kernels in order of arrival (R46) -/
  pend : List Nat := []
  /-- consecutive releases in which the oldest kernel's block did not fit -/
  miss8 : Nat := 0
  tlb : List TlbEntry := []
  tlbLfsr : BitVec 16 := 1
  /-- miss queue of translation stream p * 32 + slot -/
  streams : Tbl (List MissEntry) := []
  /-- dispatch sequence number expected next (R165) -/
  expect : W32 := 0
  /-- dispatch messages received ahead of it: sequence number ↦ team -/
  early : Tbl Nat := []
  /-- teams of the die's set received in order and not ended here -/
  teams : List Nat := []
deriving DecidableEq, Repr

end Sys2Proof.Machine
end

