-- ==== Sys2Proof/Machine/MemState.lean ====
section
/-! DEFINITION. State of the memory system: scalar harts (chapter 07), caching agents, homes and directory (08),
contexts, walks and claims (09). Every default is the value after reset. -/

namespace Sys2Proof.Machine

/-- A line held by a caching agent, with the way of its frame (R239, R257). -/
structure AgentLine where
  st : Moesi
  data : Line
  poison : Bool := false
  way : Nat := 0
deriving DecidableEq, Repr

/-- A writeback buffer: a WB or OFFER sent and not acknowledged (R245). -/
structure WbEntry where
  st : Moesi
  data : Line
  poison : Bool
  /-- ownership passed to a requester by a forward -/
  gone : Bool := false
deriving DecidableEq, Repr

/-- Coherence requests (R241). -/
inductive ReqKind
  | rs | ru | upg | zero | clean | flush | rdonce
  | wrline (data : Line)
  | wrpart (data : Line) (mask : W64)
  | wb (data : Line) (poison : Bool)
  | offer (data : Line) (poison : Bool)
deriving DecidableEq, Repr

/-- A request at a home: its kind, source and context (R268, R282). -/
structure HomeReq where
  kind : ReqKind
  src : Nat
  ctx : BitVec 16
  line : Nat
deriving DecidableEq, Repr

/-- A miss register of a caching agent (R258): its request in flight. `refused`: the home refused it (R285). -/
structure AgentMiss where
  kind : ReqKind
  refused : Bool := false
deriving DecidableEq, Repr

/-- Phase of an open transaction: acknowledgements, then the owner's reply. -/
structure Txn where
  req : HomeReq
  /-- agents whose Inval acknowledgement is awaited -/
  acks : List Nat := []
  /-- agent whose forward reply or Recall data is awaited -/
  owner : Option Nat := none
  /-- Recall data received (R244, R252, R260) -/
  got : Option (Line × Bool × Bool) := none
  /-- the transaction removes a victim entry (R252) -/
  evict : Bool := false
  /-- an avalanche broadcast (R250) -/
  bcast : Bool := false
deriving DecidableEq, Repr

/-- A directory entry (R248). -/
structure DirEntry where
  dstate : BitVec 3 := 0
  owner : Nat := 0
  /-- pointers PTR0 to PTR3; none where PVALID is 0 -/
  ptrs : List (Option Nat) := [none, none, none, none]
  way : Nat := 0
deriving DecidableEq, Repr

/-- A copy in the L3 slice. -/
structure L3Line where
  data : Line
  dirty : Bool
  poison : Bool
  way : Nat := 0
deriving DecidableEq, Repr

/-- An entry of the victim queue (R254): to be installed in the L3, or the L3's own dirty eviction. -/
structure VictimEntry where
  line : Nat
  data : Line
  dirty : Bool
  poison : Bool
  toMem : Bool
deriving DecidableEq, Repr

/-- A home: L3 slice and directory slice of one memory die. -/
structure Home where
  txns : Tbl Txn := []
  /-- requests waiting behind a transaction, for an entry, or for the victim queue -/
  waiting : List HomeReq := []
  l3 : Tbl L3Line := []
  vq : List VictimEntry := []
  dir : Tbl DirEntry := []
  l3Lfsr : BitVec 16 := 0
  dirLfsr : BitVec 16 := 0
  /-- line of a running probe (R264) -/
  probe : Option Nat := none
deriving DecidableEq, Repr

/-- The caching agents and homes. -/
structure Coherence where
  /-- lines of agent a at a * 2^46 + line number; unlisted is state I -/
  lines : Tbl AgentLine := []
  wbs : Tbl WbEntry := []
  misses : Tbl AgentMiss := []
  lfsr : Tbl (BitVec 16) := []
  homes : Tbl Home := []
deriving DecidableEq, Repr

/-- A store of a hart in its store buffer (R210): bytes within one line. -/
structure HartStore where
  pa : Nat
  bytes : List Byte
  typ : BitVec 2
  ctx : BitVec 16
deriving DecidableEq, Repr

/-- An exception or interrupt a hart has taken (R230, R272, R284); its vector is RISC-V's. -/
structure HartTrap where
  cause : Nat
  tval : W64
  interrupt : Bool
deriving DecidableEq, Repr

/-- A scalar TLB entry (R280): the leaf with its U bit, none without a first stage; `v`: through two stages, `asid`
that of the first. -/
structure HartTlb where
  e : TlbEntry
  u : Option Bool
  v : Bool := false
  asid : BitVec 16 := 0
  /-- rights the second stage gives: R, W -/
  gr : Bool := true
  gw : Bool := true
deriving DecidableEq, Repr

/-- A part of a hart's access to a host or peer window: 0 not sent, 1 sent, 2 completed. -/
structure HartPart where
  pa : Nat
  n : Nat
  ctx : BitVec 16
  data : List Byte
  st : Nat := 0
  /-- completed with an error -/
  bad : Bool := false
deriving DecidableEq, Repr

/-- A load that waits for a host or peer window. -/
structure HartLoad where
  rd : Nat
  signed : Bool
  va : W64
  parts : List HartPart
deriving DecidableEq, Repr

/-- A leaf that waits for its claim query (R283). -/
structure HartFill where
  t : HartTlb
  pa : Nat
  /-- the memory die has refused it -/
  refused : Bool := false
deriving DecidableEq, Repr

/-- A line of a core L1 data cache. -/
structure CoreLine where
  data : Line
  dirty : Bool
  way : Nat
deriving DecidableEq, Repr

/-- What the manual and the RISC-V architecture it names give a hart that memory commands read or write. -/
structure Hart where
  /-- x0 to x31; unlisted reads 0 -/
  x : Tbl W64 := []
  /-- 3 machine, 1 supervisor, 0 user -/
  mode : BitVec 2 := 3
  v : Bool := false
  satp : W64 := 0
  vsatp : W64 := 0
  hgatp : W64 := 0
  menvcfg : W64 := 0
  senvcfg : W64 := 0
  henvcfg : W64 := 0
  sum : Bool := false
  mxr : Bool := false
  stimecmp : W64 := 0
  /-- S-timer interrupt pending -/
  stip : Bool := false
  trap : Option HartTrap := none
  storeBuf : List HartStore := []
  /-- reservation set of LR: the 64 B line (R211) -/
  resv : Option Nat := none
  /-- waiting in WRS (R211); STO: a bounded wait -/
  wrs : Option Bool := none
  /-- a FENCE or a trap holds later accesses until earlier writes are performed (R210, R230) -/
  fenceWait : Bool := false
  /-- a DS store is on its way to a register, and holds the next instruction (R200) -/
  ds : Bool := false
  /-- writes to host and peer windows not completed (R210, R227) -/
  winStores : List HartPart := []
  load : Option HartLoad := none
  fill : Option HartFill := none
  /-- core L1 data cache (R237) -/
  l1d : Tbl CoreLine := []
  /-- core L1 instruction cache -/
  l1i : Tbl Line := []
  lfsr : BitVec 16 := 0
  tlb : List HartTlb := []
  /-- line that a load, AMO or cbo.zero waits for -/
  busy : Option Nat := none
deriving DecidableEq, Repr

/-- A loaded context, as its descriptor was read (R269, R270). -/
structure Ctx where
  panyx : Bool
  host : Bool
  hostWin : Bool
  peerWin : Bool
  mode : BitVec 4
  gmode : BitVec 4
  evq : Option (BitVec 18)
  root : BitVec 44
  groot : BitVec 44
deriving DecidableEq, Repr

/-- What a failed translation is (R272, R283, R284). -/
inductive XltFault
  /-- translation fault, status 0x05 -/
  | translation
  /-- a page-table read that failed: poisoned, reserved or out of service -/
  | tableRead
  /-- claim check at fill, status 0x04 -/
  | claim
  /-- a fault of the G-stage tables, status 0x05 -/
  | guest
deriving DecidableEq, Repr

/-- Who a walk serves: a tensor die's stream, or an engine (R275, R276). -/
inductive WalkSrc
  | stream (td : Nat) (stream : Nat)
  | engine (eng : Nat)
deriving DecidableEq, Repr

/-- A walk of a helper core (R275). -/
structure Walk where
  src : WalkSrc
  ctx : BitVec 16
  va : W64
  level : Nat
  /-- physical (or, with GMODE, guest physical) page number of the next table -/
  table : Nat
  result : Option (Sum TlbEntry XltFault) := none
  /-- an invalidate was accepted meanwhile (R279) -/
  stale : Bool := false
deriving DecidableEq, Repr

/-- The helper cores of one memory die. -/
structure Helper where
  /-- queued misses in order of arrival -/
  queue : List (WalkSrc × BitVec 16 × W64) := []
  walks : Tbl Walk := []
  next : Nat := 0
  /-- round-robin pointers over streams and engines (R275, R276) -/
  rrStream : Nat := 0
  rrEngine : Nat := 0
  /-- walk cache: (context, address of entry) of non-leaf entries, with the entry -/
  cache : List (BitVec 16 × Nat × W64) := []
  /-- claim cache: extent ↦ entry (R286) -/
  claims : Tbl W32 := []
deriving DecidableEq, Repr

/-- A context fault record that a 10 µs window holds back (R287). -/
structure FaultWindow where
  /-- when the last record was posted -/
  posted : W64
  /-- the deferred record: refusals counted, its bytes -/
  defer : Option (Nat × List Byte) := none
deriving DecidableEq, Repr

/-- A claim change in progress (R288, R289). -/
structure ClaimChange where
  scrub : BitVec 2
  /-- lines whose transactions began under the old entry -/
  todo : List Nat
deriving DecidableEq, Repr

/-- An invalidate or unload in progress (R278, R279). -/
structure XltInval where
  ctx : BitVec 16
  unload : Bool := false
  /-- the context reset of an unload has not finished -/
  resetting : Bool := false
  /-- accesses translated before it was accepted: (Spur, operation and lane, or copy and address) -/
  waits : List (Nat × Nat × Nat) := []
deriving DecidableEq, Repr

/-- Translation, contexts and claims. -/
structure Xlt where
  ctxs : Tbl Ctx := []
  inval : Option XltInval := none
  helpers : Tbl Helper := []
  /-- miss queues of engines -/
  engines : Tbl (List MissEntry) := []
  /-- claim entries of the die windows, by extent; unlisted is free -/
  windowClaims : Tbl W32 := []
  /-- ranges claimed to context 0 by boot: (first extent, count) (R286, R288) -/
  reservedClaims : List (Nat × Nat) := []
  change : Option ClaimChange := none
  /-- fault-record windows, by target die * 65536 + context -/
  windows : Tbl FaultWindow := []
deriving DecidableEq, Repr

end Sys2Proof.Machine
end

