-- ==== Sys2Proof/Machine/TierState.lean ====
section
/-! DEFINITION. State of the memory tiers (chapter 10): HBM controllers, board tier, flash translation layer,
pool and tier movers. Every default is the value after reset. -/

namespace Sys2Proof.Machine

/-- A request waiting at an HBM controller (R300, R301). -/
structure HbmReq where
  stack : Nat
  ctx : BitVec 16
  bytes : Nat
  /-- belongs to no partition (R300) -/
  exempt : Bool
  read : Bool
deriving DecidableEq, Repr

/-- Bandwidth regulation of one memory die (R301, R304). -/
structure HbmDie where
  queue : List HbmReq := []
  /-- tokens of partition n, in quarter bytes -/
  bucket : Tbl Nat := []
  /-- instant up to which the buckets have been filled -/
  filled : W64 := 0
  /-- partition served last under step 1, and under step 2, by the controller of stack j (R301) -/
  rr : Tbl Nat := []
  rr2 : Tbl Nat := []
  /-- grants of the controller of stack j since one not of context 0 in priority service (R304) -/
  prio8 : Tbl Nat := []
  /-- stack j: self-test of a pseudo-channel running; rebuild running (R304) -/
  testing : BitVec 4 := 0
  rebuilding : BitVec 4 := 0
  /-- the lock of the HBM block has been set since cold reset (R304) -/
  booted : Bool := false
deriving DecidableEq, Repr

/-- A flash image of an extent (R322): plain lines, the key epoch and generation it is sealed under, and the
sealed bytes. -/
structure FlashImage where
  ctx : BitVec 16
  epoch : Nat
  gen : W64
  plain : Tbl Line
  pages : Nat
  sealedBytes : List Byte
  /-- holds poisoned data or fails authentication (R321) -/
  bad : Bool := false
  /-- logical pages it fills -/
  lpages : List Nat := []
deriving DecidableEq, Repr

/-- A pool handle (R311 to R314). Level: 0 HBM, 1 board tier, 2 flash. -/
structure PoolEnt where
  ctx : BitVec 16
  level : Nat
  /-- extent index at levels 0 and 1 -/
  extent : Nat := 0
  place : Nat := 0
  hold : Nat := 0
  age : Nat := 0
  /-- subject of a HOLD in this interval (R314) -/
  heldNow : Bool := false
  lost : Bool := false
deriving DecidableEq, Repr

/-- A move in progress (R316); `cid`: the command it serves, if any. -/
structure PoolMove where
  dstLevel : Nat
  dstExtent : Nat
  cid : Option Nat
  /-- the copy to or from flash has passed its stream die -/
  sealed_ : Bool := false
deriving DecidableEq, Repr

/-- Quotas in extents (R317). -/
structure Quota where
  hbm : Nat := 0
  board : Nat := 0
  flash : Nat := 0
deriving DecidableEq, Repr

/-- A logical page write in the flash (R309): page, new data, its two programs. -/
structure FlashWrite where
  page : Nat
  data : List Byte
deriving DecidableEq, Repr

/-- The tier die and the HBM controllers. -/
structure Tiers where
  hbm : Tbl HbmDie := []
  /-- poisoned board-tier lines in the tier die's table, by line number (R307) -/
  boardPoison : List Nat := []
  /-- poisoned extents (R307) -/
  boardExtents : List Nat := []
  /-- lines of the pool's extents touched since the last collection, by extent (R314) -/
  touched : List Nat := []
  pool : Tbl PoolEnt := []
  moves : Tbl PoolMove := []
  images : Tbl FlashImage := []
  quotas : Tbl Quota := []
  /-- key epoch by context (R323) -/
  epochs : Tbl Nat := []
  /-- write generation (R322) -/
  gen : W64 := 0
  /-- the salt drawn at cold start (R323) -/
  salt : W64 := 0
  /-- commands waiting for a free extent or for a move -/
  waiting : List Nat := []
  /-- extents of the pool ranges fixed at lock (R311): (first, count) -/
  ranges : List (Nat × Nat) := []
  /-- next stream die to take an extent: false 14, true 15 (R324) -/
  alternate : Bool := false
  /-- eviction from HBM, from the board tier, has started and runs to its high water mark (R315) -/
  evicting : Bool × Bool := (false, false)
  /-- map: logical page ↦ physical page; data of physical pages (R308, R309) -/
  map : Tbl Nat := []
  pages : Tbl (List Byte) := []
  writes : List FlashWrite := []
  nextPage : Nat := 0
  /-- retired flash blocks (R310) -/
  badBlocks : List Nat := []
  erases : Tbl Nat := []
deriving DecidableEq, Repr

end Sys2Proof.Machine
end

