-- ==== Sys2Proof/Machine/QueueState.lean ====
section
/-! DEFINITION. State of queues, commands, copy engines and the Summit Book (chapter 12). Every default is the
value after reset. -/

namespace Sys2Proof.Machine

/-- A fetched command waiting for acceptance (R355): bytes of its slots. -/
structure Fetched where
  bytes : List Byte
  slots : Nat
deriving DecidableEq, Repr

/-- A queue as the hub holds it (R345, R347). -/
structure QueueSt where
  /-- 0 disabled, 1 active, 2 halted -/
  state : Nat := 0
  /-- 0 submission, 1 completion, 2 event -/
  kind : Nat := 0
  logSize : Nat := 4
  hport : Nat := 0
  prio : Nat := 0
  ctx : BitVec 16 := 0
  link : BitVec 18 := 0
  linkv : Bool := false
  ring : Nat := 0
  haltStatus : Byte := 0
  /-- fetch or post position, modulo 2 SIZE (R348) -/
  pos : Nat := 0
  /-- wraps of pos since enable -/
  laps : Nat := 0
  /-- last doorbell's position, or the consumer position -/
  bell : Nat := 0
  /-- doorbell recorded while halted (R347) -/
  heldBell : Option W64 := none
  /-- commands accepted and not ended, or entries reserved and not posted -/
  opened : Nat := 0
  armed : Bool := false
  lost : Nat := 0
  fetched : Option Fetched := none
  /-- a ring read behind a KSL port is outstanding; slots that have come -/
  ringBusy : Bool := false
  ringGot : List Byte := []
  /-- re-reads of a torn command (R353) -/
  rereads : Option Nat := none
  disabling : Bool := false
  /-- NOTIFY window open; NOTIFY due at its end; NOTIFY held for its port (R363) -/
  window : Bool := false
  due : Bool := false
  held : Bool := false
deriving DecidableEq, Repr

/-- How far an accepted command has come (R356, R357). -/
inductive CmdSt
  | accepted
  | started
  /-- final record written: status -/
  | ended (status : Byte)
deriving DecidableEq, Repr

/-- An accepted command (R351). -/
structure Cmd where
  queue : BitVec 18
  index : Nat
  stag : BitVec 16
  kind : Byte
  tag : W32
  prio : Nat
  ctx : BitVec 16
  fence : Bool
  /-- body bytes: 48 for one slot, 96 for two -/
  body : List Byte
  st : CmdSt := .accepted
  /-- the executing unit has taken it -/
  running : Bool := false
  info : W32 := 0
  /-- writes to a host or peer window not yet completed (R225, R360) -/
  windowWrites : Nat := 0
  /-- sequence of its latest journal record, none while that waits to be written -/
  jseq : Option Nat := none
  /-- first stopping condition met (R366, R389) -/
  stopped : Option Byte := none
  poisoned : Bool := false
  /-- bytes done, for a copy or fabric command -/
  progress : Nat := 0
  /-- a TIMED command whose instant has come (R386) -/
  due : Bool := false
  /-- command whose completion is posted before this one's (R170) -/
  after : Option Nat := none
  /-- Alpenglow time of acceptance (R386) -/
  acceptedAt : W64 := 0
deriving DecidableEq, Repr

/-- A journal record before it has its sequence (R367). -/
structure JRec where
  cid : Nat
  event : BitVec 3
  repeats : BitVec 3
  status : Byte
  queue : BitVec 18
  index : Nat
  kind : Byte
  ctx : BitVec 16
  stag : BitVec 16
  tag : W32
  time : W64
deriving DecidableEq, Repr

/-- An event waiting to be posted (R361): type, context, 32-byte body. -/
structure EventRec where
  queue : BitVec 18
  type : Byte
  ctx : BitVec 16
  body : List Byte
deriving DecidableEq, Repr

/-- The queue manager. -/
structure Queues where
  q : Tbl QueueSt := []
  cmds : Tbl Cmd := []
  nextCid : Nat := 0
  /-- events raised and not posted, oldest first -/
  events : List EventRec := []
  /-- records waiting for a place among the 64 in flight -/
  jwait : List JRec := []
  /-- records written and not passed by JOURNAL_HEAD: (sequence, acknowledged) -/
  jflight : List (Nat × Bool) := []
  jnext : Nat := 1
  /-- copy engine e (0-7 inbound, 8-15 outbound) ↦ commands in the order they reached it -/
  engines : Tbl (List Nat) := []
  /-- commands being carried: latest record of a command at a journal index -/
  jowner : Tbl Nat := []
deriving DecidableEq, Repr

end Sys2Proof.Machine
end

