-- ==== Sys2Proof/Machine/EngineState.lean ====
section
/-! DEFINITION. State of roped teams (chapter 05), Couloir engines (06) and arbiters (14). Every default is the value
after reset. -/

namespace Sys2Proof.Machine

/-- A residency (R155, R156). -/
structure Residency where
  /-- its TEAM_REGISTER command -/
  cid : Nat
  ctx : BitVec 16
  /-- bound queues with their deadline classes (R157) -/
  queues : List (BitVec 18 × BitVec 3)
  reserve : Bool
  width : Nat
  regs : Nat
  groups : Nat
  fill : Nat
  /-- QUEUE_CAP; 0: no cap -/
  cap : Nat
  /-- most teams dispatched and not finished -/
  inflight : Nat
  stall : Nat
  /-- ENTRY of the schedule's entries up to LAST (R158) -/
  schedule : List W64
  params : W64
  /-- the Spurs of the set in increasing number; rank i at place i -/
  spurs : List Nat
  inBase : Nat
  inStride : Nat
  inLen : Nat
  outBase : Nat
  outStride : Nat
  outLen : Nat
  outRank : Nat
  inOff : Nat
  inStep : Nat
  faultQueue : BitVec 18
  /-- registration waits for reservations (R167) -/
  pending : Bool := false
  /-- a Spur of the set was retired (R173) -/
  suspended : Bool := false
  /-- the TEAM_RELEASE command that waits for the last team (R175) -/
  releasing : Option Nat := none
  /-- released by a context reset -/
  dropped : Bool := false
  /-- queues favoured at the next close (R164) -/
  favoured : List (BitVec 18) := []
  /-- closed teams not yet dispatched, oldest first -/
  closed : List Nat := []
deriving DecidableEq, Repr

/-- A candidate of the team former (R161). -/
structure Candidate where
  cid : Nat
  res : Nat
  queue : BitVec 18
  cls : BitVec 3
  deadline : W64
deriving DecidableEq, Repr

/-- A row of a team. -/
structure TeamRow where
  cid : Nat
  queue : BitVec 18
  cls : BitVec 3
  inAddr : W64
  outAddr : W64
  seqPos : W32
  tag : W32
  /-- first condition met that applies to the row (R171) -/
  status : Option Byte := none
deriving DecidableEq, Repr

/-- A closed team (R163 to R170). -/
structure Team where
  res : Nat
  rows : List TeamRow
  byDeadline : Bool
  closeTime : W64
  /-- earliest deadline among its rows -/
  deadline : W64
  /-- dispatch sequence number, once dispatched (R165) -/
  seq : Option W32 := none
  late : Bool := false
  /-- Spurs on which the team block has started, and those on which it has ended -/
  started : List Nat := []
  ended : List Nat := []
  /-- index of the schedule entry that runs or is to run next -/
  entry : Nat := 0
  /-- entry each die of the set is to run next, by tensor die -/
  dieEntry : Tbl Nat := []
  /-- entry-done notices: (receiving die, sending die, entry) -/
  notices : List (Nat × Nat × Nat) := []
  /-- status of the first fault, or of what stopped the team -/
  fault : Option Byte := none
  /-- the LAST entry is done on every Spur and the outputs are being written -/
  scattering : Bool := false
  /-- rows whose completion has been posted -/
  posted : Nat := 0
deriving DecidableEq, Repr

/-- The team former (R161 to R165). -/
structure TeamFormer where
  residencies : Tbl Residency := []
  /-- candidates in accept order, module-wide -/
  cands : List Candidate := []
  teams : Tbl Team := []
  nextTeam : Nat := 0
  nextSeq : W32 := 0
deriving DecidableEq, Repr

/-- Running state of one query head of a scan (R191). -/
structure HeadState where
  m : W32
  l : W32
  o : List W32
deriving DecidableEq, Repr

/-- Where a Couloir command is. -/
inductive ClPhase
  /-- in class F5, on its way -/
  | sent
  /-- in the queue of its memory die -/
  | queued
  /-- on an engine -/
  | running (eng : Nat)
  /-- in a resume record of an engine -/
  | record (eng : Nat)
  /-- its result is on its way -/
  | result
deriving DecidableEq, Repr

/-- A Couloir command (R178). -/
structure ClCmd where
  sp : Nat
  blk : Nat
  ctx : BitVec 16
  ctr : Nat
  num : W32
  /-- memory die md, for die 5 + md -/
  md : Nat
  prio : Nat
  heads : Nat
  dim : Nat
  fmt : Nat
  btable : W64
  basePos : Nat
  nblk : Nat
  lo0 : Nat
  hi0 : Nat
  lo1 : Nat
  hi1 : Nat
  /-- result address in the Spur's local memory -/
  raddr : Nat
  scale : W32
  tag : W32
  query : List Byte := []
  phase : ClPhase := .sent
  /-- it has been resumed from a record (R417) -/
  resumed : Bool := false
  /-- next step -/
  step : Nat := 0
  keys : Nat := 0
  status : Byte := 0
  state : List HeadState := []
deriving DecidableEq, Repr

/-- The Couloir engines. -/
structure Couloir where
  cmds : Tbl ClCmd := []
  next : Nat := 0
  /-- command queue of each memory die, in order of arrival -/
  queues : Tbl (List Nat) := []
  /-- credits of tensor die td taken for memory die md, at md * 16 + td (R181) -/
  credits : Tbl Nat := []
deriving DecidableEq, Repr

/-- A request waiting at an arbiter, or its holder. -/
structure ArbReq where
  input : Nat
  /-- rank it carries (R414) -/
  rank : Option Nat := none
  /-- ranks above every other request (R414) -/
  now : Bool := false
  /-- what it serves: a number of the requester's own -/
  id : Nat
  /-- units done, kept in a resume record (R417) -/
  progress : Nat := 0
deriving DecidableEq, Repr

/-- An arbiter (R413 to R421). -/
structure Arbiter where
  queue : List ArbReq := []
  holder : Option ArbReq := none
  /-- the holder is in a locked sequence (R418) -/
  locked : Bool := false
  records : List ArbReq := []
  /-- input granted last -/
  last : Nat := 7
  /-- decisions at which an input has been passed over (R416) -/
  aged : Tbl Nat := []
deriving DecidableEq, Repr

end Sys2Proof.Machine
end

