-- ==== Sys2Proof/Machine/KslState.lean ====
section
/-! DEFINITION. State of the KSL ports (chapter 11) and of the accesses that leave the package through them or through
the fabric. Every default is the value after reset. -/

namespace Sys2Proof.Machine

/-- Whom an outbound access to a host or peer window serves. -/
inductive OutOwner
  /-- a lane of a thread's operation -/
  | lane (sp op lane : Nat)
  /-- a piece of a Spur's copy, by its virtual address -/
  | copy (sp job : Nat) (va : W64)
  | hart (h : Nat)
  /-- a command; `n`: a number of the command's own, such as an offset -/
  | cmd (cid n : Nat)
  /-- a ring read of a queue -/
  | ring (q : Nat)
  /-- a post that nothing waits for -/
  | post
deriving DecidableEq, Repr

/-- An outbound access (R340). -/
structure OutReq where
  write : Bool
  pa : Nat
  len : Nat
  ctx : BitVec 16
  data : List Byte
  owner : OutOwner
deriving DecidableEq, Repr

/-- An outbound request with its tag taken: the bytes of a read that have come (R333, R334). -/
structure KslTag where
  req : OutReq
  got : List Byte := []
deriving DecidableEq, Repr

/-- A flit in the retry buffer (R330). -/
structure KslFlit where
  seq : Nat
  slots : List Byte
  resends : Nat := 0
deriving DecidableEq, Repr

/-- An inbound WR or DB handed over and not yet answered (R337). -/
structure KslIn where
  tag : BitVec 10
  status : Byte
deriving DecidableEq, Repr

/-- A KSL port. -/
structure KslPort where
  /-- training step, 0 when not training -/
  step : Nat := 0
  /-- lanes that failed step 3 or 4 -/
  failed : BitVec 16 := 0
  /-- last sequence sent and last accepted -/
  txSeq : Nat := 0
  rxSeq : Nat := 0
  /-- discarding until the next flit in sequence; a NAK has been sent (R329) -/
  nak : Bool := false
  retry : List KslFlit := []
  /-- transactions that wait for a place in the retry buffer -/
  txq : List (KslHdr × List Byte) := []
  /-- a transaction whose data has not all come -/
  part : Option (KslHdr × List Byte) := none
  /-- transactions accepted and not performed, in order of arrival -/
  inbox : List (KslHdr × List Byte) := []
  wacks : List KslIn := []
  rdTags : Tbl KslTag := []
  wrTags : Tbl KslTag := []
  /-- outbound requests that wait for the port, a tag or credit -/
  outq : List OutReq := []
  /-- credits of the far end: requests, slots, messages (R333) -/
  k1 : Nat := 0
  k2 : Nat := 0
  k3 : Nat := 0
  lost : Bool := true
  retrainFails : Nat := 0
  /-- interrupts raised at an adapter end (R336) -/
  interrupts : List (BitVec 18) := []
  /-- CBL_PRSNT_N is low; the cable supply is on (R510) -/
  mated : Bool := false
  powered : Bool := true
deriving DecidableEq, Repr

end Sys2Proof.Machine
end

