-- ==== Sys2Proof/Machine/FabState.lean ====
section
/-! DEFINITION. State of the fabric: peers, transport flows, collective sets and the Alpenglow master (chapter 13).
Every default is the value after reset. -/

namespace Sys2Proof.Machine

/-- Whom an outbound packet serves. -/
inductive KftOwner
  /-- a write to a peer window (R381) -/
  | window (r : OutReq)
  /-- a command -/
  | cmd (cid : Nat)
  /-- the request of a read -/
  | read (opid : Nat)
  /-- a response or an announcement that nothing waits for -/
  | reply
deriving DecidableEq, Repr

/-- A DATA packet of this module (R378): the fields that its OP uses. -/
structure KftPkt where
  op : Nat
  offset : Nat := 0
  set : Nat := 0
  member : Nat := 0
  backup : Bool := false
  opid : Nat := 0
  status : Byte := 0
  data : List Byte := []
  owner : KftOwner := .reply
deriving DecidableEq, Repr

/-- A packet sent and not acknowledged. -/
structure KftSent where
  psn : W32
  pkt : KftPkt
  resends : Nat := 0
deriving DecidableEq, Repr

/-- The sending end of a flow (R379, R380). -/
structure KftTx where
  psn : W32 := 0
  /-- WRAP of R377 -/
  wraps : Nat := 0
  unacked : List KftSent := []
  queue : List KftPkt := []
  credits : Nat := 64
  cwnd : Nat := 64
  /-- packets acknowledged since cwnd was last halved; none: it has not been -/
  sinceHalf : Option Nat := none
  /-- packets acknowledged with no ECE since cwnd last changed -/
  quiet : Nat := 0
deriving DecidableEq, Repr

/-- The receiving end of a flow. -/
structure KftRx where
  /-- ACK_PSN: every PSN before it has been received -/
  next : W32 := 0
  wraps : Nat := 0
  /-- later PSNs received -/
  got : List W32 := []
  /-- packets handed to their targets and not reported performed, with their status -/
  pend : List (W32 × Byte) := []
  /-- packets since the last ACK -/
  fresh : Nat := 0
  /-- a CE-marked packet came since the last ACK -/
  ece : Bool := false
  /-- credits free to be granted -/
  grant : Nat := 0
deriving DecidableEq, Repr

/-- A loaded peer, as its entry was read (R373). -/
structure Peer where
  self : Bool
  ipv6 : Bool
  direct : Bool
  secure : Bool
  compress : Bool
  relay : Nat
  ports : Nat
  vlan : Nat
  udp : Nat
  inbound : BitVec 16
  addr : BitVec 128
  nexthop : BitVec 48
deriving DecidableEq, Repr

/-- A read of a peer window in progress, by OPID. -/
structure KftRead where
  peer : Nat
  flow : Nat
  offset : Nat
  len : Nat
  /-- an access of a window, or the command FAB_READ -/
  owner : Sum OutReq Nat
  /-- bytes received, and the data of a window access -/
  got : Nat := 0
  data : List Byte := []
deriving DecidableEq, Repr

/-- What the fabric ports have been given to send: transport packets, with the payload as it goes out, and answers to
ARP requests and neighbour solicitations. -/
inductive FabFrame
  | kft (hdr : KftHdr) (payload : List Byte)
  /-- forwarded for another module (R376) -/
  | relayed (hdr : KftHdr) (payload : List Byte)
  | answer (lp : Nat) (addr : BitVec 128)
deriving DecidableEq, Repr

/-- A member of a collective set (R390). -/
structure CollMember where
  peer : Nat
  backup : Option Nat
deriving DecidableEq, Repr

/-- A readiness announcement (R392). -/
structure CollAnn where
  member : Nat
  backup : Bool
  a : W64
deriving DecidableEq, Repr

/-- A contribution that has landed in whole or in part (R393). -/
structure CollPart where
  member : Nat
  backup : Bool
  /-- bytes landed -/
  n : Nat := 0
  /-- its pieces by offset, until it is taken or discarded -/
  data : Tbl (List Byte) := []
  /-- complete -/
  done : Bool := false
  /-- taken, or discarded and counted -/
  gone : Bool := false
deriving DecidableEq, Repr

/-- How a member's contribution was resolved (R393). -/
inductive CollTaken | primary | backup | missing
deriving DecidableEq, Repr

/-- Fields of a COLL (R391). -/
structure CollCmd where
  set : Nat
  opc : Nat
  brole : Bool
  for_ : Nat
  root : Nat
  etype : Nat
  dim : Nat
  heads : Nat
  step : W32
  src : W64
  dst : W64
  count : Nat
deriving DecidableEq, Repr

/-- A step of a set on this module. -/
structure CollStep where
  step : W32
  primary : Option Nat := none
  /-- the fields of the module's own command, kept for the contributions that come after it has ended (R393) -/
  k : Option CollCmd := none
  /-- backup commands: (member, command) -/
  backups : List (Nat × Nat) := []
  anns : List CollAnn := []
  /-- T is fixed (R392) -/
  fixed : Bool := false
  /-- S -/
  start : Option W64 := none
  /-- a member stood in by backup; stood absent -/
  stoodIn : Bool := false
  absent : Bool := false
  /-- arrival of the first contribution packet before the module's own command was accepted -/
  first : Option W64 := none
  /-- commands that have sent their contributions -/
  sent : List Nat := []
  parts : List CollPart := []
  /-- D has passed -/
  late : Bool := false
  taken : Tbl CollTaken := []
  /-- running sum of a reduce-scatter, running partials of a merge -/
  run : List W32 := []
  /-- a packet could not be landed: the status -/
  landBad : Option Byte := none
  /-- bytes to be copied into DST, by offset -/
  out : Tbl (List Byte) := []
  written : Bool := false
deriving DecidableEq, Repr

/-- A collective set (R390). -/
structure CollSet where
  ctx : BitVec 16
  members : List CollMember
  /-- this module's index -/
  me : Nat
  land : W64
  landBytes : Nat
  lead : Nat
  window : Nat
  grace : Nat
  wait : Nat
  evq : Option (BitVec 18)
  last : W32 := 0
  /-- steps by STEP[23:0] -/
  steps : Tbl CollStep := []
  /-- the COLL_RELEASE that waits for the steps in flight -/
  releasing : Option Nat := none
deriving DecidableEq, Repr

/-- The fabric dies, and the Alpenglow master's use of the 1PPS input (R508). -/
structure Fabric where
  /-- bit p: MODPRS_N of port p was high when it was last surveyed (R511) -/
  missing : BitVec 8 := 0
  peers : Tbl Peer := []
  /-- own session number for each peer, and the peer's -/
  sessions : Tbl Nat := []
  theirs : Tbl Nat := []
  /-- flows, by peer * 16 + flow -/
  tx : Tbl KftTx := []
  rx : Tbl KftRx := []
  reads : Tbl KftRead := []
  nextOp : Nat := 0
  frames : List FabFrame := []
  sets : Tbl CollSet := []
  /-- conditions that collective commands have met, in time -/
  marks : Tbl (List Byte) := []
  /-- the fabric secret that boot unwrapped (R468) -/
  secret : Option W64 := none
  ppsFirst : Option W64 := none
  ppsLast : Option W64 := none
  /-- PPS_IN was lost, and edges have not yet come for 16 s in a row -/
  ppsLost : Bool := false
deriving DecidableEq, Repr

end Sys2Proof.Machine
end

