-- ==== Sys2Proof/Machine/RidgeState.lean ====
section
/-! DEFINITION. State of the Ridge modules, the stream pairing table and the Col gate (chapter 14). Every default is the
value after reset. -/

namespace Sys2Proof.Machine

/-- A frame of class F0 to F5 (R400), with the sequence and resends it has as sent by a module. -/
structure RFrame where
  stream : Nat
  cls : Nat
  hop : Nat
  first : Bool
  last : Bool
  payload : BitVec 1920
  seq : Nat := 0
  resends : Nat := 0
  /-- input buffer that the frame leaves when it is sent on: module end and (class, hop) -/
  origin : Option (Nat × Nat) := none
deriving DecidableEq, Repr

/-- One end of a Ridge module: its sending and its receiving side (R400 to R402, R410). -/
structure RidgeModule where
  /-- last sequence sent, and last accepted -/
  txSeq : Nat := 1023
  rxSeq : Nat := 1023
  /-- discarding until the next frame in sequence (R401) -/
  discard : Bool := false
  /-- NAK, or an acknowledgement, is to go in the next frame -/
  nakDue : Bool := false
  ackDue : Bool := false
  replay : List RFrame := []
  /-- frames that wait for a grant and a credit -/
  outq : List RFrame := []
  /-- frames in the far end's (class, hop) buffer that have not been credited, by class * 8 + hop -/
  used : Tbl Nat := []
  /-- credits to be returned, by class * 8 + hop -/
  owed : Tbl Nat := []
  /-- frames put on the wire -/
  wire : List (FrameHdr × BitVec 1920) := []
  /-- lanes replaced in each direction: sending, receiving (R402) -/
  txRepairs : Nat := 0
  rxRepairs : Nat := 0
  retraining : Bool := false
  /-- retrains failed in a row -/
  fails : Nat := 0
deriving DecidableEq, Repr

/-- An entry of the stream pairing table (R404): hop k + 1 leaves by `mods[k]`; spare 0x3F: none. -/
structure Route where
  srcDie : Nat
  srcEp : Nat
  dstDie : Nat
  dstEp : Nat
  mods : List Nat
  spares : List Nat
  /-- a hop has neither its module nor its spare (R406) -/
  lost : Bool := false
deriving DecidableEq, Repr

/-- The Ridge network. -/
structure Ridge where
  /-- ends of modules, by die * 64 + local number -/
  mods : Tbl RidgeModule := []
  routes : Tbl Route := []
  /-- frames that reached their last hop, by stream -/
  delivered : Tbl (List RFrame) := []
deriving DecidableEq, Repr

/-- How far a guest's request has come (R424): at the gate, or performed, with its answer on the way. -/
inductive GuestSt
  | waiting
  | done (status : Byte) (data : Line)
deriving DecidableEq, Repr

/-- A request of a guest that passed the checks, in its window's context. -/
structure GuestReq where
  hdr : GuestHdr
  ctx : BitVec 16
  data : Line
  st : GuestSt := .waiting
deriving DecidableEq, Repr

/-- A request forwarded to a guest (R426). -/
structure GuestIn where
  id : Nat
  ctx : BitVec 16
  off : Nat
  width : Nat
  write : Option W64
deriving DecidableEq, Repr

/-- An answer to a requester of a guest's window: value (`none`: a write, or poisoned data) and status. -/
structure GuestAns where
  off : Nat
  data : Option W64
  status : Byte
deriving DecidableEq, Repr

/-- The Col gate of one guest site. -/
structure ColSite where
  /-- tokens in quarter bytes, and the instant up to which the bucket has been filled (R425) -/
  bucket : Nat := 0
  filled : W64 := 0
  /-- requests of the guest, oldest first -/
  reqs : List GuestReq := []
  /-- answers passed to the guest: TAG, status, data -/
  answers : List (BitVec 10 × Byte × Option Line) := []
  /-- requests forwarded to the guest and not answered -/
  inbound : List GuestIn := []
  nextId : Nat := 0
  /-- answers given to requesters -/
  replies : List GuestAns := []
deriving DecidableEq, Repr

end Sys2Proof.Machine
end

