-- ==== Sys2Proof/Machine/PowerState.lean ====
section
/-! DEFINITION. State of the power controllers and of the power manager (chapter 15). Watts are counted in quarters.
Every default is the value after reset. -/

namespace Sys2Proof.Machine

/-- The power controller of a die. -/
structure PwrDie where
  /-- calibration gain g (R445) -/
  g : Rat := 1
  /-- latest estimate e -/
  e : Nat := 0
  /-- latest measurement of each rail group of the domain -/
  meas : Tbl Nat := []
  /-- groups that have reported since the last sample of the domain was formed -/
  got : List Nat := []
  /-- samples that disagree in a row, with Σm and Σē over them (R446) -/
  dis : Nat := 0
  disM : Nat := 0
  disE : Nat := 0
  /-- samples that agree in a row, in mode 1 -/
  agree : Nat := 0
  /-- plausible samples in a row, in mode 2, with Σm and Σē over them -/
  good : Nat := 0
  goodM : Nat := 0
  goodE : Nat := 0
  /-- steps below the top of its clock or rate (R435) -/
  step : Nat := 0
  /-- last 20 ticks, newest first: P_ctl, and whether the loop lowered the clock or held a ramp (R437, R442) -/
  ticks : List (Nat × Bool) := []
  /-- in mode 1: the loop has lowered the clock or held a ramp since the last tick (R446) -/
  lowered : Bool := false
  /-- highest sum of P_ctl over 10 ticks in the epoch, and the sum and number of the ticks of the current 10 µs -/
  high : Nat := 0
  sum : Nat := 0
  cnt : Nat := 0
  /-- grant received for an epoch not yet begun: (k, value) (R440) -/
  next : Option (Nat × Nat) := none
  /-- epoch that the grant in effect names -/
  gotFor : Option Nat := none
  /-- current epoch -/
  epoch : Nat := 0
  /-- lent in the current epoch (R442) -/
  lent : Nat := 0
  /-- loans taken, newest first: (epoch each was made in, amount) (R442) -/
  loans : List (Nat × Nat) := []
  /-- LIMITED of the last status, by sender -/
  status : Tbl Bool := []
  /-- loan slot, by sender: (epoch, amount, it is a return) -/
  slots : Tbl (Nat × Nat × Bool) := []
  /-- neighbour whose turn it is -/
  turn : Bool := false
  /-- 0 no stretch, 1 DROOP_N asserted, 2 hold, 3 recovery (R449) -/
  droop : Nat := 0
  /-- rail groups that assert DROOP_N -/
  asserting : List Nat := []
  /-- HBM service gaps are inserted (R453) -/
  gaps : Bool := false
  /-- measured and estimated power over the samples since the last report (R437) -/
  repM : Nat := 0
  repE : Nat := 0
deriving DecidableEq, Repr

/-- A die's report (R437): epoch, demand, measured and estimated power. -/
structure PwrReport where
  k : Nat
  demand : Rat
  measured : Nat
  estimated : Nat
deriving DecidableEq, Repr

/-- The power manager on the hub, and the controllers. -/
structure Power where
  dies : Tbl PwrDie := []
  /-- rail groups 0 to 39, and 40 for the input stage, that are failed (R444, R447) -/
  failed : List Nat := []
  /-- last 1,000 samples of the input stage, newest first: Σ of rail measurements, input power (quarter watts), volts
  (10 mV) -/
  hist : List (Nat × Nat × Nat) := []
  reports : Tbl PwrReport := []
  /-- grant slot of each die: (k, value) (R439) -/
  grants : Tbl (Nat × Nat) := []
deriving DecidableEq, Repr

end Sys2Proof.Machine
end

