-- ==== Sys2Proof/Machine/BootState.lean ====
section
/-! DEFINITION. State of power-on, boot, security and resets (chapter 16), of the background services (17) and of the
management interface (18). Every default is the value after reset. -/

namespace Sys2Proof.Machine

/-- Fuses (R465, R466). -/
structure Fuses where
  /-- partner code: 0 on FJW-9100, 1 to 999 on FJW-9100-Gnnn (R1, HUB_MODULE_ID) -/
  partner : Nat := 0
  /-- blown SVN fuses: the fused minimum -/
  svn : Nat := 0
  /-- bit i: vendor slot i is revoked -/
  revoked : BitVec 4 := 0
  /-- key hashes of the enrolled owner slots, in slot order -/
  owners : List (List Byte) := []
deriving DecidableEq, Repr

/-- The copies of the configuration flash (chapter 16): bytes from each copy's start; what is not listed reads 0xFF. -/
structure ConfigFlash where
  a : List Byte := []
  b : List Byte := []
deriving DecidableEq, Repr

/-- A request of the security processor (R466, R470, R472): the context that wrote it, its kind, request block, result
buffer. -/
structure SecReq where
  ctx : BitVec 16
  kind : Nat
  addr : Nat
  bufk : Nat
deriving DecidableEq, Repr

/-- A reset of a die in progress: its write-back has ended, by the last line or the 100 µs bound (R230). -/
structure DieReset where
  written : Bool := false
  /-- a thermal trip holds the die (R452) -/
  trip : Bool := false
  /-- it started by HUB_RESET_CMD, whose BUSY it holds -/
  cmd : Bool := false
  /-- the die left service for good: no self-test follows -/
  out : Bool := false
deriving DecidableEq, Repr

/-- Boot, security and reset state. -/
structure Boot where
  /-- STATE of the status window (R344): 0 survey, 1 image, 2 boot, 3 ready, 4 fabric-ready, 5 failed, 6 powering down -/
  state : Nat := 0
  /-- the rails of the hub are up -/
  powered : Bool := true
  /-- the input lies in its operating range -/
  vin : Bool := true
  /-- RESET_N is low -/
  rstLow : Bool := false
  /-- PWR_GOOD and FAULT_N (asserted) (R502) -/
  pwrGood : Bool := false
  faultN : Bool := false
  /-- ADDR1, ADDR0, MGMT_I3C as sampled, MGMT_I3C in bit 0 (R501) -/
  straps : BitVec 3 := 0
  fuses : Fuses := {}
  flash : ConfigFlash := {}
  /-- the chosen image in the security processor's memory, through byte LENGTH − 1 (R462) -/
  image : List Byte := []
  /-- measurement log and PCR (R471) -/
  log : List (List Byte) := []
  pcr : List Byte := List.replicate 64 0
  rechecks : Nat := 0
  sec : Option SecReq := none
  /-- dies in die reset, or taken out of service and not yet cleared -/
  resets : Tbl DieReset := []
  /-- the context whose reset is in progress -/
  ctxReset : Option (BitVec 16) := none
  /-- the orderly power-down has been requested (R504) -/
  down : Bool := false
  /-- fuse requests of the chosen image are still pending (R465) -/
  fuseDue : Bool := false
deriving DecidableEq, Repr

/-- A self-test waiting or running (R490 to R492). -/
structure SelfTest where
  rid : Rid
  now : Bool
  running : Bool := false
  /-- requested by HUB_SELFTEST_CMD -/
  cmd : Bool
deriving DecidableEq, Repr

/-- Reliability state and background services (chapter 17). -/
structure Service where
  /-- times of a resource's last events, newest first, by RID (R478) -/
  times : Tbl (List W64) := []
  /-- when event 0x10 of a resource was last posted, and events since (R494) -/
  posted : Tbl W64 := []
  unposted : Tbl Nat := []
  /-- retired cache ways and Ridge lanes, by RID -/
  retired : List Nat := []
  /-- waiting and running self-tests, oldest first -/
  tests : List SelfTest := []
  /-- items that Cairn calibrates now; abandonments in a row of an item (R487, R488) -/
  cairn : List Nat := []
  abandons : Tbl Nat := []
  /-- lines done in the current pass: HBM stack, by memory die * 4 + stack, and board tier (R483) -/
  hbmDone : Tbl Nat := []
  boardDone : Nat := 0
  /-- the period of the current pass has ended (R486) -/
  hbmOver : Bool := false
  boardOver : Bool := false
  /-- lines rewritten by a stack's rebuild, by memory die * 4 + stack (R480) -/
  rebuilt : Tbl Nat := []
deriving DecidableEq, Repr

/-- Instructions of the test access port (R509). -/
inductive JtagInstr | bypass | idcode | sample | extest | highz
deriving DecidableEq, Repr

/-- What the management endpoint has answered last. -/
inductive MgmtReply
  /-- PLDM types supported -/
  | types (l : List Nat)
  /-- a sensor's value; none: unavailable -/
  | sensor (v : Option Int)
  /-- part number, partner code, stepping letter and digit, serial -/
  | fru (part partner major minor : Nat) (serial : W64)
  /-- the written copy verified, or failed verification -/
  | verified (ok : Bool)
deriving DecidableEq, Repr

/-- The management endpoint and the test access port (chapter 18). -/
structure Mgmt where
  /-- I3C dynamic address -/
  dyn : Option (BitVec 7) := none
  eid : Option (BitVec 8) := none
  /-- an alert is raised: ALERT_N is asserted (I2C), or an in-band interrupt is pending (I3C) -/
  alert : Bool := false
  reply : Option MgmtReply := none
  /-- the transfer of an update has ended and its check is due -/
  verifyDue : Bool := false
  /-- a transfer is in progress -/
  updating : Bool := false
  jtag : JtagInstr := .idcode
  /-- boundary register -/
  boundary : List Bool := []
deriving DecidableEq, Repr

end Sys2Proof.Machine
end

