-- ==== Sys2Proof/Machine/State.lean ====
section
/-! DEFINITION. State of the module, the messages in flight between its units, the faults and refusals, and the
state after reset. -/

namespace Sys2Proof.Machine

/-- Access types of register fields (R4). -/
inductive FieldAcc | ro | rw | w1c | wo | rwl | shd
deriving DecidableEq, Repr

/-- Which dies hold a register. -/
inductive DieSet | hub | core | memory | fabric | fabric11 | tier | tensor | every
deriving DecidableEq, Repr

/-- A field of a register table: bits, access type, kept by a warm reset. -/
structure FieldSpec where
  hi : Nat
  lo : Nat
  acc : FieldAcc
  kept : Bool
deriving DecidableEq, Repr

/-- A register table of the manual. -/
structure RegSpec where
  name : String
  dies : DieSet
  off : Nat
  stride : Nat
  count : Nat
  width : Nat
  cold : Nat
  fields : List FieldSpec
deriving DecidableEq, Repr

/-- A named register field: offset, stride of an array, bits, cold value of the register. -/
structure FRef where
  off : Nat
  stride : Nat
  hi : Nat
  lo : Nat
  cold : Nat
deriving DecidableEq, Repr

/-- A message in flight between two units of the package or the module. -/
inductive Msg
  /-- a coherence request on its way to a home (R241) -/
  | home (md : Nat) (req : HomeReq)
  | fwdShared (agent line : Nat) (requester : Nat)
  | fwdUnique (agent line : Nat) (requester : Nat)
  | fwdOnce (agent line : Nat) (requester : Nat)
  | recall (agent line : Nat)
  | inval (agent line : Nat)
  | reply (md agent line : Nat) (r : HomeReply)
  /-- data and grant; state I: the request was refused (R285) -/
  | grant (agent line : Nat) (st : Moesi) (data : Line) (poison : Bool)
  /-- data or completion for an uncached request -/
  | once (src line : Nat) (data : Line) (poison refused : Bool)
  | wbAck (agent line : Nat) (declined : Bool)
  /-- a register write on its way to a window (R202); `src` names the access it belongs to -/
  | regWrite (die off width : Nat) (val : W64) (ctx : BitVec 16) (src : Nat)
  /-- a doorbell on its way to the hub (R350) -/
  | doorbell (q : BitVec 18) (ctx : BitVec 16) (val : W64) (src : Nat)
  /-- a DS store of 16 bytes by a group to a Couloir port of its die (R177) -/
  | clPort (sp slot n : Nat) (data : BitVec 128) (src : Nat)
  /-- a team dispatch message to tensor die 16 + td (R165) -/
  | dispatch (td : Nat) (seq : W32) (team : Nat)
  /-- an entry-done notice to tensor die 16 + td from 16 + src (R169) -/
  | entryDone (td src team entry : Nat)
deriving DecidableEq, Repr

/-- The state of the module. -/
structure State where
  /-- commands waiting, first in first out -/
  pending : List Instr := []
  /-- Alpenglow time in ns (R384) -/
  time : W64 := 0
  /-- draws of free values so far (the model's own field) -/
  free : Nat := 0
  /-- registers in effect, by die * 2^28 + offset; unlisted is the cold-reset value -/
  regs : Tbl W64 := []
  /-- shadow values of registers with SHD fields (R4) -/
  shadow : Tbl W64 := []
  /-- HBM and board tier by physical address -/
  mem : List Host.Cell := []
  /-- poisoned lines of HBM, by line number (R247) -/
  poison : List Nat := []
  net : List Msg := []
  spurs : Tbl Spur := []
  tdies : Tbl TensorDie := []
  kernels : Tbl Kernel := []
  harts : Tbl Hart := []
  coh : Coherence := {}
  xlt : Xlt := {}
  tiers : Tiers := {}
  qs : Queues := {}
  former : TeamFormer := {}
  cl : Couloir := {}
  /-- arbiters, by die * 4096 + index -/
  arbs : Tbl Arbiter := []
  ksl : Tbl KslPort := []
  fab : Fabric := {}
  ridge : Ridge := {}
  /-- Col gates of guest sites 14 and 15, by site - 14 -/
  col : Tbl ColSite := []
  pwr : Power := {}
  boot : Boot := {}
  svc : Service := {}
  mgmt : Mgmt := {}
deriving DecidableEq, Repr

/-- Faults: what stops the module. -/
inductive Fault
  /-- the input exceeded 60 V: what follows is undefined (R430). Raised by INPUT_SAMPLE and INPUT_VOLTAGE_TRIP.
  Safe: nothing is claimed of the module after it. -/
  | undefinedAfterOvervoltage
deriving DecidableEq, Repr

/-- Refusals. -/
inductive Refusal
  /-- a command without a meaning. Safe. -/
  | notModelled (mnemonic : String)
deriving DecidableEq, Repr

/-- The module right after cold reset. -/
def State.reset : State := {}

end Sys2Proof.Machine
end

