-- ==== Sys2Proof/Machine/RegNames.lean ====
section
/-! DEFINITION. A name for each register field of the manual: its place in the window (offset, stride of an
array), its bits and the register's cold value. The die-class prefix is dropped where the register has the same
layout on every die. -/

namespace Sys2Proof.Machine.R

/-- DIE_ID.STEP_MAJOR, chapter 01. -/
abbrev DIE_ID_STEP_MAJOR : FRef := ⟨0x0, 0, 31, 28, 0x10000000⟩
/-- DIE_ID.STEP_MINOR, chapter 01. -/
abbrev DIE_ID_STEP_MINOR : FRef := ⟨0x0, 0, 27, 24, 0x10000000⟩
/-- DIE_ID.DIE_INDEX, chapter 01. -/
abbrev DIE_ID_DIE_INDEX : FRef := ⟨0x0, 0, 20, 16, 0x10000000⟩
/-- DIE_ID.DIE_CLASS, chapter 01. -/
abbrev DIE_ID_DIE_CLASS : FRef := ⟨0x0, 0, 15, 12, 0x10000000⟩
/-- HUB_MODULE_ID.PART, chapter 01. -/
abbrev HUB_MODULE_ID_PART : FRef := ⟨0x8, 0, 63, 48, 0x9100000400000000⟩
/-- HUB_MODULE_ID.PARTNER_CODE, chapter 01. -/
abbrev HUB_MODULE_ID_PARTNER_CODE : FRef := ⟨0x8, 0, 47, 38, 0x9100000400000000⟩
/-- HUB_MODULE_ID.STEP_MAJOR, chapter 01. -/
abbrev HUB_MODULE_ID_STEP_MAJOR : FRef := ⟨0x8, 0, 37, 34, 0x9100000400000000⟩
/-- HUB_MODULE_ID.STEP_MINOR, chapter 01. -/
abbrev HUB_MODULE_ID_STEP_MINOR : FRef := ⟨0x8, 0, 33, 30, 0x9100000400000000⟩
/-- HUB_MODULE_SERIAL.SERIAL, chapter 01. -/
abbrev HUB_MODULE_SERIAL_SERIAL : FRef := ⟨0x10, 0, 63, 0, 0x0⟩
/-- HUB_DIE_MAP.IN_SERVICE, chapter 01. -/
abbrev HUB_DIE_MAP_IN_SERVICE : FRef := ⟨0x18, 0, 31, 0, 0x1⟩
/-- HUB_SHAPE0.DIES, chapter 01. -/
abbrev HUB_SHAPE0_DIES : FRef := ⟨0x20, 0, 63, 58, 0x8020108420020108⟩
/-- HUB_SHAPE0.SPURS, chapter 01. -/
abbrev HUB_SHAPE0_SPURS : FRef := ⟨0x20, 0, 57, 46, 0x8020108420020108⟩
/-- HUB_SHAPE0.ARRAYS_PER_SPUR, chapter 01. -/
abbrev HUB_SHAPE0_ARRAYS_PER_SPUR : FRef := ⟨0x20, 0, 45, 42, 0x8020108420020108⟩
/-- HUB_SHAPE0.LANE_UNITS_PER_SPUR, chapter 01. -/
abbrev HUB_SHAPE0_LANE_UNITS_PER_SPUR : FRef := ⟨0x20, 0, 41, 38, 0x8020108420020108⟩
/-- HUB_SHAPE0.LANES_PER_UNIT, chapter 01. -/
abbrev HUB_SHAPE0_LANES_PER_UNIT : FRef := ⟨0x20, 0, 37, 30, 0x8020108420020108⟩
/-- HUB_SHAPE0.ARRAY_DIM, chapter 01. -/
abbrev HUB_SHAPE0_ARRAY_DIM : FRef := ⟨0x20, 0, 29, 22, 0x8020108420020108⟩
/-- HUB_SHAPE0.SCALAR_CORES, chapter 01. -/
abbrev HUB_SHAPE0_SCALAR_CORES : FRef := ⟨0x20, 0, 21, 10, 0x8020108420020108⟩
/-- HUB_SHAPE0.SPURS_PER_REGION, chapter 01. -/
abbrev HUB_SHAPE0_SPURS_PER_REGION : FRef := ⟨0x20, 0, 9, 6, 0x8020108420020108⟩
/-- HUB_SHAPE0.REGIONS_PER_TENSOR_DIE, chapter 01. -/
abbrev HUB_SHAPE0_REGIONS_PER_TENSOR_DIE : FRef := ⟨0x20, 0, 5, 2, 0x8020108420020108⟩
/-- HUB_SHAPE1.MEMORY_DIES, chapter 01. -/
abbrev HUB_SHAPE1_MEMORY_DIES : FRef := ⟨0x28, 0, 63, 60, 0x6618080420080000⟩
/-- HUB_SHAPE1.HBM_STACKS, chapter 01. -/
abbrev HUB_SHAPE1_HBM_STACKS : FRef := ⟨0x28, 0, 59, 54, 0x6618080420080000⟩
/-- HUB_SHAPE1.COULOIR_ENGINES, chapter 01. -/
abbrev HUB_SHAPE1_COULOIR_ENGINES : FRef := ⟨0x28, 0, 53, 46, 0x6618080420080000⟩
/-- HUB_SHAPE1.BOARD_CHANNELS, chapter 01. -/
abbrev HUB_SHAPE1_BOARD_CHANNELS : FRef := ⟨0x28, 0, 45, 36, 0x6618080420080000⟩
/-- HUB_SHAPE1.FLASH_CHANNELS, chapter 01. -/
abbrev HUB_SHAPE1_FLASH_CHANNELS : FRef := ⟨0x28, 0, 35, 30, 0x6618080420080000⟩
/-- HUB_SHAPE1.HBM_GIB_PER_STACK, chapter 01. -/
abbrev HUB_SHAPE1_HBM_GIB_PER_STACK : FRef := ⟨0x28, 0, 29, 22, 0x6618080420080000⟩
/-- HUB_SHAPE1.BOARD_GIB, chapter 01. -/
abbrev HUB_SHAPE1_BOARD_GIB : FRef := ⟨0x28, 0, 21, 8, 0x6618080420080000⟩
/-- HUB_SHAPE2.QUEUE_ID_BITS, chapter 01. -/
abbrev HUB_SHAPE2_QUEUE_ID_BITS : FRef := ⟨0x30, 0, 63, 59, 0x9121800208800000⟩
/-- HUB_SHAPE2.KSL_PORTS, chapter 01. -/
abbrev HUB_SHAPE2_KSL_PORTS : FRef := ⟨0x30, 0, 58, 55, 0x9121800208800000⟩
/-- HUB_SHAPE2.FABRIC_PORTS, chapter 01. -/
abbrev HUB_SHAPE2_FABRIC_PORTS : FRef := ⟨0x30, 0, 54, 50, 0x9121800208800000⟩
/-- HUB_SHAPE2.FLASH_EXPORT_GIB, chapter 01. -/
abbrev HUB_SHAPE2_FLASH_EXPORT_GIB : FRef := ⟨0x30, 0, 49, 34, 0x9121800208800000⟩
/-- HUB_SHAPE2.CONTEXT_ID_BITS, chapter 01. -/
abbrev HUB_SHAPE2_CONTEXT_ID_BITS : FRef := ⟨0x30, 0, 33, 29, 0x9121800208800000⟩
/-- HUB_SHAPE2.CORES_PER_CLUSTER, chapter 01. -/
abbrev HUB_SHAPE2_CORES_PER_CLUSTER : FRef := ⟨0x30, 0, 28, 25, 0x9121800208800000⟩
/-- HUB_SHAPE2.CLUSTERS_PER_SCALAR_REGION, chapter 01. -/
abbrev HUB_SHAPE2_CLUSTERS_PER_SCALAR_REGION : FRef := ⟨0x30, 0, 24, 21, 0x9121800208800000⟩
/-- HUB_SHAPE3.LOCAL_KIB, chapter 01. -/
abbrev HUB_SHAPE3_LOCAL_KIB : FRef := ⟨0x38, 0, 63, 50, 0x8001001001010200⟩
/-- HUB_SHAPE3.ACC_KIB, chapter 01. -/
abbrev HUB_SHAPE3_ACC_KIB : FRef := ⟨0x38, 0, 49, 38, 0x8001001001010200⟩
/-- HUB_SHAPE3.L1_KIB, chapter 01. -/
abbrev HUB_SHAPE3_L1_KIB : FRef := ⟨0x38, 0, 37, 28, 0x8001001001010200⟩
/-- HUB_SHAPE3.L2_MIB_PER_REGION, chapter 01. -/
abbrev HUB_SHAPE3_L2_MIB_PER_REGION : FRef := ⟨0x38, 0, 27, 20, 0x8001001001010200⟩
/-- HUB_SHAPE3.L3_MIB_PER_MEMORY_DIE, chapter 01. -/
abbrev HUB_SHAPE3_L3_MIB_PER_MEMORY_DIE : FRef := ⟨0x38, 0, 19, 10, 0x8001001001010200⟩
/-- HUB_SHAPE3.TEAM_STAGE_KIB, chapter 01. -/
abbrev HUB_SHAPE3_TEAM_STAGE_KIB : FRef := ⟨0x38, 0, 9, 0, 0x8001001001010200⟩
/-- HUB_PANYX_SHAPE.CORES, chapter 01. -/
abbrev HUB_PANYX_SHAPE_CORES : FRef := ⟨0x40, 0, 31, 20, 0x8012000⟩
/-- HUB_PANYX_SHAPE.CHIPS, chapter 01. -/
abbrev HUB_PANYX_SHAPE_CHIPS : FRef := ⟨0x40, 0, 19, 16, 0x8012000⟩
/-- HUB_PANYX_SHAPE.GROUP_WIDTH, chapter 01. -/
abbrev HUB_PANYX_SHAPE_GROUP_WIDTH : FRef := ⟨0x40, 0, 15, 8, 0x8012000⟩
/-- TNS_L1_CFG.LFSR_SEED, chapter 02. -/
abbrev TNS_L1_CFG_LFSR_SEED : FRef := ⟨0x1000000, 0, 31, 16, 0xace10000⟩
/-- TNS_L1_CFG.BYPASS, chapter 02. -/
abbrev TNS_L1_CFG_BYPASS : FRef := ⟨0x1000000, 0, 0, 0, 0xace10000⟩
/-- TNS_RAMP_CFG.DOWN_STEPS, chapter 03. -/
abbrev TNS_RAMP_CFG_DOWN_STEPS : FRef := ⟨0x1000008, 0, 14, 10, 0x1882⟩
/-- TNS_RAMP_CFG.UP_STEPS, chapter 03. -/
abbrev TNS_RAMP_CFG_UP_STEPS : FRef := ⟨0x1000008, 0, 9, 5, 0x1882⟩
/-- TNS_RAMP_CFG.HOLD, chapter 03. -/
abbrev TNS_RAMP_CFG_HOLD : FRef := ⟨0x1000008, 0, 4, 0, 0x1882⟩
/-- TNS_ARRAY_MAP.IN_SERVICE, chapter 03. -/
abbrev TNS_ARRAY_MAP_IN_SERVICE : FRef := ⟨0x1000010, 0, 31, 0, 0x0⟩
/-- TNS_SR_SEED.SEED, chapter 04. -/
abbrev TNS_SR_SEED_SEED : FRef := ⟨0x1000018, 0, 63, 0, 0xf1e2d3c4b5a6978⟩
/-- HUB_TEAM_CLASS.DEADLINE_US, chapter 05. -/
abbrev HUB_TEAM_CLASS_DEADLINE_US : FRef := ⟨0x1300000, 4, 13, 0, 0xc8⟩
/-- HUB_TEAM_DISPATCHED.COUNT, chapter 05. -/
abbrev HUB_TEAM_DISPATCHED_COUNT : FRef := ⟨0x1300040, 0, 63, 0, 0x0⟩
/-- HUB_TEAM_LATE.COUNT, chapter 05. -/
abbrev HUB_TEAM_LATE_COUNT : FRef := ⟨0x1300048, 0, 63, 0, 0x0⟩
/-- HUB_TEAM_OVF.LATE_OVF, chapter 05. -/
abbrev HUB_TEAM_OVF_LATE_OVF : FRef := ⟨0x1300050, 0, 1, 1, 0x0⟩
/-- HUB_TEAM_OVF.DISPATCHED_OVF, chapter 05. -/
abbrev HUB_TEAM_OVF_DISPATCHED_OVF : FRef := ⟨0x1300050, 0, 0, 0, 0x0⟩
/-- TNS_CL_PORT.CMD, chapter 06. -/
abbrev TNS_CL_PORT_CMD : FRef := ⟨0x1200000, 16, 127, 0, 0x0⟩
/-- MEM_CL_MAP.IN_SERVICE, chapter 06. -/
abbrev MEM_CL_MAP_IN_SERVICE : FRef := ⟨0x1800000, 0, 15, 0, 0x0⟩
/-- MEM_CL_COMMANDS.COUNT, chapter 06. -/
abbrev MEM_CL_COMMANDS_COUNT : FRef := ⟨0x1800008, 0, 63, 0, 0x0⟩
/-- MEM_CL_PREEMPTS.COUNT, chapter 06. -/
abbrev MEM_CL_PREEMPTS_COUNT : FRef := ⟨0x1800010, 0, 63, 0, 0x0⟩
/-- MEM_CL_OVF.PREEMPTS_OVF, chapter 06. -/
abbrev MEM_CL_OVF_PREEMPTS_OVF : FRef := ⟨0x1800018, 0, 1, 1, 0x0⟩
/-- MEM_CL_OVF.COMMANDS_OVF, chapter 06. -/
abbrev MEM_CL_OVF_COMMANDS_OVF : FRef := ⟨0x1800018, 0, 0, 0, 0x0⟩
/-- TNS_L2_CFG.LFSR_SEED, chapter 08. -/
abbrev TNS_L2_CFG_LFSR_SEED : FRef := ⟨0x1000020, 0, 31, 16, 0x5a3c0000⟩
/-- CORE_L2_CFG.LFSR_SEED, chapter 08. -/
abbrev CORE_L2_CFG_LFSR_SEED : FRef := ⟨0x1000000, 0, 31, 16, 0x3c960000⟩
/-- MEM_L3_CFG.LFSR_SEED, chapter 08. -/
abbrev MEM_L3_CFG_LFSR_SEED : FRef := ⟨0x1100000, 0, 31, 16, 0xb4000030⟩
/-- MEM_L3_CFG.DECLINE_THRESH, chapter 08. -/
abbrev MEM_L3_CFG_DECLINE_THRESH : FRef := ⟨0x1100000, 0, 6, 0, 0xb4000030⟩
/-- MEM_DIR_PROBE_ADDR.LINE, chapter 08. -/
abbrev MEM_DIR_PROBE_ADDR_LINE : FRef := ⟨0x1100008, 0, 51, 6, 0x0⟩
/-- MEM_DIR_PROBE_DATA.DONE, chapter 08. -/
abbrev MEM_DIR_PROBE_DATA_DONE : FRef := ⟨0x1100010, 0, 63, 63, 0x0⟩
/-- MEM_DIR_PROBE_DATA.HIT, chapter 08. -/
abbrev MEM_DIR_PROBE_DATA_HIT : FRef := ⟨0x1100010, 0, 62, 62, 0x0⟩
/-- MEM_DIR_PROBE_DATA.L3, chapter 08. -/
abbrev MEM_DIR_PROBE_DATA_L3 : FRef := ⟨0x1100010, 0, 61, 60, 0x0⟩
/-- MEM_DIR_PROBE_DATA.FOREIGN, chapter 08. -/
abbrev MEM_DIR_PROBE_DATA_FOREIGN : FRef := ⟨0x1100010, 0, 59, 59, 0x0⟩
/-- MEM_DIR_PROBE_DATA.DSTATE, chapter 08. -/
abbrev MEM_DIR_PROBE_DATA_DSTATE : FRef := ⟨0x1100010, 0, 47, 45, 0x0⟩
/-- MEM_DIR_PROBE_DATA.OWNER, chapter 08. -/
abbrev MEM_DIR_PROBE_DATA_OWNER : FRef := ⟨0x1100010, 0, 44, 39, 0x0⟩
/-- MEM_DIR_PROBE_DATA.PVALID, chapter 08. -/
abbrev MEM_DIR_PROBE_DATA_PVALID : FRef := ⟨0x1100010, 0, 38, 35, 0x0⟩
/-- MEM_DIR_PROBE_DATA.PTR3, chapter 08. -/
abbrev MEM_DIR_PROBE_DATA_PTR3 : FRef := ⟨0x1100010, 0, 34, 29, 0x0⟩
/-- MEM_DIR_PROBE_DATA.PTR2, chapter 08. -/
abbrev MEM_DIR_PROBE_DATA_PTR2 : FRef := ⟨0x1100010, 0, 28, 23, 0x0⟩
/-- MEM_DIR_PROBE_DATA.PTR1, chapter 08. -/
abbrev MEM_DIR_PROBE_DATA_PTR1 : FRef := ⟨0x1100010, 0, 22, 17, 0x0⟩
/-- MEM_DIR_PROBE_DATA.PTR0, chapter 08. -/
abbrev MEM_DIR_PROBE_DATA_PTR0 : FRef := ⟨0x1100010, 0, 16, 11, 0x0⟩
/-- MEM_COH_EVT.COUNT, chapter 08. -/
abbrev MEM_COH_EVT_COUNT : FRef := ⟨0x1100020, 8, 63, 0, 0x0⟩
/-- MEM_COH_OVF.OVF, chapter 08. -/
abbrev MEM_COH_OVF_OVF : FRef := ⟨0x1100040, 0, 3, 0, 0x0⟩
/-- HUB_CTX_TABLE.BASE, chapter 09. -/
abbrev HUB_CTX_TABLE_BASE : FRef := ⟨0x1400000, 0, 51, 22, 0x0⟩
/-- HUB_CTX_CMD.OP, chapter 09. -/
abbrev HUB_CTX_CMD_OP : FRef := ⟨0x1400008, 0, 19, 16, 0x0⟩
/-- HUB_CTX_CMD.CTX, chapter 09. -/
abbrev HUB_CTX_CMD_CTX : FRef := ⟨0x1400008, 0, 15, 0, 0x0⟩
/-- HUB_CTX_STATUS.BUSY, chapter 09. -/
abbrev HUB_CTX_STATUS_BUSY : FRef := ⟨0x1400010, 0, 31, 31, 0x0⟩
/-- HUB_CTX_STATUS.DROPPED, chapter 09. -/
abbrev HUB_CTX_STATUS_DROPPED : FRef := ⟨0x1400010, 0, 30, 30, 0x0⟩
/-- HUB_CTX_STATUS.RESULT, chapter 09. -/
abbrev HUB_CTX_STATUS_RESULT : FRef := ⟨0x1400010, 0, 23, 16, 0x0⟩
/-- HUB_CTX_STATUS.CTX, chapter 09. -/
abbrev HUB_CTX_STATUS_CTX : FRef := ⟨0x1400010, 0, 15, 0, 0x0⟩
/-- HUB_CLAIM_ARG.COUNT, chapter 09. -/
abbrev HUB_CLAIM_ARG_COUNT : FRef := ⟨0x1400018, 0, 43, 22, 0x0⟩
/-- HUB_CLAIM_ARG.FIRST, chapter 09. -/
abbrev HUB_CLAIM_ARG_FIRST : FRef := ⟨0x1400018, 0, 21, 0, 0x0⟩
/-- HUB_CLAIM_CMD.SCRUB, chapter 09. -/
abbrev HUB_CLAIM_CMD_SCRUB : FRef := ⟨0x1400020, 0, 19, 18, 0x0⟩
/-- HUB_CLAIM_CMD.MODE, chapter 09. -/
abbrev HUB_CLAIM_CMD_MODE : FRef := ⟨0x1400020, 0, 17, 16, 0x0⟩
/-- HUB_CLAIM_CMD.CTX, chapter 09. -/
abbrev HUB_CLAIM_CMD_CTX : FRef := ⟨0x1400020, 0, 15, 0, 0x0⟩
/-- HUB_CLAIM_STATUS.BUSY, chapter 09. -/
abbrev HUB_CLAIM_STATUS_BUSY : FRef := ⟨0x1400028, 0, 31, 31, 0x0⟩
/-- HUB_CLAIM_STATUS.DROPPED, chapter 09. -/
abbrev HUB_CLAIM_STATUS_DROPPED : FRef := ⟨0x1400028, 0, 30, 30, 0x0⟩
/-- HUB_CLAIM_STATUS.RESULT, chapter 09. -/
abbrev HUB_CLAIM_STATUS_RESULT : FRef := ⟨0x1400028, 0, 7, 0, 0x0⟩
/-- MEM_CLAIM_BASE.BASE, chapter 09. -/
abbrev MEM_CLAIM_BASE_BASE : FRef := ⟨0x1400000, 0, 51, 24, 0x0⟩
/-- MEM_CLAIM_REFUSED.COUNT, chapter 09. -/
abbrev MEM_CLAIM_REFUSED_COUNT : FRef := ⟨0x1400008, 0, 63, 0, 0x0⟩
/-- MEM_XLT_WALKS.COUNT, chapter 09. -/
abbrev MEM_XLT_WALKS_COUNT : FRef := ⟨0x1400010, 0, 63, 0, 0x0⟩
/-- MEM_XLT_OVF.WALKS_OVF, chapter 09. -/
abbrev MEM_XLT_OVF_WALKS_OVF : FRef := ⟨0x1400018, 0, 1, 1, 0x0⟩
/-- MEM_XLT_OVF.REFUSED_OVF, chapter 09. -/
abbrev MEM_XLT_OVF_REFUSED_OVF : FRef := ⟨0x1400018, 0, 0, 0, 0x0⟩
/-- MEM_HBM_LAYOUT.STRETCH_GIB, chapter 10. -/
abbrev MEM_HBM_LAYOUT_STRETCH_GIB : FRef := ⟨0x1600000, 0, 8, 0, 0x40⟩
/-- MEM_PART_RATE.HARD, chapter 10. -/
abbrev MEM_PART_RATE_HARD : FRef := ⟨0x1600100, 4, 31, 31, 0x40⟩
/-- MEM_PART_RATE.RATE, chapter 10. -/
abbrev MEM_PART_RATE_RATE : FRef := ⟨0x1600100, 4, 30, 16, 0x40⟩
/-- MEM_PART_RATE.BURST, chapter 10. -/
abbrev MEM_PART_RATE_BURST : FRef := ⟨0x1600100, 4, 15, 0, 0x40⟩
/-- MEM_PART_COMMIT.COMMIT, chapter 10. -/
abbrev MEM_PART_COMMIT_COMMIT : FRef := ⟨0x1600080, 0, 0, 0, 0x0⟩
/-- MEM_HBM_STACK.TEMP, chapter 10. -/
abbrev MEM_HBM_STACK_TEMP : FRef := ⟨0x1600010, 4, 31, 24, 0x4000⟩
/-- MEM_HBM_STACK.REFRESH, chapter 10. -/
abbrev MEM_HBM_STACK_REFRESH : FRef := ⟨0x1600010, 4, 23, 22, 0x4000⟩
/-- MEM_HBM_STACK.STACK_RETIRED, chapter 10. -/
abbrev MEM_HBM_STACK_STACK_RETIRED : FRef := ⟨0x1600010, 4, 21, 21, 0x4000⟩
/-- MEM_HBM_STACK.PCH_RETIRED, chapter 10. -/
abbrev MEM_HBM_STACK_PCH_RETIRED : FRef := ⟨0x1600010, 4, 20, 20, 0x4000⟩
/-- MEM_HBM_STACK.PCH, chapter 10. -/
abbrev MEM_HBM_STACK_PCH : FRef := ⟨0x1600010, 4, 19, 15, 0x4000⟩
/-- MEM_HBM_STACK.PRIORITY, chapter 10. -/
abbrev MEM_HBM_STACK_PRIORITY : FRef := ⟨0x1600010, 4, 14, 14, 0x4000⟩
/-- TIER_FLASH_STATUS.WEAR_PCT, chapter 10. -/
abbrev TIER_FLASH_STATUS_WEAR_PCT : FRef := ⟨0x1000000, 0, 31, 24, 0x3e8000⟩
/-- TIER_FLASH_STATUS.SPARE_PERMILLE, chapter 10. -/
abbrev TIER_FLASH_STATUS_SPARE_PERMILLE : FRef := ⟨0x1000000, 0, 23, 14, 0x3e8000⟩
/-- TIER_FLASH_STATUS.WRITES_STOPPED, chapter 10. -/
abbrev TIER_FLASH_STATUS_WRITES_STOPPED : FRef := ⟨0x1000000, 0, 13, 13, 0x3e8000⟩
/-- TIER_POOL_RANGE.COUNT, chapter 10. -/
abbrev TIER_POOL_RANGE_COUNT : FRef := ⟨0x1000040, 8, 43, 22, 0x0⟩
/-- TIER_POOL_RANGE.FIRST, chapter 10. -/
abbrev TIER_POOL_RANGE_FIRST : FRef := ⟨0x1000040, 8, 21, 0, 0x0⟩
/-- TIER_POOL_BASE.BASE, chapter 10. -/
abbrev TIER_POOL_BASE_BASE : FRef := ⟨0x1000008, 0, 51, 28, 0x0⟩
/-- TIER_POOL_WATER.HBM_LOW, chapter 10. -/
abbrev TIER_POOL_WATER_HBM_LOW : FRef := ⟨0x1000010, 0, 63, 48, 0x100020001000200⟩
/-- TIER_POOL_WATER.HBM_HIGH, chapter 10. -/
abbrev TIER_POOL_WATER_HBM_HIGH : FRef := ⟨0x1000010, 0, 47, 32, 0x100020001000200⟩
/-- TIER_POOL_WATER.BOARD_LOW, chapter 10. -/
abbrev TIER_POOL_WATER_BOARD_LOW : FRef := ⟨0x1000010, 0, 31, 16, 0x100020001000200⟩
/-- TIER_POOL_WATER.BOARD_HIGH, chapter 10. -/
abbrev TIER_POOL_WATER_BOARD_HIGH : FRef := ⟨0x1000010, 0, 15, 0, 0x100020001000200⟩
/-- TIER_QUOTA.CTX, chapter 10. -/
abbrev TIER_QUOTA_CTX : FRef := ⟨0x1000100, 0, 63, 48, 0x0⟩
/-- TIER_QUOTA.HBM_Q, chapter 10. -/
abbrev TIER_QUOTA_HBM_Q : FRef := ⟨0x1000100, 0, 47, 33, 0x0⟩
/-- TIER_QUOTA.BOARD_Q, chapter 10. -/
abbrev TIER_QUOTA_BOARD_Q : FRef := ⟨0x1000100, 0, 32, 18, 0x0⟩
/-- TIER_QUOTA.FLASH_Q, chapter 10. -/
abbrev TIER_QUOTA_FLASH_Q : FRef := ⟨0x1000100, 0, 17, 0, 0x0⟩
/-- TIER_QUOTA_COMMIT.COMMIT, chapter 10. -/
abbrev TIER_QUOTA_COMMIT_COMMIT : FRef := ⟨0x1000108, 0, 0, 0, 0x0⟩
/-- HUB_KSL_CFG.ENABLE, chapter 11. -/
abbrev HUB_KSL_CFG_ENABLE : FRef := ⟨0x1500000, 256, 2, 2, 0x0⟩
/-- HUB_KSL_CFG.CTX0_OK, chapter 11. -/
abbrev HUB_KSL_CFG_CTX0_OK : FRef := ⟨0x1500000, 256, 1, 1, 0x0⟩
/-- HUB_KSL_CFG.ROLE, chapter 11. -/
abbrev HUB_KSL_CFG_ROLE : FRef := ⟨0x1500000, 256, 0, 0, 0x0⟩
/-- HUB_KSL_STAT.STATE, chapter 11. -/
abbrev HUB_KSL_STAT_STATE : FRef := ⟨0x1500008, 256, 31, 28, 0x0⟩
/-- HUB_KSL_STAT.WIDTH, chapter 11. -/
abbrev HUB_KSL_STAT_WIDTH : FRef := ⟨0x1500008, 256, 27, 26, 0x0⟩
/-- HUB_KSL_STAT.CABLE, chapter 11. -/
abbrev HUB_KSL_STAT_CABLE : FRef := ⟨0x1500008, 256, 25, 24, 0x0⟩
/-- HUB_KSL_STAT.LENGTH, chapter 11. -/
abbrev HUB_KSL_STAT_LENGTH : FRef := ⟨0x1500008, 256, 23, 14, 0x0⟩
/-- HUB_KSL_STAT.LOSS, chapter 11. -/
abbrev HUB_KSL_STAT_LOSS : FRef := ⟨0x1500008, 256, 13, 6, 0x0⟩
/-- HUB_KSL_STAT.REPLAYS_OVF, chapter 11. -/
abbrev HUB_KSL_STAT_REPLAYS_OVF : FRef := ⟨0x1500008, 256, 5, 5, 0x0⟩
/-- HUB_KSL_EPOCH.LOCAL_EPOCH, chapter 11. -/
abbrev HUB_KSL_EPOCH_LOCAL_EPOCH : FRef := ⟨0x1500010, 256, 63, 32, 0x0⟩
/-- HUB_KSL_EPOCH.PEER_EPOCH, chapter 11. -/
abbrev HUB_KSL_EPOCH_PEER_EPOCH : FRef := ⟨0x1500010, 256, 31, 0, 0x0⟩
/-- HUB_KSL_REPLAYS.COUNT, chapter 11. -/
abbrev HUB_KSL_REPLAYS_COUNT : FRef := ⟨0x1500018, 256, 63, 0, 0x0⟩
/-- HUB_KSL_ERR.RETRAINS, chapter 11. -/
abbrev HUB_KSL_ERR_RETRAINS : FRef := ⟨0x1500020, 256, 31, 16, 0x0⟩
/-- HUB_KSL_ERR.MALFORMED, chapter 11. -/
abbrev HUB_KSL_ERR_MALFORMED : FRef := ⟨0x1500020, 256, 15, 0, 0x0⟩
/-- HUB_QUEUE_TABLE.BASE, chapter 12. -/
abbrev HUB_QUEUE_TABLE_BASE : FRef := ⟨0x1600000, 0, 51, 24, 0x0⟩
/-- HUB_QUEUE_CMD.OP, chapter 12. -/
abbrev HUB_QUEUE_CMD_OP : FRef := ⟨0x1600008, 0, 22, 20, 0x0⟩
/-- HUB_QUEUE_CMD.QUEUE, chapter 12. -/
abbrev HUB_QUEUE_CMD_QUEUE : FRef := ⟨0x1600008, 0, 17, 0, 0x0⟩
/-- HUB_QUEUE_STATUS.BUSY, chapter 12. -/
abbrev HUB_QUEUE_STATUS_BUSY : FRef := ⟨0x1600010, 0, 31, 31, 0x0⟩
/-- HUB_QUEUE_STATUS.DROPPED, chapter 12. -/
abbrev HUB_QUEUE_STATUS_DROPPED : FRef := ⟨0x1600010, 0, 30, 30, 0x0⟩
/-- HUB_QUEUE_STATUS.RESULT, chapter 12. -/
abbrev HUB_QUEUE_STATUS_RESULT : FRef := ⟨0x1600010, 0, 7, 0, 0x0⟩
/-- HUB_QUEUE_STATE.STATE, chapter 12. -/
abbrev HUB_QUEUE_STATE_STATE : FRef := ⟨0x1600018, 0, 63, 62, 0x0⟩
/-- HUB_QUEUE_STATE.KIND, chapter 12. -/
abbrev HUB_QUEUE_STATE_KIND : FRef := ⟨0x1600018, 0, 61, 60, 0x0⟩
/-- HUB_QUEUE_STATE.HALT_STATUS, chapter 12. -/
abbrev HUB_QUEUE_STATE_HALT_STATUS : FRef := ⟨0x1600018, 0, 59, 52, 0x0⟩
/-- HUB_QUEUE_STATE.PHASE, chapter 12. -/
abbrev HUB_QUEUE_STATE_PHASE : FRef := ⟨0x1600018, 0, 49, 49, 0x0⟩
/-- HUB_QUEUE_STATE.INDEX, chapter 12. -/
abbrev HUB_QUEUE_STATE_INDEX : FRef := ⟨0x1600018, 0, 48, 25, 0x0⟩
/-- HUB_QUEUE_STATE.OPEN, chapter 12. -/
abbrev HUB_QUEUE_STATE_OPEN : FRef := ⟨0x1600018, 0, 24, 0, 0x0⟩
/-- HUB_JOURNAL_BASE.BASE, chapter 12. -/
abbrev HUB_JOURNAL_BASE_BASE : FRef := ⟨0x1700000, 0, 51, 27, 0x0⟩
/-- HUB_JOURNAL_MIRROR.BASE, chapter 12. -/
abbrev HUB_JOURNAL_MIRROR_BASE : FRef := ⟨0x1700008, 0, 51, 27, 0x0⟩
/-- HUB_JOURNAL_HEAD.HEAD, chapter 12. -/
abbrev HUB_JOURNAL_HEAD_HEAD : FRef := ⟨0x1700010, 0, 63, 0, 0x0⟩
/-- HUB_QUEUE_ACCEPTED.COUNT, chapter 12. -/
abbrev HUB_QUEUE_ACCEPTED_COUNT : FRef := ⟨0x1600020, 0, 63, 0, 0x0⟩
/-- HUB_QUEUE_ERR.TORN, chapter 12. -/
abbrev HUB_QUEUE_ERR_TORN : FRef := ⟨0x1600028, 0, 31, 16, 0x0⟩
/-- HUB_QUEUE_ERR.DB_DROPPED, chapter 12. -/
abbrev HUB_QUEUE_ERR_DB_DROPPED : FRef := ⟨0x1600028, 0, 15, 0, 0x0⟩
/-- HUB_QUEUE_OVF.ACCEPTED_OVF, chapter 12. -/
abbrev HUB_QUEUE_OVF_ACCEPTED_OVF : FRef := ⟨0x1600030, 0, 0, 0, 0x0⟩
/-- FAB_PORT_CFG.BREAKOUT, chapter 13. -/
abbrev FAB_PORT_CFG_BREAKOUT : FRef := ⟨0x1000000, 256, 2, 2, 0x0⟩
/-- FAB_PORT_CFG.ENABLE_B, chapter 13. -/
abbrev FAB_PORT_CFG_ENABLE_B : FRef := ⟨0x1000000, 256, 1, 1, 0x0⟩
/-- FAB_PORT_CFG.ENABLE_A, chapter 13. -/
abbrev FAB_PORT_CFG_ENABLE_A : FRef := ⟨0x1000000, 256, 0, 0, 0x0⟩
/-- FAB_PORT_STAT.STATE_A, chapter 13. -/
abbrev FAB_PORT_STAT_STATE_A : FRef := ⟨0x1000008, 256, 31, 28, 0x0⟩
/-- FAB_PORT_STAT.STATE_B, chapter 13. -/
abbrev FAB_PORT_STAT_STATE_B : FRef := ⟨0x1000008, 256, 27, 24, 0x0⟩
/-- FAB_PORT_STAT.PAUSE_RX, chapter 13. -/
abbrev FAB_PORT_STAT_PAUSE_RX : FRef := ⟨0x1000008, 256, 15, 0, 0x0⟩
/-- FAB_PEER_TABLE.BASE, chapter 13. -/
abbrev FAB_PEER_TABLE_BASE : FRef := ⟨0x1100000, 0, 51, 14, 0x0⟩
/-- FAB_PEER_CMD.OP, chapter 13. -/
abbrev FAB_PEER_CMD_OP : FRef := ⟨0x1100008, 0, 11, 8, 0x0⟩
/-- FAB_PEER_CMD.PEER, chapter 13. -/
abbrev FAB_PEER_CMD_PEER : FRef := ⟨0x1100008, 0, 7, 0, 0x0⟩
/-- FAB_PEER_STATUS.BUSY, chapter 13. -/
abbrev FAB_PEER_STATUS_BUSY : FRef := ⟨0x1100010, 0, 31, 31, 0x0⟩
/-- FAB_PEER_STATUS.DROPPED, chapter 13. -/
abbrev FAB_PEER_STATUS_DROPPED : FRef := ⟨0x1100010, 0, 30, 30, 0x0⟩
/-- FAB_PEER_STATUS.RESULT, chapter 13. -/
abbrev FAB_PEER_STATUS_RESULT : FRef := ⟨0x1100010, 0, 7, 0, 0x0⟩
/-- FAB_KFT_CFG.RTO_US, chapter 13. -/
abbrev FAB_KFT_CFG_RTO_US : FRef := ⟨0x1000400, 0, 23, 8, 0x1410⟩
/-- FAB_KFT_CFG.RETRY_MAX, chapter 13. -/
abbrev FAB_KFT_CFG_RETRY_MAX : FRef := ⟨0x1000400, 0, 4, 0, 0x1410⟩
/-- HUB_AG_TIME.TIME, chapter 13. -/
abbrev HUB_AG_TIME_TIME : FRef := ⟨0x1800000, 0, 63, 0, 0x0⟩
/-- HUB_AG_CFG.STEP_US, chapter 13. -/
abbrev HUB_AG_CFG_STEP_US : FRef := ⟨0x1800008, 0, 31, 16, 0x3e80010⟩
/-- HUB_AG_CFG.DOMAIN, chapter 13. -/
abbrev HUB_AG_CFG_DOMAIN : FRef := ⟨0x1800008, 0, 15, 8, 0x3e80010⟩
/-- HUB_AG_CFG.TRANSPORT, chapter 13. -/
abbrev HUB_AG_CFG_TRANSPORT : FRef := ⟨0x1800008, 0, 5, 4, 0x3e80010⟩
/-- HUB_AG_CFG.DELAY_MECH, chapter 13. -/
abbrev HUB_AG_CFG_DELAY_MECH : FRef := ⟨0x1800008, 0, 3, 3, 0x3e80010⟩
/-- HUB_AG_CFG.PPS_EN, chapter 13. -/
abbrev HUB_AG_CFG_PPS_EN : FRef := ⟨0x1800008, 0, 2, 2, 0x3e80010⟩
/-- HUB_AG_STATUS.STATE, chapter 13. -/
abbrev HUB_AG_STATUS_STATE : FRef := ⟨0x1800010, 0, 63, 61, 0x0⟩
/-- HUB_AG_STATUS.STEPPED, chapter 13. -/
abbrev HUB_AG_STATUS_STEPPED : FRef := ⟨0x1800010, 0, 60, 60, 0x0⟩
/-- HUB_AG_STATUS.LOST, chapter 13. -/
abbrev HUB_AG_STATUS_LOST : FRef := ⟨0x1800010, 0, 59, 59, 0x0⟩
/-- HUB_AG_STATUS.PORT, chapter 13. -/
abbrev HUB_AG_STATUS_PORT : FRef := ⟨0x1800010, 0, 58, 55, 0x0⟩
/-- HUB_AG_STATUS.OFFSET, chapter 13. -/
abbrev HUB_AG_STATUS_OFFSET : FRef := ⟨0x1800010, 0, 31, 0, 0x0⟩
/-- FAB_EVT.COUNT, chapter 13. -/
abbrev FAB_EVT_COUNT : FRef := ⟨0x1000500, 8, 63, 0, 0x0⟩
/-- FAB_ERR.ABANDONED, chapter 13. -/
abbrev FAB_ERR_ABANDONED : FRef := ⟨0x1000520, 0, 31, 16, 0x0⟩
/-- FAB_ERR.RELAY_DROP, chapter 13. -/
abbrev FAB_ERR_RELAY_DROP : FRef := ⟨0x1000520, 0, 15, 0, 0x0⟩
/-- FAB_OVF.OVF, chapter 13. -/
abbrev FAB_OVF_OVF : FRef := ⟨0x1000528, 0, 2, 0, 0x0⟩
/-- RIDGE_MAP.IN_SERVICE, chapter 14. -/
abbrev RIDGE_MAP_IN_SERVICE : FRef := ⟨0x400000, 0, 63, 0, 0x0⟩
/-- ARB_CFG.LOCK_LIMIT, chapter 14. -/
abbrev ARB_CFG_LOCK_LIMIT : FRef := ⟨0x400008, 0, 31, 16, 0x104000⟩
/-- ARB_CFG.AGE_LIMIT, chapter 14. -/
abbrev ARB_CFG_AGE_LIMIT : FRef := ⟨0x400008, 0, 15, 8, 0x104000⟩
/-- ARB_COMMIT.COMMIT, chapter 14. -/
abbrev ARB_COMMIT_COMMIT : FRef := ⟨0x400010, 0, 0, 0, 0x0⟩
/-- ARB_PREEMPTS.COUNT, chapter 14. -/
abbrev ARB_PREEMPTS_COUNT : FRef := ⟨0x400018, 0, 63, 0, 0x0⟩
/-- ARB_ERR.WATCHDOG, chapter 14. -/
abbrev ARB_ERR_WATCHDOG : FRef := ⟨0x400020, 0, 31, 16, 0x0⟩
/-- ARB_ERR.LANE_REPAIRS, chapter 14. -/
abbrev ARB_ERR_LANE_REPAIRS : FRef := ⟨0x400020, 0, 15, 0, 0x0⟩
/-- ARB_OVF.PREEMPTS_OVF, chapter 14. -/
abbrev ARB_OVF_PREEMPTS_OVF : FRef := ⟨0x400028, 0, 0, 0, 0x0⟩
/-- ARB_RANK.RANK0, chapter 14. -/
abbrev ARB_RANK_RANK0 : FRef := ⟨0x410000, 4, 2, 0, 0x0⟩
/-- ARB_RANK.RANK1, chapter 14. -/
abbrev ARB_RANK_RANK1 : FRef := ⟨0x410000, 4, 6, 4, 0x0⟩
/-- ARB_RANK.RANK2, chapter 14. -/
abbrev ARB_RANK_RANK2 : FRef := ⟨0x410000, 4, 10, 8, 0x0⟩
/-- ARB_RANK.RANK3, chapter 14. -/
abbrev ARB_RANK_RANK3 : FRef := ⟨0x410000, 4, 14, 12, 0x0⟩
/-- ARB_RANK.RANK4, chapter 14. -/
abbrev ARB_RANK_RANK4 : FRef := ⟨0x410000, 4, 18, 16, 0x0⟩
/-- ARB_RANK.RANK5, chapter 14. -/
abbrev ARB_RANK_RANK5 : FRef := ⟨0x410000, 4, 22, 20, 0x0⟩
/-- ARB_RANK.RANK6, chapter 14. -/
abbrev ARB_RANK_RANK6 : FRef := ⟨0x410000, 4, 26, 24, 0x0⟩
/-- ARB_RANK.RANK7, chapter 14. -/
abbrev ARB_RANK_RANK7 : FRef := ⟨0x410000, 4, 30, 28, 0x0⟩
/-- HUB_COL_WIN.EN, chapter 14. -/
abbrev HUB_COL_WIN_EN : FRef := ⟨0x1900000, 8, 63, 63, 0x0⟩
/-- HUB_COL_WIN.W, chapter 14. -/
abbrev HUB_COL_WIN_W : FRef := ⟨0x1900000, 8, 62, 62, 0x0⟩
/-- HUB_COL_WIN.R, chapter 14. -/
abbrev HUB_COL_WIN_R : FRef := ⟨0x1900000, 8, 61, 61, 0x0⟩
/-- HUB_COL_WIN.SZ, chapter 14. -/
abbrev HUB_COL_WIN_SZ : FRef := ⟨0x1900000, 8, 60, 56, 0x0⟩
/-- HUB_COL_WIN.BASE, chapter 14. -/
abbrev HUB_COL_WIN_BASE : FRef := ⟨0x1900000, 8, 55, 16, 0x0⟩
/-- HUB_COL_WIN.CTX, chapter 14. -/
abbrev HUB_COL_WIN_CTX : FRef := ⟨0x1900000, 8, 15, 0, 0x0⟩
/-- HUB_COL_FILTER.CTX0, chapter 14. -/
abbrev HUB_COL_FILTER_CTX0 : FRef := ⟨0x1900080, 4096, 15, 0, 0x0⟩
/-- HUB_COL_FILTER.CTX1, chapter 14. -/
abbrev HUB_COL_FILTER_CTX1 : FRef := ⟨0x1900080, 4096, 31, 16, 0x0⟩
/-- HUB_COL_FILTER.CTX2, chapter 14. -/
abbrev HUB_COL_FILTER_CTX2 : FRef := ⟨0x1900080, 4096, 47, 32, 0x0⟩
/-- HUB_COL_FILTER.CTX3, chapter 14. -/
abbrev HUB_COL_FILTER_CTX3 : FRef := ⟨0x1900080, 4096, 63, 48, 0x0⟩
/-- HUB_COL_RATE.RATE, chapter 14. -/
abbrev HUB_COL_RATE_RATE : FRef := ⟨0x1900088, 4096, 31, 16, 0x40⟩
/-- HUB_COL_RATE.BURST, chapter 14. -/
abbrev HUB_COL_RATE_BURST : FRef := ⟨0x1900088, 4096, 15, 0, 0x40⟩
/-- HUB_COL_CTL.KILL, chapter 14. -/
abbrev HUB_COL_CTL_KILL : FRef := ⟨0x1900090, 4096, 31, 31, 0x0⟩
/-- HUB_COL_CTL.KILLED, chapter 14. -/
abbrev HUB_COL_CTL_KILLED : FRef := ⟨0x1900090, 4096, 30, 30, 0x0⟩
/-- HUB_COL_CTL.VIOLATIONS, chapter 14. -/
abbrev HUB_COL_CTL_VIOLATIONS : FRef := ⟨0x1900090, 4096, 15, 0, 0x0⟩
/-- HUB_COL_VADDR.VALID, chapter 14. -/
abbrev HUB_COL_VADDR_VALID : FRef := ⟨0x1900098, 4096, 63, 63, 0x0⟩
/-- HUB_COL_VADDR.INBOUND, chapter 14. -/
abbrev HUB_COL_VADDR_INBOUND : FRef := ⟨0x1900098, 4096, 62, 62, 0x0⟩
/-- HUB_COL_VADDR.CAUSE, chapter 14. -/
abbrev HUB_COL_VADDR_CAUSE : FRef := ⟨0x1900098, 4096, 61, 58, 0x0⟩
/-- HUB_COL_VADDR.ADDR, chapter 14. -/
abbrev HUB_COL_VADDR_ADDR : FRef := ⟨0x1900098, 4096, 51, 0, 0x0⟩
/-- DROOP_CFG.DROOP_HOLD, chapter 15. -/
abbrev DROOP_CFG_DROOP_HOLD : FRef := ⟨0x100010, 0, 7, 0, 0x10⟩
/-- PWR_STATUS.GRANT, chapter 15. -/
abbrev PWR_STATUS_GRANT : FRef := ⟨0x100000, 0, 63, 48, 0x0⟩
/-- PWR_STATUS.LIMIT, chapter 15. -/
abbrev PWR_STATUS_LIMIT : FRef := ⟨0x100000, 0, 47, 32, 0x0⟩
/-- PWR_STATUS.PCTL, chapter 15. -/
abbrev PWR_STATUS_PCTL : FRef := ⟨0x100000, 0, 31, 16, 0x0⟩
/-- PWR_STATUS.TJ, chapter 15. -/
abbrev PWR_STATUS_TJ : FRef := ⟨0x100000, 0, 15, 8, 0x0⟩
/-- PWR_STATUS.MODE, chapter 15. -/
abbrev PWR_STATUS_MODE : FRef := ⟨0x100000, 0, 7, 6, 0x0⟩
/-- PWR_STATUS.STALE, chapter 15. -/
abbrev PWR_STATUS_STALE : FRef := ⟨0x100000, 0, 5, 5, 0x0⟩
/-- PWR_STATUS.THROTTLE, chapter 15. -/
abbrev PWR_STATUS_THROTTLE : FRef := ⟨0x100000, 0, 4, 4, 0x0⟩
/-- PWR_STATUS.DROOP, chapter 15. -/
abbrev PWR_STATUS_DROOP : FRef := ⟨0x100000, 0, 3, 3, 0x0⟩
/-- PWR_STATUS.DROOP_OVF, chapter 15. -/
abbrev PWR_STATUS_DROOP_OVF : FRef := ⟨0x100000, 0, 2, 2, 0x0⟩
/-- PWR_CFG.CEIL, chapter 15. -/
abbrev PWR_CFG_CEIL : FRef := ⟨0x100008, 0, 31, 22, 0x180⟩
/-- PWR_CFG.FLOOR, chapter 15. -/
abbrev PWR_CFG_FLOOR : FRef := ⟨0x100008, 0, 21, 12, 0x180⟩
/-- PWR_CFG.WEIGHT, chapter 15. -/
abbrev PWR_CFG_WEIGHT : FRef := ⟨0x100008, 0, 11, 8, 0x180⟩
/-- PWR_CFG.LEND_EN, chapter 15. -/
abbrev PWR_CFG_LEND_EN : FRef := ⟨0x100008, 0, 7, 7, 0x180⟩
/-- PWR_DROOPS.COUNT, chapter 15. -/
abbrev PWR_DROOPS_COUNT : FRef := ⟨0x100018, 0, 63, 0, 0x0⟩
/-- PWR_ERR.RECAL, chapter 15. -/
abbrev PWR_ERR_RECAL : FRef := ⟨0x100020, 0, 31, 16, 0x0⟩
/-- PWR_ERR.THERMAL, chapter 15. -/
abbrev PWR_ERR_THERMAL : FRef := ⟨0x100020, 0, 15, 0, 0x0⟩
/-- HUB_TREELINE_CAP.CAP, chapter 15. -/
abbrev HUB_TREELINE_CAP_CAP : FRef := ⟨0x100100, 0, 8, 0, 0x78⟩
/-- HUB_TREELINE_COMMIT.COMMIT, chapter 15. -/
abbrev HUB_TREELINE_COMMIT_COMMIT : FRef := ⟨0x100108, 0, 0, 0, 0x0⟩
/-- HUB_PWR_INPUT.VIN, chapter 15. -/
abbrev HUB_PWR_INPUT_VIN : FRef := ⟨0x100110, 0, 63, 48, 0xee00⟩
/-- HUB_PWR_INPUT.IIN, chapter 15. -/
abbrev HUB_PWR_INPUT_IIN : FRef := ⟨0x100110, 0, 47, 32, 0xee00⟩
/-- HUB_PWR_INPUT.PIN, chapter 15. -/
abbrev HUB_PWR_INPUT_PIN : FRef := ⟨0x100110, 0, 31, 16, 0xee00⟩
/-- HUB_PWR_INPUT.ETA, chapter 15. -/
abbrev HUB_PWR_INPUT_ETA : FRef := ⟨0x100110, 0, 15, 8, 0xee00⟩
/-- HUB_PWR_STATE.EFF_CAP, chapter 15. -/
abbrev HUB_PWR_STATE_EFF_CAP : FRef := ⟨0x100118, 0, 31, 23, 0x3c000000⟩
/-- HUB_PWR_STATE.TLM_FAIL, chapter 15. -/
abbrev HUB_PWR_STATE_TLM_FAIL : FRef := ⟨0x100118, 0, 22, 22, 0x3c000000⟩
/-- HUB_PWR_STATE.VIN_LOW, chapter 15. -/
abbrev HUB_PWR_STATE_VIN_LOW : FRef := ⟨0x100118, 0, 21, 21, 0x3c000000⟩
/-- HUB_PWR_STATE.VIN_HIGH, chapter 15. -/
abbrev HUB_PWR_STATE_VIN_HIGH : FRef := ⟨0x100118, 0, 20, 20, 0x3c000000⟩
/-- HUB_PWR_STATE.INLET, chapter 15. -/
abbrev HUB_PWR_STATE_INLET : FRef := ⟨0x100118, 0, 19, 12, 0x3c000000⟩
/-- LOCK_SET.SPECIFIC, chapter 16. -/
abbrev LOCK_SET_SPECIFIC : FRef := ⟨0x100080, 0, 18, 3, 0x0⟩
/-- LOCK_SET.ARBITER, chapter 16. -/
abbrev LOCK_SET_ARBITER : FRef := ⟨0x100080, 0, 2, 2, 0x0⟩
/-- LOCK_SET.RELIABILITY, chapter 16. -/
abbrev LOCK_SET_RELIABILITY : FRef := ⟨0x100080, 0, 1, 1, 0x0⟩
/-- LOCK_SET.POWER, chapter 16. -/
abbrev LOCK_SET_POWER : FRef := ⟨0x100080, 0, 0, 0, 0x0⟩
/-- LOCK_STATE.ALL, chapter 16. -/
abbrev LOCK_STATE_ALL : FRef := ⟨0x100088, 0, 31, 31, 0x0⟩
/-- LOCK_STATE.LOCKED, chapter 16. -/
abbrev LOCK_STATE_LOCKED : FRef := ⟨0x100088, 0, 18, 0, 0x0⟩
/-- HUB_SEC_REQ.KIND, chapter 16. -/
abbrev HUB_SEC_REQ_KIND : FRef := ⟨0x1a00000, 0, 63, 52, 0x0⟩
/-- HUB_SEC_REQ.ADDR, chapter 16. -/
abbrev HUB_SEC_REQ_ADDR : FRef := ⟨0x1a00000, 0, 51, 4, 0x0⟩
/-- HUB_SEC_REQ.BUFK, chapter 16. -/
abbrev HUB_SEC_REQ_BUFK : FRef := ⟨0x1a00000, 0, 3, 0, 0x0⟩
/-- HUB_SEC_STATUS.BUSY, chapter 16. -/
abbrev HUB_SEC_STATUS_BUSY : FRef := ⟨0x1a00008, 0, 63, 63, 0x0⟩
/-- HUB_SEC_STATUS.DROPPED, chapter 16. -/
abbrev HUB_SEC_STATUS_DROPPED : FRef := ⟨0x1a00008, 0, 62, 62, 0x0⟩
/-- HUB_SEC_STATUS.RESULT, chapter 16. -/
abbrev HUB_SEC_STATUS_RESULT : FRef := ⟨0x1a00008, 0, 61, 54, 0x0⟩
/-- HUB_SEC_STATUS.CAUSE, chapter 16. -/
abbrev HUB_SEC_STATUS_CAUSE : FRef := ⟨0x1a00008, 0, 53, 51, 0x0⟩
/-- HUB_SEC_STATUS.COPY, chapter 16. -/
abbrev HUB_SEC_STATUS_COPY : FRef := ⟨0x1a00008, 0, 50, 50, 0x0⟩
/-- HUB_SEC_STATUS.OTHER_VALID, chapter 16. -/
abbrev HUB_SEC_STATUS_OTHER_VALID : FRef := ⟨0x1a00008, 0, 49, 49, 0x0⟩
/-- HUB_SEC_STATUS.SVN_MIN, chapter 16. -/
abbrev HUB_SEC_STATUS_SVN_MIN : FRef := ⟨0x1a00008, 0, 48, 43, 0x0⟩
/-- HUB_SEC_STATUS.VKEY, chapter 16. -/
abbrev HUB_SEC_STATUS_VKEY : FRef := ⟨0x1a00008, 0, 42, 41, 0x0⟩
/-- HUB_SEC_STATUS.VREVOKED, chapter 16. -/
abbrev HUB_SEC_STATUS_VREVOKED : FRef := ⟨0x1a00008, 0, 40, 37, 0x0⟩
/-- HUB_SEC_STATUS.OWNERS, chapter 16. -/
abbrev HUB_SEC_STATUS_OWNERS : FRef := ⟨0x1a00008, 0, 36, 34, 0x0⟩
/-- HUB_RESET_CMD.KIND, chapter 16. -/
abbrev HUB_RESET_CMD_KIND : FRef := ⟨0x1a00100, 0, 31, 28, 0x0⟩
/-- HUB_RESET_CMD.DIE, chapter 16. -/
abbrev HUB_RESET_CMD_DIE : FRef := ⟨0x1a00100, 0, 20, 16, 0x0⟩
/-- HUB_RESET_CMD.CTX, chapter 16. -/
abbrev HUB_RESET_CMD_CTX : FRef := ⟨0x1a00100, 0, 15, 0, 0x0⟩
/-- HUB_RESET_STATUS.BUSY, chapter 16. -/
abbrev HUB_RESET_STATUS_BUSY : FRef := ⟨0x1a00108, 0, 31, 31, 0x0⟩
/-- HUB_RESET_STATUS.DROPPED, chapter 16. -/
abbrev HUB_RESET_STATUS_DROPPED : FRef := ⟨0x1a00108, 0, 30, 30, 0x0⟩
/-- HUB_RESET_STATUS.RESULT, chapter 16. -/
abbrev HUB_RESET_STATUS_RESULT : FRef := ⟨0x1a00108, 0, 7, 0, 0x0⟩
/-- UNIT_MAP.IN_SERVICE, chapter 17. -/
abbrev UNIT_MAP_IN_SERVICE : FRef := ⟨0x200000, 8, 63, 0, 0x0⟩
/-- HUB_CAPACITY0.HBM_GIB, chapter 17. -/
abbrev HUB_CAPACITY0_HBM_GIB : FRef := ⟨0x200120, 0, 63, 52, 0xc008008080203000⟩
/-- HUB_CAPACITY0.BOARD_GIB, chapter 17. -/
abbrev HUB_CAPACITY0_BOARD_GIB : FRef := ⟨0x200120, 0, 51, 40, 0xc008008080203000⟩
/-- HUB_CAPACITY0.SPURS, chapter 17. -/
abbrev HUB_CAPACITY0_SPURS : FRef := ⟨0x200120, 0, 39, 32, 0xc008008080203000⟩
/-- HUB_CAPACITY0.ARRAYS, chapter 17. -/
abbrev HUB_CAPACITY0_ARRAYS : FRef := ⟨0x200120, 0, 31, 22, 0xc008008080203000⟩
/-- HUB_CAPACITY0.CORES, chapter 17. -/
abbrev HUB_CAPACITY0_CORES : FRef := ⟨0x200120, 0, 21, 14, 0xc008008080203000⟩
/-- HUB_CAPACITY0.COULOIR, chapter 17. -/
abbrev HUB_CAPACITY0_COULOIR : FRef := ⟨0x200120, 0, 13, 7, 0xc008008080203000⟩
/-- HUB_CAPACITY1.FLASH_GIB, chapter 17. -/
abbrev HUB_CAPACITY1_FLASH_GIB : FRef := ⟨0x200128, 0, 63, 48, 0x6000000000000000⟩
/-- HUB_CAPACITY1.PCH_RETIRED, chapter 17. -/
abbrev HUB_CAPACITY1_PCH_RETIRED : FRef := ⟨0x200128, 0, 47, 40, 0x6000000000000000⟩
/-- HUB_CAPACITY1.WAYS_RETIRED, chapter 17. -/
abbrev HUB_CAPACITY1_WAYS_RETIRED : FRef := ⟨0x200128, 0, 39, 32, 0x6000000000000000⟩
/-- HUB_SCREE_CFG.HBM_H, chapter 17. -/
abbrev HUB_SCREE_CFG_HBM_H : FRef := ⟨0x200200, 0, 31, 16, 0x18000c⟩
/-- HUB_SCREE_CFG.BOARD_H, chapter 17. -/
abbrev HUB_SCREE_CFG_BOARD_H : FRef := ⟨0x200200, 0, 15, 0, 0x18000c⟩
/-- HUB_SCREE_STATUS.HBM_LAG, chapter 17. -/
abbrev HUB_SCREE_STATUS_HBM_LAG : FRef := ⟨0x200208, 0, 63, 63, 0x0⟩
/-- HUB_SCREE_STATUS.BOARD_LAG, chapter 17. -/
abbrev HUB_SCREE_STATUS_BOARD_LAG : FRef := ⟨0x200208, 0, 62, 62, 0x0⟩
/-- HUB_SCREE_STATUS.HBM_DONE, chapter 17. -/
abbrev HUB_SCREE_STATUS_HBM_DONE : FRef := ⟨0x200208, 0, 47, 40, 0x0⟩
/-- HUB_SCREE_STATUS.BOARD_DONE, chapter 17. -/
abbrev HUB_SCREE_STATUS_BOARD_DONE : FRef := ⟨0x200208, 0, 39, 32, 0x0⟩
/-- HUB_SCREE_STATUS.HBM_POISONED, chapter 17. -/
abbrev HUB_SCREE_STATUS_HBM_POISONED : FRef := ⟨0x200208, 0, 31, 16, 0x0⟩
/-- HUB_SCREE_STATUS.BOARD_POISONED, chapter 17. -/
abbrev HUB_SCREE_STATUS_BOARD_POISONED : FRef := ⟨0x200208, 0, 15, 0, 0x0⟩
/-- HUB_CAIRN_CFG.HBM_MIN, chapter 17. -/
abbrev HUB_CAIRN_CFG_HBM_MIN : FRef := ⟨0x200210, 0, 31, 24, 0x3c3c0a00⟩
/-- HUB_CAIRN_CFG.RIDGE_MIN, chapter 17. -/
abbrev HUB_CAIRN_CFG_RIDGE_MIN : FRef := ⟨0x200210, 0, 23, 16, 0x3c3c0a00⟩
/-- HUB_CAIRN_CFG.SENSOR_MIN, chapter 17. -/
abbrev HUB_CAIRN_CFG_SENSOR_MIN : FRef := ⟨0x200210, 0, 15, 8, 0x3c3c0a00⟩
/-- HUB_SELFTEST_CMD.RID, chapter 17. -/
abbrev HUB_SELFTEST_CMD_RID : FRef := ⟨0x200300, 0, 63, 32, 0x0⟩
/-- HUB_SELFTEST_CMD.NOW, chapter 17. -/
abbrev HUB_SELFTEST_CMD_NOW : FRef := ⟨0x200300, 0, 31, 31, 0x0⟩
/-- HUB_SELFTEST_STATUS.BUSY, chapter 17. -/
abbrev HUB_SELFTEST_STATUS_BUSY : FRef := ⟨0x200308, 0, 63, 63, 0x0⟩
/-- HUB_SELFTEST_STATUS.DROPPED, chapter 17. -/
abbrev HUB_SELFTEST_STATUS_DROPPED : FRef := ⟨0x200308, 0, 62, 62, 0x0⟩
/-- HUB_SELFTEST_STATUS.RESULT, chapter 17. -/
abbrev HUB_SELFTEST_STATUS_RESULT : FRef := ⟨0x200308, 0, 61, 54, 0x0⟩
/-- HUB_SELFTEST_STATUS.RID, chapter 17. -/
abbrev HUB_SELFTEST_STATUS_RID : FRef := ⟨0x200308, 0, 31, 0, 0x0⟩
/-- HUB_REL_QUEUE.DROPPED, chapter 17. -/
abbrev HUB_REL_QUEUE_DROPPED : FRef := ⟨0x200100, 0, 63, 48, 0x0⟩
/-- HUB_REL_QUEUE.VALID, chapter 17. -/
abbrev HUB_REL_QUEUE_VALID : FRef := ⟨0x200100, 0, 18, 18, 0x0⟩
/-- HUB_REL_QUEUE.QUEUE, chapter 17. -/
abbrev HUB_REL_QUEUE_QUEUE : FRef := ⟨0x200100, 0, 17, 0, 0x0⟩
/-- HUB_REL_THRESH.CORR_COUNT, chapter 17. -/
abbrev HUB_REL_THRESH_CORR_COUNT : FRef := ⟨0x200108, 0, 15, 8, 0x318⟩
/-- HUB_REL_THRESH.WINDOW_H, chapter 17. -/
abbrev HUB_REL_THRESH_WINDOW_H : FRef := ⟨0x200108, 0, 7, 0, 0x318⟩
/-- HUB_TEL_CFG.PERIOD_MS, chapter 17. -/
abbrev HUB_TEL_CFG_PERIOD_MS : FRef := ⟨0x200400, 0, 63, 56, 0x0⟩
/-- HUB_TEL_CFG.SIZE, chapter 17. -/
abbrev HUB_TEL_CFG_SIZE : FRef := ⟨0x200400, 0, 55, 52, 0x0⟩
/-- HUB_TEL_CFG.BASE, chapter 17. -/
abbrev HUB_TEL_CFG_BASE : FRef := ⟨0x200400, 0, 51, 12, 0x0⟩
/-- HUB_TEL_HEAD.SEQ, chapter 17. -/
abbrev HUB_TEL_HEAD_SEQ : FRef := ⟨0x200408, 0, 31, 0, 0x0⟩
/-- HUB_REL_FATAL.VALID, chapter 17. -/
abbrev HUB_REL_FATAL_VALID : FRef := ⟨0x200110, 0, 63, 63, 0x0⟩
/-- HUB_REL_FATAL.CAUSE, chapter 17. -/
abbrev HUB_REL_FATAL_CAUSE : FRef := ⟨0x200110, 0, 62, 60, 0x0⟩
/-- HUB_REL_FATAL.DIE, chapter 17. -/
abbrev HUB_REL_FATAL_DIE : FRef := ⟨0x200110, 0, 59, 55, 0x0⟩
/-- HUB_REL_FATAL_TIME.TIME, chapter 17. -/
abbrev HUB_REL_FATAL_TIME_TIME : FRef := ⟨0x200118, 0, 63, 0, 0x0⟩

end Sys2Proof.Machine.R
end

