-- ==== Sys2Proof/Machine/Ops.lean ====
section
/-! DEFINITION. The named operations over tables, memory, registers, counters, messages and events that every
meaning is written from. -/

namespace Sys2Proof.Machine

/-! ## Tables -/

/-- Entry of a key. -/
def tget? {α : Type} : Tbl α → Nat → Option α
  | [], _ => none
  | (k, v) :: t, i => if k = i then some v else tget? t i

/-- Entry of a key, or what an unlisted key reads as. -/
def tget {α : Type} (t : Tbl α) (i : Nat) (d : α) : α := (tget? t i).getD d

/-- Put an entry, keeping the keys rising. -/
def tset {α : Type} : Tbl α → Nat → α → Tbl α
  | [], i, v => [(i, v)]
  | (k, w) :: t, i, v =>
    if k = i then (i, v) :: t else if i < k then (i, v) :: (k, w) :: t else (k, w) :: tset t i v

/-- Remove a key. -/
def tdel {α : Type} (t : Tbl α) (i : Nat) : Tbl α := t.filter (fun e => e.1 != i)

/-- Change the entry of a key, which reads as `d` when unlisted. -/
def tmod {α : Type} (t : Tbl α) (i : Nat) (d : α) (f : α → α) : Tbl α := tset t i (f (tget t i d))

/-- The keys of a table. -/
def tkeys {α : Type} (t : Tbl α) : List Nat := t.map Prod.fst

/-! ## Bits and bytes -/

/-- Bits [hi:lo] of a number. -/
def bits (v hi lo : Nat) : Nat := v / 2 ^ lo % 2 ^ (hi - lo + 1)

/-- Bit i of a number. -/
def bitAt (v i : Nat) : Bool := v / 2 ^ i % 2 == 1

/-- `v` with bits [hi:lo] set to `x`. -/
def setBits (v hi lo x : Nat) : Nat :=
  v / 2 ^ (hi + 1) * 2 ^ (hi + 1) + x % 2 ^ (hi - lo + 1) * 2 ^ lo + v % 2 ^ lo

/-- Little-endian value of bytes (00_scope, Notation). -/
def leNat : List Byte → Nat
  | [] => 0
  | b :: bs => b.toNat + 256 * leNat bs

/-- The `n` little-endian bytes of a number. -/
def leBytes : Nat → Nat → List Byte
  | 0, _ => []
  | n + 1, v => BitVec.ofNat 8 v :: leBytes n (v / 256)

/-- Bytes of a line in address order. -/
def lineBytes (l : Line) : List Byte := leBytes 64 l.toNat

/-- A line of its bytes. -/
def bytesLine (b : List Byte) : Line := BitVec.ofNat 512 (leNat b)

/-- `old` with the bytes that `mask` marks taken from `new` (WRPART, R244). -/
def mergeBytes (old new : Line) (mask : W64) : Line :=
  bytesLine ((List.range 64).map fun i =>
    BitVec.ofNat 8 (bits (if mask.getLsbD i then new.toNat else old.toNat) (8 * i + 7) (8 * i)))

/-- `l` with the bytes at offset `o` replaced by `b`. -/
def putBytes (l : Line) (o : Nat) (b : List Byte) : Line :=
  let bs := lineBytes l
  bytesLine (bs.take o ++ b ++ bs.drop (o + b.length))

/-- One step of a 16-bit LFSR with taps 16, 14, 13 and 11 (R76). -/
def lfsrStep (x : BitVec 16) : BitVec 16 :=
  let b := (x >>> 0) ^^^ (x >>> 2) ^^^ (x >>> 3) ^^^ (x >>> 5)
  (x >>> 1) ||| ((b &&& 1) <<< 15)

/-- A seed; 0 is replaced by 1. -/
def seedOr1 (x : BitVec 16) : BitVec 16 := if x = 0 then 1 else x

/-- Round up to a multiple. -/
def ceilDiv (a b : Nat) : Nat := (a + b - 1) / b

/-- R13: a precedes or equals b, as sequence numbers. -/
def seqReached (a b : W32) : Bool := (b - a).toNat < 2 ^ 31

/-! ## Memory -/

/-- What a byte of memory reads as; one that nothing has written reads 0 (log 11). -/
def memByte : List Host.Cell → Nat → Byte
  | [], _ => 0
  | (k, v) :: m, a => if k = a then v else memByte m a

/-- Put a non-zero byte. -/
def memPut : List Host.Cell → Nat → Byte → List Host.Cell
  | [], a, b => [(a, b)]
  | (k, v) :: m, a, b =>
    if k = a then (a, b) :: m else if a < k then (a, b) :: (k, v) :: m else (k, v) :: memPut m a b

/-- Write a byte; writing 0 removes the entry, which keeps the canonical form. -/
def memSet (m : List Host.Cell) (a : Nat) (b : Byte) : List Host.Cell :=
  if b = 0 then m.filter (fun c => c.1 != a) else memPut m a b

/-- Read bytes a to a + n - 1. -/
def memRead (m : List Host.Cell) (a : Nat) : Nat → List Byte
  | 0 => []
  | n + 1 => memByte m a :: memRead m (a + 1) n

/-- Write bytes from a on. -/
def memWrite (m : List Host.Cell) (a : Nat) : List Byte → List Host.Cell
  | [] => m
  | b :: bs => memWrite (memSet m a b) (a + 1) bs

/-- The canonical form of memory: addresses strictly rising, no byte equal to 0. -/
def memWf : List Host.Cell → Bool
  | [] => true
  | [(_, v)] => v != 0
  | (k, v) :: (k', v') :: m => v != 0 && decide (k < k') && memWf ((k', v') :: m)

/-- A list of lines as a set: add. -/
def setAdd (l : List Nat) (x : Nat) : List Nat := if l.contains x then l else x :: l

/-- A list of lines as a set: remove. -/
def setDel (l : List Nat) (x : Nat) : List Nat := l.filter (· != x)

/-! ## Address map (R265) -/

abbrev tib : Nat := 2 ^ 40
abbrev gib : Nat := 2 ^ 30
abbrev hbmEnd : Nat := 3 * tib
abbrev boardBase : Nat := 2 ^ 48 / 16
abbrev boardEnd : Nat := boardBase + 2 * tib
abbrev windowBase : Nat := 0x0F00000000000
abbrev doorbellBase : Nat := 0x0F10000000000
abbrev peerBase : Nat := 2 ^ 50
abbrev hostBase : Nat := 2 ^ 51

/-- What a physical address names (R265). -/
inductive Region
  | hbm
  | board
  | window (die off : Nat)
  | doorbell (off : Nat)
  | peer (p off : Nat)
  | host (off : Nat)
  | reserved
deriving DecidableEq, Repr

/-- R265. -/
def region (pa : Nat) : Region :=
  if pa < hbmEnd then .hbm
  else if boardBase ≤ pa ∧ pa < boardEnd then .board
  else if windowBase ≤ pa ∧ pa < windowBase + 2 ^ 33 then
    .window ((pa - windowBase) / 2 ^ 28) ((pa - windowBase) % 2 ^ 28)
  else if doorbellBase ≤ pa ∧ pa < doorbellBase + 2 ^ 21 then .doorbell (pa - doorbellBase)
  else if peerBase ≤ pa ∧ pa < hostBase then .peer ((pa - peerBase) / 2 ^ 42) ((pa - peerBase) % 2 ^ 42)
  else if hostBase ≤ pa ∧ pa < 2 ^ 52 then .host (pa - hostBase)
  else .reserved

/-- HBM or board tier: the memory that lines are coherent in (R235). -/
def isMem (pa : Nat) : Bool := pa < hbmEnd || (boardBase ≤ pa && pa < boardEnd)

/-! ## State access -/

/-- Spur sp. -/
def State.spur (s : State) (sp : Nat) : Spur := tget s.spurs sp {}

/-- Change Spur sp. -/
def modSpur (s : State) (sp : Nat) (f : Spur → Spur) : State := { s with spurs := tmod s.spurs sp {} f }

/-- The group in a slot. -/
def groupAt (s : State) (sp slot : Nat) : Option Group := tget? (s.spur sp).groups slot

/-- Replace the group in a slot. -/
def setGroup (s : State) (sp slot : Nat) (g : Group) : State :=
  modSpur s sp fun p => { p with groups := tset p.groups slot g }

/-- The block in a block slot. -/
def blockAt (s : State) (sp b : Nat) : Option Block := tget? (s.spur sp).blocks b

/-- Replace a block. -/
def setBlock (s : State) (sp b : Nat) (k : Block) : State :=
  modSpur s sp fun p => { p with blocks := tset p.blocks b k }

/-- Tensor die 16 + td. -/
def State.tdie (s : State) (td : Nat) : TensorDie := tget s.tdies td {}

/-- Change a tensor die. -/
def modTdie (s : State) (td : Nat) (f : TensorDie → TensorDie) : State :=
  { s with tdies := tmod s.tdies td {} f }

/-- Hart h. -/
def State.hart (s : State) (h : Nat) : Hart := tget s.harts h {}

/-- Change a hart. -/
def modHart (s : State) (h : Nat) (f : Hart → Hart) : State := { s with harts := tmod s.harts h {} f }

/-- The home on memory die 5 + md. -/
def State.home (s : State) (md : Nat) : Home := tget s.coh.homes md {}

/-- Change a home. -/
def modHome (s : State) (md : Nat) (f : Home → Home) : State :=
  { s with coh := { s.coh with homes := tmod s.coh.homes md {} f } }

/-- Helper cores of memory die 5 + md. -/
def State.helper (s : State) (md : Nat) : Helper := tget s.xlt.helpers md {}

/-- Change the helper cores of a memory die. -/
def modHelper (s : State) (md : Nat) (f : Helper → Helper) : State :=
  { s with xlt := { s.xlt with helpers := tmod s.xlt.helpers md {} f } }

/-- A queue. -/
def State.queue (s : State) (q : Nat) : QueueSt := tget s.qs.q q {}

/-- Change a queue. -/
def modQueue (s : State) (q : Nat) (f : QueueSt → QueueSt) : State :=
  { s with qs := { s.qs with q := tmod s.qs.q q {} f } }

/-- An open command. -/
def State.cmd? (s : State) (cid : Nat) : Option Cmd := tget? s.qs.cmds cid

/-- Replace a command. -/
def setCmd (s : State) (cid : Nat) (c : Cmd) : State :=
  { s with qs := { s.qs with cmds := tset s.qs.cmds cid c } }

/-- Bits [hi:lo] of the 64-bit word at byte offset `off` of a command's body. -/
def bodyBits (c : Cmd) (off hi lo : Nat) : Nat := bits (leNat ((c.body.drop off).take 8)) hi lo

/-- Draw a free value (log 4). -/
def drawFree (s : State) : W64 × State := (Config.freeWord s.free, { s with free := s.free + 1 })

/-- Alpenglow time becomes an event's instant, never earlier than it was (R384). -/
def setTime (s : State) (t : W64) : State := { s with time := if s.time ≤ t then t else s.time }

/-- Put a message in flight. -/
def send (s : State) (m : Msg) : State := { s with net := s.net ++ [m] }

/-- Take a message out of flight. -/
def recv (s : State) (m : Msg) : State := { s with net := s.net.erase m }

/-! ## Registers -/

/-- Key of a register in the register table. -/
def regKey (die off : Nat) : Nat := die * 2 ^ 28 + off

/-- DIE_CLASS of a die (R14, R27); `partner`: an FJW-9100-Gnnn module. -/
def dieClass (partner : Bool) (die : Nat) : Nat :=
  if die = 0 then 0 else if die ≤ 4 then 1 else if die ≤ 10 then 2 else if die ≤ 12 then 3
  else if die = 13 then 4 else if die ≤ 15 then (if partner then 6 else 5) else 7

/-- Default FLOOR and CEIL in W (R435). -/
def floorCeil (die : Nat) : Nat × Nat :=
  match dieClass false die with
  | 0 => (80, 90)
  | 1 => (50, 220)
  | 2 => (120, 280)
  | 3 => (110, 170)
  | 4 => (120, 300)
  | 7 => (60, 300)
  | _ => (20, 30)

/-- Cold-reset RANK fields of arbiter `a` on a die, input 0 in bits [2:0] (R413). -/
def coldRanks (die a : Nat) : Nat :=
  if a < 64 then 0x11234567
  else if 5 ≤ die ∧ die ≤ 10 then
    (if a < 192 then 0x2214 else if a = 192 then 0x77777777 else 0)
  else if die = 0 then (if a < 80 then 0x27 else if a = 80 then 0x7 else 0)
  else if die = 13 then (if a < 80 then 0x237 else 0)
  else 0

/-- Cold-reset values that depend on the die or are fused (R26, R27, R413, R435, HUB_MODULE_ID, HUB_MODULE_SERIAL);
`pc`: the partner code. A partner die reads a stepping of 0. -/
def specialCold (pc die off : Nat) : Option W64 :=
  if off = 0 then
    let c := dieClass (pc != 0) die
    some (BitVec.ofNat 64 ((if c = 6 then 0 else 0x10000000) + die * 65536 + c * 4096))
  else if off = 0x8 ∧ pc ≠ 0 then some (BitVec.ofNat 64 (0x9100000400000000 + pc * 2 ^ 38))
  else if off = 0x10 then some Config.serial
  else if off = 0x100000 then
    some (BitVec.ofNat 64 ((floorCeil die).1 * 4 * (2 ^ 48 + 2 ^ 32)))
  else if off = 0x100008 then
    some (BitVec.ofNat 64 ((floorCeil die).2 * 2 ^ 22 + (floorCeil die).1 * 2 ^ 12 + 0x180))
  else if 0x410000 ≤ off ∧ off < 0x410400 then
    some (BitVec.ofNat 64 (coldRanks die ((off - 0x410000) / 4)))
  else none

/-- Value in effect of a register whose table gives it the cold value `cold`. -/
def regRaw (s : State) (die off cold : Nat) : W64 :=
  match tget? s.regs (regKey die off) with
  | some v => v
  | none => (specialCold s.boot.fuses.partner die off).getD (BitVec.ofNat 64 cold)

/-- A register field in effect; `i`: index in an array. -/
def fldAt (s : State) (die : Nat) (f : FRef) (i : Nat) : Nat :=
  bits (regRaw s die (f.off + f.stride * i) f.cold).toNat f.hi f.lo

/-- A register field in effect. -/
def fld (s : State) (die : Nat) (f : FRef) : Nat := fldAt s die f 0

/-- Set a register field, as hardware or a write that has been checked does. -/
def setFldAt (s : State) (die : Nat) (f : FRef) (i x : Nat) : State :=
  let off := f.off + f.stride * i
  let v := BitVec.ofNat 64 (setBits (regRaw s die off f.cold).toNat f.hi f.lo x)
  { s with regs := tset s.regs (regKey die off) v }

/-- Set a register field. -/
def setFld (s : State) (die : Nat) (f : FRef) (x : Nat) : State := setFldAt s die f 0 x

/-- A Bool as a field value. -/
def b2n (b : Bool) : Nat := if b then 1 else 0

/-- Count an event: a 64-bit counter that wraps and sets its sticky overflow bit (R11). -/
def bumpEventAt (s : State) (die : Nat) (c : FRef) (i : Nat) (ovf : FRef) (bit n : Nat) : State :=
  let v := fldAt s die c i + n
  let s := setFldAt s die c i (v % 2 ^ 64)
  if v < 2 ^ 64 then s else setFld s die ovf (setBits (fld s die ovf) bit bit 1)

/-- Count one event. -/
def bumpEvent (s : State) (die : Nat) (c ovf : FRef) : State := bumpEventAt s die c 0 ovf 0 1

/-- Count an error: a 16-bit counter that stays at 0xFFFF (R11). -/
def bumpErrAt (s : State) (die : Nat) (c : FRef) (i : Nat) : State :=
  let v := fldAt s die c i
  if v < 0xFFFF then setFldAt s die c i (v + 1) else s

/-- Count an error. -/
def bumpErr (s : State) (die : Nat) (c : FRef) : State := bumpErrAt s die c 0

/-- Is a die in service (R28, R29)? -/
def dieUp (s : State) (die : Nat) : Bool := bitAt (fld s 0 R.HUB_DIE_MAP_IN_SERVICE) die

/-- STATE of the status window changes, which raises an alert on the management bus (R344, R506). -/
def setBootState (s : State) (n : Nat) : State :=
  if s.boot.state = n then s else { s with boot := { s.boot with state := n }, mgmt := { s.mgmt with alert := true } }

/-- In STATE 5 and 6 no doorbell and no command is accepted (R498, R504). -/
def moduleStopped (s : State) : Bool := s.boot.state == 5 || s.boot.state == 6

/-! ## Contexts and events -/

/-- A loaded context. Context 0 is the management context and is never loaded (R271). -/
def State.ctx? (s : State) (c : BitVec 16) : Option Ctx := tget? s.xlt.ctxs c.toNat

/-- Panyx view of a context (R20, R22). -/
def isPanyx (s : State) (c : BitVec 16) : Bool := ((s.ctx? c).map (·.panyx)).getD false

/-- The scope as executed (R20): values 2, 3 and 4 act at package in the Panyx view. -/
def scopeExec (s : State) (c : BitVec 16) (sc : BitVec 3) : BitVec 3 :=
  if isPanyx s c && (2 ≤ sc.toNat && sc.toNat ≤ 4) then 4 else sc

/-- Raise an event; EVENT_POST writes it into its queue (R361, R362). -/
def raiseEvent (s : State) (q : BitVec 18) (typ : Byte) (ctx : BitVec 16) (body : List Byte) : State :=
  { s with qs := { s.qs with events := s.qs.events ++ [⟨q, typ, ctx, body⟩] } }

/-- A 32-byte body of four words. -/
def body4 (a b c d : Nat) : List Byte := leBytes 8 a ++ leBytes 8 b ++ leBytes 8 c ++ leBytes 8 d

/-! ## The Summit Book (R367, R368) -/

/-- Bytes of the journal record with sequence `n`. -/
def journalBytes (n : Nat) (r : JRec) : List Byte :=
  leBytes 8 n
  ++ leBytes 8 (r.event.toNat + r.repeats.toNat * 2 ^ 3 + r.status.toNat * 2 ^ 6 + r.queue.toNat * 2 ^ 14
      + r.index * 2 ^ 32 + r.kind.toNat * 2 ^ 56)
  ++ leBytes 8 (r.ctx.toNat + r.stag.toNat * 2 ^ 16 + r.tag.toNat * 2 ^ 32)
  ++ leBytes 8 r.time.toNat

/-- The record of a command's state change. -/
def jrecOf (s : State) (cid : Nat) (c : Cmd) (event repeats : BitVec 3) (status : Byte) : JRec :=
  ⟨cid, event, repeats, status, c.queue, c.index, c.kind, c.ctx, c.stag, c.tag, s.time⟩

/-- Write one record at sequence `n` into the journal and its mirror. -/
def journalPut (s : State) (r : JRec) : State :=
  let n := s.qs.jnext
  let idx := n % 2 ^ 22
  let off := 32 * idx
  let b := journalBytes n r
  let s := { s with mem := memWrite (memWrite s.mem (fld s 0 R.HUB_JOURNAL_BASE_BASE * 2 ^ 27 + off) b)
                              (fld s 0 R.HUB_JOURNAL_MIRROR_BASE * 2 ^ 27 + off) b }
  { s with qs := { s.qs with
      jnext := n + 1
      jflight := s.qs.jflight ++ [(n, false)]
      jowner := tset s.qs.jowner idx r.cid
      cmds := match tget? s.qs.cmds r.cid with
        | some c => tset s.qs.cmds r.cid { c with jseq := some n }
        | none => s.qs.cmds } }

/-- Carry the record that the next one overwrites, when it is the latest of a command that has not ended (R368). -/
def journalCarry (s : State) : State :=
  let idx := s.qs.jnext % 2 ^ 22
  match tget? s.qs.jowner idx with
  | none => s
  | some cid =>
    match s.cmd? cid with
    | some c =>
      if c.jseq = some (s.qs.jnext - 2 ^ 22) ∧ 2 ^ 22 ≤ s.qs.jnext then
        match c.st with
        | .accepted => journalPut s (jrecOf s cid c 6 1 0)
        | .started => journalPut s (jrecOf s cid c 6 2 0)
        | .ended _ => s
      else s
    | none => s

/-- Write waiting records while fewer than 64 are in flight (R368). -/
def journalFlush : List JRec → State → State
  | [], s => { s with qs := { s.qs with jwait := [] } }
  | r :: rs, s =>
    if s.qs.jflight.length < 64 then journalFlush rs (journalPut (journalCarry s) r)
    else { s with qs := { s.qs with jwait := r :: rs } }

/-- Write a record for a state change of a command (R367). -/
def journal (s : State) (cid : Nat) (event : BitVec 3) (status : Byte) : State :=
  match s.cmd? cid with
  | none => s
  | some c =>
    let s := setCmd s cid { c with jseq := none }
    journalFlush (s.qs.jwait ++ [jrecOf s cid c event 0 status]) s

/-- Is the command's latest record acknowledged in both copies (R368)? -/
def journalAcked (s : State) (c : Cmd) : Bool :=
  match c.jseq with
  | none => false
  | some n => n ≤ fld s 0 R.HUB_JOURNAL_HEAD_HEAD || s.qs.jflight.contains (n, true)

/-- A command ends with a status: its final record is written, with event 3 completed, 4 abandoned or
5 aborted; COMPLETION_POST posts its completion (R357, R360, R367). -/
def endCmd (s : State) (cid : Nat) (event : BitVec 3) (status : Byte) : State :=
  match s.cmd? cid with
  | none => s
  | some c =>
    match c.st with
    | .ended _ => s
    | _ =>
      let s := setCmd s cid { c with st := .ended status, running := false }
      let s := modQueue s c.queue.toNat fun q => { q with opened := q.opened - 1 }
      journal s cid event status

/-- A command completes (R360). -/
def finishCmd (s : State) (cid : Nat) (status : Byte) : State := endCmd s cid 3 status

/-- A started command whose unit may act on it: its started record is acknowledged (R368). -/
def runnable (s : State) (cid : Nat) (kind : Nat) : Option Cmd :=
  match s.cmd? cid with
  | some c => if c.st = .started ∧ c.kind.toNat = kind ∧ journalAcked s c then some c else none
  | none => none

end Sys2Proof.Machine
end

