-- ==== Sys2Proof/Machine/Flags.lean ====
section
/-! DEFINITION. Number formats and arithmetic (chapter 04): exact values, rounding into a format, the lane
unit's floating-point operations, conversions, special functions, comparisons, and the scalar pieces of the matrix
arithmetic. -/

namespace Sys2Proof.Machine

/-! ## Formats and exact values -/

/-- How a format uses its top encodings (R135): IEEE infinities and NaNs; one NaN per sign and no infinity
(E4M3); neither (FP6, FP4). -/
inductive Special | ieee | e4m3 | none
deriving DecidableEq, Repr

/-- A floating-point format (R135). -/
structure FpFmt where
  ebits : Nat
  mbits : Nat
  bias : Nat
  special : Special
deriving DecidableEq, Repr

def e4m3 : FpFmt := ⟨4, 3, 7, .e4m3⟩
def e5m2 : FpFmt := ⟨5, 2, 15, .ieee⟩
def e3m2 : FpFmt := ⟨3, 2, 3, .none⟩
def e2m3 : FpFmt := ⟨2, 3, 1, .none⟩
def e2m1 : FpFmt := ⟨2, 1, 1, .none⟩
def bf16 : FpFmt := ⟨8, 7, 127, .ieee⟩
def fp16 : FpFmt := ⟨5, 10, 15, .ieee⟩
def fp32 : FpFmt := ⟨8, 23, 127, .ieee⟩

/-- An exact value: NaN, infinity, or (-1)^neg * m * 2^e. -/
inductive FVal
  | nan
  | inf (neg : Bool)
  | fin (neg : Bool) (m : Nat) (e : Int)
deriving DecidableEq, Repr

/-- Sign bit weight of a format. -/
def FpFmt.signBit (f : FpFmt) : Nat := 2 ^ (f.ebits + f.mbits)

/-- Largest encoding of a finite magnitude (R135). -/
def FpFmt.maxFinite (f : FpFmt) : Nat :=
  match f.special with
  | .ieee => (2 ^ f.ebits - 1) * 2 ^ f.mbits - 1
  | .e4m3 => f.signBit - 2
  | .none => f.signBit - 1

/-- Exponent of the least significant bit of a subnormal. -/
def FpFmt.emin (f : FpFmt) : Int := 1 - (f.bias : Int) - f.mbits

/-- Infinity of a sign, in an IEEE format. -/
def FpFmt.infBits (f : FpFmt) : Nat := (2 ^ f.ebits - 1) * 2 ^ f.mbits

/-- Canonical NaN (R148, R142, R152): 0x7FC0_0000, 0x7E00, 0x7FC0, and 0x7F for both FP8 formats. -/
def FpFmt.nanBits (f : FpFmt) : Nat :=
  if f.ebits + f.mbits = 7 then 0x7F
  else match f.special with
    | .ieee => f.infBits + 2 ^ (f.mbits - 1)
    | .e4m3 => f.signBit - 1
    | .none => 0

/-- Value of an encoding (R135). -/
def FpFmt.decode (f : FpFmt) (w : Nat) : FVal :=
  let neg := bitAt w (f.ebits + f.mbits)
  let mag := w % f.signBit
  let ex := mag / 2 ^ f.mbits
  let mn := mag % 2 ^ f.mbits
  if f.special = .ieee ∧ ex = 2 ^ f.ebits - 1 then (if mn = 0 then .inf neg else .nan)
  else if f.special = .e4m3 ∧ mag = f.signBit - 1 then .nan
  else if ex = 0 then .fin neg mn f.emin
  else .fin neg (2 ^ f.mbits + mn) (f.emin + (ex - 1 : Nat))

/-- Rounding modes (R152), and stochastic rounding with a draw (R144). -/
inductive Rnd | rne | rtz | rdn | rup | stoch (r : Nat)
deriving DecidableEq, Repr

/-- Round q + r / d to an integer, for a value of the given sign. -/
def roundQuot (mode : Rnd) (neg : Bool) (q r d : Nat) : Nat :=
  match mode with
  | .rne => if 2 * r < d then q else if d < 2 * r then q + 1 else q + q % 2
  | .rtz => q
  | .rdn => if neg && r != 0 then q + 1 else q
  | .rup => if !neg && r != 0 then q + 1 else q
  | .stoch x => if r = 0 then q else if 0x10000 ≤ r * 0x10000 / d + x then q + 1 else q

/-- m * 2^s as a natural number, rounded when s is negative. -/
def shiftRound (mode : Rnd) (neg : Bool) (m : Nat) (s : Int) : Nat :=
  if 0 ≤ s then m * 2 ^ s.toNat
  else
    let d := 2 ^ (-s).toNat
    roundQuot mode neg (m / d) (m % d) d

/-- Encoding of the magnitude m * 2^e rounded into the format, unbounded above. -/
def FpFmt.roundMag (f : FpFmt) (mode : Rnd) (neg : Bool) (m : Nat) (e : Int) : Nat :=
  if m = 0 then 0
  else
    let top : Int := e + Nat.log2 m
    let q : Int := max (top - f.mbits) f.emin
    (q - f.emin).toNat * 2 ^ f.mbits + shiftRound mode neg m (e - q)

/-- Sign bit of an encoding. -/
def FpFmt.sign (f : FpFmt) (neg : Bool) : Nat := if neg then f.signBit else 0

/-- An IEEE overflow: infinity, or the largest finite magnitude when the mode rounds away from it. -/
def FpFmt.overflow (f : FpFmt) (mode : Rnd) (neg : Bool) : Nat :=
  match mode with
  | .rne => f.infBits
  | .rtz => f.maxFinite
  | .rdn => if neg then f.infBits else f.maxFinite
  | .rup => if neg then f.maxFinite else f.infBits
  | .stoch _ => f.maxFinite

/-- Encode a value in an IEEE format with a rounding mode (R148). -/
def FpFmt.encode (f : FpFmt) (mode : Rnd) : FVal → Nat
  | .nan => f.nanBits
  | .inf neg => f.sign neg + f.infBits
  | .fin neg m e =>
    let b := f.roundMag mode neg m e
    f.sign neg + if f.maxFinite < b then f.overflow mode neg else b

/-- Signed integer of a finite value at exponent `q`, which is at most `e`. -/
def signedAt (neg : Bool) (m : Nat) (e q : Int) : Int :=
  let v : Int := (m * 2 ^ (e - q).toNat : Nat)
  if neg then -v else v

/-- A finite value of a signed integer and exponent; zero is +0. -/
def finOfInt (v : Int) (e : Int) : FVal := .fin (v < 0) v.natAbs e

/-- Exact sum, with the zero signs of IEEE 754 under round to nearest (R140, R148). -/
def FVal.add : FVal → FVal → FVal
  | .nan, _ | _, .nan => .nan
  | .inf a, .inf b => if a = b then .inf a else .nan
  | .inf a, _ => .inf a
  | _, .inf b => .inf b
  | .fin a m e, .fin b n k =>
    if m = 0 ∧ n = 0 then .fin (a && b) 0 0
    else
      let q := min e k
      finOfInt (signedAt a m e q + signedAt b n k q) q

/-- Exact product. -/
def FVal.mul : FVal → FVal → FVal
  | .nan, _ | _, .nan => .nan
  | .inf a, .inf b => .inf (xor a b)
  | .inf a, .fin b n _ => if n = 0 then .nan else .inf (xor a b)
  | .fin a m _, .inf b => if m = 0 then .nan else .inf (xor a b)
  | .fin a m e, .fin b n k => .fin (xor a b) (m * n) (e + k)

/-- Is a value NaN? -/
def FVal.isNan : FVal → Bool
  | .nan => true
  | _ => false

/-- a < b for values that are not NaN; zeros are equal. -/
def FVal.lt : FVal → FVal → Bool
  | .nan, _ | _, .nan => false
  | .inf a, .inf b => a && !b
  | .inf a, _ => a
  | _, .inf b => !b
  | .fin a m e, .fin b n k =>
    let q := min e k
    decide (signedAt a m e q < signedAt b n k q)

/-- a = b for values that are not NaN; +0 and -0 are equal (R150). -/
def FVal.eq (a b : FVal) : Bool := !a.isNan && !b.isNan && !a.lt b && !b.lt a

/-- Sign of a value. -/
def FVal.neg? : FVal → Bool
  | .nan => false
  | .inf a => a
  | .fin a _ _ => a

/-- minimumNumber of IEEE 754-2019 (R149): -0 is less than +0; one NaN gives the other operand. -/
def FVal.minNum (a b : FVal) : FVal :=
  if a.isNan then b else if b.isNan then a
  else if a.lt b then a else if b.lt a then b else if a.neg? then a else b

/-- maximumNumber of IEEE 754-2019 (R149). -/
def FVal.maxNum (a b : FVal) : FVal :=
  if a.isNan then b else if b.isNan then a
  else if a.lt b then b else if b.lt a then a else if a.neg? then b else a

/-- Value of a signed integer. -/
def FVal.ofInt (v : Int) : FVal := .fin (v < 0) v.natAbs 0

/-! ## Lane-unit operations -/

/-- `fp.*` operations but setp, by FUNC (R522). -/
def fpValue (func : Nat) (a b c : FVal) : FVal :=
  match func with
  | 0 => (a.mul b).add c
  | 1 => a.add b
  | 2 => a.mul b
  | 3 => a.minNum b
  | _ => a.maxNum b

/-- An operation on one element of a format, rounded once (R148). -/
def fpElem (f : FpFmt) (func a b c : Nat) : Nat :=
  f.encode .rne (fpValue func (f.decode a) (f.decode b) (f.decode c))

/-- An operation on a register of the TYPE of R147: 0 f32, 1 f16x2, 2 bf16x2. -/
def fpOp (typ func : Nat) (a b c : W32) : W32 :=
  if typ = 0 then BitVec.ofNat 32 (fpElem fp32 func a.toNat b.toNat c.toNat)
  else
    let f := if typ = 1 then fp16 else bf16
    let h := fun (w : W32) => w.toNat / 65536
    let l := fun (w : W32) => w.toNat % 65536
    BitVec.ofNat 32 (fpElem f func (h a) (h b) (h c) * 65536 + fpElem f func (l a) (l b) (l c))

/-- Conditions of `fp.setp` (R150). -/
def fpCond (cond : Nat) (x y : W32) : Bool :=
  let a := fp32.decode x.toNat
  let b := fp32.decode y.toNat
  let un := a.isNan || b.isNan
  match cond with
  | 0 => a.eq b
  | 1 => un || !a.eq b
  | 2 => a.lt b
  | 3 => a.lt b || a.eq b
  | 4 => b.lt a
  | 5 => b.lt a || a.eq b
  | 6 => !un
  | _ => un

/-- Conditions of `int.setp` (R522). -/
def intCond (signed : Bool) (cond : Nat) (a b : W32) : Bool :=
  let lt := if signed then a.slt b else a.ult b
  let gt := if signed then b.slt a else b.ult a
  match cond with
  | 0 => a == b
  | 1 => a != b
  | 2 => lt
  | 3 => lt || a == b
  | 4 => gt
  | _ => gt || a == b

/-- Integer operations but sel and setp, by FUNC (R522). A shift by 32 or more has no stated result (log 8). -/
def intOp (func : Nat) (signed : Bool) (a b : W32) : W32 :=
  let sh := fun (f : W32) => if b.toNat < 32 then f else Config.shiftOver func a b
  match func with
  | 0 => a + b
  | 1 => a - b
  | 2 => a * b
  | 3 => if signed then BitVec.ofInt 32 (a.toInt * b.toInt / 2 ^ 32) else BitVec.ofNat 32 (a.toNat * b.toNat / 2 ^ 32)
  | 4 => a &&& b
  | 5 => a ||| b
  | 6 => a ^^^ b
  | 7 => sh (a <<< b.toNat)
  | 8 => sh (a >>> b.toNat)
  | 9 => sh (a.sshiftRight b.toNat)
  | 10 => if (if signed then a.slt b else a.ult b) then a else b
  | _ => if (if signed then a.slt b else a.ult b) then b else a

/-! ## Conversion (R151, R152) -/

/-- The floating-point format of a `cvt` type code. -/
def cvtFmt (code : Nat) : Option FpFmt :=
  match code with
  | 2 => some fp32
  | 3 => some fp16
  | 4 => some bf16
  | 5 => some e4m3
  | 6 => some e5m2
  | _ => none

/-- Width and signedness of an integer type code. -/
def cvtInt (code : Nat) : Option (Nat × Bool) :=
  match code with
  | 0 => some (32, false)
  | 1 => some (32, true)
  | 7 => some (8, false)
  | 8 => some (8, true)
  | 9 => some (16, false)
  | 10 => some (16, true)
  | _ => none

/-- Rounding mode of MOD[2:0]. -/
def cvtMode (m : Nat) : Rnd :=
  match m with
  | 0 => .rne
  | 1 => .rtz
  | 2 => .rdn
  | _ => .rup

/-- Exact value of a source, and whether its sign bit is set. -/
def cvtSource (code : Nat) (w : W32) : FVal × Bool :=
  match cvtFmt code with
  | some f =>
    let n := w.toNat % (2 * f.signBit)
    (f.decode n, bitAt n (f.ebits + f.mbits))
  | none =>
    match cvtInt code with
    | some (n, true) =>
      let v := (BitVec.ofNat n w.toNat).toInt
      (FVal.ofInt v, v < 0)
    | some (n, false) => (FVal.ofInt (w.toNat % 2 ^ n : Nat), false)
    | none => (.nan, false)

/-- Encode into E4M3, which has no infinity (R152). -/
def cvtE4m3 (mode : Rnd) (sat : Bool) : FVal → Nat
  | .nan => 0x7F
  | .inf neg => e4m3.sign neg + if sat then 0x7E else 0x7F
  | .fin neg m e =>
    let b := e4m3.roundMag mode neg m e
    e4m3.sign neg +
      if b ≤ 0x7E then b
      else if sat then 0x7E
      else match mode with
        | .rtz => 0x7E
        | .rdn => if neg then 0x7F else 0x7E
        | .rup => if neg then 0x7E else 0x7F
        | _ => 0x7F

/-- Encode into a floating-point destination (R152). -/
def cvtFloat (f : FpFmt) (mode : Rnd) (sat : Bool) (v : FVal) (narrow : Bool) : Nat :=
  if f.special = .e4m3 then cvtE4m3 mode sat v
  else if sat && narrow then
    match v with
    | .nan => f.nanBits
    | .inf neg => f.sign neg + f.maxFinite
    | .fin neg m e => f.sign neg + min (f.roundMag mode neg m e) f.maxFinite
  else f.encode mode v

/-- Convert to an integer, saturating (R152). -/
def cvtToInt (n : Nat) (signed : Bool) (mode : Rnd) : FVal → Int
  | .nan => 0
  | .inf neg => if neg then (if signed then -(2 ^ (n - 1) : Nat) else 0)
                else (if signed then (2 ^ (n - 1) : Nat) - 1 else (2 ^ n : Nat) - 1)
  | .fin neg m e =>
    let mag : Int := shiftRound mode neg m e
    let v := if neg then -mag else mag
    if signed then max (-(2 ^ (n - 1) : Nat)) (min v ((2 ^ (n - 1) : Nat) - 1))
    else max 0 (min v ((2 ^ n : Nat) - 1))

/-- Is a conversion in the rows of R152 that SAT acts on: to a float narrower than the source? -/
def cvtNarrow (src dst : Nat) : Bool :=
  match cvtFmt src, cvtFmt dst with
  | some a, some b => b.ebits + b.mbits < a.ebits + a.mbits || (src != dst && b.ebits + b.mbits = 15 && a.ebits + a.mbits = 15)
      || (src == 5 && dst == 6)
  | none, some b => b.ebits + b.mbits ≤ 15
  | _, _ => false

/-- `cvt` (R151, R152): none for a reserved code or a pair of integers. -/
def cvtOp (src dst md : Nat) (w : W32) : Option W32 :=
  let mode := cvtMode (md % 8)
  let sat := bitAt md 3
  let v := (cvtSource src w).1
  if (cvtFmt src).isNone ∧ (cvtInt src).isNone then none
  else match cvtFmt dst with
    | some f => some (BitVec.ofNat 32 (cvtFloat f mode sat v (cvtNarrow src dst)))
    | none =>
      match cvtInt dst with
      | some (n, sg) => if (cvtFmt src).isNone then none else some (BitVec.ofInt 32 (cvtToInt n sg mode v))
      | none => none

/-! ## Special functions (R153) -/

/-- Fixed point with 96 fraction bits. -/
abbrev fix1 : Int := 2 ^ 96

/-- Product of fixed-point numbers, rounded down. -/
def fixMul (a b : Int) : Int := a * b / fix1

/-- Taylor sum of terms t * x / k from k on: exp when `alt` is false; with steps of two and alternating signs,
sin and cos. -/
def taylor (x : Int) : Nat → Nat → Int → Int
  | 0, _, t => t
  | n + 1, k, t => t + taylor x n (k + 1) (fixMul t x / k)

/-- Alternating Taylor sum in x², for sin and cos. -/
def taylorAlt (x2 : Int) : Nat → Nat → Int → Int
  | 0, _, t => t
  | n + 1, k, t => t + taylorAlt x2 n (k + 2) (-(fixMul t x2 / (k * (k + 1) : Nat)))

/-- Fixed-point value of a finite value. -/
def fixOf (neg : Bool) (m : Nat) (e : Int) : Int :=
  let v : Int := if 0 ≤ e + 96 then (m * 2 ^ (e + 96).toNat : Nat) else (m / 2 ^ (-(e + 96)).toNat : Nat)
  if neg then -v else v

/-- 2^x for fixed-point x, as an exact value. -/
def refExp2 (x : Int) : FVal :=
  let n := x / fix1
  let f := x % fix1
  .fin false (taylor (fixMul f 54916777467707473351141471128) 40 1 fix1).toNat (n - 96)

/-- Fraction bits of log2 y for y in [1, 2), by repeated squaring. -/
def log2Bits : Nat → Nat → Nat
  | 0, _ => 0
  | n + 1, y =>
    let y2 := y * y / 2 ^ 96
    if 2 ^ 97 ≤ y2 then 2 ^ n + log2Bits n (y2 / 2) else log2Bits n y2

/-- log2 of m * 2^e, for m not 0. -/
def refLog2 (m : Nat) (e : Int) : FVal :=
  let n := Nat.log2 m
  finOfInt ((e + n) * 2 ^ 50 + (log2Bits 50 (m * 2 ^ 96 / 2 ^ n) : Nat)) (-50)

/-- sin (odd) or cos of a fixed-point x. -/
def refTrig (cosine : Bool) (x : Int) : FVal :=
  let r := x % 497805226624462170461043889244
  let r2 := fixMul r r
  finOfInt (if cosine then taylorAlt r2 40 1 fix1 else taylorAlt r2 40 2 r) (-96)

/-- tanh of a fixed-point x, from E = 2^(2x / ln 2). -/
def refTanh (x : Int) : FVal :=
  if 16 * fix1 ≤ x then .fin false 1 0
  else if x ≤ -16 * fix1 then .fin true 1 0
  else match refExp2 (fixMul (2 * x) 114302077158074026402637675936) with
    | .fin _ m e =>
      let ee := fixOf false m e
      finOfInt ((ee - fix1) * fix1 / (ee + fix1)) (-96)
    | v => v

/-- 1 / (m * 2^e). -/
def refRcp (neg : Bool) (m : Nat) (e : Int) : FVal := .fin neg (2 ^ 160 / m) (-160 - e)

/-- Integer square root by bisection on the given number of bits. -/
def isqrtAux : Nat → Nat → Nat → Nat
  | 0, _, r => r
  | k + 1, n, r => if (r + 2 ^ k) * (r + 2 ^ k) ≤ n then isqrtAux k n (r + 2 ^ k) else isqrtAux k n r

/-- Square root of m * 2^e. -/
def refSqrt (m : Nat) (e : Int) : FVal :=
  if e % 2 = 0 then .fin false (isqrtAux 80 (m * 2 ^ 120) 0) ((e - 120) / 2)
  else .fin false (isqrtAux 80 (2 * m * 2 ^ 120) 0) ((e - 121) / 2)

/-- 1 / sqrt(m * 2^e). -/
def refRsqrt (m : Nat) (e : Int) : FVal :=
  if e % 2 = 0 then .fin false (isqrtAux 110 (2 ^ 200 / m) 0) (-100 - e / 2)
  else .fin false (isqrtAux 110 (2 ^ 200 / (2 * m)) 0) (-100 - (e - 1) / 2)

/-- Exponent floor(log2) of a finite magnitude. -/
def magExp : FVal → Option Int
  | .fin _ m e => if m = 0 then none else some (e + Nat.log2 m)
  | _ => none

/-- Magnitude of a value. -/
def FVal.abs : FVal → FVal
  | .fin _ m e => .fin false m e
  | .inf _ => .inf false
  | .nan => .nan

/-- n ulps of f32 at a value. -/
def ulpsAt (n : Nat) (r : FVal) : FVal :=
  .fin false n (match magExp r with | none => -149 | some t => max (t - 23) (-149))

/-- Hold an implementation's result to the error bound of R153: `x` when |x − ref| is at most n ulps or the
absolute bound `tol`, else the reference rounded to nearest even. A reference past the f32 range gives infinity. -/
def bounded (ref : FVal) (n : Nat) (tol : FVal) (x : W32) : W32 :=
  let r := BitVec.ofNat 32 (fp32.encode .rne ref)
  match fp32.decode x.toNat with
  | .fin neg m e =>
    let err := ((FVal.fin neg m e).add (ref.mul (.fin true 1 0))).abs
    if r.toNat % 2 ^ 31 ≠ 0x7F800000 ∧ (!(ulpsAt n ref).lt err || !tol.lt err) then x else r
  | _ => r

/-- f32 constants. -/
abbrev f32Nan : W32 := 0x7FC00000
abbrev f32Inf : W32 := 0x7F800000
abbrev f32NegInf : W32 := 0xFF800000
abbrev f32One : W32 := 0x3F800000

/-- No absolute bound. -/
abbrev noTol : FVal := .fin false 0 0

/-- Clamp a result to [-1, 1]. -/
def clamp1 (x : W32) : W32 :=
  if x.toNat % 2 ^ 31 ≤ 0x3F800000 then x else x &&& 0x80000000 ||| 0x3F800000

/-- The special functions by FUNC (R153, R522): special cases as stated; otherwise the implementation's fixed
result, held to the error bound where the exact result can be computed (log 7). -/
def sfOp (func : Nat) (w : W32) : W32 :=
  match fp32.decode w.toNat with
  | .nan => f32Nan
  | .inf neg =>
    match func with
    | 0 => if neg then 0x80000000 else 0
    | 1 => if neg then f32Nan else 0
    | 2 => if neg then f32Nan else f32Inf
    | 3 => if neg then 0 else f32Inf
    | 4 => if neg then f32Nan else f32Inf
    | 5 => f32Nan
    | 6 => f32Nan
    | _ => if neg then 0xBF800000 else f32One
  | .fin neg m e =>
    let x := fixOf neg m e
    match func with
    | 0 => if m = 0 then (if neg then f32NegInf else f32Inf) else bounded (refRcp neg m e) 1 noTol (Config.sfRcp w)
    | 1 =>
      if m = 0 then (if neg then f32NegInf else f32Inf)
      else if neg then f32Nan else bounded (refRsqrt m e) 2 noTol (Config.sfRsqrt w)
    | 2 => if m = 0 then w else if neg then f32Nan else bounded (refSqrt m e) 1 noTol (Config.sfSqrt w)
    | 3 =>
      if 128 * fix1 ≤ x then f32Inf else if x < -160 * fix1 then 0
      else bounded (refExp2 x) 2 noTol (Config.sfExp2 w)
    | 4 =>
      if m = 0 then f32NegInf else if neg then f32Nan else if w = f32One then 0
      else bounded (refLog2 m e) 2
        (if 0x3F000000 ≤ w.toNat ∧ w.toNat ≤ 0x40000000 then .fin false 1 (-22) else noTol) (Config.sfLog2 w)
    | 5 =>
      if m = 0 then w
      else if x.natAbs ≤ 63719069007931157819013617823235 then
        bounded (refTrig false x) 0 (.fin false 1 (-21)) (Config.sfSin w)
      else clamp1 (Config.sfSin w)
    | 6 =>
      if x.natAbs ≤ 63719069007931157819013617823235 then
        bounded (refTrig true x) 0 (.fin false 1 (-21)) (Config.sfCos w)
      else clamp1 (Config.sfCos w)
    | _ =>
      if m = 0 then w
      else bounded (refTanh x) 2 (if w.toNat % 2 ^ 31 < 0x3D800000 then .fin false 1 (-22) else noTol) (Config.sfTanh w)

/-! ## f32 steps of the epilogue, engines and atomics -/

/-- f32 add, rounded to nearest even. -/
def f32Add (a b : W32) : W32 := fpOp 0 1 a b 0
/-- f32 multiply, rounded to nearest even. -/
def f32Mul (a b : W32) : W32 := fpOp 0 2 a b 0

/-- An INT32 cell as FP32 (R102). -/
def i32ToF32 (a : W32) : W32 := BitVec.ofNat 32 (fp32.encode .rne (FVal.ofInt a.toInt))

/-! ## Matrix element formats (R93, R135 to R138) -/

/-- Element bits of a matrix format. -/
def mxBits (fmt : Nat) : Nat :=
  match fmt with
  | 4 | 5 => 6
  | 6 => 4
  | 9 | 10 => 16
  | 11 | 12 => 32
  | _ => 8

/-- Does a format carry MX block scales (R93)? -/
def mxScaled (fmt : Nat) : Bool := 2 ≤ fmt && fmt ≤ 7

/-- Value of an element of a matrix format, before its scale (R135, R136). -/
def mxValue (fmt w : Nat) : FVal :=
  match fmt with
  | 0 | 2 => e4m3.decode w
  | 1 | 3 => e5m2.decode w
  | 4 => e3m2.decode w
  | 5 => e2m3.decode w
  | 6 => e2m1.decode w
  | 7 => let v := (BitVec.ofNat 8 w).toInt
         .fin (v < 0) v.natAbs (-6)
  | 8 => FVal.ofInt (BitVec.ofNat 8 w).toInt
  | 9 => bf16.decode w
  | 10 => fp16.decode w
  | 11 => fp32.decode w
  | _ => FVal.ofInt (BitVec.ofNat 32 w).toInt

/-- Multiply by 2^k. -/
def FVal.scale (k : Int) : FVal → FVal
  | .fin n m e => .fin n m (e + k)
  | v => v

/-- Exact sum of a block's products (R139, R140): −0 only when every product is −0. -/
def blockSum : List FVal → FVal
  | [] => .fin false 0 0
  | [x] => x
  | x :: xs => x.add (blockSum xs)

/-- One block value: exact products summed, scaled by 2^k and converted to FP32 (R139). -/
def blockValue (a w : List FVal) (k : Int) : W32 :=
  BitVec.ofNat 32 (fp32.encode .rne ((blockSum (List.zipWith FVal.mul a w)).scale k))

/-- Column sum of block values in increasing b (R139). -/
def columnSum : List W32 → W32
  | [] => 0
  | b :: bs => bs.foldl f32Add b

/-! ## Quantisation (R142 to R145) -/

/-- One step of the stochastic-rounding generator (R145). -/
def srStep (x : W64) : W64 :=
  let x := x ^^^ (x <<< 13)
  let x := x ^^^ (x >>> 7)
  x ^^^ (x <<< 17)

/-- Quantise to a format that is not an MX format (R142). -/
def quantPlain (fmt : Nat) (x : W32) : Nat :=
  let v := fp32.decode x.toNat
  match fmt with
  | 0 =>
    match v with
    | .nan => 0x7F
    | .inf _ => 0x7F
    | .fin neg m e => e4m3.sign neg + min (e4m3.roundMag .rne neg m e) e4m3.maxFinite
  | 1 =>
    match v with
    | .nan => 0x7F
    | .inf neg => e5m2.sign neg + e5m2.infBits
    | .fin neg m e => e5m2.sign neg + min (e5m2.roundMag .rne neg m e) e5m2.maxFinite
  | 8 => (BitVec.ofInt 8 (cvtToInt 8 true .rne v)).toNat
  | 9 => bf16.encode .rne v
  | 10 => fp16.encode .rne v
  | _ => x.toNat

/-- Element format and EMAX of an MX output format (R143). -/
def mxOut (fmt : Nat) : FpFmt × Int :=
  match fmt with
  | 2 => (e4m3, 8)
  | 3 => (e5m2, 15)
  | 4 => (e3m2, 4)
  | 5 => (e2m3, 2)
  | _ => (e2m1, 2)

/-- Scale exponent e of an MX output block (R143): none when a value is NaN or infinite. -/
def mxScaleExp (emax : Int) (vs : List FVal) : Option Int :=
  if vs.any (fun v => match v with | .fin .. => false | _ => true) then none
  else match (vs.filterMap magExp).max? with
    | none => some (-127)
    | some t => some (min 127 (max (-127) (t - emax)))

/-- One MX output element (R143, R144). -/
def mxElem (fmt : Nat) (mode : Rnd) (e : Int) (v : FVal) : Nat :=
  match v with
  | .fin neg m x =>
    if fmt = 7 then
      let mag : Int := shiftRound mode neg m (x - e + 6)
      (BitVec.ofInt 8 (if neg then max (-128) (-mag) else min 127 mag)).toNat
    else
      let f := (mxOut fmt).1
      f.sign neg + min (f.roundMag mode neg m (x - e)) f.maxFinite
  | _ => 0

/-- Quantise one MX block of FP32 values: scale byte, elements, generator state after (R143 to R145). -/
def mxBlock (fmt : Nat) (sr : Bool) (x : W64) (ws : List W32) : Nat × List Nat × W64 :=
  let vs := ws.map fun w => fp32.decode w.toNat
  let emax := if fmt = 7 then 0 else (mxOut fmt).2
  let go := fun (acc : List Nat × W64) (v : FVal) =>
    let y := if sr then srStep acc.2 else acc.2
    let mode := if sr then Rnd.stoch (y >>> 48).toNat else Rnd.rne
    (acc.1 ++ [match mxScaleExp emax vs with | none => 0 | some e => mxElem fmt mode e v], y)
  let r := vs.foldl go ([], x)
  ((match mxScaleExp emax vs with | none => 0xFF | some e => (e + 127).toNat), r.1, r.2)

/-! ## Atomic arithmetic (R59, R61) -/

/-- An atomic operation on one value of an ATYPE: 0 u32, 1 s32, 2 u64, 3 s64, 4 f32, 5 f16x2, 6 bf16x2. -/
def atomicOp (aop aty : Nat) (old x : W64) : W64 :=
  let o32 : W32 := old.setWidth 32
  let x32 : W32 := x.setWidth 32
  let wide := aty = 2 ∨ aty = 3
  let signed := aty = 1 ∨ aty = 3
  let less := if wide then (if signed then x.slt old else x.ult old) else if signed then x32.slt o32 else x32.ult o32
  match aop with
  | 0 =>
    if wide then old + x
    else if aty ≤ 1 then (o32 + x32).setWidth 64
    else (fpOp (if aty = 4 then 0 else aty - 4) 1 o32 x32 0).setWidth 64
  | 1 => if aty = 4 then (fpOp 0 3 o32 x32 0).setWidth 64 else if less then x else old
  | 2 => if aty = 4 then (fpOp 0 4 o32 x32 0).setWidth 64 else if less then old else x
  | 3 => old &&& x
  | 4 => old ||| x
  | 5 => old ^^^ x
  | _ => x

/-- A level of the balanced tree from the level below (R59). -/
def treeLevel (add : W64 → W64 → W64) : List W64 → List W64
  | a :: b :: t => add a b :: treeLevel add t
  | l => l

/-- The levels of the balanced tree, level 0 first (R59). -/
def treeLevels (add : W64 → W64 → W64) : Nat → List W64 → List (List W64)
  | 0, l => [l]
  | n + 1, l => l :: (if l.length ≤ 1 then [] else treeLevels add n (treeLevel add l))

/-- Prefix nodes covering operands 0 to i - 1: (level, index), highest power first (R59). -/
def prefixNodes : Nat → Nat → Nat → List (Nat × Nat)
  | 0, _, _ => []
  | b + 1, i, start =>
    if i / 2 ^ b % 2 = 1 then (b, start / 2 ^ b) :: prefixNodes b i (start + 2 ^ b)
    else prefixNodes b i start

/-- Combined floating-point add: each lane's result and the value left in memory (R59). -/
def treeAdd (add : W64 → W64 → W64) (old : W64) (xs : List W64) : List W64 × W64 :=
  let lv := treeLevels add 7 xs
  let node := fun (p : Nat × Nat) => ((lv.getD p.1 []).getD p.2 0)
  let pre := fun i =>
    match (prefixNodes 7 i 0).map node with
    | [] => old
    | n :: ns => add old (ns.foldl add n)
  ((List.range xs.length).map pre,
   match (lv.getLastD []).head? with
   | some t => add old t
   | none => old)

/-- Operations applied one lane at a time in lane order (R58, R60): results and final value. -/
def seqAtomic (f : W64 → W64 → W64) (old : W64) : List W64 → List W64 × W64
  | [] => ([], old)
  | x :: xs =>
    let r := seqAtomic f (f old x) xs
    (old :: r.1, r.2)

/-- The lanes of one atomic instruction at one address: results and final value (R58 to R60). `xs`: operands and
compare values. -/
def atomicLanes (aop aty : Nat) (old : W64) (xs : List (W64 × W64)) : List W64 × W64 :=
  if aop = 7 then
    let step := fun (acc : List W64 × W64) (x : W64 × W64) =>
      (acc.1 ++ [acc.2], if acc.2 = x.2 then x.1 else acc.2)
    xs.foldl step ([], old)
  else if aop = 0 ∧ 4 ≤ aty then treeAdd (atomicOp 0 aty) old (xs.map Prod.fst)
  else seqAtomic (atomicOp aop aty) old (xs.map Prod.fst)

/-- Legal pairs of R61. -/
def atomicLegal (aop aty : Nat) : Bool :=
  match aop with
  | 0 => aty ≤ 6
  | 1 | 2 => aty ≤ 4
  | 3 | 4 | 5 | 6 | 7 => aty = 0 || aty = 2
  | _ => false

end Sys2Proof.Machine
end

