-- ==== Sys2Proof/Machine/Arb.lean ====
section
/-! DEFINITION. Arbiters (R413 to R421): effective ranks, the grant decision, aging, the taking away of a grant and
resume records. -/

namespace Sys2Proof.Machine

/-- Key of an arbiter in the arbiter table. -/
def arbKey (die a : Nat) : Nat := die * 4096 + a

/-- Arbiter `a` of a die. -/
def State.arb (s : State) (die a : Nat) : Arbiter := tget s.arbs (arbKey die a) {}

/-- Change an arbiter. -/
def modArb (s : State) (die a : Nat) (f : Arbiter → Arbiter) : State :=
  { s with arbs := tmod s.arbs (arbKey die a) {} f }

/-- RANK of an input (R413, R420). -/
def inputRank (s : State) (die a i : Nat) : Nat := bits (regRaw s die (R.ARB_RANK_RANK0.off + 4 * a) R.ARB_RANK_RANK0.cold).toNat (4 * i + 2) (4 * i)

/-- Effective rank of a request (R414, R416); 8 stands above every rank. -/
def effRank (s : State) (die a : Nat) (r : ArbReq) : Nat :=
  if r.now then 8
  else if fld s die R.ARB_CFG_AGE_LIMIT ≤ tget (s.arb die a).aged r.input 0 then 7
  else match r.rank with
    | some k => min k (inputRank s die a r.input)
    | none => inputRank s die a r.input

/-- Place of an input in the round-robin order that starts after the input granted last (R415). -/
def rrPlace (last i : Nat) : Nat := (i + 8 - (last + 1) % 8) % 8

/-- Does request `x` go before `y`, which came earlier in the list (R415)? -/
def arbBefore (s : State) (die a : Nat) (x y : ArbReq) : Bool :=
  let rx := effRank s die a x
  let ry := effRank s die a y
  ry < rx || (rx == ry && rrPlace (s.arb die a).last x.input < rrPlace (s.arb die a).last y.input)

/-- The request that a grant decision picks: highest effective rank, then round-robin over inputs, then arrival. -/
def arbPick (s : State) (die a : Nat) (l : List ArbReq) : Option ArbReq :=
  l.foldl (fun best x =>
    match best with
    | none => some x
    | some y => if arbBefore s die a x y then some x else best) none

/-- A decision that granted `won`: the other waiting inputs have been passed over once more (R416). -/
def arbAge (s : State) (die a : Nat) (won : ArbReq) (waiting : List ArbReq) : State :=
  modArb s die a fun x =>
    let losers := (List.range 8).filter fun i => i != won.input && waiting.any fun r => r.input == i
    { x with last := won.input, aged := losers.foldl (fun t i => tset t i (tget t i 0 + 1)) x.aged }

/-- A task of an input ends: its count of passed-over decisions restarts (R416). -/
def arbTaskEnd (s : State) (die a i : Nat) : State := modArb s die a fun x => { x with aged := tdel x.aged i }

/-- Resume records of an arbiter's resource (R413). -/
def arbRecords (die a : Nat) : Nat :=
  if a < 64 then 0
  else if 5 ≤ die ∧ die ≤ 10 ∧ a < 192 then 2
  else if die = 0 ∧ a < 80 then 1
  else if die = 13 ∧ a < 80 then 1
  else 0

/-- A decision of a resource with one holder (R415 to R417): a free resource is granted; a holder outside a locked
sequence loses its grant at the boundary of its unit to a request of strictly higher rank, when a record is free. -/
def arbDecide (s : State) (die a : Nat) : State :=
  let x := s.arb die a
  let waiting := x.queue ++ x.records
  match arbPick s die a waiting with
  | none => s
  | some w =>
    let take := fun (t : Arbiter) =>
      { t with holder := some w, queue := t.queue.erase w, records := t.records.erase w }
    match x.holder with
    | none => modArb (arbAge s die a w waiting) die a take
    | some h =>
      if x.locked then s
      else if effRank s die a h < effRank s die a w ∧ (x.records.erase w).length < arbRecords die a then
        let s := bumpEvent (arbAge s die a w waiting) die R.ARB_PREEMPTS_COUNT R.ARB_OVF_PREEMPTS_OVF
        modArb s die a fun t => let t := take t; { t with records := t.records ++ [h] }
      else arbAge s die a h waiting

/-- A request comes to an arbiter. -/
def arbAsk (s : State) (die a : Nat) (r : ArbReq) : State := modArb s die a fun x => { x with queue := x.queue ++ [r] }

/-- The holder's task ends, and its lock with it. -/
def arbRelease (s : State) (die a : Nat) : State :=
  match (s.arb die a).holder with
  | none => s
  | some h => arbTaskEnd (modArb s die a fun x => { x with holder := none, locked := false }) die a h.input

end Sys2Proof.Machine
end

