-- ==== Sys2Proof/Machine/Groups.lean ====
section
/-! DEFINITION. Shared operations over thread groups: registers of a group, arrival counters,
copy places, and the matrix queue's order (R120). -/

namespace Sys2Proof.Machine

/-! ## Registers and predicates of a group -/

/-- Register n of a lane; index 255 reads as 0. -/
def Group.rd (g : Group) (lane n : Nat) : W32 := if n = 255 then 0 else tget g.regs (lane * 256 + n) 0

/-- The pair n, n + 1 of a lane, low half first. -/
def Group.rd64 (g : Group) (lane n : Nat) : W64 := (g.rd lane (n + 1)) ++ (g.rd lane n)

/-- Write register n of a lane; index 255 discards. -/
def Group.wr (g : Group) (lane n : Nat) (v : W32) : Group :=
  if n = 255 then g else { g with regs := tset g.regs (lane * 256 + n) v }

/-- Write the pair n, n + 1 of a lane. -/
def Group.wr64 (g : Group) (lane n : Nat) (v : W64) : Group :=
  (g.wr lane n (v.setWidth 32)).wr lane (n + 1) ((v >>> 32).setWidth 32)

/-- Predicate p of a lane; p7 reads as true. -/
def Group.pred (g : Group) (lane p : Nat) : Bool :=
  if p = 7 then true else (tget g.preds lane 0).getLsbD p

/-- Write predicate p of a lane; p7 discards. -/
def Group.setPred (g : Group) (lane p : Nat) (v : Bool) : Group :=
  if p = 7 then g
  else { g with preds := tset g.preds lane (BitVec.ofNat 8 (setBits (tget g.preds lane 0).toNat p p (b2n v))) }

/-- Active lanes in increasing order. -/
def Group.lanes (g : Group) : List Nat := (List.range g.width).filter fun l => g.active.getLsbD l

/-- Active lanes whose predicate, inverted by `neg`, enables them. -/
def Group.enabled (g : Group) (p : Nat) (neg : Bool) : List Nat :=
  g.lanes.filter fun l => xor (g.pred l p) neg

/-- Write one register in each of some lanes. -/
def Group.wrLanes (g : Group) (n : Nat) (f : Nat → W32) (lanes : List Nat) : Group :=
  lanes.foldl (fun h l => h.wr l n (f l)) g

/-- Lanes that hold a thread and have not exited: active now or in a mask of the stack. -/
def Group.live (g : Group) : BitVec 64 :=
  g.stack.foldl (fun m e => m ||| e.full ||| e.taken) g.active

/-! ## Reconvergence (R51, R53) -/

/-- Follow the reconvergence stack while the group stands at a join address or has no lane left. -/
def settle : List JoinEntry → W64 → BitVec 64 → List JoinEntry × W64 × BitVec 64
  | [], pc, act => ([], pc, act)
  | e :: st, pc, act =>
    if act ≠ 0 ∧ pc ≠ e.join then (e :: st, pc, act)
    else if !e.onTaken ∧ e.taken ≠ 0 ∧ e.target ≠ e.join then
      ({ e with onTaken := true } :: st, e.target, e.taken)
    else settle st e.join e.full

/-- Move a group to a program counter and reconverge. -/
def Group.goto (g : Group) (pc : W64) : Group :=
  let r := settle g.stack pc g.active
  { g with stack := r.1, pc := r.2.1, active := r.2.2 }

/-- A group whose wait ends goes on to its next instruction. -/
def Group.resume (g : Group) : Group := ({ g with wait := none } : Group).goto (g.pc + 8)

/-! ## Arrival counters (R63 to R67) -/

/-- Counter that an index names in a block (R65): none when it is out of bounds. -/
def ctrIndex (b : Block) (slot i : Nat) : Option Nat :=
  if b.ctrs = 0 then (if i < 64 then some i else none)
  else if i < b.ctrs then some (4 * slot + i) else none

/-- Advance DONE over the finished numbers that follow it. -/
def advanceDone : Nat → Counter → Counter
  | 0, c => c
  | n + 1, c =>
    if c.fin.contains (c.done + 1) then
      advanceDone n { c with done := c.done + 1, fin := c.fin.erase (c.done + 1), zero := c.zero.erase (c.done + 1) }
    else c

/-- The copy with a number finishes on a counter (R63). -/
def Counter.finish (c : Counter) (n : W32) : Counter :=
  let c := { c with fin := n :: c.fin }
  advanceDone c.fin.length c

/-- Finish a copy on counter `i` of a Spur and release groups whose wait it ends (R64). -/
def finishCount (s : State) (sp i : Nat) (n : W32) : State :=
  modSpur s sp fun p =>
    let c := (tget p.counters i {}).finish n
    { p with
      counters := tset p.counters i c
      groups := p.groups.map fun e =>
        match e.2.wait with
        | some (.arrive j t) =>
          if j = i ∧ seqReached t c.done then (e.1, e.2.resume) else e
        | _ => e }

/-- Copy places in use on a Spur (R63, R66, R118, R180): copies, counting drains and Couloir commands that have not
finished, and those finished that DONE has not passed. -/
def copyPlaces (s : State) (sp : Nat) : Nat :=
  let p := s.spur sp
  (p.copies.filter fun c => c.row.isNone).length
    + (p.mx.queue.filter fun i => match i.op with | .drain _ _ _ _ _ _ _ _ _ (some _) .. => true | _ => false).length
    + (s.cl.cmds.filter fun e => e.2.sp == sp).length
    + p.counters.foldl (fun n e => n + (e.2.fin.length - e.2.zero.length)) 0

/-! ## The matrix queue's order (R120) -/

/-- Arrays selected by AMASK, in increasing order. -/
def arraysOf (m : BitVec 4) : List Nat := (List.range 4).filter fun j => m.getLsbD j

/-- K of a weight format (R92). -/
def mxK (fmt : Nat) : Nat := if fmt = 6 then 256 else 128

/-- Bytes of a row of `e` elements of a format (R95). -/
def rowBytes (fmt e : Nat) : Nat := e * mxBits fmt / 8

/-- Last byte + 1 of `rows` rows of `len` bytes at a stride. -/
def strideEnd (base rows stride len : Nat) : Nat := base + (rows - 1) * stride + len

/-- Local-memory operands of an instruction: first byte, end, written (R119, R120). -/
def MxOp.ranges : MxOp → List (Nat × Nat × Bool)
  | .ldw am fmt base stride astride sbase =>
    let n := (arraysOf am).length
    let f := fmt.toNat
    ((List.range n).map fun i => (base + i * astride, strideEnd (base + i * astride) (mxK f) stride (rowBytes f 128), false))
    ++ (if mxScaled f then [(sbase, sbase + n * (mxK f / 32) * 128, false)] else [])
  | .ldacc am rows _ _ src sstride =>
    [(src, strideEnd src rows sstride (512 * (arraysOf am).length), false)]
  | .mma _ _ _ afmt k m _ abase astride ascale =>
    let f := afmt.toNat
    [(abase, strideEnd abase m astride (rowBytes f k), false)]
    ++ (if mxScaled f then [(ascale, ascale + m * (k / 32), false)] else [])
  | .drain am rows _ ofmt _ bias sc _ _ _ dest dstride biasv scv oscale =>
    let n := (arraysOf am).length
    let f := ofmt.toNat
    [(dest, strideEnd dest rows dstride (rowBytes f (128 * n)), true)]
    ++ (if bias then [(biasv, biasv + 512 * n, false)] else [])
    ++ (if sc then [(scv, scv + 512 * n, false)] else [])
    ++ (if mxScaled f then [(oscale, oscale + rows * 4 * n, true)] else [])

/-- Weight buffers touched: active j at j, shadow at 4 + j. -/
def MxOp.buffers : MxOp → List Nat
  | .ldw am .. => (arraysOf am).map (· + 4)
  | .mma am sw .. => arraysOf am ++ if sw then (arraysOf am).map (· + 4) else []
  | _ => []

/-- Accumulator slices touched: arrays, first row, end row. -/
def MxOp.slices : MxOp → List Nat × Nat × Nat
  | .ldw .. => ([], 0, 0)
  | .ldacc am rows acc .. => (arraysOf am, acc, acc + rows)
  | .mma am _ _ _ _ m acc .. => (arraysOf am, acc, acc + m)
  | .drain am rows acc .. => (arraysOf am, acc, acc + rows)

/-- Engine that runs an instruction: 0 tile loads, 1 passes and accumulator loads, 2 drains (R117, R120). -/
def MxOp.engine : MxOp → Nat
  | .ldw .. => 0
  | .ldacc .. | .mma .. => 1
  | .drain .. => 2

/-- Must b wait for the earlier a (R120)? -/
def mxConflict (a b : MxInstr) : Bool :=
  let ra := a.op.ranges.map fun r => (a.base + r.1, a.base + r.2.1, r.2.2)
  let rb := b.op.ranges.map fun r => (b.base + r.1, b.base + r.2.1, r.2.2)
  a.op.engine == b.op.engine
  || a.op.buffers.any (b.op.buffers.contains ·)
  || ((a.op.slices.1.any (b.op.slices.1.contains ·))
      && (a.op.slices.2.1 < b.op.slices.2.2 && b.op.slices.2.1 < a.op.slices.2.2))
  || ra.any (fun x => rb.any fun y => x.1 < y.2.1 && y.1 < x.2.1 && (x.2.2 || y.2.2))

/-- Instructions of the queue that are running: no earlier one holds them back (R120). -/
def mxRunning : List MxInstr → List MxInstr → List MxInstr
  | _, [] => []
  | earlier, i :: q =>
    (if earlier.any (fun e => mxConflict e i) then [] else [i]) ++ mxRunning (earlier ++ [i]) q

/-- Engage an array that a pass reaches (R125 to R127). -/
def rampReach : RampPhase → RampPhase
  | .off => .up 1
  | .down k => .up (9 - k)
  | p => p

/-- A pass reaches its arrays as it starts to run. -/
def mxEngage (m : MxUnit) : MxUnit :=
  { m with ramps := (mxRunning [] m.queue).foldl (fun t i =>
      match i.op with
      | .mma am .. => (arraysOf am).foldl (fun t j => tset t j (rampReach (tget t j .off))) t
      | _ => t) m.ramps }

/-- Close the region and free the seat (R113): what is left in the accumulators and buffers is lost. -/
def MxUnit.release (m : MxUnit) : MxUnit :=
  { m with seat := none, mask := 0, closing := false, arrayHit := false, sel := 0, queue := [] }

/-- Release the seat once the closing region's queue is empty. -/
def mxSettle (m : MxUnit) : MxUnit := if m.closing ∧ m.queue = [] then m.release else m

/-- Drop the queued instructions of a stopped region that have not started (R132): running ones complete. Waiting
requests of the slots leave. -/
def mxStop (p : Spur) (slots : List Nat) : Spur :=
  let held := (p.mx.seat.map slots.contains).getD false
  let mx := { p.mx with waiters := p.mx.waiters.filter fun w => !slots.contains w }
  { p with mx := if held then mxSettle { mx with queue := mxRunning [] mx.queue, closing := true } else mx }

end Sys2Proof.Machine
end

