-- ==== Sys2Proof/Machine/Mem.lean ====
section
/-! DEFINITION. Lines and their homes (R235, R293), stored data and poison, the current value of a line and the
uncached accesses at its home (R203, R244), claim checks (R281 to R287) and page-table walks (R272). -/

namespace Sys2Proof.Machine

/-! ## Placement (R235, R293, R305) -/

/-- STRETCH_GIB of a memory die 5 + md. -/
def stretchGib (s : State) (md : Nat) : Nat := fld s (5 + md) R.MEM_HBM_LAYOUT_STRETCH_GIB

/-- Stack and byte offset within it of an HBM address (R293). -/
def hbmPlace (s : State) (pa : Nat) : Nat × Nat :=
  let g := stretchGib s 0
  let spread := 6 * (512 - g) * gib
  if pa < spread then
    let b := pa / 2048
    (b % 24, b / 24 * 2048 + pa % 2048)
  else
    let m := (pa - spread) / (g * gib)
    let p := (pa - spread) % (g * gib)
    let b := p / 2048
    (4 * m + b % 4, (512 - g) * gib + b / 4 * 2048 + p % 2048)

/-- Is an HBM address in stretch placement on memory die 5 + md (R293)? -/
def inStretch (s : State) (pa md : Nat) : Bool :=
  let g := stretchGib s 0
  let spread := 6 * (512 - g) * gib
  pa < hbmEnd && spread ≤ pa && (pa - spread) / (g * gib) == md

/-- Board-tier channel of an address (R305). -/
def boardChannel (pa : Nat) : Nat := (pa - boardBase) / 2048 % 128

/-- Home of a memory address, as md for die 5 + md (R235). -/
def homeOf (s : State) (pa : Nat) : Nat :=
  if pa < hbmEnd then (hbmPlace s pa).1 / 4 else pa / 2048 % 6

/-- Home of a line number. -/
def homeOfLine (s : State) (ln : Nat) : Nat := homeOf s (ln * 64)

/-- Is the memory behind a line retired (R297, R307, R482)? -/
def lineRetired (s : State) (ln : Nat) : Bool :=
  let pa := ln * 64
  if pa < hbmEnd then
    let st := (hbmPlace s pa).1
    fldAt s (5 + st / 4) R.MEM_HBM_STACK_STACK_RETIRED (st % 4) == 1
  else
    let c := boardChannel pa
    !bitAt (fldAt s 13 R.UNIT_MAP_IN_SERVICE (c / 64)) (c % 64)

/-! ## Stored lines and poison (R247, R296, R307) -/

/-- Number of the 2 MiB claim extent of a memory address. -/
def memExtent (pa : Nat) : Nat := if pa < hbmEnd then pa / 2 ^ 21 else 1572864 + (pa - boardBase) / 2 ^ 21

/-- Is a line poisoned where it is stored? -/
def linePoison (s : State) (ln : Nat) : Bool :=
  lineRetired s ln ||
    if ln * 64 < hbmEnd then s.poison.contains ln
    else s.tiers.boardPoison.contains ln || s.tiers.boardExtents.contains (memExtent (ln * 64))

/-- Data of a line where it is stored. -/
def memLine (s : State) (ln : Nat) : Line := bytesLine (memRead s.mem (ln * 64) 64)

/-- Poison or clear a stored line (R296, R307). -/
def setPoison (s : State) (ln : Nat) (p : Bool) : State :=
  if ln * 64 < hbmEnd then { s with poison := if p then setAdd s.poison ln else setDel s.poison ln }
  else if p then
    if s.tiers.boardPoison.contains ln then s
    else if s.tiers.boardPoison.length < 4096 then
      { s with tiers := { s.tiers with boardPoison := ln :: s.tiers.boardPoison } }
    else { s with tiers := { s.tiers with boardExtents := setAdd s.tiers.boardExtents (memExtent (ln * 64)) } }
  else { s with tiers := { s.tiers with boardPoison := setDel s.tiers.boardPoison ln } }

/-- Write a stored line; a write to retired memory is dropped (R297, R307). -/
def storeLine (s : State) (ln : Nat) (d : Line) (p : Bool) : State :=
  if lineRetired s ln then s
  else setPoison { s with mem := memWrite s.mem (ln * 64) (lineBytes d) } ln p

/-- Note an access of a home's HBM controller (R300). -/
def hbmUse (s : State) (ln : Nat) (ctx : BitVec 16) (exempt read : Bool) : State :=
  if ln * 64 < hbmEnd then
    let st := (hbmPlace s (ln * 64)).1
    { s with tiers := { s.tiers with hbm := tmod s.tiers.hbm (st / 4) {} fun h =>
        { h with queue := h.queue ++ [⟨st % 4, ctx, 64, exempt || ctx == 0, read⟩] } } }
  else s

/-- The home notes a request on a line of a pool extent (R314). -/
def touch (s : State) (ln : Nat) : State :=
  { s with tiers := { s.tiers with touched := setAdd s.tiers.touched (memExtent (ln * 64)) } }

/-! ## Caching agents -/

/-- Key of an agent's line. -/
def aKey (agent ln : Nat) : Nat := agent * 2 ^ 46 + ln

/-- An agent's line; none is state I. -/
def agentLine (s : State) (agent ln : Nat) : Option AgentLine := tget? s.coh.lines (aKey agent ln)

/-- Change the coherence state. -/
def modCoh (s : State) (f : Coherence → Coherence) : State := { s with coh := f s.coh }

/-- Put an agent's line. -/
def setAgentLine (s : State) (agent ln : Nat) (l : AgentLine) : State :=
  modCoh s fun c => { c with lines := tset c.lines (aKey agent ln) l }

/-- An agent's line goes to I. -/
def dropAgentLine (s : State) (agent ln : Nat) : State :=
  modCoh s fun c => { c with lines := tdel c.lines (aKey agent ln) }

/-- Is a way of a cache retired: a cluster L2 or region L2 of its die, on a memory die 0 the L3 and 1 the directory
(R477, R479, R495)? Replacement takes such a way as busy. -/
def wayOut (s : State) (die cache w : Nat) : Bool := s.svc.retired.contains (0x0A + die * 2 ^ 8 + (16 * cache + w) * 2 ^ 13)

/-- The first of 16 ways from `x` on, wrapping, that is not busy. -/
def wayFrom (x : Nat) (busy : Nat → Bool) : Nat :=
  (((List.range 16).map fun i => (x + i) % 16).find? fun w => !busy w).getD (x % 16)

/-- Harts of a cluster agent. -/
def hartsOf (agent : Nat) : List Nat := if agent < 32 then (List.range 4).map (4 * agent + ·) else []

/-- A dirty core L1 copy of a line in a cluster, if any (R237, R255). -/
def l1Dirty (s : State) (agent ln : Nat) : Option Line :=
  (hartsOf agent).findSome? fun h =>
    match tget? (s.hart h).l1d ln with
    | some l => if l.dirty then some l.data else none
    | none => none

/-- Merge a cluster's dirty core L1 copy of a line and remove its core L1 copies (R237, R255). -/
def mergeL1 (s : State) (agent ln : Nat) : State :=
  let s := match l1Dirty s agent ln, agentLine s agent ln with
    | some d, some l => setAgentLine s agent ln { l with st := .m, data := d }
    | _, _ => s
  (hartsOf agent).foldl (fun s h =>
    modHart s h fun x => { x with l1d := tdel x.l1d ln, l1i := tdel x.l1i ln }) s

/-- Data an agent holds or has in its writeback buffer (R245), with dirty and poison flags. -/
def agentData (s : State) (agent ln : Nat) : Option (Line × Bool × Bool) :=
  match agentLine s agent ln with
  | some l => some ((l1Dirty s agent ln).getD l.data, l.st == .m || l.st == .o || (l1Dirty s agent ln).isSome, l.poison)
  | none =>
    match tget? s.coh.wbs (aKey agent ln) with
    | some w => if w.gone then none else some (w.data, w.st == .m || w.st == .o, w.poison)
    | none => none

/-- Directory entry of a line; none is DSTATE 0 (R248). -/
def dirOf (s : State) (ln : Nat) : Option DirEntry := tget? (s.home (homeOfLine s ln)).dir ln

/-- Owner that the directory records (R248). -/
def ownerOf (s : State) (ln : Nat) : Option Nat :=
  match dirOf s ln with
  | some e => if e.dstate = 2 ∨ e.dstate = 3 ∨ e.dstate = 5 then some e.owner else none
  | none => none

/-- The L3's copy of a line, in the victim queue or in the array (R243, R254). -/
def l3Copy (h : Home) (ln : Nat) : Option L3Line :=
  match h.vq.reverse.find? (fun v => v.line == ln) with
  | some v => some ⟨v.data, v.dirty, v.poison, 0⟩
  | none => tget? h.l3 ln

/-- Drop the L3's copy of a line. -/
def l3Drop (h : Home) (ln : Nat) : Home :=
  { h with l3 := tdel h.l3 ln, vq := h.vq.filter fun v => v.line != ln }

/-- Overwrite the L3's copy of a line, marking it dirty. -/
def l3Write (h : Home) (ln : Nat) (d : Line) (p : Bool) : Home :=
  if h.vq.any (fun v => v.line == ln) then
    { h with vq := h.vq.map fun v => if v.line = ln then { v with data := d, dirty := true, poison := p } else v }
  else { h with l3 := tmod h.l3 ln ⟨d, true, p, 0⟩ fun l => { l with data := d, dirty := true, poison := p } }

/-- Current data and poison of a line below its owner: the L3 copy, otherwise memory (R243). -/
def belowLine (s : State) (ln : Nat) : Line × Bool :=
  match l3Copy (s.home (homeOfLine s ln)) ln with
  | some l => (l.data, l.poison)
  | none => (memLine s ln, linePoison s ln)

/-- Current data and poison of a line, as an uncached read at its home obtains them (R203, R243, R244). -/
def cohLine (s : State) (ln : Nat) : Line × Bool :=
  match (ownerOf s ln).bind (agentData s · ln) with
  | some (d, _, p) => (d, p)
  | none => belowLine s ln

/-- A line's home has no transaction open on it (R243). -/
def lineIdle (s : State) (ln : Nat) : Bool := (tget? (s.home (homeOfLine s ln)).txns ln).isNone

/-- A write to a line ends reservations and WRS waits on it (R211). -/
def wakeResv (s : State) (ln : Nat) : State :=
  { s with harts := s.harts.map fun e =>
      if e.2.resv = some ln then (e.1, { e.2 with resv := none, wrs := none }) else e }

/-- Every caching agent's copy of a line goes to I, and writeback buffers no longer count (R245). -/
def invalAll (s : State) (ln : Nat) : State :=
  let s := (List.range 64).foldl (fun s a => if (agentLine s a ln).isSome then dropAgentLine (mergeL1 s a ln) a ln else s) s
  modCoh s fun c => { c with wbs := c.wbs.map fun e => if e.1 % 2 ^ 46 = ln then (e.1, { e.2 with gone := true }) else e }

/-- Put a line's value below the caches: into the L3 copy if there is one, otherwise into memory (R244). -/
def putBelow (s : State) (ln : Nat) (d : Line) (p : Bool) : State :=
  let md := homeOfLine s ln
  if (l3Copy (s.home md) ln).isSome then modHome s md fun h => l3Write h ln d p
  else storeLine s ln d p

/-- An uncached write at the home: every cached copy goes, the directory entry is freed (R244, R250). -/
def cohWrite (s : State) (ln : Nat) (d : Line) (p : Bool) : State :=
  let md := homeOfLine s ln
  let s := match dirOf s ln with
    | some e => if e.dstate = 4 ∨ e.dstate = 5 then bumpEventAt s (5 + md) R.MEM_COH_EVT_COUNT 1 R.MEM_COH_OVF_OVF 1 1 else s
    | none => s
  let s := invalAll s ln
  let s := modHome s md fun h => { h with dir := tdel h.dir ln }
  wakeResv (touch (putBelow s ln d p) ln) ln

/-- WRPART by an uncached agent: the masked bytes merge into the current line; poison stays (R244, R247). -/
def cohWritePart (s : State) (ln : Nat) (d : Line) (mask : W64) : State :=
  let cur := cohLine s ln
  cohWrite s ln (mergeBytes cur.1 d mask) (cur.2 && mask != BitVec.allOnes 64)

/-! ## Byte ranges of memory, as engines access them -/

/-- Bytes pa to pa + n - 1 as coherent reads return them, and whether any line is poisoned. -/
def cohRead (s : State) (pa n : Nat) : List Byte × Bool :=
  let first := pa / 64
  let count := if n = 0 then 0 else (pa + n - 1) / 64 - first + 1
  let ls := (List.range count).map fun i => cohLine s (first + i)
  (((ls.flatMap fun l => lineBytes l.1).drop (pa % 64)).take n, ls.any (·.2))

/-- Write bytes at pa by coherent writes; `p`: they are poisoned (R366). -/
def cohPut (s : State) (pa : Nat) (b : List Byte) (p : Bool) : State :=
  let first := pa / 64
  let n := b.length
  let count := if n = 0 then 0 else (pa + n - 1) / 64 - first + 1
  (List.range count).foldl (fun s i =>
    let ln := first + i
    let lo := max pa (ln * 64)
    let hi := min (pa + n) (ln * 64 + 64)
    let d := putBytes (if hi - lo = 64 then 0 else (cohLine s ln).1) (lo - ln * 64) ((b.drop (lo - pa)).take (hi - lo))
    cohWrite s ln d (p || (hi - lo != 64 && (cohLine s ln).2))) s

/-- No transaction is open on the lines of a range (R243). -/
def rangeIdle (s : State) (pa n : Nat) : Bool :=
  (List.range (if n = 0 then 0 else (pa + n - 1) / 64 - pa / 64 + 1)).all fun i => lineIdle s (pa / 64 + i)

/-! ## Claims (R281 to R287) -/

/-- Claim extent of a physical address; none outside HBM, board tier and die windows. -/
def extentOf (pa : Nat) : Option Nat :=
  match region pa with
  | .hbm | .board => some (memExtent pa)
  | .window n o => some (2621440 + 128 * n + o / 2 ^ 21)
  | _ => none

/-- The claim entry that the target of an address holds (R286). -/
def claimEntry (s : State) (pa : Nat) : Nat :=
  match region pa with
  | .hbm | .board =>
    let e := memExtent pa
    let md := homeOf s pa
    match tget? (s.helper md).claims e with
    | some w => w.toNat
    | none => leNat (memRead s.mem (fld s (5 + md) R.MEM_CLAIM_BASE_BASE * 2 ^ 24 + 4 * e) 4)
  | .window n o => (tget s.xlt.windowClaims (2621440 + 128 * n + o / 2 ^ 21) 0).toNat
  | _ => 0

/-- Does an entry grant a context an access (R281)? -/
def entryGrants (e : Nat) (ctx : BitVec 16) (write : Bool) : Bool :=
  let own := e % 65536 == ctx.toNat
  match bits e 17 16 with
  | 0 => false
  | 1 => own
  | 2 => own || !write
  | _ => true

/-- Exempt from the claim check (R281). -/
def claimExempt (pa : Nat) (write : Bool) : Bool :=
  match region pa with
  | .window n o => (!write && o < 0x100000) || (16 ≤ n && 0x1200000 ≤ o && o < 0x1200040)
  | .hbm | .board => false
  | _ => true

/-- The claim check of a request (R281, R282). -/
def claimOk (s : State) (ctx : BitVec 16) (pa : Nat) (write : Bool) : Bool :=
  ctx == 0 || claimExempt pa write || entryGrants (claimEntry s pa) ctx write

/-- A home keeps the entry it has read in its claim cache of 8,192 (R286). -/
def claimCacheFill (s : State) (pa : Nat) : State :=
  if isMem pa then
    let md := homeOf s pa
    let e := memExtent pa
    if (tget? (s.helper md).claims e).isNone ∧ (s.helper md).claims.length < 8192 then
      modHelper s md fun h => { h with claims := tset h.claims e (BitVec.ofNat 32 (claimEntry s pa)) }
    else s
  else s

/-- Body of a context fault record standing for `n` refusals (R286). -/
def ctxFaultBody (b : List Byte) (n : Nat) : List Byte := b.take 16 ++ leBytes 2 n ++ b.drop 18

/-- Count a refusal of a memory die's checks (MEM_CLAIM_REFUSED). -/
def countRefused (s : State) (tgt : Nat) : State :=
  if 5 ≤ tgt ∧ tgt ≤ 10 then bumpEventAt s tgt R.MEM_CLAIM_REFUSED_COUNT 0 R.MEM_XLT_OVF_REFUSED_OVF 0 1 else s

/-- A request refused at its target: the context fault record, at most one per target and context every 10 µs
(R285, R287). `die`, `agent`: the requester. -/
def ctxFault (s : State) (tgt die agent : Nat) (ctx : BitVec 16) (pa : Nat) (write : Bool) : State :=
  let s := countRefused s tgt
  if ctx = 0 then s
  else match (s.ctx? ctx).bind (·.evq) with
    | none => s
    | some q =>
      let e := claimEntry s pa
      let body := body4 (4 + b2n write * 2 ^ 8 + ctx.toNat * 2 ^ 16 + die * 2 ^ 32 + agent * 2 ^ 37) pa
        (1 + e % 65536 * 2 ^ 16 + bits e 17 16 * 2 ^ 32) s.time.toNat
      let key := tgt * 65536 + ctx.toNat
      match tget? s.xlt.windows key with
      | some w =>
        if s.time.toNat < w.posted.toNat + 10000 then
          let d := match w.defer with
            | some (n, b) => (min (n + 1) 0xFFFF, b)
            | none => (1, body)
          { s with xlt := { s.xlt with windows := tset s.xlt.windows key { w with defer := some d } } }
        else
          raiseEvent { s with xlt := { s.xlt with windows := tset s.xlt.windows key ⟨s.time, w.defer⟩ } } q 0x02 ctx body
      | none =>
        raiseEvent { s with xlt := { s.xlt with windows := tset s.xlt.windows key ⟨s.time, none⟩ } } q 0x02 ctx body

/-! ## Page tables (R272) -/

/-- What one page-table entry gives a walk. -/
inductive PteRes
  | next (ppn : Nat)
  /-- leaf: size as a power of two, ppn, and its R, W, X, U, A, D bits and PBMT -/
  | leaf (sh ppn : Nat) (r w x u d : Bool) (pbmt : Nat)
  | fault
deriving DecidableEq, Repr

/-- Check one entry at a level, 0 the lowest (R272). -/
def pteStep (level : Nat) (pte : Nat) : PteRes :=
  let b := bitAt pte
  let ppn := bits pte 53 10
  let pbmt := bits pte 62 61
  if !b 0 || (!b 1 && b 2) || bits pte 60 54 != 0 then .fault
  else if !b 1 && !b 3 then
    if pbmt != 0 || b 6 || b 7 || b 4 || b 63 || level == 0 then .fault else .next ppn
  else if pbmt = 3 ∨ !b 6 then .fault
  else if b 63 then
    if level = 0 ∧ ppn % 16 = 8 then .leaf 16 (ppn / 16 * 16) (b 1) (b 2) (b 3) (b 4) (b 7) pbmt else .fault
  else if ppn % 2 ^ (9 * level) ≠ 0 then .fault
  else .leaf (12 + 9 * level) ppn (b 1) (b 2) (b 3) (b 4) (b 7) pbmt

/-- Read a page-table entry at its home, at package scope (R272, R280). -/
def readPte (s : State) (pa : Nat) : Option Nat :=
  if isMem pa then
    let l := cohLine s (pa / 64)
    if l.2 then none else some (leNat (((lineBytes l.1).drop (pa % 64)).take 8))
  else none

/-- Levels above the lowest of a MODE: 9 Sv48, 10 Sv57. -/
def topLevel (mode : BitVec 4) : Nat := if mode = 10 then 4 else 3

/-- Physical address of a leaf for an address. -/
def leafAddr (sh ppn a : Nat) : Nat := ppn * 4096 / 2 ^ sh * 2 ^ sh + a % 2 ^ sh

/-- G-stage walk of a guest physical address from a level (R269, Hypervisor extension). -/
def gWalk (s : State) (top : Nat) (gpa : Nat) : Nat → Nat → Sum (Nat × Nat × Nat × Bool × Bool × Bool) XltFault
  | level, table =>
    let idx := if level = top then gpa / 2 ^ (12 + 9 * level) % 2048 else gpa / 2 ^ (12 + 9 * level) % 512
    match readPte s (table * 4096 + idx * 8) with
    | none => .inr .tableRead
    | some pte =>
      match pteStep level pte, level with
      | .leaf sh ppn r w x u d pbmt, _ =>
        if u then .inl (leafAddr sh ppn gpa, sh, pbmt, r, w && d, x) else .inr .guest
      | .next ppn, l + 1 => gWalk s top gpa l ppn
      | _, _ => .inr .guest
termination_by structural l => l

/-- Guest physical address to physical, in a context with G-stage tables; identity without (R269). -/
def gStage (s : State) (c : Ctx) (gpa : Nat) : Sum (Nat × Nat × Nat × Bool × Bool × Bool) XltFault :=
  if c.gmode = 0 then .inl (gpa, 57, 0, true, true, true)
  else if 2 ^ (14 + 9 * (topLevel c.gmode + 1)) ≤ gpa then .inr .guest
  else gWalk s (topLevel c.gmode) gpa (topLevel c.gmode) c.groot.toNat

/-- Is a virtual address canonical for a MODE (R272)? -/
def canonical (mode : BitVec 4) (va : W64) : Bool :=
  let n := 12 + 9 * (topLevel mode + 1)
  va.sshiftRight (n - 1) == 0 || va.sshiftRight (n - 1) == BitVec.allOnes 64

/-- One step of a walk: the entry of `va` at a level of the table at (guest) page `table` (R275, R280). The leaf is
cut to 2 MiB (R273). Every access is a user access, so that U = 0 is a fault. `rd`: reads an entry. -/
def walkStep (s : State) (c : Ctx) (ctx : BitVec 16) (rd : Nat → Option Nat) (va : W64) (level table : Nat) :
    Sum Nat (Sum TlbEntry XltFault) :=
  let a := va.toNat % 2 ^ 57
  match gStage s c (table * 4096 + a / 2 ^ (12 + 9 * level) % 512 * 8) with
  | .inr f => .inr (.inr f)
  | .inl (pa, _) =>
    match rd pa with
    | none => .inr (.inr .tableRead)
    | some pte =>
      match pteStep level pte with
      | .fault => .inr (.inr .translation)
      | .next ppn => .inl ppn
      | .leaf sh ppn r w x u d pbmt =>
        if !u then .inr (.inr .translation)
        else match gStage s c (leafAddr sh ppn a) with
          | .inr f => .inr (.inr f)
          | .inl (pa, gsh, gpbmt, gr, gw, gx) =>
            let sh := min (min sh gsh) 21
            let sh := if sh = 21 ∨ sh = 16 ∨ sh = 12 then sh else 12
            .inr (.inl { ctx := ctx, sh := sh, vpn := a / 2 ^ sh, ppn := pa / 2 ^ sh, r := r && gr, w := w && gw,
                         x := x && gx, d := d, pbmt := BitVec.ofNat 2 (if pbmt = 0 then gpbmt else pbmt), wok := true })

/-- A whole walk from a level. -/
def walkAll (s : State) (c : Ctx) (ctx : BitVec 16) (va : W64) : Nat → Nat → Sum TlbEntry XltFault
  | 0, table =>
    match walkStep s c ctx (readPte s) va 0 table with
    | .inl _ => .inr .translation
    | .inr r => r
  | l + 1, table =>
    match walkStep s c ctx (readPte s) va (l + 1) table with
    | .inl t => walkAll s c ctx va l t
    | .inr r => r

/-- Physical address of `va` through an entry. -/
def TlbEntry.addr (e : TlbEntry) (va : W64) : Nat := e.ppn * 2 ^ e.sh + va.toNat % 2 ^ e.sh

/-- Does an entry translate `va` for a context? -/
def TlbEntry.hits (e : TlbEntry) (ctx : BitVec 16) (va : W64) : Bool :=
  e.ctx == ctx && e.vpn == va.toNat % 2 ^ 57 / 2 ^ e.sh

/-- The checks of a leaf before it is installed: reserved addresses and windows of dies out of service (R266), the
claim (R283), HOST_WIN and PEER_WIN. -/
def fillCheck (s : State) (c : Ctx) (va : W64) (e : TlbEntry) : Sum TlbEntry XltFault :=
  let pa := e.addr va
  match region pa with
  | .reserved => .inr .translation
  | .window n _ =>
    if !dieUp s n then .inr .translation
    else if claimOk s e.ctx pa false then .inl { e with wok := claimOk s e.ctx pa true }
    else .inr .claim
  | .host _ => if c.hostWin then .inl e else .inr .claim
  | .peer _ _ => if c.peerWin then .inl e else .inr .claim
  | .doorbell _ => .inl e
  | _ => if claimOk s e.ctx pa false then .inl { e with wok := claimOk s e.ctx pa true } else .inr .claim

/-- Translate a command's virtual address in one go (R276): physical address, or the status that ends the command
(R272, R284). -/
def xlate (s : State) (ctx : BitVec 16) (va : W64) (write : Bool) : Sum Nat Byte :=
  match s.ctx? ctx with
  | none => .inr 0x04
  | some c =>
    if !canonical c.mode va then .inr 0x05
    else match walkAll s c ctx va (topLevel c.mode) c.root.toNat with
      | .inr .claim => .inr 0x04
      | .inr _ => .inr 0x05
      | .inl e =>
        if (if write then e.w && e.d else e.r) then
          match fillCheck s c va e with
          | .inr .claim => .inr 0x04
          | .inr _ => .inr 0x05
          | .inl e => if write && !e.wok then .inr 0x04 else .inl (e.addr va)
        else .inr 0x05

/-- Memory type in effect at an address (R200, R201): control space and windows are never NC. -/
def typeAt (pa : Nat) (pbmt : BitVec 2) : BitVec 2 := if isMem pa then pbmt else if pbmt = 0 then 1 else pbmt

end Sys2Proof.Machine
end

