-- ==== Sys2Proof/Machine/Home.lean ====
section
/-! DEFINITION. Caching agents, homes and the directory (chapter 08): requests, forwards, replies, grants,
evictions, victim queue and probes. -/

namespace Sys2Proof.Machine

/-! ## Caching agents -/

/-- Die of a caching agent (R236, R14). -/
def agentDie (a : Nat) : Nat := if a < 32 then 1 + a / 8 else 16 + (a - 32) / 2

/-- Seed of an agent's LFSR (TNS_L2_CFG, CORE_L2_CFG). -/
def agentSeed (s : State) (a : Nat) : BitVec 16 :=
  seedOr1 (if a < 32
    then BitVec.ofNat 16 (fld s (agentDie a) R.CORE_L2_CFG_LFSR_SEED) ^^^ BitVec.ofNat 16 (a % 8 * 0x1111)
    else BitVec.ofNat 16 (fld s (agentDie a) R.TNS_L2_CFG_LFSR_SEED) ^^^ BitVec.ofNat 16 (a % 2 * 0x8421))

/-- An LFSR, kept as 0 while it stands at its seed, which its register gives (R80, R257; log 32). -/
def lfsrVal (x seed : BitVec 16) : BitVec 16 := if x = 0 then seed else x

/-- Requests an agent's miss registers hold (R258). -/
def agentMissCount (s : State) (a : Nat) : Nat := (s.coh.misses.filter fun e => e.1 / 2 ^ 46 == a).length

/-- An agent sends a request for a line, when it has none in flight and a miss register is free (R242, R258). -/
def agentRequest (s : State) (a ln : Nat) (kind : ReqKind) (ctx : BitVec 16) : State :=
  if (tget? s.coh.misses (aKey a ln)).isSome ∨ (if a < 32 then 128 else 256) ≤ agentMissCount s a then s
  else
    send (modCoh s fun c => { c with misses := tset c.misses (aKey a ln) ⟨kind, false⟩ })
      (.home (homeOfLine s ln) ⟨kind, a, ctx, ln⟩)

/-- An agent needs a line for reading (R240). -/
def agentWantRead (s : State) (a ln : Nat) (ctx : BitVec 16) : State :=
  if (agentLine s a ln).isSome then s else agentRequest s a ln .rs ctx

/-- An agent needs a line in M (R240). -/
def agentWantWrite (s : State) (a ln : Nat) (ctx : BitVec 16) : State :=
  match agentLine s a ln with
  | none => agentRequest s a ln .ru ctx
  | some l => if l.st = .m ∨ l.st = .e then s else agentRequest s a ln .upg ctx

/-- May an agent write a line without a request (R239)? -/
def agentWritable (s : State) (a ln : Nat) : Bool :=
  match agentLine s a ln with
  | some l => l.st == .m || l.st == .e
  | none => false

/-- Write bytes at an offset of a line held in M or E; it becomes M (R240). -/
def agentStore (s : State) (a ln o : Nat) (b : List Byte) : State :=
  match agentLine s a ln with
  | some l => wakeResv (setAgentLine s a ln { l with st := .m, data := putBytes l.data o b }) ln
  | none => s

/-- Evict one line of an agent (R240, R253). -/
def agentEvict (s : State) (a ln : Nat) : State :=
  let s := mergeL1 s a ln
  match agentLine s a ln with
  | none => s
  | some l =>
    let dirty := l.st == .m || l.st == .o
    let s := dropAgentLine s a ln
    let s := modCoh s fun c => { c with wbs := tset c.wbs (aKey a ln) ⟨l.st, l.data, l.poison, false⟩ }
    send s (.home (homeOfLine s ln) ⟨if dirty then .wb l.data l.poison else .offer l.data l.poison, a, 0, ln⟩)

/-- Lines of an agent that share a set with a line, with their ways (R256, R257). -/
def agentSetMates (s : State) (a ln : Nat) : List (Nat × Nat) :=
  let mine := s.coh.lines.filter fun e => e.1 / 2 ^ 46 == a
  let mates := if a < 32 then
      (if mine.length < 16 then mine else mine.filter fun e => Config.clusterSet (e.1 % 2 ^ 46) == Config.clusterSet ln)
    else mine.filter fun e => e.1 % 2 ^ 46 / 4 % 4096 == ln / 4 % 4096
  mates.map fun e => (e.1 % 2 ^ 46, e.2.way)

/-- Is a way of an agent's cache retired? -/
def agentWayOut (s : State) (a w : Nat) : Bool :=
  if a < 32 then wayOut s (agentDie a) (a % 8) w else wayOut s (agentDie a) (a % 2) w

/-- Do two lines share a line or frame of an agent's cache (R256)? -/
def sameFrame (a x y : Nat) : Bool := if a < 32 then x == y else x / 4 == y / 4

/-- May a way not be given away: it is retired, or a miss for what it holds is in progress (R257)? -/
def agentWayBusy (s : State) (a w : Nat) (mates : List (Nat × Nat)) : Bool :=
  agentWayOut s a w || mates.any fun m => m.2 == w &&
    s.coh.misses.any fun e => e.1 / 2 ^ 46 == a && sameFrame a (e.1 % 2 ^ 46) m.1

/-- Is there a way for a line: its own frame's, or one that is not busy (R257)? -/
def agentRoom (s : State) (a ln : Nat) : Bool :=
  let mates := agentSetMates s a ln
  mates.any (fun m => sameFrame a m.1 ln) || (List.range 16).any fun w => !agentWayBusy s a w mates

/-- Choose the way for a line and evict what it holds (R256, R257). -/
def agentPlace (s : State) (a ln : Nat) : Nat × State :=
  let mates := agentSetMates s a ln
  match mates.find? (fun m => sameFrame a m.1 ln) with
  | some m => (m.2, s)
  | none =>
    match (List.range 16).find? (fun w => !agentWayOut s a w && mates.all fun m => m.2 != w) with
    | some w => (w, s)
    | none =>
      let x := lfsrVal (tget s.coh.lfsr a 0) (agentSeed s a)
      let w := wayFrom x.toNat (agentWayBusy s a · mates)
      let s := modCoh s fun c => { c with lfsr := tset c.lfsr a (lfsrStep x) }
      (w, (mates.filter fun m => m.2 == w).foldl (fun s m => agentEvict s a m.1) s)

/-- Put a granted line into an agent. -/
def agentInstall (s : State) (a ln : Nat) (st : Moesi) (d : Line) (p : Bool) : State :=
  let r := agentPlace s a ln
  setAgentLine r.2 a ln ⟨st, d, p, r.1⟩

/-! ## Directory (R248 to R252) -/

/-- Listed S holders. -/
def DirEntry.sharers (e : DirEntry) : List Nat := e.ptrs.filterMap id

/-- Avalanche mode. -/
def DirEntry.avalanche (e : DirEntry) : Bool := e.dstate == 4 || e.dstate == 5

/-- Recorded owner. -/
def DirEntry.own (e : DirEntry) : Option Nat :=
  if e.dstate = 2 ∨ e.dstate = 3 ∨ e.dstate = 5 then some e.owner else none

/-- Write into the lowest free pointer. -/
def putPtr (a : Nat) : List (Option Nat) → List (Option Nat)
  | [] => []
  | none :: t => some a :: t
  | p :: t => p :: putPtr a t

/-- An agent takes a line in S (R249). -/
def DirEntry.addSharer (e : DirEntry) (a : Nat) : DirEntry :=
  if e.avalanche ∨ e.sharers.contains a then e
  else if e.ptrs.contains none then
    { e with ptrs := putPtr a e.ptrs, dstate := if e.own.isSome then 3 else 1 }
  else { e with ptrs := [none, none, none, none], dstate := if e.own.isSome then 5 else 4 }

/-- Remove an agent's pointer. -/
def DirEntry.dropSharer (e : DirEntry) (a : Nat) : DirEntry :=
  { e with ptrs := e.ptrs.map fun p => if p = some a then none else p }

/-- Put or free an entry; an entry that lists nobody is freed. -/
def setDir (s : State) (md ln : Nat) (e : DirEntry) : State :=
  modHome s md fun h => { h with dir := if e.dstate = 0 then tdel h.dir ln else tset h.dir ln e }

/-- An agent takes a line in S: the entry, and the count of entries that enter avalanche mode. -/
def shareDir (s : State) (md ln : Nat) (e : DirEntry) (a : Nat) : State :=
  let e' := e.addSharer a
  let s := setDir s md ln e'
  if e'.avalanche ∧ !e.avalanche then bumpEventAt s (5 + md) R.MEM_COH_EVT_COUNT 0 R.MEM_COH_OVF_OVF 0 1 else s

/-- The entry after an agent gives its copy up (R249, R254). -/
def DirEntry.leave (e : DirEntry) (a : Nat) : DirEntry :=
  if e.own = some a then
    if e.dstate = 5 then { e with dstate := 4 }
    else if e.sharers = [] then { e with dstate := 0 } else { e with dstate := 1 }
  else if e.avalanche then e
  else
    let e' := e.dropSharer a
    if e'.sharers = [] ∧ e'.own.isNone then { e' with dstate := 0 }
    else if e'.sharers = [] then { e' with dstate := if e.dstate = 3 then 3 else e.dstate } else e'

/-- Where a new entry goes: a free way, or a victim line to evict first, or nothing yet (R252). -/
inductive DirRoom
  | way (w : Nat)
  | evict (ln : Nat)
  | busy
deriving DecidableEq, Repr

/-- Seed of a home's LFSRs (MEM_L3_CFG). -/
def homeSeed (s : State) (md : Nat) : BitVec 16 :=
  seedOr1 (BitVec.ofNat 16 (fld s (5 + md) R.MEM_L3_CFG_LFSR_SEED) ^^^ BitVec.ofNat 16 ((5 + md) * 0x1111))

/-- Seed of the directory's LFSR. -/
def dirSeed (s : State) (md : Nat) : BitVec 16 :=
  seedOr1 (~~~(BitVec.ofNat 16 (fld s (5 + md) R.MEM_L3_CFG_LFSR_SEED) ^^^ BitVec.ofNat 16 ((5 + md) * 0x1111)))

/-- Room for a new entry; `out`: retired ways (R252, R479). -/
def dirRoom (h : Home) (seed : BitVec 16) (ln : Nat) (out : Nat → Bool) : DirRoom :=
  let set := if h.dir.length < 16 then h.dir else h.dir.filter fun e => Config.dirSet e.1 == Config.dirSet ln
  match (List.range 16).find? (fun w => !out w && set.all fun e => e.2.way != w) with
  | some w => .way w
  | none =>
    let free := fun (e : Nat × DirEntry) => (tget? h.txns e.1).isNone && !out e.2.way
    match (set.filter fun e => free e && e.2.dstate == 1 && e.2.sharers.length == 1).map (fun e => (e.2.way, e.1)) with
    | v :: vs => .evict (vs.foldl (fun (b v : Nat × Nat) => if v.1 < b.1 then v else b) v).2
    | [] =>
      let x := (lfsrVal h.dirLfsr seed).toNat % 16
      match ((List.range 16).map fun i => (x + i) % 16).findSome? fun w => set.find? fun e => e.2.way == w && free e with
      | some e => .evict e.1
      | none => .busy

/-! ## A home's transactions (R243 to R251) -/

/-- Open or change the transaction of a line. -/
def setTxn (s : State) (md ln : Nat) (t : Txn) : State := modHome s md fun h => { h with txns := tset h.txns ln t }

/-- Close the transaction of a line. -/
def endTxn (s : State) (md ln : Nat) : State := modHome s md fun h => { h with txns := tdel h.txns ln }

/-- Agents that an invalidation reaches: the listed holders, or in avalanche mode every caching agent whose die is in
service; never the requester or the owner (R250). -/
def invalTargets (s : State) (e : DirEntry) (src : Nat) : List Nat :=
  (if e.avalanche then (List.range 64).filter fun a => dieUp s (agentDie a) else e.sharers).filter
    fun a => a != src && e.own != some a

/-- Send Inval to some agents. -/
def sendInvals (s : State) (ln : Nat) (l : List Nat) : State := l.foldl (fun s a => send s (.inval a ln)) s

/-- Answer a request: a grant to a caching agent, data or completion to an uncached one. -/
def answer (s : State) (r : HomeReq) (st : Moesi) (d : Line) (p : Bool) : State :=
  match r.kind with
  | .rs | .ru | .upg | .zero => send s (.grant r.src r.line st d p)
  | _ => send s (.once r.src r.line d p (st == .i))

/-- An eviction that an agent sent before the home served its later request for the line no longer counts (R245). -/
def staleWb (s : State) (a ln : Nat) : State :=
  modCoh s fun c => { c with wbs := match tget? c.wbs (aKey a ln) with
    | some w => tset c.wbs (aKey a ln) { w with gone := true }
    | none => c.wbs }

/-- Drop the L3's copy at a grant of M (R243). -/
def grantM (s : State) (md : Nat) (r : HomeReq) (d : Line) (p : Bool) (way : Nat) : State :=
  let s := modHome s md fun h => l3Drop h r.line
  let s := setDir s md r.line ⟨2, r.src, [none, none, none, none], way⟩
  answer s r .m d p

/-- A read that takes its data from the L3 or from memory (R243). -/
def grantRead (s : State) (md : Nat) (r : HomeReq) (e : DirEntry) : State :=
  let ln := r.line
  let cur := belowLine s ln
  let l3 := l3Copy (s.home md) ln
  let s := if l3.isNone then hbmUse s ln r.ctx false true else s
  if e.dstate = 0 then
    if (l3.map (·.dirty)).getD false then grantM s md r cur.1 cur.2 e.way
    else answer (setDir s md ln { e with dstate := 2, owner := r.src }) r .e cur.1 cur.2
  else answer (shareDir s md ln e r.src) r .s cur.1 cur.2

/-- Write the L3's dirty copy and, if given, recalled dirty data to memory (R260). -/
def cleanBelow (s : State) (md ln : Nat) (d : Option (Line × Bool)) : State :=
  match d, l3Copy (s.home md) ln with
  | some (x, p), _ => hbmUse (storeLine s ln x p) ln 0 true false
  | none, some l => if l.dirty then hbmUse (storeLine s ln l.data l.poison) ln 0 true false else s
  | none, none => s

/-- CLEAN (R260, R263): every dirty copy is written to memory; copies stay valid, the L3's with the value written. -/
def doClean (s : State) (md : Nat) (r : HomeReq) : State :=
  let ln := r.line
  let finish := fun (d : Option (Line × Bool)) (s : State) =>
    let s := cleanBelow s md ln d
    let s := match d with
      | some (x, p) => if (l3Copy (s.home md) ln).isSome then modHome s md fun h => l3Write h ln x p else s
      | none => s
    answer (modHome s md fun h => { h with
      l3 := h.l3.map fun e => if e.1 = ln then (e.1, { e.2 with dirty := false }) else e
      vq := h.vq.map fun v => if v.line = ln ∧ !v.toMem then { v with dirty := false } else v }) r .s 0 false
  match ownerOf s ln with
  | none => finish none s
  | some o =>
    let s := match l1Dirty s o ln with
      | some _ => mergeL1 s o ln
      | none => s
    match agentLine s o ln with
    | some l =>
      if l.st = .m then finish (some (l.data, l.poison)) (setAgentLine s o ln { l with st := .e })
      else if l.st = .o then
        let s := setAgentLine s o ln { l with st := .s }
        let e := tget (s.home md).dir ln {}
        finish (some (l.data, l.poison)) (shareDir s md ln { e with dstate := if e.avalanche then 4 else 1 } o)
      else finish none s
    | none =>
      match agentData s o ln with
      | some (d, true, p) => finish (some (d, p)) s
      | _ => finish none s

/-- Finish a write-like request once no other agent holds the line: a copy of the requester's own goes too, the result
is put below and the entry is freed (R244, R251, R260). `got`: recalled data, dirty, poison. -/
def finishFlush (s : State) (md : Nat) (r : HomeReq) (got : Option (Line × Bool × Bool)) : State :=
  let ln := r.line
  let s := if r.src < 64 then dropAgentLine (mergeL1 (staleWb s r.src ln) r.src ln) r.src ln else s
  let s := modHome s md fun h => { h with dir := tdel h.dir ln }
  match r.kind with
  | .wrline d => wakeResv (answer (touch (putBelow s ln d false) ln) r .s 0 false) ln
  | .wrpart d m =>
    let cur := match got with
      | some (x, _, p) => (x, p)
      | none => belowLine s ln
    wakeResv (answer (touch (putBelow s ln (mergeBytes cur.1 d m) cur.2) ln) r .s 0 false) ln
  | _ =>
    let dirty := match got with
      | some (x, true, p) => some (x, p)
      | _ => none
    answer (modHome (cleanBelow s md ln dirty) md fun h => l3Drop h ln) r .s 0 false

/-- Data of an evicted directory entry's owner goes to the L3, or to memory when the L3 cannot install it (R252). -/
def finishEvict (s : State) (md ln : Nat) (got : Option (Line × Bool × Bool)) : State :=
  let s := modHome s md fun h => { h with dir := tdel h.dir ln }
  match got with
  | some (d, _, p) =>
    if (s.home md).vq.length < 64 then
      modHome s md fun h => { l3Drop h ln with vq := (l3Drop h ln).vq ++ [⟨ln, d, true, p, false⟩] }
    else storeLine (modHome s md fun h => l3Drop h ln) ln d p
  | none => s

/-- The way that a new entry takes, once there is room for it (R252). -/
def newWay (s : State) (md ln : Nat) : Nat :=
  match dirRoom (s.home md) (dirSeed s md) ln (wayOut s (5 + md) 1) with
  | .way w => w
  | _ => 0

/-- Continue a transaction whose acknowledgements are all in (R243): ask the owner, or finish. -/
def txnStep (s : State) (md ln : Nat) (t : Txn) : State :=
  if t.acks ≠ [] then setTxn s md ln t
  else
    let r := t.req
    let e := tget (s.home md).dir ln { way := newWay s md ln }
    match t.owner with
    | some o =>
      let s := setTxn s md ln t
      if t.evict then send s (.recall o ln)
      else match r.kind with
        | .rs => send s (.fwdShared o ln r.src)
        | .ru | .upg => send s (.fwdUnique o ln r.src)
        | .rdonce => send s (.fwdOnce o ln r.src)
        | _ => send s (.recall o ln)
    | none =>
      let s := endTxn s md ln
      if t.evict then finishEvict s md ln t.got
      else match r.kind with
        | .rs => grantRead s md r e
        | .ru =>
          let cur := belowLine s ln
          grantM (if (l3Copy (s.home md) ln).isNone then hbmUse s ln r.ctx false true else s) md r cur.1 cur.2 e.way
        | .upg =>
          let cur := match agentLine s r.src ln with
            | some l => (l.data, l.poison)
            | none => belowLine s ln
          grantM s md r cur.1 cur.2 e.way
        | .zero => grantM s md r 0 false e.way
        | .rdonce =>
          let cur := belowLine s ln
          answer (if (l3Copy (s.home md) ln).isNone then hbmUse s ln r.ctx false true else s) r .s cur.1 cur.2
        | _ => finishFlush s md r t.got

/-- Accept or decline an eviction (R245, R254). -/
def doWriteback (s : State) (md : Nat) (r : HomeReq) (d : Line) (p dirty : Bool) : State :=
  let ln := r.line
  let h := s.home md
  let e := tget h.dir ln {}
  let holds := e.own == some r.src || e.sharers.contains r.src || e.avalanche
  let gone := ((tget? s.coh.wbs (aKey r.src ln)).map (·.gone)).getD false
  let way := e.way
  let s' := setDir s md ln { e.leave r.src with way := way }
  if !holds || gone || (dirty && e.own != some r.src) then send s (.wbAck r.src ln false)
  else if !dirty ∧ fld s (5 + md) R.MEM_L3_CFG_DECLINE_THRESH ≤ h.vq.length
      ∧ fld s (5 + md) R.MEM_L3_CFG_DECLINE_THRESH < 64 then
    send (bumpEventAt s' (5 + md) R.MEM_COH_EVT_COUNT 2 R.MEM_COH_OVF_OVF 2 1) (.wbAck r.src ln true)
  else if !dirty ∧ (l3Copy h ln).isSome then send s' (.wbAck r.src ln false)
  else
    send (modHome s' md fun h => { l3Drop h ln with vq := (l3Drop h ln).vq ++ [⟨ln, d, dirty, p, false⟩] })
      (.wbAck r.src ln false)

/-- Does the home record that an agent holds a line (R246)? -/
def homeKnows (s : State) (e : DirEntry) (a ln : Nat) : Bool :=
  e.own == some a || e.sharers.contains a || (e.avalanche && (agentLine s a ln).isSome)

/-- Count an Inval broadcast (R250). -/
def countBcast (s : State) (md : Nat) (e : DirEntry) : State :=
  if e.avalanche then bumpEventAt s (5 + md) R.MEM_COH_EVT_COUNT 1 R.MEM_COH_OVF_OVF 1 1 else s

/-- Start a transaction that removes other copies first. `keepOwner`: the owner is asked later and gets no Inval, also
where it is the requester, which then answers from its writeback buffer (R245) or gives up its own copy (R260). -/
def openInval (s : State) (md : Nat) (r : HomeReq) (e : DirEntry) (keepOwner : Bool) : State :=
  let acks := invalTargets s e r.src
    ++ (match e.own with | some o => if keepOwner || o == r.src then [] else [o] | none => [])
  let owner := if keepOwner then e.own else none
  let s := sendInvals (countBcast s md e) r.line acks
  txnStep s md r.line ⟨r, acks, owner, none, false, e.avalanche⟩

/-- A request is refused at its target (R285). -/
def homeRefuse (s : State) (md : Nat) (r : HomeReq) (write : Bool) : State :=
  let die := if r.src < 64 then agentDie r.src else (r.src - 64) / 64
  let unit := if r.src < 64 then r.src else (r.src - 64) % 64
  answer (ctxFault s (5 + md) die unit r.ctx (r.line * 64) write) r .i 0 true

/-- Is a kind checked as a write (R282)? None: not checked. -/
def reqWrite : ReqKind → Option Bool
  | .rs | .rdonce => some false
  | .wb .. | .offer .. => none
  | _ => some true

/-- Does a request need a directory entry for its line? -/
def reqEntry : ReqKind → Bool
  | .rs | .ru | .upg | .zero => true
  | _ => false

/-- Put a request among those that wait at the home (R242, R243). -/
def homeWait (s : State) (md : Nat) (r : HomeReq) : State := modHome s md fun h => { h with waiting := h.waiting ++ [r] }

/-- Begin a request's transaction: claim check, directory entry, action (R243, R252, R283). -/
def homeBegin (s : State) (md : Nat) (r : HomeReq) : State :=
  let ln := r.line
  let s := touch (claimCacheFill s (ln * 64)) ln
  let refused := match reqWrite r.kind with
    | some w => !claimOk s r.ctx (ln * 64) w
    | none => false
  if refused then homeRefuse s md r ((reqWrite r.kind).getD false)
  else
    let h := s.home md
    let room := if reqEntry r.kind ∧ (tget? h.dir ln).isNone then dirRoom h (dirSeed s md) ln (wayOut s (5 + md) 1) else .way 0
    match room with
    | .busy => homeWait s md r
    | .evict v =>
      if h.txns.any fun t => t.2.evict && t.2.req == { r with line := t.1 } then homeWait s md r else
      let e := tget h.dir v {}
      let s := homeWait s md r
      let s := bumpEventAt s (5 + md) R.MEM_COH_EVT_COUNT 3 R.MEM_COH_OVF_OVF 3 1
      let s := if e.dstate = 1 ∧ e.sharers.length = 1 then s
        else modHome s md fun h => { h with dirLfsr := lfsrStep (lfsrVal h.dirLfsr (dirSeed s md)) }
      let acks := invalTargets s e 1000000
      txnStep (sendInvals (countBcast s md e) v acks) md v
        ⟨{ r with line := v }, acks, e.own, none, true, e.avalanche⟩
    | .way w =>
      let e : DirEntry := tget h.dir ln { way := w }
      let s := if reqEntry r.kind ∧ e.own ≠ some r.src then staleWb s r.src ln else s
      match r.kind with
      | .rs =>
        match e.own with
        | some _ => txnStep s md ln ⟨r, [], e.own, none, false, false⟩
        | none => grantRead s md r e
      | .ru => openInval (setDir s md ln e) md r e true
      | .upg => if homeKnows s e r.src ln then openInval s md r e false else openInval (setDir s md ln e) md r e true
      | .zero => openInval s md r e false
      | .clean => doClean s md r
      | .flush => openInval s md r e true
      | .rdonce => txnStep s md ln ⟨r, [], e.own, none, false, false⟩
      | .wrline _ => openInval s md r e false
      | .wrpart _ _ => openInval s md r e true
      | .wb d p => if 64 ≤ h.vq.length then homeWait s md r else doWriteback s md r d p true
      | .offer d p =>
        if 64 ≤ h.vq.length ∧ 64 ≤ fld s (5 + md) R.MEM_L3_CFG_DECLINE_THRESH ∧ (l3Copy h ln).isNone then homeWait s md r
        else doWriteback s md r d p false

/-- A request arrives at its home (R242, R243): it begins, or waits behind the line's transaction or for an entry.
A line whose home is another die reaches this one by no path. -/
def homeArrive (s : State) (md : Nat) (r : HomeReq) : State :=
  if !isMem (r.line * 64) || homeOfLine s r.line != md then s
  else
    let s := recv s (.home md r)
    let h := s.home md
    if (tget? h.txns r.line).isSome || 1024 ≤ h.txns.length || h.waiting.any (fun q => q.line == r.line) then
      homeWait s md r
    else homeBegin s md r

/-- HOME_QUEUED_REQUEST_START: the first waiting request of a line begins. -/
def homeQueued (s : State) (md ln : Nat) : State :=
  let h := s.home md
  match h.waiting.find? (fun q => q.line == ln) with
  | some r =>
    if (tget? h.txns ln).isSome || 1024 ≤ h.txns.length then s
    else homeBegin (modHome s md fun h => { h with waiting := h.waiting.erase r }) md r
  | none => s

/-- The directory after a forwarded owner's reply to FwdShared (R240, R245, R249). -/
def afterShared (s : State) (md ln o src : Nat) (dirty passed : Bool) : State :=
  let e := tget (s.home md).dir ln {}
  if passed then
    setDir s md ln { e with owner := src, dstate := if e.avalanche then 5 else 3 }
  else if dirty then
    shareDir s md ln { e with dstate := if e.avalanche then 5 else 3 } src
  else
    let e := { e with dstate := if e.avalanche then 4 else 1 }
    shareDir (shareDir s md ln e o) md ln ((tget (shareDir s md ln e o |>.home md).dir ln {})) src

/-- HOME_REPLY_RECEIVE (R243, R245). -/
def homeReply (s : State) (md agent ln : Nat) (rep : HomeReply) : State :=
  if !s.net.contains (.reply md agent ln rep) then s
  else
    let s := recv s (.reply md agent ln rep)
    match tget? (s.home md).txns ln with
    | none => s
    | some t =>
      match rep with
      | .ack => if t.acks.contains agent then txnStep s md ln { t with acks := t.acks.erase agent } else s
      | .forwarded dirty passed =>
        if t.owner = some agent then
          let s := endTxn s md ln
          match t.req.kind with
          | .rs => afterShared s md ln agent t.req.src dirty passed
          | .ru | .upg =>
            let e := tget (s.home md).dir ln {}
            modHome (setDir s md ln ⟨2, t.req.src, [none, none, none, none], e.way⟩) md fun h => l3Drop h ln
          | _ => s
        else s
      | .recalled dirty p d =>
        if t.owner = some agent then txnStep s md ln { t with owner := none, got := some (d, dirty, p) } else s

/-! ## Forwards at an agent (R240, R245, R255) -/

/-- An agent answers FwdShared. -/
def doFwdShared (s : State) (a ln req : Nat) : State :=
  if !s.net.contains (.fwdShared a ln req) then s
  else
    let s := mergeL1 (recv s (.fwdShared a ln req)) a ln
    let md := homeOfLine s ln
    match agentLine s a ln with
    | some l =>
      let dirty := l.st == .m || l.st == .o
      let s := setAgentLine s a ln { l with st := if dirty then .o else .s }
      send (send s (.grant req ln .s l.data l.poison)) (.reply md a ln (.forwarded dirty false))
    | none =>
      match tget? s.coh.wbs (aKey a ln) with
      | some w =>
        let dirty := w.st == .m || w.st == .o
        let s := modCoh s fun c => { c with wbs := tset c.wbs (aKey a ln) { w with gone := dirty || w.gone || a == req } }
        send (send s (.grant req ln (if dirty then .o else .s) w.data w.poison)) (.reply md a ln (.forwarded dirty dirty))
      | none => s

/-- An agent answers FwdUnique. -/
def doFwdUnique (s : State) (a ln req : Nat) : State :=
  if !s.net.contains (.fwdUnique a ln req) then s
  else
    let s := mergeL1 (recv s (.fwdUnique a ln req)) a ln
    let md := homeOfLine s ln
    match agentData s a ln with
    | some (d, dirty, p) =>
      let s := dropAgentLine s a ln
      let s := modCoh s fun c => { c with wbs := match tget? c.wbs (aKey a ln) with
        | some w => tset c.wbs (aKey a ln) { w with gone := true }
        | none => c.wbs }
      send (send s (.grant req ln .m d p)) (.reply md a ln (.forwarded dirty true))
    | none => s

/-- An agent answers FwdOnce. -/
def doFwdOnce (s : State) (a ln req : Nat) : State :=
  if !s.net.contains (.fwdOnce a ln req) then s
  else
    let s := recv s (.fwdOnce a ln req)
    match agentData s a ln with
    | some (d, dirty, p) =>
      send (send s (.once req ln d p false)) (.reply (homeOfLine s ln) a ln (.forwarded dirty false))
    | none => s

/-- An agent answers Recall. -/
def doRecall (s : State) (a ln : Nat) : State :=
  if !s.net.contains (.recall a ln) then s
  else
    let s := mergeL1 (recv s (.recall a ln)) a ln
    match agentData s a ln with
    | some (d, dirty, p) =>
      let s := dropAgentLine s a ln
      let s := modCoh s fun c => { c with wbs := match tget? c.wbs (aKey a ln) with
        | some w => tset c.wbs (aKey a ln) { w with gone := true }
        | none => c.wbs }
      send s (.reply (homeOfLine s ln) a ln (.recalled dirty p d))
    | none => s

/-- An agent answers Inval. -/
def doInval (s : State) (a ln : Nat) : State :=
  if !s.net.contains (.inval a ln) then s
  else
    let s := dropAgentLine (mergeL1 (recv s (.inval a ln)) a ln) a ln
    let s := modCoh s fun c => { c with wbs := match tget? c.wbs (aKey a ln) with
      | some w => tset c.wbs (aKey a ln) { w with gone := true }
      | none => c.wbs }
    send s (.reply (homeOfLine s ln) a ln .ack)

/-! ## Stores that a grant performs -/

/-- Bytes of a lane's store data. -/
def MemLane.bytes (l : MemLane) (size : Nat) : List Byte := leBytes size l.data.toNat

/-- A store that hits a valid sector of the Spur's L1 updates it (R75). -/
def l1Update (p : Spur) (pa : Nat) (ctx : BitVec 16) (b : List Byte) : Spur :=
  { p with l1 := p.l1.map fun e =>
      let sec := pa / 64 % 4
      if e.2.blk = pa / 256 ∧ e.2.ctx = ctx ∧ e.2.valid.getLsbD sec then
        (e.1, { e.2 with sec := tset e.2.sec sec (putBytes (tget e.2.sec sec 0) (pa % 64) b) })
      else e }

/-- Does an earlier access of the same group to the line, or one not yet translated that may name it, come first
(R212)? -/
def lineBlocked (p : Spur) (o : MemOp) (ln : Nat) : Bool :=
  (p.ops.takeWhile fun q => q.id != o.id).any fun q => q.gid == o.gid && q.lanes.any fun l =>
    l.st != .done && (if l.st = .xlt then bits l.va.toNat 11 6 == ln % 64 else l.pa / 64 == ln)

/-- Perform the store lanes of one operation that lie in a line the region L2 may write. -/
def storeLanes (s : State) (sp a ln : Nat) (o : MemOp) : State :=
  let todo := o.lanes.filter fun l => l.st == .ready && l.typ == 0 && l.pa / 64 == ln
  if todo = [] || lineBlocked (s.spur sp) o ln then s
  else
    let s := todo.foldl (fun s l => agentStore s a ln (l.pa % 64) (l.bytes o.size)) s
    modSpur s sp fun p =>
      let p := todo.foldl (fun p l => l1Update p l.pa o.ctx (l.bytes o.size)) p
      let lanes := o.lanes.map fun l => if l.st = .ready ∧ l.typ = 0 ∧ l.pa / 64 = ln then { l with st := .done } else l
      { p with ops := p.ops.map fun x =>
          if x.id = o.id then { x with lanes := lanes } else x }

/-- Spurs of a region agent. -/
def spursOfAgent (a : Nat) : List Nat := if 32 ≤ a then (List.range 4).map (4 * (a - 32) + ·) else []

/-- Store operations of a Spur that are ready to be performed in order (R212): none waits for translation. -/
def readyStores (p : Spur) : List MemOp :=
  p.ops.filter fun o => (match o.kind with | .store => true | _ => false) && o.lanes.all fun l => l.st != .xlt

/-- Perform a region's waiting stores on a line it may now write (R258). -/
def regionStores (s : State) (a ln : Nat) : State :=
  (spursOfAgent a).foldl (fun s sp => (readyStores (s.spur sp)).foldl (fun s o =>
    if agentWritable s a ln then storeLanes s sp a ln o else s) s) s

/-- Perform a cluster's buffered hart stores on a line it may now write, in each hart's order (R210). -/
def clusterStores (s : State) (a ln : Nat) : State :=
  if !agentWritable s a ln then s
  else (hartsOf a).foldl (fun s h =>
    let todo := (s.hart h).storeBuf.filter fun x => x.typ == 0 && x.pa / 64 == ln
    if todo = [] then s
    else
      let s := mergeL1 s a ln
      let s := todo.foldl (fun s x => agentStore s a ln (x.pa % 64) (x.bytes)) s
      modHart s h fun y => { y with storeBuf := y.storeBuf.filter fun x => !(x.typ == 0 && x.pa / 64 == ln) }) s

/-- Drop the stores of a refused line: the write is dropped (R285). -/
def dropStores (s : State) (a ln : Nat) : State :=
  let s := (spursOfAgent a).foldl (fun s sp => modSpur s sp fun p => { p with ops := p.ops.map fun o =>
    match o.kind with
    | .store =>
      let lanes := o.lanes.map fun l => if l.st = .ready ∧ l.typ = 0 ∧ l.pa / 64 = ln then { l with st := .done } else l
      { o with lanes := lanes }
    | _ => o }) s
  (hartsOf a).foldl (fun s h =>
    modHart s h fun y => { y with storeBuf := y.storeBuf.filter fun x => !(x.typ == 0 && x.pa / 64 == ln) }) s

/-- Context of a waiting store of an agent to a line (R268). -/
def waitingStore (s : State) (a ln : Nat) : Option (BitVec 16) :=
  ((spursOfAgent a).findSome? fun sp => ((readyStores (s.spur sp)).find? fun o =>
      o.lanes.any fun l => l.st == .ready && l.typ == 0 && l.pa / 64 == ln).map (·.ctx)).or
    ((hartsOf a).findSome? fun h => ((s.hart h).storeBuf.find? fun x => x.typ == 0 && x.pa / 64 == ln).map (·.ctx))

/-- A merged access that needs M after a read fill sends UPG (R258). -/
def upgradeAfter (s : State) (a ln : Nat) : State :=
  match waitingStore s a ln with
  | some c => if agentWritable s a ln then s else agentWantWrite s a ln c
  | none => s

/-- Does an access other than a store wait for a line of an agent? -/
def lineWanted (s : State) (a ln : Nat) : Bool :=
  ((spursOfAgent a).any fun sp => (s.spur sp).ops.any fun o =>
      (match o.kind with | .store => false | _ => true)
        && o.lanes.any fun l => l.st != .done && l.st != .xlt && l.pa / 64 == ln)
    || (hartsOf a).any fun h => (s.hart h).busy == some ln

/-- DATA_GRANT_RECEIVE (R240, R243, R258, R285); it waits while every way for the line is busy (R257). -/
def grantReceive' (s : State) (a ln : Nat) (st : Moesi) (d : Line) (p : Bool) : State :=
  if !s.net.contains (.grant a ln st d p) then s
  else
    let miss := tget? s.coh.misses (aKey a ln)
    if st != .i && (agentLine s a ln).isNone && !agentRoom s a ln then s else
    let s := recv s (.grant a ln st d p)
    if st = .i then
      let s := dropStores s a ln
      modCoh s fun c => { c with misses := match miss with
        | some m => if lineWanted s a ln then tset c.misses (aKey a ln) { m with refused := true }
          else tdel c.misses (aKey a ln)
        | none => c.misses }
    else
      let s := modCoh s fun c => { c with misses := tdel c.misses (aKey a ln) }
      let upg : Bool := match miss with | some m => decide (m.kind = .upg) | none => false
      let s := match agentLine s a ln with
        | some l => setAgentLine s a ln
            (if upg then { l with st := st } else { l with st := st, data := d, poison := p })
        | none => agentInstall s a ln st d p
      upgradeAfter (clusterStores (regionStores s a ln) a ln) a ln

/-- WRITEBACK_ACK_RECEIVE (R242, R245). -/
def wbAckReceive (s : State) (a ln : Nat) (declined : Bool) : State :=
  if s.net.contains (.wbAck a ln declined) then
    modCoh (recv s (.wbAck a ln declined)) fun c => { c with wbs := tdel c.wbs (aKey a ln) }
  else s

/-- Way of the L3 for a line (R257); `out`: retired ways: a free way, or the one whose line is evicted. -/
def l3Place (h : Home) (seed : BitVec 16) (ln : Nat) (out : Nat → Bool) : Nat × Option Nat × Bool :=
  let set := if h.l3.length < 16 then h.l3 else h.l3.filter fun e => Config.l3Set e.1 == Config.l3Set ln
  match set.find? (fun e => e.1 == ln) with
  | some e => (e.2.way, none, false)
  | none =>
    match (List.range 16).find? (fun w => !out w && set.all fun e => e.2.way != w) with
    | some w => (w, none, false)
    | none =>
      let w := wayFrom (lfsrVal h.l3Lfsr seed).toNat out
      (w, (set.find? fun e => e.2.way == w).map (·.1), true)

/-- VICTIM_QUEUE_DRAIN: the oldest entry is installed in the L3 or written to memory (R254, R257). -/
def victimDrain (s : State) (md : Nat) : State :=
  match (s.home md).vq with
  | [] => s
  | v :: rest =>
    let s := modHome s md fun h => { h with vq := rest }
    if v.toMem then hbmUse (storeLine s v.line v.data v.poison) v.line 0 true false
    else
      let h := s.home md
      let pl := l3Place h (homeSeed s md) v.line (wayOut s (5 + md) 0)
      let s := modHome s md fun h => { h with
        l3Lfsr := if pl.2.2 then lfsrStep (lfsrVal h.l3Lfsr (homeSeed s md)) else h.l3Lfsr
        vq := match pl.2.1.bind fun x => (tget? h.l3 x).map fun l => (x, l) with
          | some (x, l) => if l.dirty then h.vq ++ [⟨x, l.data, true, l.poison, true⟩] else h.vq
          | none => h.vq }
      modHome s md fun h => { h with
        l3 := tset (match pl.2.1 with | some x => tdel h.l3 x | none => h.l3) v.line ⟨v.data, v.dirty, v.poison, pl.1⟩ }

/-! ## Probes (R264) -/

/-- DIR_PROBE: a write to MEM_DIR_PROBE_ADDR. -/
def dirProbe (s : State) (md : Nat) (v : W64) : State :=
  let s := setFld s (5 + md) R.MEM_DIR_PROBE_ADDR_LINE (bits v.toNat 51 6)
  let s := setFld s (5 + md) R.MEM_DIR_PROBE_DATA_DONE 0
  modHome s md fun h => { h with probe := some (bits v.toNat 51 6) }

/-- DIR_PROBE_DONE. -/
def dirProbeDone (s : State) (md : Nat) : State :=
  match (s.home md).probe with
  | none => s
  | some ln =>
    let s := modHome s md fun h => { h with probe := none }
    let die := 5 + md
    let foreign := !isMem (ln * 64) || homeOfLine s ln != md
    let h := s.home md
    let e? := tget? h.dir ln
    let e := e?.getD {}
    let ptr := fun (i : Nat) => ((e.ptrs.getD i none).getD 0)
    let pv := (List.range 4).foldl (fun n i => n + if (e.ptrs.getD i none).isSome then 2 ^ i else 0) 0
    let l3 := match l3Copy h ln with | some l => if l.dirty then 2 else 1 | none => 0
    let set := fun (s : State) (f : FRef) (v : Nat) => setFld s die f (if foreign then 0 else v)
    let s := set s R.MEM_DIR_PROBE_DATA_HIT (b2n e?.isSome)
    let s := set s R.MEM_DIR_PROBE_DATA_L3 l3
    let s := setFld s die R.MEM_DIR_PROBE_DATA_FOREIGN (b2n foreign)
    let s := set s R.MEM_DIR_PROBE_DATA_DSTATE e.dstate.toNat
    let s := set s R.MEM_DIR_PROBE_DATA_OWNER ((e.own).getD 0)
    let s := set s R.MEM_DIR_PROBE_DATA_PVALID pv
    let s := set s R.MEM_DIR_PROBE_DATA_PTR3 (ptr 3)
    let s := set s R.MEM_DIR_PROBE_DATA_PTR2 (ptr 2)
    let s := set s R.MEM_DIR_PROBE_DATA_PTR1 (ptr 1)
    let s := set s R.MEM_DIR_PROBE_DATA_PTR0 (ptr 0)
    setFld s die R.MEM_DIR_PROBE_DATA_DONE 1

/-! ## The meanings -/

/-- HOME_READ_SHARED. -/
def execHomeReadShared (md : Fin 6) (src : Nat) (ctx : BitVec 16) (line : Nat) (s : State) :
    Host.Outcome State Fault Refusal := .next (homeArrive s md ⟨.rs, src, ctx, line⟩)
/-- HOME_READ_UNIQUE. -/
def execHomeReadUnique (md : Fin 6) (src : Nat) (ctx : BitVec 16) (line : Nat) (s : State) :
    Host.Outcome State Fault Refusal := .next (homeArrive s md ⟨.ru, src, ctx, line⟩)
/-- HOME_UPGRADE. -/
def execHomeUpgrade (md : Fin 6) (src : Nat) (ctx : BitVec 16) (line : Nat) (s : State) :
    Host.Outcome State Fault Refusal := .next (homeArrive s md ⟨.upg, src, ctx, line⟩)
/-- HOME_ZERO. -/
def execHomeZero (md : Fin 6) (src : Nat) (ctx : BitVec 16) (line : Nat) (s : State) :
    Host.Outcome State Fault Refusal := .next (homeArrive s md ⟨.zero, src, ctx, line⟩)
/-- HOME_CLEAN. -/
def execHomeClean (md : Fin 6) (src : Nat) (ctx : BitVec 16) (line : Nat) (s : State) :
    Host.Outcome State Fault Refusal := .next (homeArrive s md ⟨.clean, src, ctx, line⟩)
/-- HOME_FLUSH. -/
def execHomeFlush (md : Fin 6) (src : Nat) (ctx : BitVec 16) (line : Nat) (s : State) :
    Host.Outcome State Fault Refusal := .next (homeArrive s md ⟨.flush, src, ctx, line⟩)
/-- HOME_RDONCE. -/
def execHomeRdonce (md : Fin 6) (src : Nat) (ctx : BitVec 16) (line : Nat) (s : State) :
    Host.Outcome State Fault Refusal := .next (homeArrive s md ⟨.rdonce, src, ctx, line⟩)
/-- HOME_WRLINE. -/
def execHomeWrline (md : Fin 6) (src : Nat) (ctx : BitVec 16) (line : Nat) (data : Line) (s : State) :
    Host.Outcome State Fault Refusal := .next (homeArrive s md ⟨.wrline data, src, ctx, line⟩)
/-- HOME_WRPART. -/
def execHomeWrpart (md : Fin 6) (src : Nat) (ctx : BitVec 16) (line : Nat) (data : Line) (mask : W64) (s : State) :
    Host.Outcome State Fault Refusal := .next (homeArrive s md ⟨.wrpart data mask, src, ctx, line⟩)
/-- HOME_WB. -/
def execHomeWb (md : Fin 6) (agent : Fin 64) (line : Nat) (data : Line) (poison : Bool) (s : State) :
    Host.Outcome State Fault Refusal := .next (homeArrive s md ⟨.wb data poison, agent, 0, line⟩)
/-- HOME_OFFER. -/
def execHomeOffer (md : Fin 6) (agent : Fin 64) (line : Nat) (data : Line) (poison : Bool) (s : State) :
    Host.Outcome State Fault Refusal := .next (homeArrive s md ⟨.offer data poison, agent, 0, line⟩)
/-- HOME_QUEUED_REQUEST_START. -/
def execHomeQueuedRequestStart (md : Fin 6) (line : Nat) (s : State) : Host.Outcome State Fault Refusal :=
  .next (homeQueued s md line)
/-- HOME_REPLY_RECEIVE. -/
def execHomeReplyReceive (md : Fin 6) (agent : Fin 64) (line : Nat) (reply : HomeReply) (s : State) :
    Host.Outcome State Fault Refusal := .next (homeReply s md agent line reply)
/-- FWD_SHARED. -/
def execFwdShared (agent : Fin 64) (line requester : Nat) (s : State) : Host.Outcome State Fault Refusal :=
  .next (doFwdShared s agent line requester)
/-- FWD_UNIQUE. -/
def execFwdUnique (agent : Fin 64) (line requester : Nat) (s : State) : Host.Outcome State Fault Refusal :=
  .next (doFwdUnique s agent line requester)
/-- FWD_ONCE. -/
def execFwdOnce (agent : Fin 64) (line requester : Nat) (s : State) : Host.Outcome State Fault Refusal :=
  .next (doFwdOnce s agent line requester)
/-- RECALL. -/
def execRecall (agent : Fin 64) (line : Nat) (s : State) : Host.Outcome State Fault Refusal :=
  .next (doRecall s agent line)
/-- INVAL. -/
def execInval (agent : Fin 64) (line : Nat) (s : State) : Host.Outcome State Fault Refusal :=
  .next (doInval s agent line)
/-- DATA_GRANT_RECEIVE. -/
def execDataGrantReceive (agent : Fin 64) (line : Nat) (st : Moesi) (data : Line) (poison : Bool) (s : State) :
    Host.Outcome State Fault Refusal := .next (grantReceive' s agent line st data poison)
/-- WRITEBACK_ACK_RECEIVE. -/
def execWritebackAckReceive (agent : Fin 64) (line : Nat) (declined : Bool) (s : State) :
    Host.Outcome State Fault Refusal := .next (wbAckReceive s agent line declined)
/-- VICTIM_QUEUE_DRAIN. -/
def execVictimQueueDrain (md : Fin 6) (s : State) : Host.Outcome State Fault Refusal := .next (victimDrain s md)
/-- DIR_PROBE. -/
def execDirProbe (md : Fin 6) (val : W64) (s : State) : Host.Outcome State Fault Refusal := .next (dirProbe s md val)
/-- DIR_PROBE_DONE. -/
def execDirProbeDone (md : Fin 6) (s : State) : Host.Outcome State Fault Refusal := .next (dirProbeDone s md)

end Sys2Proof.Machine
end

