-- ==== Sys2Proof/Machine/Blocks.lean ====
section
/-! DEFINITION. Shared operations over blocks, kernels and teams: room and placement on a Spur (R38 to R49), entries
of a roped team's schedule (R169), the end of a block, of a kernel and of a team's run, group faults (R81 to R83, R172)
and the issue of an instruction (R36). -/

namespace Sys2Proof.Machine

/-! ## End of blocks and kernels (R38, R49, R81, R82) -/

/-- Spurs of tensor die 16 + td. -/
def spursOf (td : Nat) : List Nat := (List.range 8).map (td * 8 + ·)

/-- Is a Spur able to take work: its die in service and the Spur not retired (R49, R482)? -/
def spurUp (s : State) (sp : Nat) : Bool :=
  dieUp s (16 + sp / 8) && bitAt (fld s (16 + sp / 8) R.UNIT_MAP_IN_SERVICE) (sp % 8)

/-- Does a self-test of a Spur or of one of its arrays wait or run: the launch unit places nothing on it (R491)? -/
def spurTested (s : State) (sp : Nat) : Bool :=
  s.svc.tests.any fun t => t.rid.die.toNat == 16 + sp / 8
    && ((t.rid.kind == 5 && t.rid.unit.toNat == sp % 8) || (t.rid.kind == 6 && t.rid.unit.toNat / 4 == sp % 8))

/-- Group slots of a block. -/
def slotsOf (p : Spur) (b : Nat) : List Nat := (p.groups.filter fun e => e.2.blk == b).map Prod.fst

/-- Blocks of a kernel whose number falls to the i-th of n selected dies (R45). -/
def shareCount (k : Kernel) (i n : Nat) : Nat := (k.gx * k.gy * k.gz + n - 1 - i) / n

/-- Selected dies of a kernel, as tensor-die numbers in increasing order (R45). -/
def Kernel.dies (k : Kernel) : List Nat := (List.range 16).filter fun d => k.dieMask.getLsbD d

/-- Does a block of a kernel reside on a die? -/
def residentOn (s : State) (kid td : Nat) : Bool :=
  (spursOf td).any fun sp => (s.spur sp).blocks.any fun e => e.2.team.isNone && e.2.kid == kid

/-- Has a die finished its share of a kernel? -/
def shareDone (s : State) (kid : Nat) (k : Kernel) (td : Nat) : Bool :=
  let n := k.dies.length
  let i := (k.dies.findIdx (· == td))
  (k.stopped || shareCount k i n ≤ tget k.next td 0) && !residentOn s kid td

/-- Status of a launch at its end (R49, R82). -/
def Kernel.status (k : Kernel) : Byte := k.first.getD (if k.unrun then 0x0B else 0)

/-- Note the dies that have finished their share; the launch completes with the last (R49). -/
def kernelCheck (s : State) (kid : Nat) : State :=
  match tget? s.kernels kid with
  | none => s
  | some k =>
    let left := k.left.filter fun td => !shareDone s kid k td
    if left = [] then
      let s := { s with kernels := tdel s.kernels kid
                        tdies := s.tdies.map fun e => (e.1, { e.2 with pend := e.2.pend.filter (· != kid) }) }
      if k.stopped ∧ k.first.isNone then endCmd s k.cid 5 0x0F else finishCmd s k.cid k.status
    else { s with kernels := tset s.kernels kid { k with left := left } }

/-! ## Room for a block (R38 to R41, R45 to R47) -/

/-- Shape of a block: groups, width, registers per thread, granules. -/
structure BlockShape where
  groups : Nat
  width : Nat
  regs : Nat
  grans : Nat
deriving DecidableEq, Repr

/-- Registers of one group: W × A (R38). -/
def groupRegs (width regs : Nat) : Nat := width * (8 * ceilDiv regs 8)

/-- Is a block a team block? -/
def Block.isTeam (b : Block) : Bool := b.team.isSome

/-- The team block of a Spur, with its slot. -/
def Spur.teamBlock (p : Spur) : Option (Nat × Block) := p.blocks.find? fun e => e.2.isTeam

/-- Reservations and team blocks of a Spur whose groups are not placed: they hold group slots and registers all the same,
between entries too (R166 to R169). -/
def Spur.teamHolds (p : Spur) : List TeamHold := p.holds.filter fun h => p.groups.all fun e => e.2.blk != h.slot

/-- Groups of a hold on a lane unit. -/
def TeamHold.on (h : TeamHold) (u : Nat) : Nat := if u = h.big then ceilDiv h.groups 2 else h.groups / 2

/-- Registers in use on a lane unit. -/
def regsUsed (p : Spur) (u : Nat) : Nat :=
  (p.groups.filter fun e => e.2.unit == u).foldl (fun n e => n + groupRegs e.2.width e.2.nregs) 0
    + p.teamHolds.foldl (fun n h => n + h.on u * groupRegs h.width h.regs) 0

/-- Group slots in use on a lane unit: slots 0 to 15 are unit 0, 16 to 31 unit 1. -/
def slotsUsed (p : Spur) (u : Nat) : Nat :=
  (p.groups.filter fun e => e.2.unit == u).length + p.teamHolds.foldl (fun n h => n + h.on u) 0

/-- Lane unit that takes the larger half of a block (R39). -/
def largeUnit (p : Spur) : Nat :=
  if regsUsed p 1 < regsUsed p 0 then 1
  else if regsUsed p 0 < regsUsed p 1 then 0
  else if slotsUsed p 1 < slotsUsed p 0 then 1 else 0

/-- Lowest run of free granules among the 120 (R38). -/
def freeGrans (p : Spur) (n : Nat) : Option Nat :=
  (List.range (121 - n)).find? fun g => p.blocks.all fun e =>
    e.2.grans == 0 || n == 0 || g + n ≤ e.2.gran0 || e.2.gran0 + e.2.grans ≤ g

/-- Lowest block slot of the 16 that no block and no reservation holds. -/
def freeBlock (p : Spur) : Option Nat :=
  (List.range 16).find? fun b => (tget? p.blocks b).isNone && p.holds.all fun h => h.slot != b

/-- Block slots that blocks and reservations hold. -/
def blockSlotsUsed (p : Spur) : Nat := p.blocks.length + (p.holds.filter fun h => (tget? p.blocks h.slot).isNone).length

/-- Do the groups of a shape find slots and registers (R38, R39)? -/
def unitsFit (p : Spur) (b : BlockShape) : Bool :=
  let u := largeUnit p
  let v := 1 - u
  let big := ceilDiv b.groups 2
  let small := b.groups / 2
  let r := groupRegs b.width b.regs
  slotsUsed p u + big ≤ 16 && slotsUsed p v + small ≤ 16
    && regsUsed p u + big * r ≤ 32768 && regsUsed p v + small * r ≤ 32768

/-- Threads, groups and shape of a kernel's blocks. -/
def Kernel.threads (k : Kernel) : Nat := k.bx * k.by_ * k.bz
def Kernel.shape (k : Kernel) : BlockShape := ⟨ceilDiv k.threads k.width, k.width, k.regs, k.grans⟩

/-- Has every Spur of a die in a team's set started the team (R165)? A team that was stopped starts no more. -/
def teamStarted (s : State) (t : Team) (td : Nat) : Bool :=
  t.fault.isSome || match tget? s.former.residencies t.res with
    | some r => r.spurs.all fun sp => sp / 8 != td || t.started.contains sp
    | none => true

/-- The team whose turn has come on a Spur (R165, R166): in dispatch order, every earlier one started on the die. -/
def teamTurn (s : State) (sp : Nat) : Option Nat :=
  let td := sp / 8
  if (s.spur sp).teamBlock.isSome || spurTested s sp then none
  else
    match (s.tdie td).teams.find? fun tm => match tget? s.former.teams tm with
        | some t => !teamStarted s t td
        | none => false with
    | none => none
    | some tm =>
      match tget? s.former.teams tm with
      | some t =>
        if ((tget? s.former.residencies t.res).map fun r => r.spurs.contains sp).getD false && !t.started.contains sp
        then some tm else none
      | none => none

/-- Does a residency wait for its reservation on a Spur (R167)? -/
def holdTurn (s : State) (sp : Nat) : Bool :=
  s.former.residencies.any fun e =>
    e.2.pending && e.2.spurs.contains sp && (s.spur sp).holds.all fun h => h.res != e.1

/-- Can a Spur take the next block of a kernel (R38, R45, R47, R49, R166, R167)? -/
def spurFits (s : State) (k : Kernel) (sp : Nat) : Bool :=
  let p := s.spur sp
  let mine := p.blocks.filter fun e => e.2.team.isNone && e.2.kid == k.cid
  let others := p.blocks.filter fun e => e.2.team.isNone && e.2.kid != k.cid
  let shared := fun (e : Nat × Block) => e.2.ctrs == 0
  k.spurMask.getLsbD (sp % 8) && spurUp s sp && !spurTested s sp && (freeBlock p).isSome && unitsFit p k.shape && (freeGrans p k.grans).isSome
    && (k.maxBlocks == 0 || mine.length < k.maxBlocks)
    && (if k.ctrMode = 0 then others.isEmpty && p.teamBlock.isNone && p.holds.isEmpty else !others.any shared)
    && (teamTurn s sp).isNone && !holdTurn s sp

/-- Spur of a die that takes the next block of a kernel: most free block slots, then lowest number (R45). -/
def pickSpur (s : State) (k : Kernel) (td : Nat) : Option Nat :=
  ((spursOf td).filter (spurFits s k)).foldl (fun best sp =>
    match best with
    | none => some sp
    | some b => if blockSlotsUsed (s.spur sp) < blockSlotsUsed (s.spur b) then some sp else best) none

/-- Pending kernels of a die that still have blocks to start, oldest first (R46). -/
def pendingOn (s : State) (td : Nat) : List Kernel :=
  (s.tdie td).pend.filterMap fun kid =>
    match tget? s.kernels kid with
    | some k =>
      let n := k.dies.length
      if !k.stopped && tget k.next td 0 < shareCount k (k.dies.findIdx (· == td)) n then some k else none
    | none => none

/-- Count a release in which the oldest pending kernel's block did not fit (R46). -/
def noteRelease (s : State) (td : Nat) : State :=
  match pendingOn s td with
  | [] => modTdie s td fun t => { t with miss8 := 0 }
  | k :: _ => modTdie s td fun t => { t with
      miss8 := if (pickSpur s k td).isNone then t.miss8 + 1 else if 8 ≤ t.miss8 then t.miss8 else 0 }

/-! ## Placement (R38, R39, R48, R65) -/

/-- Lowest free group slots: slots 0 to 15 belong to lane unit 0, 16 to 31 to unit 1. -/
def slotFree (p : Spur) (u : Nat) : Option Nat :=
  ((List.range 16).map (16 * u + ·)).find? fun sl => (tget? p.groups sl).isNone

/-- Place the groups of a block from group number `i` on: even numbers on the unit of the larger half (R39). -/
def placeGroups (p : Spur) (blk big width regs threads : Nat) (entry : W64) : Nat → Nat → Spur
  | _, 0 => p
  | i, n + 1 =>
    let u := if i % 2 = 0 then big else 1 - big
    match slotFree p u with
    | none => p
    | some sl =>
      let live := min width (threads - i * width)
      let g : Group := { gid := p.nextId, blk := blk, idx := i, width := width, unit := u, nregs := regs, pc := entry,
                         active := BitVec.ofNat 64 (2 ^ live - 1) }
      placeGroups { p with groups := tset p.groups sl g, nextId := p.nextId + 1 } blk big width regs threads entry (i + 1) n

/-- Clear granules that another context last held (R48). -/
def clearGrans (p : Spur) (ctx : BitVec 16) (g n : Nat) : Spur :=
  let dirty := (List.range n).map (g + ·) |>.filter fun i => tget p.granCtx i 0 != ctx.toNat + 1
  { p with
    lmem := p.lmem.filter fun c => !dirty.contains (c.1 / 65536)
    granCtx := dirty.foldl (fun t i => tset t i (ctx.toNat + 1)) p.granCtx }

/-- Clear every valid bit of an L1; misses in flight are marked not-to-install (R73, R79). -/
def Spur.clearL1 (p : Spur) : Spur :=
  { p with
    l1 := p.l1.map fun e => (e.1, { e.2 with valid := 0, sec := [] })
    l1miss := p.l1miss.map fun m => { m with noLine := true } }

/-! ## Roped teams: entries of the schedule (R169) -/

/-- First byte of the staging area in a Spur's local memory, after the 120 granules. -/
abbrev stageBase : Nat := 120 * 65536

/-- Tensor dies of a set of Spurs, in increasing order. -/
def diesOf (spurs : List Nat) : List Nat := (List.range 16).filter fun td => spurs.any fun sp => sp / 8 == td

/-- Change a team. -/
def setTeam (s : State) (tm : Nat) (t : Team) : State :=
  { s with former := { s.former with teams := tset s.former.teams tm t } }

/-- Start an entry of the schedule on one Spur: the L1 is cleared, the counters go to 0, the header names the entry and
every group starts at ENTRY with its registers 0. -/
def entryStart (s : State) (r : Residency) (entry sp : Nat) : State :=
  modSpur s sp fun p =>
    match p.teamBlock with
    | none => p
    | some (slot, b) =>
      let big := ((p.holds.find? fun h => h.res == b.kid).map (·.big)).getD (largeUnit p)
      let p := if entry = 0 then p else p.clearL1
      let p := { p with
        blocks := tset p.blocks slot { b with idle := false, bars := [] }
        counters := p.counters.filter fun e => e.1 / 4 != slot
        lmem := memSet p.lmem (stageBase + 3) (BitVec.ofNat 8 entry) }
      placeGroups p slot big r.width r.regs (r.groups * r.width) (r.schedule.getD entry 0) 0 r.groups

/-- A launch unit starts the next entry when its own Spurs and every other die of the set have finished the entry
before (R169). -/
def entryNext (s : State) (tm td : Nat) : State :=
  match tget? s.former.teams tm with
  | none => s
  | some t =>
    match tget? s.former.residencies t.res with
    | none => s
    | some r =>
      let e := tget t.dieEntry td 0
      let own := r.spurs.filter fun sp => sp / 8 == td
      let here := own.all fun sp => t.started.contains sp
        && (match (s.spur sp).teamBlock with | some (_, b) => b.team == some tm && b.idle | none => false)
      let told := e == 0 || (diesOf r.spurs).all fun d => d == td || t.notices.contains (td, d, e - 1)
      if here && told && e < r.schedule.length && t.fault.isNone then
        own.foldl (fun s sp => entryStart s r e sp) s
      else s

/-- A die finishes an entry when each of its Spurs has: it notifies the other dies of the set (R169). -/
def entryDone (s : State) (tm td : Nat) : State :=
  match tget? s.former.teams tm with
  | none => s
  | some t =>
    match tget? s.former.residencies t.res with
    | none => s
    | some r =>
      let e := tget t.dieEntry td 0
      let own := r.spurs.filter fun sp => sp / 8 == td
      if own.all fun sp => match (s.spur sp).teamBlock with | some (_, b) => b.team == some tm && b.idle | none => false then
        let s := setTeam s tm { t with dieEntry := tset t.dieEntry td (e + 1), entry := max t.entry (e + 1) }
        let s := ((diesOf r.spurs).filter (· != td)).foldl (fun s d => send s (.entryDone d td tm e)) s
        entryNext s tm td
      else s

/-! ## The end of a block -/

/-- Are a block's stores acknowledged, as a package-scope release makes them (R169)? -/
def storesAcked (p : Spur) (b : Nat) : Bool := p.ops.all fun o => o.blk != b || o.acked

/-- Free a block whose groups have ended and whose copies, matrix instructions and Couloir commands have completed (R38,
R195). A team block ends an entry instead, and goes only when it was stopped (R169, R172). -/
def blockEnd (s : State) (sp b : Nat) : State :=
  let p := s.spur sp
  match tget? p.blocks b with
  | none => s
  | some k =>
    if (slotsOf p b).all (fun sl => ((tget? p.groups sl).map fun g => g.done || g.stop).getD true)
        ∧ p.copies.all (fun c => c.blk != b) ∧ p.mx.queue.all (fun i => i.blk != b)
        ∧ s.cl.cmds.all (fun e => e.2.sp != sp || e.2.blk != b) then
      if k.isTeam && !k.stopping then
        if k.idle || slotsOf p b == [] || !storesAcked p b then s
        else
          let s := modSpur s sp fun p => { p with
            groups := p.groups.filter fun e => e.2.blk != b
            blocks := tset p.blocks b { k with idle := true } }
          entryDone s (k.team.getD 0) (sp / 8)
      else
      let s := modSpur s sp fun p => { p with
        groups := p.groups.filter fun e => e.2.blk != b
        clBufs := p.clBufs.filter fun e => !(slotsOf p b).contains e.1
        blocks := tdel p.blocks b
        holds := if k.isTeam && !((tget? s.former.residencies k.kid).map (·.reserve)).getD false
          then p.holds.filter fun h => h.slot != b else p.holds }
      let s := noteRelease s (sp / 8)
      match k.team with
      | none => kernelCheck s k.kid
      | some tm =>
        match tget? s.former.teams tm with
        | some t => setTeam s tm { t with ended := setAdd t.ended sp }
        | none => s
    else s

/-- Keep or drop the copies of a stopped block: those already handed to memory complete, queued ones are dropped
(R81); which were handed over is a free value (log 12). -/
def dropCopies (s : State) (sp b : Nat) : State :=
  let d := drawFree s
  if (s.spur sp).copies.any (fun c => c.blk == b) then
    modSpur d.2 sp fun p => { p with
      copies := p.copies.filter fun c => c.blk != b || (c.row.isNone && d.1.getLsbD (c.id % 64)) }
  else s

/-- Stop every group of a block at its next issue (R81, R85). -/
def stopBlock (s : State) (sp b : Nat) : State :=
  let s := modSpur s sp fun p =>
    let slots := slotsOf p b
    let p := mxStop p slots
    { p with
      groups := p.groups.map fun e => if e.2.blk = b then (e.1, { e.2 with stop := true, wait := none }) else e
      blocks := p.blocks.map fun e => if e.1 = b then (e.1, { e.2 with stopping := true }) else e
      ops := p.ops.filter fun o => o.blk != b || (match o.kind with | .load _ => false | _ => true)
      clBufs := p.clBufs.filter fun e => !slots.contains e.1 }
  blockEnd (dropCopies s sp b) sp b

/-- Stop every resident block of a kernel (R81, R85). -/
def stopKernel (s : State) (kid : Nat) : State :=
  let s := { s with kernels := s.kernels.map fun e => if e.1 = kid then (e.1, { e.2 with stopped := true }) else e }
  let s := (List.range 128).foldl (fun s sp =>
    ((s.spur sp).blocks.filter fun e => e.2.team.isNone && e.2.kid == kid).foldl
      (fun s e => stopBlock s sp e.1) s) s
  kernelCheck s kid

/-- Stop every team block of a team, on every Spur of its set (R172). -/
def stopTeam (s : State) (tm : Nat) (status : Byte) : State :=
  match tget? s.former.teams tm with
  | none => s
  | some t =>
    let s := setTeam s tm { t with fault := t.fault.or (some status) }
    t.started.foldl (fun s sp =>
      match (s.spur sp).teamBlock with
      | some (slot, b) => if b.team = some tm then stopBlock s sp slot else s
      | none => s) s

/-- Status that goes with a group-fault cause (R83). -/
def faultStatus (cause : Nat) : Nat :=
  match cause with
  | 5 => 0x05
  | 6 => 0x04
  | 7 => 0x06
  | 8 | 9 => 0x07
  | 10 => 0x0C
  | 11 => 0x0B
  | _ => 0x0D

/-- Fault record of R82. -/
def faultRecord (b : Block) (sp slot gidx cause : Nat) (pc addr : W64) : List Byte :=
  body4 (faultStatus cause + cause * 2 ^ 8 + b.ctx.toNat * 2 ^ 16 + (16 + sp / 8) * 2 ^ 32 + sp % 8 * 2 ^ 37
          + slot * 2 ^ 40 + gidx * 2 ^ 44)
    pc.toNat addr.toNat (b.tag.toNat + b.num % 2 ^ 32 * 2 ^ 32)

/-- Record the first fault of a block (R82). -/
def recordFault (s : State) (sp slot : Nat) (b : Block) (gidx cause : Nat) (pc addr : W64) : State :=
  let told := b.fault.isSome || match b.team with
    | some tm => ((tget? s.former.teams tm).bind (·.fault)).isSome
    | none => false
  if told then s
  else
    let st := BitVec.ofNat 8 (faultStatus cause)
    let s := setBlock s sp slot { b with fault := some st }
    let s := raiseEvent s b.faultQueue 0x01 b.ctx (faultRecord b sp slot gidx cause pc addr)
    if b.team.isNone then
      { s with kernels := s.kernels.map fun e =>
          if e.1 = b.kid then (e.1, { e.2 with first := e.2.first.or (some st) }) else e }
    else s

/-- A group fault on block `slot`, blamed on group `gidx` (R81, R82). -/
def blockFault (s : State) (sp slot gidx cause : Nat) (pc addr : W64) : State :=
  match blockAt s sp slot with
  | none => s
  | some b =>
    let s := recordFault s sp slot b gidx cause pc addr
    match b.team with
    | some tm => stopTeam s tm (BitVec.ofNat 8 (faultStatus cause))
    | none =>
      let s := stopBlock s sp slot
      if b.stopBlockOnly then s else stopKernel s b.kid

/-- A group fault taken by the group in a slot. -/
def groupFault (s : State) (sp slot cause : Nat) (pc addr : W64) : State :=
  match groupAt s sp slot with
  | none => s
  | some g => blockFault s sp g.blk g.idx cause pc addr

/-! ## Issue (R36) -/

/-- Registers that outstanding loads and atomics of a group will write. -/
def pendingRegs (p : Spur) (gid : Nat) : List Nat :=
  (p.ops.filter fun o => o.gid == gid).flatMap fun o =>
    match o.kind with
    | .load vd | .atomic _ _ vd => if vd = 255 then [] else (List.range (ceilDiv o.size 4)).map (vd + ·)
    | _ => []

/-- Does a DS access of the group hold its next instruction (R200)? -/
def dsHeld (p : Spur) (gid : Nat) : Bool :=
  p.ops.any fun o => o.gid == gid && (match o.kind with | .store => true | _ => false)
    && o.lanes.any fun l => l.typ == 2 && l.st != .xlt

/-- Is a group held at a load that waits for a miss register of the L1 (R78)? -/
def l1Held (p : Spur) (gid : Nat) : Bool :=
  p.ops.any fun o => o.gid == gid && !o.direct && o.lanes.any fun l => l.typ == 0 && l.st == .ready

/-- The group in a slot when it may issue an instruction that reads and writes `regs` (R36): resident, not held by
a wait, and no register awaited. -/
def issuable (s : State) (sp slot : Nat) (regs : List Nat) : Option Group :=
  match groupAt s sp slot with
  | none => none
  | some g =>
    if g.done || g.stop || g.wait.isSome || g.active = 0 || dsHeld (s.spur sp) g.gid || l1Held (s.spur sp) g.gid
        || regs.any ((pendingRegs (s.spur sp) g.gid).contains ·) then none
    else some g

/-- R35: cause 0x02 when a register of the list lies beyond REGS. -/
def regsOk (g : Group) (regs : List Nat) : Bool := regs.all fun r => r == 255 || r < g.nregs

/-- What an instruction meets at issue: nothing when it is not ready; the lowest cause it meets (R84); else its
effect. `bad`: cause-0x01 conditions. -/
def issue (s : State) (sp slot : Nat) (regs : List Nat) (bad : Bool) (eff : Group → State) : State :=
  match issuable s sp slot regs with
  | none => s
  | some g =>
    if bad then groupFault s sp slot 1 g.pc 0
    else if !regsOk g regs then groupFault s sp slot 2 g.pc 0
    else
      let t := eff g
      if (s.spur sp).mx.arrayHit ∧ (s.spur sp).mx.seat = some slot
          ∧ ((groupAt t sp slot).map (·.stop)).getD true = false then groupFault s sp slot 11 g.pc 0
      else t

/-- A group after an instruction of one word: the next instruction (R51). -/
def Group.next (g : Group) : Group := g.goto (g.pc + 8)

end Sys2Proof.Machine
end

