-- ==== Sys2Proof/Machine/Operands.lean ====
section
/-! DEFINITION. Operand forms of the KTI instruction words (R86 to R88, R115): one record per format, read from
the 64-bit word, and the check that a word is of the class a command carries. -/

namespace Sys2Proof.Machine

/-- Bits [hi:lo] of an instruction word. -/
def wf (w : W64) (hi lo : Nat) : Nat := bits w.toNat hi lo

/-- Major opcode (R86). -/
def opOf (w : W64) : Nat := wf w 63 56

/-- Major opcodes that R86 and R114 assign. -/
def opAssigned (op : Nat) : Bool :=
  [1, 2, 8, 9, 0x0C, 0x10, 0x18, 0x19, 0x1A, 0x1B, 0x1C, 0x1D, 0x20, 0x21, 0x22, 0x23, 0x28, 0x29, 0x2A, 0x30, 0x31,
   0x32, 0x33, 0x38, 0x39, 0x3A, 0x3C, 0x40, 0x41, 0x42, 0x43, 0x44, 0x45, 0x46].contains op

/-- Format A fields (R87). -/
structure FmtA where
  scope : Nat
  func : Nat
  vd : Nat
  va : Nat
  vb : Nat
  vc : Nat
  pneg : Bool
  pred : Nat
  typ : Nat
  md : Nat
deriving DecidableEq, Repr

def fmtA (w : W64) : FmtA :=
  ⟨wf w 55 53, wf w 52 48, wf w 47 40, wf w 39 32, wf w 31 24, wf w 23 16, w.getLsbD 15, wf w 14 12, wf w 11 8, wf w 7 0⟩

/-- Format I fields. -/
structure FmtI where
  zero : Nat
  func : Nat
  vd : Nat
  va : Nat
  imm : W32
deriving DecidableEq, Repr

def fmtI (w : W64) : FmtI := ⟨wf w 55 53, wf w 52 48, wf w 47 40, wf w 39 32, w.setWidth 32⟩

/-- Format M fields; OFFSET is signed. -/
structure FmtM where
  scope : Nat
  order : Nat
  size : Nat
  cache : Nat
  vd : Nat
  va : Nat
  offset : W64
  pneg : Bool
  pred : Nat
  res0 : Nat
deriving DecidableEq, Repr

def fmtM (w : W64) : FmtM :=
  ⟨wf w 55 53, wf w 52 50, wf w 49 47, wf w 46 45, wf w 44 37, wf w 36 29,
   (BitVec.ofNat 13 (wf w 28 16)).signExtend 64, w.getLsbD 15, wf w 14 12, wf w 11 0⟩

/-- Format T fields. -/
structure FmtT where
  scope : Nat
  order : Nat
  aty : Nat
  aop : Nat
  vd : Nat
  va : Nat
  vb : Nat
  vc : Nat
  pneg : Bool
  pred : Nat
  res0 : Nat
deriving DecidableEq, Repr

def fmtT (w : W64) : FmtT :=
  ⟨wf w 55 53, wf w 52 50, wf w 49 47, wf w 46 43, wf w 42 35, wf w 34 27, wf w 26 19, wf w 18 11, w.getLsbD 10,
   wf w 9 7, wf w 6 0⟩

/-- Format C fields. -/
structure FmtC where
  scope : Nat
  toGlobal : Bool
  ctr : Nat
  size : Nat
  vg : Nat
  vl : Nat
  pneg : Bool
  pred : Nat
  res0 : Nat
deriving DecidableEq, Repr

def fmtC (w : W64) : FmtC :=
  ⟨wf w 55 53, w.getLsbD 52, wf w 51 46, wf w 45 44, wf w 43 36, wf w 35 28, w.getLsbD 15, wf w 14 12,
   wf w 27 16 + wf w 11 0⟩

/-- Format J fields; OFS is signed, in instruction words. -/
structure FmtJ where
  ofs : W64
  pneg : Bool
  pred : Nat
  res0 : Nat
deriving DecidableEq, Repr

def fmtJ (w : W64) : FmtJ :=
  ⟨(BitVec.ofNat 24 (wf w 39 16)).signExtend 64, w.getLsbD 15, wf w 14 12, wf w 55 40 + wf w 11 0⟩

/-- Run an instruction of major opcode `op`. A word with a reserved opcode is illegal (R86); a word of another class
is not this command's, and nothing happens (log 2). -/
def ofClass (s : State) (sp slot op : Nat) (w : W64) (eff : Unit → State) : State :=
  if opOf w = op then eff ()
  else if opAssigned (opOf w) then s
  else issue s sp slot [] true fun _ => s

/-- Replace the group in a slot by itself after the instruction. -/
def advance (s : State) (sp slot : Nat) (g : Group) : State := setGroup s sp slot g.next

/-- Registers n to n + k - 1, for R35; index 255 stands alone. -/
def run (n k : Nat) : List Nat := if n = 255 then [255] else (List.range k).map (n + ·)

/-! ## Local memory (R54) -/

/-- First byte of a block's local memory in the Spur. -/
def Block.base (b : Block) : Nat := b.gran0 * 65536

/-- Bytes of local memory. -/
def Block.localSize (b : Block) : Nat := b.grans * 65536

/-- Read `n` bytes of local memory. -/
def Spur.lread (p : Spur) (a n : Nat) : Nat := leNat (memRead p.lmem a n)

/-- Write `n` bytes of local memory. -/
def Spur.lwrite (p : Spur) (a n v : Nat) : Spur := { p with lmem := memWrite p.lmem a (leBytes n v) }

end Sys2Proof.Machine
end

