-- ==== Sys2Proof/Machine/Regs.lean ====
section
/-! DEFINITION. The register tables of control space, one row per register table of the manual, in the
manual's chapter order: name, dies, offset, stride and count of an array, width, fields. Field rows give bits,
access type (R4) and whether a warm reset keeps the field (R514). -/

namespace Sys2Proof.Machine
open FieldAcc DieSet

/-- Register tables of chapter 01. -/
def regTable01 : List RegSpec := [
  ⟨"DIE_ID", .every, 0x0, 0, 1, 32, 0x10000000,
   [⟨31, 28, ro, false⟩, ⟨27, 24, ro, false⟩, ⟨20, 16, ro, false⟩, ⟨15, 12, ro, false⟩]⟩,
  ⟨"HUB_MODULE_ID", .hub, 0x8, 0, 1, 64, 0x9100000400000000,
   [⟨63, 48, ro, false⟩, ⟨47, 38, ro, false⟩, ⟨37, 34, ro, false⟩, ⟨33, 30, ro, false⟩]⟩,
  ⟨"HUB_MODULE_SERIAL", .hub, 0x10, 0, 1, 64, 0x0,
   [⟨63, 0, ro, true⟩]⟩,
  ⟨"HUB_DIE_MAP", .hub, 0x18, 0, 1, 32, 0x1,
   [⟨31, 0, ro, true⟩]⟩,
  ⟨"HUB_SHAPE0", .hub, 0x20, 0, 1, 64, 0x8020108420020108,
   [⟨63, 58, ro, false⟩, ⟨57, 46, ro, false⟩, ⟨45, 42, ro, false⟩, ⟨41, 38, ro, false⟩, ⟨37, 30, ro, false⟩, ⟨29, 22, ro, false⟩, ⟨21, 10, ro, false⟩, ⟨9, 6, ro, false⟩, ⟨5, 2, ro, false⟩]⟩,
  ⟨"HUB_SHAPE1", .hub, 0x28, 0, 1, 64, 0x6618080420080000,
   [⟨63, 60, ro, false⟩, ⟨59, 54, ro, false⟩, ⟨53, 46, ro, false⟩, ⟨45, 36, ro, false⟩, ⟨35, 30, ro, false⟩, ⟨29, 22, ro, false⟩, ⟨21, 8, ro, false⟩]⟩,
  ⟨"HUB_SHAPE2", .hub, 0x30, 0, 1, 64, 0x9121800208800000,
   [⟨63, 59, ro, false⟩, ⟨58, 55, ro, false⟩, ⟨54, 50, ro, false⟩, ⟨49, 34, ro, false⟩, ⟨33, 29, ro, false⟩, ⟨28, 25, ro, false⟩, ⟨24, 21, ro, false⟩]⟩,
  ⟨"HUB_SHAPE3", .hub, 0x38, 0, 1, 64, 0x8001001001010200,
   [⟨63, 50, ro, false⟩, ⟨49, 38, ro, false⟩, ⟨37, 28, ro, false⟩, ⟨27, 20, ro, false⟩, ⟨19, 10, ro, false⟩, ⟨9, 0, ro, false⟩]⟩,
  ⟨"HUB_PANYX_SHAPE", .hub, 0x40, 0, 1, 32, 0x8012000,
   [⟨31, 20, ro, false⟩, ⟨19, 16, ro, false⟩, ⟨15, 8, ro, false⟩]⟩]

/-- Register tables of chapter 02. -/
def regTable02 : List RegSpec := [
  ⟨"TNS_L1_CFG", .tensor, 0x1000000, 0, 1, 32, 0xace10000,
   [⟨31, 16, rwl, false⟩, ⟨0, 0, rwl, false⟩]⟩]

/-- Register tables of chapter 03. -/
def regTable03 : List RegSpec := [
  ⟨"TNS_RAMP_CFG", .tensor, 0x1000008, 0, 1, 32, 0x1882,
   [⟨14, 10, rwl, false⟩, ⟨9, 5, rwl, false⟩, ⟨4, 0, rwl, false⟩]⟩,
  ⟨"TNS_ARRAY_MAP", .tensor, 0x1000010, 0, 1, 32, 0x0,
   [⟨31, 0, ro, true⟩]⟩]

/-- Register tables of chapter 04. -/
def regTable04 : List RegSpec := [
  ⟨"TNS_SR_SEED", .tensor, 0x1000018, 0, 1, 64, 0xf1e2d3c4b5a6978,
   [⟨63, 0, rwl, false⟩]⟩]

/-- Register tables of chapter 05. -/
def regTable05 : List RegSpec := [
  ⟨"HUB_TEAM_CLASS", .hub, 0x1300000, 4, 8, 32, 0xc8,
   [⟨13, 0, rwl, false⟩]⟩,
  ⟨"HUB_TEAM_DISPATCHED", .hub, 0x1300040, 0, 1, 64, 0x0,
   [⟨63, 0, ro, false⟩]⟩,
  ⟨"HUB_TEAM_LATE", .hub, 0x1300048, 0, 1, 64, 0x0,
   [⟨63, 0, ro, false⟩]⟩,
  ⟨"HUB_TEAM_OVF", .hub, 0x1300050, 0, 1, 32, 0x0,
   [⟨1, 1, w1c, false⟩, ⟨0, 0, w1c, false⟩]⟩]

/-- Register tables of chapter 06. -/
def regTable06 : List RegSpec := [
  ⟨"TNS_CL_PORT", .tensor, 0x1200000, 16, 4, 128, 0x0,
   [⟨127, 0, wo, false⟩]⟩,
  ⟨"MEM_CL_MAP", .memory, 0x1800000, 0, 1, 32, 0x0,
   [⟨15, 0, ro, true⟩]⟩,
  ⟨"MEM_CL_COMMANDS", .memory, 0x1800008, 0, 1, 64, 0x0,
   [⟨63, 0, ro, false⟩]⟩,
  ⟨"MEM_CL_PREEMPTS", .memory, 0x1800010, 0, 1, 64, 0x0,
   [⟨63, 0, ro, false⟩]⟩,
  ⟨"MEM_CL_OVF", .memory, 0x1800018, 0, 1, 32, 0x0,
   [⟨1, 1, w1c, false⟩, ⟨0, 0, w1c, false⟩]⟩]

/-- Register tables of chapter 08. -/
def regTable08 : List RegSpec := [
  ⟨"TNS_L2_CFG", .tensor, 0x1000020, 0, 1, 32, 0x5a3c0000,
   [⟨31, 16, rwl, false⟩]⟩,
  ⟨"CORE_L2_CFG", .core, 0x1000000, 0, 1, 32, 0x3c960000,
   [⟨31, 16, rwl, false⟩]⟩,
  ⟨"MEM_L3_CFG", .memory, 0x1100000, 0, 1, 32, 0xb4000030,
   [⟨31, 16, rwl, false⟩, ⟨6, 0, rwl, false⟩]⟩,
  ⟨"MEM_DIR_PROBE_ADDR", .memory, 0x1100008, 0, 1, 64, 0x0,
   [⟨51, 6, rw, false⟩]⟩,
  ⟨"MEM_DIR_PROBE_DATA", .memory, 0x1100010, 0, 1, 64, 0x0,
   [⟨63, 63, ro, false⟩, ⟨62, 62, ro, false⟩, ⟨61, 60, ro, false⟩, ⟨59, 59, ro, false⟩, ⟨47, 45, ro, false⟩, ⟨44, 39, ro, false⟩, ⟨38, 35, ro, false⟩, ⟨34, 29, ro, false⟩, ⟨28, 23, ro, false⟩, ⟨22, 17, ro, false⟩, ⟨16, 11, ro, false⟩]⟩,
  ⟨"MEM_COH_EVT", .memory, 0x1100020, 8, 4, 64, 0x0,
   [⟨63, 0, ro, false⟩]⟩,
  ⟨"MEM_COH_OVF", .memory, 0x1100040, 0, 1, 32, 0x0,
   [⟨3, 0, w1c, false⟩]⟩]

/-- Register tables of chapter 09. -/
def regTable09 : List RegSpec := [
  ⟨"HUB_CTX_TABLE", .hub, 0x1400000, 0, 1, 64, 0x0,
   [⟨51, 22, rwl, true⟩]⟩,
  ⟨"HUB_CTX_CMD", .hub, 0x1400008, 0, 1, 32, 0x0,
   [⟨19, 16, wo, false⟩, ⟨15, 0, wo, false⟩]⟩,
  ⟨"HUB_CTX_STATUS", .hub, 0x1400010, 0, 1, 32, 0x0,
   [⟨31, 31, ro, false⟩, ⟨30, 30, w1c, false⟩, ⟨23, 16, ro, false⟩, ⟨15, 0, ro, false⟩]⟩,
  ⟨"HUB_CLAIM_ARG", .hub, 0x1400018, 0, 1, 64, 0x0,
   [⟨43, 22, rw, false⟩, ⟨21, 0, rw, false⟩]⟩,
  ⟨"HUB_CLAIM_CMD", .hub, 0x1400020, 0, 1, 32, 0x0,
   [⟨19, 18, wo, false⟩, ⟨17, 16, wo, false⟩, ⟨15, 0, wo, false⟩]⟩,
  ⟨"HUB_CLAIM_STATUS", .hub, 0x1400028, 0, 1, 32, 0x0,
   [⟨31, 31, ro, false⟩, ⟨30, 30, w1c, false⟩, ⟨7, 0, ro, false⟩]⟩,
  ⟨"MEM_CLAIM_BASE", .memory, 0x1400000, 0, 1, 64, 0x0,
   [⟨51, 24, rwl, true⟩]⟩,
  ⟨"MEM_CLAIM_REFUSED", .memory, 0x1400008, 0, 1, 64, 0x0,
   [⟨63, 0, ro, false⟩]⟩,
  ⟨"MEM_XLT_WALKS", .memory, 0x1400010, 0, 1, 64, 0x0,
   [⟨63, 0, ro, false⟩]⟩,
  ⟨"MEM_XLT_OVF", .memory, 0x1400018, 0, 1, 32, 0x0,
   [⟨1, 1, w1c, false⟩, ⟨0, 0, w1c, false⟩]⟩]

/-- Register tables of chapter 10. -/
def regTable10 : List RegSpec := [
  ⟨"MEM_HBM_LAYOUT", .memory, 0x1600000, 0, 1, 32, 0x40,
   [⟨8, 0, rwl, true⟩]⟩,
  ⟨"MEM_PART_RATE", .memory, 0x1600100, 4, 64, 32, 0x40,
   [⟨31, 31, shd, true⟩, ⟨30, 16, shd, true⟩, ⟨15, 0, shd, true⟩]⟩,
  ⟨"MEM_PART_COMMIT", .memory, 0x1600080, 0, 1, 32, 0x0,
   [⟨0, 0, wo, false⟩]⟩,
  ⟨"MEM_HBM_STACK", .memory, 0x1600010, 4, 4, 32, 0x4000,
   [⟨31, 24, ro, true⟩, ⟨23, 22, ro, true⟩, ⟨21, 21, ro, true⟩, ⟨20, 20, ro, true⟩, ⟨19, 15, ro, true⟩, ⟨14, 14, ro, false⟩]⟩,
  ⟨"TIER_FLASH_STATUS", .tier, 0x1000000, 0, 1, 64, 0x3e8000,
   [⟨31, 24, ro, true⟩, ⟨23, 14, ro, true⟩, ⟨13, 13, ro, true⟩]⟩,
  ⟨"TIER_POOL_RANGE", .tier, 0x1000040, 8, 8, 64, 0x0,
   [⟨43, 22, rwl, true⟩, ⟨21, 0, rwl, true⟩]⟩,
  ⟨"TIER_POOL_BASE", .tier, 0x1000008, 0, 1, 64, 0x0,
   [⟨51, 28, rwl, true⟩]⟩,
  ⟨"TIER_POOL_WATER", .tier, 0x1000010, 0, 1, 64, 0x100020001000200,
   [⟨63, 48, rwl, true⟩, ⟨47, 32, rwl, true⟩, ⟨31, 16, rwl, true⟩, ⟨15, 0, rwl, true⟩]⟩,
  ⟨"TIER_QUOTA", .tier, 0x1000100, 0, 1, 64, 0x0,
   [⟨63, 48, shd, true⟩, ⟨47, 33, shd, true⟩, ⟨32, 18, shd, true⟩, ⟨17, 0, shd, true⟩]⟩,
  ⟨"TIER_QUOTA_COMMIT", .tier, 0x1000108, 0, 1, 32, 0x0,
   [⟨0, 0, wo, false⟩]⟩]

/-- Register tables of chapter 11. -/
def regTable11 : List RegSpec := [
  ⟨"HUB_KSL_CFG", .hub, 0x1500000, 256, 2, 32, 0x0,
   [⟨2, 2, rw, true⟩, ⟨1, 1, rwl, true⟩, ⟨0, 0, rwl, true⟩]⟩,
  ⟨"HUB_KSL_STAT", .hub, 0x1500008, 256, 2, 32, 0x0,
   [⟨31, 28, ro, false⟩, ⟨27, 26, ro, false⟩, ⟨25, 24, ro, false⟩, ⟨23, 14, ro, false⟩, ⟨13, 6, ro, false⟩, ⟨5, 5, w1c, false⟩]⟩,
  ⟨"HUB_KSL_EPOCH", .hub, 0x1500010, 256, 2, 64, 0x0,
   [⟨63, 32, ro, true⟩, ⟨31, 0, ro, true⟩]⟩,
  ⟨"HUB_KSL_REPLAYS", .hub, 0x1500018, 256, 2, 64, 0x0,
   [⟨63, 0, ro, false⟩]⟩,
  ⟨"HUB_KSL_ERR", .hub, 0x1500020, 256, 2, 32, 0x0,
   [⟨31, 16, rw, false⟩, ⟨15, 0, rw, false⟩]⟩]

/-- Register tables of chapter 12. -/
def regTable12 : List RegSpec := [
  ⟨"HUB_QUEUE_TABLE", .hub, 0x1600000, 0, 1, 64, 0x0,
   [⟨51, 24, rwl, true⟩]⟩,
  ⟨"HUB_QUEUE_CMD", .hub, 0x1600008, 0, 1, 32, 0x0,
   [⟨22, 20, wo, false⟩, ⟨17, 0, wo, false⟩]⟩,
  ⟨"HUB_QUEUE_STATUS", .hub, 0x1600010, 0, 1, 32, 0x0,
   [⟨31, 31, ro, false⟩, ⟨30, 30, w1c, false⟩, ⟨7, 0, ro, false⟩]⟩,
  ⟨"HUB_QUEUE_STATE", .hub, 0x1600018, 0, 1, 64, 0x0,
   [⟨63, 62, ro, false⟩, ⟨61, 60, ro, false⟩, ⟨59, 52, ro, false⟩, ⟨49, 49, ro, false⟩, ⟨48, 25, ro, false⟩, ⟨24, 0, ro, false⟩]⟩,
  ⟨"HUB_JOURNAL_BASE", .hub, 0x1700000, 0, 1, 64, 0x0,
   [⟨51, 27, rwl, true⟩]⟩,
  ⟨"HUB_JOURNAL_MIRROR", .hub, 0x1700008, 0, 1, 64, 0x0,
   [⟨51, 27, rwl, true⟩]⟩,
  ⟨"HUB_JOURNAL_HEAD", .hub, 0x1700010, 0, 1, 64, 0x0,
   [⟨63, 0, ro, true⟩]⟩,
  ⟨"HUB_QUEUE_ACCEPTED", .hub, 0x1600020, 0, 1, 64, 0x0,
   [⟨63, 0, ro, false⟩]⟩,
  ⟨"HUB_QUEUE_ERR", .hub, 0x1600028, 0, 1, 32, 0x0,
   [⟨31, 16, rw, false⟩, ⟨15, 0, rw, false⟩]⟩,
  ⟨"HUB_QUEUE_OVF", .hub, 0x1600030, 0, 1, 32, 0x0,
   [⟨0, 0, w1c, false⟩]⟩]

/-- Register tables of chapter 13. -/
def regTable13 : List RegSpec := [
  ⟨"FAB_PORT_CFG", .fabric, 0x1000000, 256, 4, 32, 0x0,
   [⟨2, 2, rwl, true⟩, ⟨1, 1, rw, true⟩, ⟨0, 0, rw, true⟩]⟩,
  ⟨"FAB_PORT_STAT", .fabric, 0x1000008, 256, 4, 32, 0x0,
   [⟨31, 28, ro, false⟩, ⟨27, 24, ro, false⟩, ⟨15, 0, rw, false⟩]⟩,
  ⟨"FAB_PEER_TABLE", .fabric11, 0x1100000, 0, 1, 64, 0x0,
   [⟨51, 14, rwl, true⟩]⟩,
  ⟨"FAB_PEER_CMD", .fabric11, 0x1100008, 0, 1, 32, 0x0,
   [⟨11, 8, wo, false⟩, ⟨7, 0, wo, false⟩]⟩,
  ⟨"FAB_PEER_STATUS", .fabric11, 0x1100010, 0, 1, 32, 0x0,
   [⟨31, 31, ro, false⟩, ⟨30, 30, w1c, false⟩, ⟨7, 0, ro, false⟩]⟩,
  ⟨"FAB_KFT_CFG", .fabric, 0x1000400, 0, 1, 32, 0x1410,
   [⟨23, 8, rwl, true⟩, ⟨4, 0, rwl, true⟩]⟩,
  ⟨"HUB_AG_TIME", .hub, 0x1800000, 0, 1, 64, 0x0,
   [⟨63, 0, ro, true⟩]⟩,
  ⟨"HUB_AG_CFG", .hub, 0x1800008, 0, 1, 32, 0x3e80010,
   [⟨31, 16, rwl, true⟩, ⟨15, 8, rwl, true⟩, ⟨5, 4, rwl, true⟩, ⟨3, 3, rwl, true⟩, ⟨2, 2, rwl, true⟩]⟩,
  ⟨"HUB_AG_STATUS", .hub, 0x1800010, 0, 1, 64, 0x0,
   [⟨63, 61, ro, true⟩, ⟨60, 60, w1c, false⟩, ⟨59, 59, w1c, false⟩, ⟨58, 55, ro, true⟩, ⟨31, 0, ro, true⟩]⟩,
  ⟨"FAB_EVT", .fabric, 0x1000500, 8, 3, 64, 0x0,
   [⟨63, 0, ro, false⟩]⟩,
  ⟨"FAB_ERR", .fabric, 0x1000520, 0, 1, 32, 0x0,
   [⟨31, 16, rw, false⟩, ⟨15, 0, rw, false⟩]⟩,
  ⟨"FAB_OVF", .fabric, 0x1000528, 0, 1, 32, 0x0,
   [⟨2, 0, w1c, false⟩]⟩]

/-- Register tables of chapter 14. -/
def regTable14 : List RegSpec := [
  ⟨"RIDGE_MAP", .every, 0x400000, 0, 1, 64, 0x0,
   [⟨63, 0, ro, true⟩]⟩,
  ⟨"ARB_CFG", .every, 0x400008, 0, 1, 32, 0x104000,
   [⟨31, 16, rwl, true⟩, ⟨15, 8, rwl, true⟩]⟩,
  ⟨"ARB_COMMIT", .every, 0x400010, 0, 1, 32, 0x0,
   [⟨0, 0, wo, false⟩]⟩,
  ⟨"ARB_PREEMPTS", .every, 0x400018, 0, 1, 64, 0x0,
   [⟨63, 0, ro, false⟩]⟩,
  ⟨"ARB_ERR", .every, 0x400020, 0, 1, 32, 0x0,
   [⟨31, 16, rw, false⟩, ⟨15, 0, rw, true⟩]⟩,
  ⟨"ARB_OVF", .every, 0x400028, 0, 1, 32, 0x0,
   [⟨0, 0, w1c, false⟩]⟩,
  ⟨"ARB_RANK", .every, 0x410000, 4, 193, 32, 0x0,
   [⟨2, 0, shd, true⟩, ⟨6, 4, shd, true⟩, ⟨10, 8, shd, true⟩, ⟨14, 12, shd, true⟩, ⟨18, 16, shd, true⟩, ⟨22, 20, shd, true⟩, ⟨26, 24, shd, true⟩, ⟨30, 28, shd, true⟩]⟩,
  ⟨"HUB_COL_WIN", .hub, 0x1900000, 8, 16, 64, 0x0,
   [⟨63, 63, rwl, true⟩, ⟨62, 62, rwl, true⟩, ⟨61, 61, rwl, true⟩, ⟨60, 56, rwl, true⟩, ⟨55, 16, rwl, true⟩, ⟨15, 0, rwl, true⟩]⟩,
  ⟨"HUB_COL_WIN", .hub, 0x1901000, 8, 16, 64, 0x0,
   [⟨63, 63, rwl, true⟩, ⟨62, 62, rwl, true⟩, ⟨61, 61, rwl, true⟩, ⟨60, 56, rwl, true⟩, ⟨55, 16, rwl, true⟩, ⟨15, 0, rwl, true⟩]⟩,
  ⟨"HUB_COL_FILTER", .hub, 0x1900080, 4096, 2, 64, 0x0,
   [⟨15, 0, rwl, true⟩, ⟨31, 16, rwl, true⟩, ⟨47, 32, rwl, true⟩, ⟨63, 48, rwl, true⟩]⟩,
  ⟨"HUB_COL_RATE", .hub, 0x1900088, 4096, 2, 32, 0x40,
   [⟨31, 16, rwl, true⟩, ⟨15, 0, rwl, true⟩]⟩,
  ⟨"HUB_COL_CTL", .hub, 0x1900090, 4096, 2, 32, 0x0,
   [⟨31, 31, wo, false⟩, ⟨30, 30, ro, true⟩, ⟨15, 0, rw, false⟩]⟩,
  ⟨"HUB_COL_VADDR", .hub, 0x1900098, 4096, 2, 64, 0x0,
   [⟨63, 63, w1c, false⟩, ⟨62, 62, ro, false⟩, ⟨61, 58, ro, false⟩, ⟨51, 0, ro, false⟩]⟩]

/-- Register tables of chapter 15. -/
def regTable15 : List RegSpec := [
  ⟨"DROOP_CFG", .every, 0x100010, 0, 1, 32, 0x10,
   [⟨7, 0, rwl, true⟩]⟩,
  ⟨"PWR_STATUS", .every, 0x100000, 0, 1, 64, 0x0,
   [⟨63, 48, ro, true⟩, ⟨47, 32, ro, false⟩, ⟨31, 16, ro, true⟩, ⟨15, 8, ro, true⟩, ⟨7, 6, ro, true⟩, ⟨5, 5, ro, false⟩, ⟨4, 4, ro, true⟩, ⟨3, 3, ro, true⟩, ⟨2, 2, w1c, false⟩]⟩,
  ⟨"PWR_CFG", .every, 0x100008, 0, 1, 32, 0x180,
   [⟨31, 22, rwl, true⟩, ⟨21, 12, rwl, true⟩, ⟨11, 8, rwl, true⟩, ⟨7, 7, rwl, true⟩]⟩,
  ⟨"PWR_DROOPS", .every, 0x100018, 0, 1, 64, 0x0,
   [⟨63, 0, ro, false⟩]⟩,
  ⟨"PWR_ERR", .every, 0x100020, 0, 1, 32, 0x0,
   [⟨31, 16, rw, false⟩, ⟨15, 0, rw, false⟩]⟩,
  ⟨"HUB_TREELINE_CAP", .hub, 0x100100, 0, 1, 32, 0x78,
   [⟨8, 0, shd, true⟩]⟩,
  ⟨"HUB_TREELINE_COMMIT", .hub, 0x100108, 0, 1, 32, 0x0,
   [⟨0, 0, wo, false⟩]⟩,
  ⟨"HUB_PWR_INPUT", .hub, 0x100110, 0, 1, 64, 0xee00,
   [⟨63, 48, ro, true⟩, ⟨47, 32, ro, true⟩, ⟨31, 16, ro, true⟩, ⟨15, 8, ro, true⟩]⟩,
  ⟨"HUB_PWR_STATE", .hub, 0x100118, 0, 1, 32, 0x3c000000,
   [⟨31, 23, ro, true⟩, ⟨22, 22, ro, true⟩, ⟨21, 21, w1c, false⟩, ⟨20, 20, w1c, false⟩, ⟨19, 12, ro, true⟩]⟩]

/-- Register tables of chapter 16. -/
def regTable16 : List RegSpec := [
  ⟨"LOCK_SET", .every, 0x100080, 0, 1, 32, 0x0,
   [⟨18, 3, wo, false⟩, ⟨2, 2, wo, false⟩, ⟨1, 1, wo, false⟩, ⟨0, 0, wo, false⟩]⟩,
  ⟨"LOCK_STATE", .every, 0x100088, 0, 1, 32, 0x0,
   [⟨31, 31, ro, false⟩, ⟨18, 0, ro, false⟩]⟩,
  ⟨"HUB_SEC_REQ", .hub, 0x1a00000, 0, 1, 64, 0x0,
   [⟨63, 52, wo, false⟩, ⟨51, 4, wo, false⟩, ⟨3, 0, wo, false⟩]⟩,
  ⟨"HUB_SEC_STATUS", .hub, 0x1a00008, 0, 1, 64, 0x0,
   [⟨63, 63, ro, false⟩, ⟨62, 62, w1c, false⟩, ⟨61, 54, ro, false⟩, ⟨53, 51, ro, true⟩, ⟨50, 50, ro, true⟩, ⟨49, 49, ro, true⟩, ⟨48, 43, ro, true⟩, ⟨42, 41, ro, true⟩, ⟨40, 37, ro, true⟩, ⟨36, 34, ro, true⟩]⟩,
  ⟨"HUB_RESET_CMD", .hub, 0x1a00100, 0, 1, 32, 0x0,
   [⟨31, 28, wo, false⟩, ⟨20, 16, wo, false⟩, ⟨15, 0, wo, false⟩]⟩,
  ⟨"HUB_RESET_STATUS", .hub, 0x1a00108, 0, 1, 32, 0x0,
   [⟨31, 31, ro, false⟩, ⟨30, 30, w1c, false⟩, ⟨7, 0, ro, false⟩]⟩]

/-- Register tables of chapter 17. -/
def regTable17 : List RegSpec := [
  ⟨"UNIT_MAP", .every, 0x200000, 8, 3, 64, 0x0,
   [⟨63, 0, ro, true⟩]⟩,
  ⟨"HUB_CAPACITY0", .hub, 0x200120, 0, 1, 64, 0xc008008080203000,
   [⟨63, 52, ro, true⟩, ⟨51, 40, ro, true⟩, ⟨39, 32, ro, true⟩, ⟨31, 22, ro, true⟩, ⟨21, 14, ro, true⟩, ⟨13, 7, ro, true⟩]⟩,
  ⟨"HUB_CAPACITY1", .hub, 0x200128, 0, 1, 64, 0x6000000000000000,
   [⟨63, 48, ro, true⟩, ⟨47, 40, ro, true⟩, ⟨39, 32, ro, true⟩]⟩,
  ⟨"HUB_SCREE_CFG", .hub, 0x200200, 0, 1, 32, 0x18000c,
   [⟨31, 16, rwl, true⟩, ⟨15, 0, rwl, true⟩]⟩,
  ⟨"HUB_SCREE_STATUS", .hub, 0x200208, 0, 1, 64, 0x0,
   [⟨63, 63, w1c, false⟩, ⟨62, 62, w1c, false⟩, ⟨47, 40, ro, false⟩, ⟨39, 32, ro, false⟩, ⟨31, 16, rw, false⟩, ⟨15, 0, rw, false⟩]⟩,
  ⟨"HUB_CAIRN_CFG", .hub, 0x200210, 0, 1, 32, 0x3c3c0a00,
   [⟨31, 24, rwl, true⟩, ⟨23, 16, rwl, true⟩, ⟨15, 8, rwl, true⟩]⟩,
  ⟨"HUB_SELFTEST_CMD", .hub, 0x200300, 0, 1, 64, 0x0,
   [⟨63, 32, wo, false⟩, ⟨31, 31, wo, false⟩]⟩,
  ⟨"HUB_SELFTEST_STATUS", .hub, 0x200308, 0, 1, 64, 0x0,
   [⟨63, 63, ro, false⟩, ⟨62, 62, w1c, false⟩, ⟨61, 54, ro, false⟩, ⟨31, 0, ro, false⟩]⟩,
  ⟨"HUB_REL_QUEUE", .hub, 0x200100, 0, 1, 64, 0x0,
   [⟨63, 48, rw, false⟩, ⟨18, 18, rwl, true⟩, ⟨17, 0, rwl, true⟩]⟩,
  ⟨"HUB_REL_THRESH", .hub, 0x200108, 0, 1, 32, 0x318,
   [⟨15, 8, rwl, true⟩, ⟨7, 0, rwl, true⟩]⟩,
  ⟨"HUB_TEL_CFG", .hub, 0x200400, 0, 1, 64, 0x0,
   [⟨63, 56, rwl, true⟩, ⟨55, 52, rwl, true⟩, ⟨51, 12, rwl, true⟩]⟩,
  ⟨"HUB_TEL_HEAD", .hub, 0x200408, 0, 1, 32, 0x0,
   [⟨31, 0, ro, true⟩]⟩,
  ⟨"HUB_REL_FATAL", .hub, 0x200110, 0, 1, 64, 0x0,
   [⟨63, 63, w1c, true⟩, ⟨62, 60, ro, true⟩, ⟨59, 55, ro, true⟩]⟩,
  ⟨"HUB_REL_FATAL_TIME", .hub, 0x200118, 0, 1, 64, 0x0,
   [⟨63, 0, ro, true⟩]⟩]

/-- Every register table of the manual. -/
def regTable : List RegSpec :=
  regTable01 ++ regTable02 ++ regTable03 ++ regTable04 ++ regTable05 ++ regTable06 ++ regTable08 ++ regTable09 ++ regTable10 ++ regTable11 ++ regTable12 ++ regTable13 ++ regTable14 ++ regTable15 ++ regTable16 ++ regTable17

end Sys2Proof.Machine
end

