-- ==== Sys2Proof/Machine/RegFile.lean ====
section
/-! DEFINITION. Reads of control-space registers (R4, R8, R267) and the register write on its way to a window. -/

namespace Sys2Proof.Machine

/-- Does a die hold a register of a die set? -/
def DieSet.holds (d : DieSet) (die : Nat) : Bool :=
  match d with
  | .hub => die == 0
  | .core => 1 ≤ die && die ≤ 4
  | .memory => 5 ≤ die && die ≤ 10
  | .fabric => die == 11 || die == 12
  | .fabric11 => die == 11
  | .tier => die == 13
  | .tensor => 16 ≤ die
  | .every => true

/-- Does a register table hold an offset? -/
def RegSpec.at (r : RegSpec) (off : Nat) : Bool :=
  if r.count = 1 then off == r.off
  else r.off ≤ off && (off - r.off) % r.stride == 0 && (off - r.off) / r.stride < r.count

/-- Register table of an offset in a die's window, accessed at a width (R8). -/
def regFind (die off width : Nat) : Option RegSpec :=
  regTable.find? fun r => r.dies.holds die && r.width == width && r.at off

/-- Value of a field as a read returns it (R4). -/
def readField (eff shadow : Nat) (f : FieldSpec) : Nat :=
  match f.acc with
  | .wo => 0
  | .shd => bits shadow f.hi f.lo * 2 ^ f.lo
  | _ => bits eff f.hi f.lo * 2 ^ f.lo

/-- Read of a register: 0 where no register is, at another width, or on a die out of service (R8, R28, R267). HUB_AG_TIME reads Alpenglow time. -/
def regRead (s : State) (die off width : Nat) : Nat :=
  match (if dieUp s die then regFind die off width else none) with
  | none => 0
  | some r =>
    if die = 0 ∧ off = 0x1800000 then s.time.toNat
    else
      let eff := (regRaw s die off r.cold).toNat
      let sh := match tget? s.shadow (regKey die off) with
        | some v => v.toNat
        | none => eff
      r.fields.foldl (fun n f => n + readField eff sh f) 0

/-- Value of a register after a warm or a die reset: kept fields stay, every other field takes its cold value, which the
manual's tables give as the warm value too (R514). -/
def warmValue (r : RegSpec) (cur cold : Nat) : Nat :=
  r.fields.foldl (fun v f => if f.kept then setBits v f.hi f.lo (bits cur f.hi f.lo) else v) cold

/-- A register of the table after a warm or die reset of its die; none: no register is there. -/
def regWarm1 (pc die : Nat) (e : Nat × W64) : Option (Nat × W64) :=
  if e.1 / 2 ^ 28 = die then
    let off := e.1 % 2 ^ 28
    (regTable.find? fun r => r.dies.holds die && r.at off).map fun r =>
      (e.1, BitVec.ofNat 64 (warmValue r e.2.toNat ((specialCold pc die off).getD (BitVec.ofNat 64 r.cold)).toNat))
  else some e

/-- Every register of a die takes its warm-reset value (R514); LIMIT takes that of GRANT. -/
def regWarm (s : State) (die : Nat) : State :=
  let s := { s with regs := s.regs.filterMap (regWarm1 s.boot.fuses.partner die) }
  setFld s die R.PWR_STATUS_LIMIT (fld s die R.PWR_STATUS_GRANT)

end Sys2Proof.Machine
end

