-- ==== Sys2Proof/Machine/SpurMem.lean ====
section
/-! DEFINITION. Accesses of thread groups (chapter 02, with 07 to 09): global and local loads, stores and atomics,
cache maintenance, fences, the Spur's L1, TLBs and the waits that an access ends. -/

namespace Sys2Proof.Machine

/-! ## Operations in flight -/

/-- Operation of a Spur by number. -/
def opAt (s : State) (sp id : Nat) : Option MemOp := (s.spur sp).ops.find? fun o => o.id == id

/-- Replace an operation. -/
def setOp (s : State) (sp : Nat) (o : MemOp) : State :=
  modSpur s sp fun p => { p with ops := p.ops.map fun x => if x.id = o.id then o else x }

/-- Remove an operation. -/
def delOp (s : State) (sp id : Nat) : State :=
  modSpur s sp fun p => { p with ops := p.ops.filter fun x => x.id != id }

/-- A deferred or immediate fault of an operation (R516): it writes nothing, and its group's block stops. -/
def opFault (s : State) (sp : Nat) (o : MemOp) (cause : Nat) (addr : W64) : State :=
  let s := delOp s sp o.id
  match groupAt s sp o.slot with
  | some g => if g.gid = o.gid then blockFault s sp o.blk g.idx cause o.pc addr else s
  | none => s

/-- Region L2 of a Spur, as a caching agent (R236). -/
def regionOf (sp : Nat) : Nat := 32 + sp / 4

/-- Name of an operation in the messages it sends. -/
def opKey (sp id : Nat) : Nat := 1 + sp * 2 ^ 32 + id

/-- Does an operation return values? -/
def MemOp.loads (o : MemOp) : Bool :=
  match o.kind with
  | .load _ | .atomic .. => true
  | _ => false

/-- Is a lane done, or sent to a host or peer window? -/
def MemLane.gone (l : MemLane) : Bool :=
  l.st == .done || (l.st == .sent && (match region l.pa with | .host _ | .peer .. => true | _ => false))

/-- Have the earlier accesses of a group been performed as far as a release at a scope asks (R72)? `all`: its loads too. -/
def settledAt (p : Spur) (gid scope : Nat) : Bool :=
  p.ops.all fun o => o.gid != gid ||
    (!o.loads && (if scope ≤ 1 then o.lanes.all (·.gone) else if scope ≤ 4 then o.acked && o.lanes.all (·.gone) else false))

/-- Is a fence of a kind and scope complete (R72, R73)? -/
def fenceReady (p : Spur) (gid kind scope : Nat) : Bool :=
  if kind = 0 then p.ops.all fun o => o.gid != gid || !o.loads else settledAt p gid scope

/-- Does an acquire of the group hold its later accesses (R73)? -/
def acquireHeld (p : Spur) (gid : Nat) : Bool :=
  p.ops.any fun o => o.gid == gid && (o.order == 1 || o.order == 3)

/-! ## The L1 (R73 to R79) -/

/-- Clear one sector of a context's line, and mark it in the misses in flight (R79). -/
def Spur.clearSector (p : Spur) (pa : Nat) (ctx : BitVec 16) : Spur :=
  let blk := pa / 256
  let sec := pa / 64 % 4
  let m : BitVec 4 := BitVec.ofNat 4 (2 ^ sec)
  { p with
    l1 := p.l1.map fun e => if e.2.blk = blk ∧ e.2.ctx = ctx then (e.1, { e.2 with valid := e.2.valid &&& ~~~m }) else e
    l1miss := p.l1miss.map fun x => if x.blk = blk ∧ x.ctx = ctx then { x with noSec := x.noSec ||| (m &&& x.req) } else x }

/-- Seed of a Spur's LFSR (TNS_L1_CFG). -/
def spurSeed (s : State) (sp : Nat) : BitVec 16 :=
  seedOr1 (BitVec.ofNat 16 (fld s (16 + sp / 8) R.TNS_L1_CFG_LFSR_SEED) ^^^ BitVec.ofNat 16 (sp % 8 * 0x1111))

/-- Data of a valid sector (R74). -/
def Spur.l1Hit (p : Spur) (pa : Nat) (ctx : BitVec 16) : Option Line :=
  match p.l1.find? fun e => e.2.blk == pa / 256 && e.2.ctx == ctx with
  | some e => if e.2.valid.getLsbD (pa / 64 % 4) then some (tget e.2.sec (pa / 64 % 4) 0) else none
  | none => none

/-- Has a way a miss in flight? -/
def Spur.wayBusy (p : Spur) (key : Nat) : Bool := p.l1miss.any fun m => m.way == some key

/-- Way for a new miss (R76): the line's own way, the lowest invalid way, or a way by LFSR; none when all eight have
misses in flight. The flag: the LFSR steps. -/
def Spur.l1Way (p : Spur) (seed : BitVec 16) (pa : Nat) (ctx : BitVec 16) : Option Nat × Bool :=
  let blk := pa / 256
  let set := blk % 128
  match p.l1.find? fun e => e.2.blk == blk && e.2.ctx == ctx && e.2.valid != 0 with
  | some e => (some e.1, false)
  | none =>
    let keys := (List.range 8).map (set * 8 + ·)
    let invalid := fun k => !p.wayBusy k && ((tget? p.l1 k).map (·.valid == 0)).getD true
    match keys.find? invalid with
    | some k => (some k, false)
    | none =>
      let w := (lfsrVal p.lfsr seed).toNat % 8
      (((List.range 8).map fun i => set * 8 + (w + i) % 8).find? fun k => !p.wayBusy k, true)

/-- A load operation asks for a sector: merge into a miss register or take one (R76 to R79). None: held. -/
def Spur.l1Request (p : Spur) (seed : BitVec 16) (id pa : Nat) (ctx : BitVec 16) : Option Spur :=
  let blk := pa / 256
  let sec := pa / 64 % 4
  let m : BitVec 4 := BitVec.ofNat 4 (2 ^ sec)
  match p.l1miss.find? fun x => x.blk == blk && x.ctx == ctx && !x.noLine && !x.noSec.getLsbD sec with
  | some x =>
    if x.waiters.contains (id, sec) then some p
    else if 16 ≤ x.waiters.length then none
    else
      let y := { x with req := x.req ||| m, waiters := x.waiters ++ [(id, sec)] }
      some { p with l1miss := p.l1miss.map fun z => if z = x then y else z }
  | none =>
    if 32 ≤ p.l1miss.length then none
    else
      let w := p.l1Way seed pa ctx
      let fresh : L1Line := { blk := blk, ctx := ctx }
      let l1 := match w.1 with
        | some k => match tget? p.l1 k with
          | some e => if e.blk = blk ∧ e.ctx = ctx ∧ e.valid ≠ 0 then p.l1 else tset p.l1 k fresh
          | none => tset p.l1 k fresh
        | none => p.l1
      some { p with
        l1 := l1
        lfsr := if w.2 then lfsrStep (lfsrVal p.lfsr seed) else p.lfsr
        l1miss := p.l1miss ++ [{ blk := blk, ctx := ctx, way := w.1, req := m, waiters := [(id, sec)] }] }

/-! ## TLBs (R273, R274) -/

/-- Permission that a kind needs: 0 none, 1 R, 2 W (R272, R262). -/
def MemKind.need : MemKind → Nat
  | .load _ => 1
  | .store | .atomic .. => 2
  | .maint f => if f = 5 then 1 else if 2 ≤ f.toNat ∧ f.toNat ≤ 4 then 2 else 0

/-- Does an entry grant the permission? -/
def TlbEntry.grants (e : TlbEntry) (need : Nat) : Bool :=
  if need = 0 then true else if need = 1 then e.r else e.w && e.d

/-- Entry of a Spur's micro-TLB or of its die's TLB. -/
def tlbFind (s : State) (sp : Nat) (ctx : BitVec 16) (va : W64) : Option TlbEntry :=
  ((s.spur sp).utlb.find? (·.hits ctx va)).or ((s.tdie (sp / 8)).tlb.find? (·.hits ctx va))

/-- Do two entries translate one page for one context? -/
def TlbEntry.same (x e : TlbEntry) : Bool := x.ctx == e.ctx && x.sh == e.sh && x.vpn == e.vpn

/-- Install an entry in a micro-TLB of 64, replacing by the Spur's LFSR. -/
def Spur.utlbPut (p : Spur) (seed : BitVec 16) (e : TlbEntry) : Spur :=
  if p.utlb.any (·.same e) then { p with utlb := p.utlb.map fun x => if x.same e then e else x }
  else if p.utlb.length < 64 then { p with utlb := p.utlb ++ [e] }
  else
    let x := lfsrVal p.lfsr seed
    { p with utlb := p.utlb.set (x.toNat % 64) e, lfsr := lfsrStep x }

/-- Install an entry in a die TLB of 1,024 sets and 8 ways, replacing by its own LFSR. -/
def TensorDie.tlbPut (t : TensorDie) (e : TlbEntry) : TensorDie :=
  if t.tlb.any (·.same e) then { t with tlb := t.tlb.map fun x => if x.same e then e else x }
  else
    let set := if t.tlb.length < 8 then [] else t.tlb.filter fun x => Config.tlbSet x.sh x.vpn == Config.tlbSet e.sh e.vpn
    if set.length < 8 then { t with tlb := t.tlb ++ [e] }
    else
      let v := set.getD (t.tlbLfsr.toNat % 8) e
      { t with tlb := t.tlb.map fun x => if x = v then e else x, tlbLfsr := lfsrStep t.tlbLfsr }

/-- Stream of a group slot on its die. -/
def streamOf (sp slot : Nat) : Nat := sp % 8 * 32 + slot

/-- Queue a miss, merging by 4 KiB page; a full queue takes nothing (R274). -/
def missPut (q : List MissEntry) (ctx : BitVec 16) (va : W64) : List MissEntry :=
  if q.any (fun m => m.ctx == ctx && m.va.toNat / 4096 == va.toNat / 4096) || 16 ≤ q.length then q
  else q ++ [{ ctx := ctx, va := va }]

/-- What a translation gives a lane: the lane ready, or a fault cause. -/
def laneThrough (o : MemOp) (l : MemLane) (e : TlbEntry) : Sum MemLane Nat :=
  let need := o.kind.need
  if !e.grants need then .inr 5
  else if need == 2 && !e.wok then .inr 6
  else
    let pa := e.addr l.va
    .inl { l with pa := pa, typ := typeAt pa e.pbmt, st := .ready }

/-- Is a fault of a lane of this operation dropped (R262)? -/
def MemOp.silent (o : MemOp) : Bool :=
  match o.kind with
  | .maint f => f == 0 || f == 5
  | _ => false

/-- Translate the lanes of an operation: through the TLBs, or by queueing misses. A lane that an entry refuses for want
of a page-table permission walks again, since no fault is installed (R273). -/
def opXlate (s : State) (sp : Nat) (o : MemOp) : Sum (State × MemOp) (Nat × W64) :=
  o.lanes.foldl (fun acc l =>
    match acc with
    | .inr f => .inr f
    | .inl (s, o) =>
      if l.st != .xlt then .inl (s, o)
      else
        match tlbFind s sp o.ctx l.va with
        | some e =>
          match laneThrough o l e with
          | .inl l' => .inl (modSpur s sp fun p => p.utlbPut (spurSeed s sp) e,
              { o with lanes := o.lanes.map fun x => if x.lane = l.lane then l' else x })
          | .inr 6 =>
            if o.silent then .inl (s, { o with lanes := o.lanes.map fun x => if x.lane = l.lane then { x with st := .done } else x })
            else .inr (6, l.va)
          | .inr _ => .inl (modTdie s (sp / 8) fun t => { t with
              streams := tmod t.streams (streamOf sp o.slot) [] fun q => missPut q o.ctx l.va }, o)
        | none => .inl (modTdie s (sp / 8) fun t => { t with
            streams := tmod t.streams (streamOf sp o.slot) [] fun q => missPut q o.ctx l.va }, o))
    (.inl (s, o))

/-! ## Performing an operation -/

/-- Every lane translated? -/
def MemOp.translated (o : MemOp) : Bool := o.lanes.all fun l => l.st != .xlt

/-- DS accesses of one thread keep program order (R212). -/
def dsBlocked (p : Spur) (o : MemOp) : Bool :=
  (p.ops.takeWhile fun q => q.id != o.id).any fun q => q.gid == o.gid && q.lanes.any fun l => l.typ == 2 && l.st != .done

/-- Value of `n` bytes at an offset of a line. -/
def lineValue (d : Line) (o n : Nat) : BitVec 128 := BitVec.ofNat 128 (leNat (((lineBytes d).drop o).take n))

/-- An L1 load: a plain load of NC memory that is not direct (R213). -/
def MemOp.l1Lane (o : MemOp) (l : MemLane) : Bool := !o.direct && l.typ == 0

/-- Look a lane up in the L1, or take a miss register and ask the region L2 (R74 to R78). -/
def l1Load (s : State) (sp : Nat) (o : MemOp) (l : MemLane) : State × MemLane :=
  let p := s.spur sp
  match p.l1Hit l.pa o.ctx with
  | some d => (s, { l with st := .done, data := lineValue d (l.pa % 64) o.size })
  | none =>
    match p.l1Request (spurSeed s sp) o.id l.pa o.ctx with
    | some p' => (agentWantRead (modSpur s sp fun _ => p') (regionOf sp) (l.pa / 64) o.ctx, { l with st := .miss })
    | none => (s, l)

/-- Replace a lane of an operation. -/
def MemOp.setLane (o : MemOp) (l : MemLane) : MemOp :=
  { o with lanes := o.lanes.map fun x => if x.lane = l.lane then l else x }

/-- Go through the ready lanes of an operation; the step answers the new lane, or a fault cause. -/
def eachLane (s : State) (sp : Nat) (o : MemOp) (want : MemLane → Bool)
    (f : State → MemOp → MemLane → State × Sum MemLane Nat) : Sum (State × MemOp) (State × Nat × W64) :=
  o.lanes.foldl (fun acc l0 =>
    match acc with
    | .inr e => .inr e
    | .inl (s, o) =>
      match o.lanes.find? (fun x => x.lane == l0.lane) with
      | some l =>
        if l.st == .ready && want l && !lineBlocked (s.spur sp) o (l.pa / 64) then
          match f s o l with
          | (s, .inl l') => let o := o.setLane l'; .inl (setOp s sp o, o)
          | (s, .inr c) => .inr (s, c, l.va)
        else .inl (s, o)
      | none => .inl (s, o)) (.inl (s, o))

/-- Release the groups whose fence is complete (R72); an acquire at cluster scope or wider clears the L1 (R73). -/
def fenceCheck (s : State) (sp : Nat) : State :=
  modSpur s sp fun p =>
    let ready := fun (g : Group) => match g.wait with
      | some (.fence k sc) => fenceReady p g.gid k.toNat sc.toNat
      | _ => false
    let clears := p.groups.any fun e => ready e.2 && (match e.2.wait with
      | some (.fence k sc) => k != 1 && sc != 0
      | _ => false)
    let p := { p with groups := p.groups.map fun e => if ready e.2 then (e.1, e.2.resume) else e }
    if clears then p.clearL1 else p

/-- Look at a team block again, whose entry may be done with its stores (R169). -/
def teamSettle (s : State) (sp : Nat) : State :=
  match (s.spur sp).teamBlock with
  | some (slot, _) => blockEnd s sp slot
  | none => s

/-- Write the values of a finished load or atomic into the group's registers. -/
def writeBack (g : Group) (o : MemOp) (vd : Nat) : Group :=
  o.lanes.foldl (fun g l =>
    if vd = 255 then g
    else (List.range (ceilDiv o.size 4)).foldl (fun g i =>
      g.wr l.lane (vd + i) (BitVec.ofNat 32 (l.data.toNat / 2 ^ (32 * i)))) g) g

/-- An operation with every lane done ends: registers are written, an acquire clears the L1, waiting fences are looked
at again. -/
def opEnd (s : State) (sp : Nat) (o : MemOp) : State :=
  let s := delOp s sp o.id
  let s := match groupAt s sp o.slot, o.kind with
    | some g, .load vd | some g, .atomic _ _ vd =>
      if g.gid = o.gid ∧ !g.stop ∧ !g.done then setGroup s sp o.slot (writeBack g o vd) else s
    | _, _ => s
  let s := if (o.order == 1 || o.order == 3) && o.scope != 0 then modSpur s sp Spur.clearL1 else s
  teamSettle (fenceCheck s sp) sp

/-- End a load or atomic whose lanes are all done; a store ends at its acknowledgement. -/
def opCheck (s : State) (sp : Nat) (o : MemOp) : State :=
  let o := (opAt s sp o.id).getD o
  if o.loads && o.lanes.all (·.st == .done) then opEnd s sp o else s

/-- Settle a fold over lanes: store the operation, or take its fault. -/
def opSettle (sp : Nat) (r : Sum (State × MemOp) (State × Nat × W64)) (o : MemOp) : State :=
  match r with
  | .inl (s, o) => opCheck s sp o
  | .inr (s, c, va) => opFault s sp o c va

/-- The L1 loads of a Spur that wait for a place look again (R78). -/
def spurRetry (s : State) (sp : Nat) : State :=
  (s.spur sp).ops.foldl (fun s o0 =>
    match opAt s sp o0.id with
    | some o =>
      if !o.direct && o.translated then
        opSettle sp (eachLane s sp o o.l1Lane fun s o l => let r := l1Load s sp o l; (r.1, .inl r.2)) o
      else s
    | none => s) s

/-- What a maintenance operation does at once in the Spur (R261). -/
def maintStart (s : State) (sp : Nat) (o : MemOp) (f : BitVec 5) : State :=
  let a := regionOf sp
  let mem := o.lanes.filter fun l => isMem l.pa && l.st == .ready
  let s := if f = 0 ∨ f = 3 ∨ f = 4 then
      modSpur s sp fun p => mem.foldl (fun p l => p.clearSector l.pa o.ctx) p
    else s
  let s := if f = 5 then mem.foldl (fun s l => agentWantRead s a (l.pa / 64) o.ctx) s else s
  if f = 0 ∨ f = 5 then
    let o := { o with lanes := o.lanes.map fun l => { l with st := .done } }
    opEnd (setOp s sp o) sp o
  else s

/-- An operation whose lanes are all translated starts (R57, R205, R213, R262). -/
def opStart (s : State) (sp : Nat) (o : MemOp) : State :=
  let a := regionOf sp
  let lines := (o.lanes.filter fun l => l.st == .ready && l.typ == 0).map (·.pa / 64)
  match o.kind with
  | .atomic .. =>
    match o.lanes.find? fun l => l.typ == 2 || !isMem l.pa with
    | some l => opFault s sp o 5 l.va
    | none => lines.foldl (fun s ln => agentWantWrite s a ln o.ctx) s
  | .maint f =>
    match (if f = 4 then o.lanes.find? fun l => l.st == .ready && (l.typ == 2 || !isMem l.pa) else none) with
    | some l => opFault s sp o 5 l.va
    | none => maintStart s sp o f
  | .store =>
    lines.foldl (fun s ln => if agentWritable s a ln then regionStores s a ln else agentWantWrite s a ln o.ctx) s
  | .load _ =>
    if o.direct then (if o.once then s else lines.foldl (fun s ln => agentWantRead s a ln o.ctx) s)
    else spurRetry s sp

/-- Translate, and start when every lane is translated. -/
def opTry (s : State) (sp id : Nat) : State :=
  match opAt s sp id with
  | none => s
  | some o =>
    match opXlate s sp o with
    | .inr (c, va) => opFault s sp o c va
    | .inl (s, o) =>
      let s := setOp s sp o
      if o.translated then opStart s sp o else s

/-- Enter a new operation of the group in a slot. -/
def opNew (s : State) (sp slot : Nat) (g : Group) (b : Block) (kind : MemKind) (size order scope : Nat)
    (direct once : Bool) (lanes : List MemLane) : State :=
  let id := (s.spur sp).nextId
  let sc := scopeExec s b.ctx (BitVec.ofNat 3 scope)
  let o : MemOp := { id := id, gid := g.gid, slot := slot, blk := g.blk, pc := g.pc, ctx := b.ctx, kind := kind,
                     size := size, order := BitVec.ofNat 3 order, scope := sc, direct := direct, once := once, lanes := lanes }
  let s := modSpur s sp fun p => { p with nextId := id + 1, ops := p.ops ++ [o] }
  opTry (setGroup s sp slot g.next) sp id

/-! ## Issue of memory instructions -/

/-- Bytes of a SIZE. -/
def sizeBytes (n : Nat) : Nat := 2 ^ n

/-- Does a register break the alignment of a SIZE (R88)? -/
def badVd (vd size : Nat) : Bool := (size == 3 && vd % 2 == 1) || (size == 4 && vd % 4 != 0)

/-- Registers of a SIZE. -/
def sizeRegs (vd size : Nat) : List Nat := run vd (ceilDiv (sizeBytes size) 4)

/-- Value of a lane's registers of a SIZE, its low `size` bytes. -/
def Group.rdSize (g : Group) (lane vd size : Nat) : BitVec 128 :=
  BitVec.ofNat 128 ((List.range (ceilDiv (sizeBytes size) 4)).foldl (fun n i =>
    n + (g.rd lane (vd + i)).toNat * 2 ^ (32 * i)) 0 % 2 ^ (8 * sizeBytes size))

/-- Bad encodings of a format M word: `orders` are the ORDER values allowed (R88). -/
def badM (m : FmtM) (orders : List Nat) (wide : Bool) : Bool :=
  6 ≤ m.scope || !orders.contains m.order || 4 < m.size || 1 < m.cache || m.res0 != 0 || badVd m.vd m.size
    || (wide && m.va % 2 == 1)

/-- Must the next memory instruction of a group wait (R73, R274)? -/
def memHeld (s : State) (sp slot : Nat) (g : Group) : Bool :=
  acquireHeld (s.spur sp) g.gid || 16 ≤ (tget (s.tdie (sp / 8)).streams (streamOf sp slot) []).length

/-- Issue a global access of the enabled lanes of a group. -/
def globalIssue (s : State) (sp slot : Nat) (g : Group) (kind : MemKind) (size order scope : Nat) (direct once : Bool)
    (lanes : List MemLane) : State :=
  match blockAt s sp g.blk with
  | none => s
  | some b =>
    let sc := (scopeExec s b.ctx (BitVec.ofNat 3 scope)).toNat
    if memHeld s sp slot g || (2 ≤ order && !settledAt (s.spur sp) g.gid sc) then s
    else
      match lanes.find? fun l => l.va.toNat % size != 0 with
      | some l => groupFault s sp slot 3 g.pc l.va
      | none =>
        if lanes = [] then
          let s := if (order == 1 || order == 3) && sc != 0 then modSpur s sp Spur.clearL1 else s
          advance s sp slot g
        else opNew s sp slot g b kind size order scope direct once lanes

/-- `ld.g` (R57, R213). -/
def ldGlobal (s : State) (sp slot : Nat) (w : W64) : State :=
  ofClass s sp slot 0x18 w fun _ =>
    let m := fmtM w
    issue s sp slot (run m.va 2 ++ sizeRegs m.vd m.size) (badM m [0, 1] true) fun g =>
      let once := m.cache = 1 ∨ fld s (16 + sp / 8) R.TNS_L1_CFG_BYPASS = 1
      let lanes := (g.enabled m.pred m.pneg).map fun l => ({ lane := l, va := g.rd64 l m.va + m.offset } : MemLane)
      globalIssue s sp slot g (.load m.vd) (sizeBytes m.size) m.order m.scope (m.order = 1 ∨ once) once lanes

/-- `st.g` (R75, R88). -/
def stGlobal (s : State) (sp slot : Nat) (w : W64) : State :=
  ofClass s sp slot 0x19 w fun _ =>
    let m := fmtM w
    issue s sp slot (run m.va 2 ++ sizeRegs m.vd m.size) (badM m [0, 2] true) fun g =>
      let lanes := (g.enabled m.pred m.pneg).map fun l =>
        ({ lane := l, va := g.rd64 l m.va + m.offset, data := g.rdSize l m.vd m.size } : MemLane)
      globalIssue s sp slot g .store (sizeBytes m.size) m.order m.scope true false lanes

/-- Bad encodings of a format T word. -/
def badT (t : FmtT) (wide : Bool) : Bool :=
  let w := t.aty = 2 ∨ t.aty = 3
  6 ≤ t.scope || 3 < t.order || 6 < t.aty || !atomicLegal t.aop t.aty || t.res0 != 0 || (wide && t.va % 2 == 1)
    || (decide w && (t.vd % 2 == 1 || t.vb % 2 == 1 || (t.aop == 7 && t.vc % 2 == 1)))

/-- SIZE of an ATYPE. -/
def atSize (aty : Nat) : Nat := if aty = 2 ∨ aty = 3 then 3 else 2

/-- Registers of a format T word. -/
def regsT (t : FmtT) (k : Nat) : List Nat :=
  let n := atSize t.aty
  run t.va k ++ sizeRegs t.vd n ++ sizeRegs t.vb n ++ (if t.aop = 7 then sizeRegs t.vc n else [])

/-- Operand and compare value of a lane. -/
def Group.atArgs (g : Group) (t : FmtT) (l : Nat) : W64 × W64 :=
  let n := atSize t.aty
  ((g.rdSize l t.vb n).setWidth 64, (g.rdSize l t.vc n).setWidth 64)

/-- `at.g` (R58 to R61). -/
def atGlobal (s : State) (sp slot : Nat) (w : W64) : State :=
  ofClass s sp slot 0x1C w fun _ =>
    let t := fmtT w
    issue s sp slot (regsT t 2) (badT t true) fun g =>
      let lanes := (g.enabled t.pred t.pneg).map fun l =>
        ({ lane := l, va := g.rd64 l t.va, data := (g.atArgs t l).1.setWidth 128, cmp := (g.atArgs t l).2 } : MemLane)
      globalIssue s sp slot g (.atomic (BitVec.ofNat 4 t.aop) (BitVec.ofNat 3 t.aty) t.vd) (sizeBytes (atSize t.aty))
        t.order t.scope true false lanes

/-! ## Local memory (R54, R56, R58) -/

/-- Check the lanes of a local access: the lowest cause they meet, with the address. -/
def localCause (b : Block) (size : Nat) (addrs : List Nat) : Option (Nat × Nat) :=
  match addrs.find? (fun a => a % size != 0) with
  | some a => some (3, a)
  | none => (addrs.find? fun a => b.localSize < a + size).map fun a => (4, a)

/-- A local access: order, alignment and bounds, then the effect. -/
def localIssue (s : State) (sp slot : Nat) (g : Group) (size order scope : Nat) (lanes : List (Nat × Nat))
    (eff : Block → State) : State :=
  match blockAt s sp g.blk with
  | none => s
  | some b =>
    let sc := min (scopeExec s b.ctx (BitVec.ofNat 3 scope)).toNat 1
    if acquireHeld (s.spur sp) g.gid || (2 ≤ order && !settledAt (s.spur sp) g.gid sc) then s
    else
      match localCause b size (lanes.map Prod.snd) with
      | some (c, a) => groupFault s sp slot c g.pc (BitVec.ofNat 64 a)
      | none => eff b

/-- Lanes of a local access with their addresses. -/
def localLanes (g : Group) (pred : Nat) (pneg : Bool) (va : Nat) (ofs : W64) : List (Nat × Nat) :=
  (g.enabled pred pneg).map fun l => (l, (g.rd l va + ofs.setWidth 32).toNat)

/-- A synchronising local access with acquire semantics at cluster scope or wider never needs to clear the L1 for local
memory, but R73 clears it for every acquire (R73, R216). -/
def acquireL1 (s : State) (sp : Nat) (ctx : BitVec 16) (order scope : Nat) : State :=
  if (order = 1 ∨ order = 3) ∧ scopeExec s ctx (BitVec.ofNat 3 scope) ≠ 0 then modSpur s sp Spur.clearL1 else s

/-- `ld.l`. -/
def ldLocal (s : State) (sp slot : Nat) (w : W64) : State :=
  ofClass s sp slot 0x1A w fun _ =>
    let m := fmtM w
    issue s sp slot (m.va :: sizeRegs m.vd m.size) (badM m [0, 1] false) fun g =>
      let n := sizeBytes m.size
      let lanes := localLanes g m.pred m.pneg m.va m.offset
      localIssue s sp slot g n m.order m.scope lanes fun b =>
        let p := s.spur sp
        let g' := lanes.foldl (fun h (l : Nat × Nat) =>
          if m.vd = 255 then h
          else (List.range (ceilDiv n 4)).foldl (fun h i =>
            h.wr l.1 (m.vd + i) (BitVec.ofNat 32 (p.lread (b.base + l.2) n / 2 ^ (32 * i)))) h) g
        advance (acquireL1 s sp b.ctx m.order m.scope) sp slot g'

/-- `st.l`; lanes write in increasing order. -/
def stLocal (s : State) (sp slot : Nat) (w : W64) : State :=
  ofClass s sp slot 0x1B w fun _ =>
    let m := fmtM w
    issue s sp slot (m.va :: sizeRegs m.vd m.size) (badM m [0, 2] false) fun g =>
      let n := sizeBytes m.size
      let lanes := localLanes g m.pred m.pneg m.va m.offset
      localIssue s sp slot g n m.order m.scope lanes fun b =>
        let s := modSpur s sp fun p => lanes.foldl (fun p l => p.lwrite (b.base + l.2) n (g.rdSize l.1 m.vd m.size).toNat) p
        advance s sp slot g

/-- Distinct values in order of first appearance. -/
def distinct (l : List Nat) : List Nat := l.foldl (fun acc x => if acc.contains x then acc else acc ++ [x]) []

/-- `at.l`. -/
def atLocal (s : State) (sp slot : Nat) (w : W64) : State :=
  ofClass s sp slot 0x1D w fun _ =>
    let t := fmtT w
    issue s sp slot (regsT t 1) (badT t false) fun g =>
      let n := sizeBytes (atSize t.aty)
      let lanes := localLanes g t.pred t.pneg t.va 0
      localIssue s sp slot g n t.order t.scope lanes fun b =>
        let r := (distinct (lanes.map Prod.snd)).foldl (fun (acc : Spur × Group) a =>
          let ls := (lanes.filter fun l => l.2 == a).map Prod.fst
          let old := BitVec.ofNat 64 (acc.1.lread (b.base + a) n)
          let res := atomicLanes t.aop t.aty old (ls.map fun l => g.atArgs t l)
          (acc.1.lwrite (b.base + a) n res.2.toNat,
           (ls.zip res.1).foldl (fun h x =>
             if t.vd = 255 then h else if n = 8 then h.wr64 x.1 t.vd x.2 else h.wr x.1 t.vd (x.2.setWidth 32)) acc.2))
          (s.spur sp, g)
        let s := modSpur s sp fun _ => r.1
        advance (acquireL1 s sp b.ctx t.order t.scope) sp slot r.2

/-! ## Responses (DIRECT_ACCESS_RESPONSE, L1_FILL_RETURN) -/

/-- CLEAN of a line, done in one step at its home (R260). -/
def cohClean (s : State) (ln : Nat) : State :=
  recv (doClean s (homeOfLine s ln) ⟨.clean, 0, 0, ln⟩) (.once 0 ln 0 false false)

/-- FLUSH of a line, done in one step at its home (R260): dirty data to memory, every copy removed. -/
def cohFlush (s : State) (ln : Nat) : State :=
  let md := homeOfLine s ln
  let cur := cohLine s ln
  let dirty := ((ownerOf s ln).bind (agentData s · ln)).any (fun x => x.2.1)
    || ((l3Copy (s.home md) ln).map (·.dirty)).getD false
  let s := invalAll s ln
  let s := modHome s md fun h => l3Drop { h with dir := tdel h.dir ln } ln
  if dirty then storeLine s ln cur.1 cur.2 else s

/-- A check at a target of a request from an agent of a die: true when it passes, else the context fault record (R285). -/
def targetCheckBy (s : State) (die agent : Nat) (ctx : BitVec 16) (pa : Nat) (write : Bool) : State × Bool :=
  let tgt := match region pa with
    | .window n _ => n
    | _ => 5 + homeOf s pa
  let s := claimCacheFill s pa
  if claimOk s ctx pa write then (s, true) else (ctxFault s tgt die agent ctx pa write, false)

/-- The check for a thread. -/
def targetCheck (s : State) (sp : Nat) (ctx : BitVec 16) (pa : Nat) (write : Bool) : State × Bool :=
  targetCheckBy s (16 + sp / 8) (regionOf sp) ctx pa write

/-- Was the region L2's request for a line refused (R285)? It is then forgotten. -/
def takeRefused (s : State) (a ln : Nat) : Option State :=
  match tget? s.coh.misses (aKey a ln) with
  | some m => if m.refused then some (modCoh s fun c => { c with misses := tdel c.misses (aKey a ln) }) else none
  | none => none

/-- One lane of a load is served. -/
def loadLane (s : State) (sp : Nat) (o : MemOp) (l : MemLane) : State × Sum MemLane Nat :=
  let a := regionOf sp
  let ln := l.pa / 64
  let value := fun (d : Line) => ({ l with st := .done, data := lineValue d (l.pa % 64) o.size } : MemLane)
  match region l.pa with
  | .hbm | .board =>
    if l.typ = 0 ∧ !o.once then
      match takeRefused s a ln with
      | some s => (s, .inr 6)
      | none =>
        match agentLine s a ln with
        | some x => if x.poison then (s, .inr 7) else (s, .inl (value x.data))
        | none => (agentWantRead s a ln o.ctx, .inl l)
    else if !lineIdle s ln then (s, .inl l)
    else
      let c := targetCheck s sp o.ctx l.pa false
      if !c.2 then (c.1, .inr 6)
      else
        let d := cohLine c.1 ln
        if d.2 then (c.1, .inr 7) else (touch c.1 ln, .inl (value d.1))
  | .window n off =>
    let c := targetCheck s sp o.ctx l.pa false
    if c.2 then (c.1, .inl { l with st := .done, data := BitVec.ofNat 128 (regRead c.1 n off (8 * o.size)) })
    else (c.1, .inr 6)
  | .doorbell _ => (s, .inl { l with st := .done, data := 0 })
  | _ => (s, .inl l)

/-- One lane of a store is served. -/
def storeLane (s : State) (sp : Nat) (o : MemOp) (l : MemLane) : State × Sum MemLane Nat :=
  let a := regionOf sp
  let ln := l.pa / 64
  let sent := ({ l with st := .sent } : MemLane)
  match region l.pa with
  | .hbm | .board =>
    if l.typ = 0 then
      match takeRefused s a ln with
      | some s => (s, .inl { l with st := .done })
      | none =>
        if agentWritable s a ln then
          let s := agentStore s a ln (l.pa % 64) (l.bytes o.size)
          (modSpur s sp fun p => l1Update p l.pa o.ctx (l.bytes o.size), .inl { l with st := .done })
        else (agentWantWrite s a ln o.ctx, .inl l)
    else if !lineIdle s ln then (s, .inl l)
    else
      let c := targetCheck s sp o.ctx l.pa true
      (if c.2 then cohPut c.1 l.pa (l.bytes o.size) false else c.1, .inl { l with st := .done })
  | .window n off =>
    if 0x1200000 ≤ off ∧ off < 0x1200040 ∧ 16 ≤ n then
      if n = 16 + sp / 8 ∧ o.size = 16 ∧ l.typ = 2 then
        (send s (.clPort sp o.slot ((off - 0x1200000) / 16) l.data (opKey sp o.id)), .inl sent)
      else (s, .inl { l with st := .done })
    else (send s (.regWrite n off (8 * o.size) (l.data.setWidth 64) o.ctx (opKey sp o.id)), .inl sent)
  | .doorbell off =>
    if o.size = 8 then (send s (.doorbell (BitVec.ofNat 18 (off / 8)) o.ctx (l.data.setWidth 64) (opKey sp o.id)), .inl sent)
    else (s, .inl { l with st := .done })
  | _ => (s, .inl l)

/-- The lanes of an atomic that name one address are applied to a value: lanes with results, value left. -/
def atomicApply (o : MemOp) (aop : BitVec 4) (aty : BitVec 3) (pa : Nat) (old : W64) : List MemLane × W64 :=
  let ls := o.lanes.filter fun x => x.pa == pa && x.st == .ready
  let res := atomicLanes aop.toNat aty.toNat old (ls.map fun x => (x.data.setWidth 64, x.cmp))
  ((ls.zip res.1).map fun x => { x.1 with st := .done, data := x.2.setWidth 128 }, res.2)

/-- One address of an atomic is performed at the region L2 or at its home (R58, R61). -/
def atomicAddr (s : State) (sp : Nat) (o : MemOp) (aop : BitVec 4) (aty : BitVec 3) (l : MemLane) :
    Sum (State × MemOp) (State × Nat) :=
  let a := regionOf sp
  let ln := l.pa / 64
  let apply := fun (s : State) (d : Line) (put : State → List Byte → State) =>
    let r := atomicApply o aop aty l.pa (BitVec.ofNat 64 (lineValue d (l.pa % 64) o.size).toNat)
    let s := put s (leBytes o.size r.2.toNat)
    let s := modSpur s sp fun p => p.clearSector l.pa o.ctx
    (s, r.1.foldl (fun o x => o.setLane x) o)
  if l.typ = 0 then
    match takeRefused s a ln with
    | some s => .inr (s, 6)
    | none =>
      match agentLine s a ln with
      | some x =>
        if x.poison then .inr (s, 7)
        else if agentWritable s a ln then .inl (apply s x.data fun s b => agentStore s a ln (l.pa % 64) b)
        else .inl (agentWantWrite s a ln o.ctx, o)
      | none => .inl (agentWantWrite s a ln o.ctx, o)
  else if !lineIdle s ln then .inl (s, o)
  else
    let c := targetCheck s sp o.ctx l.pa true
    if !c.2 then .inr (c.1, 6)
    else
      let d := cohLine c.1 ln
      if d.2 then .inr (c.1, 7) else .inl (apply c.1 d.1 fun s b => cohPut s l.pa b false)

/-- The ready addresses of an atomic, in order of their lowest lane. -/
def atomicServe (s : State) (sp : Nat) (o : MemOp) (aop : BitVec 4) (aty : BitVec 3) : State :=
  let r := (distinct ((o.lanes.filter fun l => l.st == .ready).map (·.pa))).foldl
    (fun (acc : Sum (State × MemOp) (State × Nat × W64)) pa =>
      match acc with
      | .inr e => .inr e
      | .inl (s, o) =>
        match o.lanes.find? fun l => l.pa == pa && l.st == .ready with
        | none => .inl (s, o)
        | some l =>
          if lineBlocked (s.spur sp) o (pa / 64) then .inl (s, o)
          else match atomicAddr s sp o aop aty l with
            | .inl (s, o) => .inl (setOp s sp o, o)
            | .inr (s, c) => .inr (s, c, l.va)) (.inl (s, o))
  opSettle sp r o

/-- One line of CLEAN, FLUSH or ZERO (R260 to R263). -/
def maintLane (s : State) (sp : Nat) (o : MemOp) (f : BitVec 5) (l : MemLane) : State × Sum MemLane Nat :=
  let a := regionOf sp
  let ln := l.pa / 64
  let done := ({ l with st := .done } : MemLane)
  if !isMem l.pa then (s, .inl done)
  else if f = 4 then
    match takeRefused s a ln with
    | some s => (s, .inl done)
    | none =>
      match agentLine s a ln with
      | some x =>
        if x.st = .m ∨ x.st = .e then
          (wakeResv (setAgentLine s a ln { x with st := .m, data := 0, poison := false }) ln, .inl done)
        else (agentRequest s a ln .zero o.ctx, .inl l)
      | none => (agentRequest s a ln .zero o.ctx, .inl l)
  else if !lineIdle s ln then (s, .inl l)
  else
    let c := targetCheck s sp o.ctx l.pa true
    (if !c.2 then c.1 else if f = 2 then cohClean c.1 ln else cohFlush c.1 ln, .inl done)

/-- Window writes of an operation that have reached their registers are done (R202). -/
def arrived (s : State) (sp : Nat) (o : MemOp) : MemOp :=
  let k := opKey sp o.id
  let waits := s.net.any fun m => match m with
    | .regWrite _ _ _ _ _ src | .doorbell _ _ _ src | .clPort _ _ _ _ src => src == k
    | _ => false
  if waits then o
  else { o with lanes := o.lanes.map fun l => if l.st = .sent && !l.gone then { l with st := .done } else l }

/-- First DS lane not done, which holds the later DS lanes of its instruction (R57). -/
def dsTurn (o : MemOp) (l : MemLane) : Bool :=
  l.typ != 2 || ((o.lanes.find? fun x => x.typ == 2 && x.st != .done).map (·.lane == l.lane)).getD true

/-- DIRECT_ACCESS_RESPONSE: data for direct loads and atomics, acknowledgements of stores (R57, R72, R213). -/
def directResponse (s : State) (sp id : Nat) : State :=
  match opAt s sp id with
  | none => s
  | some o =>
    if !o.translated || dsBlocked (s.spur sp) o then s
    else
      let o := arrived s sp o
      let s := setOp s sp o
      match o.kind with
      | .load _ =>
        fenceCheck (opSettle sp (eachLane s sp o (fun l => !o.l1Lane l && dsTurn o l) fun s o l => loadLane s sp o l) o) sp
      | .atomic aop aty _ => spurRetry (atomicServe s sp o aop aty) sp
      | .store =>
        match eachLane s sp o (dsTurn o) fun s o l => storeLane s sp o l with
        | .inr (s, c, va) => opFault s sp o c va
        | .inl (s, o) =>
          if o.lanes.all (·.st == .done) then spurRetry (opEnd s sp o) sp
          else if o.lanes.all (·.gone) then teamSettle (fenceCheck (setOp s sp { o with acked := true }) sp) sp
          else s
      | .maint f =>
        match eachLane s sp o (fun _ => true) fun s o l => maintLane s sp o f l with
        | .inr (s, c, va) => opFault s sp o c va
        | .inl (s, o) => if o.lanes.all (·.st == .done) then spurRetry (opEnd s sp o) sp else s

/-- L1_FILL_RETURN (R76, R77, R79, R62). -/
def l1Fill (s : State) (sp blk : Nat) (ctx : BitVec 16) (sec : Nat) : State :=
  let a := regionOf sp
  let ln := blk * 4 + sec
  match (s.spur sp).l1miss.find? fun m => m.blk == blk && m.ctx == ctx && m.req.getLsbD sec with
  | none => s
  | some m =>
    let r : Option (State × Option AgentLine) := match takeRefused s a ln with
      | some s => some (s, none)
      | none => (agentLine s a ln).map fun x => (s, some x)
    match r with
    | none => agentWantRead s a ln ctx
    | some (s, x) =>
      let bit : BitVec 4 := BitVec.ofNat 4 (2 ^ sec)
      let m' := { m with req := m.req &&& ~~~bit, noSec := m.noSec &&& ~~~bit, waiters := m.waiters.filter fun w => w.2 != sec }
      let good := x.bind fun x => if x.poison then none else some x.data
      let s := modSpur s sp fun p => { p with
        l1miss := (p.l1miss.map fun z => if z = m then m' else z).filter fun z => z.req != 0
        l1 := match good, m.way with
          | some d, some k =>
            if m.noLine || m.noSec.getLsbD sec then p.l1
            else (match tget? p.l1 k with
              | some e => if e.blk = blk ∧ e.ctx = ctx then
                  tset p.l1 k { e with valid := e.valid ||| bit, sec := tset e.sec sec d } else p.l1
              | none => p.l1)
          | _, _ => p.l1 }
      let s := (m.waiters.filter fun w => w.2 == sec).foldl (fun s w =>
        match opAt s sp w.1 with
        | none => s
        | some o =>
          match good with
          | some d =>
            let o := { o with lanes := o.lanes.map fun l =>
              if l.st = .miss ∧ l.pa / 64 = ln then { l with st := .done, data := lineValue d (l.pa % 64) o.size } else l }
            opCheck (setOp s sp o) sp o
          | none =>
            let va := ((o.lanes.find? fun l => l.st == .miss && l.pa / 64 == ln).map (·.va)).getD 0
            opFault s sp o (if x.isSome then 7 else 6) va) s
      spurRetry s sp

/-! ## Fences and maintenance instructions -/

/-- `fence.s` (R72, R73). -/
def fenceS (s : State) (sp slot : Nat) (w : W64) : State :=
  ofClass s sp slot 0x2A w fun _ =>
    let scope := wf w 55 53
    let kind := wf w 52 50
    issue s sp slot [] (6 ≤ scope || 4 ≤ kind || wf w 49 0 != 0) fun g =>
      match blockAt s sp g.blk with
      | none => s
      | some b =>
        let sc := scopeExec s b.ctx (BitVec.ofNat 3 scope)
        fenceCheck (setGroup s sp slot { g with wait := some (.fence (BitVec.ofNat 3 kind) sc) }) sp

/-- A cache maintenance instruction whose lanes name addresses. -/
def maintOp (s : State) (sp slot : Nat) (w : W64) (func : Nat) : State :=
  ofClass s sp slot 0x3C w fun _ =>
    let a := fmtA w
    if a.func ≠ func ∧ a.func ≤ 5 then s
    else
      let bad := 5 < a.func || a.scope != 0 || a.vd != 0 || a.vb != 0 || a.vc != 0 || a.typ != 0 || a.md != 0
        || (func != 1 && a.va % 2 == 1)
      issue s sp slot (if func = 1 then [] else run a.va 2) bad fun g =>
        if func = 1 then advance (modSpur s sp Spur.clearL1) sp slot g
        else
          match blockAt s sp g.blk with
          | none => s
          | some b =>
            let on := g.enabled a.pred a.pneg
            if memHeld s sp slot g then s
            else if on = [] then advance s sp slot g
            else opNew s sp slot g b (.maint (BitVec.ofNat 5 func)) 1 0 0 true false
              (on.map fun l => ({ lane := l, va := g.rd64 l a.va } : MemLane))

/-! ## The meanings -/

/-- LD_G. -/
def execLdG (sp : Fin 128) (sl : Fin 32) (w : W64) (s : State) : Host.Outcome State Fault Refusal :=
  .next (ldGlobal s sp sl w)
/-- ST_G. -/
def execStG (sp : Fin 128) (sl : Fin 32) (w : W64) (s : State) : Host.Outcome State Fault Refusal :=
  .next (stGlobal s sp sl w)
/-- LD_L. -/
def execLdL (sp : Fin 128) (sl : Fin 32) (w : W64) (s : State) : Host.Outcome State Fault Refusal :=
  .next (ldLocal s sp sl w)
/-- ST_L. -/
def execStL (sp : Fin 128) (sl : Fin 32) (w : W64) (s : State) : Host.Outcome State Fault Refusal :=
  .next (stLocal s sp sl w)
/-- AT_G. -/
def execAtG (sp : Fin 128) (sl : Fin 32) (w : W64) (s : State) : Host.Outcome State Fault Refusal :=
  .next (atGlobal s sp sl w)
/-- AT_L. -/
def execAtL (sp : Fin 128) (sl : Fin 32) (w : W64) (s : State) : Host.Outcome State Fault Refusal :=
  .next (atLocal s sp sl w)
/-- FENCE_S. -/
def execFenceS (sp : Fin 128) (sl : Fin 32) (w : W64) (s : State) : Host.Outcome State Fault Refusal :=
  .next (fenceS s sp sl w)
/-- CM_INV_L1. -/
def execCmInvL1 (sp : Fin 128) (sl : Fin 32) (w : W64) (s : State) : Host.Outcome State Fault Refusal :=
  .next (maintOp s sp sl w 0)
/-- CM_INV_L1_ALL. -/
def execCmInvL1All (sp : Fin 128) (sl : Fin 32) (w : W64) (s : State) : Host.Outcome State Fault Refusal :=
  .next (maintOp s sp sl w 1)
/-- CM_CLEAN. -/
def execCmClean (sp : Fin 128) (sl : Fin 32) (w : W64) (s : State) : Host.Outcome State Fault Refusal :=
  .next (maintOp s sp sl w 2)
/-- CM_FLUSH. -/
def execCmFlush (sp : Fin 128) (sl : Fin 32) (w : W64) (s : State) : Host.Outcome State Fault Refusal :=
  .next (maintOp s sp sl w 3)
/-- CM_ZERO. -/
def execCmZero (sp : Fin 128) (sl : Fin 32) (w : W64) (s : State) : Host.Outcome State Fault Refusal :=
  .next (maintOp s sp sl w 4)
/-- CM_PF_L2. -/
def execCmPfL2 (sp : Fin 128) (sl : Fin 32) (w : W64) (s : State) : Host.Outcome State Fault Refusal :=
  .next (maintOp s sp sl w 5)
/-- L1_FILL_RETURN. -/
def execL1FillReturn (sp : Fin 128) (blk : Nat) (ctx : BitVec 16) (sec : Fin 4) (s : State) :
    Host.Outcome State Fault Refusal := .next (l1Fill s sp blk ctx sec)
/-- DIRECT_ACCESS_RESPONSE. -/
def execDirectAccessResponse (sp : Fin 128) (op : Nat) (s : State) : Host.Outcome State Fault Refusal :=
  .next (directResponse s sp op)

end Sys2Proof.Machine
end

