-- ==== Sys2Proof/Machine/Couloir.lean ====
section
/-! DEFINITION. Couloir engines (chapter 06): submission, the queue of a memory die, the scan and its result. -/

namespace Sys2Proof.Machine

/-! ## The command (R178, R179) -/

/-- Bits of the 64-bit word at byte `o` of a command. -/
def clBits (c : Line) (o hi lo : Nat) : Nat := bits (c.toNat / 2 ^ (8 * o)) hi lo

/-- Query heads, head dimension and format of a command. -/
def clHeads (c : Line) : Nat := clBits c 0 19 16 + 1
def clDim (c : Line) : Nat := 32 * (clBits c 0 22 20 + 1)
def clFmt (c : Line) : Nat := clBits c 0 26 23

/-- Size of a result (R183). -/
def clResultSize (heads dim : Nat) : Nat := 16 + heads * (16 + 4 * dim)

/-- Is a command valid but for its counter and local ranges (R178)? -/
def clValid (c : Line) : Bool :=
  clBits c 0 7 0 == 1 && 5 ≤ clBits c 0 12 8 && clBits c 0 12 8 ≤ 10 && clBits c 0 22 20 != 0
    && [2, 3, 6, 9].contains (clFmt c) && clBits c 0 63 33 == 0 && clBits c 8 3 0 == 0
    && 1 ≤ clBits c 0x10 63 32 && clBits c 0x10 63 32 ≤ 2 ^ 20
    && clBits c 0x28 3 0 == 0 && clBits c 0x28 27 24 == 0 && clBits c 0x28 63 48 == 0 && clBits c 0x38 63 0 == 0

/-- The result of a scan as bytes (R183, R184). -/
def clResult (status : Byte) (keys : Nat) (tag : W32) (heads dim : Nat) (st : List HeadState) : List Byte :=
  [status, 0, 0, 0] ++ leBytes 4 keys ++ leBytes 4 tag.toNat ++ leBytes 4 0
  ++ (List.range heads).flatMap fun h =>
    let x := st.getD h ⟨f32NegInf, 0, []⟩
    let w := fun (v : W32) => leBytes 4 (if status = 0 then v else f32Nan).toNat
    w x.m ++ w x.l ++ leBytes 8 0 ++ (List.range dim).flatMap fun d => w (x.o.getD d 0)

/-! ## Submission (R177 to R180) -/

/-- The assembly buffer with one part written. -/
def clPut (s : State) (sp slot n : Nat) (data : BitVec 128) : State :=
  modSpur s sp fun p => { p with clBufs := tmod p.clBufs slot {} fun b => { b with parts := tset b.parts n data } }

/-- A port store on its way, when there is one, arrives. -/
def clArrive (s : State) (sp slot n : Nat) (data : BitVec 128) : State :=
  match s.net.find? fun m => match m with
      | .clPort a b k d _ => a == sp && b == slot && k == n && d == data
      | _ => false with
  | some m => recv s m
  | none => s

/-- CL_PORT_ASSEMBLE (R177). -/
def clAssemble (s : State) (sp slot n : Nat) (data : BitVec 128) : State :=
  let s := clArrive s sp slot n data
  if (groupAt s sp slot).isSome then clPut s sp slot n data else s

/-- The four parts of a buffer as one command. -/
def clCommand (b : ClBuf) (data : BitVec 128) : Line :=
  BitVec.ofNat 512 ((tget b.parts 0 0).toNat + (tget b.parts 1 0).toNat * 2 ^ 128 + (tget b.parts 2 0).toNat * 2 ^ 256
    + data.toNat * 2 ^ 384)

/-- A command that is not sent counts as completed, with a result of the status (R179, R196). -/
def clRefuse (s : State) (sp : Nat) (b : Block) (ctr : Nat) (c : Line) (status : Byte) (place : Bool) : State :=
  let n := (tget (s.spur sp).counters ctr {}).issue + 1
  let r := clResult status 0 (BitVec.ofNat 32 (clBits c 0x30 63 32)) (clHeads c) (clDim c) []
  let s := modSpur s sp fun p => { p with
    counters := tmod p.counters ctr {} fun x => { x with issue := n, zero := if place then x.zero else n :: x.zero }
    lmem := memWrite p.lmem (b.base + clBits c 0x28 47 24) r }
  finishCount s sp ctr n

/-- CL_SUBMIT (R177, R179): the group is held until its command is sent. -/
def clSubmit (s : State) (sp slot : Nat) (data : BitVec 128) : State :=
  let s := clArrive s sp slot 3 data
  match groupAt s sp slot with
  | none => s
  | some g =>
    match blockAt s sp g.blk with
    | none => s
    | some b =>
      if g.done || g.stop || g.wait.isSome then s
      else
        let c := clCommand (tget (s.spur sp).clBufs slot {}) data
        let s := modSpur s sp fun p => { p with clBufs := tdel p.clBufs slot }
        let q := clBits c 0x28 23 0
        let r := clBits c 0x28 47 24
        match ctrIndex b g.blk (clBits c 0 32 27) with
        | none => groupFault s sp slot 1 (g.pc - 8) 0
        | some ctr =>
          if b.localSize < q + clHeads c * 2 * clDim c then groupFault s sp slot 4 (g.pc - 8) (BitVec.ofNat 64 q)
          else if b.localSize < r + clResultSize (clHeads c) (clDim c) then
            groupFault s sp slot 4 (g.pc - 8) (BitVec.ofNat 64 r)
          else if !clValid c then clRefuse s sp b ctr c 0x0F false
          else
            modSpur s sp fun p => { p with
              groups := tset p.groups slot { g with wait := some .clSubmit }
              clBufs := tset p.clBufs slot { held := some c } }

/-- Is an engine of a memory die in service (R196)? -/
def clEngineUp (s : State) (md e : Nat) : Bool := bitAt (fld s (5 + md) R.MEM_CL_MAP_IN_SERVICE) e

/-- Has a memory die an engine that can serve? -/
def clDieUp (s : State) (md : Nat) : Bool := dieUp s (5 + md) && (List.range 16).any (clEngineUp s md)

/-- The group goes on after its submission. -/
def clGoOn (p : Spur) (slot : Nat) : Spur :=
  { p with
    clBufs := tdel p.clBufs slot
    groups := match tget? p.groups slot with
      | some g => tset p.groups slot { g with wait := none }
      | none => p.groups }

/-- A valid command as it is sent, with its query block (R180 to R182). -/
def clMake (s : State) (sp : Nat) (b : Block) (blk ctr : Nat) (n : W32) (c : Line) : ClCmd :=
  let f := clBits c
  { sp := sp, blk := blk, ctx := b.ctx, ctr := ctr, num := n, md := f 0 12 8 - 5, prio := f 0 15 13, heads := clHeads c
    dim := clDim c, fmt := clFmt c, btable := BitVec.ofNat 64 (f 8 63 0), basePos := f 0x10 31 0, nblk := f 0x10 63 32
    lo0 := f 0x18 31 0, hi0 := f 0x18 63 32, lo1 := f 0x20 31 0, hi1 := f 0x20 63 32
    raddr := b.base + f 0x28 47 24, scale := BitVec.ofNat 32 (f 0x30 31 0), tag := BitVec.ofNat 32 (f 0x30 63 32)
    query := memRead (s.spur sp).lmem (b.base + f 0x28 23 0) (clHeads c * 2 * clDim c)
    state := List.replicate (clHeads c) ⟨f32NegInf, 0, List.replicate (clDim c) 0⟩ }

/-- CL_SUBMIT_SEND (R180, R181, R196). -/
def clSend (s : State) (sp slot : Nat) : State :=
  match groupAt s sp slot, tget? (s.spur sp).clBufs slot with
  | some g, some buf =>
    match buf.held, blockAt s sp g.blk with
    | some c, some b =>
      match ctrIndex b g.blk (clBits c 0 32 27) with
      | none => s
      | some ctr =>
        let md := clBits c 0 12 8 - 5
        let key := md * 16 + sp / 8
        if 256 ≤ copyPlaces s sp then s
        else if !clDieUp s md then clRefuse (modSpur s sp fun p => clGoOn p slot) sp b ctr c 0x0B true
        else if 32 ≤ tget s.cl.credits key 0 then s
        else
          let n := (tget (s.spur sp).counters ctr {}).issue + 1
          let x := clMake s sp b g.blk ctr n c
          let s := modSpur s sp fun p =>
            clGoOn { p with counters := tmod p.counters ctr {} fun y => { y with issue := n } } slot
          { s with cl := { s.cl with
              cmds := tset s.cl.cmds s.cl.next x
              next := s.cl.next + 1
              credits := tset s.cl.credits key (tget s.cl.credits key 0 + 1) } }
    | _, _ => s
  | _, _ => s

/-- Change a Couloir command. -/
def setCl (s : State) (id : Nat) (c : ClCmd) : State := { s with cl := { s.cl with cmds := tset s.cl.cmds id c } }

/-- CL_COMMAND_RECEIVE (R181). -/
def clReceive (s : State) (md id : Nat) : State :=
  match tget? s.cl.cmds id with
  | some c =>
    if c.md = md ∧ c.phase = .sent then
      let s := setCl s id { c with phase := .queued }
      { s with cl := { s.cl with queues := tmod s.cl.queues md [] fun q => q ++ [id] } }
    else s
  | none => s

/-! ## Positions and pages (R186 to R189) -/

/-- Rows of a page (R186). -/
def ClCmd.rows (c : ClCmd) : Nat := 16384 / (c.dim * mxBits c.fmt / 8 + if mxScaled c.fmt then c.dim / 32 else 0)

/-- A range cut to the span of the block table: low end and length. -/
def ClCmd.cut (c : ClCmd) (lo hi : Nat) : Nat × Nat :=
  let a := max lo c.basePos
  let b := min hi (c.basePos + c.nblk * c.rows)
  (a, b - a)

/-- The scored set as two disjoint intervals in increasing order: low end and length of each (R189). -/
def ClCmd.scored (c : ClCmd) : (Nat × Nat) × (Nat × Nat) :=
  let x := c.cut c.lo0 c.hi0
  let y := c.cut c.lo1 c.hi1
  let (x, y) := if y.2 ≠ 0 ∧ (x.2 = 0 ∨ y.1 < x.1) then (y, x) else (x, y)
  if y.2 = 0 then (x, (0, 0))
  else if y.1 ≤ x.1 + x.2 then ((x.1, max (x.1 + x.2) (y.1 + y.2) - x.1), (0, 0))
  else (x, y)

/-- Number of scored positions. -/
def ClCmd.total (c : ClCmd) : Nat := c.scored.1.2 + c.scored.2.2

/-- The i-th scored position. -/
def ClCmd.position (c : ClCmd) (i : Nat) : Nat :=
  if i < c.scored.1.2 then c.scored.1.1 + i else c.scored.2.1 + (i - c.scored.1.2)

/-- What a read of a scan gives: it waits for its home, stops the scan with a status, or bytes. -/
inductive ClRead
  | wait
  | stop (s : State) (status : Byte)
  | data (s : State) (b : List Byte)
deriving DecidableEq, Repr

/-- A coherent read of memory by an engine (R188, R193). -/
def clRead (s : State) (c : ClCmd) (pa n : Nat) : ClRead :=
  if !rangeIdle s pa n then .wait
  else
    let s := claimCacheFill s pa
    if !claimOk s c.ctx pa false then .stop (ctxFault s (5 + homeOf s pa) (5 + c.md) 0 c.ctx pa false) 0x04
    else
      let d := cohRead s pa n
      if d.2 then .stop s 0x06
      else
        let first := pa / 64
        let lines := if n = 0 then 0 else (pa + n - 1) / 64 - first + 1
        .data ((List.range lines).foldl (fun s i => hbmUse (touch s (first + i)) (first + i) c.ctx false true) s) d.1

/-- Read the block table entry `i` (R187, R188): key page and value page. Outside memory its bytes are free values in a
host or peer window, and 0 elsewhere. -/
def clEntry (s : State) (c : ClCmd) (i : Nat) : ClRead :=
  match xlate s c.ctx (c.btable + BitVec.ofNat 64 (16 * i)) false with
  | .inr st => .stop s st
  | .inl pa =>
    if isMem pa then clRead s c pa 16
    else match region pa with
      | .host _ | .peer .. =>
        let a := drawFree s
        let b := drawFree a.2
        .data b.2 (leBytes 8 a.1.toNat ++ leBytes 8 b.1.toNat)
      | _ => .data s (List.replicate 16 0)

/-- The page addresses that an entry names, when it is valid and its pages lie in stretch placement on the die (R187,
R188). -/
def clPages (s : State) (c : ClCmd) (b : List Byte) : Option (Nat × Nat) :=
  let k := leNat (b.take 8)
  let v := leNat (b.drop 8)
  let kp := bits k 37 0 * 16384
  let vp := bits v 37 0 * 16384
  if bitAt k 63 && bits k 62 38 == 0 && bits v 63 38 == 0 && inStretch s kp c.md && inStretch s vp c.md then some (kp, vp)
  else none

/-- A key or value row of a page: elements and scales (R186). -/
def clRow (s : State) (c : ClCmd) (page j : Nat) : ClRead :=
  let rb := c.dim * mxBits c.fmt / 8
  match clRead s c (page + j * rb) rb with
  | .data s e =>
    if mxScaled c.fmt then
      match clRead s c (page + c.rows * rb + j * (c.dim / 32)) (c.dim / 32) with
      | .data s x => .data s (e ++ x)
      | r => r
    else .data s e
  | r => r

/-- Key and value rows of a position, one after the other. -/
def clPosition (s : State) (c : ClCmd) (p : Nat) : ClRead :=
  match clEntry s c ((p - c.basePos) / c.rows) with
  | .data s b =>
    match clPages s c b with
    | none => .stop s 0x05
    | some (kp, vp) =>
      let j := (p - c.basePos) % c.rows
      match clRow s c kp j with
      | .data s k =>
        match clRow s c vp j with
        | .data s v => .data s (k ++ v)
        | r => r
      | r => r
  | r => r

/-! ## Arithmetic of the scan (R190, R191) -/

/-- Elements of a row, and its scale bytes. -/
def clElems (c : ClCmd) (row : List Byte) : List Nat := elems c.fmt c.dim (row.take (c.dim * mxBits c.fmt / 8))
where
  elems (fmt n : Nat) (bs : List Byte) : List Nat :=
    (List.range n).map fun i => leNat bs / 2 ^ (mxBits fmt * i) % 2 ^ mxBits fmt

/-- Scale byte of block `b` of a row; 127 for BF16. -/
def clScale (c : ClCmd) (row : List Byte) (b : Nat) : Nat :=
  if mxScaled c.fmt then (row.getD (c.dim * mxBits c.fmt / 8 + b) 0).toNat else 127

/-- Score of a head against a key row (R190). -/
def clScore (c : ClCmd) (q : List FVal) (row : List Byte) : W32 :=
  let k := clElems c row
  let sum := columnSum ((List.range (c.dim / 32)).map fun b =>
    let e := clScale c row b
    if e = 0xFF then f32Nan
    else blockValue ((q.drop (32 * b)).take 32) (((k.drop (32 * b)).take 32).map (mxValue c.fmt)) ((e : Int) - 127))
  f32Mul sum c.scale

/-- Value elements of a row in FP32 (R191). -/
def clValues (c : ClCmd) (row : List Byte) : List W32 :=
  let v := clElems c row
  (List.range c.dim).map fun d =>
    let e := clScale c row (d / 32)
    if e = 0xFF then f32Nan
    else BitVec.ofNat 32 (fp32.encode .rne ((mxValue c.fmt (v.getD d 0)).scale ((e : Int) - 127)))

/-- Maximum that is NaN when an operand is (R191). -/
def f32Max (a b : W32) : W32 :=
  if (fp32.decode a.toNat).isNan || (fp32.decode b.toNat).isNan then f32Nan else fpOp 0 4 a b 0

/-- a - b. -/
def f32Sub (a b : W32) : W32 := f32Add a (b ^^^ 0x80000000)

/-- One step of the scan for a head: scores and value rows of its positions (R191). -/
def headStep (h : HeadState) (ps : List (W32 × List W32)) : HeadState :=
  let mn := ps.foldl (fun m p => f32Max m p.1) h.m
  if mn = f32NegInf then h
  else
    let c := sfOp 3 (f32Sub h.m mn)
    let start : HeadState := ⟨mn, f32Mul h.l c, h.o.map fun x => f32Mul x c⟩
    ps.foldl (fun h p =>
      let w := sfOp 3 (f32Sub p.1 mn)
      { h with l := f32Add h.l w, o := List.zipWith (fun v o => fpOp 0 0 w v o) p.2 h.o }) start

/-- Query row of a head (R182). -/
def clQuery (c : ClCmd) (h : Nat) : List FVal :=
  (List.range c.dim).map fun d => bf16.decode (leNat ((c.query.drop (2 * (h * c.dim + d))).take 2))

/-! ## Engines (R189, R191, R194, R196) -/

/-- Rows of a position: key bytes, value bytes. -/
def clSplit (b : List Byte) : List Byte × List Byte := (b.take (b.length / 2), b.drop (b.length / 2))

/-- Read the positions of a step in order: rows read so far, or the status that stops the scan. -/
def clGather (c : ClCmd) : List Nat → State → List (List Byte) → Option (State × List (List Byte) × Option Byte)
  | [], s, acc => some (s, acc, none)
  | i :: is, s, acc =>
    match clPosition s c (c.position i) with
    | .wait => none
    | .stop s st => some (s, acc, some st)
    | .data s b => clGather c is s (acc ++ [b])

/-- A command has ended on its die: its result goes out, the engine is free (R185). -/
def clFinish (s : State) (id : Nat) (c : ClCmd) (status : Byte) : State :=
  let s := setCl s id { c with phase := .result, status := status }
  let s := bumpEvent s (5 + c.md) R.MEM_CL_COMMANDS_COUNT R.MEM_CL_OVF_COMMANDS_OVF
  arbTaskEnd s (5 + c.md) 192 (c.sp / 16)

/-- The request of a command at the Couloir arbiter (R178, R413, R417). -/
def clReq (id : Nat) (c : ClCmd) : ArbReq :=
  { input := c.sp / 16, rank := if c.resumed then none else some c.prio, id := id }

/-- Command that runs on an engine. -/
def clRunning (s : State) (md e : Nat) : Option (Nat × ClCmd) :=
  s.cl.cmds.find? fun x => x.2.md == md && x.2.phase == .running e

/-- Commands in the resume records of an engine. -/
def clRecords (s : State) (md e : Nat) : List (Nat × ClCmd) :=
  s.cl.cmds.filter fun x => x.2.md == md && x.2.phase == .record e

/-- Requests that an engine's grant decision sees: the die's queue, then its records. -/
def clWaiting (s : State) (md e : Nat) : List ArbReq :=
  ((tget s.cl.queues md []).filterMap fun id => (tget? s.cl.cmds id).map (clReq id))
    ++ (clRecords s md e).map fun x => clReq x.1 { x.2 with resumed := true }

/-- Put a waiting command on an engine. -/
def clAssign (s : State) (md e : Nat) (w : ArbReq) : State :=
  match tget? s.cl.cmds w.id with
  | none => s
  | some c =>
    let s := setCl s w.id { c with phase := .running e, resumed := c.phase == .record e }
    { s with cl := { s.cl with queues := tmod s.cl.queues md [] fun q => q.filter (· != w.id) } }

/-- Does a self-test run on an engine (R491)? -/
def clTested (s : State) (md e : Nat) : Bool :=
  s.svc.tests.any fun t => t.running && t.rid.kind == 7 && t.rid.die.toNat == 5 + md && t.rid.unit.toNat == e

/-- A grant decision of an engine: an idle engine takes the request picked, a running one keeps its command unless a
strictly higher rank waits and a record is free (R194, R417). -/
def clDecide (s : State) (md e : Nat) : State :=
  let die := 5 + md
  let waiting := clWaiting s md e
  match (if clTested s md e then none else arbPick s die 192 waiting) with
  | none => s
  | some w =>
    match clRunning s md e with
    | none => clAssign (arbAge s die 192 w waiting) md e w
    | some (id, c) =>
      let h := clReq id c
      if effRank s die 192 h < effRank s die 192 w
          ∧ ((clRecords s md e).filter fun x => x.1 != w.id).length < 4 then
        let s := arbAge s die 192 w waiting
        let s := bumpEvent s die R.MEM_CL_PREEMPTS_COUNT R.MEM_CL_OVF_PREEMPTS_OVF
        let s := bumpEvent s die R.ARB_PREEMPTS_COUNT R.ARB_OVF_PREEMPTS_OVF
        clAssign (setCl s id { c with phase := .record e }) md e w
      else arbAge s die 192 h waiting

/-- One step of the command on an engine (R191). -/
def clStep (s : State) (md e : Nat) : State :=
  match clRunning s md e with
  | none => s
  | some (id, c) =>
    let start := 32 * c.step
    let n := min 32 (c.total - start)
    if n = 0 then clFinish s id c 0
    else
      match clGather c ((List.range n).map (start + ·)) s [] with
      | none => s
      | some (s, rows, stop) =>
        let c := { c with keys := c.keys + rows.length }
        match stop with
        | some st => clFinish s id c st
        | none =>
          let rs := rows.map clSplit
          let vals := rs.map fun r => clValues c r.2
          let c := { c with
            step := c.step + 1
            state := (List.range c.heads).map fun h =>
              headStep (c.state.getD h ⟨f32NegInf, 0, []⟩)
                (List.zip (rs.map fun r => clScore c (clQuery c h) r.1) vals) }
          if c.total ≤ start + 32 then clFinish s id c 0 else clDecide (setCl s id c) md e

/-- CL_SCAN_STEP: an idle engine first takes a command. -/
def clScan (s : State) (md e : Nat) : State :=
  if !clEngineUp s md e then s
  else if (clRunning s md e).isSome then clStep s md e
  else clStep (clDecide s md e) md e

/-- CL_RESULT_DELIVER (R181, R183 to R185). -/
def clDeliver (s : State) (md id : Nat) : State :=
  match tget? s.cl.cmds id with
  | none => s
  | some c =>
    if c.md ≠ md ∨ c.phase ≠ .result then s
    else
      let key := md * 16 + c.sp / 8
      let s := { s with cl := { s.cl with
        cmds := tdel s.cl.cmds id
        credits := tset s.cl.credits key (tget s.cl.credits key 0 - 1) } }
      let s := modSpur s c.sp fun p => { p with
        lmem := memWrite p.lmem c.raddr (clResult c.status c.keys c.tag c.heads c.dim c.state) }
      blockEnd (finishCount s c.sp c.ctr c.num) c.sp c.blk

/-! ## The meanings -/

/-- CL_PORT_ASSEMBLE. -/
def execClPortAssemble (sp : Fin 128) (sl : Fin 32) (n : Fin 3) (data : BitVec 128) (s : State) :
    Host.Outcome State Fault Refusal := .next (clAssemble s sp sl n data)
/-- CL_SUBMIT. -/
def execClSubmit (sp : Fin 128) (sl : Fin 32) (data : BitVec 128) (s : State) : Host.Outcome State Fault Refusal :=
  .next (clSubmit s sp sl data)
/-- CL_SUBMIT_SEND. -/
def execClSubmitSend (sp : Fin 128) (sl : Fin 32) (s : State) : Host.Outcome State Fault Refusal := .next (clSend s sp sl)
/-- CL_COMMAND_RECEIVE. -/
def execClCommandReceive (md : Fin 6) (id : Nat) (s : State) : Host.Outcome State Fault Refusal := .next (clReceive s md id)
/-- CL_SCAN_STEP. -/
def execClScanStep (md : Fin 6) (eng : Fin 16) (s : State) : Host.Outcome State Fault Refusal := .next (clScan s md eng)
/-- CL_RESULT_DELIVER. -/
def execClResultDeliver (md : Fin 6) (id : Nat) (s : State) : Host.Outcome State Fault Refusal := .next (clDeliver s md id)

end Sys2Proof.Machine
end

