-- ==== Sys2Proof/Machine/Copy.lean ====
section
/-! DEFINITION. The copy unit, arrival counters and barriers (chapter 02): hauls, `arrive`, `bar`, the stall limit. -/

namespace Sys2Proof.Machine

/-! ## Hauls (R63 to R68, R517, R521) -/

/-- Issue a copy on a counter: ISSUE rises; a copy without bytes is finished at once (R63). -/
def copyIssue (s : State) (sp slot : Nat) (g : Group) (b : Block) (ctr : Nat) (toGlobal : Bool) (scope : Nat)
    (parts : List CopyPart) : State :=
  let p := s.spur sp
  if acquireHeld p g.gid || (parts != [] && 256 ≤ copyPlaces s sp) then s
  else
    let n := (tget p.counters ctr {}).issue + 1
    let job : CopyJob := { id := p.nextId, slot := slot, blk := g.blk, gidx := g.idx, pc := g.pc, ctx := b.ctx, ctr := ctr,
                           num := n, toGlobal := toGlobal, scope := scopeExec s b.ctx (BitVec.ofNat 3 scope), parts := parts }
    let s := modSpur s sp fun p => { p with
      counters := tmod p.counters ctr {} fun c => { c with issue := n, zero := if parts = [] then n :: c.zero else c.zero }
      nextId := p.nextId + 1
      copies := if parts = [] then p.copies else p.copies ++ [job] }
    let s := advance s sp slot g
    if parts = [] then finishCount s sp ctr n else s

/-- A counter index out of its bounds, which no register decides (R65, R84). -/
def badCtr (s : State) (sp slot i : Nat) : Bool :=
  (((groupAt s sp slot).bind fun g => (blockAt s sp g.blk).bind fun b => ctrIndex b g.blk i)).isNone

/-- `haul.lane`: 4, 8 or 16 bytes for each enabled lane. -/
def haulLane (s : State) (sp slot : Nat) (w : W64) : State :=
  ofClass s sp slot 0x20 w fun _ =>
    let c := fmtC w
    issue s sp slot (run c.vg 2 ++ [c.vl]) (6 ≤ c.scope || c.size == 3 || c.res0 != 0 || c.vg % 2 == 1
      || badCtr s sp slot c.ctr) fun g =>
      match blockAt s sp g.blk with
      | none => s
      | some b =>
        match ctrIndex b g.blk c.ctr with
        | none => groupFault s sp slot 1 g.pc 0
        | some i =>
          let n := 4 * 2 ^ c.size
          let parts := (g.enabled c.pred c.pneg).map fun l =>
            ({ va := g.rd64 l c.vg, la := (g.rd l c.vl).toNat, len := n } : CopyPart)
          match parts.find? fun p => p.va.toNat % n != 0 with
          | some p => groupFault s sp slot 3 g.pc p.va
          | none =>
            match localCause b n (parts.map (·.la)) with
            | some (cause, a) => groupFault s sp slot cause g.pc (BitVec.ofNat 64 a)
            | none => copyIssue s sp slot g b i c.toGlobal c.scope parts

/-- Parts of a bulk descriptor in a lane's registers, or none when it breaks a limit (R88, R521). -/
def bulkParts (g : Group) (lane vg : Nat) : Option (List CopyPart) :=
  let va := g.rd64 lane vg
  let d2 := (g.rd lane (vg + 2)).toNat
  let d3 := (g.rd lane (vg + 3)).toNat
  let stride := (g.rd lane (vg + 4)).toNat
  let la := bits d2 23 0
  let rows := bits d3 11 0 + 1
  let len := (bits d3 27 12 + 1) * 16
  if bits d2 31 24 ≠ 0 ∨ bits d3 31 28 ≠ 0 ∨ va.toNat % 16 ≠ 0 ∨ la % 16 ≠ 0 ∨ stride % 16 ≠ 0 ∨ 65536 < len
      ∨ 2 ^ 20 < rows * len then none
  else some ((List.range rows).map fun r =>
    ({ va := va + BitVec.ofNat 64 (r * stride), la := la + r * len, len := len } : CopyPart))

/-- `haul.bulk`. -/
def haulBulk (s : State) (sp slot : Nat) (w : W64) : State :=
  ofClass s sp slot 0x21 w fun _ =>
    let c := fmtC w
    issue s sp slot (run c.vg 5) (6 ≤ c.scope || c.size != 0 || c.vl != 0 || c.res0 != 0 || c.vg % 2 == 1
      || badCtr s sp slot c.ctr) fun g =>
      match blockAt s sp g.blk, g.lanes.head? with
      | some b, some l =>
        match ctrIndex b g.blk c.ctr with
        | none => groupFault s sp slot 1 g.pc 0
        | some i =>
          if xor (g.pred l c.pred) c.pneg then
            match bulkParts g l c.vg with
            | none => groupFault s sp slot 1 g.pc 0
            | some parts =>
              match parts.find? fun p => b.localSize < p.la + p.len with
              | some p => groupFault s sp slot 4 g.pc (BitVec.ofNat 64 p.la)
              | none => copyIssue s sp slot g b i c.toGlobal c.scope parts
          else copyIssue s sp slot g b i c.toGlobal c.scope []
      | _, _ => s

/-- Cut a part at multiples of `n` bytes of its global address. -/
def cutPart (n : Nat) : Nat → CopyPart → List CopyPart
  | 0, p => [p]
  | k + 1, p =>
    let room := n - p.va.toNat % n
    if p.len ≤ room then [p]
    else { p with len := room } ::
      cutPart n k { p with va := p.va + BitVec.ofNat 64 room, la := p.la + room, len := p.len - room }

/-- Pieces of a part within 64 B lines. -/
def CopyPart.lines (p : CopyPart) : List CopyPart := cutPart 64 (p.len / 64 + 1) p

/-- Is an address in a host or peer window? -/
def outside (pa : Nat) : Bool := match region pa with | .host _ | .peer .. => true | _ => false

/-- What one piece of a copy does: wait, fault with a cause, or be carried out. -/
inductive PieceRes
  | wait
  | fault (s : State) (cause : Nat)
  | done (s : State)
deriving DecidableEq, Repr

/-- Carry out one piece of a copy from global to local memory (R68, R517). -/
def pieceIn (s : State) (sp : Nat) (j : CopyJob) (base : Nat) (p : CopyPart) : PieceRes :=
  let put := fun (s : State) (b : List Byte) =>
    modSpur s sp fun q => { q with lmem := memWrite q.lmem (base + p.la) b }
  if p.st = .done then (if p.poison then .fault s 7 else .done (put s p.data))
  else
    match xlate s j.ctx p.va false with
    | .inr st => .fault s (if st = 4 then 6 else 5)
    | .inl pa =>
      if outside pa then .wait
      else if isMem pa then
        if !lineIdle s (pa / 64) then .wait
        else
          let c := targetCheck s sp j.ctx pa false
          if !c.2 then .fault c.1 6
          else
            let d := cohRead c.1 pa p.len
            if d.2 then .fault c.1 7 else .done (put (touch c.1 (pa / 64)) d.1)
      else match region pa with
        | .window n off =>
          let c := targetCheck s sp j.ctx pa false
          if c.2 then .done (put c.1 (leBytes p.len (regRead c.1 n off (8 * p.len)))) else .fault c.1 6
        | _ => .done (put s (List.replicate p.len 0))

/-- Carry out one piece of a copy from local to global memory (R68, R285). -/
def pieceOut (s : State) (sp : Nat) (j : CopyJob) (base : Nat) (p : CopyPart) : PieceRes :=
  let b := memRead (s.spur sp).lmem (base + p.la) p.len
  if p.st = .done then .done s
  else
    match xlate s j.ctx p.va true with
    | .inr st => if st = 4 then .done s else .fault s 5
    | .inl pa =>
      if outside pa then .wait
      else if isMem pa then
        if !lineIdle s (pa / 64) then .wait
        else
          let c := targetCheck s sp j.ctx pa true
          .done (if c.2 then cohPut c.1 pa b false else c.1)
      else match region pa with
        | .window n off => .done (send s (.regWrite n off (8 * p.len) (BitVec.ofNat 64 (leNat b)) j.ctx 0))
        | .doorbell off => .done (if p.len = 8 then
            send s (.doorbell (BitVec.ofNat 18 (off / 8)) j.ctx (BitVec.ofNat 64 (leNat b)) 0) else s)
        | _ => .done s

/-- COPY_UNIT_COMPLETE: every byte of a copy is written; DONE advances in issue order (R63). Bytes whose read fails are
left, the first failure is the block's fault (R517). -/
def copyComplete (s : State) (sp job : Nat) : State :=
  match (s.spur sp).copies.find? fun c => c.id == job && c.row.isNone with
  | none => s
  | some j =>
    match blockAt s sp j.blk with
    | none => s
    | some b =>
      let r := (j.parts.flatMap CopyPart.lines).foldl (fun (acc : Option (State × Option (Nat × W64))) p =>
        match acc with
        | none => none
        | some (s, f) =>
          match (if j.toGlobal then pieceOut s sp j b.base p else pieceIn s sp j b.base p) with
          | .wait => none
          | .done s => some (s, f)
          | .fault s c => some (s, f.or (some (c, p.va)))) (some (s, none))
      match r with
      | none => s
      | some (s, f) =>
        let s := modSpur s sp fun p => { p with copies := p.copies.filter fun c => c.id != job }
        let s := finishCount s sp j.ctr j.num
        match f with
        | some (c, va) => blockFault s sp j.blk j.gidx c j.pc va
        | none => blockEnd s sp j.blk

/-! ## Arrival counters and barriers -/

/-- RES0 of format W. -/
def badW (w : W64) : Bool := wf w 55 52 != 0 || wf w 37 0 != 0

/-- `arrive.get` (R64). -/
def arriveGet (s : State) (sp slot : Nat) (w : W64) : State :=
  ofClass s sp slot 0x22 w fun _ =>
    let vt := wf w 45 38
    issue s sp slot [vt] (badW w || badCtr s sp slot (wf w 51 46)) fun g =>
      match (blockAt s sp g.blk).bind fun b => ctrIndex b g.blk (wf w 51 46) with
      | none => groupFault s sp slot 1 g.pc 0
      | some i =>
        let n := (tget (s.spur sp).counters i {}).issue
        advance s sp slot (g.wrLanes vt (fun _ => n) g.lanes)

/-- `arrive.wait` (R64, R67). -/
def arriveWait (s : State) (sp slot : Nat) (w : W64) : State :=
  ofClass s sp slot 0x23 w fun _ =>
    let vt := wf w 45 38
    issue s sp slot [vt] (badW w || badCtr s sp slot (wf w 51 46)) fun g =>
      match (blockAt s sp g.blk).bind fun b => ctrIndex b g.blk (wf w 51 46) with
      | none => groupFault s sp slot 1 g.pc 0
      | some i =>
        let target := g.rd (g.lanes.headD 0) vt
        if seqReached target (tget (s.spur sp).counters i {}).done then advance s sp slot g
        else setGroup s sp slot { g with wait := some (.arrive i target) }

/-- Groups of a block that have not exited (R69). -/
def liveGroups (p : Spur) (b : Nat) : Nat := (p.groups.filter fun e => e.2.blk == b && !e.2.done).length

/-- A group arrives at a barrier (R69, R70); `hold`: `bar.sync`. It arrives once its earlier accesses are performed, which
orders them before what follows the release (R71). -/
def barrier (s : State) (sp slot op : Nat) (hold : Bool) (w : W64) : State :=
  ofClass s sp slot op w fun _ =>
    let bar := wf w 51 48
    let vn := wf w 47 40
    issue s sp slot [vn] (wf w 55 52 != 0 || wf w 39 0 != 0) fun g =>
      let count := (g.rd (g.lanes.headD 0) vn).toNat
      if count % g.width ≠ 0 then groupFault s sp slot 1 g.pc 0
      else if !settledAt (s.spur sp) g.gid 1 then s
      else
        match blockAt s sp g.blk with
        | none => s
        | some b =>
          let target := if count = 0 then g.width * liveGroups (s.spur sp) g.blk else count
          let now := tget b.bars bar 0 + g.width
          let mine := target ≤ now
          let waits := fun (x : Group) => x.blk == g.blk && (match x.wait with
            | some (.bar k t) => k.toNat == bar && t ≤ now
            | _ => false)
          let full := mine ∨ (s.spur sp).groups.any fun e => waits e.2
          let s := setBlock s sp g.blk { b with bars := tset b.bars bar (if full then 0 else now) }
          let s := modSpur s sp fun p => { p with groups := p.groups.map fun e => if waits e.2 then (e.1, e.2.resume) else e }
          if hold ∧ !mine then setGroup s sp slot { g with wait := some (.bar (BitVec.ofNat 4 bar) target) }
          else advance s sp slot g

/-- STALL_LIMIT_EXPIRY (R67, R83). -/
def stallExpiry (s : State) (sp slot : Nat) : State :=
  match groupAt s sp slot with
  | none => s
  | some g =>
    match g.wait, blockAt s sp g.blk with
    | some (.arrive ..), some b | some (.bar ..), some b => if b.stall = 0 then s else groupFault s sp slot 10 g.pc 0
    | _, _ => s

/-! ## The meanings -/

/-- HAUL_LANE. -/
def execHaulLane (sp : Fin 128) (sl : Fin 32) (w : W64) (s : State) : Host.Outcome State Fault Refusal :=
  .next (haulLane s sp sl w)
/-- HAUL_BULK. -/
def execHaulBulk (sp : Fin 128) (sl : Fin 32) (w : W64) (s : State) : Host.Outcome State Fault Refusal :=
  .next (haulBulk s sp sl w)
/-- COPY_UNIT_COMPLETE. -/
def execCopyUnitComplete (sp : Fin 128) (job : Nat) (s : State) : Host.Outcome State Fault Refusal :=
  .next (copyComplete s sp job)
/-- ARRIVE_GET. -/
def execArriveGet (sp : Fin 128) (sl : Fin 32) (w : W64) (s : State) : Host.Outcome State Fault Refusal :=
  .next (arriveGet s sp sl w)
/-- ARRIVE_WAIT. -/
def execArriveWait (sp : Fin 128) (sl : Fin 32) (w : W64) (s : State) : Host.Outcome State Fault Refusal :=
  .next (arriveWait s sp sl w)
/-- BAR_SYNC. -/
def execBarSync (sp : Fin 128) (sl : Fin 32) (w : W64) (s : State) : Host.Outcome State Fault Refusal :=
  .next (barrier s sp sl 0x28 true w)
/-- BAR_ARRIVE. -/
def execBarArrive (sp : Fin 128) (sl : Fin 32) (w : W64) (s : State) : Host.Outcome State Fault Refusal :=
  .next (barrier s sp sl 0x29 false w)
/-- STALL_LIMIT_EXPIRY. -/
def execStallLimitExpiry (sp : Fin 128) (sl : Fin 32) (s : State) : Host.Outcome State Fault Refusal :=
  .next (stallExpiry s sp sl)

end Sys2Proof.Machine
end

