-- ==== Sys2Proof/Machine/Scalar.lean ====
section
/-! DEFINITION. Memory operations of the scalar harts (R199 to R211, R230, R237, R260 to R263, R280): loads, stores,
atomics, fences, cache-block operations and the translation they go through. A command that cannot complete at once
asks for what it needs and leaves the hart as it was; the hart presents it again. -/

namespace Sys2Proof.Machine

/-- Cluster L2 agent of a hart (R236). -/
def clusterOf (h : Nat) : Nat := h / 4

/-- Name of a hart in the messages it sends. -/
def hartKey (h : Nat) : Nat := 2 ^ 41 + h

/-- Write an x register; x0 discards. -/
def setX (s : State) (h rd : Nat) (v : W64) : State :=
  modHart s h fun x => { x with x := if rd = 0 then x.x else tset x.x rd v, busy := none }

/-- A hart takes an exception; its older stores are performed before the handler's first instruction (R230). -/
def hartTrap (s : State) (h cause : Nat) (tval : W64) : State :=
  modHart s h fun x => { x with trap := some ⟨cause, tval, false⟩, busy := none, fenceWait := x.fenceWait || x.storeBuf != [] }

/-! ## Context and translation (R200, R268, R272, R283, R284) -/

/-- satp, vsatp and hgatp: MODE, ASID or VMID, PPN. -/
def atpMode (w : W64) : BitVec 4 := BitVec.ofNat 4 (bits w.toNat 63 60)
/-- ASID of satp. -/
def atpAsid (w : W64) : BitVec 16 := BitVec.ofNat 16 (bits w.toNat 59 44)
/-- VMID of hgatp. -/
def atpVmid (w : W64) : BitVec 16 := BitVec.ofNat 16 (bits w.toNat 57 44)
/-- PPN. -/
def atpPpn (w : W64) : BitVec 44 := BitVec.ofNat 44 (bits w.toNat 43 0)

/-- Context of a hart's requests (R268). -/
def Hart.ctx (x : Hart) : BitVec 16 :=
  if x.v then atpVmid x.hgatp else if x.mode = 3 ∨ atpMode x.satp = 0 then 0 else atpAsid x.satp

/-- Does a hart translate? -/
def Hart.translates (x : Hart) : Bool :=
  if x.v then atpMode x.vsatp != 0 || atpMode x.hgatp != 0 else x.mode != 3 && atpMode x.satp != 0

/-- The tables of a hart, as a context's. -/
def Hart.tables (s : State) (x : Hart) : Ctx :=
  let c := s.ctx? x.ctx
  let first := if x.v then x.vsatp else x.satp
  { panyx := false, host := false, hostWin := x.ctx == 0 || (c.map (·.hostWin)).getD false
    peerWin := x.ctx == 0 || (c.map (·.peerWin)).getD false
    mode := atpMode first, gmode := if x.v then atpMode x.hgatp else 0, evq := none
    root := atpPpn first, groot := atpPpn x.hgatp }

/-- First-stage walk of a hart (R272): guest physical address of the leaf, size, PBMT, R, W, X, U, D. -/
def hartStage1 (s : State) (c : Ctx) (va : W64) : Nat → Nat →
    Sum (Nat × Nat × Nat × Bool × Bool × Bool × Bool × Bool) XltFault
  | level, table =>
    let a := va.toNat % 2 ^ 57
    match gStage s c (table * 4096 + a / 2 ^ (12 + 9 * level) % 512 * 8) with
    | .inr f => .inr f
    | .inl (pa, _) =>
      match readPte s pa with
      | none => .inr .tableRead
      | some pte =>
        match pteStep level pte, level with
        | .leaf sh ppn r w x u d pbmt, _ => .inl (leafAddr sh ppn a, sh, pbmt, r, w, x, u, d)
        | .next ppn, l + 1 => hartStage1 s c va l ppn
        | _, _ => .inr .translation
termination_by structural l => l

/-- A hart's walk: the leaf to install. -/
def hartWalk (s : State) (x : Hart) (va : W64) : Sum HartTlb XltFault :=
  let c := x.tables s
  let first : Sum (Nat × Nat × Nat × Bool × Bool × Bool × Option Bool × Bool) XltFault :=
    if c.mode = 0 then .inl (va.toNat, 57, 0, true, true, true, none, true)
    else if !canonical c.mode va then .inr .translation
    else match hartStage1 s c va (topLevel c.mode) c.root.toNat with
      | .inl (pa, sh, pb, r, w, ex, u, d) => .inl (pa, sh, pb, r, w, ex, some u, d)
      | .inr f => .inr f
  match first with
  | .inr f => .inr f
  | .inl (gpa, sh, pbmt, r, w, ex, u, d) =>
    match gStage s c gpa with
    | .inr f => .inr f
    | .inl (pa, gsh, gpbmt, gr, gw, gx) =>
      let m := min (min sh gsh) 21
      let m := if m = 21 ∨ m = 16 then m else 12
      .inl ⟨{ ctx := x.ctx, sh := m, vpn := va.toNat % 2 ^ 57 / 2 ^ m, ppn := pa / 2 ^ m, r := r, w := w, x := ex && gx,
               d := d, pbmt := BitVec.ofNat 2 (if pbmt = 0 then gpbmt else pbmt), wok := true }, u, x.v,
              if x.v then atpAsid x.vsatp else 0, gr, gw⟩

/-- What a translation gives an access. -/
inductive HartXlt
  | ok (pa : Nat) (typ : BitVec 2)
  | fault (cause : Nat)
  /-- a claim query is on its way -/
  | wait
deriving DecidableEq, Repr

/-- Exception causes of an access: page fault, guest page fault, access fault. -/
def causePage (write : Bool) : Nat := if write then 15 else 13
/-- Guest page fault. -/
def causeGuest (write : Bool) : Nat := if write then 23 else 21
/-- Access fault. -/
def causeAccess (write : Bool) : Nat := if write then 7 else 5

/-- Cause of a failed walk (R272, R284). -/
def causeOf (write : Bool) : XltFault → Nat
  | .translation => causePage write
  | .guest => causeGuest write
  | .tableRead | .claim => causeAccess write

/-- Rights of a leaf for a hart (R272): U and SUM, MXR, D. -/
def Hart.allows (x : Hart) (t : HartTlb) (write : Bool) : Bool :=
  (match t.u with
   | none => true
   | some u => if x.mode = 0 then u else !u || x.sum)
  && (if write then t.e.w && t.e.d else t.e.r || (x.mxr && t.e.x))

/-- The scalar TLB's entry for an address. -/
def Hart.tlbFind (x : Hart) (va : W64) : Option HartTlb :=
  x.tlb.find? fun t => t.e.hits x.ctx va && t.v == x.v && (!x.v || t.asid == atpAsid x.vsatp)

/-- Install a leaf in the scalar TLB. -/
def Hart.tlbPut (x : Hart) (t : HartTlb) : Hart :=
  { x with tlb := t :: x.tlb.filter fun y =>
      !(y.e.ctx == t.e.ctx && y.v == t.v && y.asid == t.asid && y.e.sh == t.e.sh && y.e.vpn == t.e.vpn) }

/-- Through an entry of the TLB. -/
def Hart.through (x : Hart) (t : HartTlb) (va : W64) (write : Bool) : HartXlt :=
  if !x.allows t write then .fault (causePage write)
  else if !(if write then t.gw else t.gr) then .fault (causeGuest write)
  else if write && !t.e.wok then .fault (causeAccess true)
  else .ok (t.e.addr va) (typeAt (t.e.addr va) t.e.pbmt)

/-- Translate a hart's access. A leaf that is not in the TLB is walked for, and installed once its claim query is
answered; a leaf in the doorbell, host or peer windows needs none. -/
def hartXlate (s : State) (h : Nat) (va : W64) (write : Bool) : State × HartXlt :=
  let x := s.hart h
  if !x.translates then
    if va.toNat < 2 ^ 52 then (s, .ok va.toNat (typeAt va.toNat 0)) else (s, .fault (causeAccess write))
  else match x.tlbFind va with
    | some t => (s, x.through t va write)
    | none =>
      match hartWalk s x va with
      | .inr f => (s, .fault (causeOf write f))
      | .inl t =>
        let pa := t.e.addr va
        if !x.allows t write || !(if write then t.gw else t.gr) then (s, x.through t va write)
        else
          let c := x.tables s
          let here := modHart s h fun y => y.tlbPut t
          match region pa with
          | .reserved => (s, .fault (causePage write))
          | .doorbell _ => (here, x.through t va write)
          | .host _ => if c.hostWin then (here, x.through t va write) else (s, .fault (causeAccess write))
          | .peer _ _ => if c.peerWin then (here, x.through t va write) else (s, .fault (causeAccess write))
          | r =>
            let down := match r with | .window n _ => !dieUp s n | _ => false
            if down then (s, .fault (causePage write))
            else match x.fill with
              | some f =>
                if f.t = t ∧ f.pa = pa then
                  match f.refused with
                  | true => (modHart s h fun y => { y with fill := none }, .fault (causeAccess write))
                  | false => (s, .wait)
                else (modHart s h fun y => { y with fill := some ⟨t, pa, false⟩ }, .wait)
              | none => (modHart s h fun y => { y with fill := some ⟨t, pa, false⟩ }, .wait)

/-- A part of an access: bytes `n` at `va`, within one line. -/
structure HartPiece where
  va : W64
  pa : Nat
  n : Nat
  typ : BitVec 2
deriving DecidableEq, Repr

/-- The lines of an access: a misaligned one may cross into a second (R208). -/
def hartCut (va : W64) (n : Nat) : List (W64 × Nat) :=
  let k := 64 - va.toNat % 64
  if n ≤ k then [(va, n)] else [(va, k), (va + BitVec.ofNat 64 k, n - k)]

/-- Translate every part of an access: a fault with its address, or nothing yet, or the parts. -/
def hartPieces (s : State) (h : Nat) (va : W64) (n : Nat) (write : Bool) :
    State × Sum (Nat × W64) (Option (List HartPiece)) :=
  (hartCut va n).foldl (fun acc p =>
    match acc.2 with
    | .inr (some l) =>
      match hartXlate acc.1 h p.1 write with
      | (s, .ok pa t) => (s, .inr (some (l ++ [⟨p.1, pa, p.2, t⟩])))
      | (s, .fault c) => (s, .inl (c, p.1))
      | (s, .wait) => (s, .inr none)
    | _ => acc) (s, .inr (some []))

/-! ## Store buffer and waits (R210, R211, R230) -/

/-- A buffered store to NU memory is performed at the line's home (R203). -/
def hartPutNu (s : State) (h : Nat) (x : HartStore) : State :=
  if x.typ = 0 ∨ !lineIdle s (x.pa / 64) then s
  else
    let s := modHart s h fun y => { y with storeBuf := y.storeBuf.erase x }
    let c := targetCheckBy s (agentDie (clusterOf h)) (clusterOf h) x.ctx x.pa true
    if c.2 then cohPut c.1 x.pa x.bytes false else c.1

/-- Perform the buffered stores of a hart that can be performed, and ask for the lines of the rest. -/
def hartDrain (s : State) (h : Nat) : State :=
  (s.hart h).storeBuf.foldl (fun s x =>
    if !(s.hart h).storeBuf.contains x then s
    else if x.typ ≠ 0 then hartPutNu s h x
    else if agentWritable s (clusterOf h) (x.pa / 64) then clusterStores s (clusterOf h) (x.pa / 64)
    else agentWantWrite s (clusterOf h) (x.pa / 64) x.ctx) s

/-- Is a register or doorbell write of a hart on its way? -/
def hartOut (s : State) (h : Nat) : Bool :=
  s.net.any fun m => match m with
    | .regWrite _ _ _ _ _ src | .doorbell _ _ _ src => src == hartKey h
    | _ => false

/-- Have a hart's writes been performed, those to host and peer windows included (R210)? -/
def hartQuiet (s : State) (h : Nat) : Bool :=
  (s.hart h).storeBuf == [] && (s.hart h).winStores == [] && !hartOut s h

/-- Is a hart's core in service (R479, R482)? -/
def hartUp (s : State) (h : Nat) : Bool :=
  dieUp s (1 + h / 32) && bitAt (fldAt s (1 + h / 32) R.UNIT_MAP_IN_SERVICE 0) (h % 32)

/-- May the hart's next access begin? Its waits are then over. -/
def hartReady (s : State) (h : Nat) : Option State :=
  let x := s.hart h
  if !hartUp s h || x.load.isSome || (x.ds && hartOut s h) || x.wrs == some false || (x.fenceWait && !hartQuiet s h) then none
  else some (modHart s h fun x => { x with ds := false, wrs := none, fenceWait := false })

/-- A command of a hart: held while an earlier one holds it. -/
def hartDo (s : State) (h : Nat) (f : State → State) : State :=
  let s := hartDrain s h
  match hartReady s h with
  | some s => f s
  | none => s

/-- The hart waits for a line. -/
def hartAwait (s : State) (h ln : Nat) : State := modHart s h fun x => { x with busy := some ln }

/-- Does the hart's store buffer hold a store to a line? -/
def hartBuffered (s : State) (h ln : Nat) : Bool := (s.hart h).storeBuf.any fun x => x.pa / 64 == ln

/-! ## Core L1 (R237, R257) -/

/-- Seed of a core's LFSR (CORE_L2_CFG). -/
def coreSeed (s : State) (h : Nat) : BitVec 16 :=
  seedOr1 (BitVec.ofNat 16 (fld s (1 + h / 32) R.CORE_L2_CFG_LFSR_SEED) ^^^ BitVec.ofNat 16 ((8 + h % 32) * 0x1111))

/-- Put a line into a core L1 data cache; a dirty line it replaces goes to the cluster L2 (R253, R257). -/
def coreFill (s : State) (h ln : Nat) (d : Line) (dirty : Bool) : State :=
  let x := s.hart h
  let mates := x.l1d.filter fun e => x.l1d.length < 8 || Config.coreSet e.1 == Config.coreSet ln
  let put := fun (s : State) (w : Nat) => modHart s h fun x => { x with l1d := tset x.l1d ln ⟨d, dirty, w⟩ }
  match tget? x.l1d ln with
  | some l => put s l.way
  | none =>
    match (List.range 8).find? fun w => mates.all fun e => e.2.way != w with
    | some w => put s w
    | none =>
      let r := lfsrVal x.lfsr (coreSeed s h)
      let w := r.toNat % 8
      let s := modHart s h fun x => { x with lfsr := lfsrStep r }
      let s := (mates.filter fun e => e.2.way == w).foldl (fun s e =>
        let s := modHart s h fun x => { x with l1d := tdel x.l1d e.1 }
        match agentLine s (clusterOf h) e.1 with
        | some l => if e.2.dirty then setAgentLine s (clusterOf h) e.1 { l with st := .m, data := e.2.data } else s
        | none => s) s
      put s w

/-! ## Loads -/

/-- What a part of a load gives. -/
inductive HartGot
  | data (b : List Byte)
  | wait
  /-- poisoned or refused: a load access fault (R230, R285) -/
  | poison
  /-- a host or peer window answers later -/
  | window
deriving DecidableEq, Repr

/-- Bytes of a line. -/
def lineSlice (d : Line) (o n : Nat) : List Byte := ((lineBytes d).drop o).take n

/-- Bytes with the hart's own buffered stores over them (R210). -/
def hartForward (x : Hart) (pa : Nat) (b : List Byte) : List Byte :=
  x.storeBuf.foldl (fun b y => (List.range b.length).map fun i =>
    if y.pa ≤ pa + i ∧ pa + i < y.pa + y.bytes.length then y.bytes.getD (pa + i - y.pa) 0 else b.getD i 0) b

/-- Read a line through the core L1 and the cluster L2 (R237, R240). -/
def hartLine (s : State) (h ln : Nat) : State × Option Line × Bool :=
  let a := clusterOf h
  match tget? (s.hart h).l1d ln with
  | some l => (s, some l.data, false)
  | none =>
    match takeRefused s a ln with
    | some s => (s, none, true)
    | none =>
      let s := if (l1Dirty s a ln).isSome then mergeL1 s a ln else s
      match agentLine s a ln with
      | some l => if l.poison then (s, none, true) else (coreFill s h ln l.data false, some l.data, false)
      | none => (hartAwait (agentWantRead s a ln (s.hart h).ctx) h ln, none, false)

/-- One part of a load. -/
def hartLoadPiece (s : State) (h : Nat) (p : HartPiece) : State × HartGot :=
  let x := s.hart h
  let ln := p.pa / 64
  match region p.pa with
  | .hbm | .board =>
    if p.typ = 0 then
      match hartLine s h ln with
      | (s, some d, _) => (s, .data (hartForward x p.pa (lineSlice d (p.pa % 64) p.n)))
      | (s, none, true) => (s, .poison)
      | (s, none, false) => (s, .wait)
    else if !lineIdle s ln || hartBuffered s h ln then (s, .wait)
    else
      let c := targetCheckBy s (agentDie (clusterOf h)) (clusterOf h) x.ctx p.pa false
      if !c.2 then (c.1, .poison)
      else
        let d := cohLine c.1 ln
        if d.2 then (c.1, .poison) else (touch c.1 ln, .data (lineSlice d.1 (p.pa % 64) p.n))
  | .window n off =>
    if hartOut s h then (s, .wait)
    else
      let c := targetCheckBy s (agentDie (clusterOf h)) (clusterOf h) x.ctx p.pa false
      if c.2 then (c.1, .data (leBytes p.n (regRead c.1 n off (8 * p.n)))) else (c.1, .poison)
  | .doorbell _ => (s, .data (leBytes p.n 0))
  | .reserved => (s, .poison)
  | _ => (s, .window)

/-- Value of loaded bytes, sign- or zero-extended. -/
def extend (b : List Byte) (signed : Bool) : W64 :=
  let n := 8 * b.length
  let v := leNat b
  BitVec.ofNat 64 (if signed && bitAt v (n - 1) then 2 ^ 64 - 2 ^ n + v else v)

/-- A load is finished when every part has its bytes. -/
def hartLoadEnd (s : State) (h : Nat) (l : HartLoad) : State :=
  if l.parts.all (·.st == 2) then
    let s := modHart s h fun x => { x with load := none }
    if l.parts.any (·.bad) then hartTrap s h 5 l.va
    else setX s h l.rd (extend (l.parts.flatMap (·.data)) l.signed)
  else modHart s h fun x => { x with load := some l }

/-- SCALAR_LOAD. -/
def hartLoad (s : State) (h rd : Nat) (va : W64) (lg : Nat) (signed : Bool) : State :=
  hartDo s h fun s =>
    match hartPieces s h va (2 ^ lg) false with
    | (s, .inl (c, a)) => hartTrap s h c a
    | (s, .inr none) => s
    | (s, .inr (some ps)) =>
      let r := ps.foldl (fun (acc : State × Option (List HartPart) × Bool) p =>
        match hartLoadPiece acc.1 h p with
        | (s, .data b) => (s, acc.2.1.map (· ++ [⟨p.pa, p.n, (s.hart h).ctx, b, 2, false⟩]), acc.2.2)
        | (s, .window) => (s, acc.2.1.map (· ++ [⟨p.pa, p.n, (s.hart h).ctx, [], 0, false⟩]), acc.2.2)
        | (s, .poison) => (s, acc.2.1, true)
        | (s, .wait) => (s, none, acc.2.2)) (s, some [], false)
      if r.2.2 then hartTrap r.1 h 5 va
      else match r.2.1 with
        | none => r.1
        | some l => hartLoadEnd r.1 h ⟨rd, signed, va, l⟩

/-- A host or peer window has answered a hart's access: data, or an error. -/
def hartWindowDone (s : State) (h pa : Nat) (write : Bool) (b : List Byte) (bad : Bool) : State :=
  let x := s.hart h
  if write then
    match x.winStores.find? fun p => p.pa == pa && p.st == 1 with
    | some p => modHart s h fun x => { x with winStores := x.winStores.erase p }
    | none => s
  else
    match x.load with
    | some l =>
      match l.parts.find? fun p => p.pa == pa && p.st == 1 with
      | some p => hartLoadEnd s h { l with parts := l.parts.map fun q =>
          if q = p then { q with data := b, st := 2, bad := bad } else q }
      | none => s
    | none => s

/-! ## Stores -/

/-- Can a part of a store be taken now? A DS store to memory is performed at once, at the line's home (R200). -/
def hartStoreReady (s : State) (h : Nat) (p : HartPiece) : Bool :=
  !(isMem p.pa && p.typ == 2) || (lineIdle s (p.pa / 64) && !hartBuffered s h (p.pa / 64))

/-- Take one part of a store (R201, R202, R210, R266). -/
def hartStorePiece (s : State) (h : Nat) (p : HartPiece) (b : List Byte) : State :=
  let ctx := (s.hart h).ctx
  let ds := p.typ == 2
  match region p.pa with
  | .hbm | .board =>
    if p.typ = 2 then
      let c := targetCheckBy s (agentDie (clusterOf h)) (clusterOf h) ctx p.pa true
      if c.2 then cohPut c.1 p.pa b false else c.1
    else modHart s h fun x => { x with storeBuf := x.storeBuf ++ [⟨p.pa, b, p.typ, ctx⟩] }
  | .window n off =>
    if 0x1200000 ≤ off ∧ off < 0x1200040 ∧ 16 ≤ n then s
    else modHart (send s (.regWrite n off (8 * p.n) (BitVec.ofNat 64 (leNat b)) ctx (hartKey h))) h fun x => { x with ds := ds }
  | .doorbell off =>
    if p.n = 8 ∧ off % 8 = 0 then
      modHart (send s (.doorbell (BitVec.ofNat 18 (off / 8)) ctx (BitVec.ofNat 64 (leNat b)) (hartKey h))) h fun x =>
        { x with ds := ds }
    else s
  | .reserved => s
  | _ => modHart s h fun x => { x with winStores := x.winStores ++ [⟨p.pa, p.n, ctx, b, 0, false⟩] }

/-- SCALAR_STORE. -/
def hartStore (s : State) (h : Nat) (va : W64) (lg : Nat) (data : W64) : State :=
  hartDo s h fun s =>
    match hartPieces s h va (2 ^ lg) true with
    | (s, .inl (c, a)) => hartTrap s h c a
    | (s, .inr none) => s
    | (s, .inr (some ps)) =>
      if !ps.all (hartStoreReady s h) then s
      else
        let b := leBytes (2 ^ lg) data.toNat
        let r := ps.foldl (fun (acc : State × List Byte) p =>
          (hartStorePiece acc.1 h p (acc.2.take p.n), acc.2.drop p.n)) (s, b)
        hartDrain r.1 h

/-! ## Atomics (R205, R240) -/

/-- Result of an AMO on values of `8 n` bits. -/
def amoValue (op : AmoOp) (n : Nat) (old src : W64) : W64 :=
  let w := 8 * n
  let a := old.toNat % 2 ^ w
  let b := src.toNat % 2 ^ w
  let lt := (extend (leBytes n a) true).slt (extend (leBytes n b) true)
  BitVec.ofNat 64 (match op with
    | .swap | .sc => b
    | .add => (a + b) % 2 ^ w
    | .xor => a ^^^ b
    | .and => a &&& b
    | .or => a ||| b
    | .min => if lt then a else b
    | .max => if lt then b else a
    | .minu => min a b
    | .maxu => max a b
    | .lr => a)

/-- Finish an atomic whose location holds `cur`: the result register, and the bytes to store if any. -/
def amoResult (x : Hart) (op : AmoOp) (ln : Nat) (cur : List Byte) (src : W64) : W64 × Option (List Byte) :=
  let n := cur.length
  let old := BitVec.ofNat 64 (leNat cur)
  match op with
  | .lr => (extend cur true, none)
  | .sc => if x.resv = some ln then (0, some (leBytes n src.toNat)) else (1, none)
  | _ => (extend cur true, some (leBytes n (amoValue op n old src).toNat))

/-- LR takes a reservation and SC ends it (R211). -/
def amoResv (s : State) (h : Nat) (op : AmoOp) (ln : Nat) : State :=
  modHart s h fun x => { x with resv := match op with | .lr => some ln | .sc => none | _ => x.resv }

/-- SCALAR_AMO: in the core L1 with the line in M, or at the home for NU memory. -/
def hartAmo (s : State) (h : Nat) (op : AmoOp) (rd : Nat) (va : W64) (dbl rl : Bool) (src : W64) : State :=
  hartDo s h fun s =>
    let n := if dbl then 8 else 4
    let wr := op != .lr
    let odd := va.toNat % n != 0 && (op == .lr || op == .sc || 16 < va.toNat % 16 + n)
    if odd then hartTrap s h (if wr then 6 else 4) va
    else if rl && !hartQuiet s h then s
    else match hartPieces s h va n wr with
      | (s, .inl (c, a)) => hartTrap s h c a
      | (s, .inr (some [p])) =>
        let a := clusterOf h
        let ln := p.pa / 64
        let x := s.hart h
        if p.typ = 2 ∨ !isMem p.pa then hartTrap s h (causeAccess wr) va
        else if hartBuffered s h ln then s
        else if op = .sc ∧ x.resv ≠ some ln then setX (amoResv s h op ln) h rd 1
        else if p.typ = 0 then
          match takeRefused s a ln with
          | some s => hartTrap s h (causeAccess wr) va
          | none =>
            if wr && !agentWritable s a ln then hartAwait (agentWantWrite s a ln x.ctx) h ln
            else match hartLine s h ln with
              | (s, some d, _) =>
                let r := amoResult x op ln (lineSlice d (p.pa % 64) n) src
                let s := match r.2 with
                  | some b =>
                    let s := wakeResv (mergeL1 s a ln) ln
                    match agentLine s a ln with
                    | some l => coreFill (setAgentLine s a ln { l with st := .m }) h ln (putBytes l.data (p.pa % 64) b) true
                    | none => s
                  | none => s
                setX (amoResv s h op ln) h rd r.1
              | (s, none, true) => hartTrap s h (causeAccess wr) va
              | (s, none, false) => s
        else if !lineIdle s ln then s
        else
          let c := targetCheckBy s (agentDie a) a x.ctx p.pa wr
          let d := cohLine c.1 ln
          if !c.2 || d.2 then hartTrap c.1 h (causeAccess wr) va
          else
            let r := amoResult x op ln (lineSlice d.1 (p.pa % 64) n) src
            let s := match r.2 with
              | some b => cohPut c.1 p.pa b false
              | none => c.1
            setX (amoResv s h op ln) h rd r.1
      | (s, .inr _) => s

/-! ## Fences, waits and cache-block operations -/

/-- SCALAR_FENCE (R210). `pred`, `succ`: I, O, R, W in bits 3 to 0. -/
def hartFence (s : State) (h : Nat) (pred succ : BitVec 4) : State :=
  hartDo s h fun s => modHart s h fun x =>
    { x with fenceWait := (pred.getLsbD 0 || pred.getLsbD 2) && succ != 0 && !hartQuiet s h }

/-- FENCE_I (R237): the hart's stores are performed first, then its instruction cache holds nothing. -/
def hartFenceI (s : State) (h : Nat) : State :=
  hartDo s h fun s => if (s.hart h).storeBuf = [] then modHart s h fun x => { x with l1i := [] } else s

/-- WRS_WAIT (R211): without a reservation there is nothing to wait for. -/
def hartWrs (s : State) (h : Nat) (sto : Bool) : State :=
  hartDo s h fun s => modHart s h fun x => { x with wrs := if x.resv.isSome then some sto else none }

/-- Does an envcfg register enable a cache-block operation? 0 clean and flush, 1 inval, 2 zero. -/
def cbEnabled (env : W64) (op : Nat) : Bool :=
  match op with
  | 0 => env.getLsbD 6
  | 1 => bits env.toNat 5 4 == 1 || bits env.toNat 5 4 == 3
  | _ => env.getLsbD 7

/-- Exception of a cache-block operation that is not enabled: illegal or virtual instruction (R260). -/
def cbFault (x : Hart) (op : Nat) : Option Nat :=
  if x.mode = 3 then none
  else if !cbEnabled x.menvcfg op then some 2
  else if x.v then
    if !cbEnabled x.henvcfg op || (x.mode == 0 && !cbEnabled x.senvcfg op) then some 22 else none
  else if x.mode == 0 && !cbEnabled x.senvcfg op then some 2 else none

/-- A cache-block operation on the block of an address. -/
def hartCbo (s : State) (h : Nat) (va : W64) (op : Nat) (eff : State → HartPiece → State) : State :=
  hartDo s h fun s =>
    match cbFault (s.hart h) op with
    | some c => hartTrap s h c 0
    | none =>
      let va := BitVec.ofNat 64 (va.toNat / 64 * 64)
      match hartPieces s h va 64 true with
      | (s, .inl (c, a)) => hartTrap s h c a
      | (s, .inr (some [p])) => if hartBuffered s h (p.pa / 64) then s else eff s p
      | (s, .inr _) => s

/-- CBO_CLEAN and CBO_FLUSH at the home of the block (R260, R262); elsewhere no effect. -/
def hartClean (s : State) (h : Nat) (va : W64) (op : Nat) (act : State → Nat → State) : State :=
  hartCbo s h va op fun s p =>
    let ln := p.pa / 64
    if !isMem p.pa || !lineIdle s ln then s
    else
      let c := targetCheckBy s (agentDie (clusterOf h)) (clusterOf h) (s.hart h).ctx p.pa true
      if c.2 then act c.1 ln else c.1

/-- CBO_ZERO: the cluster takes the line in M with zeros (R260, R262). -/
def hartZero (s : State) (h : Nat) (va : W64) : State :=
  hartCbo s h va 2 fun s p =>
    let a := clusterOf h
    let ln := p.pa / 64
    if !isMem p.pa || p.typ == 2 then hartTrap s h 7 p.va
    else
      let done := fun (s : State) => modHart s h fun x => { x with busy := none }
      match takeRefused s a ln with
      | some s => done s
      | none =>
        match agentLine s a ln with
        | some l =>
          if l.st = .m ∨ l.st = .e then
            done (wakeResv (setAgentLine (mergeL1 s a ln) a ln { l with st := .m, data := 0, poison := false }) ln)
          else hartAwait (agentRequest s a ln .zero (s.hart h).ctx) h ln
        | none => hartAwait (agentRequest s a ln .zero (s.hart h).ctx) h ln

/-- SCALAR_PREFETCH: dropped when it cannot be translated (R260, R262). -/
def hartPrefetch (s : State) (h : Nat) (va : W64) (write : Bool) : State :=
  hartDo s h fun s =>
    match hartXlate s h va false with
    | (s, .ok pa _) =>
      if !isMem pa then s
      else if write then agentWantWrite s (clusterOf h) (pa / 64) (s.hart h).ctx
      else agentWantRead s (clusterOf h) (pa / 64) (s.hart h).ctx
    | (s, _) => s

/-! ## Interrupts and TLB maintenance -/

/-- ASYNCHRONOUS_INTERRUPT: the hart leaves a WRS, and its older stores come before the handler's first access (R230).
Cause 5 is the S-timer, due when Alpenglow time has reached stimecmp. -/
def hartInterrupt (s : State) (h cause : Nat) : State :=
  let x := s.hart h
  if !hartUp s h then s
  else if cause = 5 ∧ s.time < x.stimecmp then s
  else modHart (hartDrain s h) h fun x => { x with
    trap := some ⟨cause, 0, true⟩, stip := x.stip || cause == 5, wrs := none
    fenceWait := x.fenceWait || x.storeBuf != [] }

/-- SFENCE_VMA: entries of the scalar TLB go, all or those of an address or context; tensor TLBs stay (R280). -/
def hartSfence (s : State) (h : Nat) (va : Option W64) (ctx : Option (BitVec 16)) : State :=
  hartDo s h fun s => modHart s h fun x => { x with
    fill := none
    tlb := x.tlb.filter fun t =>
      !((match ctx with | some c => t.e.ctx == c || (t.v && t.asid == c) | none => true)
        && (match va with | some a => t.e.vpn == a.toNat % 2 ^ 57 / 2 ^ t.e.sh | none => true)) }

/-! ## The meanings -/

/-- SCALAR_LOAD. -/
def execScalarLoad (h : Fin 128) (rd : Fin 32) (va : W64) (lg : Fin 4) (signed : Bool) (s : State) :
    Host.Outcome State Fault Refusal := .next (hartLoad s h rd va lg signed)
/-- SCALAR_STORE. -/
def execScalarStore (h : Fin 128) (va : W64) (lg : Fin 4) (data : W64) (s : State) :
    Host.Outcome State Fault Refusal := .next (hartStore s h va lg data)
/-- SCALAR_AMO. Accesses of a hart begin in order, so .aq asks for nothing more. -/
def execScalarAmo (h : Fin 128) (op : AmoOp) (rd : Fin 32) (va : W64) (dbl _aq rl : Bool) (data : W64) (s : State) :
    Host.Outcome State Fault Refusal := .next (hartAmo s h op rd va dbl rl data)
/-- SCALAR_FENCE. -/
def execScalarFence (h : Fin 128) (pred succ : BitVec 4) (s : State) : Host.Outcome State Fault Refusal :=
  .next (hartFence s h pred succ)
/-- FENCE_I. -/
def execFenceI (h : Fin 128) (s : State) : Host.Outcome State Fault Refusal := .next (hartFenceI s h)
/-- WRS_WAIT. -/
def execWrsWait (h : Fin 128) (sto : Bool) (s : State) : Host.Outcome State Fault Refusal := .next (hartWrs s h sto)
/-- CBO_CLEAN. -/
def execCboClean (h : Fin 128) (va : W64) (s : State) : Host.Outcome State Fault Refusal :=
  .next (hartClean s h va 0 cohClean)
/-- CBO_FLUSH; cbo.inval is performed as cbo.flush. -/
def execCboFlush (h : Fin 128) (va : W64) (inval : Bool) (s : State) : Host.Outcome State Fault Refusal :=
  .next (hartClean s h va (b2n inval) cohFlush)
/-- CBO_ZERO. -/
def execCboZero (h : Fin 128) (va : W64) (s : State) : Host.Outcome State Fault Refusal := .next (hartZero s h va)
/-- SCALAR_PREFETCH. -/
def execScalarPrefetch (h : Fin 128) (va : W64) (write : Bool) (s : State) : Host.Outcome State Fault Refusal :=
  .next (hartPrefetch s h va write)
/-- ASYNCHRONOUS_INTERRUPT. -/
def execAsynchronousInterrupt (h : Fin 128) (cause : Nat) (s : State) : Host.Outcome State Fault Refusal :=
  .next (hartInterrupt s h cause)
/-- SFENCE_VMA. -/
def execSfenceVma (h : Fin 128) (va : Option W64) (ctx : Option (BitVec 16)) (s : State) :
    Host.Outcome State Fault Refusal := .next (hartSfence s h va ctx)

end Sys2Proof.Machine
end

