-- ==== Sys2Proof/Machine/Xlt.lean ====
section
/-! DEFINITION. Contexts, walks of the helper cores, claim queries, context fault records and claim changes
(chapter 09). -/

namespace Sys2Proof.Machine

/-! ## Context commands (R269 to R271, R278 to R280) -/

/-- The descriptor of a context as a load reads it: none when it is not loadable (R269, R270). -/
def readDescriptor (s : State) (ctx : BitVec 16) : Option Ctx :=
  let r := cohRead s (fld s 0 R.HUB_CTX_TABLE_BASE * 2 ^ 22 + 64 * ctx.toNat) 64
  let w := fun i => leNat ((r.1.drop (8 * i)).take 8)
  let mode := bits (w 0) 11 8
  let gmode := bits (w 0) 15 12
  if r.2 || !bitAt (w 0) 0 || bits (w 0) 7 5 != 0 || bits (w 0) 63 35 != 0 || bits (w 1) 63 44 != 0 || bits (w 2) 63 44 != 0
      || (r.1.drop 24).any (· != 0) || !(mode == 9 || mode == 10) || !(gmode == 0 || gmode == 9 || gmode == 10)
      || bits (w 2) 1 0 != 0 then none
  else some { panyx := bitAt (w 0) 1, host := bitAt (w 0) 2, hostWin := bitAt (w 0) 3, peerWin := bitAt (w 0) 4
              mode := BitVec.ofNat 4 mode, gmode := BitVec.ofNat 4 gmode
              evq := if bitAt (w 0) 16 then some (BitVec.ofNat 18 (bits (w 0) 34 17)) else none
              root := BitVec.ofNat 44 (w 1), groot := BitVec.ofNat 44 (w 2) }

/-- Change the translation state. -/
def modXlt (s : State) (f : Xlt → Xlt) : State := { s with xlt := f s.xlt }

/-- A command of HUB_CTX_CMD arrives: ignored while one is in progress (HUB_CTX_STATUS.DROPPED). -/
def ctxCmd (s : State) (ctx : BitVec 16) (refused : Bool) (act : State → State) : State :=
  if fld s 0 R.HUB_CTX_STATUS_BUSY = 1 then setFld s 0 R.HUB_CTX_STATUS_DROPPED 1
  else
    let s := setFld s 0 R.HUB_CTX_STATUS_CTX ctx.toNat
    if refused then setFld s 0 R.HUB_CTX_STATUS_RESULT 0x0F else act (setFld s 0 R.HUB_CTX_STATUS_RESULT 0)

/-- CTX_LOAD. -/
def ctxLoad (s : State) (ctx : BitVec 16) : State :=
  let d := readDescriptor s ctx
  ctxCmd s ctx (ctx == 0 || (s.ctx? ctx).isSome || d.isNone) fun s =>
    match d with
    | some c => modXlt s fun x => { x with ctxs := tset x.ctxs ctx.toNat c }
    | none => s

/-- The fields that a whole-context invalidation reads again (R270). -/
def rereadTables (s : State) (ctx : BitVec 16) : State :=
  match s.ctx? ctx, readDescriptor s ctx with
  | some c, some d => modXlt s fun x =>
      { x with ctxs := tset x.ctxs ctx.toNat { c with mode := d.mode, gmode := d.gmode, root := d.root, groot := d.groot } }
  | _, _ => s

/-- Accesses of Spurs that a context's translations let through and that are not performed (R279): lanes of operations,
and pieces of copies. -/
def translatedOps (s : State) (ctx : BitVec 16) : List (Nat × Nat × Nat) :=
  s.spurs.flatMap fun p =>
    ((p.2.ops.filter fun o => o.ctx == ctx).flatMap fun o =>
      (o.lanes.filter fun l => l.st != .xlt && l.st != .done).map fun l => (p.1, o.id, l.lane))
    ++ (p.2.copies.filter fun j => j.ctx == ctx).flatMap fun j =>
      (j.parts.filter fun x => x.st == .sent).map fun x => (p.1, j.id, x.va.toNat)

/-- Every entry of a context leaves the micro-TLBs, die TLBs and walk caches; walks in progress will not be installed
(R278, R279). -/
def dropEntries (s : State) (ctx : BitVec 16) : State :=
  { s with
    spurs := s.spurs.map fun p => (p.1, { p.2 with utlb := p.2.utlb.filter (·.ctx != ctx) })
    tdies := s.tdies.map fun d => (d.1, { d.2 with tlb := d.2.tlb.filter (·.ctx != ctx) })
    xlt := { s.xlt with helpers := s.xlt.helpers.map fun h => (h.1, { h.2 with
      cache := h.2.cache.filter (·.1 != ctx)
      walks := h.2.walks.map fun w => (w.1, if w.2.ctx = ctx then { w.2 with stale := true } else w.2) }) } }

/-- Accept an invalidate (R278 to R280). -/
def beginInval (s : State) (ctx : BitVec 16) (unload : Bool) : State :=
  let waits := translatedOps s ctx
  let s := dropEntries (rereadTables s ctx) ctx
  setFld (modXlt s fun x => { x with inval := some { ctx := ctx, unload := unload, waits := waits } }) 0
    R.HUB_CTX_STATUS_BUSY 1

/-- CTX_INVALIDATE. -/
def ctxInvalidate (s : State) (ctx : BitVec 16) : State :=
  ctxCmd s ctx (ctx == 0 || (s.ctx? ctx).isNone) fun s => beginInval s ctx false

/-- CTX_INVALIDATE_DONE (R279); an unload then marks the context not loaded. -/
def ctxInvalidateDone (s : State) : State :=
  match s.xlt.inval with
  | none => s
  | some i =>
    if i.resetting || i.waits.any (fun w => (translatedOps s i.ctx).contains w) then s
    else
      setFld (modXlt s fun x => { x with
        inval := none
        ctxs := if i.unload then tdel x.ctxs i.ctx.toNat else x.ctxs }) 0 R.HUB_CTX_STATUS_BUSY 0

/-! ## Misses and walks (R274 to R277) -/

/-- Memory die, as md, that a miss from `from_` goes to; both are in service or none (R275). -/
def missDie (s : State) (td : Nat) (va : W64) : Nat :=
  let a := (td + b2n (va.getLsbD 21)) % 6
  let b := (td + 1 - b2n (va.getLsbD 21)) % 6
  if dieUp s (5 + a) then a else b

/-- Memory die of an engine's miss: the next in service from its own (R276). -/
def engineMissDie (s : State) (die : Nat) (va : W64) : Nat :=
  let a := (die + b2n (va.getLsbD 21)) % 6
  (((List.range 6).map fun i => (a + i) % 6).find? fun m => dieUp s (5 + m)).getD a

/-- The entry of a page in a miss queue. -/
def missOf (q : List MissEntry) (ctx : BitVec 16) (va : W64) : Option MissEntry :=
  q.find? fun m => m.ctx == ctx && m.va.toNat / 4096 == va.toNat / 4096

/-- Mark an entry of a miss queue as sent. -/
def markSent (q : List MissEntry) (m : MissEntry) : List MissEntry :=
  q.map fun x => if x = m then { x with sent := true } else x

/-- TLB_MISS_REQUEST: at most 4 walks in flight for a stream (R275). -/
def tlbMissRequest (s : State) (md td stream : Nat) (ctx : BitVec 16) (va : W64) : State :=
  let q := tget (s.tdie td).streams stream []
  match missOf q ctx va with
  | none => s
  | some m =>
    if m.sent || missDie s td va != md || !dieUp s (5 + md) || 4 ≤ (q.filter (·.sent)).length then s
    else
      let s := modTdie s td fun t => { t with streams := tset t.streams stream (markSent q m) }
      modHelper s md fun h => { h with queue := h.queue ++ [(.stream td stream, ctx, m.va)] }

/-- ENGINE_TLB_MISS: the engine, 64 × die + unit, has at most 4 walks in flight and 16 entries (R276). -/
def engineTlbMiss (s : State) (md eng : Nat) (ctx : BitVec 16) (va : W64) : State :=
  let q := missPut (tget s.xlt.engines eng []) ctx va
  match missOf q ctx va with
  | none => s
  | some m =>
    if engineMissDie s (eng / 64) va != md || !dieUp s (5 + md) then s
    else if m.sent || 4 ≤ (q.filter (·.sent)).length then modXlt s fun x => { x with engines := tset x.engines eng q }
    else
      let s := modXlt s fun x => { x with engines := tset x.engines eng (markSent q m) }
      modHelper s md fun h => { h with queue := h.queue ++ [(.engine eng, ctx, m.va)] }

/-- Number of a walk's source among its kind, for the round robin. -/
def WalkSrc.key : WalkSrc → Nat
  | .stream td st => td * 256 + st
  | .engine e => e

/-- Walks of a helper for a tensor die, or for engines. -/
def walksOf (h : Helper) (src : WalkSrc) : Nat :=
  (h.walks.filter fun w => match w.2.src, src with
    | .stream a _, .stream b _ => a == b
    | .engine _, .engine _ => true
    | _, _ => false).length

/-- Next queued miss in round-robin order after the one served last (R275, R276). -/
def nextMiss (h : Helper) (fromEngine : Bool) : Option (WalkSrc × BitVec 16 × W64) :=
  let ok := h.queue.filter fun m => (match m.1 with | .engine _ => fromEngine | .stream .. => !fromEngine) && walksOf h m.1 < 64
  let rr := if fromEngine then h.rrEngine else h.rrStream
  let place := fun (m : WalkSrc × BitVec 16 × W64) => (m.1.key + 4096 - (rr + 1) % 4096) % 4096
  match ok with
  | [] => none
  | m :: ms => some (ms.foldl (fun b x => if place x < place b then x else b) m)

/-- WALK_START: a helper in service takes the next miss (R275 to R277). -/
def walkStart (s : State) (md : Nat) (fromEngine : Bool) : State :=
  let h := s.helper md
  match nextMiss h fromEngine with
  | none => s
  | some (src, ctx, va) =>
    if fldAt s (5 + md) R.UNIT_MAP_IN_SERVICE 0 % 256 = 0 then s
    else
      let c := s.ctx? ctx
      let w : Walk := { src := src, ctx := ctx, va := va
                        level := match c with | some c => topLevel c.mode | none => 0
                        table := match c with | some c => c.root.toNat | none => 0 }
      modHelper s md fun h => { h with
        queue := h.queue.erase (src, ctx, va), walks := tset h.walks h.next w, next := h.next + 1
        rrStream := if fromEngine then h.rrStream else src.key
        rrEngine := if fromEngine then src.key else h.rrEngine }

/-- Page-table entry from the walk cache, or from its home (R280). -/
def cachedPte (s : State) (md : Nat) (ctx : BitVec 16) (pa : Nat) : Option Nat :=
  match (s.helper md).cache.find? fun e => e.1 == ctx && e.2.1 == pa with
  | some e => some e.2.2.toNat
  | none => readPte s pa

/-- Address of the entry that a walk reads next, if the second stage gives one. -/
def walkAddr (s : State) (c : Ctx) (w : Walk) : Option Nat :=
  match gStage s c (w.table * 4096 + w.va.toNat % 2 ^ 57 / 2 ^ (12 + 9 * w.level) % 512 * 8) with
  | .inl (pa, _) => some pa
  | .inr _ => none

/-- A walk is finished: it is counted, and a leaf refused for its claim too (R283, MEM_CLAIM_REFUSED). -/
def walkFinish (s : State) (md id : Nat) (w : Walk) (r : Sum TlbEntry XltFault) : State :=
  let s := bumpEventAt s (5 + md) R.MEM_XLT_WALKS_COUNT 0 R.MEM_XLT_OVF_WALKS_OVF 0 1
  let s := match r with
    | .inr .claim => countRefused s (5 + md)
    | _ => s
  modHelper s md fun h => { h with walks := tset h.walks id { w with result := some r } }

/-- WALK_READ_REPLY (R272, R275, R280, R283). -/
def walkRead (s : State) (md id : Nat) : State :=
  match tget? (s.helper md).walks id with
  | none => s
  | some w =>
    match w.result, s.ctx? w.ctx with
    | some _, _ => s
    | none, none => walkFinish s md id w (.inr .translation)
    | none, some c =>
      let at_ := walkAddr s c w
      let held := match at_ with
        | some pa => isMem pa && !lineIdle s (pa / 64)
        | none => false
      if !canonical c.mode w.va then walkFinish s md id w (.inr .translation)
      else if held then s
      else match walkStep s c w.ctx (cachedPte s md w.ctx) w.va w.level w.table with
        | .inl ppn =>
          if w.level = 0 then walkFinish s md id w (.inr .translation)
          else modHelper s md fun h => { h with
            walks := tset h.walks id { w with level := w.level - 1, table := ppn }
            cache := match at_.bind fun pa => (cachedPte s md w.ctx pa).map fun v => (pa, v) with
              | some (pa, v) =>
                if w.stale || h.cache.any (fun e => e.1 == w.ctx && e.2.1 == pa) then h.cache
                else ((w.ctx, pa, BitVec.ofNat 64 v) :: h.cache).take 4096
              | none => h.cache }
        | .inr (.inr f) => walkFinish s md id w (.inr f)
        | .inr (.inl e) =>
          walkFinish (claimCacheFill s (e.addr w.va)) md id w (fillCheck s c w.va e)

/-- A miss queue without the entry that a walk serves. -/
def dropMiss (q : List MissEntry) (w : Walk) : List MissEntry :=
  q.filter fun m => !(m.ctx == w.ctx && m.va.toNat / 4096 == w.va.toNat / 4096)

/-- Operations of a group slot with a lane that waits for the page of an address. -/
def waitingOps (p : Spur) (slot : Nat) (ctx : BitVec 16) (va : W64) : List MemOp :=
  p.ops.filter fun o => o.slot == slot && o.ctx == ctx && o.lanes.any fun l =>
    l.st == .xlt && l.va.toNat / 4096 == va.toNat / 4096

/-- What a finished walk is to the operations that wait for it: a fault cause of the lanes on the page, or none. -/
def walkCause (need : Nat) : Sum TlbEntry XltFault → Option Nat
  | .inr .claim => some 6
  | .inr _ => some 5
  | .inl e => if e.grants need then none else some 5

/-- Every operation of a slot that still translates looks again (R274). -/
def replaySlot (s : State) (sp slot : Nat) : State :=
  ((s.spur sp).ops.filter fun o => o.slot == slot && o.lanes.any (·.st == .xlt)).foldl (fun s o => opTry s sp o.id) s

/-- A stream's walk returns: the leaf is installed or the waiting lanes fault, and the others replay (R273, R274,
R284). -/
def streamReply (s : State) (td stream : Nat) (w : Walk) (r : Sum TlbEntry XltFault) : State :=
  let sp := 8 * td + stream / 32
  let slot := stream % 32
  let rest := dropMiss (tget (s.tdie td).streams stream []) w
  let s := modTdie s td fun t => { t with streams := tset t.streams stream rest }
  if w.stale then replaySlot s sp slot
  else
    let s := match r with
      | .inl e => modSpur (modTdie s td fun t => t.tlbPut e) sp fun p => p.utlbPut (spurSeed s sp) e
      | .inr _ => s
    let s := (waitingOps (s.spur sp) slot w.ctx w.va).foldl (fun s o =>
      match opAt s sp o.id, walkCause o.kind.need r with
      | some o, some c =>
        if o.silent then
          setOp s sp { o with lanes := o.lanes.map fun l =>
            if l.st = .xlt ∧ l.va.toNat / 4096 = w.va.toNat / 4096 then { l with st := .done } else l }
        else
          let va := ((o.lanes.find? fun l => l.st == .xlt && l.va.toNat / 4096 == w.va.toNat / 4096).map (·.va)).getD w.va
          opFault s sp o c va
      | _, _ => s) s
    replaySlot s sp slot

/-- WALK_REPLY_RECEIVE. -/
def walkReply (s : State) (md id : Nat) : State :=
  match tget? (s.helper md).walks id with
  | none => s
  | some w =>
    match w.result with
    | none => s
    | some r =>
      let s := modHelper s md fun h => { h with walks := tdel h.walks id }
      match w.src with
      | .stream td st => streamReply s td st w r
      | .engine e => modXlt s fun x => { x with engines := tset x.engines e (dropMiss (tget x.engines e []) w) }

/-! ## Claim queries and fault records (R283, R287) -/

/-- Memory dies linked to a core die (R15), the lower first. -/
def coreLinks (die : Nat) : Nat × Nat :=
  if die = 1 then (0, 5) else if die = 3 then (0, 1) else (4, 5)

/-- CLAIM_QUERY: the walker of a hart learns whether its leaf may be installed (R283, R284). -/
def claimQuery (s : State) (md h pa : Nat) : State :=
  let l := coreLinks (1 + h / 32)
  let dst := if dieUp s (5 + l.1) then l.1 else l.2
  match (s.hart h).fill with
  | none => s
  | some f =>
    if f.pa ≠ pa ∨ f.refused ∨ md ≠ dst then s
    else
      let s := claimCacheFill s pa
      if claimOk s f.t.e.ctx pa false then
        modHart s h fun x => { x.tlbPut { f.t with e := { f.t.e with wok := claimOk s f.t.e.ctx pa true } } with fill := none }
      else modHart (countRefused s (5 + md)) h fun x => { x with fill := some { f with refused := true } }

/-- CTX_FAULT_RECORD_TIMER: the record that the 10 µs window held back is posted (R287). -/
def faultTimer (s : State) (tgt : Nat) (ctx : BitVec 16) (t : W64) : State :=
  let s := setTime s t
  let key := tgt * 65536 + ctx.toNat
  match tget? s.xlt.windows key with
  | none => s
  | some w =>
    if s.time.toNat < w.posted.toNat + 10000 then s
    else match w.defer, (s.ctx? ctx).bind (·.evq) with
      | some (n, b), some q =>
        raiseEvent (modXlt s fun x => { x with windows := tset x.windows key ⟨s.time, none⟩ }) q 0x02 ctx (ctxFaultBody b n)
      | _, _ => modXlt s fun x => { x with windows := tdel x.windows key }

/-! ## Claim changes (R288 to R290) -/

/-- Claim extents of the module (R281). -/
abbrev claimExtents : Nat := 2625536

/-- First claim extent of control space. -/
abbrev windowExtent : Nat := 2621440

/-- Extent of a line of memory. -/
def lineExtent (ln : Nat) : Nat := memExtent (ln * 64)

/-- Lines that the coherence system holds something of. -/
def heldLines (s : State) : List Nat :=
  s.coh.lines.map (fun e => e.1 % 2 ^ 46) ++ s.coh.wbs.map (fun e => e.1 % 2 ^ 46)
    ++ s.coh.homes.flatMap fun h => tkeys h.2.l3 ++ h.2.vq.map (·.line) ++ tkeys h.2.dir

/-- Put a claim entry into every copy of the table and the window's own die (R286, R288). -/
def putClaim (s : State) (e : Nat) (w : W32) : State :=
  let s := (List.range 6).foldl (fun s md =>
    if dieUp s (5 + md) then
      { s with mem := memWrite s.mem (fld s (5 + md) R.MEM_CLAIM_BASE_BASE * 2 ^ 24 + 4 * e) (leBytes 4 w.toNat) }
    else s) s
  if windowExtent ≤ e then modXlt s fun x => { x with windowClaims := tset x.windowClaims e w } else s

/-- Zero the memory of some extents, clearing poison (R247, R289). -/
def zeroExtents (s : State) (first last : Nat) : State :=
  let inside := fun e => first ≤ e && e ≤ last
  { s with
    mem := s.mem.filter fun c => !(isMem c.1 && inside (memExtent c.1) && !lineRetired s (c.1 / 64))
    poison := s.poison.filter fun ln => !inside (lineExtent ln)
    tiers := { s.tiers with boardPoison := s.tiers.boardPoison.filter fun ln => !inside (lineExtent ln)
                            boardExtents := s.tiers.boardExtents.filter fun e => !inside e }
    harts := s.harts.map fun h => match h.2.resv with
      | some ln => if inside (lineExtent ln) then (h.1, { h.2 with resv := none, wrs := none }) else h
      | none => h }

/-- Zero one line where it is stored. -/
def zeroLine (s : State) (ln : Nat) : State := wakeResv (storeLine s ln 0 false) ln

/-- A write to HUB_CLAIM_CMD (R288, R289). -/
def claimCmd (s : State) (ctx : BitVec 16) (mode : BitVec 2) (scrub : Nat) : State :=
  if fld s 0 R.HUB_CLAIM_STATUS_BUSY = 1 then setFld s 0 R.HUB_CLAIM_STATUS_DROPPED 1
  else
    let first := fld s 0 R.HUB_CLAIM_ARG_FIRST
    let n := fld s 0 R.HUB_CLAIM_ARG_COUNT
    let last := first + n - 1
    if scrub = 3 ∨ n = 0 ∨ claimExtents ≤ last ∨ (scrub ≠ 0 ∧ windowExtent ≤ last)
        ∨ s.xlt.reservedClaims.any (fun r => first < r.1 + r.2 && r.1 ≤ last) then
      setFld s 0 R.HUB_CLAIM_STATUS_RESULT 0x0F
    else
      let inside := fun e => first ≤ e && e ≤ last
      let open_ := s.coh.homes.flatMap fun h => (tkeys h.2.txns).filter fun ln => inside (lineExtent ln)
      let w := BitVec.ofNat 32 (ctx.toNat + mode.toNat * 2 ^ 16)
      let s := ((List.range n).map (first + ·)).foldl (fun s e => putClaim s e w) s
      let s := modXlt s fun x => { x with
        helpers := x.helpers.map fun h => (h.1, { h.2 with claims := h.2.claims.filter fun e => !inside e.1 }) }
      let s := if scrub = 0 then s
        else ((heldLines s).filter fun ln => inside (lineExtent ln) && lineIdle s ln).foldl cohFlush s
      let s := if scrub = 2 then zeroExtents s first last else s
      let s := modXlt s fun x => { x with change := some ⟨BitVec.ofNat 2 scrub, open_⟩ }
      setFld (setFld s 0 R.HUB_CLAIM_STATUS_RESULT 0) 0 R.HUB_CLAIM_STATUS_BUSY 1

/-- CLAIM_CHANGE_DONE: the transactions begun under the old entry have ended, and their lines are scrubbed too. -/
def claimDone (s : State) : State :=
  match s.xlt.change with
  | none => s
  | some c =>
    if c.todo.any (fun ln => !lineIdle s ln) then s
    else
      let s := if c.scrub = 0 then s else c.todo.foldl cohFlush s
      let s := if c.scrub = 2 then c.todo.foldl zeroLine s else s
      setFld (modXlt s fun x => { x with change := none }) 0 R.HUB_CLAIM_STATUS_BUSY 0

/-! ## The meanings -/

/-- CTX_LOAD. -/
def execCtxLoad (ctx : BitVec 16) (s : State) : Host.Outcome State Fault Refusal := .next (ctxLoad s ctx)
/-- CTX_INVALIDATE. -/
def execCtxInvalidate (ctx : BitVec 16) (s : State) : Host.Outcome State Fault Refusal := .next (ctxInvalidate s ctx)
/-- CTX_INVALIDATE_DONE. -/
def execCtxInvalidateDone (s : State) : Host.Outcome State Fault Refusal := .next (ctxInvalidateDone s)
/-- TLB_MISS_REQUEST. -/
def execTlbMissRequest (md : Fin 6) (td : Fin 16) (stream : Fin 256) (ctx : BitVec 16) (va : W64) (s : State) :
    Host.Outcome State Fault Refusal := .next (tlbMissRequest s md td stream ctx va)
/-- ENGINE_TLB_MISS. -/
def execEngineTlbMiss (md : Fin 6) (eng : Nat) (ctx : BitVec 16) (va : W64) (s : State) :
    Host.Outcome State Fault Refusal := .next (engineTlbMiss s md eng ctx va)
/-- WALK_START. -/
def execWalkStart (md : Fin 6) (fromEngine : Bool) (s : State) : Host.Outcome State Fault Refusal :=
  .next (walkStart s md fromEngine)
/-- WALK_READ_REPLY. -/
def execWalkReadReply (md : Fin 6) (walk : Nat) (s : State) : Host.Outcome State Fault Refusal := .next (walkRead s md walk)
/-- WALK_REPLY_RECEIVE. -/
def execWalkReplyReceive (md : Fin 6) (walk : Nat) (s : State) : Host.Outcome State Fault Refusal :=
  .next (walkReply s md walk)
/-- CLAIM_QUERY. -/
def execClaimQuery (md : Fin 6) (h : Fin 128) (pa : BitVec 52) (s : State) : Host.Outcome State Fault Refusal :=
  .next (claimQuery s md h pa.toNat)
/-- CTX_FAULT_RECORD_TIMER. -/
def execCtxFaultRecordTimer (tgt : Fin 32) (ctx : BitVec 16) (t : W64) (s : State) : Host.Outcome State Fault Refusal :=
  .next (faultTimer s tgt ctx t)
/-- CLAIM_SET. -/
def execClaimSet (ctx : BitVec 16) (mode : BitVec 2) (s : State) : Host.Outcome State Fault Refusal :=
  .next (claimCmd s ctx mode 0)
/-- CLAIM_SET_FLUSH. -/
def execClaimSetFlush (ctx : BitVec 16) (mode : BitVec 2) (s : State) : Host.Outcome State Fault Refusal :=
  .next (claimCmd s ctx mode 1)
/-- CLAIM_SET_ZERO. -/
def execClaimSetZero (ctx : BitVec 16) (mode : BitVec 2) (s : State) : Host.Outcome State Fault Refusal :=
  .next (claimCmd s ctx mode 2)
/-- CLAIM_CHANGE_DONE. -/
def execClaimChangeDone (s : State) : Host.Outcome State Fault Refusal := .next (claimDone s)

end Sys2Proof.Machine
end

