-- ==== Sys2Proof/Machine/FabOps.lean ====
section
/-! DEFINITION. Sending on the fabric: logical ports, peers, packets, flows (R372 to R380). -/

namespace Sys2Proof.Machine

/-- Change the fabric state. -/
def modFab (s : State) (f : Fabric → Fabric) : State := { s with fab := f s.fab }

/-- Fabric die of a logical port. -/
def lpDie (lp : Nat) : Nat := 11 + lp / 8

/-- STATE of a logical port. -/
def lpState (s : State) (lp : Nat) : Nat :=
  fldAt s (lpDie lp) (if lp % 2 = 0 then R.FAB_PORT_STAT_STATE_A else R.FAB_PORT_STAT_STATE_B) (lp / 2 % 4)

/-- Set STATE of a logical port. -/
def setLpState (s : State) (lp n : Nat) : State :=
  setFldAt s (lpDie lp) (if lp % 2 = 0 then R.FAB_PORT_STAT_STATE_A else R.FAB_PORT_STAT_STATE_B) (lp / 2 % 4) n

/-- Does a logical port exist (R372)? -/
def lpExists (s : State) (lp : Nat) : Bool := lp % 2 == 0 || fldAt s (lpDie lp) R.FAB_PORT_CFG_BREAKOUT (lp / 2 % 4) == 1

/-- Is a logical port up? -/
def lpUp (s : State) (lp : Nat) : Bool := dieUp s (lpDie lp) && lpExists s lp && lpState s lp == 2

/-- A loaded peer. -/
def State.peer? (s : State) (p : Nat) : Option Peer := tget? s.fab.peers p

/-- This module's peer number: the loaded entry with SELF = 1. -/
def selfPeer (s : State) : Option Nat := (s.fab.peers.find? fun e => e.2.self).map (·.1)

/-- Logical port of a flow to a peer (R376). -/
def flowPort (s : State) (p f : Nat) : Option Nat :=
  match s.peer? p with
  | none => none
  | some e =>
    let up := (List.range 16).filter fun l => bitAt e.ports l && lpUp s l
    if up = [] then none else some (up.getD ((f + p) % up.length) 0)

/-- Fabric die that carries a flow; die 11 where no port does. -/
def flowDie (s : State) (p f : Nat) : Nat := ((flowPort s p f).map lpDie).getD 11

/-- Key of a flow. -/
def flowKey (p f : Nat) : Nat := p * 16 + f

/-- Sending end of a flow. -/
def State.tx (s : State) (p f : Nat) : KftTx := tget s.fab.tx (flowKey p f) {}

/-- Change the sending end of a flow. -/
def modTx (s : State) (p f : Nat) (g : KftTx → KftTx) : State :=
  modFab s fun x => { x with tx := tmod x.tx (flowKey p f) {} g }

/-- Receiving end of a flow. -/
def State.rx (s : State) (p f : Nat) : KftRx := tget s.fab.rx (flowKey p f) {}

/-- Change the receiving end of a flow. -/
def modRx (s : State) (p f : Nat) (g : KftRx → KftRx) : State :=
  modFab s fun x => { x with rx := tmod x.rx (flowKey p f) {} g }

/-- A header with the fields every packet of this module to a peer has. -/
def kftHdr0 (s : State) (lp p f ptype : Nat) : KftHdr :=
  { lp := BitVec.ofNat 4 lp, ver := 1, ptype := BitVec.ofNat 4 ptype, flow := BitVec.ofNat 4 f, ece := false, op := 0
    src := BitVec.ofNat 8 ((selfPeer s).getD 0), dst := BitVec.ofNat 8 p
    session := BitVec.ofNat 16 (tget s.fab.sessions p 0), len := 0, psn := 0, ackPsn := 0, ackMap := 0, offset := 0
    set := 0, member := 0, backup := false, opid := 0, credits := 0, status := 0, good := true, ce := false }

/-- Header of a DATA packet. -/
def kftDataHdr (s : State) (lp p f : Nat) (k : KftPkt) (psn : W32) : KftHdr :=
  { kftHdr0 s lp p f 0 with
    op := BitVec.ofNat 3 k.op, len := BitVec.ofNat 16 k.data.length, psn := psn, offset := BitVec.ofNat 42 k.offset
    set := BitVec.ofNat 8 k.set, member := BitVec.ofNat 6 k.member, backup := k.backup, opid := BitVec.ofNat 24 k.opid
    status := k.status }

/-- A transport header's 32 bytes (R378). -/
def kftHdrBytes (h : KftHdr) : List Byte :=
  leBytes 8 (h.ver.toNat + h.ptype.toNat * 2 ^ 4 + h.flow.toNat * 2 ^ 8 + b2n h.ece * 2 ^ 12 + h.op.toNat * 2 ^ 13
    + h.src.toNat * 2 ^ 16 + h.dst.toNat * 2 ^ 24 + h.session.toNat * 2 ^ 32 + h.len.toNat * 2 ^ 48)
  ++ leBytes 8 (h.psn.toNat + h.ackPsn.toNat * 2 ^ 32)
  ++ leBytes 8 (if h.ptype = 1 then h.ackMap.toNat
      else h.offset.toNat + h.set.toNat * 2 ^ 42 + h.member.toNat * 2 ^ 50 + b2n h.backup * 2 ^ 56)
  ++ leBytes 8 (h.opid.toNat + h.credits.toNat * 2 ^ 24 + h.status.toNat * 2 ^ 32)

/-- Big-endian bytes of a number. -/
def beBytes (n v : Nat) : List Byte := (leBytes n v).reverse

/-- The payload of a packet as it goes out: sealed for a SECURE peer, compressed first where COMPRESS is set and that
is smaller (R377). -/
def kftWire (s : State) (p : Nat) (h : KftHdr) (wrap : Nat) (b : List Byte) : List Byte :=
  match s.peer? p with
  | some e =>
    if !e.secure then b
    else
      let z := Config.lz4 b
      let b := if e.compress && z.length < b.length then z else b
      let me := h.src.toNat
      let mine := tget s.fab.sessions p 0
      let yours := tget s.fab.theirs p 0
      let info := [0x4B, 0x46, 0x54, 0x20, 0x53, 0x45, 0x43, 0x31] ++ leBytes 1 (min me p) ++ leBytes 1 (max me p)
        ++ beBytes 2 (if me < p then mine else yours) ++ beBytes 2 (if me < p then yours else mine)
      let iv := leBytes 1 me ++ leBytes 1 h.flow.toNat ++ beBytes 2 mine ++ beBytes 4 wrap ++ beBytes 4 h.psn.toNat
      Config.kftSeal (s.fab.secret.getD 0) info iv (kftHdrBytes h) b
  | none => b

/-- Give a frame to the ports. -/
def putFrame (s : State) (x : FabFrame) : State := modFab s fun f => { f with frames := f.frames ++ [x] }

/-- Send a numbered packet. -/
def kftPut (s : State) (lp p f : Nat) (k : KftSent) (wrap : Nat) : State :=
  let h := kftDataHdr s lp p f k.pkt k.psn
  putFrame s (.kft h (kftWire s p h wrap k.pkt.data))

/-- WRAP of a packet that has been sent (R377): one less where the flow's PSN has wrapped since. -/
def KftTx.wrapOf (x : KftTx) (psn : W32) : Nat := x.wraps - b2n (decide (x.psn.toNat ≤ psn.toNat))

/-- Send queued packets while fewer than min(credits, cwnd) are unacknowledged (R379). -/
def kftGo : Nat → State → Nat → Nat → State
  | 0, s, _, _ => s
  | n + 1, s, p, f =>
    let x := s.tx p f
    match x.queue, flowPort s p f with
    | k :: rest, some lp =>
      if x.unacked.length < min x.credits x.cwnd then
        let k : KftSent := { psn := x.psn, pkt := k }
        let s := modTx s p f fun x => { x with
          queue := rest, unacked := x.unacked ++ [k], psn := x.psn + 1, wraps := x.wraps + b2n (x.psn == BitVec.allOnes 32) }
        kftGo n (kftPut s lp p f k x.wraps) p f
      else s
    | _, _ => s

/-- Send what a flow can. -/
def kftPump (s : State) (p f : Nat) : State := kftGo (s.tx p f).queue.length s p f

/-- Queue a packet on a flow. -/
def kftSend (s : State) (p f : Nat) (k : KftPkt) : State :=
  kftPump (modTx s p f fun x => { x with queue := x.queue ++ [k] }) p f

/-- Does an access reach a peer (R375)? -/
def peerOk (s : State) (p off : Nat) : Bool :=
  match s.peer? p with
  | some e => !e.self && off < 3 * tib
  | none => false

/-- An access to a peer window goes out on flow 0 (R381); false where it is an access to a reserved address (R375). -/
def peerSend (s : State) (r : OutReq) : State × Bool :=
  match region r.pa with
  | .peer p off =>
    if !peerOk s p off then (s, false)
    else if r.write then (kftSend s p 0 { op := 0, offset := off, data := r.data, owner := .window r }, true)
    else
      let id := s.fab.nextOp % 2 ^ 24
      let s := modFab s fun x => { x with
        nextOp := x.nextOp + 1
        reads := tset x.reads id { peer := p, flow := 0, offset := off, len := r.len, owner := .inl r } }
      (kftSend s p 0 { op := 1, offset := off, opid := id, data := leBytes 8 r.len, owner := .read id }, true)
  | _ => (s, false)

/-- Most payload bytes of a packet to a peer (R377, R378). -/
def kftMax (s : State) (p : Nat) : Nat := if ((s.peer? p).map (·.secure)).getD false then 4080 else 4096

/-- Cut bytes into packets. -/
def kftCut (n : Nat) : Nat → List Byte → List (List Byte)
  | 0, _ => []
  | k + 1, b => if b.length ≤ n then [b] else b.take n :: kftCut n k (b.drop n)

end Sys2Proof.Machine
end

