-- ==== Sys2Proof/Machine/Out.lean ====
section
/-! DEFINITION. Accesses of engines to the host window and the peer windows (R225, R227, R340, R341), and the reads and
writes of commands at virtual addresses (R276). -/

namespace Sys2Proof.Machine

/-- A KSL port. -/
def State.port (s : State) (p : Nat) : KslPort := tget s.ksl p {}

/-- Change a KSL port. -/
def modPort (s : State) (p : Nat) (f : KslPort → KslPort) : State := { s with ksl := tmod s.ksl p {} f }

/-- Port of a host-window address: PA[50] (R340). -/
def portOf (pa : Nat) : Nat := pa / 2 ^ 50 % 2

/-- Change an open command. -/
def modCmd (s : State) (cid : Nat) (f : Cmd → Cmd) : State :=
  match s.cmd? cid with
  | some c => setCmd s cid (f c)
  | none => s

/-- The first stopping condition of a command stands (R366). -/
def stopCmd (s : State) (cid : Nat) (status : Byte) : State :=
  modCmd s cid fun c => { c with stopped := some (c.stopped.getD status) }

/-- A command's window access has completed or is counted complete. -/
def outSettled (s : State) (o : OutOwner) : State :=
  match o with
  | .cmd cid _ => modCmd s cid fun c => { c with windowWrites := c.windowWrites - 1 }
  | _ => s

/-- An engine's access to a host or peer window: through the port, or dropped at once where the port is lost, which ends
the command with status 0x02 (R341); one to a peer window that names no peer ends it with 0x05 (R266, R375). -/
def outAsk (s : State) (r : OutReq) : State :=
  let count := fun (s : State) => match r.owner with
    | .cmd cid _ => modCmd s cid fun c => { c with windowWrites := c.windowWrites + 1 }
    | _ => s
  match region r.pa with
  | .host _ =>
    if (s.port (portOf r.pa)).lost then
      match r.owner with
      | .cmd cid _ => stopCmd s cid 0x02
      | _ => s
    else modPort (count s) (portOf r.pa) fun p => { p with outq := p.outq ++ [r] }
  | .peer _ _ =>
    let a := peerSend (count s) r
    if a.2 then a.1 else match r.owner with
      | .cmd cid _ => stopCmd s cid 0x05
      | _ => s
  | _ => s

/-- Write bytes of a command at a physical address, as its engine does: coherent writes at the homes, register writes,
or an outbound write (R203, R225). The write of memory is checked at its home (R285); the flag: refused. -/
def cmdPut (s : State) (die agent cid : Nat) (ctx : BitVec 16) (pa : Nat) (b : List Byte) (poison : Bool) : State × Bool :=
  match region pa with
  | .hbm | .board =>
    let c := targetCheckBy s die agent ctx pa true
    if c.2 then (cohPut c.1 pa b poison, false) else (c.1, true)
  | .window n off => (send s (.regWrite n off (8 * b.length) (BitVec.ofNat 64 (leNat b)) ctx 0), false)
  | .host _ | .peer .. => (outAsk s ⟨true, pa, b.length, ctx, b, .cmd cid 0⟩, false)
  | _ => (s, false)

/-- Write a small record of a command at a virtual address in one line, or answer the status of its failure. -/
def recordPut (s : State) (die agent cid : Nat) (ctx : BitVec 16) (va : W64) (b : List Byte) : State × Option Byte :=
  match xlate s ctx va true with
  | .inr st => (s, some st)
  | .inl pa =>
    let r := cmdPut s die agent cid ctx pa b false
    (r.1, if r.2 then some 0x04 else none)

end Sys2Proof.Machine
end

