-- ==== Sys2Proof/Machine/RelOps.lean ====
section
/-! DEFINITION. Reliability events (R494 to R496), the tasks of a resource that is retired (R419, R481) and the retirement
of an HBM stack (R297). -/

namespace Sys2Proof.Machine

/-- Number of a resource identifier (R495). -/
def ridNum (r : Rid) : Nat := r.kind.toNat + r.die.toNat * 2 ^ 8 + r.unit.toNat * 2 ^ 13

/-- Identifier of a resource. -/
def rid (kind die unit : Nat) : Rid := ⟨BitVec.ofNat 8 kind, BitVec.ofNat 5 die, BitVec.ofNat 19 unit⟩

/-- Post a reliability event, or count it as dropped (R494). -/
def relEvent (s : State) (typ : Byte) (ctx : BitVec 16) (body : List Byte) : State :=
  let q := fld s 0 R.HUB_REL_QUEUE_QUEUE
  if fld s 0 R.HUB_REL_QUEUE_VALID = 1 ∧ (s.queue q).state ≠ 0 ∧ (s.queue q).kind = 2 then
    raiseEvent s (BitVec.ofNat 18 q) typ ctx body
  else bumpErr s 0 R.HUB_REL_QUEUE_DROPPED

/-- Body of events 0x10, 0x11 and 0x13 (R496). -/
def relBody (r : Rid) (cls status pa count detail lost : Nat) : List Byte :=
  body4 (ridNum r + cls * 2 ^ 32 + status * 2 ^ 34) pa (count + detail * 2 ^ 16 + lost * 2 ^ 32) 0

/-- What an error event tells of a resource's retirement: CLASS, PA, COUNT, DETAIL (R496). -/
structure ErrInfo where
  cls : Nat
  pa : Nat
  count : Nat
  detail : Nat
deriving DecidableEq, Repr

/-- Event 0x13: a resource is retired. The CLASS of a retirement that no error event leads to is a free value (log 27). -/
def retiredEvent (s : State) (r : Rid) (lost : Nat) (info : Option ErrInfo) : State :=
  match info with
  | some i => relEvent s 0x13 0 (relBody r i.cls 0 i.pa i.count i.detail lost)
  | none =>
    let d := drawFree s
    relEvent d.2 0x13 0 (relBody r (d.1.toNat % 4) 0 0 0 0 lost)

/-- Lower a capacity field. -/
def loseCapacity (s : State) (f : FRef) (n : Nat) : State := setFld s 0 f (fld s 0 f - n)

/-- The HBM stacks of a die that have a rebuild or a test running, and the boot phase (R304). -/
def prioService (s : State) (md : Nat) : Bool :=
  let h := tget s.tiers.hbm md {}
  !h.booted || h.testing != 0 || h.rebuilding != 0

/-- Capacity of a partition's bucket, in quarter bytes. -/
def bucketCap (s : State) (md n : Nat) : Nat := fldAt s (5 + md) R.MEM_PART_RATE_BURST n * 4096

/-- Change a memory die's HBM state; when every case of priority service has ended, buckets restart full (R304). -/
def modHbm (s : State) (md : Nat) (f : HbmDie → HbmDie) : State :=
  let was := prioService s md
  let s := { s with tiers := { s.tiers with hbm := tmod s.tiers.hbm md {} f } }
  let now := prioService s md
  let s := (List.range 4).foldl (fun s j => setFldAt s (5 + md) R.MEM_HBM_STACK_PRIORITY j (b2n now)) s
  if was && !now then
    let full := (List.range 64).map fun n => (n, bucketCap s md n)
    { s with tiers := { s.tiers with hbm := tmod s.tiers.hbm md {} fun h => { h with bucket := full, filled := s.time } } }
  else s

/-! ## Self-tests and Cairn tasks (R419, R481, R487 to R492) -/

/-- Change the service state. -/
def modSvc (s : State) (f : Service → Service) : State := { s with svc := f s.svc }

/-- Arbiter of a resource and input of its self-test there (R413, R491). -/
def testArb (r : Rid) : Option (Nat × Nat × Nat) :=
  let d := r.die.toNat
  let u := r.unit.toNat
  if r.kind = 1 then some (d, 64 + u, 3)
  else if r.kind = 4 then some (d, u, 7)
  else if r.kind = 0x0B then some (d, 64 + u, 1)
  else if r.kind = 0x0C then some (d, 64 + u, 2)
  else none

/-- Arbiter of an item that Cairn calibrates, and Cairn's input there (R413, R487). -/
def cairnArb (r : Rid) : Option (Nat × Nat × Nat) :=
  if r.kind = 1 then some (r.die.toNat, 64 + r.unit.toNat, 2)
  else if r.kind = 4 then some (r.die.toNat, r.unit.toNat, 6)
  else none

/-- Take a service request out of its arbiter. -/
def arbDrop (s : State) (where_ : Option (Nat × Nat × Nat)) (r : Rid) : State :=
  match where_ with
  | none => s
  | some (die, a, i) =>
    let hit := fun (x : ArbReq) => x.input == i && x.id == ridNum r
    let held : Bool := match (s.arb die a).holder with | some h => hit h | none => false
    let s := modArb s die a fun x => { x with queue := x.queue.filter (!hit ·), records := x.records.filter (!hit ·) }
    if held then arbRelease s die a else s

/-- A self-test ends with a result: event 0x14 (R492, R496). -/
def testEnd (s : State) (t : SelfTest) (result : Byte) : State :=
  let s := arbDrop (modSvc s fun v => { v with tests := v.tests.erase t }) (testArb t.rid) t.rid
  let d := t.rid.die.toNat
  let j := t.rid.unit.toNat / 32
  let other := s.svc.tests.any fun x => x.running && x.rid.kind == 1 && x.rid.die == t.rid.die && x.rid.unit.toNat / 32 == j
  let keep : BitVec 4 := ~~~(1 <<< j)
  let s := if t.running ∧ t.rid.kind = 1 ∧ !other then modHbm s (d - 5) fun h => { h with testing := h.testing &&& keep }
    else s
  let s := if t.cmd then
      setFld (setFld (setFld s 0 R.HUB_SELFTEST_STATUS_BUSY 0) 0 R.HUB_SELFTEST_STATUS_RESULT result.toNat) 0
        R.HUB_SELFTEST_STATUS_RID (ridNum t.rid)
    else s
  relEvent s 0x14 0 (body4 (ridNum t.rid + result.toNat * 2 ^ 32 + b2n t.now * 2 ^ 40) 0 0 0)

/-- A service task of a resource is abandoned, the n-th time in a row: event 0x15 (R419, R488, R496). -/
def taskAbandoned (s : State) (r : Rid) (cairn : Bool) : State :=
  let k := ridNum r + b2n (!cairn) * 2 ^ 32
  let n := min 255 (tget s.svc.abandons k 0 + 1)
  let s := modSvc s fun v => { v with abandons := tset v.abandons k n }
  relEvent s 0x15 0 (body4 (ridNum r + b2n cairn * 2 ^ 32 + n * 2 ^ 34 + b2n (cairn && decide (3 ≤ n)) * 2 ^ 42) 0 0 0)

/-- A Cairn task ends; an abandoned one is scheduled again (R419, R488). -/
def cairnEnd (s : State) (r : Rid) (abandoned : Bool) : State :=
  if !s.svc.cairn.contains (ridNum r) then s
  else
    let s := arbDrop (modSvc s fun v => { v with cairn := v.cairn.erase (ridNum r) }) (cairnArb r) r
    if abandoned then taskAbandoned s r true else modSvc s fun v => { v with abandons := tdel v.abandons (ridNum r) }

/-- A resource is retired: its self-tests end with 0x0B, or 0x0C when they run, and its calibration is abandoned (R481). -/
def tasksGone (s : State) (r : Rid) : State :=
  let s := (s.svc.tests.filter fun t => t.rid == r).foldl (fun s t => testEnd s t (if t.running then 0x0C else 0x0B)) s
  cairnEnd s r true

/-- An HBM stack is retired (R297, R477): its rebuild ends, its capacity is lost, event 0x13. -/
def retireStack (s : State) (md j : Nat) (info : Option ErrInfo := none) : State :=
  let die := 5 + md
  if fldAt s die R.MEM_HBM_STACK_STACK_RETIRED j = 1 then s
  else
    let s := setFldAt s die R.MEM_HBM_STACK_STACK_RETIRED j 1
    let s := if fldAt s die R.MEM_HBM_STACK_PCH_RETIRED j = 1 then loseCapacity s R.HUB_CAPACITY1_PCH_RETIRED 1 else s
    let s := loseCapacity s R.HUB_CAPACITY0_HBM_GIB 128
    let s := (List.range 32).foldl (fun s p => tasksGone s (rid 1 die (32 * j + p))) (tasksGone s (rid 2 die j))
    let keep : BitVec 4 := ~~~(1 <<< j)
    let s := modHbm s md fun h => { h with rebuilding := h.rebuilding &&& keep, testing := h.testing &&& keep }
    retiredEvent s (rid 2 die j) 131072 info

end Sys2Proof.Machine
end

