-- ==== Sys2Proof/Machine/PowerOps.lean ====
section
/-! DEFINITION. Budget domains, limits and grants (R434, R435, R438 to R440, R442). Watts are counted in quarters. -/

namespace Sys2Proof.Machine

/-- Power controller of a die. -/
def State.pwrDie (s : State) (die : Nat) : PwrDie := tget s.pwr.dies die {}

/-- Change a power controller. -/
def modPwr (s : State) (die : Nat) (f : PwrDie → PwrDie) : State :=
  { s with pwr := { s.pwr with dies := tmod s.pwr.dies die {} f } }

/-- Rail groups of a die's domain (R434, R435). -/
def domainOf (die : Nat) : List Nat :=
  if 16 ≤ die then [die - 16]
  else if die = 0 then [34]
  else if die ≤ 4 then [die + 15]
  else if die ≤ 10 then [die + 15, die + 21]
  else if die ≤ 12 then [die + 21]
  else if die = 13 then [35, 38, 39]
  else [die + 22]

/-- Die whose domain a rail group belongs to (R434). -/
def groupDie (g : Nat) : Nat :=
  if g < 16 then 16 + g
  else if g < 20 then g - 15
  else if g < 26 then g - 15
  else if g < 32 then g - 21
  else if g < 34 then g - 21
  else if g = 34 then 0
  else if g = 36 ∨ g = 37 then g - 22
  else 13

/-- RAIL_MAX of a rail group in quarter watts (R434). -/
def railMax (g : Nat) : Nat :=
  4 * (if g < 16 then 330 else if g < 20 then 240 else if g < 26 then 120 else if g < 32 then 200
    else if g < 34 then 190 else if g = 34 then 110 else if g = 35 then 90 else if g < 38 then 40
    else if g = 38 then 200 else 90)

/-- Does a rail group's droop stretch its die's clocks? Groups 38 and 39 hold the tier movers instead (R449). -/
def stretches (g : Nat) : Bool := g != 38 && g != 39

/-- Steps below the top of a die's clock or rate (R435). -/
def maxSteps (die : Nat) : Nat :=
  match dieClass false die with
  | 1 => 26
  | 2 => 24
  | 3 => 15
  | 4 => 30
  | 7 => 24
  | _ => 0

/-- FLOOR and CEIL of a die in quarter watts. -/
def floorOf (s : State) (die : Nat) : Nat := 4 * fld s die R.PWR_CFG_FLOOR
/-- See `floorOf`. -/
def ceilOf (s : State) (die : Nat) : Nat := 4 * fld s die R.PWR_CFG_CEIL

/-- What a die has borrowed (R442). -/
def heldOf (p : PwrDie) : Nat := (p.loans.map Prod.snd).sum

/-- LIMIT: the grant less what is lent, plus what is borrowed (R442). -/
def setLimit (s : State) (die : Nat) : State :=
  let p := s.pwrDie die
  setFld s die R.PWR_STATUS_LIMIT (fld s die R.PWR_STATUS_GRANT + heldOf p - p.lent)

/-- A grant comes into effect (R440). -/
def applyGrant (s : State) (die k v : Nat) : State :=
  setLimit (setFld (modPwr s die fun p => { p with next := none, gotFor := some k }) die R.PWR_STATUS_GRANT v) die

/-- Time has stepped forward: each die's newest grant applies at once (R440). -/
def stepGrants (s : State) : State :=
  s.pwr.dies.foldl (fun s e => match e.2.next with
    | some (k, v) => if dieUp s e.1 then applyGrant s e.1 k v else s
    | none => s) s

/-- At a die's reset its limit is its FLOOR, its mode 0 with g = 1, and its loans are void (R455). -/
def pwrReset (s : State) (die : Nat) : State :=
  let s := { s with pwr := { s.pwr with
    dies := (tdel s.pwr.dies die).map fun e => (e.1, { e.2 with slots := tdel e.2.slots die, status := tdel e.2.status die })
    reports := tdel s.pwr.reports die
    grants := tdel s.pwr.grants die } }
  let s := setFld (setFld s die R.PWR_STATUS_GRANT (floorOf s die)) die R.PWR_STATUS_LIMIT (floorOf s die)
  setFld s die R.PWR_STATUS_MODE 0

/-- At a warm reset loans are void, and each die spends its last grant until a new one arrives; every g stays (R455). -/
def pwrWarm (s : State) : State :=
  let keep := fun (p : PwrDie) =>
    ({ g := p.g, meas := p.meas, epoch := p.epoch, asserting := p.asserting, droop := p.droop } : PwrDie)
  { s with pwr := { s.pwr with dies := s.pwr.dies.map (fun e => (e.1, keep e.2)), reports := [], grants := [] } }

end Sys2Proof.Machine
end

