-- ==== Sys2Proof/Machine/Tiers.lean ====
section
/-! DEFINITION. HBM controllers, board tier, flash translation layer, pool and tier movers (chapter 10). -/

namespace Sys2Proof.Machine

/-- Change the tier state. -/
def modTiers (s : State) (f : Tiers → Tiers) : State := { s with tiers := f s.tiers }

/-! ## HBM (R294 to R304) -/

/-- Pseudo-channel that stores a group of a line's codeword (R294). -/
def pchOf (s : State) (ln g : Nat) : Nat := (18 * ((hbmPlace s (ln * 64)).2 / 64) + g) % 32

/-- Is a read with byte errors at these codeword positions decoded (R295)? -/
def decodes (s : State) (md stack ln : Nat) (errs : List (Fin 72)) : Bool :=
  let dead := fun (p : Nat) => fldAt s (5 + md) R.MEM_HBM_STACK_PCH_RETIRED stack == 1
    && pchOf s ln (p / 4) == fldAt s (5 + md) R.MEM_HBM_STACK_PCH stack
  let erased := (List.range 72).any dead
  let n := (List.range 72).countP fun p => !dead p && errs.any fun e => e.val == p
  n ≤ (if erased then 2 else 4)

/-- Read a stored codeword: corrected, read again, or poisoned (R295, R296, R484). The flag: it was poisoned now. -/
def readCodeword (s : State) (md ln : Nat) (errs errs2 : List (Fin 72)) : State × Bool :=
  let stack := (hbmPlace s (ln * 64)).1 % 4
  if lineRetired s ln || linePoison s ln || decodes s md stack ln errs || decodes s md stack ln errs2 then (s, false)
  else (setPoison s ln true, true)

/-- HBM_ACCESS: the controller of a line's stack reads its codeword or writes a fresh one. -/
def hbmAccess (s : State) (md ln : Nat) (write : Option Line) (errs errs2 : List (Fin 72)) : State :=
  if hbmEnd ≤ ln * 64 ∨ homeOfLine s ln ≠ md then s
  else match write with
    | some d => storeLine s ln d false
    | none => (readCodeword s md ln errs errs2).1

/-- Fill the buckets of a memory die up to the present (R301, R302). -/
def fillBuckets (s : State) (md : Nat) : State :=
  let h := tget s.tiers.hbm md {}
  let dt := s.time.toNat - h.filled.toNat
  let rate := fun n =>
    let r := fldAt s (5 + md) R.MEM_PART_RATE_RATE n
    if fldAt s (5 + md) R.MEM_PART_RATE_HARD n = 1 then max r 4 else r
  let b := (List.range 64).map fun n => (n, min (bucketCap s md n) (tget h.bucket n 0 + rate n * dt))
  modTiers s fun t => { t with hbm := tset t.hbm md { h with bucket := b, filled := s.time } }

/-- Partition of a request; 64: exempt (R300). -/
def HbmReq.part (r : HbmReq) : Nat := if r.exempt || r.ctx == 0 then 64 else r.ctx.toNat / 1024

/-- First in round-robin order after `rr`, over partitions 0 to 64. -/
def rrPick (rr : Nat) (l : List HbmReq) : Option HbmReq :=
  match l with
  | [] => none
  | r :: rs =>
    let place := fun (x : HbmReq) => (x.part + 65 - (rr + 1) % 65) % 65
    some (rs.foldl (fun b x => if place x < place b then x else b) r)

/-- The request that a controller grants next, and the die's state after it (R301, R304). -/
def hbmNext (s : State) (md stack : Nat) : Option (HbmReq × HbmDie) :=
  let h := tget s.tiers.hbm md {}
  let q := h.queue.filter (·.stack == stack)
  let out := fun (r : HbmReq) => { h with queue := h.queue.erase r }
  if prioService s md then
    let fast := q.find? fun r => r.ctx == 0 && r.read
    let slow := q.find? fun r => !(r.ctx == 0 && r.read)
    match fast, slow with
    | some r, none => some (r, out r)
    | some r, some w =>
      if 7 ≤ tget h.prio8 stack 0 then some (w, { out w with prio8 := tdel h.prio8 stack })
      else some (r, { out r with prio8 := tset h.prio8 stack (tget h.prio8 stack 0 + 1) })
    | none, some w => some (w, { out w with prio8 := tdel h.prio8 stack })
    | none, none => none
  else
    match rrPick (tget h.rr stack 0) (q.filter fun r => r.part == 64 || r.bytes * 4 ≤ tget h.bucket r.part 0) with
    | some r => some (r, { out r with
        rr := tset h.rr stack r.part
        bucket := if r.part = 64 then h.bucket else tset h.bucket r.part (tget h.bucket r.part 0 - r.bytes * 4) })
    | none =>
      (rrPick (tget h.rr2 stack 0) (q.filter fun r => fldAt s (5 + md) R.MEM_PART_RATE_HARD r.part == 0)).map fun r =>
        (r, { out r with rr2 := tset h.rr2 stack r.part })

/-- HBM_CONTROLLER_GRANT. -/
def hbmGrant (s : State) (md stack : Nat) (t : W64) : State :=
  let s := fillBuckets (setTime s t) md
  match hbmNext s md stack with
  | some (_, h) => modTiers s fun x => { x with hbm := tset x.hbm md h }
  | none => s

/-- Threshold in °C that raises the refresh rate to a level (R298). -/
def refreshThr (n : Nat) : Nat := if n = 1 then 85 else if n = 2 then 95 else 105

/-- Refresh level after a sample: rising at once, falling 3 °C below the threshold that raised it (R298). -/
def refreshNext (cur temp : Nat) : Nat :=
  let raw := if 105 ≤ temp then 3 else if 95 ≤ temp then 2 else if 85 ≤ temp then 1 else 0
  if cur = 3 ∨ cur ≤ raw then max cur raw
  else
    let held := ((List.range cur).map (· + 1)).filter fun n => refreshThr n - 3 < temp
    max raw (held.foldl max 0)

/-- HBM_TEMP_SAMPLE (R298, R299). -/
def hbmTemp (s : State) (md stack temp : Nat) : State :=
  let die := 5 + md
  let n := refreshNext (fldAt s die R.MEM_HBM_STACK_REFRESH stack) temp
  let was := fldAt s die R.MEM_HBM_STACK_REFRESH stack
  let s := setFldAt s die R.MEM_HBM_STACK_TEMP stack temp
  let s := setFldAt s die R.MEM_HBM_STACK_REFRESH stack n
  if n = 3 ∧ was ≠ 3 then
    retireStack (relEvent s 0x16 0 (body4 (die + 2 * 2 ^ 5 + stack * 2 ^ 8 + temp * 2 ^ 16) 0 0 0)) md stack
  else s

/-- BOARD_ACCESS (R305 to R307). -/
def boardAccess (s : State) (ln : Nat) (write : Option Line) (poison linkErr : Bool) : State :=
  if ln * 64 < boardBase ∨ boardEnd ≤ ln * 64 ∨ lineRetired s ln then s
  else match write with
    | some d => storeLine s ln d (poison || linkErr)
    | none => if linkErr then setPoison s ln true else s

/-! ## Flash translation layer (R308 to R310) -/

/-- Logical pages the layer exports. -/
abbrev flashPages : Nat := 6442450944

/-- A fresh physical page outside a block and the bad blocks. -/
def freshPage (t : Tiers) (avoid : Option Nat) : Nat :=
  let ok := fun p => !t.badBlocks.contains (Config.flashBlock p) && some (Config.flashBlock p) != avoid
  (((List.range 4096).map (t.nextPage + ·)).find? ok).getD t.nextPage

/-- FLASH_WRITE_COMPLETE: the data page and its journal record are programmed (R309). -/
def flashWriteDone (s : State) (page : Nat) : State :=
  match s.tiers.writes.find? (·.page == page) with
  | none => s
  | some w => modTiers s fun t =>
      let p := freshPage t none
      { t with
        writes := t.writes.erase w
        pages := tset (match tget? t.map page with | some old => tdel t.pages old | none => t.pages) p w.data
        map := tset t.map page p
        nextPage := p + 1 }

/-- Move the valid pages of a block (R310). -/
def flashMove (t : Tiers) (block : Nat) : Tiers :=
  (t.map.filter fun e => Config.flashBlock e.2 == block).foldl (fun t e =>
    let p := freshPage t (some block)
    { t with pages := tset (tdel t.pages e.2) p (tget t.pages e.2 []), map := tset t.map e.1 p, nextPage := p + 1 }) t

/-- Does a rise of WEAR_PCT reach 50, 80, 100 or a further 10 (R489)? -/
def wearStep (old new : Nat) : Bool :=
  ([50, 80, 100] ++ (List.range 16).map fun i => 110 + 10 * i).any fun m => old < m && m ≤ new

/-- FLASH_RELOCATE: valid pages move, the block is erased or retired, and the layer's status follows (R310, R489). -/
def flashRelocate (s : State) (block reason wear spare : Nat) : State :=
  let s := modTiers s fun t =>
    let t := flashMove t block
    { t with
      erases := if reason = 3 then t.erases else tset t.erases block (tget t.erases block 0 + 1)
      badBlocks := if reason = 3 then setAdd t.badBlocks block else t.badBlocks }
  let oldW := fld s 13 R.TIER_FLASH_STATUS_WEAR_PCT
  let oldS := fld s 13 R.TIER_FLASH_STATUS_SPARE_PERMILLE
  let oldX := fld s 13 R.TIER_FLASH_STATUS_WRITES_STOPPED
  let x := b2n (spare < 20)
  let s := setFld (setFld (setFld s 13 R.TIER_FLASH_STATUS_WEAR_PCT wear) 13 R.TIER_FLASH_STATUS_SPARE_PERMILLE spare) 13
    R.TIER_FLASH_STATUS_WRITES_STOPPED x
  if wearStep oldW wear || (50 ≤ oldS && spare < 50) || (x == 1 && oldX == 0) then
    relEvent s 0x19 0 (body4 (wear + spare * 2 ^ 8 + x * 2 ^ 18) 0 0 0)
  else s

/-! ## The pool (R311 to R318) -/

/-- First address of an extent of memory. -/
def extBase (e : Nat) : Nat := if e < 1572864 then e * 2 ^ 21 else boardBase + (e - 1572864) * 2 ^ 21

/-- Level of an extent of memory: 0 HBM, 1 board tier. -/
def extLevel (e : Nat) : Nat := if e < 1572864 then 0 else 1

/-- Does any of an extent's memory lie on a retired stack or channel (R297, R307)? -/
def extRetired (s : State) (e : Nat) : Bool := (List.range 1024).any fun i => lineRetired s (extBase e / 64 + 32 * i)

/-- Does a handle's data lie on a retired stack, board-tier channel or flash channel (R321)? Pages of a lost flash
channel have no map entry (R477). -/
def dataRetired (s : State) (h : Nat) (p : PoolEnt) : Bool :=
  if p.level < 2 then extRetired s p.extent
  else match tget? s.tiers.images h with
    | some i => i.lpages.any fun x => (tget? s.tiers.map x).isNone
    | none => false

/-- Is a transaction open on a line of an extent? -/
def extIdle (s : State) (e : Nat) : Bool := s.coh.homes.all fun h => h.2.txns.all fun t => lineExtent t.1 != e

/-- Claim change of one extent, with SCRUB = 1 (R312). -/
def poolClaim (s : State) (e : Nat) (ctx : BitVec 16) (mode : Nat) : State :=
  let s := putClaim s e (BitVec.ofNat 32 (ctx.toNat + mode * 2 ^ 16))
  let s := modXlt s fun x => { x with helpers := x.helpers.map fun h => (h.1, { h.2 with claims := tdel h.2.claims e }) }
  ((heldLines s).filter fun ln => lineExtent ln == e).foldl cohFlush s

/-- Extents of the pool in use, or taken by a move. -/
def poolUsed (t : Tiers) (e : Nat) : Bool :=
  t.pool.any (fun p => p.2.level < 2 && p.2.extent == e) || t.moves.any fun m => m.2.dstLevel < 2 && m.2.dstExtent == e

/-- Does an extent have the placement that an ALLOC named (R320)? -/
def placeOk (s : State) (place e : Nat) : Bool :=
  extLevel e == 1 || (if place = 0 then (List.range 6).all fun m => !inStretch s (extBase e) m
    else inStretch s (extBase e) (place - 5))

/-- Free extents of a level, and placement in HBM. -/
def poolFree (s : State) (level : Nat) (place : Option Nat) : List Nat :=
  s.tiers.ranges.flatMap fun r => ((List.range r.2).map (r.1 + ·)).filter fun e =>
    extLevel e == level && !poolUsed s.tiers e && (match place with | some p => placeOk s p e | none => true)

/-- The lowest of some extents. -/
def lowest (l : List Nat) : Option Nat := l.foldl (fun b e => match b with | some x => some (min x e) | none => some e) none

/-- Extents a context uses at a level, moves into it included (R317). -/
def poolUse (t : Tiers) (ctx : BitVec 16) (level : Nat) : Nat :=
  (t.pool.filter fun p => p.2.ctx == ctx && (p.2.level == level || ((tget? t.moves p.1).map (·.dstLevel)) == some level)).length

/-- Quota of a context at a level. -/
def quotaAt (t : Tiers) (ctx : BitVec 16) (level : Nat) : Nat :=
  let q := tget t.quotas ctx.toNat {}
  if level = 0 then q.hbm else if level = 1 then q.board else q.flash

/-- Has the context's quota for a level room? -/
def quotaRoom (t : Tiers) (ctx : BitVec 16) (level : Nat) : Bool := poolUse t ctx level < quotaAt t ctx level

/-- Does the translation layer accept writes? -/
def flashOpen (s : State) : Bool := fld s 13 R.TIER_FLASH_STATUS_WRITES_STOPPED == 0

/-- Logical pages that no image fills. -/
def flashRoom (t : Tiers) (n : Nat) : Bool := (t.images.map fun i => i.2.lpages.length).sum + n ≤ flashPages

/-- Put an element into a list sorted by `le`. -/
def insertBy {α : Type} (le : α → α → Bool) (x : α) : List α → List α
  | [] => [x]
  | y :: ys => if le x y then x :: y :: ys else y :: insertBy le x ys

/-- Sort by `le`. -/
def sortBy {α : Type} (le : α → α → Bool) (l : List α) : List α := l.foldr (insertBy le) []

/-- Candidates for eviction from a level, greatest age first and lower handle on a tie (R315). -/
def victims (t : Tiers) (level : Nat) (of_ : Option (BitVec 16)) : List Nat :=
  let l := t.pool.filter fun p => p.2.level == level && p.2.hold == 0 && !p.2.lost && (tget? t.moves p.1).isNone
    && (match of_ with | some c => p.2.ctx == c | none => true)
  (sortBy (fun a b => b.2.age < a.2.age || (b.2.age == a.2.age && a.1 ≤ b.1)) l).map (·.1)

/-- Where an extent evicted from a level goes, if anywhere (R315). -/
def evictDst (s : State) (level : Nat) (p : PoolEnt) : Option (Nat × Nat) :=
  let board := if level = 0 && quotaRoom s.tiers p.ctx 1 then (lowest (poolFree s 1 none)).map fun e => (1, e) else none
  board.or (if quotaRoom s.tiers p.ctx 2 && flashOpen s && flashRoom s.tiers 513 then some (2, 0) else none)

/-- Begin a move: the source's claim goes to context 0 (R316). -/
def moveStart (s : State) (h : Nat) (lv e : Nat) (cid : Option Nat) : State :=
  match tget? s.tiers.pool h with
  | none => s
  | some p =>
    let s := if p.level < 2 then poolClaim s p.extent 0 0 else s
    modTiers s fun t => { t with moves := tset t.moves h { dstLevel := lv, dstExtent := e, cid := cid } }

/-- Does a waiting command need an extent at a level? -/
def poolDemand (s : State) (level : Nat) : Bool :=
  s.tiers.waiting.any fun cid => match s.cmd? cid with
    | some c =>
      let op := bodyBits c 0 7 0
      let lv := bodyBits c 0 9 8
      (op == 1 && lv == level) || (op == 3 && lv ≤ level && level ≤ 1) || (op == 5 && lv == level)
    | none => false

/-- Free extents of a level against its water marks: must eviction go on? -/
def belowWater (s : State) (board going : Bool) : Bool :=
  let n := (poolFree s (if board then 1 else 0) none).length
  let lo := fld s 13 (if board then R.TIER_POOL_WATER_BOARD_LOW else R.TIER_POOL_WATER_HBM_LOW)
  let hi := max lo (fld s 13 (if board then R.TIER_POOL_WATER_BOARD_HIGH else R.TIER_POOL_WATER_HBM_HIGH))
  n < lo || (going && n < hi)

/-- Note whether eviction of a level is going on (R315). -/
def setEvicting (s : State) (board : Bool) : State :=
  let now := belowWater s board (if board then s.tiers.evicting.2 else s.tiers.evicting.1)
  modTiers s fun t => { t with evicting := if board then (t.evicting.1, now) else (now, t.evicting.2) }

/-- POOL_EVICT (R315). -/
def poolEvict (s : State) (board : Bool) (of_ : Option (BitVec 16)) : State :=
  let level := if board then 1 else 0
  let s := setEvicting s board
  let due := match of_ with
    | some c => quotaAt s.tiers c level < poolUse s.tiers c level || poolDemand s level
    | none => (if board then s.tiers.evicting.2 else s.tiers.evicting.1) || poolDemand s level
  if !due then s
  else
    match (victims s.tiers level of_).findSome? fun h =>
        ((tget? s.tiers.pool h).bind fun p => if extIdle s p.extent then evictDst s level p else none).map fun d => (h, d) with
    | some (h, lv, e) => moveStart s h lv e none
    | none => s

/-- POOL_AGE_TICK (R314). -/
def poolAge (s : State) : State :=
  modTiers s fun t => { t with
    pool := t.pool.map fun p =>
      if p.2.level = 2 then p
      else
        let hot := t.touched.contains p.2.extent || p.2.hold != 0 || p.2.heldNow
        (p.1, { p.2 with age := if hot then 0 else min 255 (p.2.age + 1), heldNow := false })
    touched := t.touched.filter fun e => !t.ranges.any fun r => r.1 ≤ e && e < r.1 + r.2 }

/-! ## Images (R322 to R324) -/

/-- Bytes of an extent as stored. -/
def extBytes (s : State) (e : Nat) : List Byte := memRead s.mem (extBase e) (2 ^ 21)

/-- Does an extent hold poisoned lines? -/
def extPoison (s : State) (e : Nat) : Bool :=
  s.poison.any (fun ln => lineExtent ln == e) || s.tiers.boardPoison.any (fun ln => lineExtent ln == e)
    || s.tiers.boardExtents.contains e

/-- The non-zero lines of an extent, by line within it. -/
def extLines (s : State) (e : Nat) : Tbl Line :=
  let lo := extBase e
  let ns := ((s.mem.filter fun c => lo ≤ c.1 && c.1 < lo + 2 ^ 21).map fun c => (c.1 - lo) / 64).foldl
    (fun acc n => if acc.head? = some n then acc else n :: acc) []
  ns.reverse.map fun n => (n, memLine s (lo / 64 + n))

/-- The 32 blocks of 64 KiB as they are stored: compressed where that is smaller (R322). -/
def imageBlocks (compress : Bool) (b : List Byte) : List (List Byte) :=
  (List.range 32).map fun i =>
    let raw := (b.drop (65536 * i)).take 65536
    let z := Config.lz4 raw
    if compress && z.length < 65536 then z else raw

/-- Are Yarrum stream dies in service (R324)? -/
def streamDies (s : State) : List Nat :=
  if fld s 0 R.HUB_MODULE_ID_PARTNER_CODE = 0 then [14, 15].filter (dieUp s) else []

/-- Make the image of a handle: compressed, sealed and cut into logical pages (R322, R323). -/
def makeImage (s : State) (h : Nat) (p : PoolEnt) (compress : Bool) : State :=
  let blocks := imageBlocks compress (extBytes s p.extent)
  let gen := s.tiers.gen + 1
  let epoch := tget s.tiers.epochs p.ctx.toNat 0
  let head := leBytes 1 0 ++ leBytes 3 h ++ leBytes 8 gen.toNat ++ leBytes 2 p.ctx.toNat ++ leBytes 3 h ++ leBytes 8 gen.toNat
    ++ blocks.flatMap fun b => leBytes 4 b.length
  let sealed_ := Config.aesSeal (p.ctx.toNat + 2 ^ 16 * s.tiers.salt.toNat) epoch head (blocks.flatten)
  let size := (blocks.map List.length).sum + 16
  let n := ceilDiv size 4096
  let taken := s.tiers.images.flatMap fun i => i.2.lpages
  let lp := (((List.range (taken.length + n)).filter fun x => !taken.contains x)).take n
  let img : FlashImage := { ctx := p.ctx, epoch := epoch, gen := gen, plain := extLines s p.extent, pages := n
                            sealedBytes := sealed_, bad := extPoison s p.extent, lpages := lp }
  let ws := (lp.zip (List.range n)).map fun x => (⟨x.1, (sealed_.drop (4096 * x.2)).take 4096⟩ : FlashWrite)
  modTiers s fun t => { t with gen := gen, images := tset t.images h img, writes := t.writes ++ ws }

/-- STREAM_DIE_TRANSFER: the image of an extent that moves to or from flash passes a stream die (R322, R324). -/
def streamTransfer (s : State) (h : Nat) : State :=
  match tget? s.tiers.moves h, tget? s.tiers.pool h with
  | some m, some p =>
    if m.sealed_ || streamDies s == [] || (m.dstLevel != 2 && p.level != 2) then s
    else
      let s := if m.dstLevel = 2 then makeImage s h p true else s
      modTiers s fun t => { t with alternate := !t.alternate, moves := tset t.moves h { m with sealed_ := true } }
  | _, _ => s

/-! ## Tier mover commands (R319 to R321) -/

/-- Fields of a TIER command. -/
structure TierCmd where
  op : Nat
  level : Nat
  place : Nat
  handle : Nat
  result : Nat
  res0 : Bool
deriving DecidableEq, Repr

/-- Read a TIER command. -/
def tierCmd (c : Cmd) : TierCmd :=
  let w := fun i => leNat ((c.body.drop (8 * i)).take 8)
  { op := bits (w 0) 7 0, level := bits (w 0) 9 8, place := bits (w 0) 13 10, handle := bits (w 0) 55 32, result := w 1
    res0 := bits (w 0) 31 14 != 0 || bits (w 0) 63 56 != 0 || (c.body.drop 16).any (· != 0) }

/-- Is a command malformed (R321)? -/
def TierCmd.bad (t : TierCmd) : Bool :=
  t.res0 || t.result % 16 != 0 || t.op == 0 || 5 < t.op
    || (t.op == 1 && (1 < t.level || !(t.place == 0 || (5 ≤ t.place && t.place ≤ 10))))
    || (t.op == 3 && 1 < t.level) || (t.op == 5 && !(t.level == 1 || t.level == 2))

/-- Tier mover of a command; none left in service (R352, R479). -/
def moverOf (s : State) (c : Cmd) : Option Nat :=
  let m := fldAt s 13 R.UNIT_MAP_IN_SERVICE 2 / 2 ^ 16
  ((List.range 16).map fun i => (c.queue.toNat + i) % 16).find? fun i => bitAt m i

/-- A TIER command ends: its result record is written, then it completes (R320, R321). -/
def tierEnd (s : State) (cid h : Nat) (status : Byte) : State :=
  match s.cmd? cid with
  | none => s
  | some c =>
    let s := modTiers s fun t => { t with waiting := t.waiting.filter (· != cid) }
    let tc := tierCmd c
    let p := tget? s.tiers.pool h
    let lv := (p.map (·.level)).getD 0
    let pa := match p with
      | some p => if status = 0 ∧ p.level < 2 then extBase p.extent else 0
      | none => 0
    let rec_ := leBytes 8 (status.toNat + h * 2 ^ 8 + lv * 2 ^ 32) ++ leBytes 8 pa
    if tc.result = 0 then finishCmd s cid status
    else
      let r := recordPut s 13 ((moverOf s c).getD 0) cid c.ctx (BitVec.ofNat 64 tc.result) rec_
      finishCmd r.1 cid (if status = 0 then r.2.getD 0 else status)

/-- A TIER command waits for room or for a move. -/
def tierWait (s : State) (cid : Nat) : State :=
  modTiers s fun t => { t with waiting := if t.waiting.contains cid then t.waiting else t.waiting ++ [cid] }

/-- Room for a context at a level: an extent, a status, or neither yet (R321). -/
def poolRoom (s : State) (ctx : BitVec 16) (level : Nat) (place : Option Nat) : Sum (Option Nat) Byte :=
  if !quotaRoom s.tiers ctx level then
    let leaving := s.tiers.moves.any fun m => match tget? s.tiers.pool m.1 with
      | some p => p.ctx == ctx && p.level == level && m.2.dstLevel != level
      | none => false
    if quotaAt s.tiers ctx level = 0 ∨ (victims s.tiers level (some ctx) = [] ∧ !leaving) then .inr 0x09 else .inl none
  else if level = 2 then
    if !flashOpen s then .inr 0x0B else .inl (if flashRoom s.tiers 513 then some 0 else none)
  else match lowest (poolFree s level place) with
    | some e => if extRetired s e then .inr 0x0B else .inl (some e)
    | none => .inl none

/-- Lowest free handle. -/
def freeHandle (t : Tiers) : Option Nat := (List.range (t.pool.length + 1)).find? fun h => (tget? t.pool h).isNone && h < 2 ^ 24

/-- The checks of a command on an existing handle, in the order of R321: a status, or the entry. -/
def handleOk (s : State) (c : Cmd) (t : TierCmd) : Sum PoolEnt Byte :=
  match tget? s.tiers.pool t.handle with
  | none => .inr 0x0F
  | some p =>
    if p.ctx ≠ c.ctx then .inr 0x04
    else if ((t.op = 2 ∨ t.op = 5) ∧ p.hold ≠ 0) ∨ (t.op = 4 ∧ p.hold = 0) ∨ (t.op = 5 ∧ t.level ≤ p.level)
        ∨ (t.op = 3 ∧ 255 ≤ p.hold) then .inr 0x0F
    else .inl p

/-- ALLOC. -/
def tierAllocRun (s : State) (cid : Nat) (c : Cmd) (t : TierCmd) : State :=
  match poolRoom s c.ctx t.level (if t.level = 0 then some t.place else none), freeHandle s.tiers with
  | .inr st, _ => tierEnd s cid 0 st
  | .inl (some e), some h =>
    let s := zeroExtents (poolClaim s e c.ctx 1) e e
    tierEnd (modTiers s fun x => { x with
      pool := tset x.pool h { ctx := c.ctx, level := t.level, extent := e, place := t.place, hold := 1 } }) cid h 0
  | _, _ => tierWait s cid

/-- FREE: the handle ends, and its extent and image are free; a transaction open on a line of the extent ends first. -/
def tierFreeRun (s : State) (cid : Nat) (t : TierCmd) (p : PoolEnt) : State :=
  if p.level < 2 && !extIdle s p.extent then tierWait s cid
  else
    let s := if p.level < 2 then poolClaim s p.extent 0 0 else s
    let s := modTiers s fun x => { x with
      pool := tdel x.pool t.handle
      map := (((tget? x.images t.handle).map (·.lpages)).getD []).foldl tdel x.map
      images := tdel x.images t.handle }
    match s.cmd? cid with
    | some _ => tierEnd s cid t.handle 0
    | none => s

/-- Levels a HOLD may move an extent to, the first with room. -/
def holdRoom (s : State) (c : Cmd) (t : TierCmd) (p : PoolEnt) : Sum (Option (Nat × Nat)) Byte :=
  let hbm := poolRoom s c.ctx 0 (some p.place)
  let up := fun (r : Sum (Option Nat) Byte) (lv : Nat) => match r with
    | .inl (some e) => Sum.inl (some (lv, e))
    | .inl none => .inl none
    | .inr st => .inr st
  if t.level = 0 then up hbm 0
  else match poolRoom s c.ctx 1 none, hbm with
    | .inl (some e), _ => .inl (some (1, e))
    | _, .inl (some e) => .inl (some (0, e))
    | r, _ => up r 1

/-- HOLD. -/
def tierHoldRun (s : State) (cid : Nat) (c : Cmd) (t : TierCmd) (p : PoolEnt) : State :=
  let put := fun (s : State) (q : PoolEnt) => modTiers s fun x => { x with pool := tset x.pool t.handle q }
  if p.level ≤ t.level ∧ p.level < 2 then
    tierEnd (put s { p with hold := p.hold + 1, heldNow := true }) cid t.handle 0
  else match holdRoom s c t p with
    | .inr st => tierEnd s cid t.handle st
    | .inl none => tierWait s cid
    | .inl (some (lv, e)) =>
      if dataRetired s t.handle p then tierEnd s cid t.handle 0x0B
      else if p.lost then tierEnd s cid t.handle 0x06
      else if p.level < 2 && !extIdle s p.extent then tierWait s cid
      else moveStart (put s { p with heldNow := true }) t.handle lv e (some cid)

/-- DEMOTE. -/
def tierDemoteRun (s : State) (cid : Nat) (c : Cmd) (t : TierCmd) (p : PoolEnt) : State :=
  match poolRoom s c.ctx t.level none with
    | .inr st => tierEnd s cid t.handle st
    | .inl none => tierWait s cid
    | .inl (some e) =>
      if dataRetired s t.handle p then tierEnd s cid t.handle 0x0B
      else if extIdle s p.extent then moveStart s t.handle t.level e (some cid) else tierWait s cid

/-- Run a TIER command, or leave it waiting. -/
def tierRun (s : State) (cid : Nat) : State :=
  match runnable s cid 6 with
  | none => s
  | some c =>
    let t := tierCmd c
    if (s.tiers.moves.any fun m => m.2.cid == some cid) then s
    else if t.bad then tierEnd s cid 0 0x0F
    else if (moverOf s c).isNone then tierEnd s cid 0 0x0B
    else if t.op = 1 then tierAllocRun s cid c t
    else match handleOk s c t with
      | .inr st => tierEnd s cid t.handle st
      | .inl p =>
        if (tget? s.tiers.moves t.handle).isSome ∧ t.op ≠ 4 then tierWait s cid
        else if t.op = 2 then tierFreeRun s cid t p
        else if t.op = 3 then tierHoldRun s cid c t p
        else if t.op = 4 then
          tierEnd (modTiers s fun x => { x with pool := tset x.pool t.handle { p with hold := p.hold - 1 } }) cid t.handle 0
        else tierDemoteRun s cid c t p

/-- The waiting commands look again, oldest first. -/
def tierRetry (s : State) : State := s.tiers.waiting.foldl tierRun s

/-- A TIER row: the command's OP is the row's, or reserved. -/
def tierRow (s : State) (cid op : Nat) : State :=
  match runnable s cid 6 with
  | none => s
  | some c =>
    let t := tierCmd c
    if t.op = op || t.op == 0 || 5 < t.op then tierRetry (tierRun s cid) else s

/-- POOL_FREE_WAIT_TIMEOUT (R321). -/
def poolTimeout (s : State) (cid : Nat) : State :=
  if s.tiers.waiting.contains cid then
    match s.cmd? cid with
    | some c =>
      let t := tierCmd c
      if t.op = 2 ∨ (t.op ≠ 1 ∧ (tget? s.tiers.moves t.handle).isSome) then s
      else tierEnd s cid (if t.op = 1 then 0 else t.handle) 0x0C
    | none => s
  else s

/-- Copy an extent's bytes and poison to another (R316). -/
def extCopy (s : State) (src dst : Nat) : State :=
  let a := extBase src
  let b := extBase dst
  let cells := s.mem.filter fun c => a ≤ c.1 && c.1 < a + 2 ^ 21
  let bad := (s.poison ++ s.tiers.boardPoison).filter fun ln => lineExtent ln == src
  let s := zeroExtents s dst dst
  let s := { s with mem := cells.foldl (fun m c => memSet m (c.1 - a + b) c.2) s.mem }
  bad.foldl (fun s ln => setPoison s (ln - a / 64 + b / 64) true) s

/-- Write an image's lines into an extent. -/
def extLoad (s : State) (img : FlashImage) (dst : Nat) : State :=
  let b := extBase dst / 64
  img.plain.foldl (fun s l => storeLine s (b + l.1) l.2 false) (zeroExtents s dst dst)

/-- Does the data of a move stand ready at its destination's side? -/
def moveReady (s : State) (h : Nat) (p : PoolEnt) (m : PoolMove) : Bool :=
  let stream := m.dstLevel == 2 || p.level == 2
  let pages := ((tget? s.tiers.images h).map (·.lpages)).getD []
  (p.level == 2 || extIdle s p.extent) && (!stream || streamDies s == [] || m.sealed_)
    && !(m.dstLevel == 2 && s.tiers.writes.any fun w => pages.contains w.page)

/-- Steps 3 to 5 of a move, and the end of the command it serves (R316). -/
def moveFinish (s : State) (h : Nat) (p : PoolEnt) (m : PoolMove) : State :=
  let drop := fun (s : State) => modTiers s fun t => { t with moves := tdel t.moves h }
  let img := tget? s.tiers.images h
  let lost : Bool := p.level == 2 && (match img with
    | some i => i.bad || i.epoch != tget s.tiers.epochs p.ctx.toNat 0
    | none => true)
  if lost then
    let s := drop (modTiers s fun t => { t with pool := tset t.pool h { p with lost := true } })
    match m.cid with
    | some cid => tierEnd s cid h 0x06
    | none => s
  else
    let s := if m.dstLevel < 2 then
        let s := poolClaim s m.dstExtent p.ctx 1
        match img with
        | some i => if p.level = 2 then extLoad s i m.dstExtent else extCopy s p.extent m.dstExtent
        | none => extCopy s p.extent m.dstExtent
      else s
    let hold := match m.cid.bind s.cmd? with
      | some c => if (tierCmd c).op = 3 then p.hold + 1 else p.hold
      | none => p.hold
    let s := drop (modTiers s fun t => { t with
      pool := tset t.pool h { p with level := m.dstLevel, extent := m.dstExtent, hold := hold }
      images := if m.dstLevel = 2 then t.images else tdel t.images h })
    match m.cid with
    | some cid => tierEnd s cid h 0
    | none => s

/-- A droop of rail group 38 or 39 holds the tier movers (R449). -/
def moversHeld (s : State) : Bool := (s.pwrDie 13).asserting.any fun g => !stretches g

/-- POOL_MOVE_DONE. Without a stream die the tier die's own engine makes the image, uncompressed (R324). -/
def moveDone (s : State) (h : Nat) : State :=
  match tget? s.tiers.moves h, tget? s.tiers.pool h with
  | some m, some p =>
    let s := if m.dstLevel = 2 ∧ !m.sealed_ ∧ streamDies s = [] then
        modTiers (makeImage s h p false) fun t => { t with moves := tset t.moves h { m with sealed_ := true } }
      else s
    let m := (tget? s.tiers.moves h).getD m
    if !moversHeld s && moveReady s h p m then tierRetry (moveFinish s h p m) else s
  | _, _ => s

/-! ## Resets, unload and settings -/

/-- A context reset sets every hold count of the context to 0 (R318). -/
def poolContextReset (s : State) (ctx : BitVec 16) : State :=
  modTiers s fun t => { t with pool := t.pool.map fun p => if p.2.ctx = ctx then (p.1, { p.2 with hold := 0 }) else p }

/-- An unload frees every handle of the context, and its key epoch rises (R318, R323). -/
def poolUnload (s : State) (ctx : BitVec 16) : State :=
  let hs := (s.tiers.pool.filter fun p => p.2.ctx == ctx).map (·.1)
  let s := hs.foldl (fun s h => match tget? s.tiers.pool h with
    | some p =>
      let s := if p.level < 2 then poolClaim s p.extent 0 0 else s
      modTiers s fun t => { t with
        pool := tdel t.pool h
        map := (((tget? t.images h).map (·.lpages)).getD []).foldl tdel t.map
        images := tdel t.images h
        moves := tdel t.moves h }
    | none => s) s
  modTiers s fun t => { t with epochs := tset t.epochs ctx.toNat (tget t.epochs ctx.toNat 0 + 1) }

/-- The pool ranges as they stand when the tier die's block is locked (R311). -/
def poolRanges (s : State) : List (Nat × Nat) :=
  ((List.range 8).map fun n => (fldAt s 13 R.TIER_POOL_RANGE_FIRST n, fldAt s 13 R.TIER_POOL_RANGE_COUNT n)).filter fun r =>
    r.2 != 0 && r.1 + r.2 ≤ windowExtent && !s.xlt.reservedClaims.any fun x => r.1 < x.1 + x.2 && x.1 < r.1 + r.2

/-- QUOTA_COMMIT, after the shadow values are in effect (R317). -/
def quotaCommit (s : State) : State :=
  let c := fld s 13 R.TIER_QUOTA_CTX
  if c = 0 then s
  else
    let q : Quota := ⟨64 * fld s 13 R.TIER_QUOTA_HBM_Q, 64 * fld s 13 R.TIER_QUOTA_BOARD_Q,
      64 * fld s 13 R.TIER_QUOTA_FLASH_Q⟩
    modTiers s fun t => { t with quotas := tset t.quotas c q }

/-! ## The meanings -/

/-- HBM_ACCESS. -/
def execHbmAccess (md : Fin 6) (line : Nat) (_ctx : BitVec 16) (write : Option Line) (errs errs2 : List (Fin 72))
    (s : State) : Host.Outcome State Fault Refusal := .next (hbmAccess s md line write errs errs2)
/-- HBM_CONTROLLER_GRANT. -/
def execHbmControllerGrant (md : Fin 6) (stack : Fin 4) (t : W64) (s : State) : Host.Outcome State Fault Refusal :=
  .next (hbmGrant s md stack t)
/-- HBM_TEMP_SAMPLE. -/
def execHbmTempSample (md : Fin 6) (stack : Fin 4) (temp : BitVec 8) (s : State) : Host.Outcome State Fault Refusal :=
  .next (hbmTemp s md stack temp.toNat)
/-- BOARD_ACCESS. -/
def execBoardAccess (line : Nat) (write : Option Line) (poison linkErr : Bool) (s : State) :
    Host.Outcome State Fault Refusal := .next (boardAccess s line write poison linkErr)
/-- FLASH_WRITE_COMPLETE. -/
def execFlashWriteComplete (page : Nat) (s : State) : Host.Outcome State Fault Refusal := .next (flashWriteDone s page)
/-- FLASH_RELOCATE. -/
def execFlashRelocate (block : Nat) (reason : Fin 4) (wear : BitVec 8) (spare : BitVec 10) (s : State) :
    Host.Outcome State Fault Refusal := .next (flashRelocate s block reason wear.toNat spare.toNat)
/-- POOL_AGE_TICK. -/
def execPoolAgeTick (s : State) : Host.Outcome State Fault Refusal := .next (poolAge s)
/-- POOL_EVICT. -/
def execPoolEvict (fromBoard : Bool) (quotaOf : Option (BitVec 16)) (s : State) : Host.Outcome State Fault Refusal :=
  .next (poolEvict s fromBoard quotaOf)
/-- POOL_MOVE_DONE. -/
def execPoolMoveDone (handle : BitVec 24) (s : State) : Host.Outcome State Fault Refusal := .next (moveDone s handle.toNat)
/-- POOL_FREE_WAIT_TIMEOUT. -/
def execPoolFreeWaitTimeout (cid : Nat) (s : State) : Host.Outcome State Fault Refusal := .next (poolTimeout s cid)
/-- TIER_ALLOC. -/
def execTierAlloc (cid : Nat) (s : State) : Host.Outcome State Fault Refusal := .next (tierRow s cid 1)
/-- TIER_FREE. -/
def execTierFree (cid : Nat) (s : State) : Host.Outcome State Fault Refusal := .next (tierRow s cid 2)
/-- TIER_HOLD. -/
def execTierHold (cid : Nat) (s : State) : Host.Outcome State Fault Refusal := .next (tierRow s cid 3)
/-- TIER_RELEASE. -/
def execTierRelease (cid : Nat) (s : State) : Host.Outcome State Fault Refusal := .next (tierRow s cid 4)
/-- TIER_DEMOTE. -/
def execTierDemote (cid : Nat) (s : State) : Host.Outcome State Fault Refusal := .next (tierRow s cid 5)
/-- STREAM_DIE_TRANSFER. -/
def execStreamDieTransfer (handle : BitVec 24) (s : State) : Host.Outcome State Fault Refusal :=
  .next (streamTransfer s handle.toNat)

end Sys2Proof.Machine
end

