-- ==== Sys2Proof/Machine/KslOps.lean ====
section
/-! DEFINITION. Sending on a KSL port: header slots, flits, the retry buffer, tags and credits (R328 to R334). -/

namespace Sys2Proof.Machine

/-- The 16 bytes of a header slot (R331). -/
def kslHeader (h : KslHdr) : List Byte :=
  leBytes 8 (h.ttype.toNat + b2n h.release * 2 ^ 4 + h.tag.toNat * 2 ^ 6 + h.lenm1.toNat * 2 ^ 16 + h.ctx.toNat * 2 ^ 26
    + h.status.toNat * 2 ^ 42) ++ leBytes 8 h.addr.toNat

/-- A header slot's bytes read as a header; RES0 bits are gathered. -/
def kslReadHeader (b : List Byte) : KslHdr :=
  let w := leNat (b.take 8)
  { ttype := BitVec.ofNat 4 w, release := bitAt w 4, tag := BitVec.ofNat 10 (bits w 15 6)
    lenm1 := BitVec.ofNat 9 (bits w 24 16), ctx := BitVec.ofNat 16 (bits w 41 26), status := BitVec.ofNat 8 (bits w 49 42)
    addr := BitVec.ofNat 64 (leNat (b.drop 8))
    res0 := BitVec.ofNat 64 (bits w 5 5 * 2 ^ 5 + bits w 25 25 * 2 ^ 25 + bits w 63 50 * 2 ^ 50) }

/-- A header with nothing but its type. -/
def kslHdr0 (t : Nat) : KslHdr := ⟨BitVec.ofNat 4 t, false, 0, 0, 0, 0, 0, 0⟩

/-- Pad data to whole slots. -/
def kslSlots (b : List Byte) : List Byte := b ++ List.replicate (16 * ceilDiv b.length 16 - b.length) 0

/-- Cut slots into flits of 15. -/
def kslFlits : Nat → List Byte → List (List Byte)
  | 0, _ => []
  | n + 1, b => if b = [] then [] else b.take 240 :: kslFlits n (b.drop 240)

/-- Credit class of a transaction (R331). -/
def kslClass (t : BitVec 4) : Nat := if t = 1 then 1 else if t = 2 ∨ t = 3 then 2 else if t = 6 then 3 else 0

/-- Has a port credit for a transaction? -/
def kslCredit (p : KslPort) (h : KslHdr) (data : List Byte) : Bool :=
  match kslClass h.ttype with
  | 1 => 1 ≤ p.k1
  | 2 => 1 + ceilDiv data.length 16 ≤ p.k2
  | 3 => 1 ≤ p.k3
  | _ => true

/-- Put one transaction into flits of its own (log 19). -/
def kslEmit (p : KslPort) (h : KslHdr) (data : List Byte) : KslPort :=
  let fl := kslFlits 3 (kslHeader h ++ kslSlots data)
  let p := match kslClass h.ttype with
    | 1 => { p with k1 := p.k1 - 1 }
    | 2 => { p with k2 := p.k2 - (1 + ceilDiv data.length 16) }
    | 3 => { p with k3 := p.k3 - 1 }
    | _ => p
  fl.foldl (fun p b =>
    let q := (p.txSeq + 1) % 4096
    { p with txSeq := q, retry := p.retry ++ [{ seq := q, slots := b }] }) p

/-- Send what waits, in order within each class, while the retry buffer has room and credits last (R330, R333). -/
def kslPump (p : KslPort) : KslPort :=
  let r := p.txq.foldl (fun (acc : KslPort × List (KslHdr × List Byte) × List Nat) x =>
    let p := acc.1
    let c := kslClass x.1.ttype
    let n := ceilDiv (16 + 16 * ceilDiv x.2.length 16) 240
    if !acc.2.2.contains c && p.retry.length + n ≤ 1024 && kslCredit p x.1 x.2 then (kslEmit p x.1 x.2, acc.2)
    else (p, acc.2.1 ++ [x], c :: acc.2.2)) ({ p with txq := [] }, [], [])
  { r.1 with txq := r.2.1 }

/-- Header of an outbound request (R331, R340). -/
def outHeader (r : OutReq) (tag : Nat) : KslHdr :=
  { ttype := if r.write then 2 else 1, release := false, tag := BitVec.ofNat 10 tag, lenm1 := BitVec.ofNat 9 (r.len - 1)
    ctx := r.ctx, status := 0, addr := BitVec.ofNat 64 (r.pa % 2 ^ 50), res0 := 0 }

/-- Lowest free tag of 1,024 (R333). -/
def freeTag (t : Tbl KslTag) : Option Nat := (List.range 1024).find? fun i => (tget? t i).isNone

/-- Give waiting requests their tags (R333). -/
def kslTake (p : KslPort) : KslPort :=
  p.outq.foldl (fun p r =>
    if r.write then
      match freeTag p.wrTags with
      | some i => { p with wrTags := tset p.wrTags i ⟨r, []⟩, txq := p.txq ++ [(outHeader r i, r.data)] }
      | none => { p with outq := p.outq ++ [r] }
    else
      match freeTag p.rdTags with
      | some i => { p with rdTags := tset p.rdTags i ⟨r, []⟩, txq := p.txq ++ [(outHeader r i, [])] }
      | none => { p with outq := p.outq ++ [r] }) { p with outq := [] }

/-- Is a port up (STATE 2)? -/
def portUp (s : State) (p : Nat) : Bool := fldAt s 0 R.HUB_KSL_STAT_STATE p == 2

/-- A port that is up sends what it can. -/
def kslRun (s : State) (p : Nat) : State := if portUp s p then modPort s p fun x => kslPump (kslTake x) else s

/-- Send a transaction. -/
def kslSend (s : State) (p : Nat) (h : KslHdr) (data : List Byte) : State :=
  kslRun (modPort s p fun x => { x with txq := x.txq ++ [(h, data)] }) p

/-- Send a NOTIFY MSG for a queue (R336). -/
def kslNotify (s : State) (p q : Nat) : State :=
  kslSend s p { kslHdr0 6 with addr := BitVec.ofNat 64 (2 + q * 2 ^ 32) } []

/-- The module's epoch as it is sent in an EPOCH MSG (R343). -/
def kslEpoch (s : State) (p : Nat) : State :=
  kslSend s p { kslHdr0 6 with addr := BitVec.ofNat 64 (1 + fldAt s 0 R.HUB_KSL_EPOCH_LOCAL_EPOCH p * 2 ^ 32) } []

end Sys2Proof.Machine
end

