-- ==== Sys2Proof/Machine/Team.lean ====
section
/-! DEFINITION. Roped teams (chapter 05): residencies, the team former, dispatch, staging, entries and the scatter of
outputs. -/

namespace Sys2Proof.Machine

/-! ## Reads of virtual memory by the team former -/

/-- Read `n` bytes at a virtual address: none while a line's home is busy; otherwise the bytes or the status that ends
the command. Bytes in a host or peer window are free values (log 17); other windows give 0. -/
def virtBytes (s : State) (ctx : BitVec 16) (va : W64) (n : Nat) : Option (State × Sum (List Byte) Byte) :=
  (({ va := va, la := 0, len := n } : CopyPart).lines).foldl (fun acc p =>
    match acc with
    | none => none
    | some (s, .inr st) => some (s, .inr st)
    | some (s, .inl b) =>
      match xlate s ctx p.va false with
      | .inr st => some (s, .inr st)
      | .inl pa =>
        if isMem pa then
          if !lineIdle s (pa / 64) then none
          else
            let d := cohRead s pa p.len
            some (touch s (pa / 64), if d.2 then .inr 0x06 else .inl (b ++ d.1))
        else match region pa with
          | .host _ | .peer .. =>
            let f := (List.range (ceilDiv p.len 8)).foldl (fun (x : State × List Byte) _ =>
              let d := drawFree x.1
              (d.2, x.2 ++ leBytes 8 d.1.toNat)) (s, [])
            some (f.1, .inl (b ++ f.2.take p.len))
          | _ => some (s, .inl (b ++ List.replicate p.len 0))) (some (s, .inl []))

/-! ## Residencies (R155 to R159) -/

/-- Spurs that a die mask and a Spur mask select, in increasing number. -/
def spurSet (dies : Nat) (spurs : Nat) : List Nat :=
  (List.range 128).filter fun sp => bitAt dies (sp / 8) && bitAt spurs (sp % 8)

/-- Residency of a descriptor (R155); its queues and schedule are read apart. -/
def residencyOf (cid : Nat) (c : Cmd) : Residency :=
  let f := bodyBits c
  { cid := cid, ctx := c.ctx, queues := [], reserve := f 0 8 8 == 1, width := 16 * 2 ^ f 0 10 9, regs := f 0 18 11
    groups := f 0 24 19, fill := f 0 34 25, cap := f 0 44 35, inflight := f 0 46 45 + 1, stall := f 0 62 47
    schedule := [], params := BitVec.ofNat 64 (f 0x10 63 0), spurs := spurSet (f 0x20 31 16) (f 0x20 39 32)
    inBase := f 0x28 18 0, inStride := f 0x28 37 19, inLen := f 0x28 52 38
    outBase := f 0x30 18 0, outStride := f 0x30 37 19, outLen := f 0x30 52 38, outRank := f 0x30 60 53
    inOff := f 0x38 15 0, inStep := f 0x38 31 16, faultQueue := BitVec.ofNat 18 (f 0x38 49 32) }

/-- Registers of a lane unit that a team's larger half needs. -/
def halfRegs (r : Residency) : Nat := ceilDiv r.groups 2 * groupRegs r.width r.regs

/-- Fields within their stated ranges, RES0 zero, and the cases of R156 that need no memory. -/
def residencyOk (s : State) (c : Cmd) (r : Residency) : Bool :=
  let f := bodyBits c
  let row := fun (base stride len : Nat) => 0x2100 ≤ base && base + (r.fill - 1) * stride + len ≤ 0x80000
  f 0 63 63 == 0 && f 0x20 15 10 == 0 && f 0x20 63 40 == 0 && f 0x28 63 53 == 0 && f 0x30 63 61 == 0 && f 0x38 63 50 == 0
    && (c.body.drop 64).all (· == 0)
    && f 0 10 9 != 3 && 1 ≤ r.regs && 1 ≤ r.groups && r.groups ≤ 32 && 1 ≤ r.fill && r.fill ≤ 512 && r.cap ≤ 512
    && f 8 3 0 == 0 && f 0x10 5 0 == 0 && f 0x18 1 0 == 0 && 1 ≤ f 0x20 9 0 && f 0x20 9 0 ≤ 512
    && f 0x20 31 16 != 0 && f 0x20 39 32 != 0
    && r.inBase % 16 == 0 && r.inStride % 16 == 0 && 16 ≤ r.inLen && r.inLen ≤ 16384 && r.inLen % 16 == 0
    && r.outBase % 16 == 0 && r.outStride % 16 == 0 && 16 ≤ r.outLen && r.outLen ≤ 16384 && r.outLen % 16 == 0
    && r.inOff % 16 == 0 && r.inStep % 16 == 0
    && r.groups * r.width ≤ 1024 && r.outRank < r.spurs.length && r.inLen ≤ r.inStride && r.outLen ≤ r.outStride
    && row r.inBase r.inStride r.inLen && row r.outBase r.outStride r.outLen
    && ceilDiv r.groups 2 ≤ 16 && halfRegs r ≤ 32768
    && (!r.reserve || r.spurs.all fun sp =>
      let hs := s.former.residencies.filter fun e => e.2.reserve && e.2.spurs.contains sp
      hs.length + 1 ≤ 16
        && hs.foldl (fun n e => n + e.2.groups) r.groups ≤ 32
        && hs.foldl (fun n e => n + e.2.groups * groupRegs e.2.width e.2.regs) (r.groups * groupRegs r.width r.regs) ≤ 65536)

/-- Residency to which a queue is bound (R159). -/
def boundTo (s : State) (q : BitVec 18) : Option Nat :=
  (s.former.residencies.find? fun e => e.2.queues.any fun x => x.1 == q).map Prod.fst

/-- Entries of a member list (R157): none when a RES0 bit is set. -/
def memberList : Nat → List Byte → Option (List (BitVec 18 × BitVec 3))
  | 0, _ => some []
  | n + 1, b =>
    let w := leNat (b.take 4)
    if bits w 31 21 ≠ 0 then none
    else (memberList n (b.drop 4)).map fun l => (BitVec.ofNat 18 (bits w 17 0), BitVec.ofNat 3 (bits w 20 18)) :: l

/-- Entries of a schedule up to LAST (R158): none when a RES0 bit is set or no entry is last. -/
def scheduleList : Nat → List Byte → Option (List W64)
  | 0, _ => none
  | n + 1, b =>
    let e := leNat (b.take 8)
    let w := leNat ((b.drop 8).take 8)
    if e % 8 ≠ 0 ∨ 1 < w then none
    else if w = 1 then some [BitVec.ofNat 64 e]
    else (scheduleList n (b.drop 16)).map fun l => BitVec.ofNat 64 e :: l

/-- Bytes of a schedule that are needed: up to the entry with LAST, at most 256. -/
def scheduleBytes (s : State) (ctx : BitVec 16) (va : W64) : Nat → Option (State × Sum (List Byte) Byte)
  | 0 => some (s, .inl [])
  | n + 1 =>
    match virtBytes s ctx va 16 with
    | some (s, .inl b) =>
      if bitAt (leNat (b.drop 8)) 0 then some (s, .inl b)
      else match scheduleBytes s ctx (va + 16) n with
        | some (s, .inl r) => some (s, .inl (b ++ r))
        | x => x
    | x => x

/-- The member list against the queue table (R156): none when it is good, or the status. -/
def membersBad (s : State) (ctx : BitVec 16) (ms : List (BitVec 18 × BitVec 3)) : Option Byte :=
  let qs := ms.map Prod.fst
  if qs.any fun q => (s.queue q.toNat).kind != 0 || (s.queue q.toNat).state == 0 || (boundTo s q).isSome
      || 1 < (qs.filter (· == q)).length then some 0x0F
  else if qs.any fun q => (s.queue q.toNat).ctx != ctx then some 0x04
  else none

/-- TEAM_REGISTER (R155 to R158, R167). -/
def teamRegister (s : State) (cid : Nat) : State :=
  match runnable s cid 0x03 with
  | none => s
  | some c =>
    if c.running then s
    else
      let r := residencyOf cid c
      let res := bodyBits c 0 7 0
      if isPanyx s c.ctx || !residencyOk s c r || (tget? s.former.residencies res).isSome then finishCmd s cid 0x0F
      else
        match virtBytes s c.ctx (BitVec.ofNat 64 (bodyBits c 0x18 63 0)) (4 * bodyBits c 0x20 9 0) with
        | none => s
        | some (s, .inr st) => finishCmd s cid st
        | some (s, .inl mb) =>
          match scheduleBytes s c.ctx (BitVec.ofNat 64 (bodyBits c 8 63 0)) 256 with
          | none => s
          | some (s, .inr st) => finishCmd s cid st
          | some (s, .inl sb) =>
            match memberList (bodyBits c 0x20 9 0) mb, scheduleList (sb.length / 16) sb with
            | some ms, some sch =>
              match membersBad s c.ctx ms with
              | some st => finishCmd s cid st
              | none =>
                let r := { r with queues := ms, schedule := sch, pending := r.reserve }
                let s := { s with former := { s.former with residencies := tset s.former.residencies res r } }
                if r.reserve then setCmd s cid { c with running := true } else finishCmd s cid 0
            | _, _ => finishCmd s cid 0x0F

/-- Change a residency. -/
def modRes (s : State) (res : Nat) (f : Residency → Residency) : State :=
  match tget? s.former.residencies res with
  | some r => { s with former := { s.former with residencies := tset s.former.residencies res (f r) } }
  | none => s

/-- Shape of a team block. -/
def Residency.shape (r : Residency) : BlockShape := ⟨r.groups, r.width, r.regs, 0⟩

/-- May a team block or its reservation be placed on a Spur (R166, R167)? -/
def teamFits (p : Spur) (r : Residency) : Bool :=
  (freeBlock p).isSome && unitsFit p r.shape && p.blocks.all fun e => e.2.isTeam || e.2.ctrs != 0

/-- The hold of a residency on a Spur, in the lowest free block slot. -/
def newHold (p : Spur) (res : Nat) (r : Residency) : TeamHold :=
  ⟨res, (freeBlock p).getD 0, r.groups, r.width, r.regs, largeUnit p⟩

/-- TEAM_RESERVATION_TAKE (R167). -/
def reservationTake (s : State) (res sp : Nat) : State :=
  match tget? s.former.residencies res with
  | none => s
  | some r =>
    let p := s.spur sp
    if !r.pending || !r.spurs.contains sp || p.holds.any (fun h => h.res == res) || !teamFits p r then s
    else
      let s := modSpur s sp fun p => { p with holds := p.holds ++ [newHold p res r] }
      if r.spurs.all fun x => (s.spur x).holds.any fun h => h.res == res then
        finishCmd (modRes s res fun r => { r with pending := false }) r.cid 0
      else s

/-! ## The team former (R161 to R165) -/

/-- Take candidates that satisfy a condition out of the former and end them. -/
def endCands (s : State) (status : Byte) (event : BitVec 3) (f : Candidate → Bool) : State :=
  let out := s.former.cands.filter f
  let s := { s with former := { s.former with cands := s.former.cands.filter fun c => !f c } }
  out.foldl (fun s c => endCmd s c.cid event status) s

/-- Eligible candidates of a residency, in accept order (R162). -/
def eligible (r : Residency) (l : List Candidate) : List Candidate :=
  l.foldl (fun acc c =>
    if r.cap = 0 ∨ (acc.filter fun x => x.queue == c.queue).length < r.cap then acc ++ [c] else acc) []

/-- Insert a candidate after those of earlier or equal deadline. -/
def insertCand (c : Candidate) : List Candidate → List Candidate
  | [] => [c]
  | x :: xs => if c.deadline < x.deadline then c :: x :: xs else x :: insertCand c xs

/-- Candidates in selection order (R163). -/
def selection (r : Residency) (l : List Candidate) : List Candidate :=
  let fav := fun (c : Candidate) => r.favoured.contains c.queue
  l.filter fav ++ (l.filter fun c => !fav c).foldl (fun acc c => insertCand c acc) []

/-- Earliest deadline of candidates. -/
def earliest : List Candidate → Option W64
  | [] => none
  | c :: cs => match earliest cs with
    | none => some c.deadline
    | some d => some (if c.deadline ≤ d then c.deadline else d)

/-- The row of a candidate. -/
def rowOf (s : State) (c : Candidate) : Option TeamRow :=
  (s.cmd? c.cid).map fun x =>
    { cid := c.cid, queue := c.queue, cls := c.cls, inAddr := BitVec.ofNat 64 (bodyBits x 0 63 0)
      outAddr := BitVec.ofNat 64 (bodyBits x 8 63 0), seqPos := BitVec.ofNat 32 (bodyBits x 0x10 31 0)
      tag := BitVec.ofNat 32 (bodyBits x 0x10 63 32) }

/-- Close a team of up to FILL of the candidates given (R163, R164). -/
def closeTeam (s : State) (res : Nat) (r : Residency) (l : List Candidate) (byDeadline : Bool) : State :=
  let take := (selection r l).take r.fill
  let t : Team := { res := res, rows := take.filterMap (rowOf s), byDeadline := byDeadline, closeTime := s.time
                    deadline := (earliest take).getD 0 }
  let tm := s.former.nextTeam
  let s := { s with former := { s.former with
    teams := tset s.former.teams tm t
    nextTeam := tm + 1
    cands := s.former.cands.filter fun c => !(take.any fun x => x.cid == c.cid) } }
  modRes s res fun r => { r with favoured := [], closed := r.closed ++ [tm] }

/-- Close a residency's team when FILL is reached or the earliest eligible deadline has come; a candidate accepted at the
instant of a close by deadline belongs to a later team (R162). -/
def tryClose (s : State) (res : Nat) : State :=
  match tget? s.former.residencies res with
  | none => s
  | some r =>
    let all := s.former.cands.filter fun c => c.res == res
    let el := eligible r all
    if r.fill ≤ el.length then closeTeam s res r el false
    else
      let old := eligible r (all.filter fun c => ((s.cmd? c.cid).map fun x => decide (x.acceptedAt < s.time)).getD true)
      match earliest old with
      | some d => if d ≤ s.time then closeTeam s res r old true else s
      | none => s

/-- Bodies of TEAM_STEP that R160 allows. -/
def stepOk (c : Cmd) : Bool :=
  bodyBits c 0 3 0 == 0 && bodyBits c 8 3 0 == 0 && (c.body.drop 24).all (· == 0)

/-- Have the earlier commands of a command's queue ended, as FENCE = 1 asks (R356)? -/
def fenceMet (s : State) (cid : Nat) (c : Cmd) : Bool :=
  !c.fence || s.qs.cmds.all fun e => e.1 ≥ cid || e.2.queue != c.queue || (match e.2.st with | .ended _ => true | _ => false)

/-- TEAM_STEP (R159 to R162, R173). -/
def teamStep (s : State) (cid : Nat) : State :=
  match s.cmd? cid with
  | none => s
  | some c =>
    if c.st ≠ .accepted ∨ c.kind ≠ 0x05 ∨ c.running ∨ !fenceMet s cid c then s
    else
      match boundTo s c.queue with
      | none => finishCmd s cid 0x0F
      | some res =>
        match tget? s.former.residencies res with
        | none => s
        | some r =>
          if !stepOk c then finishCmd s cid 0x0F
          else if r.suspended then finishCmd s cid 0x0B
          else
            let cls := ((r.queues.find? fun x => x.1 == c.queue).map Prod.snd).getD 0
            let d := c.acceptedAt + BitVec.ofNat 64 (1000 * fldAt s 0 R.HUB_TEAM_CLASS_DEADLINE_US cls.toNat)
            let s := setCmd s cid { c with running := true, info := BitVec.ofNat 32 (bodyBits c 0x10 63 32) }
            tryClose { s with former := { s.former with cands := s.former.cands ++ [⟨cid, res, c.queue, cls, d⟩] } } res

/-- TEAM_DEADLINE_CHECK. -/
def deadlineCheck (s : State) (res : Nat) (t : W64) : State := tryClose (setTime s t) res

/-- Teams of a residency dispatched and not finished. -/
def inFlight (s : State) (res : Nat) : Nat := (s.former.teams.filter fun e => e.2.res == res && e.2.seq.isSome).length

/-- Is a Spur of the set retired (R171)? -/
def setRetired (s : State) (r : Residency) : Bool := r.spurs.any fun sp => !spurUp s sp

/-- TEAM_DISPATCH (R164, R165): the oldest closed team of its residency. -/
def teamDispatch (s : State) (tm : Nat) (t : W64) : State :=
  let s := setTime s t
  match tget? s.former.teams tm with
  | none => s
  | some x =>
    match tget? s.former.residencies x.res with
    | none => s
    | some r =>
      if x.seq.isSome || r.closed.head? != some tm || r.inflight ≤ inFlight s x.res then s
      else
        let late := x.deadline < s.time && !(x.byDeadline && s.time == x.closeTime)
        let seq := s.former.nextSeq
        let s := setTeam s tm { x with
          seq := some seq, late := late, fault := if setRetired s r then x.fault.or (some 0x0B) else x.fault }
        let s := { s with former := { s.former with nextSeq := seq + 1 } }
        let s := modRes s x.res fun r => { r with
          closed := r.closed.drop 1
          favoured := if late then r.favoured ++ x.rows.map (·.queue) else r.favoured }
        let s := bumpEvent s 0 R.HUB_TEAM_DISPATCHED_COUNT R.HUB_TEAM_OVF_DISPATCHED_OVF
        let s := if late then bumpEvent s 0 R.HUB_TEAM_LATE_COUNT R.HUB_TEAM_OVF_LATE_OVF else s
        let s := x.rows.foldl (fun s w =>
          match s.cmd? w.cid with
          | some c => journal (setCmd s w.cid { c with st := .started }) w.cid 2 0
          | none => s) s
        (List.range 16).foldl (fun s td => send s (.dispatch td seq tm)) s

/-- Take the dispatch messages that are next in sequence (R165). -/
def takeTeams : Nat → State → Nat → State
  | 0, s, _ => s
  | n + 1, s, td =>
    let d := s.tdie td
    match tget? d.early d.expect.toNat with
    | none => s
    | some tm =>
      let mine := ((tget? s.former.teams tm).bind fun t =>
        (tget? s.former.residencies t.res).map fun r => (diesOf r.spurs).contains td && t.fault.isNone).getD false
      takeTeams n (modTdie s td fun d => { d with
        early := tdel d.early d.expect.toNat
        expect := d.expect + 1
        teams := if mine then d.teams ++ [tm] else d.teams }) td

/-- TEAM_DISPATCH_RECEIVE. -/
def dispatchReceive (s : State) (td : Nat) (seq : W32) : State :=
  match s.net.find? fun m => match m with
      | .dispatch d q _ => d == td && q == seq
      | _ => false with
  | some (.dispatch _ _ tm) =>
    let s := recv s (.dispatch td seq tm)
    let s := modTdie s td fun d => { d with early := tset d.early seq.toNat tm }
    takeTeams (s.tdie td).early.length s td
  | _ => s

/-! ## Staging and entries (R166 to R169) -/

/-- Copies of the launch unit that stage a Spur's rows. -/
def stageJobs (r : Residency) (t : Team) (rank slot first : Nat) : List CopyJob :=
  (List.range t.rows.length).filterMap fun i =>
    (t.rows[i]?).map fun w =>
      { id := first + i, slot := 0, blk := slot, gidx := 0, pc := 0, ctx := r.ctx, ctr := 0, num := 0, toGlobal := false
        scope := 4, row := some i
        parts := [{ va := w.inAddr + BitVec.ofNat 64 (r.inOff + rank * r.inStep), la := r.inBase + i * r.inStride
                    len := r.inLen }] }

/-- TEAM_BLOCK_START (R166, R167): the staging area is cleared of another context's data, and staging begins. -/
def teamBlockStart (s : State) (sp : Nat) : State :=
  match teamTurn s sp with
  | none => s
  | some tm =>
    match tget? s.former.teams tm with
    | none => s
    | some t =>
      match tget? s.former.residencies t.res with
      | none => s
      | some r =>
        let p := s.spur sp
        let held := p.holds.any fun h => h.res == t.res
        if !held && !teamFits p r then s
        else
          let rank := r.spurs.findIdx (· == sp)
          let s := setTeam s tm { t with started := t.started ++ [sp] }
          modSpur s sp fun p =>
            let p := if held then p else { p with holds := p.holds ++ [newHold p t.res r] }
            let slot := ((p.holds.find? fun h => h.res == t.res).map (·.slot)).getD 0
            let b : Block := {
              kid := t.res, team := some tm, num := rank, ctx := r.ctx, groups := r.groups, width := r.width
              bx := r.groups * r.width, gx := r.spurs.length, params := r.params, gran0 := 120, grans := 8, ctrs := 4
              faultQueue := r.faultQueue, tag := t.seq.getD 0, stall := r.stall }
            { p with
              blocks := tset p.blocks slot b
              lmem := if p.stageCtx = r.ctx.toNat + 1 then p.lmem
                else p.lmem.filter fun c => c.1 < stageBase || stageBase + 524288 ≤ c.1
              stageCtx := r.ctx.toNat + 1
              copies := p.copies ++ stageJobs r t rank slot p.nextId
              nextId := p.nextId + t.rows.length }

/-- Carry out the pieces of one launch-unit read: none while one waits; otherwise the status of the first that failed. -/
def stageRow (s : State) (sp : Nat) (j : CopyJob) : Option (State × Option Byte) :=
  (j.parts.flatMap CopyPart.lines).foldl (fun acc p =>
    match acc with
    | none => none
    | some (s, some st) => some (s, some st)
    | some (s, none) =>
      match pieceIn s sp j stageBase p with
      | .wait => none
      | .done s => some (s, none)
      | .fault s c => some (s, some (BitVec.ofNat 8 (faultStatus c)))) (some (s, none))

/-- The team header (R168). -/
def teamHeader (r : Residency) (t : Team) (rank : Nat) : List Byte :=
  leBytes 8 (t.rows.length + t.res * 2 ^ 16 + rank * 2 ^ 32 + (r.spurs.length - 1) * 2 ^ 40 + b2n t.byDeadline * 2 ^ 48
      + b2n t.late * 2 ^ 49)
  ++ leBytes 8 (t.seq.getD 0).toNat ++ leBytes 8 t.closeTime.toNat ++ List.replicate 232 0

/-- A row table entry (R168). -/
def rowEntry (w : TeamRow) (valid : Bool) : List Byte :=
  leBytes 8 (w.seqPos.toNat + w.queue.toNat * 2 ^ 32 + b2n valid * 2 ^ 50) ++ leBytes 8 (w.tag.toNat + w.cls.toNat * 2 ^ 32)

/-- Write the header, the row table and the zero rows (R168). `bad`: rows whose staging failed here. -/
def stageWrite (p : Spur) (r : Residency) (t : Team) (rank : Nat) (bad : List Nat) : Spur :=
  let table := (List.range r.fill).flatMap fun i =>
    match t.rows[i]? with
    | some w => rowEntry w (!bad.contains i)
    | none => List.replicate 16 0
  let lm := memWrite (memWrite p.lmem stageBase (teamHeader r t rank)) (stageBase + 0x100) table
  let zero := (List.range r.fill).filter fun i => t.rows.length ≤ i || bad.contains i
  { p with lmem := zero.foldl (fun m i => memWrite m (stageBase + r.inBase + i * r.inStride) (List.replicate r.inLen 0)) lm }

/-- TEAM_STAGING_DONE (R168, R171): entry 0 starts once every Spur of the die in the set is staged. -/
def stagingDone (s : State) (sp : Nat) : State :=
  match (s.spur sp).teamBlock with
  | none => s
  | some (slot, b) =>
    let tm := b.team.getD 0
    match tget? s.former.teams tm with
    | none => s
    | some t =>
      match tget? s.former.residencies t.res with
      | none => s
      | some r =>
        if b.idle || b.stopping || slotsOf (s.spur sp) slot != [] || tget t.dieEntry (sp / 8) 0 != 0 then s
        else
          let jobs := (s.spur sp).copies.filter fun j => j.row.isSome
          let res := jobs.foldl (fun (acc : Option (State × List (Nat × Byte))) j =>
            match acc with
            | none => none
            | some (s, bad) =>
              match stageRow s sp j with
              | none => none
              | some (s, none) => some (s, bad)
              | some (s, some st) => some (s, bad ++ [(j.row.getD 0, st)])) (some (s, []))
          match res with
          | none => s
          | some (s, bad) =>
            let rank := r.spurs.findIdx (· == sp)
            let mark := fun (w : TeamRow) (i : Nat) =>
              { w with status := w.status.or ((bad.find? fun x => x.1 == i).map Prod.snd) }
            let s := setTeam s tm { t with rows := t.rows.mapIdx fun i w => mark w i }
            let s := modSpur s sp fun p =>
              let p := stageWrite p r t rank (bad.map Prod.fst)
              { p with
                copies := p.copies.filter fun j => j.row.isNone
                blocks := tset p.blocks slot { b with idle := true } }
            entryNext s tm (sp / 8)

/-- ENTRY_DONE_NOTICE (R169). -/
def noticeReceive (s : State) (td src tm : Nat) : State :=
  match s.net.find? fun m => match m with
      | .entryDone a b c _ => a == td && b == src && c == tm
      | _ => false with
  | some (.entryDone _ _ _ e) =>
    let s := recv s (.entryDone td src tm e)
    match tget? s.former.teams tm with
    | some t => entryNext (setTeam s tm { t with notices := t.notices ++ [(td, src, e)] }) tm td
    | none => s
  | _ => s

/-! ## Outputs and the end of a team (R170, R171) -/

/-- Has a stopped team ended on every Spur on which it started? -/
def teamStopped (t : Team) : Bool := t.fault.isSome && t.started.all fun sp => t.ended.contains sp

/-- Has OUT_RANK's die seen every Spur of the set finish the LAST entry? -/
def lastDone (s : State) (tm : Nat) (t : Team) (r : Residency) : Bool :=
  let td := r.spurs.getD r.outRank 0 / 8
  let n := r.schedule.length
  tget t.dieEntry td 0 == n
    && (r.spurs.filter fun sp => sp / 8 == td).all (fun sp =>
      match (s.spur sp).teamBlock with | some (_, b) => b.team == some tm && b.idle | none => false)
    && (diesOf r.spurs).all fun d => d == td || t.notices.contains (td, d, n - 1)

/-- Writes of the launch unit that scatter the outputs. -/
def scatterJobs (r : Residency) (t : Team) (slot first : Nat) : List CopyJob :=
  (List.range t.rows.length).filterMap fun i =>
    match t.rows[i]? with
    | some w =>
      if w.status.isNone then
        some { id := first + i, slot := 0, blk := slot, gidx := 0, pc := 0, ctx := r.ctx, ctr := 0, num := 0, toGlobal := true
               scope := 4, row := some i
               parts := [{ va := w.outAddr, la := r.outBase + i * r.outStride, len := r.outLen }] }
      else none
    | none => none

/-- TEAM_SCATTER (R170). -/
def teamScatter (s : State) (tm : Nat) : State :=
  match tget? s.former.teams tm with
  | none => s
  | some t =>
    match tget? s.former.residencies t.res with
    | none => s
    | some r =>
      if t.scattering || t.seq.isNone then s
      else if teamStopped t then setTeam s tm { t with scattering := true }
      else if t.fault.isSome || !lastDone s tm t r then s
      else
        let sp := r.spurs.getD r.outRank 0
        let s := setTeam s tm { t with scattering := true }
        match (s.spur sp).teamBlock with
        | none => s
        | some (slot, _) => modSpur s sp fun p => { p with
            copies := p.copies ++ scatterJobs r t slot p.nextId
            nextId := p.nextId + t.rows.length }

/-- Write one row's output: none while a piece waits; a row that is refused is not written (R171). -/
def rowOut (s : State) (sp : Nat) (j : CopyJob) : Option (State × Option Byte) :=
  let ps := j.parts.flatMap CopyPart.lines
  let check := ps.foldl (fun (acc : Option (State × Option Byte)) p =>
    match acc with
    | some (s, none) =>
      if p.st = .done then some (s, none)
      else match xlate s j.ctx p.va true with
        | .inr st => some (s, some st)
        | .inl pa =>
          if outside pa || (isMem pa && !lineIdle s (pa / 64)) then none
          else
            let c := targetCheck s sp j.ctx pa true
            some (c.1, if c.2 then none else some 0x04)
    | x => x) (some (s, none))
  match check with
  | some (s, none) =>
    some (ps.foldl (fun s p => match pieceOut s sp j stageBase p with
      | .done s => s
      | _ => s) s, none)
  | x => x

/-- Free the team block of a Spur. -/
def freeTeamBlock (s : State) (tm : Nat) (reserve : Bool) (sp : Nat) : State :=
  match (s.spur sp).teamBlock with
  | none => s
  | some (slot, b) =>
    if b.team = some tm then
      noteRelease (modSpur s sp fun p => { p with
        groups := p.groups.filter fun e => e.2.blk != slot
        blocks := tdel p.blocks slot
        holds := if reserve then p.holds else p.holds.filter fun h => h.slot != slot }) (sp / 8)
    else s

/-- A release waits for the last dispatched team; then the reservations go and the command completes (R175). -/
def releaseCheck (s : State) (res : Nat) : State :=
  match tget? s.former.residencies res with
  | none => s
  | some r =>
    if (r.releasing.isSome || r.dropped) && inFlight s res == 0 then
      let s := { s with former := { s.former with residencies := tdel s.former.residencies res } }
      let s := r.spurs.foldl (fun s sp =>
        noteRelease (modSpur s sp fun p => { p with holds := p.holds.filter fun h => h.res != res }) (sp / 8)) s
      match r.releasing with
      | some cid => finishCmd s cid 0
      | none => s
    else s

/-- A team finishes: its resources return unless RESERVE = 1 (R170). -/
def teamFinish (s : State) (tm : Nat) : State :=
  match tget? s.former.teams tm with
  | none => s
  | some t =>
    let s := { s with former := { s.former with teams := tdel s.former.teams tm }
                      tdies := s.tdies.map fun e => (e.1, { e.2 with teams := e.2.teams.filter (· != tm) }) }
    match tget? s.former.residencies t.res with
    | none => s
    | some r => releaseCheck (r.spurs.foldl (fun s sp => freeTeamBlock s tm r.reserve sp) s) t.res

/-- TEAM_ROW_COMPLETE (R170, R171): rows complete in increasing order. -/
def rowComplete (s : State) (tm : Nat) : State :=
  match tget? s.former.teams tm with
  | none => s
  | some t =>
    match tget? s.former.residencies t.res with
    | none => s
    | some r =>
      if !t.scattering then s
      else
        match t.rows[t.posted]? with
        | none => teamFinish s tm
        | some w =>
          let sp := r.spurs.getD r.outRank 0
          let job := (s.spur sp).copies.find? fun j => j.row == some t.posted && j.toGlobal
          match (match job with | some j => rowOut s sp j | none => some (s, none)) with
          | none => s
          | some (s, st) =>
            let s := modSpur s sp fun p => { p with copies := p.copies.filter fun j => !(j.row == some t.posted && j.toGlobal) }
            let prev := if t.posted = 0 then none else (t.rows[t.posted - 1]?).map (·.cid)
            let s := match s.cmd? w.cid with
              | some c => setCmd s w.cid { c with after := prev }
              | none => s
            let status := ((w.status.or t.fault).or st).getD 0
            let s := endCmd s w.cid (if status = 0x0F then 5 else 3) status
            let s := setTeam s tm { t with posted := t.posted + 1 }
            if t.posted + 1 = t.rows.length then teamFinish s tm else s

/-! ## Release (R173 to R175) -/

/-- End the rows of a residency's teams that were closed and not dispatched. -/
def endClosed (s : State) (res : Nat) (status : Byte) (event : BitVec 3) : State :=
  match tget? s.former.residencies res with
  | none => s
  | some r =>
    let s := r.closed.foldl (fun s tm =>
      match tget? s.former.teams tm with
      | some t =>
        let s := t.rows.foldl (fun s w => endCmd s w.cid event status) s
        { s with former := { s.former with teams := tdel s.former.teams tm } }
      | none => s) s
    modRes s res fun r => { r with closed := [] }

/-- TEAM_RELEASE (R175). -/
def teamRelease (s : State) (cid : Nat) : State :=
  match runnable s cid 0x04 with
  | none => s
  | some c =>
    if c.running then s
    else
      let res := bodyBits c 0 7 0
      if bodyBits c 0 63 8 != 0 || (c.body.drop 8).any (· != 0) then finishCmd s cid 0x0F
      else
        match tget? s.former.residencies res with
        | none => finishCmd s cid 0x0F
        | some r =>
          if r.ctx != c.ctx || r.pending || r.releasing.isSome then finishCmd s cid 0x0F
          else
            let s := setCmd s cid { c with running := true }
            let s := endCands s 0x0F 3 fun x => x.res == res
            let s := endClosed s res 0x0F 3
            let s := modRes s res fun r => { r with queues := [], releasing := some cid }
            releaseCheck s res

/-! ## The meanings -/

/-- TEAM_REGISTER. -/
def execTeamRegister (cid : Nat) (s : State) : Host.Outcome State Fault Refusal := .next (teamRegister s cid)
/-- TEAM_RESERVATION_TAKE. -/
def execTeamReservationTake (res : BitVec 8) (sp : Fin 128) (s : State) : Host.Outcome State Fault Refusal :=
  .next (reservationTake s res.toNat sp)
/-- TEAM_RELEASE. -/
def execTeamRelease (cid : Nat) (s : State) : Host.Outcome State Fault Refusal := .next (teamRelease s cid)
/-- TEAM_STEP. -/
def execTeamStep (cid : Nat) (s : State) : Host.Outcome State Fault Refusal := .next (teamStep s cid)
/-- TEAM_DEADLINE_CHECK. -/
def execTeamDeadlineCheck (res : BitVec 8) (t : W64) (s : State) : Host.Outcome State Fault Refusal :=
  .next (deadlineCheck s res.toNat t)
/-- TEAM_DISPATCH. -/
def execTeamDispatch (team : Nat) (t : W64) (s : State) : Host.Outcome State Fault Refusal := .next (teamDispatch s team t)
/-- TEAM_DISPATCH_RECEIVE. -/
def execTeamDispatchReceive (td : Fin 16) (seq : W32) (s : State) : Host.Outcome State Fault Refusal :=
  .next (dispatchReceive s td seq)
/-- TEAM_BLOCK_START. -/
def execTeamBlockStart (sp : Fin 128) (s : State) : Host.Outcome State Fault Refusal := .next (teamBlockStart s sp)
/-- TEAM_STAGING_DONE. -/
def execTeamStagingDone (sp : Fin 128) (s : State) : Host.Outcome State Fault Refusal := .next (stagingDone s sp)
/-- ENTRY_DONE_NOTICE. -/
def execEntryDoneNotice (td src : Fin 16) (team : Nat) (s : State) : Host.Outcome State Fault Refusal :=
  .next (noticeReceive s td src team)
/-- TEAM_SCATTER. -/
def execTeamScatter (team : Nat) (s : State) : Host.Outcome State Fault Refusal := .next (teamScatter s team)
/-- TEAM_ROW_COMPLETE. -/
def execTeamRowComplete (team : Nat) (s : State) : Host.Outcome State Fault Refusal := .next (rowComplete s team)

end Sys2Proof.Machine
end

