-- ==== Sys2Proof/Machine/Queue.lean ====
section
/-! DEFINITION. Queues, doorbells, acceptance and hand-off of commands, completions, events, copy engines and the
journal's acknowledgements (chapter 12). -/

namespace Sys2Proof.Machine

/-! ## Queue state (R345 to R348) -/

/-- Ring entries. -/
def QueueSt.size (q : QueueSt) : Nat := 2 ^ q.logSize

/-- Bytes of a ring entry. -/
def entryBytes (kind : Nat) : Nat := if kind = 1 then 16 else 64

/-- Positions from a to b, modulo 2 SIZE (R348). -/
def QueueSt.gap (q : QueueSt) (a b : Nat) : Nat := (b + 2 * q.size - a) % (2 * q.size)

/-- A descriptor that can be enabled: the queue as the enable leaves it (R345 to R347). -/
def readQueue (s : State) (n : Nat) : Option QueueSt :=
  let r := cohRead s (fld s 0 R.HUB_QUEUE_TABLE_BASE * 2 ^ 24 + 64 * n) 32
  let w := leNat (r.1.take 8)
  let ring := leNat ((r.1.drop 8).take 8)
  let q : QueueSt := {
    state := 1, kind := bits w 1 0, logSize := bits w 6 2, hport := bits w 8 7, prio := bits w 11 9
    ctx := BitVec.ofNat 16 (bits w 31 16), link := BitVec.ofNat 18 (bits w 49 32), linkv := bitAt w 50, ring := ring }
  let bytes := q.size * entryBytes q.kind
  let inRange := fun (lo hi : Nat) => lo ≤ ring && ring + bytes ≤ hi
  let link := s.queue q.link.toNat
  let linkOk := fun (k : Nat) => link.state != 0 && link.kind == k && link.ctx == q.ctx
  if r.2 || q.kind == 3 || q.logSize < 4 || 24 < q.logSize || q.hport == 3 || bits w 15 12 != 0 || bits w 63 51 != 0
      || (r.1.drop 16).any (· != 0) || ring % 4096 != 0
      || !(inRange 0 hbmEnd || inRange boardBase boardEnd || inRange hostBase (2 ^ 52))
      || (s.ctx? q.ctx).isNone
      || (q.kind == 0 && !(q.linkv && linkOk 1)) || (q.kind == 1 && q.linkv && !linkOk 2)
      || (q.kind == 2 && (q.linkv || q.link != 0)) then none
  else some q

/-- A command of HUB_QUEUE_CMD: ignored while one is in progress, or refused, or done. -/
def queueCmd (s : State) (refused : Bool) (act : State → State) : State :=
  if fld s 0 R.HUB_QUEUE_STATUS_BUSY = 1 then setFld s 0 R.HUB_QUEUE_STATUS_DROPPED 1
  else if refused then setFld s 0 R.HUB_QUEUE_STATUS_RESULT 0x0F
  else act (setFld s 0 R.HUB_QUEUE_STATUS_RESULT 0)

/-- QUEUE_ENABLE. -/
def queueEnable (s : State) (n : Nat) : State :=
  let q := readQueue s n
  queueCmd s ((s.queue n).state != 0 || q.isNone) fun s =>
    match q with
    | some q => modQueue s n fun _ => q
    | none => s

/-- Rows of teams closed and not dispatched leave with their queue (R174, R357). -/
def dropRows (s : State) (n : BitVec 18) : State :=
  let f := s.former
  let teams := f.teams.map fun t => if t.2.seq.isNone then (t.1, { t.2 with rows := t.2.rows.filter fun w => w.queue != n }) else t
  let empty := fun i => (teams.any fun t => t.1 == i && t.2.rows.isEmpty && t.2.seq.isNone)
  { s with former := { f with
      cands := f.cands.filter fun c => c.queue != n
      teams := teams.filter fun t => !empty t.1
      residencies := f.residencies.map fun r => (r.1, { r.2 with closed := r.2.closed.filter fun i => !empty i }) } }

/-- A queue is halted (R357, R358, R518): its commands accepted and not started end; the event. `tags`: expected and
found tag of a torn slot. -/
def haltQueue (s : State) (n : Nat) (status : Byte) (tags : Nat × Nat) : State :=
  let q := s.queue n
  if q.state ≠ 1 then s
  else
    let s := modQueue s n fun q => { q with
      state := 2, haltStatus := status, fetched := none, rereads := none, ringBusy := false, ringGot := [] }
    if q.kind ≠ 0 then s
    else
      let s := dropRows s (BitVec.ofNat 18 n)
      let ev : BitVec 3 := if status = 0x02 then 4 else 5
      let s := (s.qs.cmds.filter fun c => c.2.queue.toNat == n && c.2.st == .accepted).foldl (fun s c =>
        endCmd s c.1 ev status) s
      match (s.ctx? q.ctx).bind (·.evq) with
      | some e => raiseEvent s e 0x03 q.ctx (body4
          (n + status.toNat * 2 ^ 18 + q.pos % q.size * 2 ^ 26 + q.pos / q.size * 2 ^ 50) (tags.1 + tags.2 * 2 ^ 16) 0 0)
      | none => s

/-- QUEUE_HALT. -/
def queueHalt (s : State) (n : Nat) : State :=
  queueCmd s ((s.queue n).state != 1) fun s => haltQueue s n 0x0F (0, 0)

/-! ## Doorbells (R348 to R350) -/

/-- The agent that a message came from, for a context fault record: die and unit. -/
def srcAgent (src : Nat) : Nat × Nat :=
  if src = 0 ∨ 2 ^ 42 ≤ src then (0, 0)
  else if 2 ^ 41 ≤ src then (agentDie ((src - 2 ^ 41) / 4), (src - 2 ^ 41) / 4)
  else (16 + (src - 1) / 2 ^ 32 / 8, regionOf ((src - 1) / 2 ^ 32))

/-- Post a completion-queue notice (R359). -/
def postNotice (s : State) (n : Nat) : State :=
  let q := s.queue n
  if q.linkv then raiseEvent (modQueue s n fun q => { q with armed := false }) q.link 0x04 q.ctx (body4 n 0 0 0) else s

/-- A consumer doorbell takes effect: entries become free, an events-lost entry comes first, a notice is armed (R349,
R359, R362). -/
def consumerBell (s : State) (n : Nat) (val : Nat) : State :=
  let q := s.queue n
  let pos := bits val 23 0 + (if bitAt val 24 then q.size else 0)
  let s := modQueue s n fun q => { q with bell := pos }
  if q.kind = 1 then
    if bitAt val 25 then
      let s := modQueue s n fun q => { q with armed := true }
      if q.pos ≠ pos then postNotice s n else s
    else s
  else if q.lost ≠ 0 ∧ pos ≠ q.bell then
    let s := modQueue s n fun q => { q with lost := 0 }
    { s with qs := { s.qs with events := ⟨BitVec.ofNat 18 n, 0x05, q.ctx, body4 q.lost 0 0 0⟩ :: s.qs.events } }
  else s

/-- Is a doorbell dropped (R349)? Its context has been looked at. -/
def bellBad (q : QueueSt) (val : Nat) : Bool :=
  let pos := bits val 23 0 + (if bitAt val 24 then q.size else 0)
  q.state == 0 || bits val 63 26 != 0 || q.size ≤ bits val 23 0
    || q.size < (if q.kind = 0 then q.gap q.pos pos else q.gap q.bell pos)
    || (q.kind != 0 && q.gap q.bell q.pos < q.gap q.bell pos)

/-- A doorbell that the hub refuses for its context, or drops; otherwise it is taken. The flag: refused. -/
def takeBell (s : State) (n : Nat) (ctx : BitVec 16) (val : Nat) (src : Nat) : State × Bool :=
  let q := s.queue n
  let drop := fun (s : State) => bumpErr s 0 R.HUB_QUEUE_ERR_DB_DROPPED
  if q.state ≠ 0 ∧ ctx ≠ q.ctx ∧ ctx ≠ 0 then
    let a := srcAgent src
    (ctxFault (drop s) 0 a.1 a.2 ctx (doorbellBase + 8 * n) true, true)
  else if bellBad q val then (drop s, false)
  else if q.kind = 0 then (modQueue s n fun q => { q with bell := bits val 23 0 + (if bitAt val 24 then q.size else 0) }, false)
  else if q.state = 2 then (modQueue s n fun q => { q with heldBell := some (BitVec.ofNat 64 val) }, false)
  else (consumerBell s n val, false)

/-- DOORBELL: a doorbell reaches the hub. -/
def doorbell (s : State) (q : BitVec 18) (ctx : BitVec 16) (val : W64) : State :=
  match s.net.find? fun m => match m with
      | .doorbell a b c _ => a == q && b == ctx && c == val
      | _ => false with
  | some (.doorbell _ _ _ src) =>
    let s := recv s (.doorbell q ctx val src)
    let r := if moduleStopped s then (s, false) else takeBell s q.toNat ctx val.toNat src
    if 2 ^ 42 ≤ src ∧ r.2 then
      let k := src - 2 ^ 42
      modPort r.1 (k / 1024 % 2) fun p => { p with wacks := p.wacks.map fun w => if w.tag.toNat = k % 1024 then { w with status := 0x04 } else w }
    else r.1
  | _ => s

/-- QUEUE_RESUME: a recorded consumer doorbell takes effect (R347). -/
def queueResume (s : State) (n : Nat) : State :=
  let q := s.queue n
  queueCmd s (q.state != 2 || q.disabling) fun s =>
    let s := modQueue s n fun q => { q with state := 1, heldBell := none }
    match q.heldBell with
    | some v => if bellBad { q with state := 1 } v.toNat then s else consumerBell s n v.toNat
    | none => s

/-- QUEUE_DISABLE. -/
def queueDisable (s : State) (n : Nat) : State :=
  let q := s.queue n
  let named := s.qs.q.any fun e => e.2.state != 0 && e.2.linkv && e.2.link.toNat == n && e.1 != n
  queueCmd s (q.state == 0 || q.disabling || (q.kind != 0 && named)) fun s =>
    setFld (modQueue (haltQueue s n 0x0F (0, 0)) n fun q => { q with disabling := true }) 0 R.HUB_QUEUE_STATUS_BUSY 1

/-- QUEUE_DISABLE_DONE. -/
def queueDisableDone (s : State) (n : Nat) : State :=
  let q := s.queue n
  if q.disabling ∧ q.opened = 0 then
    setFld (modQueue s n fun q => { q with state := 0, disabling := false, armed := false, heldBell := none }) 0
      R.HUB_QUEUE_STATUS_BUSY 0
  else s

/-- QUEUE_QUERY. -/
def queueQuery (s : State) (n : Nat) : State :=
  queueCmd s false fun s =>
    let q := s.queue n
    let s := setFld s 0 R.HUB_QUEUE_STATE_STATE q.state
    let s := setFld s 0 R.HUB_QUEUE_STATE_KIND q.kind
    let s := setFld s 0 R.HUB_QUEUE_STATE_HALT_STATUS q.haltStatus.toNat
    let s := setFld s 0 R.HUB_QUEUE_STATE_PHASE (q.pos / q.size)
    let s := setFld s 0 R.HUB_QUEUE_STATE_INDEX (q.pos % q.size)
    setFld s 0 R.HUB_QUEUE_STATE_OPEN (if q.kind = 2 then 0 else q.opened)

/-! ## Fetching (R353, R354) -/

/-- Tag expected in the slot `i` slots after the fetch position (R353). -/
def expectedTag (q : QueueSt) (i : Nat) : Nat :=
  1 + (q.laps + (if q.size ≤ q.pos % q.size + i then 1 else 0)) % 65535

/-- Physical address of the slot `i` slots after the fetch position. -/
def slotAddr (q : QueueSt) (i : Nat) : Nat := q.ring + (q.pos + i) % q.size * entryBytes q.kind

/-- What the slots read give: a command, a torn slot, or the need of a second slot. -/
inductive FetchRes
  | cmd (slots : Nat)
  | torn (expected found : Nat)
  | second
deriving DecidableEq, Repr

/-- Compare the tags of the slots read. -/
def fetchCheck (q : QueueSt) (b : List Byte) : FetchRes :=
  let tag := fun i => leNat ((b.drop (64 * i)).take 2)
  if tag 0 ≠ expectedTag q 0 then .torn (expectedTag q 0) (tag 0)
  else if !bitAt (leNat (b.take 8)) 25 then .cmd 1
  else if b.length < 128 then .second
  else if tag 1 ≠ expectedTag q 1 then .torn (expectedTag q 1) (tag 1)
  else .cmd 2

/-- A tag mismatch: another re-read, or after 64 of them the queue is halted (R353). -/
def fetchTorn (s : State) (n : Nat) (tags : Nat × Nat) : State :=
  match (s.queue n).rereads with
  | none => modQueue s n fun q => { q with rereads := some 0, ringGot := [] }
  | some k =>
    if k + 1 < 64 then modQueue s n fun q => { q with rereads := some (k + 1), ringGot := [] }
    else haltQueue (bumpErr s 0 R.HUB_QUEUE_ERR_TORN) n 0x03 tags

/-- Read a slot of a ring in HBM or the board tier: bytes, a mismatch for poison, or refused. -/
def ringRead (s : State) (q : QueueSt) (i : Nat) : State × Option (List Byte × Bool) :=
  let c := targetCheckBy s 0 0 q.ctx (slotAddr q i) false
  if c.2 then (c.1, some (cohRead c.1 (slotAddr q i) 64)) else (c.1, none)

/-- Ask the host for a slot of a ring behind a port. -/
def ringAsk (s : State) (n : Nat) (q : QueueSt) (i : Nat) : State :=
  outAsk (modQueue s n fun q => { q with ringBusy := true }) ⟨false, slotAddr q i, 64, q.ctx, [], .ring n⟩

/-- Go on with the slots that have come from a ring. -/
def fetchGo (s : State) (n : Nat) (b : List Byte) : State :=
  let q := s.queue n
  match fetchCheck q b with
  | .cmd k => modQueue s n fun q => { q with fetched := some ⟨b, k⟩, rereads := none, ringGot := [] }
  | .torn e f => fetchTorn s n (e, f)
  | .second =>
    if q.gap q.pos q.bell < 2 then modQueue s n fun q => { q with ringGot := [] }
    else if hostBase ≤ q.ring then ringAsk (modQueue s n fun q => { q with ringGot := b }) n q 1
    else match ringRead s q 1 with
      | (s, none) => haltQueue s n 0x04 (0, 0)
      | (s, some (b2, true)) => fetchTorn s n (expectedTag q 1, leNat (b2.take 2))
      | (s, some (b2, false)) =>
        match fetchCheck q (b ++ b2) with
        | .cmd k => modQueue s n fun q => { q with fetched := some ⟨b ++ b2, k⟩, rereads := none }
        | .torn e f => fetchTorn s n (e, f)
        | .second => s

/-- Read a ready command's slots (R353, R354). A ring in the host window needs HOST_WIN of its context (R346). -/
def fetchStart (s : State) (n : Nat) : State :=
  let q := s.queue n
  if q.ringBusy then s
  else if hostBase ≤ q.ring then
    if ((s.ctx? q.ctx).map (·.hostWin)).getD false then
      if (s.port (portOf (slotAddr q 0))).lost then fetchTorn s n (expectedTag q 0, 0) else ringAsk s n q 0
    else haltQueue s n 0x04 (0, 0)
  else match ringRead s q 0 with
    | (s, none) => haltQueue s n 0x04 (0, 0)
    | (s, some (b, true)) => fetchTorn s n (expectedTag q 0, leNat (b.take 2))
    | (s, some (b, false)) => fetchGo s n b

/-- A slot has come from a ring behind a port. -/
def ringData (s : State) (n : Nat) (b : List Byte) (bad : Bool) : State :=
  let q := s.queue n
  if !q.ringBusy then s
  else
    let s := modQueue s n fun q => { q with ringBusy := false }
    if bad then fetchTorn s n (expectedTag q (q.ringGot.length / 64), 0) else fetchGo s n (q.ringGot ++ b)

/-- QUEUE_FETCH. -/
def queueFetch (s : State) (n : Nat) : State :=
  let q := s.queue n
  if q.state = 1 ∧ q.kind = 0 ∧ q.fetched.isNone ∧ q.rereads.isNone ∧ q.gap q.pos q.bell ≠ 0 then fetchStart s n else s

/-- TORN_REREAD. -/
def tornReread (s : State) (n : Nat) : State :=
  let q := s.queue n
  if q.state = 1 ∧ q.rereads.isSome then fetchStart s n else s

/-! ## Acceptance and hand-off (R351, R352, R355, R356) -/

/-- Bits of a command's header and body that make it complete with 0x0F (R352, R387). -/
def cmdMalformed (b : List Byte) (slots : Nat) : Bool :=
  let w := fun i => leNat ((b.drop (8 * i)).take 8)
  let kind := bits (w 0) 23 16
  let two := slots == 2
  bits (w 0) 31 26 != 0 || bits (w 1) 63 3 != 0
    || (two && (leNat ((b.drop 66).take 6) != 0 || w 9 != 0))
    || kind == 0 || (8 ≤ kind && kind < 0x10) || 0x15 ≤ kind || two != (kind == 2 || kind == 3)
    || (kind == 1 && (b.drop 16).any (· != 0))

/-- Commands accepted and not ended, module-wide. -/
def openCmds (s : State) : Nat := (s.qs.cmds.filter fun c => match c.2.st with | .ended _ => false | _ => true).length

/-- May a fetched command be accepted (R355)? -/
def acceptOk (s : State) (q : QueueSt) (f : Fetched) : Bool :=
  let cq := s.queue q.link.toNat
  cq.gap cq.bell cq.pos + cq.opened < cq.size && openCmds s < 1048576
    && (bits (leNat (f.bytes.take 8)) 23 16 != 5 || s.former.cands.length < 16384)

/-- COMMAND_ACCEPT. -/
def commandAccept (s : State) (n : Nat) (t : W64) : State :=
  let s := setTime s t
  let q := s.queue n
  match (if q.state = 1 then q.fetched else none) with
  | none => s
  | some f =>
    if moduleStopped s || !acceptOk s q f then s
    else
      let w := leNat (f.bytes.take 8)
      let cid := s.qs.nextCid
      let qn := BitVec.ofNat 18 n
      let kind := BitVec.ofNat 8 (bits w 23 16)
      let c : Cmd := {
        queue := qn, index := q.pos % q.size, stag := BitVec.ofNat 16 w, kind := kind, tag := BitVec.ofNat 32 (bits w 63 32)
        prio := bits (leNat ((f.bytes.drop 8).take 8)) 2 0, ctx := q.ctx, fence := bitAt w 24
        body := ((f.bytes.drop 16).take 48) ++ ((f.bytes.drop 80).take 48), acceptedAt := s.time }
      let pos := (q.pos + f.slots) % (2 * q.size)
      let wrap := q.size ≤ q.pos % q.size + f.slots
      let s := modQueue s n fun q => { q with
        pos := pos, laps := q.laps + b2n wrap, fetched := none, opened := q.opened + 1 }
      let s := modQueue s q.link.toNat fun c => { c with opened := c.opened + 1 }
      let s := bumpEventAt s 0 R.HUB_QUEUE_ACCEPTED_COUNT 0 R.HUB_QUEUE_OVF_ACCEPTED_OVF 0 1
      let s := journal (setCmd { s with qs := { s.qs with nextCid := cid + 1 } } cid c) cid 1 0
      if cmdMalformed f.bytes f.slots || (kind != 5 && (boundTo s qn).isSome) then finishCmd s cid 0x0F else s

/-- The next command of a queue to hand over: the earliest accepted and not started. -/
def nextHandoff (s : State) (n : Nat) : Option (Nat × Cmd) :=
  s.qs.cmds.find? fun c => c.2.queue.toNat == n && c.2.st == .accepted

/-- COMMAND_HANDOFF. A TEAM_STEP is started when its team is dispatched (R357). -/
def commandHandoff (s : State) (n : Nat) (t : W64) : State :=
  let s := setTime s t
  match nextHandoff s n with
  | none => s
  | some (cid, c) =>
    if c.kind = 5 || !journalAcked s c || !fenceMet s cid c then s
    else if (s.ctx? c.ctx).isNone then finishCmd s cid 0x04
    else journal (setCmd s cid { c with st := .started }) cid 2 0

/-- NOP_COMMAND. -/
def nopCommand (s : State) (cid : Nat) : State :=
  match runnable s cid 1 with
  | some _ => finishCmd s cid 0
  | none => s

/-! ## Posting (R359 to R363) -/

/-- Write a ring entry of the hub, checked at its home; a write to the host window goes out on its port, and needs HOST_WIN
of its context (R283, R346). -/
def postBytes (s : State) (ctx : BitVec 16) (pa : Nat) (b : List Byte) : State :=
  if isMem pa then
    let c := targetCheckBy s 0 0 ctx pa true
    if c.2 then cohPut c.1 pa b false else c.1
  else if ((s.ctx? ctx).map (·.hostWin)).getD true then outAsk s ⟨true, pa, b.length, ctx, b, .post⟩
  else ctxFault s 0 0 0 ctx pa true

/-- Advance a queue's post position. -/
def QueueSt.posted (q : QueueSt) : QueueSt :=
  let pos := (q.pos + 1) % (2 * q.size)
  { q with pos := pos, laps := q.laps + b2n (pos % q.size == 0) }

/-- The phase bit of the entry at the post position (R359). -/
def QueueSt.phaseBit (q : QueueSt) : Nat := 1 - q.laps % 2

/-- COMPLETION_POST. -/
def completionPost (s : State) (cid : Nat) (t : W64) : State :=
  let s := setTime s t
  match s.cmd? cid with
  | none => s
  | some c =>
    match c.st with
    | .ended status =>
      let first := match c.after with
        | some a => (s.cmd? a).isSome
        | none => false
      if c.windowWrites ≠ 0 || !journalAcked s c || first then s
      else
        let n := (s.queue c.queue.toNat).link.toNat
        let q := s.queue n
        let s := { s with qs := { s.qs with cmds := tdel s.qs.cmds cid } }
        let s := modQueue s n fun q => { q with opened := q.opened - 1 }
        if q.state = 0 then s
        else
          let pa := slotAddr q 0
          let s := postBytes s q.ctx (pa + 8) (leBytes 8 (c.tag.toNat + c.info.toNat * 2 ^ 32))
          let s := postBytes s q.ctx pa (leBytes 8 (status.toNat + q.phaseBit * 2 ^ 8 + c.index * 2 ^ 16 + c.queue.toNat * 2 ^ 40))
          let s := modQueue s n QueueSt.posted
          if q.armed then postNotice s n else s
    | _ => s

/-- JOURNAL_RECORD_ACK (R368). -/
def journalAck (s : State) (n : Nat) : State :=
  let fl := s.qs.jflight.map fun r => if r.1 = n then (r.1, true) else r
  let done := fl.takeWhile (·.2)
  let s := match done.getLast? with
    | some r => setFld s 0 R.HUB_JOURNAL_HEAD_HEAD r.1
    | none => s
  let s := { s with qs := { s.qs with jflight := fl.drop done.length } }
  journalFlush s.qs.jwait s

/-- Send a queue's NOTIFY, or hold it until its port is up (R363). -/
def notifySend (s : State) (n : Nat) : State :=
  let q := s.queue n
  if portUp s (q.hport - 1) then kslNotify (modQueue s n fun q => { q with window := true, due := false, held := false }) (q.hport - 1) n
  else modQueue s n fun q => { q with held := true, due := false }

/-- EVENT_POST: the oldest event raised for a queue (R361 to R363). -/
def eventPost (s : State) (n : Nat) (t : W64) : State :=
  let s := setTime s t
  match s.qs.events.find? fun e => e.queue.toNat == n with
  | none => s
  | some e =>
    let s := { s with qs := { s.qs with events := s.qs.events.erase e } }
    let q := s.queue n
    if q.state = 0 ∨ q.kind ≠ 2 then s
    else if q.size ≤ q.gap q.bell q.pos + 1 then modQueue s n fun q => { q with lost := min 0xFFFF (q.lost + 1) }
    else
      let pa := slotAddr q 0
      let s := postBytes s q.ctx (pa + 32) e.body
      let s := postBytes s q.ctx pa (leBytes 8 (e.type.toNat + q.phaseBit * 2 ^ 8 + e.ctx.toNat * 2 ^ 16) ++ leBytes 8 s.time.toNat
        ++ leBytes 8 0 ++ leBytes 8 0)
      let s := modQueue s n QueueSt.posted
      if q.hport = 0 then s
      else if q.window then modQueue s n fun q => { q with due := true }
      else notifySend s n

/-- NOTIFY_WINDOW_EXPIRY (R363). -/
def notifyWindow (s : State) (n : Nat) : State :=
  let q := s.queue n
  if !q.window then s
  else
    let s := modQueue s n fun q => { q with window := false }
    if q.due then notifySend s n else s

/-! ## Copy engines (R364 to R366) -/

/-- Engine of a COPY: its own, or the next of the bank in service; none left (R365, R479). -/
def copyEngine (s : State) (c : Cmd) : Option Nat :=
  let base := if bodyBits c 16 37 37 = 1 then 8 else 0
  (((List.range 8).map fun i => base + (c.queue.toNat + i) % 8)).find? fun e => bitAt (fldAt s 0 R.UNIT_MAP_IN_SERVICE 0) e

/-- COPY: it joins its engine's commands. -/
def copyStart (s : State) (cid : Nat) : State :=
  match runnable s cid 7 with
  | none => s
  | some c =>
    let len := bodyBits c 16 36 0
    if c.running then s
    else if bodyBits c 16 63 38 != 0 || (c.body.drop 24).any (· != 0) || len == 0 || 2 ^ 36 < len then finishCmd s cid 0x0F
    else match copyEngine s c with
      | none => finishCmd s cid 0x0B
      | some e =>
        let s := setCmd s cid { c with running := true }
        { s with qs := { s.qs with engines := tmod s.qs.engines e [] (· ++ [cid]) } }

/-- Die and unit of a copy engine. -/
def engAgent (e : Nat) : Nat × Nat := (0, e)

/-- Retired memory behind an address (R366). -/
def paRetired (s : State) (pa : Nat) : Bool := isMem pa && lineRetired s (pa / 64)

/-- Bytes that a copy moves in one request: within a line of each side. -/
def copyChunk (src dst : W64) (left : Nat) : Nat :=
  min left (min (64 - src.toNat % 64) (64 - dst.toNat % 64))

/-- Write a chunk that has come from the source at its destination: a status that stops the copy, if any. -/
def copyLand (s : State) (e cid : Nat) (c : Cmd) (ofs : Nat) (b : List Byte) (poison : Bool) : State × Option Byte :=
  let dst := BitVec.ofNat 64 (bodyBits c 8 63 0 + ofs)
  match xlate s c.ctx dst true with
  | .inr st => (s, some st)
  | .inl pa =>
    if paRetired s pa then (s, some 0x0B)
    else
      let r := cmdPut s (engAgent e).1 (engAgent e).2 cid c.ctx pa b poison
      (r.1, if r.2 then some 0x04 else none)

/-- Move the next chunk of a copy. None: a line of it has a transaction open; otherwise the bytes moved or asked for,
or the status that stops the copy. -/
def copyStep (s : State) (e cid : Nat) (c : Cmd) (ofs : Nat) : Option (State × Sum Nat Byte) :=
  let src := BitVec.ofNat 64 (bodyBits c 0 63 0 + ofs)
  let dst := BitVec.ofNat 64 (bodyBits c 8 63 0 + ofs)
  let n := copyChunk src dst (bodyBits c 16 36 0 - ofs)
  match xlate s c.ctx src false, xlate s c.ctx dst true with
  | .inr st, _ => some (s, .inr st)
  | _, .inr st => some (s, .inr st)
  | .inl a, .inl d =>
    if (isMem a && !lineIdle s (a / 64)) || (isMem d && !lineIdle s (d / 64)) then none
    else if paRetired s a || paRetired s d then some (s, .inr 0x0B)
    else if isMem a then
      let k := targetCheckBy s (engAgent e).1 (engAgent e).2 c.ctx a false
      if !k.2 then some (k.1, .inr 0x04)
      else
        let v := cohRead k.1 a n
        let s := if v.2 then modCmd k.1 cid fun c => { c with poisoned := true } else k.1
        match copyLand s e cid c ofs v.1 v.2 with
        | (s, none) => some (s, .inl n)
        | (s, some st) => some (s, .inr st)
    else match region a with
      | .host _ | .peer .. => some (outAsk s ⟨false, a, n, c.ctx, [], .cmd cid ofs⟩, .inl n)
      | .window w off =>
        let k := targetCheckBy s (engAgent e).1 (engAgent e).2 c.ctx a false
        if !k.2 then some (k.1, .inr 0x04)
        else match copyLand k.1 e cid c ofs (leBytes n (regRead k.1 w off (8 * n))) false with
          | (s, none) => some (s, .inl n)
          | (s, some st) => some (s, .inr st)
      | _ => match copyLand s e cid c ofs (List.replicate n 0) false with
          | (s, none) => some (s, .inl n)
          | (s, some st) => some (s, .inr st)

/-- Move chunks until the copy is through, stops, or meets a line in a transaction. -/
def copyMove : Nat → State → Nat → Nat → State
  | 0, s, _, _ => s
  | k + 1, s, e, cid =>
    match s.cmd? cid with
    | none => s
    | some c =>
      if c.stopped.isSome || bodyBits c 16 36 0 ≤ c.progress then s
      else match copyStep s e cid c c.progress with
        | none => s
        | some (s, .inl n) => copyMove k (modCmd s cid fun c => { c with progress := c.progress + n }) e cid
        | some (s, .inr st) => stopCmd s cid st

/-- A chunk of a copy has come from a host or peer window (R366). -/
def copyArrive (s : State) (cid ofs : Nat) (b : List Byte) (bad : Bool) : State :=
  match s.cmd? cid with
  | none => s
  | some c =>
    let s := if bad then modCmd s cid fun c => { c with poisoned := true } else s
    match copyLand s ((copyEngine s c).getD 0) cid c ofs b bad with
    | (s, none) => s
    | (s, some st) => stopCmd s cid st

/-- COPY_ENGINE_COMPLETE: the engine's oldest command goes as far as it can, and ends once its requests have completed. -/
def copyEngineComplete (s : State) (e : Nat) : State :=
  match tget s.qs.engines e [] with
  | [] => s
  | cid :: rest =>
    let s := match s.cmd? cid with
      | some c => copyMove (bodyBits c 16 36 0) s e cid
      | none => s
    let out := fun (s : State) => { s with qs := { s.qs with engines := tset s.qs.engines e rest } }
    match s.cmd? cid with
    | none => out s
    | some c =>
      match c.st with
      | .ended _ => out s
      | _ =>
        if c.windowWrites ≠ 0 ∨ (c.stopped.isNone ∧ c.progress < bodyBits c 16 36 0) then s
        else
          let st := c.stopped.getD (if c.poisoned then 0x06 else 0)
          out (endCmd s cid (if st = 0x02 then 4 else if st = 0x0F then 5 else 3) st)

/-! ## The meanings -/

/-- QUEUE_ENABLE. -/
def execQueueEnable (q : BitVec 18) (s : State) : Host.Outcome State Fault Refusal := .next (queueEnable s q.toNat)
/-- QUEUE_HALT. -/
def execQueueHalt (q : BitVec 18) (s : State) : Host.Outcome State Fault Refusal := .next (queueHalt s q.toNat)
/-- QUEUE_RESUME. -/
def execQueueResume (q : BitVec 18) (s : State) : Host.Outcome State Fault Refusal := .next (queueResume s q.toNat)
/-- QUEUE_DISABLE. -/
def execQueueDisable (q : BitVec 18) (s : State) : Host.Outcome State Fault Refusal := .next (queueDisable s q.toNat)
/-- QUEUE_DISABLE_DONE. -/
def execQueueDisableDone (q : BitVec 18) (s : State) : Host.Outcome State Fault Refusal := .next (queueDisableDone s q.toNat)
/-- QUEUE_QUERY. -/
def execQueueQuery (q : BitVec 18) (s : State) : Host.Outcome State Fault Refusal := .next (queueQuery s q.toNat)
/-- DOORBELL. -/
def execDoorbell (q : BitVec 18) (ctx : BitVec 16) (val : W64) (s : State) : Host.Outcome State Fault Refusal :=
  .next (doorbell s q ctx val)
/-- QUEUE_FETCH. -/
def execQueueFetch (q : BitVec 18) (s : State) : Host.Outcome State Fault Refusal := .next (queueFetch s q.toNat)
/-- TORN_REREAD. -/
def execTornReread (q : BitVec 18) (s : State) : Host.Outcome State Fault Refusal := .next (tornReread s q.toNat)
/-- COMMAND_ACCEPT. -/
def execCommandAccept (q : BitVec 18) (t : W64) (s : State) : Host.Outcome State Fault Refusal :=
  .next (commandAccept s q.toNat t)
/-- COMMAND_HANDOFF. -/
def execCommandHandoff (q : BitVec 18) (t : W64) (s : State) : Host.Outcome State Fault Refusal :=
  .next (commandHandoff s q.toNat t)
/-- NOP_COMMAND. -/
def execNopCommand (cid : Nat) (s : State) : Host.Outcome State Fault Refusal := .next (nopCommand s cid)
/-- COPY. -/
def execCopy (cid : Nat) (s : State) : Host.Outcome State Fault Refusal := .next (copyStart s cid)
/-- COPY_ENGINE_COMPLETE. -/
def execCopyEngineComplete (eng : Fin 16) (s : State) : Host.Outcome State Fault Refusal := .next (copyEngineComplete s eng)
/-- COMPLETION_POST. -/
def execCompletionPost (cid : Nat) (t : W64) (s : State) : Host.Outcome State Fault Refusal := .next (completionPost s cid t)
/-- JOURNAL_RECORD_ACK. -/
def execJournalRecordAck (jseq : W64) (s : State) : Host.Outcome State Fault Refusal := .next (journalAck s jseq.toNat)
/-- EVENT_POST. -/
def execEventPost (q : BitVec 18) (t : W64) (s : State) : Host.Outcome State Fault Refusal := .next (eventPost s q.toNat t)
/-- NOTIFY_WINDOW_EXPIRY. -/
def execNotifyWindowExpiry (q : BitVec 18) (s : State) : Host.Outcome State Fault Refusal := .next (notifyWindow s q.toNat)

end Sys2Proof.Machine
end

