-- ==== Sys2Proof/Machine/Ksl.lean ====
section
/-! DEFINITION. The KSL ports (chapter 11): training, flits, inbound and outbound transactions, loss of a port, host
reset (R369), and the accesses of threads and harts to the host and peer windows. -/

namespace Sys2Proof.Machine

/-! ## Completion of outbound accesses (R225, R232, R337, R341) -/

/-- A lane of a thread's operation has its answer: data, poison, or a write completed. -/
def laneDone (s : State) (sp op lane : Nat) (b : List Byte) (bad : Bool) : State :=
  match opAt s sp op with
  | none => s
  | some o =>
    match o.lanes.find? fun l => l.lane == lane && l.st == .sent with
    | none => s
    | some l =>
      if o.loads && bad then opFault s sp o 7 l.va
      else
        let o := o.setLane { l with st := .done, data := if o.loads then BitVec.ofNat 128 (leNat b) else l.data }
        let s := setOp s sp o
        if o.loads then fenceCheck (opCheck s sp o) sp
        else if o.lanes.all (·.st == .done) then spurRetry (opEnd s sp o) sp
        else fenceCheck s sp

/-- A piece of a Spur's copy has its answer. -/
def copyPieceDone (s : State) (sp job : Nat) (va : W64) (b : List Byte) (bad : Bool) : State :=
  modSpur s sp fun p => { p with copies := p.copies.map fun j =>
    if j.id = job then
      { j with parts := j.parts.map fun x => if x.va = va ∧ x.st = .sent then { x with st := .done, data := b, poison := bad } else x }
    else j }

/-- An outbound access has completed, with data, an error or without an answer. -/
def outDone (s : State) (r : OutReq) (b : List Byte) (bad : Bool) : State :=
  match r.owner with
  | .lane sp op l => laneDone s sp op l b bad
  | .copy sp job va => copyPieceDone s sp job va b (bad && !r.write)
  | .hart h => hartWindowDone s h r.pa r.write b (bad && !r.write)
  | .cmd cid n =>
    let s := outSettled s r.owner
    if r.write then s else copyArrive s cid n (if bad then List.replicate r.len 0 else b) bad
  | .ring q => ringData s q b bad
  | .post => s

/-- Send an outbound access, or complete it at once where its port is lost (R341) or it names no peer (R375). -/
def outSend (s : State) (r : OutReq) : State :=
  match region r.pa with
  | .host _ =>
    if (s.port (portOf r.pa)).lost then outDone s r [] true
    else kslRun (modPort s (portOf r.pa) fun p => { p with outq := p.outq ++ [r] }) (portOf r.pa)
  | .peer _ _ =>
    let a := peerSend s r
    if a.2 then a.1 else outDone s r [] true
  | _ => s

/-! ## OUTBOUND_WINDOW_REQUEST (R340, R381) -/

/-- Does an address lie in the host window or a peer window? -/
def outPa (pa : Nat) : Bool := peerBase ≤ pa && pa < 2 ^ 52

/-- The lanes of an operation that name a host or peer window are sent. -/
def threadOut (s : State) (sp id : Nat) : State :=
  match opAt s sp id with
  | none => s
  | some o =>
    if !o.translated || dsBlocked (s.spur sp) o then s
    else
      let go := o.lanes.filter fun l => l.st == .ready && outPa l.pa && dsTurn o l
      let s := setOp s sp { o with lanes := o.lanes.map fun l => if go.contains l then { l with st := .sent } else l }
      let s := go.foldl (fun s l => outSend s
        ⟨!o.loads, l.pa, o.size, o.ctx, if o.loads then [] else l.bytes o.size, .lane sp o.id l.lane⟩) s
      match opAt s sp id with
      | some o => if !o.loads ∧ o.lanes.all (·.gone) then teamSettle (fenceCheck (setOp s sp { o with acked := true }) sp) sp else s
      | none => s

/-- Cut the pieces of a copy at lines, as they are carried out. -/
def copyCut (j : CopyJob) : CopyJob :=
  { j with parts := j.parts.flatMap fun p => if p.st = .xlt then p.lines else [p] }

/-- The pieces of a Spur's copy that name a host or peer window are sent. -/
def copyOut (s : State) (sp job : Nat) : State :=
  match (s.spur sp).copies.find? (·.id == job) with
  | none => s
  | some j0 =>
    let j := copyCut j0
    let b := match blockAt s sp j.blk with
      | some b => if j.row.isSome then stageBase else b.base
      | none => 0
    let at_ := fun (p : CopyPart) => match xlate s j.ctx p.va j.toGlobal with
      | .inl pa => if outPa pa then some pa else none
      | .inr _ => none
    let go := j.parts.filter fun p => p.st == .xlt && (at_ p).isSome
    if go = [] then s
    else
      let j := { j with parts := j.parts.map fun p => if go.contains p then { p with st := .sent, pa := (at_ p).getD 0 } else p }
      let s := modSpur s sp fun p => { p with copies := p.copies.map fun x => if x.id = job then j else x }
      go.foldl (fun s p => outSend s ⟨j.toGlobal, (at_ p).getD 0, p.len, j.ctx,
        if j.toGlobal then memRead (s.spur sp).lmem (b + p.la) p.len else [], .copy sp job p.va⟩) s

/-- A hart's waiting access to a host or peer window is sent. -/
def hartOutside (s : State) (h : Nat) (write : Bool) (pa : Nat) (ctx : BitVec 16) (data : W64) : State :=
  let x := s.hart h
  let want := fun (p : HartPart) => p.st == 0 && p.pa == pa && p.ctx == ctx
  if write then
    match x.winStores.find? fun p => want p && leNat p.data == data.toNat with
    | some p =>
      let s := modHart s h fun x => { x with winStores := x.winStores.map fun q => if q = p then { p with st := 1 } else q }
      outSend s ⟨true, pa, p.n, ctx, p.data, .hart h⟩
    | none => s
  else
    match x.load with
    | some l =>
      match l.parts.find? want with
      | some p =>
        let s := modHart s h fun x => { x with load := some { l with parts := l.parts.map fun q => if q = p then { p with st := 1 } else q } }
        outSend s ⟨false, pa, p.n, ctx, [], .hart h⟩
      | none => s
    | none => s

/-- OUTBOUND_WINDOW_REQUEST. -/
def outboundRequest (s : State) : OutSrc → State
  | .thread sp op => if (opAt s sp op).isSome then threadOut s sp op else copyOut s sp op
  | .hart h write pa ctx data => hartOutside s h write pa.toNat ctx data

/-! ## Host reset and loss of a port (R341, R343, R369) -/

/-- Would a COPY make a request on a port? -/
def copyUses (s : State) (c : Cmd) (p : Nat) : Bool :=
  let len := bodyBits c 16 36 0
  let on := fun (base : Nat) (write : Bool) => (List.range (len / 4096 + 2)).any fun i =>
    let ofs := min (i * 4096) (len - 1)
    match xlate s c.ctx (BitVec.ofNat 64 (base + ofs)) write with
    | .inl pa => hostBase ≤ pa && portOf pa == p
    | .inr _ => false
  on (bodyBits c 0 63 0) false || on (bodyBits c 8 63 0) true

/-- Commands with a request on a port outstanding, or that would make one (R369). -/
def portCmds (s : State) (p : Nat) : List Nat :=
  let x := s.port p
  let rs := x.outq ++ (x.rdTags.map fun t => t.2.req) ++ x.wrTags.map fun t => t.2.req
  (rs.filterMap fun r => match r.owner with | .cmd cid _ => some cid | _ => none)
    ++ ((s.qs.engines.flatMap fun e => e.2).filter fun cid => match s.cmd? cid with
      | some c => copyUses s c p
      | none => false)

/-- Host reset on a port (R369). -/
def hostReset (s : State) (p : Nat) : State :=
  let x := s.port p
  let s := (portCmds s p).foldl (fun s cid => stopCmd s cid 0x02) s
  let rs := x.outq ++ (x.rdTags.map fun t => t.2.req) ++ x.wrTags.map fun t => t.2.req
  let s := modPort s p fun x => { x with outq := [], rdTags := [], wrTags := [] }
  let s := rs.foldl (fun s r => outDone s r [] true) s
  let mine := s.qs.q.filter fun q => q.2.hport == p + 1 && ((s.ctx? q.2.ctx).map (·.host)).getD false
  let s := mine.foldl (fun s q => haltQueue s q.1 0x02 (0, 0)) s
  { s with qs := { s.qs with q := s.qs.q.map fun q => if q.2.hport = p + 1 then (q.1, { q.2 with held := false }) else q } }

/-- A port is lost (R341). -/
def portLost (s : State) (p : Nat) : State :=
  if (s.port p).lost then s else hostReset (modPort s p fun x => { x with lost := true, txq := [], retry := [] }) p

/-- KSL_PORT_LOST_TIMEOUT. -/
def portTimeout (s : State) (p : Nat) : State := if portUp s p then s else portLost s p

/-! ## Training (R325 to R327, R342, R510) -/

/-- Set STATE of a port. -/
def setPortState (s : State) (p n : Nat) : State := setFldAt s 0 R.HUB_KSL_STAT_STATE p n

/-- Training starts at step 1, if a cable is mated. -/
def trainStart (s : State) (p : Nat) : State :=
  if (s.port p).mated then
    modPort (setPortState s p 1) p fun x => { x with step := 1, failed := 0, retrainFails := 0 }
  else modPort (setPortState s p 0) p fun x => { x with step := 0 }

/-- Training ends without the port coming up. -/
def trainEnd (s : State) (p st : Nat) : State := modPort (setPortState s p st) p fun x => { x with step := 0 }

/-- KSL_ENABLE_WRITE. -/
def kslEnable (s : State) (p : Nat) (enable : Bool) : State :=
  let s := setFldAt s 0 R.HUB_KSL_CFG_ENABLE p (b2n enable)
  if enable then trainStart s p else portLost (trainEnd s p 0) p

/-- An EPOCH that differs from PEER_EPOCH is a host reset (R343). -/
def takeEpoch (s : State) (p v : Nat) : State :=
  if fldAt s 0 R.HUB_KSL_EPOCH_PEER_EPOCH p = v then s else hostReset (setFldAt s 0 R.HUB_KSL_EPOCH_PEER_EPOCH p v) p

/-- The port comes up: flit sequences and credits as at link initialisation; what the retry buffer holds is sent anew
(R325, R333, log 20). Its epoch and the NOTIFYs held for it are sent. -/
def portComesUp (s : State) (p epoch : Nat) : State :=
  let s := modPort (setPortState s p 2) p fun x => { x with
    step := 0, lost := false, nak := false, part := none, rxSeq := 0, k1 := 1024, k2 := 4096, k3 := 64
    txSeq := x.retry.length
    retry := (x.retry.zip (List.range x.retry.length)).map fun f => { f.1 with seq := f.2 + 1, resends := 0 } }
  let s := takeEpoch s p epoch
  let s := kslEpoch s p
  let held := (s.qs.q.filter fun q => q.2.held && q.2.hport == p + 1).map (·.1)
  kslRun (held.foldl notifySend s) p

/-- Lanes failed in steps 3 and 4 decide the width: 2 x16, 1 x8, 0 none (R326). -/
def widthOf (failed : BitVec 16) : Nat :=
  if failed = 0 then 2 else if failed.toNat % 256 = 0 ∨ failed.toNat / 256 = 0 then 1 else 0

/-- Step 3 or 4 ends with the lanes that failed. -/
def lanesDone (s : State) (p : Nat) (failed : BitVec 16) : State :=
  let x := s.port p
  let f := x.failed ||| failed
  if widthOf f = 0 then trainStart s p
  else
    let s := modPort s p fun x => { x with failed := f, step := x.step + 1 }
    if x.step = 4 then setFldAt s 0 R.HUB_KSL_STAT_WIDTH p (widthOf f) else s

/-- KSL_TRAIN_STEP_DONE. -/
def trainStep (s : State) (p : Nat) (r : TrainEnd) : State :=
  let x := s.port p
  if fldAt s 0 R.HUB_KSL_STAT_STATE p ≠ 1 then s
  else match x.step, r with
    | 1, .done => modPort s p fun x => { x with step := 2 }
    | 1, .noDetect => trainStart s p
    | 2, .measured cable len loss =>
      let s := setFldAt s 0 R.HUB_KSL_STAT_CABLE p cable.toNat
      let s := setFldAt s 0 R.HUB_KSL_STAT_LENGTH p len.toNat
      let s := setFldAt s 0 R.HUB_KSL_STAT_LOSS p loss.toNat
      if (cable = 1 ∧ 30 < len.toNat) ∨ (cable = 2 ∧ 150 < len.toNat) ∨ 112 < loss.toNat then trainEnd s p 0
      else modPort s p fun x => { x with step := 3 }
    | 3, .lanes f | 4, .lanes f => lanesDone s p f
    | 3, .done | 4, .done => lanesDone s p 0
    | 5, .linked role epoch =>
      if b2n role = fldAt s 0 R.HUB_KSL_CFG_ROLE p then trainEnd s p 4 else portComesUp s p epoch.toNat
    | _, _ => s

/-- KSL_TRAIN_TIMEOUT. -/
def trainTimeout (s : State) (p : Nat) : State :=
  if fldAt s 0 R.HUB_KSL_STAT_STATE p = 1 then trainStart s p else s

/-- KSL_RETRAIN (R342). -/
def kslRetrain (s : State) (p : Nat) : State :=
  if portUp s p then bumpErrAt (setPortState s p 3) 0 R.HUB_KSL_ERR_RETRAINS p else s

/-- Flits that an ACKSEQ leaves in the retry buffer (R328, R330). -/
def afterAck (l : List KslFlit) (ack : Nat) : List KslFlit := l.filter fun f => !((ack + 4096 - f.seq) % 4096 < 1024)

/-- KSL_RETRAIN_DONE (R342). -/
def retrainDone (s : State) (p : Nat) (ok : Bool) (ack : Nat) : State :=
  if fldAt s 0 R.HUB_KSL_STAT_STATE p ≠ 3 then s
  else if ok then
    kslRun (modPort (setPortState s p 2) p fun x => { x with
      retrainFails := 0, retry := (afterAck x.retry ack).map fun f => { f with resends := 0 } }) p
  else
    let n := (s.port p).retrainFails + 1
    if 3 ≤ n then trainStart s p
    else bumpErrAt (modPort s p fun x => { x with retrainFails := n }) 0 R.HUB_KSL_ERR_RETRAINS p

/-- CABLE_MATE: a port with ENABLE = 1 that is down or in role mismatch starts training (R510). -/
def cableMate (s : State) (p : Nat) : State :=
  let s := modPort s p fun x => { x with mated := true }
  if fldAt s 0 R.HUB_KSL_CFG_ENABLE p = 1
      ∧ (fldAt s 0 R.HUB_KSL_STAT_STATE p = 0 ∨ fldAt s 0 R.HUB_KSL_STAT_STATE p = 4) then trainStart s p else s

/-- CABLE_UNMATE. -/
def cableUnmate (s : State) (p : Nat) : State :=
  portLost (trainEnd (modPort s p fun x => { x with mated := false }) p 0) p

/-- CBL_OVERCURRENT: the cable supply goes off; a port in training fails at step 1. -/
def cblOver (s : State) (p : Nat) : State :=
  let s := modPort s p fun x => { x with powered := false }
  if fldAt s 0 R.HUB_KSL_STAT_STATE p = 1 then trainStart s p else s

/-! ## Flits (R328 to R330) -/

/-- One bit of CRC-64/ECMA-182 (R328). -/
def crcBit (c : W64) : W64 := if c.getLsbD 63 then (c <<< 1) ^^^ 0x42F0E1EBA9EA3693 else c <<< 1

/-- One byte of it. -/
def crcByte (c : W64) (x : Byte) : W64 := (List.range 8).foldl (fun c _ => crcBit c) (c ^^^ (x.setWidth 64).shiftLeft 56)

/-- CRC-64/ECMA-182 of some bytes (R328). -/
def crc64 (b : List Byte) : W64 := b.foldl crcByte 0

/-- Data bytes of a transaction. -/
def kslNeed (h : KslHdr) : Nat :=
  if h.ttype = 2 then h.lenm1.toNat + 1
  else if h.ttype = 3 then 8
  else if h.ttype = 4 ∧ h.status = 0 then h.lenm1.toNat + 1 else 0

/-- Take one slot; the flag counts a malformed transaction. -/
def takeSlot (acc : KslPort × Nat) (b : List Byte) : KslPort × Nat :=
  let p := acc.1
  match p.part with
  | some (h, got) =>
    let got := got ++ b
    if kslNeed h ≤ got.length then ({ p with part := none, inbox := p.inbox ++ [(h, got.take (kslNeed h))] }, acc.2)
    else ({ p with part := some (h, got) }, acc.2)
  | none =>
    if b.all (· == 0) then acc
    else
      let h := kslReadHeader b
      let kind := h.addr.toNat % 256
      if h.ttype = 0 ∨ 7 ≤ h.ttype.toNat ∨ (h.ttype = 6 ∧ (h.res0 ≠ 0 ∨ !(kind == 1 || kind == 2))) then (p, acc.2 + 1)
      else if kslNeed h = 0 then ({ p with inbox := p.inbox ++ [(h, [])] }, acc.2)
      else ({ p with part := some (h, []) }, acc.2)

/-- The 15 slots of a flit. -/
def flitSlots (b : List Byte) : List (List Byte) := (List.range 15).map fun i => (b.drop (4 + 16 * i)).take 16

/-- Add returned credits (R333). -/
def addCredit (p : KslPort) (cls n : Nat) : KslPort :=
  if cls = 1 then { p with k1 := p.k1 + n } else if cls = 2 then { p with k2 := p.k2 + n }
  else if cls = 3 then { p with k3 := p.k3 + n } else p

/-- KSL_NAK_RECEIVE: every flit after ACKSEQ is sent again; 8 resends of one flit make the port retrain (R329, R330). -/
def nakReceive (s : State) (p ack : Nat) : State :=
  if !portUp s p then s
  else
    let l := (afterAck (s.port p).retry ack).map fun f => { f with resends := f.resends + 1 }
    let s := modPort s p fun x => { x with retry := l }
    let ovf := { R.HUB_KSL_STAT_REPLAYS_OVF with off := R.HUB_KSL_STAT_REPLAYS_OVF.off + 256 * p }
    let s := bumpEventAt s 0 R.HUB_KSL_REPLAYS_COUNT p ovf 0 l.length
    if l.any fun f => 8 ≤ f.resends then kslRetrain s p else kslRun s p

/-- KSL_FLIT_RECEIVE. -/
def flitReceive (s : State) (p : Nat) (flit : BitVec 2048) : State :=
  if !portUp s p then s
  else
    let b := leBytes 256 flit.toNat
    let w := leNat (b.take 4)
    let ftype := bits w 3 0
    let seq := bits w 15 4
    let ack := bits w 27 16
    if crc64 (b.take 248) ≠ BitVec.ofNat 64 (leNat (b.drop 248)) ∨ 2 < ftype then modPort s p fun x => { x with nak := true }
    else
      let cr := leNat ((b.drop 0xF4).take 4)
      let s := modPort s p fun x =>
        addCredit (addCredit { x with retry := afterAck x.retry ack } (bits cr 2 0) (bits cr 15 3)) (bits cr 18 16) (bits cr 31 19)
      let s :=
        if ftype = 1 then
          let x := s.port p
          if seq = (x.rxSeq + 1) % 4096 then
            let r := (flitSlots b).foldl takeSlot ({ x with rxSeq := seq, nak := false }, 0)
            (List.range r.2).foldl (fun s _ => bumpErrAt s 0 R.HUB_KSL_ERR_MALFORMED p) (modPort s p fun _ => r.1)
          else if (x.rxSeq + 4096 - seq) % 4096 < 1024 then s
          else modPort s p fun x => { x with nak := true }
        else s
      if ftype = 2 then nakReceive s p ack else kslRun s p

/-! ## Inbound transactions (R331 to R339, R343, R344, R515) -/

/-- Name of an inbound transaction in the messages it sends. -/
def kslKey (p tag : Nat) : Nat := 2 ^ 42 + p * 1024 + tag

/-- Does a port's inbound write travel to a register or the hub still? -/
def portFlying (s : State) (p : Nat) (tag : Option Nat) : Bool :=
  s.net.any fun m => match m with
    | .regWrite _ _ _ _ _ src | .doorbell _ _ _ src =>
      match tag with
      | some t => src == kslKey p t
      | none => kslKey p 0 ≤ src && src < kslKey p 1024
    | _ => false

/-- Physical address of an inbound offset (R339). -/
def kslDecode (off : Nat) : Option Nat :=
  if off < 0x30000000000 then some off
  else if 0x40000000000 ≤ off ∧ off < 0x60000000000 then some (boardBase + (off - 0x40000000000))
  else if 0x70000000000 ≤ off ∧ off < 0x70200000000 then some (windowBase + (off - 0x70000000000))
  else if 0x70200000000 ≤ off ∧ off < 0x70200200000 then some (doorbellBase + (off - 0x70200000000))
  else none

/-- Does an offset lie in the status window (R344)? -/
def inStatus (off : Nat) : Bool := 0x70300000000 ≤ off && off < 0x70300010000

/-- Is the module ready for other transactions (R515)? -/
def moduleReady (s : State) : Bool := s.boot.state == 3 || s.boot.state == 4

/-- A word of the status window (R344). -/
def statusWord (s : State) (p off : Nat) : Nat :=
  if off = 0 then s.boot.state
  else if off = 0x08 then fld s 0 R.HUB_JOURNAL_HEAD_HEAD
  else if off = 0x10 then fld s 0 R.HUB_JOURNAL_BASE_BASE * 2 ^ 27
  else if off = 0x18 then fldAt s 0 R.HUB_KSL_EPOCH_PEER_EPOCH p + fldAt s 0 R.HUB_KSL_EPOCH_LOCAL_EPOCH p * 2 ^ 32
  else if off = 0x20 then regRead s 0 8 64
  else if off = 0x28 then regRead s 0 0x10 64
  else 0

/-- Bytes that a RD or WR names. -/
def kslSpan (h : KslHdr) : Nat × Nat := (h.addr.toNat, h.addr.toNat + h.lenm1.toNat + 1)

/-- Do two transactions name a common byte, or line? -/
def kslMeet (unit : Nat) (a b : KslHdr) : Bool :=
  let x := kslSpan a
  let y := kslSpan b
  x.1 / unit ≤ (y.2 - 1) / unit && y.1 / unit ≤ (x.2 - 1) / unit

/-- Take a transaction out of a port's inbox: what came before it and its data. -/
def inboxFind (s : State) (p : Nat) (h : KslHdr) : Option (List (KslHdr × List Byte) × List Byte) :=
  let l := (s.port p).inbox
  match l.find? fun x => x.1 == h with
  | some x => some (l.takeWhile fun y => y.1 != h, x.2)
  | none => none

/-- Remove a transaction from a port's inbox. -/
def inboxDrop (s : State) (p : Nat) (h : KslHdr) (b : List Byte) : State :=
  modPort s p fun x => { x with inbox := x.inbox.erase (h, b) }

/-- Answer a RD (R334). -/
def kslCpl (s : State) (p : Nat) (h : KslHdr) (status : Nat) (b : List Byte) : State :=
  kslSend s p { kslHdr0 4 with tag := h.tag, status := BitVec.ofNat 8 status, lenm1 := BitVec.ofNat 9 (b.length - 1), addr := 0 } b

/-- Does a RD or WR break R332? -/
def kslMalformed (h : KslHdr) : Bool :=
  h.res0 != 0 || h.addr.toNat / 4096 != (h.addr.toNat + h.lenm1.toNat) / 4096

/-- Refuse a transaction as malformed. -/
def countMalformed (s : State) (p : Nat) : State := bumpErrAt s 0 R.HUB_KSL_ERR_MALFORMED p

/-- Is the context of a transaction refused (R338)? -/
def ctx0Refused (s : State) (p : Nat) (h : KslHdr) : Bool := h.ctx == 0 && fldAt s 0 R.HUB_KSL_CFG_CTX0_OK p == 0

/-- Read at a physical address for an inbound request: status and bytes. -/
def kslReadAt (s : State) (h : KslHdr) (pa n : Nat) : State × Nat × List Byte :=
  match region pa with
  | .hbm | .board =>
    let lines := (List.range ((pa + n - 1) / 64 - pa / 64 + 1)).map fun i => pa / 64 + i
    let c := lines.foldl (fun (acc : State × Bool) ln =>
      let k := targetCheckBy acc.1 0 0 h.ctx (ln * 64) false
      (k.1, acc.2 && k.2)) (s, true)
    if !c.2 then (c.1, 0x06, [])
    else
      let d := cohRead c.1 pa n
      if d.2 then (c.1, 0x06, []) else (lines.foldl touch c.1, 0, d.1)
  | .window w off =>
    let k := targetCheckBy s 0 0 h.ctx pa false
    if k.2 then (k.1, 0, leBytes n (regRead k.1 w off (8 * n))) else (k.1, 0x06, [])
  | _ => (s, 0, List.replicate n 0)

/-- KSL_RD. -/
def kslRd (s : State) (p : Nat) (h : KslHdr) : State :=
  match (if h.ttype = 1 then inboxFind s p h else none) with
  | none => s
  | some (before, b) =>
    let off := h.addr.toNat
    let n := h.lenm1.toNat + 1
    if before.any fun x => x.1.ttype == 2 && kslMeet 1 x.1 h then s
    else
      let t := inboxDrop s p h b
      if inStatus off && h.res0 == 0 then
        if n = 8 ∧ off % 8 = 0 then kslCpl t p h 0 (leBytes 8 (statusWord t p (off % 0x10000))) else kslCpl t p h 0x0F []
      else if !moduleReady s then kslCpl t p h 0x0F []
      else if kslMalformed h then kslCpl (countMalformed t p) p h 0x0F []
      else if ctx0Refused s p h then kslCpl t p h 0x04 []
      else match kslDecode off with
        | none => kslCpl t p h 0x05 []
        | some pa =>
          if (isMem pa && !rangeIdle s pa n) || (!isMem pa && portFlying s p none) then s
          else
            let r := kslReadAt t h pa n
            kslCpl r.1 p h r.2.1 r.2.2

/-- An inbound WR or DB is handed over: its answer waits for KSL_INBOUND_PERFORMED. -/
def kslTaken (s : State) (p : Nat) (h : KslHdr) (status : Byte) : State :=
  modPort s p fun x => { x with wacks := x.wacks ++ [⟨h.tag, status⟩] }

/-- Lines of a write, each with the bytes that fall into it. -/
def lineCuts (pa : Nat) (b : List Byte) : List (Nat × List Byte) :=
  (List.range ((pa + b.length - 1) / 64 - pa / 64 + 1)).map fun i =>
    let lo := max pa ((pa / 64 + i) * 64)
    let hi := min (pa + b.length) ((pa / 64 + i) * 64 + 64)
    (lo, (b.drop (lo - pa)).take (hi - lo))

/-- Write at a physical address for an inbound request: the status (R335, R337). -/
def kslWriteAt (s : State) (p : Nat) (h : KslHdr) (pa : Nat) (b : List Byte) : State × Byte :=
  match region pa with
  | .hbm | .board =>
    (lineCuts pa b).foldl (fun (acc : State × Byte) x =>
      let k := targetCheckBy acc.1 0 0 h.ctx x.1 true
      if k.2 then (cohPut k.1 x.1 x.2 false, acc.2) else (k.1, 0x04)) (s, 0)
  | .window w off =>
    if 16 ≤ w ∧ 0x1200000 ≤ off ∧ off < 0x1200040 then (s, 0)
    else (send s (.regWrite w off (8 * b.length) (BitVec.ofNat 64 (leNat b)) h.ctx (kslKey p h.tag.toNat)), 0)
  | _ => (s, 0)

/-- KSL_WR. -/
def kslWr (s : State) (p : Nat) (h : KslHdr) (data : List Byte) : State :=
  match (if h.ttype = 2 then inboxFind s p h else none) with
  | none => s
  | some (before, b) =>
    let off := h.addr.toNat
    let wr := fun (x : KslHdr × List Byte) => x.1.ttype == 2
    if b ≠ data || (before.any fun x => (wr x || x.1.ttype == 3) && kslMeet 64 x.1 h)
        || (h.release && (before.any wr || portFlying s p none)) then s
    else
      let t := inboxDrop s p h b
      if !moduleReady s || (inStatus off && h.res0 == 0) then kslTaken t p h 0x0F
      else if kslMalformed h || (0x70200000000 ≤ off && off < 0x70200200000) then kslTaken (countMalformed t p) p h 0x0F
      else if ctx0Refused s p h then kslTaken t p h 0x04
      else match kslDecode off with
        | none => kslTaken t p h 0x05
        | some pa =>
          if isMem pa && !rangeIdle s pa b.length then s
          else
            let r := kslWriteAt t p h pa b
            kslTaken r.1 p h r.2

/-- KSL_DB (R332, R335, R348). -/
def kslDb (s : State) (p : Nat) (h : KslHdr) (val : W64) : State :=
  match (if h.ttype = 3 then inboxFind s p h else none) with
  | none => s
  | some (before, b) =>
    let off := h.addr.toNat
    if leNat b ≠ val.toNat || (before.any fun x => x.1.ttype == 2) || (before.any fun x => x.1.ttype == 3 && kslMeet 64 x.1 h)
        || (s.net.any fun m => match m with
          | .regWrite _ _ _ _ _ src => kslKey p 0 ≤ src && src < kslKey p 1024
          | _ => false) then s
    else
      let t := inboxDrop s p h b
      let inBells := 0x70200000000 ≤ off && off < 0x70200200000
      if !moduleReady s then kslTaken t p h 0x0F
      else if h.res0 != 0 || h.lenm1 != 7 || off % 8 != 0 || !inBells then kslTaken (countMalformed t p) p h 0x0F
      else if ctx0Refused s p h then kslTaken t p h 0x04
      else
        let q := BitVec.ofNat 18 ((off - 0x70200000000) / 8)
        kslTaken (send t (.doorbell q h.ctx val (kslKey p h.tag.toNat))) p h 0

/-- KSL_INBOUND_PERFORMED (R337). -/
def inboundPerformed (s : State) (p tag : Nat) : State :=
  match (s.port p).wacks.find? fun w => w.tag.toNat == tag with
  | none => s
  | some w =>
    if portFlying s p (some tag) then s
    else
      let s := modPort s p fun x => { x with wacks := x.wacks.erase w }
      kslSend s p { kslHdr0 5 with tag := w.tag, status := w.status } []

/-- KSL_CPL (R334, R343). -/
def kslCplIn (s : State) (p : Nat) (h : KslHdr) (data : List Byte) : State :=
  match (if h.ttype = 4 then inboxFind s p h else none) with
  | none => s
  | some (_, b) =>
    if b ≠ data then s
    else
      let s := inboxDrop s p h b
      match tget? (s.port p).rdTags h.tag.toNat with
      | none => s
      | some t =>
        let free := fun (s : State) => modPort s p fun x => { x with rdTags := tdel x.rdTags h.tag.toNat }
        if h.status ≠ 0 then kslRun (outDone (free s) t.req t.got true) p
        else
          let got := t.got ++ b
          if t.req.len ≤ got.length then kslRun (outDone (free s) t.req (got.take t.req.len) false) p
          else modPort s p fun x => { x with rdTags := tset x.rdTags h.tag.toNat { t with got := got } }

/-- KSL_WACK (R337). -/
def kslWackIn (s : State) (p : Nat) (h : KslHdr) : State :=
  match (if h.ttype = 5 then inboxFind s p h else none) with
  | none => s
  | some (_, b) =>
    let s := inboxDrop s p h b
    match tget? (s.port p).wrTags h.tag.toNat with
    | none => s
    | some t => kslRun (outDone (modPort s p fun x => { x with wrTags := tdel x.wrTags h.tag.toNat }) t.req [] false) p

/-- A MSG in a port's inbox, performed after every earlier WR (R335, R336). -/
def takeMsg (s : State) (p : Nat) (want : KslHdr → Bool) (act : State → State) : State :=
  let l := (s.port p).inbox
  match l.find? fun x => x.1.ttype == 6 && want x.1 with
  | none => s
  | some m =>
    if ((l.takeWhile fun y => y != m).any fun x => x.1.ttype == 2 || x.1.ttype == 6) || portFlying s p none then s
    else act (inboxDrop s p m.1 m.2)

/-- KSL_MSG_EPOCH. -/
def kslMsgEpoch (s : State) (p v : Nat) : State :=
  takeMsg s p (fun h => h.addr.toNat % 256 == 1 && bits h.addr.toNat 63 32 == v) fun s => takeEpoch s p v

/-- KSL_MSG_NOTIFY: the adapter end's interrupt for the queue (R336, R515). -/
def kslMsgNotify (s : State) (p : Nat) (q : BitVec 18) : State :=
  takeMsg s p (fun h => h.addr.toNat % 256 == 2 && bits h.addr.toNat 49 32 == q.toNat) fun s =>
    if fldAt s 0 R.HUB_KSL_CFG_ROLE p = 1 ∧ moduleReady s then
      modPort s p fun x => { x with interrupts := if x.interrupts.contains q then x.interrupts else x.interrupts ++ [q] }
    else s

/-! ## The meanings -/

/-- KSL_ENABLE_WRITE. -/
def execKslEnableWrite (port : Fin 2) (enable : Bool) (s : State) : Host.Outcome State Fault Refusal :=
  .next (kslEnable s port enable)
/-- KSL_TRAIN_STEP_DONE. -/
def execKslTrainStepDone (port : Fin 2) (r : TrainEnd) (s : State) : Host.Outcome State Fault Refusal :=
  .next (trainStep s port r)
/-- KSL_TRAIN_TIMEOUT. -/
def execKslTrainTimeout (port : Fin 2) (s : State) : Host.Outcome State Fault Refusal := .next (trainTimeout s port)
/-- KSL_FLIT_RECEIVE. -/
def execKslFlitReceive (port : Fin 2) (flit : BitVec 2048) (s : State) : Host.Outcome State Fault Refusal :=
  .next (flitReceive s port flit)
/-- KSL_NAK_RECEIVE. -/
def execKslNakReceive (port : Fin 2) (ackseq : BitVec 12) (s : State) : Host.Outcome State Fault Refusal :=
  .next (nakReceive s port ackseq.toNat)
/-- KSL_RD. -/
def execKslRd (port : Fin 2) (hdr : KslHdr) (s : State) : Host.Outcome State Fault Refusal := .next (kslRd s port hdr)
/-- KSL_WR. -/
def execKslWr (port : Fin 2) (hdr : KslHdr) (data : List Byte) (s : State) : Host.Outcome State Fault Refusal :=
  .next (kslWr s port hdr data)
/-- KSL_DB. -/
def execKslDb (port : Fin 2) (hdr : KslHdr) (data : W64) (s : State) : Host.Outcome State Fault Refusal :=
  .next (kslDb s port hdr data)
/-- KSL_CPL. -/
def execKslCpl (port : Fin 2) (hdr : KslHdr) (data : List Byte) (s : State) : Host.Outcome State Fault Refusal :=
  .next (kslCplIn s port hdr data)
/-- KSL_WACK. -/
def execKslWack (port : Fin 2) (hdr : KslHdr) (s : State) : Host.Outcome State Fault Refusal := .next (kslWackIn s port hdr)
/-- KSL_MSG_EPOCH. -/
def execKslMsgEpoch (port : Fin 2) (value : W32) (s : State) : Host.Outcome State Fault Refusal :=
  .next (kslMsgEpoch s port value.toNat)
/-- KSL_MSG_NOTIFY. -/
def execKslMsgNotify (port : Fin 2) (queue : BitVec 18) (s : State) : Host.Outcome State Fault Refusal :=
  .next (kslMsgNotify s port queue)
/-- KSL_INBOUND_PERFORMED. -/
def execKslInboundPerformed (port : Fin 2) (tag : BitVec 10) (s : State) : Host.Outcome State Fault Refusal :=
  .next (inboundPerformed s port tag.toNat)
/-- KSL_RETRAIN. -/
def execKslRetrain (port : Fin 2) (s : State) : Host.Outcome State Fault Refusal := .next (kslRetrain s port)
/-- KSL_RETRAIN_DONE. -/
def execKslRetrainDone (port : Fin 2) (ok : Bool) (ackseq : BitVec 12) (s : State) : Host.Outcome State Fault Refusal :=
  .next (retrainDone s port ok ackseq.toNat)
/-- KSL_PORT_LOST_TIMEOUT. -/
def execKslPortLostTimeout (port : Fin 2) (s : State) : Host.Outcome State Fault Refusal := .next (portTimeout s port)
/-- CABLE_MATE. -/
def execCableMate (port : Fin 2) (s : State) : Host.Outcome State Fault Refusal := .next (cableMate s port)
/-- CABLE_UNMATE. -/
def execCableUnmate (port : Fin 2) (s : State) : Host.Outcome State Fault Refusal := .next (cableUnmate s port)
/-- CBL_OVERCURRENT. -/
def execCblOvercurrent (port : Fin 2) (s : State) : Host.Outcome State Fault Refusal := .next (cblOver s port)
/-- CBL_POWER_RETRY: after 1 s off the cable supply is switched on again (R510). -/
def execCblPowerRetry (port : Fin 2) (s : State) : Host.Outcome State Fault Refusal :=
  .next (modPort s port fun x => { x with powered := true })
/-- OUTBOUND_WINDOW_REQUEST. -/
def execOutboundWindowRequest (src : OutSrc) (s : State) : Host.Outcome State Fault Refusal :=
  .next (outboundRequest s src)

end Sys2Proof.Machine
end

