-- ==== Sys2Proof/Machine/Fabric.lean ====
section
/-! DEFINITION. The fabric ports, peers, the Keapite Fabric Transport and the fabric commands (chapter 13, R372 to
R389). -/

namespace Sys2Proof.Machine

/-! ## Reads and writes of virtual memory by fabric engines (R276, R389, R395) -/

/-- Read `n` bytes at a virtual address: none while a line's home is busy; otherwise the bytes or the status that stops
the command. `retired`: retired memory stops it with 0x0B. Bytes in a host or peer window are free values (log 17). -/
def engRead (s : State) (die unit : Nat) (ctx : BitVec 16) (retired : Bool) (va : W64) (n : Nat) :
    Option (State × Sum (List Byte) Byte) :=
  (({ va := va, la := 0, len := n } : CopyPart).lines).foldl (fun acc p =>
    match acc with
    | none => none
    | some (s, .inr st) => some (s, .inr st)
    | some (s, .inl b) =>
      match xlate s ctx p.va false with
      | .inr st => some (s, .inr st)
      | .inl pa =>
        if isMem pa then
          if !lineIdle s (pa / 64) then none
          else if retired && paRetired s pa then some (s, .inr 0x0B)
          else
            let k := targetCheckBy s die unit ctx pa false
            if !k.2 then some (k.1, .inr 0x04)
            else
              let d := cohRead k.1 pa p.len
              some (touch k.1 (pa / 64), if d.2 then .inr 0x06 else .inl (b ++ d.1))
        else match region pa with
          | .host _ | .peer .. =>
            let f := (List.range (ceilDiv p.len 8)).foldl (fun (x : State × List Byte) _ =>
              let d := drawFree x.1
              (d.2, x.2 ++ leBytes 8 d.1.toNat)) (s, [])
            some (f.1, .inl (b ++ f.2.take p.len))
          | .window w off =>
            let k := targetCheckBy s die unit ctx pa false
            if !k.2 then some (k.1, .inr 0x04)
            else some (k.1, .inl (b ++ leBytes p.len (regRead k.1 w off (8 * p.len))))
          | _ => some (s, .inl (b ++ List.replicate p.len 0))) (some (s, .inl []))

/-- Write bytes of a command at a virtual address: none while a line's home is busy. -/
def engWrite (s : State) (die unit cid : Nat) (ctx : BitVec 16) (retired : Bool) (va : W64) (b : List Byte) :
    Option (State × Option Byte) :=
  let ps := ({ va := va, la := 0, len := b.length } : CopyPart).lines
  let busy := ps.any fun p => match xlate s ctx p.va true with
    | .inl pa => isMem pa && !lineIdle s (pa / 64)
    | .inr _ => false
  if busy then none
  else some (ps.foldl (fun (acc : State × Option Byte) p =>
    match acc with
    | (s, some st) => (s, some st)
    | (s, none) =>
      match xlate s ctx p.va true with
      | .inr st => (s, some st)
      | .inl pa =>
        if retired && paRetired s pa then (s, some 0x0B)
        else
          let r := cmdPut s die unit cid ctx pa ((b.drop p.la).take p.len) false
          (r.1, if r.2 then some 0x04 else none)) (s, none))

/-! ## Ports (R372, R376, R511) -/

/-- Flows whose port has changed resend what is not acknowledged (R376). -/
def remapFlows (old s : State) : State :=
  s.fab.tx.foldl (fun s e =>
    let p := e.1 / 16
    let f := e.1 % 16
    match flowPort s p f with
    | some lp =>
      if flowPort old p f = some lp then s
      else
        let s := e.2.unacked.foldl (fun s k => kftPut s lp p f k (e.2.wrapOf k.psn)) s
        kftPump (bumpEventAt s (lpDie lp) R.FAB_EVT_COUNT 0 R.FAB_OVF_OVF 0 e.2.unacked.length) p f
    | none => s) s

/-- Is a port's cage present (R511)? -/
def cagePresent (s : State) (p : Nat) : Bool := !s.fab.missing.getLsbD p

/-- FAB_PORT_ENABLE. -/
def fabEnable (s : State) (p : Nat) (b enable : Bool) : State :=
  let die := 11 + p / 4
  let t := setFldAt s die (if b then R.FAB_PORT_CFG_ENABLE_B else R.FAB_PORT_CFG_ENABLE_A) (p % 4) (b2n enable)
  let lp := 2 * p + b2n b
  if !lpExists t lp then t
  else if !enable then remapFlows s (setLpState t lp 0)
  else if lpState t lp = 0 ∧ cagePresent t p then setLpState t lp 1 else t

/-- ENABLE of a logical port. -/
def lpEnabled (s : State) (lp : Nat) : Bool :=
  fldAt s (lpDie lp) (if lp % 2 = 0 then R.FAB_PORT_CFG_ENABLE_A else R.FAB_PORT_CFG_ENABLE_B) (lp / 2 % 4) == 1

/-- STATE 4 follows STATE 3 once every enabled logical port is up and Alpenglow time is LOCKED (R457). -/
def fabReady (s : State) : State :=
  if s.boot.state = 3 ∧ fld s 0 R.HUB_AG_STATUS_STATE = 2
      ∧ (List.range 16).all (fun lp => !lpExists s lp || !lpEnabled s lp || lpUp s lp) then setBootState s 4 else s

/-- FAB_PORT_LINK_CHANGE: training ends with the port up, or the link of an enabled port goes down and it trains. -/
def fabLink (s : State) (lp : Nat) (up : Bool) : State :=
  if !lpExists s lp || !lpEnabled s lp then s
  else if up then (if lpState s lp = 1 then fabReady (remapFlows s (setLpState s lp 2)) else s)
  else (if lpState s lp = 2 then remapFlows s (setLpState s lp 1) else s)

/-- FAB_PAUSE_RX. -/
def fabPause (s : State) (p : Nat) : State := bumpErrAt s (11 + p / 4) R.FAB_PORT_STAT_PAUSE_RX (p % 4)

/-- FAB_ARP_ND_REQUEST (R373). -/
def fabArp (s : State) (lp : Nat) (addr : BitVec 128) : State :=
  match (selfPeer s).bind s.peer? with
  | some e => if bitAt e.ports lp && lpUp s lp && e.addr == addr then putFrame s (.answer lp addr) else s
  | none => s

/-- FAB_MODULE_PRESENT: the port is surveyed again (R511). -/
def fabPresent (s : State) (p : Nat) : State :=
  let bit : BitVec 8 := 1 <<< p
  let s := modFab s fun x => { x with missing := x.missing &&& ~~~bit }
  [2 * p, 2 * p + 1].foldl (fun s lp =>
    if lpExists s lp && lpEnabled s lp && lpState s lp == 0 then setLpState s lp 1 else s) s

/-! ## Completion of operations -/

/-- A read of a peer window has ended, with a status. -/
def readEnd (s : State) (id : Nat) (status : Byte) : State :=
  match tget? s.fab.reads id with
  | none => s
  | some r =>
    let s := modFab s fun x => { x with reads := tdel x.reads id }
    match r.owner with
    | .inl q => outDone s q r.data (status != 0)
    | .inr cid =>
      let s := outSettled s (.cmd cid 0)
      if status = 0 then s else stopCmd s cid status

/-- A mark on a collective command (R395). -/
def collMark (s : State) (cid : Nat) (status : Byte) : State :=
  modFab s fun x => { x with marks := tmod x.marks cid [] fun l => if l.contains status then l else l ++ [status] }

/-- A command meets a condition on the fabric: it stops a FAB_WRITE or FAB_READ, and is noted for a COLL. -/
def fabCondition (s : State) (cid : Nat) (status : Byte) : State :=
  match s.cmd? cid with
  | some c => if c.kind = 0x14 then collMark s cid status else stopCmd s cid status
  | none => s

/-- A packet is acknowledged, with the status of its refusal (R379). -/
def packetDone (s : State) (k : KftPkt) (status : Byte) : State :=
  match k.owner with
  | .window r => outDone s r [] (status != 0)
  | .read id => if status = 0 then s else readEnd s id status
  | .cmd cid =>
    let s := outSettled s (.cmd cid 0)
    if status = 0 then s else fabCondition s cid status
  | .reply => s

/-- A packet leaves without an acknowledgement: its operation ends with a status, its write counts as completed, its read
returns poisoned data (R380, R374). -/
def packetLost (s : State) (k : KftPkt) (status : Byte) : State :=
  match k.owner with
  | .window r => outDone s r [] true
  | .read id => readEnd s id status
  | .cmd cid => fabCondition (outSettled s (.cmd cid 0)) cid status
  | .reply => s

/-! ## Fabric commands (R387 to R389) -/

/-- Does a FAB_WRITE or FAB_READ break R388? -/
def fabBad (c : Cmd) (write : Bool) : Bool :=
  let f := bodyBits c
  f 0x08 63 54 != 0 || f 0x10 63 37 != 0 || f 0x20 63 43 != 0 || f 0x08 52 50 == 0 || f 0x10 36 0 == 0
    || 2 ^ 36 < f 0x10 36 0 || (f 0x20 42 42 == 1 && (!write || f 0x20 2 0 != 0))
    || (f 0x08 53 53 == 1 && c.acceptedAt.toNat + 60000000000 < f 0x18 63 0)

/-- Change an open command's count of requests outstanding. -/
def cmdOut (s : State) (cid : Nat) : State := modCmd s cid fun c => { c with windowWrites := c.windowWrites + 1 }

/-- Send the packets of a FAB_WRITE while its flow takes them at once (R388, R389). -/
def fabMove : Nat → State → Nat → State
  | 0, s, _ => s
  | n + 1, s, cid =>
    match s.cmd? cid with
    | none => s
    | some c =>
      let f := bodyBits c
      let len := f 0x10 36 0
      let p := f 0x08 49 42
      let fl := f 0x08 52 50
      if c.stopped.isSome || len ≤ c.progress || (s.tx p fl).queue != [] then s
      else
        let va := BitVec.ofNat 64 (f 0 63 0 + c.progress)
        let k := min (min (kftMax s p) (len - c.progress)) (4096 - va.toNat % 4096)
        let off := f 0x08 41 0 + c.progress
        if !peerOk s p (off + k - 1) then stopCmd s cid 0x05
        else match engRead s (flowDie s p fl) (c.queue.toNat % 4) c.ctx false va k with
          | none => s
          | some (s, .inr st) => stopCmd s cid st
          | some (s, .inl b) =>
            let s := modCmd (cmdOut s cid) cid fun c => { c with progress := c.progress + k }
            fabMove n (kftSend s p fl { op := 0, offset := off, data := b, owner := .cmd cid }) cid

/-- The signal of a FAB_WRITE, once every data packet has been acknowledged (R388). -/
def fabSignal (s : State) (cid : Nat) : State :=
  match s.cmd? cid with
  | none => s
  | some c =>
    let f := bodyBits c
    if c.kind = 0x10 ∧ f 0x20 42 42 = 1 ∧ c.progress = f 0x10 36 0 ∧ c.windowWrites = 0 ∧ c.stopped.isNone then
      let p := f 0x08 49 42
      if !peerOk s p (f 0x20 41 0 + 7) then stopCmd s cid 0x05
      else
        let s := modCmd (cmdOut s cid) cid fun c => { c with progress := c.progress + 1 }
        kftSend s p (f 0x08 52 50) { op := 0, offset := f 0x20 41 0, data := leBytes 8 (f 0x28 63 0), owner := .cmd cid }
    else s

/-- The one read request of a FAB_READ. -/
def fabAsk (s : State) (cid : Nat) (c : Cmd) : State :=
  let f := bodyBits c
  let p := f 0x08 49 42
  let off := f 0x08 41 0
  let len := f 0x10 36 0
  if c.progress ≠ 0 ∨ c.stopped.isSome then s
  else if !peerOk s p (off + len - 1) then stopCmd s cid 0x05
  else
    let id := s.fab.nextOp % 2 ^ 24
    let s := modFab s fun x => { x with
      nextOp := x.nextOp + 1
      reads := tset x.reads id { peer := p, flow := f 0x08 52 50, offset := off, len := len, owner := .inr cid } }
    let s := modCmd (cmdOut s cid) cid fun c => { c with progress := len }
    kftSend s p (f 0x08 52 50) { op := 1, offset := off, opid := id, data := leBytes 8 len, owner := .read id }

/-- May a command send? TIMED: its instant has come (R386). -/
def fabDue (s : State) (c : Cmd) : Bool :=
  bodyBits c 0x08 53 53 == 0 || c.due || bodyBits c 0x18 63 0 ≤ s.time.toNat

/-- A running fabric command goes as far as it can. -/
def fabGo (s : State) (cid : Nat) : State :=
  match s.cmd? cid with
  | none => s
  | some c =>
    if !c.running || !fabDue s c then s
    else if c.kind = 0x10 then fabSignal (fabMove (bodyBits c 0x10 36 0) s cid) cid
    else if c.kind = 0x11 then fabAsk s cid c else s

/-- FAB_WRITE, FAB_READ. -/
def fabStart (s : State) (cid kind : Nat) : State :=
  match runnable s cid kind with
  | none => s
  | some c =>
    if c.running then s
    else if fabBad c (kind = 0x10) then finishCmd s cid 0x0F
    else fabGo (setCmd s cid { c with running := true }) cid

/-- TIMED_FAB_START. -/
def timedFab (s : State) (cid : Nat) (t : W64) : State :=
  let s := setTime s t
  match s.cmd? cid with
  | some c =>
    if c.running && (c.kind == 0x10 || c.kind == 0x11) && bodyBits c 0x08 53 53 == 1 && bodyBits c 0x18 63 0 ≤ s.time.toNat then
      fabGo (setCmd s cid { c with due := true }) cid
    else s
  | none => s

/-- FAB_COMMAND_COMPLETE (R389). -/
def fabComplete (s : State) (cid : Nat) : State :=
  let s := fabGo s cid
  match s.cmd? cid with
  | none => s
  | some c =>
    let len := bodyBits c 0x10 36 0
    let full := len + (if c.kind = 0x10 then bodyBits c 0x20 42 42 else 0)
    if !c.running || !(c.kind == 0x10 || c.kind == 0x11) || c.windowWrites ≠ 0 || (c.stopped.isNone && c.progress < full) then s
    else
      let st := c.stopped.getD 0
      endCmd s cid (if st = 0x0F then 5 else 3) st

/-! ## Peers (R373, R374) -/

/-- A peer entry that may be loaded. -/
def readPeer (s : State) (p : Nat) : Option Peer :=
  let r := cohRead s (fld s 11 R.FAB_PEER_TABLE_BASE * 2 ^ 14 + 64 * p) 64
  let w := fun i => leNat ((r.1.drop (8 * i)).take 8)
  let addr := leNat ((r.1.drop 16).take 16)
  let e : Peer := {
    self := bitAt (w 0) 1, ipv6 := bitAt (w 0) 2, direct := bitAt (w 0) 3, secure := bitAt (w 0) 4, compress := bitAt (w 0) 5
    relay := bits (w 0) 15 8, ports := bits (w 0) 31 16, vlan := bits (w 0) 43 32, udp := bits (w 0) 59 44
    inbound := BitVec.ofNat 16 (w 1), addr := BitVec.ofNat 128 addr, nexthop := BitVec.ofNat 48 (w 4) }
  if r.2 || !bitAt (w 0) 0 || bits (w 0) 7 6 != 0 || bits (w 0) 63 60 != 0 || bits (w 1) 63 16 != 0
      || (!e.ipv6 && addr / 2 ^ 32 != 0) || bits (w 4) 63 48 != 0 || (r.1.drop 40).any (· != 0) then none
  else some e

/-- A command of FAB_PEER_CMD. -/
def peerCmd (s : State) (result : Nat) (act : State → State) : State :=
  if fld s 11 R.FAB_PEER_STATUS_BUSY = 1 then setFld s 11 R.FAB_PEER_STATUS_DROPPED 1
  else
    let s := setFld s 11 R.FAB_PEER_STATUS_RESULT result
    if result = 0 then act s else s

/-- PEER_LOAD. -/
def peerLoad (s : State) (p : Nat) : State :=
  match readPeer s p with
  | none => peerCmd s 0x0F id
  | some e =>
    let relayBad := !e.direct && !e.self && ((s.peer? e.relay).map (·.direct)).getD false == false
    let result := if (s.peer? p).isSome || relayBad || (e.compress && !e.secure) || (e.secure && s.fab.secret.isNone) then 0x0F
      else if e.secure && streamDies s == [] then 0x0B else 0
    peerCmd s result fun s =>
      let s := modFab s fun x => { x with
        peers := tset x.peers p e, sessions := tset x.sessions p ((tget x.sessions p 0 + 1) % 65536)
        tx := x.tx.filter fun t => t.1 / 16 != p }
      match (if e.self then none else flowPort s p 0) with
      | some lp => putFrame s (.kft (kftHdr0 s lp p 0 2) [])
      | none => s

/-- Packets of a peer's flows that are queued or not acknowledged. -/
def peerPackets (s : State) (p : Nat) (f : Option Nat) : List KftPkt :=
  (s.fab.tx.filter fun e => e.1 / 16 == p && (f.isNone || f == some (e.1 % 16))).flatMap fun e =>
    e.2.unacked.map (·.pkt) ++ e.2.queue

/-- Reads of a peer, on one flow or all. -/
def peerReads (s : State) (p : Nat) (f : Option Nat) : List (Nat × KftRead) :=
  s.fab.reads.filter fun r => r.2.peer == p && (f.isNone || f == some r.2.flow)

/-- Collective commands in flight of the sets that a peer is a member of. -/
def peerColls (s : State) (p : Nat) : List Nat :=
  (s.fab.sets.filter fun e => e.2.members.any fun m => m.peer == p).flatMap fun e =>
    e.2.steps.flatMap fun t => t.2.primary.toList ++ t.2.backups.map (·.2)

/-- Fabric commands that name a peer. -/
def peerFabs (s : State) (p : Nat) : List Nat :=
  (s.qs.cmds.filter fun c => (c.2.kind == 0x10 || c.2.kind == 0x11) && c.2.running && bodyBits c.2 0x08 49 42 == p).map (·.1)

/-- PEER_UNLOAD. -/
def peerUnload (s : State) (p : Nat) : State :=
  peerCmd s 0 fun s =>
    let ps := peerPackets s p none
    let rs := peerReads s p none
    let colls := peerColls s p
    let s := (peerFabs s p).foldl (fun s cid => stopCmd s cid 0x0F) s
    let s := modFab s fun x => { x with
      peers := tdel x.peers p, tx := x.tx.filter fun t => t.1 / 16 != p, rx := x.rx.filter fun t => t.1 / 16 != p }
    let s := ps.foldl (fun s k => packetLost s k 0x0F) s
    let s := rs.foldl (fun s r => readEnd s r.1 0x0F) s
    colls.foldl (fun s cid => endCmd s cid 5 0x0F) s

/-! ## Receiving (R376 to R379, R382) -/

/-- A packet for another module is forwarded, or dropped and counted (R376). -/
def kftRelay (s : State) (h : KftHdr) (b : List Byte) : State :=
  let die := lpDie h.lp.toNat
  let drop := bumpErr s die R.FAB_ERR_RELAY_DROP
  match s.peer? h.dst.toNat with
  | none => drop
  | some e =>
    let up := (List.range 16).filter fun l => bitAt e.ports l && lpUp s l
    let own := up.filter fun l => lpDie l == die
    let l := if own = [] then up else own
    if !e.direct || e.self || l = [] then drop
    else putFrame s (.relayed { h with lp := BitVec.ofNat 4 (l.getD ((h.flow.toNat + h.dst.toNat) % l.length) 0) } b)

/-- A packet from the wire: for this module from a loaded peer, with the peer's session where `session`; otherwise it is
discarded or forwarded. -/
def kftFrom (s : State) (h : KftHdr) (b : List Byte) (session : Bool) : Sum State Nat :=
  let p := h.src.toNat
  match selfPeer s with
  | none => .inl s
  | some me =>
    if !h.good || h.ver != 1 then .inl s
    else if h.dst.toNat ≠ me then .inl (kftRelay s h b)
    else if (s.peer? p).isNone || (session && tget? s.fab.theirs p != some h.session.toNat) then .inl s
    else .inr p

/-- Has a packet's PSN been received (R379)? -/
def kftSeen (x : KftRx) (psn : W32) : Bool := seqReached (psn + 1) x.next || x.got.contains psn || x.pend.any (·.1 == psn)

/-- Advance ACK_PSN over the packets received. -/
def rxAdvance : Nat → KftRx → KftRx
  | 0, x => x
  | n + 1, x =>
    if x.got.contains x.next then
      rxAdvance n { x with got := x.got.erase x.next, next := x.next + 1, wraps := x.wraps + b2n (x.next == BitVec.allOnes 32) }
    else x

/-- ACK_MAP. -/
def ackMap (x : KftRx) : W64 :=
  BitVec.ofNat 64 (((List.range 64).map fun i => if x.got.contains (x.next + 1 + BitVec.ofNat 32 i) then 2 ^ i else 0).sum)

/-- Landing space has run out on the flow of a set (R393). -/
def landFull (s : State) (f : Nat) : Bool :=
  s.fab.sets.any fun e => 8 + e.1 % 8 == f && e.2.landBytes <
    ((e.2.steps.flatMap fun t => t.2.parts).map fun p => if p.gone then 0 else p.n).sum + 4096

/-- Send an ACK on a flow; with a status, it reports the refusal of a PSN (R379, R380). -/
def kftAckSend (s : State) (p f : Nat) (refused : Option (W32 × Byte)) : State :=
  match flowPort s p f with
  | none => s
  | some lp =>
    let x := s.rx p f
    let give := if landFull s f then 0 else min x.grant 255
    let h := { kftHdr0 s lp p f 1 with
      ece := x.ece, ackPsn := x.next, ackMap := ackMap x, credits := BitVec.ofNat 8 give
      psn := (refused.map (·.1)).getD 0, status := (refused.map (·.2)).getD 0 }
    putFrame (modRx s p f fun x => { x with fresh := 0, ece := false, grant := x.grant - give }) (.kft h [])

/-- A DATA packet has come on a flow: it counts for the next ACK. -/
def rxCount (s : State) (p f : Nat) (ce : Bool) : State :=
  let s := modRx s p f fun x => { x with fresh := x.fresh + 1, ece := x.ece || ce }
  if 16 ≤ (s.rx p f).fresh then kftAckSend s p f none else s

/-- A DATA packet of an OP: performed once by `act`, which answers a status, or none while a line's home is busy. -/
def kftData (s : State) (h : KftHdr) (b : List Byte) (op : Nat) (act : State → Nat → Option (State × Byte)) : State :=
  if h.ptype ≠ 0 ∨ h.op.toNat ≠ op then s
  else match kftFrom s h b true with
    | .inl s => s
    | .inr p =>
      let f := h.flow.toNat
      let x := s.rx p f
      if kftSeen x h.psn then (if seqReached (h.psn + 1) x.next ∧ 2 ^ 20 < (x.next - h.psn).toNat then s else rxCount s p f h.ce)
      else match act s p with
        | none => s
        | some (s, st) => rxCount (modRx s p f fun x => { x with pend := x.pend ++ [(h.psn, st)] }) p f h.ce

/-- KFT_INBOUND_PERFORMED (R379). -/
def kftPerformed (s : State) (p f : Nat) (psn : W32) : State :=
  match (s.rx p f).pend.find? fun e => e.1 == psn with
  | none => s
  | some e =>
    let s := modRx s p f fun x =>
      rxAdvance (x.got.length + 1) { x with pend := x.pend.erase e, got := x.got ++ [psn], grant := x.grant + 1 }
    if e.2 = 0 then s else kftAckSend s p f (some e)

/-- KFT_ACK_TIMER. -/
def kftAckTimer (s : State) (p f : Nat) : State := if 0 < (s.rx p f).fresh then kftAckSend s p f none else s

/-- An inbound one-sided access: in INBOUND_CTX, line by line with its claim checks (R382); a status other than 0 refuses
it, none: a line's home is busy. -/
def inboundCheck (s : State) (p die pa n : Nat) (write : Bool) : Option (State × Byte) :=
  let ctx := ((s.peer? p).map (·.inbound)).getD 0
  if ctx = 0 then some (s, 0x04)
  else if 3 * tib < pa + n then some (s, 0x05)
  else if !rangeIdle s pa n then none
  else some ((List.range (if n = 0 then 0 else (pa + n - 1) / 64 - pa / 64 + 1)).foldl (fun (acc : State × Byte) i =>
    let k := targetCheckBy acc.1 die 0 ctx ((pa / 64 + i) * 64) write
    (k.1, if k.2 then acc.2 else 0x04)) (s, 0))

/-- KFT_DATA_WRITE. -/
def kftWrite (s : State) (h : KftHdr) (b : List Byte) : State :=
  if h.len.toNat ≠ b.length then s
  else kftData s h b 0 fun s p =>
    match inboundCheck s p (lpDie h.lp.toNat) h.offset.toNat b.length true with
    | none => none
    | some (s, st) => some (if st = 0 then cohPut s h.offset.toNat b false else s, st)

/-- KFT_READ_REQUEST: the responses go out on the sender's flow. -/
def kftReadReq (s : State) (h : KftHdr) (len : Nat) : State :=
  kftData s h (leBytes 8 len) 1 fun s p =>
    let pa := h.offset.toNat
    match inboundCheck s p (lpDie h.lp.toNat) pa len false with
    | none => none
    | some (s, st) =>
      if st ≠ 0 ∨ len = 0 ∨ 2 ^ 36 < len then some (s, if st = 0 then 0x0F else st)
      else
        let d := cohRead s pa len
        let rsp : KftPkt := { op := 2, offset := pa, opid := h.opid.toNat }
        if d.2 then some (kftSend s p h.flow.toNat { rsp with status := 0x06 }, 0)
        else
          let n := kftMax s p
          some (((kftCut n (len / n + 1) d.1).zip (List.range (len / n + 1))).foldl (fun s x =>
            kftSend s p h.flow.toNat { rsp with offset := pa + n * x.2, data := x.1 }) s, 0)

/-- KFT_READ_RESPONSE. -/
def kftReadRsp (s : State) (h : KftHdr) (b : List Byte) : State :=
  if h.len.toNat ≠ b.length then s
  else kftData s h b 2 fun s p =>
    let id := h.opid.toNat
    match tget? s.fab.reads id with
    | none => some (s, 0)
    | some r =>
      if r.peer ≠ p then some (s, 0)
      else if h.status ≠ 0 then some (readEnd s id h.status, 0)
      else
        let land : Option (State × Option Byte) := match r.owner with
          | .inl _ => some (s, none)
          | .inr cid => match s.cmd? cid with
            | some c =>
              if c.stopped.isSome then some (s, none)
              else engWrite s (flowDie s p r.flow) (c.queue.toNat % 4) cid c.ctx false
                (BitVec.ofNat 64 (bodyBits c 0 63 0 + (h.offset.toNat - r.offset))) b
            | none => some (s, none)
        match land with
        | none => none
        | some (s, st) =>
          let s := match r.owner, st with
            | .inr cid, some st => stopCmd s cid st
            | _, _ => s
          let r := { r with got := r.got + b.length, data := match r.owner with | .inl _ => r.data ++ b | .inr _ => [] }
          let s := modFab s fun x => { x with reads := tset x.reads id r }
          some (if r.len ≤ r.got then readEnd s id 0 else s, 0)

/-- KFT_SESSION: a new session of the sender; its flows start at PSN 0 (R374). -/
def kftSession (s : State) (h : KftHdr) : State :=
  if h.ptype ≠ 2 then s
  else match kftFrom s h [] false with
    | .inl s => s
    | .inr p => modFab s fun x => { x with
        theirs := tset x.theirs p h.session.toNat, rx := x.rx.filter fun e => e.1 / 16 != p }

/-! ## Acknowledgements, resends, abandonment (R379, R380) -/

/-- Halve cwnd, at most once per cwnd packets acknowledged. -/
def halve (x : KftTx) : KftTx :=
  match x.sinceHalf with
  | some n => if n < x.cwnd then x else { x with cwnd := max 1 (x.cwnd / 2), sinceHalf := some 0, quiet := 0 }
  | none => { x with cwnd := max 1 (x.cwnd / 2), sinceHalf := some 0, quiet := 0 }

/-- cwnd rises by 1 for each cwnd packets acknowledged with no ECE. -/
def cwndRise : Nat → KftTx → KftTx
  | 0, x => x
  | n + 1, x =>
    let q := x.quiet + 1
    cwndRise n (if x.cwnd ≤ q then { x with cwnd := min 1024 (x.cwnd + 1), quiet := 0 } else { x with quiet := q })

/-- `n` packets have been acknowledged. -/
def cwndAck (x : KftTx) (n : Nat) (ece : Bool) : KftTx :=
  let x := { x with sinceHalf := x.sinceHalf.map (· + n) }
  if ece then { halve x with quiet := 0 } else cwndRise n x

/-- A flow is abandoned: its operations end with 0x0C, an event for each context; it starts again with fresh state. -/
def flowAbandon (s : State) (p f : Nat) : State :=
  let ps := peerPackets s p (some f)
  let rs := peerReads s p (some f)
  let die := flowDie s p f
  let ops : List (BitVec 16 × Nat) :=
    (ps.filterMap fun k => match k.owner with
      | .window r => some (r.ctx, 0)
      | .cmd cid => (s.cmd? cid).map fun c => (c.ctx, cid + 1)
      | _ => none)
    ++ rs.filterMap fun r => match r.2.owner with
      | .inl q => some (q.ctx, 0)
      | .inr cid => (s.cmd? cid).map fun c => (c.ctx, cid + 1)
  let once := ops.foldl (fun acc o => if o.2 ≠ 0 ∧ acc.contains o then acc else acc ++ [o]) []
  let ctxs := once.foldl (fun acc o => if acc.contains o.1 then acc else acc ++ [o.1]) []
  let s := modFab s fun x => { x with tx := tdel x.tx (flowKey p f) }
  let s := bumpErr s die R.FAB_ERR_ABANDONED
  let s := ps.foldl (fun s k => packetLost s k 0x0C) s
  let s := rs.foldl (fun s r => readEnd s r.1 0x0C) s
  ctxs.foldl (fun s c => match (s.ctx? c).bind (·.evq) with
    | some q => raiseEvent s q 0x30 c (body4 (p + f * 2 ^ 8 + min 0xFFFF (once.filter (·.1 == c)).length * 2 ^ 16) 0 0 0)
    | none => s) s

/-- KFT_FLOW_ABANDON: 10 ms have passed with unacknowledged packets and no progress, or the flow waits for a port. -/
def kftAbandon (s : State) (p f : Nat) : State :=
  let x := s.tx p f
  if x.unacked = [] ∧ x.queue = [] then s else flowAbandon s p f

/-- Send packets again, each counted; one that has been resent RETRY_MAX times abandons the flow. -/
def kftResend (s : State) (p f : Nat) (which : KftSent → Bool) : State :=
  match flowPort s p f with
  | none => s
  | some lp =>
    let x := s.tx p f
    let again := x.unacked.filter which
    let s := modTx s p f fun x => { x with unacked := x.unacked.map fun k => if which k then { k with resends := k.resends + 1 } else k }
    let s := again.foldl (fun s k => kftPut s lp p f k (x.wrapOf k.psn)) s
    let s := bumpEventAt s (lpDie lp) R.FAB_EVT_COUNT 0 R.FAB_OVF_OVF 0 again.length
    let limit := fld s (lpDie lp) R.FAB_KFT_CFG_RETRY_MAX
    if again.any fun k => limit ≤ k.resends + 1 then flowAbandon s p f else s

/-- KFT_RTO_EXPIRY. -/
def kftRto (s : State) (p f : Nat) (psn : W32) : State :=
  if (s.tx p f).unacked.any fun k => k.psn == psn then kftResend (modTx s p f halve) p f fun k => k.psn == psn else s

/-- KFT_ACK. -/
def kftAck (s : State) (h : KftHdr) : State :=
  if h.ptype ≠ 1 then s
  else match kftFrom s h [] true with
    | .inl s => s
    | .inr p =>
      let f := h.flow.toNat
      let acked := fun (k : KftSent) =>
        let d := (k.psn - h.ackPsn - 1).toNat
        seqReached (k.psn + 1) h.ackPsn || (d < 64 && h.ackMap.getLsbD d) || (h.status != 0 && k.psn == h.psn)
      let x := s.tx p f
      let done := x.unacked.filter acked
      let rest := x.unacked.filter fun k => !acked k
      let top := (List.range 64).foldl (fun t i => if h.ackMap.getLsbD i then some i else t) none
      let gap := fun (k : KftSent) => match top with
        | some t => (k.psn - h.ackPsn).toNat ≤ t
        | none => false
      let s := if h.ece then bumpEventAt s (lpDie h.lp.toNat) R.FAB_EVT_COUNT 1 R.FAB_OVF_OVF 1 1 else s
      let s := modTx s p f fun x =>
        cwndAck { x with unacked := rest, credits := x.credits - done.length + h.credits.toNat } done.length h.ece
      let s := done.foldl (fun s k => packetDone s k.pkt (if k.psn = h.psn then h.status else 0)) s
      let s := if rest.any gap then kftResend s p f gap else s
      let s := kftPump s p f
      (done.filterMap fun k => match k.pkt.owner with | .cmd cid => some cid | _ => none).foldl fabGo s

/-! ## The meanings -/

/-- FAB_PORT_ENABLE. -/
def execFabPortEnable (p : Fin 8) (b enable : Bool) (s : State) : Host.Outcome State Fault Refusal := .next (fabEnable s p b enable)
/-- FAB_PORT_LINK_CHANGE. -/
def execFabPortLinkChange (lp : Fin 16) (up : Bool) (s : State) : Host.Outcome State Fault Refusal := .next (fabLink s lp up)
/-- FAB_PAUSE_RX. -/
def execFabPauseRx (p : Fin 8) (s : State) : Host.Outcome State Fault Refusal := .next (fabPause s p)
/-- FAB_ARP_ND_REQUEST. -/
def execFabArpNdRequest (lp : Fin 16) (addr : BitVec 128) (s : State) : Host.Outcome State Fault Refusal := .next (fabArp s lp addr)
/-- FAB_MODULE_PRESENT. -/
def execFabModulePresent (p : Fin 8) (s : State) : Host.Outcome State Fault Refusal := .next (fabPresent s p)
/-- PEER_LOAD. -/
def execPeerLoad (p : BitVec 8) (s : State) : Host.Outcome State Fault Refusal := .next (peerLoad s p.toNat)
/-- PEER_UNLOAD. -/
def execPeerUnload (p : BitVec 8) (s : State) : Host.Outcome State Fault Refusal := .next (peerUnload s p.toNat)
/-- KFT_DATA_WRITE. -/
def execKftDataWrite (h : KftHdr) (data : List Byte) (s : State) : Host.Outcome State Fault Refusal := .next (kftWrite s h data)
/-- KFT_READ_REQUEST. -/
def execKftReadRequest (h : KftHdr) (len : BitVec 37) (s : State) : Host.Outcome State Fault Refusal :=
  .next (kftReadReq s h len.toNat)
/-- KFT_READ_RESPONSE. -/
def execKftReadResponse (h : KftHdr) (data : List Byte) (s : State) : Host.Outcome State Fault Refusal :=
  .next (kftReadRsp s h data)
/-- KFT_ACK. -/
def execKftAck (h : KftHdr) (s : State) : Host.Outcome State Fault Refusal := .next (kftAck s h)
/-- KFT_SESSION. -/
def execKftSession (h : KftHdr) (s : State) : Host.Outcome State Fault Refusal := .next (kftSession s h)
/-- KFT_INBOUND_PERFORMED. -/
def execKftInboundPerformed (peer : BitVec 8) (flow : BitVec 4) (psn : W32) (s : State) : Host.Outcome State Fault Refusal :=
  .next (kftPerformed s peer.toNat flow.toNat psn)
/-- KFT_ACK_TIMER. -/
def execKftAckTimer (peer : BitVec 8) (flow : BitVec 4) (s : State) : Host.Outcome State Fault Refusal :=
  .next (kftAckTimer s peer.toNat flow.toNat)
/-- KFT_RTO_EXPIRY. -/
def execKftRtoExpiry (peer : BitVec 8) (flow : BitVec 4) (psn : W32) (s : State) : Host.Outcome State Fault Refusal :=
  .next (kftRto s peer.toNat flow.toNat psn)
/-- KFT_FLOW_ABANDON. -/
def execKftFlowAbandon (peer : BitVec 8) (flow : BitVec 4) (s : State) : Host.Outcome State Fault Refusal :=
  .next (kftAbandon s peer.toNat flow.toNat)
/-- FAB_WRITE. -/
def execFabWrite (cid : Nat) (s : State) : Host.Outcome State Fault Refusal := .next (fabStart s cid 0x10)
/-- FAB_READ. -/
def execFabRead (cid : Nat) (s : State) : Host.Outcome State Fault Refusal := .next (fabStart s cid 0x11)
/-- TIMED_FAB_START. -/
def execTimedFabStart (cid : Nat) (t : W64) (s : State) : Host.Outcome State Fault Refusal := .next (timedFab s cid t)
/-- FAB_COMMAND_COMPLETE. -/
def execFabCommandComplete (cid : Nat) (s : State) : Host.Outcome State Fault Refusal := .next (fabComplete s cid)

end Sys2Proof.Machine
end

