-- ==== Sys2Proof/Machine/Coll.lean ====
section
/-! DEFINITION. Collective sets and steps (chapter 13, R390 to R398). -/

namespace Sys2Proof.Machine

/-! ## Sets -/

/-- Change a set. -/
def modSet (s : State) (n : Nat) (g : CollSet → CollSet) : State :=
  modFab s fun x => { x with sets := x.sets.map fun e => if e.1 = n then (e.1, g e.2) else e }

/-- A step of a set; its key is STEP[23:0]. -/
def stepAt (s : State) (n key : Nat) : Option (CollSet × CollStep) :=
  match tget? s.fab.sets n with
  | none => none
  | some e => (tget? e.steps key).map fun t => (e, t)

/-- Put a step. -/
def setStep (s : State) (n key : Nat) (t : CollStep) : State := modSet s n fun e => { e with steps := tset e.steps key t }

/-- Is a command accepted and not ended? -/
def cmdOpen (s : State) (cid : Nat) : Bool :=
  match s.cmd? cid with
  | some c => match c.st with | .ended _ => false | _ => true
  | none => false

/-- Commands of a step. -/
def CollStep.cmds (t : CollStep) : List Nat := t.primary.toList ++ t.backups.map (·.2)

/-- Keys of the steps of a set that are in flight. -/
def inFlightSteps (s : State) (e : CollSet) : List Nat := (e.steps.filter fun t => t.2.cmds.any (cmdOpen s)).map (·.1)

/-- Members of a list read from memory (R390): none when an entry has a RES0 bit. -/
def collMembers (b : List Byte) (n : Nat) : Option (List CollMember) :=
  let w := (List.range n).map fun i => leNat ((b.drop (4 * i)).take 4)
  if w.any fun x => bits x 31 15 != 0 then none
  else some (w.map fun x => { peer := bits x 7 0, backup := if bitAt x 14 then some (bits x 13 8) else none })

/-- May a member list be registered (R390)? -/
def membersOk (s : State) (l : List CollMember) : Bool :=
  let ps := l.map (·.peer)
  ps.all (fun p => (s.peer? p).isSome) && (distinct ps).length == ps.length
    && (ps.filter fun p => some p == selfPeer s).length == 1
    && (l.zip (List.range l.length)).all fun x => match x.1.backup with
      | some b => b != x.2 && b < l.length
      | none => true

/-- COLL_SET. -/
def collSetCmd (s : State) (cid : Nat) : State :=
  match runnable s cid 0x12 with
  | none => s
  | some c =>
    let f := bodyBits c
    let n := f 0 13 8 + 1
    let bad := f 0 31 14 != 0 || f 0 63 51 != 0 || f 0x18 63 40 != 0 || n < 2 || f 8 1 0 != 0 || f 0x10 11 0 != 0
      || f 0x18 11 0 != 0 || f 0x18 39 0 < 65536 || (tget? s.fab.sets (f 0 7 0)).isSome
    if bad then finishCmd s cid 0x0F
    else match engRead s 11 4 c.ctx false (BitVec.ofNat 64 (f 8 63 0)) (4 * n) with
      | none => s
      | some (s, .inr st) => finishCmd s cid st
      | some (s, .inl b) =>
        match collMembers b n with
        | none => finishCmd s cid 0x0F
        | some l =>
          if !membersOk s l then finishCmd s cid 0x0F
          else
            let e : CollSet := {
              ctx := c.ctx, members := l, me := l.findIdx fun m => some m.peer == selfPeer s
              land := BitVec.ofNat 64 (f 0x10 63 0), landBytes := f 0x18 39 0, lead := f 0x20 31 0, window := f 0x20 63 32
              grace := f 0x28 31 0, wait := f 0x28 63 32
              evq := if f 0 50 50 = 1 then some (BitVec.ofNat 18 (f 0 49 32)) else none }
            finishCmd (modFab s fun x => { x with sets := tset x.sets (f 0 7 0) e }) cid 0

/-- A set with no step in flight whose release waits is removed (R396). -/
def collReleaseCheck (s : State) (n : Nat) : State :=
  match tget? s.fab.sets n with
  | none => s
  | some e =>
    match e.releasing with
    | some cid =>
      if inFlightSteps s e = [] then finishCmd (modFab s fun x => { x with sets := tdel x.sets n }) cid 0 else s
    | none => s

/-- COLL_RELEASE. -/
def collRelease (s : State) (cid : Nat) : State :=
  match runnable s cid 0x13 with
  | none => s
  | some c =>
    let n := bodyBits c 0 7 0
    if c.running then s
    else match tget? s.fab.sets n with
      | none => finishCmd s cid 0x0F
      | some e =>
        if bodyBits c 0 63 8 != 0 || (c.body.drop 8).any (· != 0) || e.ctx != c.ctx || e.releasing.isSome then finishCmd s cid 0x0F
        else
          let s := modSet (setCmd s cid { c with running := true }) n fun e => { e with releasing := some cid }
          collReleaseCheck s n

/-! ## Commands (R391) -/

/-- Fields of a command's body. -/
def collCmd (c : Cmd) : CollCmd :=
  let f := bodyBits c
  { set := f 0 7 0, opc := f 0 10 8, brole := f 0 11 11 == 1, for_ := f 0 17 12, root := f 0 23 18, etype := f 0 25 24
    dim := 32 * (f 0 28 26 + 1), heads := f 0 40 29 + 1, step := BitVec.ofNat 32 (f 8 31 0), src := BitVec.ofNat 64 (f 0x10 63 0)
    dst := BitVec.ofNat 64 (f 0x18 63 0), count := f 0x20 39 0 }

/-- Key of a step. -/
def CollCmd.key (k : CollCmd) : Nat := k.step.toNat % 2 ^ 24

/-- Bytes of an element in memory. -/
def CollCmd.esize (k : CollCmd) : Nat := if k.etype = 0 then 4 else 2

/-- Member whose contribution a command sends. -/
def CollCmd.member (k : CollCmd) (me : Nat) : Nat := if k.brole then k.for_ else me

/-- Fields within their ranges, RES0 zero (R391). -/
def collFieldsOk (c : Cmd) (k : CollCmd) (n : Nat) : Bool :=
  let f := bodyBits c
  f 0 63 41 == 0 && f 8 63 32 == 0 && f 0x20 63 40 == 0 && f 0x28 63 0 == 0
    && (match k.opc with
      | 0 => k.count == 0
      | 1 => k.root < n && k.count % 16 == 0
      | 2 => k.count % 16 == 0
      | 3 => k.etype < 2
      | _ => k.root < n && 1 ≤ f 0 28 26 && k.count == 0)

/-- Step rules of R391. -/
def collStepOk (s : State) (e : CollSet) (k : CollCmd) : Bool :=
  let fl := inFlightSteps s e
  let t := (tget? e.steps k.key).getD { step := k.step }
  (fl.contains k.key || fl.length < 4)
    && if k.brole then
        k.for_ < e.members.length && k.for_ != e.me && (e.members.getD k.for_ ⟨0, none⟩).backup == some e.me
          && (fl.contains k.key || k.step == e.last || k.step == e.last + 1) && !t.backups.any (·.1 == k.for_)
      else k.step == e.last + 1

/-- Does member `j` use member `m`'s contribution (R391)? -/
def CollCmd.uses (k : CollCmd) (m j : Nat) : Bool :=
  m != j && match k.opc with
    | 0 => false
    | 1 => m == k.root
    | 4 => j == k.root
    | _ => true

/-- Bytes of a merge's contribution. -/
def CollCmd.records (k : CollCmd) : Nat := k.heads * (16 + 4 * k.dim)

/-- Bytes of a contribution as it travels. -/
def CollCmd.size (k : CollCmd) : Nat := match k.opc with
  | 3 => 4 * k.count
  | 4 => k.records
  | _ => k.count

/-- Where in SRC a contribution for member `j` lies, and its bytes there. -/
def CollCmd.place (k : CollCmd) (j : Nat) : Nat × Nat := match k.opc with
  | 3 => (j * k.count * k.esize, k.count * k.esize)
  | 4 => (0, k.records)
  | _ => (0, k.count)

/-- Words of some bytes. -/
def words32 (b : List Byte) : List W32 := (List.range (b.length / 4)).map fun i => BitVec.ofNat 32 (leNat ((b.drop (4 * i)).take 4))

/-- Bytes of some words. -/
def words32Bytes (l : List W32) : List Byte := l.flatMap fun w => leBytes 4 w.toNat

/-- A shard in memory as FP32 (R391): BF16 is widened exactly. -/
def CollCmd.widen (k : CollCmd) (b : List Byte) : List Byte :=
  if k.opc = 3 ∧ k.etype = 1 then
    (List.range (b.length / 2)).flatMap fun i => leBytes 2 0 ++ (b.drop (2 * i)).take 2
  else b

/-- The contribution of a command for member `j`. -/
def contribution (s : State) (c : Cmd) (k : CollCmd) (j : Nat) : Option (State × Sum (List Byte) Byte) :=
  let p := k.place j
  (engRead s 11 4 c.ctx true (k.src + BitVec.ofNat 64 p.1) p.2).map fun r => (r.1, r.2.map k.widen id)

/-! ## Combining (R198, R394) -/

/-- Canonical NaN in FP32. -/
abbrev collNan : W32 := 0x7FC00000

/-- Is a word a NaN? -/
def f32IsNan (w : W32) : Bool := (fp32.decode w.toNat).isNan

/-- Merge of one head's record (R197, R198): words m, l, two of RES0, then o. -/
def mergeHead (a b : List W32) : List W32 :=
  let ma := a.getD 0 0
  let mb := b.getD 0 0
  let val := fun (l : List W32) => l.take 2 ++ l.drop 4
  if (val a ++ val b).any f32IsNan then [collNan, collNan, 0, 0] ++ (a.drop 4).map fun _ => collNan
  else if ma = f32NegInf ∧ mb = f32NegInf then [f32NegInf, 0, 0, 0] ++ (a.drop 4).map fun _ => 0
  else
    let m := f32Max ma mb
    let wa := sfOp 3 (f32Sub ma m)
    let wb := sfOp 3 (f32Sub mb m)
    let mix := fun (x y : W32) => fpOp 0 0 y wb (f32Mul x wa)
    [m, mix (a.getD 1 0) (b.getD 1 0), 0, 0] ++ List.zipWith mix (a.drop 4) (b.drop 4)

/-- Merge of every head. -/
def mergeRecords (k : CollCmd) (a b : List W32) : List W32 :=
  let n := 4 + k.dim
  (List.range k.heads).flatMap fun h => mergeHead ((a.drop (n * h)).take n) ((b.drop (n * h)).take n)

/-- A taken contribution of member `m` is combined. -/
def combine (k : CollCmd) (m : Nat) (b : List Byte) (t : CollStep) : CollStep := match k.opc with
  | 1 => { t with out := tset t.out 0 b }
  | 2 => { t with out := tset t.out (m * k.count) b }
  | 3 => { t with run := List.zipWith f32Add t.run (words32 b) }
  | _ => { t with run := mergeRecords k t.run (words32 b) }

/-- A missing contribution: every result element it would have reached is a NaN (R394). -/
def combineMissing (k : CollCmd) (m : Nat) (t : CollStep) : CollStep :=
  let pat := words32Bytes (List.replicate (k.count / 4) collNan)
  match k.opc with
  | 1 => { t with out := tset t.out 0 pat }
  | 2 => { t with out := tset t.out (m * k.count) pat }
  | 3 => { t with run := t.run.map fun _ => collNan }
  | _ => { t with run := (t.run.zip (List.range t.run.length)).map fun x =>
      if x.2 % (4 + k.dim) = 2 ∨ x.2 % (4 + k.dim) = 3 then 0 else collNan }

/-- The result as bytes of DST, by offset. -/
def collResult (k : CollCmd) (me : Nat) (t : CollStep) : Tbl (List Byte) := match k.opc with
  | 0 => []
  | 3 => [(0, if k.etype = 0 then words32Bytes t.run
      else t.run.flatMap fun w => leBytes 2 (bf16.encode .rne (fp32.decode w.toNat)))]
  | 4 => if me = k.root then [(0, words32Bytes t.run)] else []
  | _ => t.out

/-! ## Steps (R392, R393) -/

/-- D of a step. -/
def CollStep.deadline (t : CollStep) (e : CollSet) : Option Nat := t.start.map fun x => x.toNat + e.window + e.grace

/-- The bytes of a part in order. -/
def CollPart.bytes (p : CollPart) : List Byte := p.data.flatMap (·.2)

/-- Members whose contribution this module uses. -/
def sendersOf (e : CollSet) (k : CollCmd) : List Nat := (List.range e.members.length).filter fun m => k.uses m e.me

/-- Take a complete part. -/
def takePart (k : CollCmd) (p : CollPart) (t : CollStep) : CollStep :=
  let t := combine k p.member p.bytes t
  { t with
    taken := tset t.taken p.member (if p.backup then .backup else .primary)
    parts := t.parts.map fun q => if q.member = p.member ∧ (q.backup = p.backup ∨ q.done) then { q with gone := true, data := [] } else q }

/-- Look at the parts of a step whose own command is accepted: complete ones are taken, held, or discarded and counted
(R393). Gives the step and the late contributions. -/
def settleParts (k : CollCmd) (t : CollStep) : CollStep × Nat :=
  let order := t.parts.filter (fun p => !p.backup) ++ t.parts.filter (·.backup)
  order.foldl (fun (acc : CollStep × Nat) p =>
    let t := acc.1
    if p.gone || p.n < k.size then acc
    else
      let t := { t with parts := t.parts.map fun q =>
        if q.member = p.member ∧ q.backup = p.backup then { q with done := true } else q }
      if (tget? t.taken p.member).isSome then
        ({ t with parts := t.parts.map fun q =>
            if q.member = p.member ∧ q.backup = p.backup then { q with gone := true, data := [] } else q }, acc.2 + 1)
      else if !p.backup || t.late then (takePart k { p with done := true } t, acc.2)
      else (t, acc.2)) (t, 0)

/-- Settle a step; empty contributions are complete at once. -/
def collSettle (s : State) (n key die : Nat) : State :=
  match stepAt s n key with
  | none => s
  | some (e, t) =>
    match t.primary, t.k with
    | some _, some k =>
      let t := if k.size = 0 then { t with taken := (sendersOf e k).foldl (fun x m => tset x m .primary) t.taken } else t
      let r := settleParts k t
      bumpEventAt (setStep s n key r.1) die R.FAB_EVT_COUNT 2 R.FAB_OVF_OVF 2 r.2
    | _, _ => s

/-- Send a packet of a command to a member; a member whose peer is not loaded marks the command. -/
def collPacket (s : State) (cid n : Nat) (e : CollSet) (j : Nat) (k : KftPkt) : State :=
  let p := (e.members.getD j ⟨0, none⟩).peer
  if (s.peer? p).isNone then collMark s cid 0x0F
  else kftSend (cmdOut s cid) p (8 + n % 8) { k with owner := .cmd cid, set := n }

/-- Contributions of a command for the members that use it, read from SRC: none while a line is busy. -/
def collGather (s : State) (c : Cmd) (k : CollCmd) : List Nat → Option (State × List (Nat × List Byte) × Option Byte)
  | [] => some (s, [], none)
  | j :: js =>
    match collGather s c k js with
    | none => none
    | some (s, l, some st) => some (s, l, some st)
    | some (s, l, none) =>
      match contribution s c k j with
      | none => none
      | some (s, .inr st) => some (s, l, some st)
      | some (s, .inl b) => some (s, (j, b) :: l, none)

/-- A command of a step sends its contributions (R391, R392). A backup's own copy lands here; an all-gather keeps the
member's own bytes. -/
def collSendCmd (s : State) (n key cid : Nat) : State :=
  match stepAt s n key, s.cmd? cid with
  | some (e, t), some c =>
    let k := collCmd c
    let m := k.member e.me
    let own := !k.brole && k.opc == 2
    let l := (List.range e.members.length).filter fun j => k.uses m j || (own && j == e.me)
    if t.sent.contains cid then s
    else match collGather s c k l with
      | none => s
      | some (s, _, some st) => collMark (setStep s n key { t with sent := t.sent ++ [cid] }) cid st
      | some (s, ds, none) =>
        let t := { t with sent := t.sent ++ [cid] }
        let t := ds.foldl (fun t d =>
          if d.1 ≠ e.me then t
          else if own then { t with out := tset t.out (e.me * k.count) d.2 }
          else { t with parts := t.parts ++ [{ member := m, backup := true, n := d.2.length, data := [(0, d.2)] }] }) t
        let s := setStep s n key t
        ds.foldl (fun s d =>
          if d.1 = e.me ∨ d.2 = [] then s
          else
            let mx := kftMax s (e.members.getD d.1 ⟨0, none⟩).peer
            ((kftCut mx (d.2.length / mx + 1) d.2).zip (List.range (d.2.length / mx + 1))).foldl (fun s x =>
              collPacket s cid n e d.1 { op := 3, offset := mx * x.2, member := m, backup := k.brole, opid := key, data := x.1 }) s) s
  | _, _ => s

/-- Status of a collective command: the first of the list that applies (R395). -/
def collStatus (marks : List Byte) : Byte :=
  (([0x0F, 0x05, 0x04, 0x06, 0x0B, 0x0C, 0x08] : List Byte).find? fun b => marks.contains b).getD 0

/-- A collective command ends. -/
def collEnd (s : State) (cid : Nat) (status : Byte) (info : Nat) : State :=
  let s := modCmd s cid fun c => { c with info := BitVec.ofNat 32 info }
  endCmd (modFab s fun x => { x with marks := tdel x.marks cid }) cid (if status = 0x0F then 5 else 3) status

/-- What happens at S: the commands accepted send; a barrier completes (R392). -/
def collAtS (s : State) (n key : Nat) : State :=
  match stepAt s n key with
  | none => s
  | some (e, t) =>
    match t.start with
    | none => s
    | some x =>
      if s.time.toNat < x.toNat then s
      else
        let s := t.cmds.foldl (fun s cid => collSendCmd s n key cid) s
        let s := match t.primary with
          | some cid => match s.cmd? cid with
            | some c =>
              if (collCmd c).opc = 0 ∧ cmdOpen s cid then
                let ms := tget s.fab.marks cid [] ++ (if t.absent then [0x0C] else []) ++ if t.stoodIn then [0x08] else []
                collReleaseCheck (collEnd s cid (collStatus ms) 0) n
              else s
            | none => s
          | none => s
        collSettle s n key (flowDie s (e.members.getD 0 ⟨0, none⟩).peer (8 + n % 8))

/-- Fix T and S of a step (R392). -/
def fixStep (s : State) (n key : Nat) (t : CollStep) (as : List W64) (stoodIn absent : Bool) : State :=
  let x := as.foldl (fun m a => max m a.toNat) s.time.toNat
  setStep s n key { t with fixed := true, start := some (BitVec.ofNat 64 x), stoodIn := stoodIn, absent := absent }

/-- T is fixed once every member has a primary announcement. -/
def tryFix (s : State) (n key : Nat) : State :=
  match stepAt s n key with
  | none => s
  | some (e, t) =>
    let prim := fun m => (t.anns.find? fun a => a.member == m && !a.backup).map (·.a)
    let as := (List.range e.members.length).filterMap prim
    if t.fixed || as.length < e.members.length then s else fixStep s n key t as false false

/-- A COLL is accepted by its engine: READY goes out; the step is joined (R392). -/
def collAccept (s : State) (cid : Nat) (c : Cmd) (k : CollCmd) (e : CollSet) (run : List W32) : State :=
  let n := k.set
  let m := k.member e.me
  let a := c.acceptedAt + BitVec.ofNat 64 e.lead
  let t0 := (tget? e.steps k.key).getD { step := k.step }
  let t1 := if t0.step ≠ k.step ∧ t0.primary.isSome then { step := k.step } else { t0 with step := k.step }
  let t2 := if k.brole then { t1 with backups := t1.backups ++ [(k.for_, cid)] } else { t1 with primary := some cid, k := some k, run := run }
  let t3 := if t2.fixed then t2 else { t2 with anns := t2.anns ++ [⟨m, k.brole, a⟩] }
  let t4 := match t3.first with
    | some x => if k.brole then t3
      else { t3 with fixed := true, start := some x, late := decide (x.toNat + e.window + e.grace ≤ s.time.toNat) }
    | none => t3
  let s := setCmd s cid { c with running := true }
  let s := setStep s n k.key t4
  let s := if k.brole then s else modSet s n fun e => { e with last := k.step }
  let s := match t4.landBad with
    | some st => if k.brole then s else collMark s cid st
    | none => s
  let others := (List.range e.members.length).filter (· != e.me)
  let s := others.foldl (fun s j =>
    collPacket s cid n e j { op := 4, member := m, backup := k.brole, opid := k.key, data := leBytes 8 a.toNat }) s
  let s := tryFix s n k.key
  let s := if t4.first.isSome && !k.brole then collSendCmd s n k.key cid else s
  collSettle (collAtS s n k.key) n k.key 11

/-- A COLL command of an OPC (R391). -/
def collRow (s : State) (cid opc : Nat) (t : W64) : State :=
  let s := setTime s t
  match runnable s cid 0x14 with
  | none => s
  | some c =>
    let k := collCmd c
    if c.running then s
    else if 5 ≤ k.opc then finishCmd s cid 0x0F
    else if k.opc ≠ opc then s
    else match tget? s.fab.sets k.set with
      | none => finishCmd s cid 0x0F
      | some e =>
        if e.ctx != c.ctx || !collFieldsOk c k e.members.length || !collStepOk s e k then finishCmd s cid 0x0F
        else if !k.brole && (k.opc == 3 || (k.opc == 4 && e.me == k.root)) then
          match contribution s c k e.me with
          | none => s
          | some (s, .inl b) => collAccept s cid c k e (words32 b)
          | some (s, .inr st) => collMark (collAccept s cid c k e (List.replicate (k.size / 4) collNan)) cid st
        else collAccept s cid c k e []

/-- Does a packet of a step come from the member or the backup it names? -/
def collFromOk (e : CollSet) (h : KftHdr) : Bool :=
  let m := e.members.getD h.member.toNat ⟨256, none⟩
  if h.backup then match m.backup with
    | some b => (e.members.getD b ⟨256, none⟩).peer == h.src.toNat
    | none => false
  else m.peer == h.src.toNat

/-- KFT_READY. -/
def kftReady (s : State) (h : KftHdr) (a t : W64) : State :=
  let s := setTime s t
  kftData s h (leBytes 8 a.toNat) 4 fun s _ =>
    let n := h.set.toNat
    let key := h.opid.toNat
    match tget? s.fab.sets n with
    | none => some (s, 0)
    | some e =>
      let x := (tget? e.steps key).getD { step := BitVec.ofNat 32 key }
      if !collFromOk e h || x.fixed || x.anns.any (fun y => y.member == h.member.toNat && y.backup == h.backup) then some (s, 0)
      else some (tryFix (setStep s n key { x with anns := x.anns ++ [⟨h.member.toNat, h.backup, a⟩] }) n key, 0)

/-- D passes: members without a complete primary take a complete backup copy (R393). -/
def deadlinePass (s : State) (n key die : Nat) : State :=
  match stepAt s n key with
  | none => s
  | some (e, t) =>
    match t.deadline e with
    | some d => if d ≤ s.time.toNat ∧ !t.late then collSettle (setStep s n key { t with late := true }) n key die else s
    | none => s

/-- COLL_DEADLINE. -/
def collDeadline (s : State) (n : Nat) (step : W32) (t : W64) : State := deadlinePass (setTime s t) n (step.toNat % 2 ^ 24) 11

/-- Put a piece of a contribution into its part. -/
def landPiece (t : CollStep) (m : Nat) (backup : Bool) (ofs : Nat) (b : List Byte) : CollStep :=
  let put := fun (p : CollPart) => { p with n := p.n + b.length, data := if p.gone then [] else tset p.data ofs b }
  if t.parts.any fun p => p.member == m && p.backup == backup then
    { t with parts := t.parts.map fun p => if p.member = m ∧ p.backup = backup then put p else p }
  else { t with parts := t.parts ++ [put { member := m, backup := backup }] }

/-- KFT_COLL_DATA (R392, R393). -/
def kftColl (s : State) (h : KftHdr) (b : List Byte) (t : W64) : State :=
  let s := setTime s t
  if h.len.toNat ≠ b.length then s
  else kftData s h b 3 fun s _ =>
    let n := h.set.toNat
    let key := h.opid.toNat
    let die := lpDie h.lp.toNat
    match tget? s.fab.sets n with
    | none => some (s, 0)
    | some e =>
      if !collFromOk e h then some (s, 0)
      else
        let x := (tget? e.steps key).getD { step := BitVec.ofNat 32 key }
        let ofs := Config.landPlace n key h.member.toNat h.backup h.offset.toNat % (e.landBytes / 4096) * 4096
        match engWrite s 11 4 (x.primary.getD (2 ^ 64)) e.ctx true (e.land + BitVec.ofNat 64 ofs) b with
        | none => none
        | some (s, st) =>
          let x := { x with first := if x.primary.isNone ∧ x.first.isNone then some s.time else x.first }
          match st with
          | some st =>
            let s := setStep s n key { x with landBad := some st }
            some (match x.primary with | some cid => collMark s cid st | none => s, 0)
          | none =>
            let s := deadlinePass (setStep s n key x) n key die
            let x := ((stepAt s n key).map (·.2)).getD x
            some (collSettle (setStep s n key (landPiece x h.member.toNat h.backup h.offset.toNat b)) n key die, 0)

/-- COLL_SEND_INSTANT. -/
def collSendInstant (s : State) (n : Nat) (step : W32) (t : W64) : State := collAtS (setTime s t) n (step.toNat % 2 ^ 24)

/-- COLL_WAIT_EXPIRY (R392). -/
def collWait (s : State) (n : Nat) (step : W32) (t : W64) : State :=
  let s := setTime s t
  let key := step.toNat % 2 ^ 24
  match stepAt s n key with
  | none => s
  | some (e, x) =>
    match x.anns with
    | [] => s
    | a0 :: as =>
      let first := as.foldl (fun m a => min m a.a.toNat) a0.a.toNat
      if x.fixed || s.time.toNat < first + e.wait then s
      else
        let ms := List.range e.members.length
        let of_ := fun (m : Nat) (b : Bool) => (x.anns.find? fun a => a.member == m && a.backup == b).map (·.a)
        let as := ms.filterMap fun m => match of_ m false with
          | some a => some a
          | none => of_ m true
        let stood := ms.any fun m => (of_ m false).isNone && (of_ m true).isSome
        let absent := ms.any fun m => (of_ m false).isNone && (of_ m true).isNone
        collAtS (fixStep s n key x as stood absent) n key

/-- COLL_MISSING_TIMEOUT (R393). -/
def collMissing (s : State) (n : Nat) (step : W32) (t : W64) : State :=
  let key := step.toNat % 2 ^ 24
  let s := deadlinePass (setTime s t) n key 11
  match stepAt s n key with
  | none => s
  | some (e, x) =>
    match x.deadline e, x.primary.bind s.cmd? with
    | some d, some c =>
      if s.time.toNat < d + 10000000 then s
      else
        let k := collCmd c
        let gone := (sendersOf e k).filter fun m => (tget? x.taken m).isNone
        setStep s n key (gone.foldl (fun x m => { combineMissing k m x with taken := tset x.taken m .missing }) x)
    | _, _ => s

/-- Write a step's result into DST: none while a line's home is busy; otherwise the status of a failure. -/
def collWrite (s : State) (cid : Nat) (c : Cmd) (k : CollCmd) : Tbl (List Byte) → Option (State × Option Byte)
  | [] => some (s, none)
  | (ofs, b) :: rest =>
    match collWrite s cid c k rest with
    | none => none
    | some (s, some st) => some (s, some st)
    | some (s, none) => engWrite s 11 4 cid c.ctx true (k.dst + BitVec.ofNat 64 ofs) b

/-- The set and step of a command in flight. -/
def collOf (s : State) (cid : Nat) : Option (Nat × Nat) :=
  s.fab.sets.findSome? fun e => (e.2.steps.find? fun t => t.2.cmds.contains cid).map fun t => (e.1, t.1)

/-- COLL_COMPLETE (R395). -/
def collComplete (s : State) (cid : Nat) : State :=
  match collOf s cid with
  | none => s
  | some (n, key) =>
    match stepAt s n key, s.cmd? cid with
    | some (e, x), some c =>
      let k := collCmd c
      let done := k.brole || (sendersOf e k).all fun m => (tget? x.taken m).isSome
      if !cmdOpen s cid || (k.opc == 0 && !k.brole) || !x.sent.contains cid || !done || c.windowWrites != 0 then s
      else
        let w := if k.brole || x.written then some (s, none) else collWrite s cid c k (collResult k e.me x)
        match w with
        | none => s
        | some (s, st) =>
          let s := if k.brole then s else setStep s n key { x with written := true, parts := x.parts.map fun p => { p with data := [] }, run := [], out := [] }
          let s := match st with | some st => collMark s cid st | none => s
          if ((s.cmd? cid).map (·.windowWrites)).getD 0 ≠ 0 then s
          else
            let nb := (x.taken.filter fun y => y.2 == .backup).length
            let nm := (x.taken.filter fun y => y.2 == .missing).length
            let ms := tget s.fab.marks cid [] ++ if k.brole then [] else (if 0 < nm then [0x0C] else []) ++ if 0 < nb then [0x08] else []
            collReleaseCheck (collEnd s cid (collStatus ms) (if k.brole then 0 else nb + nm * 256)) n
    | _, _ => s

/-! ## Resets (R389, R396, R398) -/

/-- The sets of a context go, and their steps in flight complete with 0x0F; its fabric commands stop (R389, R396). -/
def fabContextReset (s : State) (ctx : BitVec 16) : State :=
  let mine := s.fab.sets.filter fun e => e.2.ctx == ctx
  let cids := mine.flatMap fun e => (e.2.steps.flatMap fun t => t.2.cmds) ++ e.2.releasing.toList
  let s := modFab s fun x => { x with sets := x.sets.filter fun e => e.2.ctx != ctx }
  let s := cids.foldl (fun s cid => endCmd s cid 5 0x0F) s
  let fabs := (s.qs.cmds.filter fun c => c.2.ctx == ctx && c.2.running && (c.2.kind == 0x10 || c.2.kind == 0x11)).map (·.1)
  fabs.foldl (fun s cid => stopCmd s cid 0x0F) s

/-- A warm reset unloads every peer and removes every set (R398). -/
def fabWarmReset (s : State) : State :=
  modFab s fun x => { x with peers := [], tx := [], rx := [], reads := [], theirs := [], sets := [], marks := [] }

/-- A die reset of a fabric die abandons every flow that its ports carry; others remap (R398). -/
def fabDieReset (s : State) (die : Nat) : State :=
  let mine := s.fab.tx.filter fun e => match flowPort s (e.1 / 16) (e.1 % 16) with
    | some lp => lpDie lp == die
    | none => false
  mine.foldl (fun s e => kftAbandon s (e.1 / 16) (e.1 % 16)) s

/-! ## The meanings -/

/-- KFT_COLL_DATA. -/
def execKftCollData (h : KftHdr) (data : List Byte) (t : W64) (s : State) : Host.Outcome State Fault Refusal :=
  .next (kftColl s h data t)
/-- KFT_READY. -/
def execKftReady (h : KftHdr) (a t : W64) (s : State) : Host.Outcome State Fault Refusal := .next (kftReady s h a t)
/-- COLL_SET. -/
def execCollSet (cid : Nat) (s : State) : Host.Outcome State Fault Refusal := .next (collSetCmd s cid)
/-- COLL_RELEASE. -/
def execCollRelease (cid : Nat) (s : State) : Host.Outcome State Fault Refusal := .next (collRelease s cid)
/-- COLL_BARRIER. -/
def execCollBarrier (cid : Nat) (t : W64) (s : State) : Host.Outcome State Fault Refusal := .next (collRow s cid 0 t)
/-- COLL_BROADCAST. -/
def execCollBroadcast (cid : Nat) (t : W64) (s : State) : Host.Outcome State Fault Refusal := .next (collRow s cid 1 t)
/-- COLL_ALL_GATHER. -/
def execCollAllGather (cid : Nat) (t : W64) (s : State) : Host.Outcome State Fault Refusal := .next (collRow s cid 2 t)
/-- COLL_REDUCE_SCATTER. -/
def execCollReduceScatter (cid : Nat) (t : W64) (s : State) : Host.Outcome State Fault Refusal := .next (collRow s cid 3 t)
/-- COLL_MERGE_PARTIALS. -/
def execCollMergePartials (cid : Nat) (t : W64) (s : State) : Host.Outcome State Fault Refusal := .next (collRow s cid 4 t)
/-- COLL_WAIT_EXPIRY. -/
def execCollWaitExpiry (set : BitVec 8) (step : W32) (t : W64) (s : State) : Host.Outcome State Fault Refusal :=
  .next (collWait s set.toNat step t)
/-- COLL_DEADLINE. -/
def execCollDeadline (set : BitVec 8) (step : W32) (t : W64) (s : State) : Host.Outcome State Fault Refusal :=
  .next (collDeadline s set.toNat step t)
/-- COLL_MISSING_TIMEOUT. -/
def execCollMissingTimeout (set : BitVec 8) (step : W32) (t : W64) (s : State) : Host.Outcome State Fault Refusal :=
  .next (collMissing s set.toNat step t)
/-- COLL_COMPLETE. -/
def execCollComplete (cid : Nat) (s : State) : Host.Outcome State Fault Refusal := .next (collComplete s cid)
/-- COLL_SEND_INSTANT. -/
def execCollSendInstant (set : BitVec 8) (step : W32) (t : W64) (s : State) : Host.Outcome State Fault Refusal :=
  .next (collSendInstant s set.toNat step t)

end Sys2Proof.Machine
end

