-- ==== Sys2Proof/Machine/Launch.lean ====
section
/-! DEFINITION. Launches (chapter 02, R386): the launch descriptor, pending kernels and the start of a block. -/

namespace Sys2Proof.Machine

/-- The kernel that a launch descriptor in a command's body describes (R42). -/
def launchKernel (s : State) (cid : Nat) (c : Cmd) : Kernel :=
  let f := bodyBits c
  let panyx := isPanyx s c.ctx
  { cid := cid, ctx := c.ctx
    entry := BitVec.ofNat 64 (f 0 63 0), params := BitVec.ofNat 64 (f 8 63 0)
    gx := f 0x10 31 0, gy := f 0x10 47 32, gz := f 0x10 63 48
    bx := f 0x18 10 0, by_ := f 0x18 21 11, bz := f 0x18 31 22
    regs := f 0x18 39 32, grans := f 0x18 46 40
    width := if panyx then 32 else 16 * 2 ^ f 0x18 48 47
    ctrMode := BitVec.ofNat 2 (f 0x18 50 49)
    stopBlockOnly := f 0x18 51 51 == 1, timed := f 0x18 52 52 == 1
    dieMask := BitVec.ofNat 16 (f 0x20 15 0), spurMask := BitVec.ofNat 8 (f 0x20 23 16)
    stall := f 0x20 47 32, maxBlocks := f 0x20 52 48
    faultQueue := BitVec.ofNat 18 (f 0x28 17 0), tag := BitVec.ofNat 32 (f 0x28 63 32)
    startAt := BitVec.ofNat 64 (f 0x30 63 0), panyx := panyx }

/-- RES0 fields of a launch descriptor and of the rest of its body. -/
def launchRes0 (c : Cmd) : Bool :=
  let f := bodyBits c
  f 0x18 63 53 == 0 && f 0x20 31 24 == 0 && f 0x20 63 53 == 0 && f 0x28 31 18 == 0 && f 0x38 63 0 == 0
    && (c.body.drop 64).all (· == 0)

/-- Blocks of a kernel that one empty Spur holds (R41, Allocation and occupancy). -/
def occupancy (k : Kernel) : Nat :=
  let a := 8 * ceilDiv k.regs 8
  let units := min 16 (32768 / (k.width * a))
  let g := k.shape.groups
  min (min 16 (2 * units / g)) (min (if k.grans = 0 then 16 else 120 / k.grans) (if k.maxBlocks = 0 then 16 else k.maxBlocks))

/-- Is a descriptor accepted (R40 to R44, R386)? -/
def launchOk (c : Cmd) (k : Kernel) : Bool :=
  launchRes0 c && (k.panyx || bodyBits c 0x18 48 47 != 3)
    && k.entry.toNat % 8 == 0 && k.params.toNat % 64 == 0
    && 1 ≤ k.gx && 1 ≤ k.gy && 1 ≤ k.gz && k.gx * k.gy * k.gz ≤ 2 ^ 32 - 1
    && 1 ≤ k.bx && k.bx ≤ 1024 && 1 ≤ k.by_ && k.by_ ≤ 1024 && 1 ≤ k.bz && k.threads ≤ 1024 && k.shape.groups ≤ 32
    && 1 ≤ k.regs && k.grans ≤ 120 && k.maxBlocks ≤ 16 && k.dieMask != 0 && k.spurMask != 0
    && 1 ≤ occupancy k
    && (!k.timed || k.startAt.toNat ≤ c.acceptedAt.toNat + 60000000000)

/-- Are all the Spurs that a kernel selects on a die retired (R49)? -/
def noSpur (s : State) (k : Kernel) (td : Nat) : Bool :=
  (spursOf td).all fun sp => !k.spurMask.getLsbD (sp % 8) || !spurUp s sp

/-- A kernel enters the pending order of a die; a die without a Spur for it leaves its share unrun (R46, R49). -/
def enterDie (s : State) (cid td : Nat) : State :=
  match tget? s.kernels cid with
  | none => s
  | some k =>
    if noSpur s k td then
      let n := shareCount k (k.dies.findIdx (· == td)) k.dies.length
      { s with kernels := tset s.kernels cid { k with unrun := k.unrun || 0 < n, next := tset k.next td n } }
    else modTdie s td fun t => { t with pend := if t.pend.contains cid then t.pend else t.pend ++ [cid] }

/-- LAUNCH (R42, R46, R271). -/
def launch (s : State) (cid : Nat) : State :=
  match runnable s cid 0x02 with
  | none => s
  | some c =>
    if c.running then s
    else
      let k := launchKernel s cid c
      if (s.ctx? c.ctx).isNone then finishCmd s cid 0x04
      else if !launchOk c k then finishCmd s cid 0x0F
      else
        let s := setCmd s cid { c with running := true }
        let s := { s with kernels := tset s.kernels cid { k with left := k.dies } }
        if k.timed ∧ s.time.toNat < k.startAt.toNat then s
        else kernelCheck (k.dies.foldl (fun s td => enterDie s cid td) s) cid

/-- TIMED_LAUNCH_START: a die's copy of Alpenglow time reaches START_AT (R386). -/
def timedLaunch (s : State) (td cid : Nat) (t : W64) : State :=
  let s := setTime s t
  match tget? s.kernels cid with
  | none => s
  | some k =>
    if k.timed && k.startAt.toNat ≤ s.time.toNat && k.dies.contains td && !k.stopped && k.left.contains td
        && !(s.tdie td).pend.contains cid then
      kernelCheck (enterDie s cid td) cid
    else s

/-- Put a block on a Spur (R38, R39, R48, R65). -/
def putBlock (p : Spur) (b : Block) (slot regs threads : Nat) (entry : W64) : Spur :=
  let big := largeUnit p
  let p := clearGrans p b.ctx b.gran0 b.grans
  let p := { p with
    blocks := tset p.blocks slot b
    counters := if b.ctrs = 0 then p.counters else p.counters.filter fun e => e.1 / 4 != slot }
  placeGroups p slot big b.width regs threads entry 0 b.groups

/-- The next block of a kernel on a die, as its Spur holds it (R32, R45, R65). -/
def nextBlock (k : Kernel) (td g0 : Nat) : Block :=
  let i := k.dies.findIdx (· == td)
  { kid := k.cid, num := i + k.dies.length * tget k.next td 0, ctx := k.ctx, groups := k.shape.groups, width := k.width,
    bx := k.bx, by_ := k.by_, gx := k.gx, gy := k.gy, params := k.params, gran0 := g0, grans := k.grans,
    ctrs := if k.ctrMode = 3 then 4 else k.ctrMode.toNat, faultQueue := k.faultQueue, tag := k.tag,
    stopBlockOnly := k.stopBlockOnly, stall := k.stall }

/-- Start the next block of a kernel on a Spur. -/
def startBlock (s : State) (td sp : Nat) (k : Kernel) : State :=
  match freeBlock (s.spur sp), freeGrans (s.spur sp) k.grans with
  | some slot, some g0 =>
    let s := modSpur s sp fun p => putBlock p (nextBlock k td g0) slot k.regs k.threads k.entry
    { s with kernels := tset s.kernels k.cid { k with next := tset k.next td (tget k.next td 0 + 1) } }
  | _, _ => s

/-- First pending kernel with a Spur for its next block. -/
def firstFit (s : State) (td : Nat) : List Kernel → Option (Kernel × Nat)
  | [] => none
  | k :: ks => match pickSpur s k td with
    | some sp => some (k, sp)
    | none => firstFit s td ks

/-- BLOCK_START (R45, R46). -/
def blockStart (s : State) (td : Nat) : State :=
  match pendingOn s td with
  | [] => s
  | k :: ks =>
    match pickSpur s k td with
    | some sp => startBlock (modTdie s td fun t => { t with miss8 := 0 }) td sp k
    | none =>
      if 8 ≤ (s.tdie td).miss8 then s
      else match firstFit s td ks with
        | some (k, sp) => startBlock s td sp k
        | none => s

/-! ## The meanings -/

/-- BLOCK_START. -/
def execBlockStart (td : Fin 16) (s : State) : Host.Outcome State Fault Refusal := .next (blockStart s td)
/-- LAUNCH. -/
def execLaunch (cid : Nat) (s : State) : Host.Outcome State Fault Refusal := .next (launch s cid)
/-- TIMED_LAUNCH_START. -/
def execTimedLaunchStart (td : Fin 16) (cid : Nat) (t : W64) (s : State) : Host.Outcome State Fault Refusal :=
  .next (timedLaunch s td cid t)

end Sys2Proof.Machine
end

