-- ==== Sys2Proof/Machine/Clock.lean ====
section
/-! DEFINITION. Alpenglow time: the PTP ordinary clock and the 1PPS input (R383 to R386, R397, R508). -/

namespace Sys2Proof.Machine

/-- STATE of Alpenglow time (R385). -/
def agState (s : State) : Nat := fld s 0 R.HUB_AG_STATUS_STATE

/-- Event 0x31 to the event queue of every registered set (R397). -/
def agEvent (s : State) (stepped : Bool) : State :=
  s.fab.sets.foldl (fun s e => match e.2.evq with
    | some q => raiseEvent s q 0x31 e.2.ctx
        (body4 (agState s + b2n stepped * 2 ^ 3 + e.1 * 2 ^ 8) (fld s 0 R.HUB_AG_STATUS_OFFSET) 0 0)
    | none => s) s

/-- Set STATE and say what changed. -/
def agChange (s : State) (st : Nat) (stepped : Bool) : State :=
  let old := agState s
  let s := setFld s 0 R.HUB_AG_STATUS_STATE st
  let s := if stepped then setFld s 0 R.HUB_AG_STATUS_STEPPED 1 else s
  if st ≠ old ∨ stepped then agEvent s stepped else s

/-- Time has stepped forward: the newest grants received apply, and every timed start whose instant has passed happens
(R384, R386, R440). -/
def timedStarts (s : State) : State :=
  let s := stepGrants s
  let s := (tkeys s.kernels).foldl (fun s cid => (List.range 16).foldl (fun s td => timedLaunch s td cid s.time) s) s
  let s := (tkeys s.qs.cmds).foldl (fun s cid => timedFab s cid s.time) s
  (s.fab.sets.flatMap fun e => e.2.steps.map fun t => (e.1, t.1)).foldl (fun s x => collAtS s x.1 x.2) s

/-- Time measured against PTP time: OFFSET is recorded; time behind by more than STEP_US, or before the first lock by
anything, steps forward; it never decreases (R384). The flag: it stepped. -/
def agMeasure (s : State) (ptp : W64) : State × Bool :=
  let free := agState s == 0
  let s := setFld s 0 R.HUB_AG_STATUS_OFFSET ((s.time - ptp).toNat % 2 ^ 32)
  let behind := ptp.toNat - s.time.toNat
  if 0 < behind ∧ (free ∨ fld s 0 R.HUB_AG_CFG_STEP_US * 1000 < behind) then ({ s with time := ptp }, true) else (s, false)

/-- Is the 1PPS input in use: enabled, an edge has come and none has been lost since (R383, R508)? -/
def ppsInUse (s : State) : Bool := fld s 0 R.HUB_AG_CFG_PPS_EN == 1 && s.fab.ppsLast.isSome && !s.fab.ppsLost

/-- Nearest whole number of seconds, in ns. -/
def nearestSecond (t : Nat) : Nat := (t + 500000000) / 1000000000 * 1000000000

/-- PTP_MESSAGE. With 1PPS in use PTP supplies only the time of day: which second it is (R383); the second's edge has
measured the rest. -/
def ptpMessage (s : State) (m : PtpMsg) : State :=
  let off := (m.ptp.toInt - s.time.toInt)
  let near := if 0 ≤ off then (nearestSecond off.toNat : Int) else -(nearestSecond (-off).toNat : Int)
  let pps := ppsInUse s ∧ agState s ≠ 0
  let edge := (BitVec.ofNat 32 (fld s 0 R.HUB_AG_STATUS_OFFSET)).toInt.natAbs
  let s := setFld s 0 R.HUB_AG_STATUS_PORT m.port.toNat
  let r := if pps ∧ near = 0 then (s, false) else agMeasure s (if pps then s.time + BitVec.ofInt 64 near else m.ptp)
  let d := if pps then (if near = 0 then edge else near.natAbs) else off.natAbs
  let st := if m.steady && d < 100 && agState s != 0 then 2 else 1
  let s := fabReady (agChange r.1 st r.2)
  if r.2 then timedStarts s else s

/-- AG_HOLDOVER_TIMEOUT: 4 s without PTP messages after LOCKED (R385). -/
def agHoldover (s : State) (t : W64) : State :=
  let s := setTime s t
  if agState s = 2 then agChange (setFld s 0 R.HUB_AG_STATUS_LOST 1) 3 false else s

/-- PPS_EDGE: the edge is the whole PTP second nearest to it (R383, R508). Edges that have come for 16 s in a row bring a
lost input back. -/
def ppsEdge (s : State) (t : W64) : State :=
  let s := setTime s t
  if fld s 0 R.HUB_AG_CFG_PPS_EN = 0 then s
  else
    let run := match s.fab.ppsLast, s.fab.ppsFirst with
      | some l, some f => if s.time.toNat < l.toNat + 2000000000 then f else s.time
      | _, _ => s.time
    let back := s.fab.ppsLost && run.toNat + 16000000000 ≤ s.time.toNat
    let lost := s.fab.ppsLost && !back
    let s := modFab s fun x => { x with ppsFirst := some run, ppsLast := some s.time, ppsLost := lost }
    if lost ∨ agState s = 0 then s
    else
      let r := agMeasure s (BitVec.ofNat 64 (nearestSecond s.time.toNat))
      let s := agChange r.1 (agState s) r.2
      if r.2 then timedStarts s else s

/-- PPS_LOSS_TIMEOUT: 2 s without an edge; the module runs on PTP alone. -/
def ppsLoss (s : State) (t : W64) : State :=
  let s := setTime s t
  match s.fab.ppsLast with
  | some l =>
    if l.toNat + 2000000000 ≤ s.time.toNat then modFab s fun x => { x with ppsLost := true, ppsFirst := none, ppsLast := none } else s
  | none => s

/-! ## The meanings -/

/-- PTP_MESSAGE. -/
def execPtpMessage (msg : PtpMsg) (s : State) : Host.Outcome State Fault Refusal := .next (ptpMessage s msg)
/-- AG_HOLDOVER_TIMEOUT. -/
def execAgHoldoverTimeout (t : W64) (s : State) : Host.Outcome State Fault Refusal := .next (agHoldover s t)
/-- PPS_EDGE. -/
def execPpsEdge (t : W64) (s : State) : Host.Outcome State Fault Refusal := .next (ppsEdge s t)
/-- PPS_LOSS_TIMEOUT. -/
def execPpsLossTimeout (t : W64) (s : State) : Host.Outcome State Fault Refusal := .next (ppsLoss s t)

end Sys2Proof.Machine
end

