-- ==== Sys2Proof/Machine/Matrix.lean ====
section
/-! DEFINITION. The matrix unit (chapter 03): the seat, the matrix queue, tiles, passes, the epilogue and the current
ramp. An instruction reads its operands as it finishes, and of bytes written since its issue the old value or the new
one (R122, log 16). -/

namespace Sys2Proof.Machine

/-! ## Elements in local memory (R95, R97, R117) -/

/-- The first `n` elements of `b` bits of a little-endian run. -/
def unpackElems (b n v : Nat) : List Nat := (List.range n).map fun i => v / 2 ^ (b * i) % 2 ^ b

/-- A little-endian run of elements of `b` bits. -/
def packElems (b : Nat) : List Nat → Nat
  | [] => 0
  | x :: xs => x % 2 ^ b + 2 ^ b * packElems b xs

/-- Elements of a format in a packed row. -/
def rowElems (fmt n : Nat) (bs : List Byte) : List Nat := unpackElems (mxBits fmt) n (leNat bs)

/-- One block value of a row and a column (R138, R139): `sa`, `sw` are scale bytes, 127 where a format has none. -/
def passBlock (afmt wfmt sa sw : Nat) (a w : List Nat) : W32 :=
  if sa = 0xFF ∨ sw = 0xFF then f32Nan
  else blockValue (a.map (mxValue afmt)) (w.map (mxValue wfmt)) ((sa : Int) - 127 + ((sw : Int) - 127))

/-- Blocks of 32. -/
def chunks32 {α : Type} (n : Nat) (l : List α) : List (List α) :=
  (List.range n).map fun b => (l.drop (32 * b)).take 32

/-- Scale byte of block `b`, or 127. -/
def scaleAt (fmt : Nat) (bs : List Byte) (i : Nat) : Nat := if mxScaled fmt then (bs.getD i 0).toNat else 127

/-- Result of a pass for one row and one column: FP32 under R139, or an exact sum modulo 2^32 (R141). -/
def passCell (afmt wfmt k : Nat) (a : List Nat) (sa : List Byte) (w : List Nat) (sw : List Byte) (col : Nat) : W32 :=
  if afmt = 8 then
    BitVec.ofInt 32 ((List.zipWith (fun x y => (BitVec.ofNat 8 x).toInt * (BitVec.ofNat 8 y).toInt) a w).foldl (· + ·) 0)
  else
    let n := k / 32
    columnSum ((List.range n).map fun b =>
      passBlock afmt wfmt (scaleAt afmt sa b) (scaleAt wfmt sw (b * 128 + col))
        ((a.drop (32 * b)).take 32) ((w.drop (32 * b)).take 32))

/-! ## Effects of the engines -/

/-- `mx.ldw`: tiles of the selected arrays into their shadow buffers (R96, R97). -/
def ldwRun (p : Spur) (base : Nat) (am : BitVec 4) (fmt tbase stride astride sbase : Nat) : Spur :=
  let k := mxK fmt
  let sel := arraysOf am
  (List.range sel.length).foldl (fun p i =>
    let t : Tile := {
      fmt := BitVec.ofNat 4 fmt
      rows := (List.range k).map fun r => memRead p.lmem (base + tbase + i * astride + r * stride) (rowBytes fmt 128)
      scales := if mxScaled fmt then memRead p.lmem (base + sbase + i * (k / 32) * 128) (k / 32 * 128) else [] }
    { p with mx := { p.mx with bufs := tset p.mx.bufs (4 + sel.getD i 0) (some t) } }) p

/-- Set one accumulator cell. -/
def MxUnit.setCell (m : MxUnit) (row col : Nat) (v : W32) : MxUnit := { m with acc := tset m.acc (row * 512 + col) v }

/-- Value of a cell: a zero slice reads as 0 (R100). -/
def MxUnit.cell (m : MxUnit) (row col : Nat) : W32 :=
  if tget m.kinds (row * 4 + col / 128) 0 = 0 then 0 else tget m.acc (row * 512 + col) 0

/-- Set the kind of a slice. -/
def MxUnit.setKind (m : MxUnit) (row j : Nat) (k : BitVec 2) : MxUnit := { m with kinds := tset m.kinds (row * 4 + j) k }

/-- `mx.ldacc` (R117). -/
def ldaccRun (p : Spur) (base : Nat) (am : BitVec 4) (rows acc fmt src sstride : Nat) : Spur :=
  let sel := arraysOf am
  let kind : BitVec 2 := if fmt = 0xC then 2 else 1
  (List.range rows).foldl (fun p i =>
    (List.range sel.length).foldl (fun p n =>
      let j := sel.getD n 0
      let m := (List.range 128).foldl (fun m c =>
        m.setCell (acc + i) (128 * j + c) (BitVec.ofNat 32 (p.lread (base + src + i * sstride + 4 * (128 * n + c)) 4))) p.mx
      { p with mx := m.setKind (acc + i) j kind }) p) p

/-- Exchange the buffers of the selected arrays (R96). -/
def swapBufs {α : Type} (t : Tbl (Option α)) (am : BitVec 4) : Tbl (Option α) :=
  (arraysOf am).foldl (fun t j =>
    let a := tget t j none
    tset (tset t j (tget t (4 + j) none)) (4 + j) a) t

/-- `mx.mma` (R92, R99, R139, R141). -/
def mmaRun (p : Spur) (base : Nat) (am : BitVec 4) (sw za : Bool) (afmt k m acc abase astride ascale : Nat) : Spur :=
  let p := if sw then { p with mx := { p.mx with bufs := swapBufs p.mx.bufs am } } else p
  let kind : BitVec 2 := if afmt = 8 then 2 else 1
  { p with mx := (List.range m).foldl (fun u i =>
      let a := rowElems afmt k (memRead p.lmem (base + abase + i * astride) (rowBytes afmt k))
      let sa := memRead p.lmem (base + ascale + i * (k / 32)) (k / 32)
      (arraysOf am).foldl (fun u j =>
        match tget p.mx.bufs j none with
        | none => u
        | some t =>
          let w := t.rows.map fun r => rowElems t.fmt.toNat 128 r
          let fresh := za || tget u.kinds ((acc + i) * 4 + j) 0 == 0
          let v := (List.range 128).foldl (fun v n =>
            let x := passCell afmt t.fmt.toNat k a sa (w.map fun r => r.getD n 0) t.scales n
            let col := 128 * j + n
            let old := u.cell (acc + i) col
            v.setCell (acc + i) col (if fresh then x else if afmt = 8 then old + x else f32Add old x)) u
          v.setKind (acc + i) j kind) u) p.mx }

/-- GELU in the order its formula is written, each step rounded to nearest even (R102; log 14). -/
def gelu (x : W32) : W32 :=
  let x3 := f32Mul (f32Mul x x) x
  let t := sfOp 7 (f32Mul 0x3F4C422A (f32Add x (f32Mul 0x3D372713 x3)))
  f32Mul (f32Mul 0x3F000000 x) (f32Add f32One t)

/-- rcp(1 + 2^(-1.442695041 x)) in the steps of R102. -/
def sigmoid (x : W32) : W32 := sfOp 0 (f32Add f32One (sfOp 3 (f32Mul 0xBFB8AA3B x)))

/-- ACT (R102). -/
def actOp (act : Nat) (x : W32) : W32 :=
  match act with
  | 0 => x
  | 1 => match fp32.decode x.toNat with
    | .nan => f32Nan
    | v => if (FVal.fin false 0 0).lt v then x else 0
  | 2 => gelu x
  | 3 => f32Mul x (sigmoid x)
  | 4 => sigmoid x
  | _ => sfOp 7 x

/-- A cell through the epilogue up to quantisation (R102, R103). -/
def epilogueCell (kind : BitVec 2) (x : W32) (act : Nat) (scale bias : Option W32) (raw : Bool) : W32 :=
  if raw then x
  else
    let x := if kind = 2 then i32ToF32 x else x
    let x := match scale with | some c => f32Mul x c | none => x
    let x := match bias with | some b => f32Add x b | none => x
    actOp act x

/-- Quantise a row of cells: elements, scale bytes, generator after (R142 to R145). -/
def quantRow (fmt : Nat) (sr : Bool) (g : W64) (xs : List W32) : List Nat × List Byte × W64 :=
  if mxScaled fmt then
    (chunks32 (xs.length / 32) xs).foldl (fun acc b =>
      let r := mxBlock fmt sr acc.2.2 b
      (acc.1 ++ r.2.1, acc.2.1 ++ [BitVec.ofNat 8 r.1], r.2.2)) ([], [], g)
  else (xs.map (quantPlain fmt), [], g)

/-- Generator of a Spur: until its first draw, what TNS_SR_SEED gives the Spur (R145, R146; log 32). -/
def srState (s : State) (sp : Nat) : W64 :=
  if (s.spur sp).sr ≠ 0 then (s.spur sp).sr
  else
    let x := BitVec.ofNat 64 (fld s (16 + sp / 8) R.TNS_SR_SEED_SEED) ^^^ BitVec.ofNat 64 (sp * 0x0101010101010101)
    if x = 0 then 1 else x

/-- `mx.drain` (R102 to R105, R118). -/
def drainRun (p : Spur) (rd : List (Nat × Byte)) (seed : W64) (base : Nat) (am : BitVec 4) (rows acc fmt act : Nat) (bias sc sr clr : Bool)
    (dest dstride biasv scv oscale : Nat) : Spur :=
  let sel := arraysOf am
  let n := sel.length
  let vec := fun (on : Bool) (a c : Nat) => if on then some (BitVec.ofNat 32 (leNat (memRead rd (base + a + 4 * c) 4))) else none
  let r := (List.range rows).foldl (fun (acc2 : List Host.Cell × MxUnit × W64) i =>
    let row := acc + i
    let u := acc2.2.1
    let xs := (List.range (128 * n)).map fun c =>
      let j := sel.getD (c / 128) 0
      epilogueCell (tget u.kinds (row * 4 + j) 0) (u.cell row (128 * j + c % 128)) act (vec sc scv c) (vec bias biasv c)
        (fmt == 0xC)
    let q := quantRow fmt sr acc2.2.2 xs
    let lm := memWrite acc2.1 (base + dest + i * dstride) (leBytes (rowBytes fmt (128 * n)) (packElems (mxBits fmt) q.1))
    let lm := memWrite lm (base + oscale + i * 4 * n) q.2.1
    let u := if clr then sel.foldl (fun u j => u.setKind row j 0) u else u
    (lm, u, q.2.2)) (p.lmem, p.mx, seed)
  { p with lmem := r.1, mx := r.2.1, sr := if sr then r.2.2 else p.sr }

/-- Does an instruction read (or write) a byte of the Spur's local memory, gaps of strides included (R120)? -/
def mxTouches (i : MxInstr) (write : Bool) (a : Nat) : Bool :=
  i.op.ranges.any fun r => r.2.2 == write && i.base + r.1 ≤ a && a < i.base + r.2.1

/-- Has a byte that an instruction reads been written since its issue (R122)? -/
def mxClash (p : Spur) (i : MxInstr) : Bool :=
  (p.lmem.map Prod.fst ++ i.old.map Prod.fst).any fun a => mxTouches i false a && memByte i.old a != memByte p.lmem a

/-- Local memory as an instruction reads it: of a byte written since its issue the old value or the new one (R122). -/
def mxSeen (d : Nat) (p : Spur) (i : MxInstr) : List (Nat × Byte) :=
  if mxClash p i then
    (p.lmem.map Prod.fst ++ i.old.map Prod.fst).foldl
      (fun m a => if mxTouches i false a && Config.mxOld d a then memSet m a (memByte i.old a) else m) p.lmem
  else p.lmem

/-- What an instruction has written is old for those of the queue that follow it (R120). -/
def mxPatch (i : MxInstr) (lmem : List (Nat × Byte)) (x : MxInstr) : MxInstr :=
  let put := fun m a => if mxTouches i true a then memSet m a (memByte lmem a) else m
  { x with old := (lmem.map Prod.fst ++ x.old.map Prod.fst).foldl put x.old }

/-- Effect of a finished instruction on its Spur; it reads `rd`. -/
def mxEffect (p : Spur) (rd : List (Nat × Byte)) (seed : W64) (i : MxInstr) : Spur :=
  let q := { p with lmem := rd }
  match i.op with
  | .ldw am fmt base stride astride sbase => { (ldwRun q i.base am fmt.toNat base stride astride sbase) with lmem := p.lmem }
  | .ldacc am rows acc fmt src sstride => { (ldaccRun q i.base am rows acc fmt.toNat src sstride) with lmem := p.lmem }
  | .mma am sw za afmt k m acc abase astride ascale =>
    { (mmaRun q i.base am sw za afmt.toNat k m acc abase astride ascale) with lmem := p.lmem }
  | .drain am rows acc ofmt act bias sc sr clr _ dest dstride biasv scv oscale =>
    drainRun p rd seed i.base am rows acc ofmt.toNat act.toNat bias sc sr clr dest dstride biasv scv oscale

/-! ## The seat (R107 to R113) -/

/-- Release the groups whose wait on the matrix queue is over: `mx.wait` with nothing queued, `mx.close` once the seat is
released. -/
def mxWake (p : Spur) : Spur :=
  { p with groups := p.groups.map fun e =>
      match e.2.wait with
      | some .mxWait => if p.mx.queue = [] then (e.1, e.2.resume) else e
      | some .mxClose => if p.mx.seat = some e.1 then e else (e.1, e.2.resume)
      | _ => e }

/-- MX_INSTR_COMPLETE (R118, R120, R123): the instruction must have started. -/
def mxComplete (s : State) (sp id : Nat) : State :=
  match (mxRunning [] (s.spur sp).mx.queue).find? fun i => i.id == id with
  | none => s
  | some i =>
    let seed := srState s sp
    let rd := mxSeen s.free (s.spur sp) i
    let s := if mxClash (s.spur sp) i then (drawFree s).2 else s
    let s := modSpur s sp fun p =>
      let p := mxEffect p rd seed i
      let rest := (p.mx.queue.filter fun x => x.id != id).map (mxPatch i p.lmem)
      mxWake { p with mx := mxSettle (mxEngage { p.mx with queue := rest }) }
    let s := match i.op with
      | .drain _ _ _ _ _ _ _ _ _ (some (c, n)) .. => finishCount s sp c n
      | _ => s
    blockEnd s sp i.blk

/-- The next request for the seat: a team block's group before every other, otherwise the oldest (R108, R170). -/
def nextSeat (p : Spur) : Option Nat :=
  let team := fun sl => ((tget? p.groups sl).bind fun g => tget? p.blocks g.blk).any (·.isTeam)
  (p.mx.waiters.find? team).or p.mx.waiters.head?

/-- SEAT_GRANT (R98, R99, R107, R108): buffers empty, slices zero, the group's mask the region mask. -/
def seatGrant (s : State) (sp : Nat) : State :=
  modSpur s sp fun p =>
    if p.mx.seat.isSome then p
    else
      match nextSeat p with
      | none => p
      | some sl =>
        match tget? p.groups sl with
        | none => { p with mx := { p.mx with waiters := p.mx.waiters.filter (· != sl) } }
        | some g => { p with
            groups := tset p.groups sl g.resume
            mx := { p.mx with seat := some sl, mask := g.active, closing := false, arrayHit := false, sel := 0, queue := []
                              waiters := p.mx.waiters.filter (· != sl), bufs := [], issueBufs := [], acc := []
                              kinds := [], issueKinds := [] } }

/-- Does the group in a slot hold the seat? -/
def hasSeat (s : State) (sp slot : Nat) : Bool := (s.spur sp).mx.seat == some slot && !(s.spur sp).mx.closing

/-- `mx.open` (R107, R110, R112). -/
def mxOpen (s : State) (sp slot : Nat) (w : W64) : State :=
  ofClass s sp slot 0x40 w fun _ =>
    issue s sp slot [] (wf w 55 0 != 0 || hasSeat s sp slot) fun g =>
      if g.active ≠ g.live then groupFault s sp slot 9 g.pc 0
      else
        modSpur s sp fun p => { p with
          groups := tset p.groups slot { g with wait := some .mxOpen }
          mx := { p.mx with waiters := p.mx.waiters ++ [slot] } }

/-- `mx.close` and `mx.wait`: a wait that the matrix queue ends (R113, R123). -/
def mxHold (s : State) (sp slot op : Nat) (w : W64) (close : Bool) : State :=
  ofClass s sp slot op w fun _ =>
    issue s sp slot [] (wf w 55 0 != 0 || !hasSeat s sp slot) fun g =>
      if g.active ≠ (s.spur sp).mx.mask then groupFault s sp slot 9 g.pc 0
      else
        modSpur s sp fun p =>
          let p := { p with groups := tset p.groups slot { g with wait := some (if close then .mxClose else .mxWait) } }
          mxWake (if close then { p with mx := mxSettle { p.mx with closing := true } } else p)

/-! ## Queued instructions (R114 to R119, R131) -/

/-- Is array j of a Spur in service (R130)? -/
def arrayUp (s : State) (sp j : Nat) : Bool :=
  bitAt (fld s (16 + sp / 8) R.TNS_ARRAY_MAP_IN_SERVICE) (4 * (sp % 8) + j)

/-- The range, the mask, the arrays and the queue; `count`: the counter of a counting drain. -/
def mxQueue (s : State) (sp slot : Nat) (g : Group) (op : MxOp) (am : BitVec 4) (count : Option Nat)
    (note : MxUnit → MxUnit) : State :=
  match blockAt s sp g.blk with
  | none => s
  | some b =>
    let p := s.spur sp
    match op.ranges.find? fun r => b.localSize < r.2.1 with
    | some r => groupFault s sp slot 4 g.pc (BitVec.ofNat 64 r.1)
    | none =>
      if g.active ≠ p.mx.mask then groupFault s sp slot 9 g.pc 0
      else if (arraysOf am).any fun j => !arrayUp s sp j then groupFault s sp slot 11 g.pc 0
      else if 32 ≤ p.mx.queue.length || (count.isSome && 256 ≤ copyPlaces s sp) then s
      else
        let s := modSpur s sp fun p =>
          let i : MxInstr := { id := p.nextId, slot := slot, blk := g.blk, base := b.base, op := op, old := p.lmem }
          { p with
            nextId := p.nextId + 1
            counters := match count with
              | some c => tmod p.counters c {} fun x => { x with issue := x.issue + 1 }
              | none => p.counters
            mx := mxEngage (note { p.mx with queue := p.mx.queue ++ [i], sel := p.mx.sel ||| am }) }
        advance s sp slot g

/-- Register VA + k of the lowest active lane (R111, R116). -/
def mxReg (g : Group) (va k : Nat) : Nat := (g.rd (g.lanes.headD 0) (va + k)).toNat

/-- Registers VA to VA + n - 1, all of which must lie within REGS (R116). -/
def mxRegs (va n : Nat) : List Nat := (List.range n).map (va + ·)

/-- AMASK of a matrix word. -/
def amaskOf (w : W64) : BitVec 4 := BitVec.ofNat 4 (wf w 52 49)

/-- Does a register of the run VA + k that lies within REGS hold a value that its check refuses (R116)? Each check names
its k; a register beyond REGS has no value and no check. -/
def mxBadVals (s : State) (sp slot va : Nat) (checks : List (Nat × (Nat → Bool))) : Bool :=
  match groupAt s sp slot with
  | none => false
  | some g => checks.any fun c => regsOk g [va + c.1] && c.2 (mxReg g va c.1)

/-- Is a stride too small for the row it steps over (R116)? `n`: rows or tiles. -/
def badStride (n stride len : Nat) : Bool := stride % 16 != 0 || (n != 1 && stride < len)

/-- `mx.ldw` (R96, R97). -/
def mxLdw (s : State) (sp slot : Nat) (w : W64) : State :=
  ofClass s sp slot 0x42 w fun _ =>
    let am := amaskOf w
    let fmt := wf w 48 45
    let va := wf w 44 37
    let bad := wf w 55 53 != 0 || wf w 36 0 != 0 || am == 0 || 0xA < fmt || !hasSeat s sp slot
    let len := rowBytes fmt 128
    let valBad := mxBadVals s sp slot va [(0, (· % 16 != 0)), (1, fun x => badStride 128 x len),
      (2, fun x => badStride (arraysOf am).length x len), (3, fun x => mxScaled fmt && x % 4 != 0)]
    issue s sp slot (mxRegs va 4) (bad || valBad) fun g =>
      let base := mxReg g va 0
      let stride := mxReg g va 1
      let astride := mxReg g va 2
      let sbase := mxReg g va 3
      mxQueue s sp slot g (.ldw am (BitVec.ofNat 4 fmt) base stride astride sbase) am none fun m =>
        { m with issueBufs := (arraysOf am).foldl (fun t j => tset t (4 + j) (some (BitVec.ofNat 4 fmt))) m.issueBufs }

/-- Set the kinds, as queued instructions leave them, of a range of rows. -/
def setIssueKinds (m : MxUnit) (am : BitVec 4) (acc rows : Nat) (k : BitVec 2) : MxUnit :=
  { m with issueKinds := (List.range rows).foldl (fun t i =>
      (arraysOf am).foldl (fun t j => tset t ((acc + i) * 4 + j) k) t) m.issueKinds }

/-- The kinds of a range of slices satisfy a condition. -/
def kindsAll (m : MxUnit) (am : BitVec 4) (acc rows : Nat) (f : BitVec 2 → Bool) : Bool :=
  (List.range rows).all fun i => (arraysOf am).all fun j => f (tget m.issueKinds ((acc + i) * 4 + j) 0)

/-- `mx.ldacc` (R117). -/
def mxLdacc (s : State) (sp slot : Nat) (w : W64) : State :=
  ofClass s sp slot 0x43 w fun _ =>
    let am := amaskOf w
    let rows := wf w 48 40 + 1
    let acc := wf w 39 31
    let fmt := wf w 30 27
    let va := wf w 26 19
    let bad := wf w 55 53 != 0 || wf w 18 0 != 0 || am == 0 || (fmt != 0xB && fmt != 0xC) || 512 < acc + rows
      || !hasSeat s sp slot
    let valBad := mxBadVals s sp slot va [(0, (· % 16 != 0)), (1, fun x => badStride rows x (512 * (arraysOf am).length))]
    issue s sp slot (mxRegs va 2) (bad || valBad) fun g =>
      let src := mxReg g va 0
      let stride := mxReg g va 1
      mxQueue s sp slot g (.ldacc am rows acc (BitVec.ofNat 4 fmt) src stride) am none fun m =>
        setIssueKinds m am acc rows (if fmt = 0xC then 2 else 1)

/-- Legal pairs of R94. -/
def pairLegal (a w : Nat) : Bool := (a ≤ 7 && w ≤ 7) || (8 ≤ a && a ≤ 10 && a == w)

/-- Weight formats that a pass meets, as the queued instructions leave the buffers. -/
def passTiles (m : MxUnit) (am : BitVec 4) (sw : Bool) : List (Option (BitVec 4)) :=
  (arraysOf am).map fun j => tget m.issueBufs (if sw then 4 + j else j) none

/-- `mx.mma` (R92, R94, R98, R99). -/
def mxMma (s : State) (sp slot : Nat) (w : W64) : State :=
  ofClass s sp slot 0x44 w fun _ =>
    let am := amaskOf w
    let sw := w.getLsbD 48
    let za := w.getLsbD 47
    let afmt := wf w 46 43
    let m := wf w 42 34 + 1
    let acc := wf w 33 25
    let va := wf w 24 17
    let u := (s.spur sp).mx
    let tiles := passTiles u am sw
    let fmts := tiles.filterMap fun t => t.map (·.toNat)
    let k := mxK (fmts.headD 0)
    let kind : BitVec 2 := if afmt = 8 then 2 else 1
    let bad := wf w 55 53 != 0 || wf w 16 0 != 0 || am == 0 || 0xA < afmt || 512 < acc + m || !hasSeat s sp slot
      || tiles.any (·.isNone) || fmts.any (fun f => !pairLegal afmt f || mxK f != k)
      || (!za && !kindsAll u am acc m fun x => x == 0 || x == kind)
    let valBad := mxBadVals s sp slot va [(0, (· % 16 != 0)), (1, fun x => badStride m x (rowBytes afmt k)),
      (2, fun x => mxScaled afmt && x % 4 != 0)]
    issue s sp slot (mxRegs va 3) (bad || valBad) fun g =>
      let abase := mxReg g va 0
      let stride := mxReg g va 1
      let ascale := mxReg g va 2
      mxQueue s sp slot g (.mma am sw za (BitVec.ofNat 4 afmt) k m acc abase stride ascale) am none fun v =>
        let v := if sw then { v with issueBufs := swapBufs v.issueBufs am } else v
        setIssueKinds v am acc m kind

/-- `mx.drain` (R102 to R105, R118). -/
def mxDrain (s : State) (sp slot : Nat) (w : W64) : State :=
  ofClass s sp slot 0x45 w fun _ =>
    let am := amaskOf w
    let rows := wf w 48 40 + 1
    let acc := wf w 39 31
    let fmt := wf w 30 27
    let act := wf w 26 24
    let bias := w.getLsbD 23
    let sc := w.getLsbD 22
    let sr := w.getLsbD 21
    let clr := w.getLsbD 20
    let ce := w.getLsbD 13
    let va := wf w 12 5
    let n := (arraysOf am).length
    let ctr := (groupAt s sp slot).bind fun g => (blockAt s sp g.blk).bind fun b => ctrIndex b g.blk (wf w 19 14)
    let bad := wf w 55 53 != 0 || wf w 4 0 != 0 || am == 0 || 0xC < fmt || 5 < act || 512 < acc + rows
      || !hasSeat s sp slot || (sr && !mxScaled fmt) || (ce && ctr.isNone)
      || (fmt == 0xC && (sc || bias || act != 0 || !kindsAll (s.spur sp).mx am acc rows fun x => x != 1))
    let valBad := mxBadVals s sp slot va [(0, (· % 16 != 0)), (1, fun x => badStride rows x (rowBytes fmt (128 * n))),
      (2, fun x => bias && x % 16 != 0), (3, fun x => sc && x % 16 != 0), (4, fun x => mxScaled fmt && x % 4 != 0)]
    issue s sp slot (mxRegs va 5) (bad || valBad) fun g =>
      let dest := mxReg g va 0
      let stride := mxReg g va 1
      let biasv := mxReg g va 2
      let scv := mxReg g va 3
      let oscale := mxReg g va 4
      let count := if ce then ctr else none
      let num := count.map fun c => (c, (tget (s.spur sp).counters c {}).issue + 1)
      mxQueue s sp slot g
        (.drain am rows acc (BitVec.ofNat 4 fmt) (BitVec.ofNat 3 act) bias sc sr clr num dest stride biasv scv oscale)
        am count fun m => if clr then setIssueKinds m am acc rows 0 else m

/-! ## The current ramp (R125 to R128, R450) -/

/-- Is a row entering an array: does a pass run on it? -/
def arrayBusy (m : MxUnit) (j : Nat) : Bool :=
  (mxRunning [] m.queue).any fun i => match i.op with
    | .mma am .. => am.getLsbD j
    | _ => false

/-- R450, R451: may an array of a die advance to its next ramp-up step? -/
def rampAllowed (s : State) (die : Nat) : Bool :=
  fld s die R.PWR_STATUS_DROOP == 0 && fld s die R.PWR_STATUS_THROTTLE == 0
    && fld s die R.PWR_STATUS_PCTL + (Config.stepCost 0).toNat ≤ fld s die R.PWR_STATUS_LIMIT

/-- Change the ramp of an array. -/
def setRamp (s : State) (sp j : Nat) (f : RampPhase) : State :=
  modSpur s sp fun p => { p with mx := { p.mx with ramps := tset p.mx.ramps j f } }

/-- RAMP_UP_STEP_END. -/
def rampUp (s : State) (sp j : Nat) : State :=
  match tget (s.spur sp).mx.ramps j .off with
  | .up i =>
    if arrayBusy (s.spur sp).mx j && rampAllowed s (16 + sp / 8) then setRamp s sp j (if i < 8 then .up (i + 1) else .full)
    else s
  | _ => s

/-- RAMP_HOLD_EXPIRY. -/
def rampHold (s : State) (sp j : Nat) : State :=
  if arrayBusy (s.spur sp).mx j then s
  else match tget (s.spur sp).mx.ramps j .off with
    | .full => setRamp s sp j (.down 1)
    | .up i => setRamp s sp j (.down (9 - i))
    | _ => s

/-- RELEASE_STEP_END. -/
def rampDown (s : State) (sp j : Nat) : State :=
  match tget (s.spur sp).mx.ramps j .off with
  | .down k => setRamp s sp j (if k < 8 then .down (k + 1) else .off)
  | _ => s

/-! ## The meanings -/

/-- MX_OPEN. -/
def execMxOpen (sp : Fin 128) (sl : Fin 32) (w : W64) (s : State) : Host.Outcome State Fault Refusal := .next (mxOpen s sp sl w)
/-- SEAT_GRANT. -/
def execSeatGrant (sp : Fin 128) (s : State) : Host.Outcome State Fault Refusal := .next (seatGrant s sp)
/-- MX_CLOSE. -/
def execMxClose (sp : Fin 128) (sl : Fin 32) (w : W64) (s : State) : Host.Outcome State Fault Refusal :=
  .next (mxHold s sp sl 0x41 w true)
/-- MX_LDW. -/
def execMxLdw (sp : Fin 128) (sl : Fin 32) (w : W64) (s : State) : Host.Outcome State Fault Refusal := .next (mxLdw s sp sl w)
/-- MX_LDACC. -/
def execMxLdacc (sp : Fin 128) (sl : Fin 32) (w : W64) (s : State) : Host.Outcome State Fault Refusal :=
  .next (mxLdacc s sp sl w)
/-- MX_MMA. -/
def execMxMma (sp : Fin 128) (sl : Fin 32) (w : W64) (s : State) : Host.Outcome State Fault Refusal := .next (mxMma s sp sl w)
/-- MX_DRAIN. -/
def execMxDrain (sp : Fin 128) (sl : Fin 32) (w : W64) (s : State) : Host.Outcome State Fault Refusal :=
  .next (mxDrain s sp sl w)
/-- MX_WAIT. -/
def execMxWait (sp : Fin 128) (sl : Fin 32) (w : W64) (s : State) : Host.Outcome State Fault Refusal :=
  .next (mxHold s sp sl 0x46 w false)
/-- MX_INSTR_COMPLETE. -/
def execMxInstrComplete (sp : Fin 128) (id : Nat) (s : State) : Host.Outcome State Fault Refusal := .next (mxComplete s sp id)
/-- RAMP_UP_STEP_END. -/
def execRampUpStepEnd (sp : Fin 128) (arr : Fin 4) (s : State) : Host.Outcome State Fault Refusal := .next (rampUp s sp arr)
/-- RAMP_HOLD_EXPIRY. -/
def execRampHoldExpiry (sp : Fin 128) (arr : Fin 4) (s : State) : Host.Outcome State Fault Refusal := .next (rampHold s sp arr)
/-- RELEASE_STEP_END. -/
def execReleaseStepEnd (sp : Fin 128) (arr : Fin 4) (s : State) : Host.Outcome State Fault Refusal := .next (rampDown s sp arr)

end Sys2Proof.Machine
end

