-- ==== Sys2Proof/Machine/Life.lean ====
section
/-! DEFINITION. What stops work: a context reset (R85, R133, R195, R358, R473), the retirement of a Spur (R49, R171,
R173), a die that is reset or leaves service (R230, R259, R473), and the parts of a warm reset (R230, R318, R370). -/

namespace Sys2Proof.Machine

/-- Change the boot state. -/
def modBoot (s : State) (f : Boot → Boot) : State := { s with boot := f s.boot }

/-! ## Context reset -/

/-- Local memory of which part of `new` has been written over `old` (R133, log 23). -/
def partWritten (d : Nat) (old new : List (Nat × Byte)) : List (Nat × Byte) :=
  ((new.map Prod.fst) ++ old.map Prod.fst).foldl
    (fun m a => if Config.drainPart d a then memSet m a (memByte new a) else m) old

/-- A context reset stops the matrix unit of a Spur at once for a region of the context (R133). -/
def regionStop (s : State) (sp : Nat) (ctx : BitVec 16) : State :=
  let p := s.spur sp
  let mine := match (p.mx.seat.bind fun sl => groupAt s sp sl).bind fun g => blockAt s sp g.blk with
    | some b => b.ctx == ctx
    | none => false
  if !mine then s
  else
    let drains := (mxRunning [] p.mx.queue).filter fun i => match i.op with | .drain .. => true | _ => false
    let done := drains.foldl (fun p i => mxEffect p (mxSeen s.free p i) (srState s sp) i) p
    let lmem := if drains = [] then p.lmem else partWritten s.free p.lmem done.lmem
    let s := if drains = [] then s else (drawFree s).2
    modSpur s sp fun p => { p with lmem := lmem, mx := p.mx.release }

/-- A context reset drops a context's Couloir commands; their credits return (R195). -/
def couloirStop (s : State) (out : ClCmd → Bool) : State :=
  let gone := s.cl.cmds.filter fun e => out e.2
  { s with cl := { s.cl with
      cmds := s.cl.cmds.filter fun e => !out e.2
      queues := s.cl.queues.map fun q => (q.1, q.2.filter fun id => !gone.any fun e => e.1 == id)
      credits := gone.foldl (fun t e => let k := e.2.md * 16 + e.2.sp / 8; tset t k (tget t k 0 - 1)) s.cl.credits } }

/-- Block slots of a Spur that hold blocks of a context. -/
def ctxBlocks (s : State) (sp : Nat) (ctx : BitVec 16) : List Nat :=
  ((s.spur sp).blocks.filter fun e => e.2.ctx == ctx).map (·.1)

/-- The counters of a Spur in the shared mode go to 0, and copies still moving count on none (R85). -/
def clearShared (s : State) (sp : Nat) : State :=
  modSpur s sp fun p => { p with counters := [], copies := p.copies.map fun c => { c with ctr := 1024 } }

/-- A context reset releases every residency of the context (R175). -/
def resReset (s : State) (ctx : BitVec 16) : State :=
  let mine := (s.former.residencies.filter fun e => e.2.ctx == ctx).map (·.1)
  mine.foldl (fun s res =>
    let s := endCands s 0x0F 5 fun x => x.res == res
    let s := endClosed s res 0x0F 5
    let teams := (s.former.teams.filter fun t => t.2.res == res).map (·.1)
    let s := teams.foldl (fun s tm => stopTeam s tm 0x0F) s
    let s := match tget? s.former.residencies res with
      | some r => if r.pending then endCmd s r.cid 5 0x0F else s
      | none => s
    releaseCheck (modRes s res fun r => { r with queues := [], pending := false, dropped := true }) res) s

/-- Is a started command one that its unit ends itself once it has stopped? -/
def endsLater (s : State) (e : Nat × Cmd) : Bool :=
  (tget? s.kernels e.1).isSome || ((e.2.kind == 0x10 || e.2.kind == 0x11) && e.2.running) || e.2.kind == 5
    || s.former.residencies.any fun r => r.2.releasing == some e.1

/-- The commands of a context that were started end with 0x0F and an aborted record (R358). -/
def cmdsReset (s : State) (ctx : BitVec 16) : State :=
  let out := s.qs.cmds.filter fun e => e.2.ctx == ctx && e.2.st == .started && !endsLater s e
  let s := out.foldl (fun s e => endCmd s e.1 5 0x0F) s
  let gone := fun cid => out.any fun e => e.1 == cid
  { s with
    qs := { s.qs with engines := s.qs.engines.map fun e => (e.1, e.2.filter fun c => !gone c) }
    tiers := { s.tiers with
      waiting := s.tiers.waiting.filter fun c => !gone c
      moves := s.tiers.moves.map fun m => (m.1, { m.2 with cid := m.2.cid.bind fun c => if gone c then none else some c }) } }

/-- What a context reset stops (R85, R133, R175, R195, R318, R358, R389, R396). -/
def contextStop (s : State) (ctx : BitVec 16) : State :=
  let s := couloirStop s fun c => c.ctx == ctx
  let s := (List.range 128).foldl (fun s sp => regionStop s sp ctx) s
  let shared := (List.range 128).filter fun sp => (s.spur sp).blocks.any fun e => e.2.ctx == ctx && e.2.ctrs == 0
  let kids := (s.kernels.filter fun k => k.2.ctx == ctx).map (·.1)
  let s := kids.foldl stopKernel s
  let s := shared.foldl clearShared s
  let s := resReset s ctx
  let s := poolContextReset (fabContextReset s ctx) ctx
  let qs := (s.qs.q.filter fun q => q.2.ctx == ctx).map (·.1)
  let s := qs.foldl (fun s n => haltQueue s n 0x0F (0, 0)) s
  cmdsReset s ctx

/-- Have a context's blocks, matrix regions and commands stopped? -/
def ctxQuiet (s : State) (ctx : BitVec 16) : Bool :=
  (List.range 128).all (fun sp => (ctxBlocks s sp ctx).isEmpty)
    && s.qs.cmds.all (fun e => e.2.ctx != ctx || e.2.st != .started)

/-! ## Spurs -/

/-- A pending kernel of a die that has no Spur left leaves its share unrun (R49). -/
def shareLost (s : State) (td : Nat) : State :=
  (s.tdie td).pend.foldl (fun s cid => match tget? s.kernels cid with
    | some k =>
      if noSpur s k td then
        let n := shareCount k (k.dies.findIdx (· == td)) k.dies.length
        let unrun := k.unrun || decide (tget k.next td 0 < n)
        kernelCheck (modTdie { s with kernels := tset s.kernels cid { k with unrun := unrun, next := tset k.next td n } } td
          fun t => { t with pend := t.pend.filter (· != cid) }) cid
      else s
    | none => s) s

/-- A Spur takes no more work: its residencies are suspended, their teams stop, blocks resident on it end with a group
fault of cause 0x0B (R49, R171, R173). `retired`: for good; a die that is only reset suspends nothing. -/
def spurStop (s : State) (sp : Nat) (retired : Bool) : State :=
  let mine := (s.former.residencies.filter fun e => e.2.spurs.contains sp).map (·.1)
  let s := mine.foldl (fun s res =>
    let s := if retired then endCands (modRes s res fun r => { r with suspended := true }) 0x0B 3 fun x => x.res == res else s
    let teams := (s.former.teams.filter fun t => t.2.res == res && t.2.seq.isSome).map (·.1)
    teams.foldl (fun s tm => stopTeam s tm 0x0B) s) s
  let s := ((s.spur sp).blocks.map (·.1)).foldl (fun s b => blockFault s sp b 0 11 0 0) s
  shareLost s (sp / 8)

/-! ## Caches of a die -/

/-- Agents of a die. -/
def agentsOf (die : Nat) : List Nat := (List.range 64).filter fun a => agentDie a == die

/-- Lines that the caches and writeback buffers of a die hold. -/
def dieLines (s : State) (die : Nat) : List (Nat × Nat) :=
  ((s.coh.lines.map (·.1)) ++ s.coh.wbs.map (·.1)).filterMap fun k =>
    if agentDie (k / 2 ^ 46) = die then some (k / 2 ^ 46, k % 2 ^ 46) else none

/-- Drop an agent's line and its writeback buffer. -/
def agentForget (s : State) (a ln : Nat) : State :=
  let s := (hartsOf a).foldl (fun s h => modHart s h fun x => { x with l1d := tdel x.l1d ln, l1i := tdel x.l1i ln }) s
  modCoh s fun c => { c with lines := tdel c.lines (aKey a ln), wbs := tdel c.wbs (aKey a ln) }

/-- Remove an agent from a line's directory entry (R259). -/
def agentUnlist (s : State) (a ln : Nat) : State :=
  let md := homeOfLine s ln
  match tget? (s.home md).dir ln with
  | none => s
  | some e => setDir s md ln { e.leave a with way := e.way }

/-- Write back what a die's caches hold of lines whose home has no transaction open (R230). -/
def dieWriteback (s : State) (die : Nat) : State :=
  (dieLines s die).foldl (fun s x =>
    if !lineIdle s x.2 then s
    else
      let s := match agentData s x.1 x.2 with
        | some (d, true, p) => putBelow s x.2 d p
        | _ => s
      agentUnlist (agentForget s x.1 x.2) x.1 x.2) s

/-- The write-back of a die ends: what is left dirty is poisoned at its home, every home removes the die's agents and
answers for them (R230, R259). -/
def dieWritten (s : State) (die : Nat) : State :=
  let mine := fun a => decide (a < 64) && agentDie a == die
  let s := (dieLines s die).foldl (fun s x =>
    let s := match agentData s x.1 x.2 with
      | some (_, true, _) => putBelow s x.2 (belowLine s x.2).1 true
      | _ => s
    agentForget s x.1 x.2) s
  let s := modCoh s fun c => { c with
    misses := c.misses.filter fun e => agentDie (e.1 / 2 ^ 46) != die
    lfsr := c.lfsr.filter fun e => agentDie e.1 != die }
  let s := { s with net := s.net.filter fun m => match m with
    | .home _ r => !mine r.src
    | .fwdShared a .. | .fwdUnique a .. | .fwdOnce a .. | .recall a _ | .inval a _ | .grant a .. | .wbAck a .. => !mine a
    | .reply _ a .. => !mine a
    | _ => true }
  (List.range 6).foldl (fun s md =>
    let s := (tkeys (s.home md).dir).foldl (fun s ln => (agentsOf die).foldl (fun s a =>
      match tget? (s.home md).dir ln with
      | some e => if e.own = some a ∨ e.sharers.contains a then agentUnlist s a ln else s
      | none => s) s) s
    let s := modHome s md fun h => { h with waiting := h.waiting.filter fun r => !mine r.src }
    (s.home md).txns.foldl (fun s t =>
      let x : Txn := t.2
      let req : HomeReq := if mine x.req.src then { x.req with kind := .rdonce } else x.req
      let acks : List Nat := x.acks.filter fun a => !mine a
      let hit : Bool := match x.owner with | some o => mine o | none => false
      let owner : Option Nat := if hit then none else x.owner
      if req = x.req ∧ acks = x.acks ∧ owner = x.owner then s
      else
        let got : Option (Line × Bool × Bool) := if hit then some ((belowLine s t.1).1, true, true) else x.got
        if owner.isSome ∨ acks ≠ [] then setTxn s md t.1 { x with req := req, acks := acks, owner := owner, got := got }
        else txnStep s md t.1 { x with req := req, acks := acks, owner := owner, got := got }) s) s

/-- Every cache is written back, then invalidated (R230): L3 and victim queues first, dirty upper copies over them. -/
def cachesFlush (s : State) : State :=
  let s := (List.range 6).foldl (fun s md =>
    let h := s.home md
    let s := h.l3.foldl (fun s e => if e.2.dirty then storeLine s e.1 e.2.data e.2.poison else s) s
    h.vq.foldl (fun s v => if v.dirty then storeLine s v.line v.data v.poison else s) s) s
  let all := ((s.coh.wbs.map (·.1)) ++ s.coh.lines.map (·.1))
  let s := all.foldl (fun s k => match agentData s (k / 2 ^ 46) (k % 2 ^ 46) with
    | some (d, true, p) => storeLine s (k % 2 ^ 46) d p
    | _ => s) s
  { s with
    coh := {}
    harts := s.harts.map fun h => (h.1, { h.2 with l1d := [], l1i := [] }) }

/-! ## A die -/

/-- Work of a tensor die ends and its state goes to that after reset (R49, R134, R171, R230). -/
def tensorStop (s : State) (td : Nat) (retired : Bool) : State :=
  let s := (spursOf td).foldl (fun s sp => spurStop s sp retired) s
  let s := couloirStop s fun c => c.sp / 8 == td
  let s := (spursOf td).foldl (fun s sp =>
    let s := modSpur s sp fun p => { p with copies := [], ops := [], mx := {} }
    let s := ((s.spur sp).blocks.map (·.1)).foldl (fun s b => blockEnd (stopBlock s sp b) sp b) s
    modSpur s sp fun p => { blocks := p.blocks, holds := if retired then [] else p.holds }) s
  let s := (List.range 8).foldl (fun s i => modSpur s (td * 8 + i) fun p => { p with blocks := [] }) s
  let s := { s with net := s.net.filter fun m => match m with
    | .dispatch d .. => d != td
    | .entryDone d .. => d != td
    | .clPort sp .. => sp / 8 != td
    | _ => true }
  let s := { s with tdies := tset s.tdies td { expect := s.former.nextSeq } }
  { s with xlt := { s.xlt with helpers := s.xlt.helpers.map fun h => (h.1, { h.2 with
      queue := h.2.queue.filter fun q => match q.1 with | .stream d _ => d != td | _ => true
      walks := h.2.walks.filter fun w => match w.2.src with | .stream d _ => d != td | _ => true }) } }

/-- Work and state of a die go as it is reset or leaves service: its caches are written back as far as they can be at
once (R230). -/
def dieStop (s : State) (die : Nat) (retired : Bool) : State :=
  let s := if 16 ≤ die then tensorStop s (die - 16) retired else s
  let s := if 1 ≤ die ∧ die ≤ 4 then
      (List.range 32).foldl (fun s i => modHart s (32 * (die - 1) + i) fun x => { l1d := x.l1d, l1i := x.l1i }) s
    else s
  let s := if die = 11 ∨ die = 12 then fabDieReset s die else s
  let s := { s with arbs := s.arbs.filter fun a => a.1 / 4096 != die }
  let s := dieWriteback s die
  if dieLines s die = [] then dieWritten s die else s

/-- Units of a die that the capacity registers count, with `n` set bits of its maps: they go, or they are back (R477). -/
def dieCapacity (s : State) (die : Nat) (back : Bool) : State :=
  let n := fun (map : Nat) => (List.range 64).countP (bitAt map)
  let move := fun (s : State) (f : FRef) (k : Nat) => setFld s 0 f (if back then fld s 0 f + k else fld s 0 f - k)
  if 16 ≤ die then
    move (move s R.HUB_CAPACITY0_SPURS (n (fld s die R.UNIT_MAP_IN_SERVICE))) R.HUB_CAPACITY0_ARRAYS
      (n (fld s die R.TNS_ARRAY_MAP_IN_SERVICE))
  else if 1 ≤ die ∧ die ≤ 4 then move s R.HUB_CAPACITY0_CORES (n (fld s die R.UNIT_MAP_IN_SERVICE))
  else s

/-- A die leaves service (R406, R452, R475): it stays out until the next cold reset, or for a trip the next warm one. -/
def dieOut (s : State) (die : Nat) (trip : Bool) : State :=
  if !dieUp s die then s
  else
    let s := dieCapacity s die false
    let s := setFld s 0 R.HUB_DIE_MAP_IN_SERVICE (setBits (fld s 0 R.HUB_DIE_MAP_IN_SERVICE) die die 0)
    let s := dieStop s die true
    modBoot s fun b => { b with resets := tset b.resets die { written := dieLines s die = [], trip := trip, out := true } }

/-! ## The module -/

/-- STATE 5 with a fatal cause recorded (R498). -/
def fatal (s : State) (cause die : Nat) : State :=
  let s := setFld s 0 R.HUB_REL_FATAL_VALID 1
  let s := setFld s 0 R.HUB_REL_FATAL_CAUSE cause
  let s := setFld s 0 R.HUB_REL_FATAL_DIE die
  setBootState (setFld s 0 R.HUB_REL_FATAL_TIME_TIME s.time.toNat) 5

/-- STATE 5 with a start-up cause (R457 to R459, R462, R467). -/
def bootFail (s : State) (cause : Nat) : State := setBootState (setFld s 0 R.HUB_SEC_STATUS_CAUSE cause) 5

/-- Configuration flash when power or the module goes: an update that is cut off leaves the copy that it was writing
invalid (R507). -/
def flashCut (s : State) : ConfigFlash :=
  if !s.mgmt.updating then s.boot.flash
  else if fld s 0 R.HUB_SEC_STATUS_COPY = 0 then { s.boot.flash with b := [] } else { s.boot.flash with a := [] }

/-- The rails are switched off: everything of the module is lost but what flash and fuses hold (R230, R431, R456). What
is plugged into the module stays plugged in. -/
def railsOff (s : State) : State :=
  { pending := s.pending
    free := s.free
    ksl := [0, 1].map fun p => (p, { mated := (s.port p).mated, powered := false })
    fab := { missing := s.fab.missing }
    tiers := { images := s.tiers.images, map := s.tiers.map, pages := s.tiers.pages, nextPage := s.tiers.nextPage,
               badBlocks := s.tiers.badBlocks, erases := s.tiers.erases }
    boot := { powered := false, vin := s.boot.vin, rstLow := s.boot.rstLow, faultN := s.boot.faultN
              straps := s.boot.straps, fuses := s.boot.fuses, flash := flashCut s } }

end Sys2Proof.Machine
end

