-- ==== Sys2Proof/Machine/Col.lean ====
section
/-! DEFINITION. The Col gate: windows, rates, admission and the killing of a guest (R422 to R429). -/

namespace Sys2Proof.Machine

/-- The Col gate of site 14 + g. -/
def State.site (s : State) (g : Nat) : ColSite := tget s.col g {}

/-- Change a Col gate. -/
def modSite (s : State) (g : Nat) (f : ColSite → ColSite) : State := { s with col := tmod s.col g {} f }

/-- Is a guest site killed? -/
def siteKilled (s : State) (g : Nat) : Bool := fldAt s 0 R.HUB_COL_CTL_KILLED g == 1

/-- A field of window `w` of a site. -/
def winFld (s : State) (g w : Nat) (f : FRef) : Nat := fldAt s 0 { f with off := f.off + 0x1000 * g } w

/-- The first matching window of an address (R424). -/
def windowOf (s : State) (g addr : Nat) : Option Nat :=
  (List.range 16).find? fun w =>
    let sh := winFld s g w R.HUB_COL_WIN_SZ + 12
    winFld s g w R.HUB_COL_WIN_EN == 1 && winFld s g w R.HUB_COL_WIN_CTX != 0
      && addr / 2 ^ sh == winFld s g w R.HUB_COL_WIN_BASE * 2 ^ 12 / 2 ^ sh

/-- Count a violation, and record it when no record stands (R427). -/
def violation (s : State) (g : Nat) (inbound : Bool) (cause addr : Nat) : State :=
  let s := bumpErrAt s 0 R.HUB_COL_CTL_VIOLATIONS g
  if fldAt s 0 R.HUB_COL_VADDR_VALID g = 1 then s
  else
    let s := setFldAt s 0 R.HUB_COL_VADDR_VALID g 1
    let s := setFldAt s 0 R.HUB_COL_VADDR_INBOUND g (b2n inbound)
    let s := setFldAt s 0 R.HUB_COL_VADDR_CAUSE g cause
    setFldAt s 0 R.HUB_COL_VADDR_ADDR g addr

/-- Pass an answer to a guest (R423). -/
def guestTell (s : State) (g : Nat) (tag : BitVec 10) (status : Byte) (d : Option Line) : State :=
  modSite s g fun c => { c with answers := c.answers ++ [(tag, status, d)] }

/-- Tokens in quarter bytes that a request takes: those of its line (log 26). -/
abbrev guestCost : Nat := 256

/-- Fill a site's bucket up to now (R425): RATE quarter bytes a nanosecond, at most BURST KiB. -/
def fillSite (s : State) (g : Nat) : State :=
  let c := s.site g
  let more := (s.time.toNat - c.filled.toNat) * fldAt s 0 R.HUB_COL_RATE_RATE g
  modSite s g fun c => { c with
    bucket := min (fldAt s 0 R.HUB_COL_RATE_BURST g * 4096) (c.bucket + more), filled := s.time }

/-- Perform a guest's request in its window's context: status and data, or nothing while the line's home has a
transaction open (R423, R424, R283, R266). -/
def guestDo (s : State) (g : Nat) (r : GuestReq) : Option (State × Byte × Line) :=
  let pa := r.hdr.addr.toNat
  let ln := pa / 64
  let write := r.hdr.op != 1
  if isMem pa then
    if !lineIdle s ln then none
    else
      let k := targetCheckBy s (14 + g) 0 r.ctx pa write
      if !k.2 then some (k.1, 0x04, 0)
      else if write then
        if lineRetired s ln then some (k.1, 0x0B, 0)
        else some (if r.hdr.op = 2 then cohWrite k.1 ln r.data false else cohWritePart k.1 ln r.data r.hdr.mask, 0, 0)
      else
        let v := cohLine k.1 ln
        some (touch k.1 ln, if v.2 then 0x06 else 0, v.1)
  else match region pa with
    | .window .. =>
      let k := targetCheckBy s (14 + g) 0 r.ctx pa write
      some (k.1, if k.2 then 0 else 0x04, 0)
    | _ => some (s, 0x05, 0)

/-- May the oldest waiting request go: no earlier ACQ is unanswered, and a REL has no earlier request unanswered
(R424)? -/
def guestMayGo (earlier : List GuestReq) (r : GuestReq) : Bool := earlier.all (fun e => !e.hdr.acq) && (!r.hdr.rel || earlier.isEmpty)

/-- Send on the requests that may go, in the order they came (R424, R425). -/
def guestPump : Nat → State → Nat → State
  | 0, s, _ => s
  | n + 1, s, g =>
    let rs := (s.site g).reqs
    let earlier := rs.takeWhile fun r => r.st != .waiting
    match rs.drop earlier.length with
    | [] => s
    | r :: rest =>
      let rated := fldAt s 0 R.HUB_COL_RATE_RATE g != 0
      if !guestMayGo earlier r || (rated && decide ((s.site g).bucket < guestCost)) then s
      else match guestDo s g r with
        | none => s
        | some (s, st, d) =>
          guestPump n (modSite s g fun c => { c with
            reqs := earlier ++ { r with st := .done st d } :: rest
            bucket := if rated then c.bucket - guestCost else c.bucket }) g

/-- Send on what may go. -/
def guestRun (s : State) (g : Nat) : State := guestPump ((s.site g).reqs.length) (fillSite s g) g

/-- The refusal cause of a guest's request, or the context it goes in (R424). -/
def guestCheck (s : State) (g : Nat) (h : GuestHdr) : Sum Nat (BitVec 16) :=
  if h.op = 0 ∨ 4 ≤ h.op.toNat ∨ h.res0 then .inl 0
  else match windowOf s g h.addr.toNat with
    | none => .inl 1
    | some w =>
      if winFld s g w (if h.op = 1 then R.HUB_COL_WIN_R else R.HUB_COL_WIN_W) = 0 then .inl 2
      else .inr (BitVec.ofNat 16 (winFld s g w R.HUB_COL_WIN_CTX))

/-- A guest's request reaches its Col gate (R424, R427). -/
def guestRequest (s : State) (g : Nat) (h : GuestHdr) (d : Line) : State :=
  if !dieUp s (14 + g) || siteKilled s g then s
  else match guestCheck s g h with
    | .inl cause => guestTell (violation s g false cause h.addr.toNat) g h.tag 0x0A none
    | .inr ctx => guestRun (modSite s g fun c => { c with reqs := c.reqs ++ [{ hdr := h, ctx := ctx, data := d }] }) g

/-- COL_RATE_RELEASE (R425). -/
def rateRelease (s : State) (g : Nat) (t : W64) : State := guestRun (setTime s t) g

/-- COL_ANSWER_RETURN: an answer reaches the gate and goes to the guest; what it held may go (R424). -/
def answerReturn (s : State) (g : Nat) (tag : BitVec 10) : State :=
  match (s.site g).reqs.find? fun r => r.hdr.tag == tag && r.st != .waiting with
  | none => s
  | some r =>
    match r.st with
    | .waiting => s
    | .done st d =>
      let s := modSite s g fun c => { c with reqs := c.reqs.erase r }
      guestRun (guestTell s g tag st (if r.hdr.op = 1 ∧ (st = 0 ∨ st = 0x06) then some d else none)) g

/-! ## Requests to a guest (R426) -/

/-- Answer a requester of a guest's window. -/
def replyIn (s : State) (g : Nat) (off : Nat) (d : Option W64) (status : Byte) : State :=
  modSite s g fun c => { c with replies := c.replies ++ [⟨off, d, status⟩] }

/-- Offsets that the Col gate answers itself (R26, R426, R469, and the power registers of chapter 15). -/
def gateAnswers (off : Nat) : Bool :=
  off < 0x100000 || off == 0x400000 || off == 0x100080 || off == 0x100088 || off == 0x100000 || off == 0x100008

/-- Is a context admitted to a site's window (R426)? -/
def admitted (s : State) (g : Nat) (ctx : BitVec 16) : Bool :=
  ctx == 0 || [R.HUB_COL_FILTER_CTX0, R.HUB_COL_FILTER_CTX1, R.HUB_COL_FILTER_CTX2, R.HUB_COL_FILTER_CTX3].any
    fun f => fldAt s 0 f g == ctx.toNat

/-- A request to a guest site's window (R28, R426, R427): answered by the gate, forwarded, or refused. -/
def colInbound (s : State) (g : Nat) (ctx : BitVec 16) (off width : Nat) (write : Option W64) : State :=
  let none0 : Option W64 := if write.isSome then none else some 0
  if !dieUp s (14 + g) then replyIn s g off none0 0
  else if gateAnswers off then
    replyIn s g off (if write.isSome then none else some (BitVec.ofNat 64 (regRead s (14 + g) off width))) 0
  else if !admitted s g ctx then replyIn (violation s g true 3 (windowBase + (14 + g) * 2 ^ 28 + off)) g off none 0x0A
  else modSite s g fun c => { c with inbound := c.inbound ++ [⟨c.nextId, ctx, off, width, write⟩], nextId := c.nextId + 1 }

/-- Take a forwarded request that is answered. -/
def takeIn (s : State) (g id : Nat) (f : State → GuestIn → State) : State :=
  match (s.site g).inbound.find? fun r => r.id == id with
  | none => s
  | some r => f (modSite s g fun c => { c with inbound := c.inbound.erase r }) r

/-- GUEST_ANSWER. -/
def guestAnswer (s : State) (g id : Nat) (d : W64) (status : Byte) : State :=
  takeIn s g id fun s r => replyIn s g r.off (if r.write.isSome then none else some d) status

/-- COL_GUEST_TIMEOUT: no answer within 100 µs. -/
def guestTimeout (s : State) (g id : Nat) : State :=
  takeIn s g id fun s r => replyIn (violation s g true 4 (windowBase + (14 + g) * 2 ^ 28 + r.off)) g r.off none 0x0C

/-! ## Killing a guest (R428, R429) -/

/-- Empty a site's bucket and answer what waits for the guest with poisoned data or a dropped write (R428, R429). -/
def siteEmpty (s : State) (g : Nat) : State :=
  let s := (s.site g).inbound.foldl (fun s r => replyIn s g r.off none 0x0B) s
  modSite s g fun c => { c with inbound := [], reqs := [], bucket := 0 }

/-- A guest site is killed (R428). -/
def colKill (s : State) (g : Nat) : State :=
  if siteKilled s g then s
  else
    let s := setFldAt s 0 R.HUB_COL_CTL_KILLED g 1
    let s := setFld s 0 R.HUB_DIE_MAP_IN_SERVICE (setBits (fld s 0 R.HUB_DIE_MAP_IN_SERVICE) (14 + g) (14 + g) 0)
    siteEmpty s g

/-! ## The meanings -/

/-- GUEST_READ. -/
def execGuestRead (g : Fin 2) (h : GuestHdr) (s : State) : Host.Outcome State Fault Refusal :=
  .next (guestRequest s g { h with op := 1 } 0)
/-- GUEST_WRITE_LINE. -/
def execGuestWriteLine (g : Fin 2) (h : GuestHdr) (data : Line) (s : State) : Host.Outcome State Fault Refusal :=
  .next (guestRequest s g { h with op := 2 } data)
/-- GUEST_WRITE_PART. -/
def execGuestWritePart (g : Fin 2) (h : GuestHdr) (data : Line) (s : State) : Host.Outcome State Fault Refusal :=
  .next (guestRequest s g { h with op := 3 } data)
/-- GUEST_CACHEABLE_REQUEST: a cacheable or reserved OP; a header of another row's OP is none of its own. -/
def execGuestCacheableRequest (g : Fin 2) (h : GuestHdr) (s : State) : Host.Outcome State Fault Refusal :=
  .next (if 1 ≤ h.op.toNat ∧ h.op.toNat ≤ 3 then s else guestRequest s g h 0)
/-- COL_RATE_RELEASE. -/
def execColRateRelease (g : Fin 2) (t : W64) (s : State) : Host.Outcome State Fault Refusal := .next (rateRelease s g t)
/-- COL_ANSWER_RETURN. -/
def execColAnswerReturn (g : Fin 2) (tag : BitVec 10) (s : State) : Host.Outcome State Fault Refusal :=
  .next (answerReturn s g tag)
/-- GUEST_ANSWER. -/
def execGuestAnswer (g : Fin 2) (id : Nat) (data : W64) (status : BitVec 8) (s : State) : Host.Outcome State Fault Refusal :=
  .next (guestAnswer s g id data status)
/-- COL_GUEST_TIMEOUT. -/
def execColGuestTimeout (g : Fin 2) (id : Nat) (s : State) : Host.Outcome State Fault Refusal := .next (guestTimeout s g id)
/-- COL_KILL. -/
def execColKill (g : Fin 2) (s : State) : Host.Outcome State Fault Refusal := .next (colKill s g)
/-- GUEST_LINK_FAULT. -/
def execGuestLinkFault (g : Fin 2) (s : State) : Host.Outcome State Fault Refusal := .next (colKill s g)

end Sys2Proof.Machine
end

