-- ==== Sys2Proof/Machine/Ridge.lean ====
section
/-! DEFINITION. Ridge modules: the links of R15, frames, replay, retraining, retirement and lane repair (R399 to R407,
R410), and the grant decisions of arbiters (R415). -/

namespace Sys2Proof.Machine

/-! ## The links (R15, R403) -/

/-- Modules of the link of a row of R15 between two dies; 0: no such link. -/
def linkCount (row a b : Nat) : Nat :=
  let pair := fun (l : List (Nat × Nat)) => l.contains (a, b) || l.contains (b, a)
  let tensorMem := fun (t m : Nat) => 16 ≤ t && 5 ≤ m && m ≤ 10 && (m == 5 + (t - 16) % 6 || m == 5 + (t - 15) % 6)
  match row with
  | 0 => if pair [(0, 5), (5, 6), (6, 7), (7, 8), (8, 9), (9, 10), (10, 0)] then 4 else 0
  | 1 => if tensorMem a b || tensorMem b a then 4 else 0
  | 2 => if 16 ≤ a ∧ 16 ≤ b ∧ ((a - 15) % 16 = b - 16 ∨ (b - 15) % 16 = a - 16) then 2 else 0
  | 3 => if pair [(1, 5), (1, 10), (2, 9), (2, 10), (3, 5), (3, 6), (4, 9), (4, 10)] then 2 else 0
  | 4 => if pair [(11, 5), (11, 10), (12, 7), (12, 8)] then 2 else 0
  | 5 => if pair [(11, 0), (12, 0)] then 1 else 0
  | 6 => if pair [(13, 6), (13, 9)] then 4 else 0
  | 7 => if pair [(13, 0)] then 2 else 0
  | 8 => if pair [(14, 0), (15, 0)] then 1 else 0
  | _ => 0

/-- The modules of a die in the order of their local numbers: far die and position within the link (R403). -/
def ridgeLocals (die : Nat) : List (Nat × Nat) :=
  (List.range 9).flatMap fun row => (List.range 32).flatMap fun far =>
    (List.range (linkCount row die far)).map fun i => (far, i)

/-- The other end of a module: die and local number there. -/
def ridgeFar (die m : Nat) : Option (Nat × Nat) :=
  match (ridgeLocals die)[m]? with
  | none => none
  | some (far, i) => some (far, (ridgeLocals far).findIdx fun x => x == (die, i))

/-- Key of an end of a module. -/
def ridgeKey (die m : Nat) : Nat := die * 64 + m

/-- An end of a module. -/
def State.rmod (s : State) (die m : Nat) : RidgeModule := tget s.ridge.mods (ridgeKey die m) {}

/-- Change an end of a module. -/
def modRmod (s : State) (k : Nat) (f : RidgeModule → RidgeModule) : State :=
  { s with ridge := { s.ridge with mods := tmod s.ridge.mods k {} f } }

/-- Is a module in service (RIDGE_MAP)? -/
def ridgeUp (s : State) (die m : Nat) : Bool := bitAt (fld s die R.RIDGE_MAP_IN_SERVICE) m

/-! ## Sending -/

/-- Key of a (class, hop) pair. -/
def bufKey (cls hop : Nat) : Nat := cls * 8 + hop

/-- Does the sender hold a credit for the far end's (class, hop) buffer (R410)? A buffer that is empty has room for a
frame (log 24). -/
def ridgeCredit (s : State) (die m : Nat) (f : RFrame) : Bool :=
  match ridgeFar die m with
  | none => false
  | some (d, n) =>
    let used := tget (s.rmod die m).used (bufKey f.cls f.hop) 0
    used == 0 || decide (used < Config.ridgeBuffer d n f.cls f.hop)

/-- The header of a frame as it goes out: acknowledgement, NAK and the next credits to return (R400). -/
def ridgeHeader (x : RidgeModule) (f : RFrame) : FrameHdr :=
  let cr := (x.owed.find? fun e => e.2 != 0).getD (0, 0)
  { stream := BitVec.ofNat 12 f.stream, cls := BitVec.ofNat 3 f.cls, hop := BitVec.ofNat 3 f.hop
    seq := BitVec.ofNat 10 f.seq, ackseq := BitVec.ofNat 10 x.rxSeq, nak := x.nakDue, first := f.first, last := f.last
    crClass := BitVec.ofNat 3 (cr.1 / 8), crHop := BitVec.ofNat 3 (cr.1 % 8), crCount := BitVec.ofNat 8 (min 255 cr.2)
    crcOk := true }

/-- Put a frame on the wire. -/
def ridgeWire (x : RidgeModule) (f : RFrame) : RidgeModule :=
  let h := ridgeHeader x f
  { x with
    wire := x.wire ++ [(h, f.payload)]
    nakDue := false
    ackDue := false
    owed := if h.crCount = 0 then x.owed
      else tmod x.owed (bufKey h.crClass.toNat h.crHop.toNat) 0 (· - h.crCount.toNat) }

/-- Send a frame of class F0 to F5: it takes the next sequence and a place in the replay buffer (R400). -/
def ridgeSend (x : RidgeModule) (f : RFrame) : RidgeModule :=
  let f := { f with seq := (x.txSeq + 1) % 1024, origin := none }
  let x := { x with txSeq := f.seq, used := tmod x.used (bufKey f.cls f.hop) 0 (· + 1) }
  let x := ridgeWire x f
  { x with replay := x.replay ++ [f] }

/-- An idle frame, when an acknowledgement or credits are due and no other frame can go (R400). -/
def ridgeIdle (x : RidgeModule) : RidgeModule :=
  if x.nakDue || x.ackDue || x.owed.any (fun e => e.2 != 0) then
    ridgeWire x { stream := 0, cls := 6, hop := 0, first := false, last := false, payload := 0, seq := x.txSeq }
  else x

/-- A credit of an input buffer is to be returned. -/
def ridgeOwe (s : State) (origin : Option (Nat × Nat)) : State :=
  match origin with
  | some (k, b) => modRmod s k fun x => { x with owed := tmod x.owed b 0 (· + 1) }
  | none => s

/-- The frame that each class could send now: the oldest that has a credit (R410, R415). -/
def ridgeReady (s : State) (die m : Nat) : List RFrame :=
  (List.range 6).filterMap fun c => (s.rmod die m).outq.find? fun f => f.cls == c && ridgeCredit s die m f

/-- Frames that the replay buffer holds. -/
abbrev replayFrames : Nat := 256

/-- A grant decision of a module's sending end (R413 to R417): a frame goes, or a calibration or self-test takes the
module at a frame's boundary; with nothing to send, an idle frame. -/
def ridgeGrant (s : State) (die m : Nat) : State :=
  if !ridgeUp s die m || (s.rmod die m).retraining then s
  else
    let x := s.arb die m
    let ready := if replayFrames ≤ (s.rmod die m).replay.length then [] else ridgeReady s die m
    let waiting := ready.map (fun f => ({ input := f.cls, id := 0 } : ArbReq)) ++ x.queue
    let take := fun (s : State) (w : ArbReq) =>
      let s := arbAge s die m w waiting
      match (if w.input < 6 then ready.find? fun f => f.cls == w.input else none) with
      | some f =>
        let s := modRmod s (ridgeKey die m) fun y => ridgeSend { y with outq := y.outq.erase f } f
        arbTaskEnd (ridgeOwe s f.origin) die m w.input
      | none => modArb s die m fun t => { t with holder := some w, queue := t.queue.erase w }
    match x.holder, arbPick s die m waiting with
    | none, none => modRmod s (ridgeKey die m) ridgeIdle
    | none, some w => take s w
    | some _, none => s
    | some h, some w =>
      if x.locked then s
      else if effRank s die m h < effRank s die m w then
        let s := bumpEvent s die R.ARB_PREEMPTS_COUNT R.ARB_OVF_PREEMPTS_OVF
        take (modArb s die m fun t => { t with holder := none, queue := h :: t.queue }) w
      else arbAge s die m h waiting

/-- ARB_GRANT. -/
def arbGrant (s : State) (die a : Nat) : State :=
  if !dieUp s die then s
  else if a < 64 then ridgeGrant s die a
  else if a = 192 ∧ 5 ≤ die ∧ die ≤ 10 then
    (List.range 16).foldl (fun s e => if clEngineUp s (die - 5) e then clDecide s (die - 5) e else s) s
  else arbDecide s die a

/-! ## Retirement and lane repair (R402, R406) -/

/-- Die that hop k + 1 of a route leaves from (R405). -/
def hopDie (r : Route) : Nat → Option Nat
  | 0 => some r.srcDie
  | k + 1 => (hopDie r k).bind fun d => (ridgeFar d (r.mods.getD k 64)).map (·.1)

/-- Hops of a route that leave by a module. -/
def hopsBy (r : Route) (die m : Nat) : List Nat :=
  (List.range r.mods.length).filter fun k => r.mods[k]? == some m && hopDie r k == some die

/-- A route after a module is retired: its hops move to their spares, or the stream is lost (R406). -/
def reroute (s : State) (die m : Nat) (r : Route) : Route :=
  (hopsBy r die m).foldl (fun r k =>
    let sp := r.spares.getD k 0x3F
    if sp != 0x3F && ridgeUp s die sp then { r with mods := r.mods.set k sp, spares := r.spares.set k 0x3F }
    else { r with lost := true }) r

/-- Frames of a retired module's end go to the modules that their streams' hops have moved to; those it had sent go ahead
of any new frame (R406). -/
def moveFrames (s : State) (die m : Nat) : State :=
  let x := s.rmod die m
  let dest := fun (f : RFrame) => match tget? s.ridge.routes f.stream with
    | some r => if r.lost then none else r.mods[f.hop - 1]?
    | none => none
  let s := modRmod s (ridgeKey die m) fun y => { y with replay := [], outq := [] }
  let s := x.replay.reverse.foldl (fun s f => match dest f with
    | some n => modRmod s (ridgeKey die n) fun y => { y with outq := { f with resends := 0 } :: y.outq }
    | none => s) s
  x.outq.foldl (fun s f => match dest f with
    | some n => modRmod s (ridgeKey die n) fun y => { y with outq := y.outq ++ [f] }
    | none => ridgeOwe s f.origin) s

/-- What follows for the ends of a lost stream (R406, R498). -/
def streamLost (s : State) (r : Route) : State :=
  let outs := [r.srcDie, r.dstDie].filter fun d => dieClass false d == 1 || dieClass false d == 3 || dieClass false d == 7
  let guests := [r.srcDie, r.dstDie].filter fun d => d == 14 || d == 15
  if outs = [] ∧ guests = [] then fatal s 2 r.srcDie
  else guests.foldl (fun s d => colKill s (d - 14)) (outs.foldl (fun s d => dieOut s d false) s)

/-- Clear a module's bit at one of its dies. -/
def clearRidge (s : State) (die m : Nat) : State :=
  setFld s die R.RIDGE_MAP_IN_SERVICE (setBits (fld s die R.RIDGE_MAP_IN_SERVICE) m m 0)

/-- A Ridge module is retired in both directions (R402, R406, R477, R481). -/
def ridgeRetire (s : State) (die m : Nat) (info : Option ErrInfo := none) : State :=
  match ridgeFar die m with
  | none => s
  | some (d, n) =>
    if !ridgeUp s die m then s
    else
      let s := clearRidge (clearRidge s die m) d n
      let s := tasksGone (tasksGone s (rid 4 die m)) (rid 4 d n)
      let s := { s with arbs := s.arbs.filter fun a => a.1 != arbKey die m && a.1 != arbKey d n }
      let was := s.ridge.routes
      let s := { s with ridge := { s.ridge with
        routes := s.ridge.routes.map fun e => (e.1, reroute s d n (reroute s die m e.2)) } }
      let s := moveFrames (moveFrames s die m) d n
      let s := retiredEvent s (rid 4 die m) 0 info
      let lost := s.ridge.routes.filter fun e => e.2.lost && !((tget? was e.1).map (·.lost)).getD false
      lost.foldl (fun s e => streamLost s e.2) s

/-- RIDGE_MODULE_RETIRE: a module that no rule takes out (R399, R401, R402) stays. -/
def ridgeModuleRetire (s : State) (die m : Nat) : State := ridgeRetire s die m

/-- A failed lane is replaced by a redundant one; a fifth replacement in a direction retires the module (R402).
`recv`: the receiving direction of this end. -/
def laneRepair (s : State) (die m : Nat) (recv : Bool) : State :=
  match ridgeFar die m with
  | none => s
  | some (d, n) =>
    if !ridgeUp s die m then s
    else
      let x := s.rmod die m
      if 4 ≤ (if recv then x.rxRepairs else x.txRepairs) then ridgeRetire s die m
      else
        let s := modRmod s (ridgeKey die m) fun y =>
          if recv then { y with rxRepairs := y.rxRepairs + 1 } else { y with txRepairs := y.txRepairs + 1 }
        let s := modRmod s (ridgeKey d n) fun y =>
          if recv then { y with txRepairs := y.txRepairs + 1 } else { y with rxRepairs := y.rxRepairs + 1 }
        bumpErr (bumpErr s die R.ARB_ERR_LANE_REPAIRS) d R.ARB_ERR_LANE_REPAIRS

/-! ## Receiving (R401, R405, R410) -/

/-- Take the acknowledgement and the credits of a frame. -/
def ridgeAcks (x : RidgeModule) (f : FrameHdr) : RidgeModule :=
  { x with
    replay := x.replay.filter fun r => !decide ((f.ackseq.toNat + 1024 - r.seq) % 1024 < 512)
    used := if f.crCount = 0 then x.used else tmod x.used (bufKey f.crClass.toNat f.crHop.toNat) 0 (· - f.crCount.toNat) }

/-- A frame accepted into its buffer: it goes on by its route's next module, or at its last hop to its endpoint, which has
reserved the space (R405, R409); one of a stream without an entry is taken out of the buffer. -/
def ridgeDeliver (s : State) (die m : Nat) (f : RFrame) : State :=
  let here := (ridgeKey die m, bufKey f.cls f.hop)
  match tget? s.ridge.routes f.stream with
  | none => ridgeOwe s (some here)
  | some r =>
    match r.mods[f.hop]? with
    | some n => modRmod s (ridgeKey die n) fun y => { y with outq := y.outq ++ [{ f with hop := f.hop + 1, origin := some here }] }
    | none =>
      ridgeOwe { s with ridge := { s.ridge with delivered := tmod s.ridge.delivered f.stream [] (· ++ [f]) } } (some here)

/-- RIDGE_FRAME_RECEIVE. -/
def ridgeReceive (s : State) (die m : Nat) (f : FrameHdr) (payload : BitVec 1920) : State :=
  let x := s.rmod die m
  let k := ridgeKey die m
  if !ridgeUp s die m || x.retraining then s
  else if !f.crcOk ∨ f.cls = 7 then modRmod s k fun y => { y with discard := true, nakDue := true }
  else if f.cls = 6 then modRmod s k fun y => ridgeAcks y f
  else if f.seq.toNat = (x.rxSeq + 1) % 1024 then
    let s := modRmod s k fun y => { ridgeAcks y f with rxSeq := f.seq.toNat, discard := false, ackDue := true }
    ridgeDeliver s die m { stream := f.stream.toNat, cls := f.cls.toNat, hop := f.hop.toNat, first := f.first, last := f.last
                           payload := payload }
  else if x.discard ∨ (f.seq.toNat + 1023 - x.rxSeq) % 1024 ≥ 512 then s
  else modRmod s k fun y => { y with discard := true, nakDue := true }

/-- RIDGE_NAK_RESEND: every frame after ACKSEQ goes again, in order; a frame resent 8 times retrains the module (R401). -/
def ridgeResend (s : State) (die m ack : Nat) : State :=
  if !ridgeUp s die m || (s.rmod die m).retraining then s
  else
    modRmod s (ridgeKey die m) fun x =>
      let x := { x with replay := x.replay.filter fun r => !decide ((ack + 1024 - r.seq) % 1024 < 512) }
      let fs := x.replay.map fun r => { r with resends := r.resends + 1 }
      let x := { x with replay := fs }
      let x := fs.foldl ridgeWire x
      { x with retraining := fs.any fun r => decide (8 ≤ r.resends) }

/-- RIDGE_RETRAIN: a retrain through the sideband ends; nothing is lost by it, and three failures in a row retire the
module (R401). A module may be retrained at any time. -/
def ridgeRetrain (s : State) (die m : Nat) (ok : Bool) : State :=
  if !ridgeUp s die m then s
  else if ok then
    modRmod s (ridgeKey die m) fun x =>
      { x with retraining := false, fails := 0, replay := x.replay.map fun r => { r with resends := 0 } }
  else
    let s := modRmod s (ridgeKey die m) fun x => { x with retraining := true, fails := x.fails + 1 }
    if 3 ≤ (s.rmod die m).fails then ridgeRetire s die m else s

/-! ## The meanings -/

/-- RIDGE_FRAME_RECEIVE. -/
def execRidgeFrameReceive (die : Fin 32) (mod : Fin 64) (f : FrameHdr) (payload : BitVec 1920) (s : State) :
    Host.Outcome State Fault Refusal := .next (ridgeReceive s die mod f payload)
/-- RIDGE_NAK_RESEND. -/
def execRidgeNakResend (die : Fin 32) (mod : Fin 64) (ackseq : BitVec 10) (s : State) : Host.Outcome State Fault Refusal :=
  .next (ridgeResend s die mod ackseq.toNat)
/-- RIDGE_RETRAIN. -/
def execRidgeRetrain (die : Fin 32) (mod : Fin 64) (ok : Bool) (s : State) : Host.Outcome State Fault Refusal :=
  .next (ridgeRetrain s die mod ok)
/-- RIDGE_MODULE_RETIRE. -/
def execRidgeModuleRetire (die : Fin 32) (mod : Fin 64) (s : State) : Host.Outcome State Fault Refusal :=
  .next (ridgeModuleRetire s die mod)
/-- ARB_GRANT. -/
def execArbGrant (die : Fin 32) (arb : Nat) (s : State) : Host.Outcome State Fault Refusal := .next (arbGrant s die arb)

end Sys2Proof.Machine
end

