-- ==== Sys2Proof/Machine/Rel.lean ====
section
/-! DEFINITION. Reliability, background services and recovery (chapter 17), and the lock watchdog (R419). -/

namespace Sys2Proof.Machine

/-! ## Resources (R477, R495) -/

/-- Is an identifier well-formed: its KIND, DIE and UNIT name a resource of R495? -/
def ridOk (r : Rid) : Bool :=
  let d := r.die.toNat
  let u := r.unit.toNat
  let mem := 5 ≤ d && d ≤ 10
  let core := 1 ≤ d && d ≤ 4
  let mods := (ridgeLocals d).length
  match r.kind.toNat with
  | 1 => mem && u < 128
  | 2 => mem && u < 4
  | 3 => u / 256 < mods && u % 128 ≤ 67
  | 4 => u < mods
  | 5 => 16 ≤ d && u < 8
  | 6 => 16 ≤ d && u < 32
  | 7 => mem && u < 16
  | 8 => mem && u < 8
  | 9 => core && u < 32
  | 0x0A => (core && u < 128) || ((mem || 16 ≤ d) && u < 32)
  | 0x0B => d == 0 && u < 16
  | 0x0C => d == 13 && u < 16
  | 0x0D => d == 13 && u < 128
  | 0x0E => d == 13 && u < 16
  | 0x0F => d == 13 && u < 16
  | _ => false

/-- Unit-map bit of a resource that has one: map, bit (R482). -/
def unitBit (r : Rid) : Option (Nat × Nat) :=
  let u := r.unit.toNat
  match r.kind.toNat with
  | 5 | 8 | 9 | 0x0B => some (0, u)
  | 0x0C => some (2, 16 + u)
  | 0x0D => some (u / 64, u % 64)
  | 0x0E => some (2, u)
  | _ => none

/-- Is a resource in service, its die included? -/
def ridUp (s : State) (r : Rid) : Bool :=
  let d := r.die.toNat
  let u := r.unit.toNat
  ridOk r && dieUp s d &&
    match unitBit r with
    | some (m, b) => bitAt (fldAt s d R.UNIT_MAP_IN_SERVICE m) b
    | none => match r.kind.toNat with
      | 1 => fldAt s d R.MEM_HBM_STACK_STACK_RETIRED (u / 32) == 0
          && !(fldAt s d R.MEM_HBM_STACK_PCH_RETIRED (u / 32) == 1 && fldAt s d R.MEM_HBM_STACK_PCH (u / 32) == u % 32)
      | 2 => fldAt s d R.MEM_HBM_STACK_STACK_RETIRED u == 0
      | 3 => ridgeUp s d (u / 256) && !s.svc.retired.contains (ridNum r)
      | 4 => ridgeUp s d u
      | 6 => bitAt (fld s d R.TNS_ARRAY_MAP_IN_SERVICE) u
      | 7 => bitAt (fld s d R.MEM_CL_MAP_IN_SERVICE) u
      | 0x0A => !s.svc.retired.contains (ridNum r)
      | _ => true

/-- Is a resource under the threshold rule (R477)? -/
def underThreshold (r : Rid) : Bool := r.kind == 1 || (5 ≤ r.kind.toNat && r.kind.toNat ≤ 0x0D)

/-- Clear a bit of a field of a die. -/
def clearBit (s : State) (die : Nat) (f : FRef) (i b : Nat) : State :=
  setFldAt s die f i (setBits (fldAt s die f i) b b 0)

/-! ## Retirement (R477, R479, R480) -/

/-- A pseudo-channel: the first of its stack starts a rebuild, the second retires the stack (R297, R480). -/
def retirePch (s : State) (r : Rid) (info : Option ErrInfo) : State :=
  let md := r.die.toNat - 5
  let j := r.unit.toNat / 32
  if fldAt s (5 + md) R.MEM_HBM_STACK_PCH_RETIRED j = 1 then retireStack s md j info
  else
    let s := setFldAt (setFldAt s (5 + md) R.MEM_HBM_STACK_PCH_RETIRED j 1) (5 + md) R.MEM_HBM_STACK_PCH j (r.unit.toNat % 32)
    let s := setFld s 0 R.HUB_CAPACITY1_PCH_RETIRED (fld s 0 R.HUB_CAPACITY1_PCH_RETIRED + 1)
    let s := tasksGone s r
    let s := { s with arbs := tdel s.arbs (arbKey (5 + md) (64 + r.unit.toNat)) }
    let bit : BitVec 4 := 1 <<< j
    let s := modHbm s md fun h => { h with rebuilding := h.rebuilding ||| bit }
    let s := modSvc s fun v => { v with rebuilt := tdel v.rebuilt (md * 4 + j) }
    retiredEvent s r 0 info

/-- A Spur and its four arrays (R49, R477). -/
def retireSpur (s : State) (r : Rid) : State :=
  let d := r.die.toNat
  let u := r.unit.toNat
  let map := fld s d R.TNS_ARRAY_MAP_IN_SERVICE
  let n := (List.range 4).countP fun a => bitAt map (4 * u + a)
  let s := clearBit s d R.UNIT_MAP_IN_SERVICE 0 u
  let s := setFld s d R.TNS_ARRAY_MAP_IN_SERVICE (setBits map (4 * u + 3) (4 * u) 0)
  let s := loseCapacity (loseCapacity s R.HUB_CAPACITY0_SPURS 1) R.HUB_CAPACITY0_ARRAYS n
  let s := (List.range 4).foldl (fun s a => tasksGone s (rid 6 d (4 * u + a))) s
  spurStop s ((d - 16) * 8 + u) true

/-- A matrix array: a group that holds the seat and has selected it faults at its next issue (R130). -/
def retireArray (s : State) (r : Rid) : State :=
  let d := r.die.toNat
  let u := r.unit.toNat
  let s := loseCapacity (clearBit s d R.TNS_ARRAY_MAP_IN_SERVICE 0 u) R.HUB_CAPACITY0_ARRAYS 1
  modSpur s ((d - 16) * 8 + u / 4) fun p =>
    if p.mx.seat.isSome && p.mx.sel.getLsbD (u % 4) then { p with mx := { p.mx with arrayHit := true } } else p

/-- A Couloir command starts again from its first step, in the queue of its die (R196). -/
def clRestart (s : State) (id : Nat) (c : ClCmd) : State :=
  let s := setCl s id { c with
    phase := .queued, resumed := false, step := 0, keys := 0
    state := List.replicate c.heads ⟨f32NegInf, 0, List.replicate c.dim 0⟩ }
  { s with cl := { s.cl with queues := tmod s.cl.queues c.md [] fun q => id :: q } }

/-- A Couloir engine (R196): its commands restart on another engine of the die, or end with 0x0B when none is left. -/
def retireCouloir (s : State) (r : Rid) : State :=
  let md := r.die.toNat - 5
  let e := r.unit.toNat
  let mine := s.cl.cmds.filter fun x => x.2.md == md && (x.2.phase == .running e || x.2.phase == .record e)
  let s := loseCapacity (clearBit s (5 + md) R.MEM_CL_MAP_IN_SERVICE 0 e) R.HUB_CAPACITY0_COULOIR 1
  let s := mine.reverse.foldl (fun s x => clRestart s x.1 x.2) s
  if clDieUp s md then s
  else
    let left := s.cl.cmds.filter fun x => x.2.md == md && x.2.phase == .queued
    let s := left.foldl (fun s x => clFinish s x.1 x.2 0x0B) s
    { s with cl := { s.cl with queues := tdel s.cl.queues md } }

/-- A scalar core (R479): its store buffer is discarded, its dirty lines are merged into the cluster L2. -/
def retireCore (s : State) (r : Rid) : State :=
  let h := 32 * (r.die.toNat - 1) + r.unit.toNat
  let s := loseCapacity (clearBit s r.die.toNat R.UNIT_MAP_IN_SERVICE 0 r.unit.toNat) R.HUB_CAPACITY0_CORES 1
  let a := clusterOf h
  let s := (s.hart h).l1d.foldl (fun s l => match agentLine s a l.1 with
    | some x => if l.2.dirty then setAgentLine s a l.1 { x with st := .m, data := l.2.data } else s
    | none => s) s
  { s with harts := tdel s.harts h }

/-- Entries of a directory way are evicted (R252). -/
def retireDirWay (s : State) (md w : Nat) : State :=
  ((s.home md).dir.filter fun e => e.2.way == w).foldl (fun s v =>
    let e := tget (s.home md).dir v.1 {}
    if (tget? (s.home md).txns v.1).isSome then s
    else
      let acks := invalTargets s e 1000000
      txnStep (sendInvals (countBcast s md e) v.1 acks) md v.1
        ⟨⟨.flush, 1000000, 0, v.1⟩, acks, e.own, none, true, e.avalanche⟩) s

/-- A cache way (R479): its dirty lines are written back, and replacement passes it over. -/
def retireWay (s : State) (r : Rid) : State :=
  let d := r.die.toNat
  let cache := r.unit.toNat / 16
  let w := r.unit.toNat % 16
  let s := modSvc s fun v => { v with retired := setAdd v.retired (ridNum r) }
  let s := setFld s 0 R.HUB_CAPACITY1_WAYS_RETIRED (min 255 (fld s 0 R.HUB_CAPACITY1_WAYS_RETIRED + 1))
  if 5 ≤ d ∧ d ≤ 10 then
    if cache = 1 then retireDirWay s (d - 5) w
    else
      let mine := (s.home (d - 5)).l3.filter fun e => e.2.way == w
      mine.foldl (fun s e =>
        let s := if e.2.dirty then storeLine s e.1 e.2.data e.2.poison else s
        modHome s (d - 5) fun h => { h with l3 := tdel h.l3 e.1 }) s
  else
    let a := if d < 16 then 8 * (d - 1) + cache else 32 + 2 * (d - 16) + cache
    let mine := s.coh.lines.filter fun e => e.1 / 2 ^ 46 == a && e.2.way == w
    mine.foldl (fun s e => agentEvict s a (e.1 % 2 ^ 46)) s

/-- A copy engine (R421, R479): the command running there ends with 0x0B, the others go to the next engine of the bank. -/
def retireCopy (s : State) (r : Rid) : State :=
  let e := r.unit.toNat
  let s := clearBit s 0 R.UNIT_MAP_IN_SERVICE 0 e
  match tget s.qs.engines e [] with
  | [] => s
  | cid :: rest =>
    let s := stopCmd { s with qs := { s.qs with engines := tset s.qs.engines e [cid] } } cid 0x0B
    rest.foldl (fun s c => match (s.cmd? c).bind (copyEngine s) with
      | some n => { s with qs := { s.qs with engines := tmod s.qs.engines n [] (· ++ [c]) } }
      | none => finishCmd s c 0x0B) s

/-- A tier mover (R421, R479): the commands that its moves serve end with 0x0B; with no mover left every TIER command
does. -/
def retireMover (s : State) (r : Rid) : State :=
  let u := r.unit.toNat
  let on := fun (cid : Nat) => ((s.cmd? cid).bind (moverOf s)) == some u
  let mine := s.tiers.moves.filterMap fun m => m.2.cid.bind fun c => if on c then some (m.1, c) else none
  let s := clearBit s 13 R.UNIT_MAP_IN_SERVICE 2 (16 + u)
  let s := mine.foldl (fun s x =>
    tierEnd (modTiers s fun t => { t with moves := t.moves.map fun m =>
      if m.1 = x.1 then (m.1, { m.2 with cid := none }) else m }) x.2 x.1 0x0B) s
  tierRetry s

/-- A flash channel (R477): its logical pages are lost, and handles with pages there are marked lost. -/
def retireFlash (s : State) (r : Rid) : State :=
  let u := r.unit.toNat
  let s := clearBit s 13 R.UNIT_MAP_IN_SERVICE 2 u
  let gone := (s.tiers.map.filter fun e => Config.flashChannel e.2 == u).map (·.1)
  modTiers s fun t => { t with
    map := t.map.filter fun e => !gone.contains e.1
    images := t.images.map fun i => if i.2.lpages.any gone.contains then (i.1, { i.2 with bad := true }) else i
    pool := t.pool.map fun p =>
      let hit := match tget? t.images p.1 with | some i => i.lpages.any gone.contains | none => false
      if p.2.level = 2 && hit then (p.1, { p.2 with lost := true }) else p }

/-- A resource becomes permanent-faulted and is retired (R477 to R481): it takes no further work, its bit is cleared,
the capacity lost is reported, event 0x13. -/
def retireRid (s : State) (r : Rid) (info : Option ErrInfo) : State :=
  let done := fun (s : State) (lost : Nat) => retiredEvent (tasksGone s r) r lost info
  let d := r.die.toNat
  let u := r.unit.toNat
  if !ridUp s r then s
  else match r.kind.toNat with
  | 1 => retirePch s r info
  | 2 => retireStack s (d - 5) u info
  | 3 =>
    let s := laneRepair s d (u / 256) (u / 128 % 2 == 1)
    if ridgeUp s d (u / 256) then done (modSvc s fun v => { v with retired := setAdd v.retired (ridNum r) }) 0 else s
  | 4 => ridgeRetire s d u info
  | 5 => done (retireSpur s r) 0
  | 6 => done (retireArray s r) 0
  | 7 => done (retireCouloir s r) 0
  | 8 => done (clearBit s d R.UNIT_MAP_IN_SERVICE 0 u) 0
  | 9 => done (retireCore s r) 0
  | 0x0A => done (retireWay s r) 0
  | 0x0B => done (retireCopy s r) 0
  | 0x0C => done (retireMover s r) 0
  | 0x0D => done (loseCapacity (clearBit s 13 R.UNIT_MAP_IN_SERVICE (u / 64) (u % 64)) R.HUB_CAPACITY0_BOARD_GIB 16) 16384
  | 0x0E => done (retireFlash s r) 0
  | _ => s

/-! ## Errors (R476 to R478) -/

/-- The threshold window in nanoseconds. -/
def windowNs (s : State) : Nat := fld s 0 R.HUB_REL_THRESH_WINDOW_H * 3600000000000

/-- Events of a resource since the last one posted, this one included. -/
def sincePosted (s : State) (r : Rid) : Nat := min 0xFFFF (tget s.svc.unposted (ridNum r) 0 + 1)

/-- Event 0x10, at most once per second for a resource; others are counted in the next (R494). -/
def correctedEvent (s : State) (r : Rid) (i : ErrInfo) : State :=
  let k := ridNum r
  let due : Bool := match tget? s.svc.posted k with
    | some t => decide (1000000000 ≤ s.time.toNat - t.toNat)
    | none => true
  if due then
    relEvent (modSvc s fun v => { v with posted := tset v.posted k s.time, unposted := tdel v.unposted k }) 0x10 0
      (relBody r i.cls 0 i.pa i.count i.detail 0)
  else modSvc s fun v => { v with unposted := tset v.unposted k i.count }

/-- CORRECTED_ERROR: an event of a resource under the threshold rule is counted, and posted as 0x10, or as 0x13 when it
retires the resource (R478, R481). -/
def correctedError (s : State) (r : Rid) (cls : Bool) (pa detail : Nat) (t : W64) : State :=
  let s := setTime s t
  if !underThreshold r || !ridUp s r then s
  else
    let k := ridNum r
    let n := fld s 0 R.HUB_REL_THRESH_CORR_COUNT
    let recent := (tget s.svc.times k []).filter fun x => decide (s.time.toNat - x.toNat ≤ windowNs s)
    let i : ErrInfo := ⟨b2n cls, pa, sincePosted s r, detail⟩
    if n ≤ recent.length + 1 then
      retireRid (modSvc s fun v => { v with unposted := tdel v.unposted k, times := tdel v.times k }) r (some i)
    else correctedEvent (modSvc s fun v => { v with times := tset v.times k ((s.time :: recent).take (n - 1)) }) r i

/-- A self-test joins those that wait, and asks its arbiter (R478, R490, R491). -/
def testQueue (s : State) (t : SelfTest) : State :=
  let s := modSvc s fun v => { v with tests := v.tests ++ [t] }
  match testArb t.rid with
  | some (die, a, i) => arbAsk s die a { input := i, now := t.now, id := ridNum t.rid }
  | none => s

/-- Pseudo-channels that a line's codeword uses (R294). -/
def linePchs (s : State) (ln : Nat) : List Rid :=
  let st := (hbmPlace s (ln * 64)).1
  (List.range 18).map fun g => rid 1 (5 + st / 4) (32 * (st % 4) + pchOf s ln g)

/-- An HBM codeword that stays uncorrected: event 0x11, and a self-test of each of its pseudo-channels (R478, R484). -/
def codewordLost (s : State) (ln detail : Nat) : State :=
  let st := (hbmPlace s (ln * 64)).1
  let s := relEvent s 0x11 0 (relBody (rid 2 (5 + st / 4) (st % 4)) 2 6 (ln * 64) 1 detail 0)
  ((linePchs s ln).filter (ridUp s)).foldl (fun s r => testQueue s { rid := r, now := false, cmd := false }) s

/-- UNCORRECTED_ERROR: contained as poison; it retires the resource, or queues the tests of a codeword (R476, R478). -/
def uncorrectedError (s : State) (r : Rid) (pa detail : Nat) (t : W64) : State :=
  let s := setTime s t
  if !ridUp s r then s
  else
    let s := if pa ≠ 0 ∧ isMem pa ∧ !lineRetired s (pa / 64) then setPoison s (pa / 64) true else s
    if r.kind.toNat ≤ 2 then (if pa < hbmEnd then codewordLost s (pa / 64) detail else s)
    else
      let n := sincePosted s r
      let s := modSvc s fun v => { v with unposted := tdel v.unposted (ridNum r) }
      let s := relEvent s 0x11 0 (relBody r 2 (if pa = 0 then 0 else 6) pa n detail 0)
      retireRid s r (some ⟨2, pa, 0, detail⟩)

/-! ## Rebuild (R480) -/

/-- Lines of a stack. -/
abbrev stackLines : Nat := 2 ^ 31

/-- Is a stack being rebuilt? -/
def rebuilding (s : State) (md j : Nat) : Bool := (tget s.tiers.hbm md {}).rebuilding.getLsbD j

/-- STACK_REBUILD_STEP: one line is decoded with the retired channel as erasures and rewritten; what it holds stays. -/
def rebuildStep (s : State) (md j : Nat) : State :=
  if rebuilding s md j then modSvc s fun v => { v with rebuilt := tmod v.rebuilt (md * 4 + j) 0 (· + 1) } else s

/-- STACK_REBUILD_DONE. -/
def rebuildDone (s : State) (md j : Nat) : State :=
  let keep : BitVec 4 := ~~~(1 <<< j)
  let s := modHbm s md fun h => { h with rebuilding := h.rebuilding &&& keep }
  modSvc s fun v => { v with rebuilt := tdel v.rebuilt (md * 4 + j) }

/-! ## Scree sweep (R483 to R486) -/

/-- Line number of the n-th line of a stack, in the order of its offsets (R293). -/
def stackLine (s : State) (st n : Nat) : Nat :=
  let g := stretchGib s 0
  let o := n * 64
  let spread := (512 - g) * gib / 4
  (if o < spread then (o / 2048 * 24 + st) * 2048 + o % 2048
   else
    let p := o - spread
    6 * (512 - g) * gib + st / 4 * g * gib + (p / 2048 * 4 + st % 4) * 2048 + p % 2048) / 64

/-- Stacks in service. -/
def stacksUp (s : State) : List Nat :=
  (List.range 24).filter fun st => dieUp s (5 + st / 4) && fldAt s (5 + st / 4) R.MEM_HBM_STACK_STACK_RETIRED (st % 4) == 0

/-- HBM_DONE, BOARD_DONE, and the next pass where one that has overrun ends (R486). -/
def screeProgress (s : State) (board : Bool) : State :=
  if board then
    let all := 2 ^ 35
    if all ≤ s.svc.boardDone ∧ s.svc.boardOver then
      setFld (modSvc s fun v => { v with boardDone := 0, boardOver := false }) 0 R.HUB_SCREE_STATUS_BOARD_DONE 0
    else setFld s 0 R.HUB_SCREE_STATUS_BOARD_DONE (min 100 (s.svc.boardDone * 100 / all))
  else
    let up := stacksUp s
    let done := (up.map fun st => min stackLines (tget s.svc.hbmDone st 0)).sum
    let all := up.length * stackLines
    if all ≤ done ∧ s.svc.hbmOver then
      setFld (modSvc s fun v => { v with hbmDone := [], hbmOver := false }) 0 R.HUB_SCREE_STATUS_HBM_DONE 0
    else setFld s 0 R.HUB_SCREE_STATUS_HBM_DONE (if all = 0 then 100 else done * 100 / all)

/-- SCREE_HBM_STEP (R484). -/
def screeHbm (s : State) (md j : Nat) (errs errs2 : List (Fin 72)) : State :=
  let st := 4 * md + j
  let n := tget s.svc.hbmDone st 0
  if fld s 0 R.HUB_SCREE_CFG_HBM_H = 0 || !(stacksUp s).contains st || stackLines ≤ n then s
  else
    let ln := stackLine s st n
    let r := readCodeword s md ln errs errs2
    let s := if r.2 then codewordLost (bumpErr r.1 0 R.HUB_SCREE_STATUS_HBM_POISONED) ln 0 else r.1
    screeProgress (modSvc s fun v => { v with
      hbmDone := tset v.hbmDone st (n + 1)
      abandons := v.abandons.filter fun e => e.1 / 2 ^ 32 = 0 || e.1 % 2 ^ 13 ≠ 1 + (5 + md) * 2 ^ 8 }) false

/-- SCREE_BOARD_STEP: channels out of service are skipped (R485, R486). -/
def screeBoard (s : State) (linkErr : Bool) : State :=
  let n := s.svc.boardDone
  let at_ := fun (k : Nat) => boardBase / 64 + k
  let next := (n :: (List.range 128).map fun i => (n / 32 + 1 + i) * 32).find? fun k => !lineRetired s (at_ k)
  if fld s 0 R.HUB_SCREE_CFG_BOARD_H = 0 ∨ 2 ^ 35 ≤ n ∨ !dieUp s 13 then s
  else match next with
    | none => s
    | some k =>
      let s := if 2 ^ 35 ≤ k ∨ !linkErr ∨ linePoison s (at_ k) then s
        else
          let s := bumpErr (setPoison s (at_ k) true) 0 R.HUB_SCREE_STATUS_BOARD_POISONED
          relEvent s 0x11 0 (relBody (rid 0x0D 13 (boardChannel (at_ k * 64))) 2 6 (at_ k * 64) 1 0 0)
      screeProgress (modSvc s fun v => { v with boardDone := k + 1 }) true

/-- SCREE_PERIOD_END (R486). -/
def screePeriod (s : State) (board : Bool) : State :=
  if board then
    if fld s 0 R.HUB_SCREE_CFG_BOARD_H = 0 then s
    else if 2 ^ 35 ≤ s.svc.boardDone then screeProgress (modSvc s fun v => { v with boardDone := 0 }) true
    else modSvc (setFld s 0 R.HUB_SCREE_STATUS_BOARD_LAG 1) fun v => { v with boardOver := true }
  else if fld s 0 R.HUB_SCREE_CFG_HBM_H = 0 then s
  else if (stacksUp s).all fun st => stackLines ≤ tget s.svc.hbmDone st 0 then
    screeProgress (modSvc s fun v => { v with hbmDone := [] }) false
  else modSvc (setFld s 0 R.HUB_SCREE_STATUS_HBM_LAG 1) fun v => { v with hbmOver := true }

/-! ## Cairn (R487, R488) -/

/-- Resource that an item shares its place with: at most one of a place is calibrated at a time (R487). -/
def cairnPlace (r : Rid) : Nat × Nat × Nat :=
  let d := r.die.toNat
  let u := r.unit.toNat
  if r.kind = 1 then (1, d, u / 32)
  else if r.kind = 4 then
    let far := ((ridgeFar d u).map (·.1)).getD 0
    (4, min d far, max d far)
  else (r.kind.toNat, 0, 0)

/-- Identifier of a number. -/
def numRid (n : Nat) : Rid := ⟨BitVec.ofNat 8 n, BitVec.ofNat 5 (n / 2 ^ 8), BitVec.ofNat 19 (n / 2 ^ 13)⟩

/-- Calibration period of an item; 0: off. -/
def cairnPeriod (s : State) (r : Rid) : Nat :=
  if r.kind = 1 ∨ r.kind = 0x0D then fld s 0 R.HUB_CAIRN_CFG_HBM_MIN
  else if r.kind = 4 then fld s 0 R.HUB_CAIRN_CFG_RIDGE_MIN
  else if r.kind = 0x0E then 1440
  else 0

/-- CAIRN_CALIBRATION: an item of the scheduler asks for its quiesce window. Sensors need none, and have no RID. -/
def cairnStart (s : State) (r : Rid) : State :=
  if !ridUp s r || cairnPeriod s r == 0 || s.svc.cairn.any fun n => cairnPlace (numRid n) == cairnPlace r then s
  else
    let s := modSvc s fun v => { v with cairn := v.cairn ++ [ridNum r] }
    match cairnArb r with
    | some (die, a, i) => arbAsk s die a { input := i, id := ridNum r }
    | none => s

/-! ## Self-tests (R490 to R492) -/

/-- Is a hart in the stopped state: has it done nothing since its reset (log 28)? -/
def hartStopped (s : State) (h : Nat) : Bool := s.hart h == {}

/-- SELFTEST_REQUEST: the DS store to HUB_SELFTEST_CMD (R490). -/
def selftestRequest (s : State) (ctx : BitVec 16) (val : Nat) : State :=
  let r := numRid (val / 2 ^ 32)
  let finish := fun (st : Nat) =>
    setFld (setFld s 0 R.HUB_SELFTEST_STATUS_RESULT st) 0 R.HUB_SELFTEST_STATUS_RID (ridNum r)
  let running := r.kind = 9 && !hartStopped s (32 * (r.die.toNat - 1) + r.unit.toNat)
  if !dieUp s 0 then s
  else if fld s 0 R.HUB_SELFTEST_STATUS_BUSY = 1 then setFld s 0 R.HUB_SELFTEST_STATUS_DROPPED 1
  else if !ridOk r || ctx != 0 then finish 0x0F
  else if !ridUp s r then finish 0x0B
  else if running then finish 0x0F
  else
    let s := setFld (setFld s 0 R.HUB_SELFTEST_STATUS_BUSY 1) 0 R.HUB_SELFTEST_STATUS_RID (ridNum r)
    testQueue s { rid := r, now := bitAt val 31, cmd := true }

/-- Has a test's quiesce window come (R491)? -/
def testMayStart (s : State) (t : SelfTest) : Bool :=
  let d := t.rid.die.toNat
  let u := t.rid.unit.toNat
  let spur := fun (n : Nat) => let p := s.spur ((d - 16) * 8 + n); p.blocks.isEmpty && p.mx.seat.isNone
  match testArb t.rid with
  | some (die, a, i) => match (s.arb die a).holder with
    | some h => h.input == i && h.id == ridNum t.rid
    | none => false
  | none => match t.rid.kind.toNat with
    | 5 => spur u
    | 6 => spur (u / 4)
    | 7 => (clRunning s (d - 5) u).isNone || (t.now && (clRecords s (d - 5) u).length < 4)
    | 8 => (s.helper (d - 5)).walks.isEmpty
    | 0x0D | 0x0E => !s.svc.cairn.any fun n => (numRid n).kind == t.rid.kind
    | _ => true

/-- SELFTEST_START: the oldest waiting test whose window has come starts. -/
def selftestStart (s : State) : State :=
  match s.svc.tests.find? fun t => !t.running && testMayStart s t with
  | none => s
  | some t =>
    let d := t.rid.die.toNat
    let u := t.rid.unit.toNat
    let s := modSvc s fun v => { v with tests := v.tests.map fun x => if x = t then { x with running := true } else x }
    let s := match testArb t.rid with
      | some (die, a, _) => modArb s die a fun x => { x with locked := true }
      | none => s
    if t.rid.kind = 1 then
      let bit : BitVec 4 := 1 <<< (u / 32)
      modHbm s (d - 5) fun h => { h with testing := h.testing ||| bit }
    else if t.rid.kind = 7 then
      match clRunning s (d - 5) u with
      | some (id, c) => setCl s id { c with phase := .record u }
      | none => s
    else s

/-- SELFTEST_START_TIMEOUT: the oldest test that has not started completes with 0x0C (R492). -/
def selftestTimeout (s : State) : State :=
  match s.svc.tests.find? fun t => !t.running with
  | some t => testEnd s t 0x0C
  | none => s

/-- SELFTEST_RESULT: the oldest running test ends; a failed one retires its resource (R492). -/
def selftestResult (s : State) (res : Nat) : State :=
  match s.svc.tests.find? (·.running) with
  | none => s
  | some t =>
    let s := testEnd s t (if res = 0 then 0 else if res = 1 then 0x0B else 0x0C)
    if res = 1 then retireRid s t.rid none else s

/-! ## Lock watchdog (R419) -/

/-- LOCK_WATCHDOG_EXPIRY: the owner of an arbiter's locked sequence is declared failed, its grant and lock end. A rebuild
step and a sweep step are locked sequences without a grant that outlasts their command. -/
def lockWatchdog (s : State) (die a : Nat) : State :=
  if !dieUp s die then s
  else
    let fire := fun (s : State) => bumpErr s die R.ARB_ERR_WATCHDOG
    let pch := 5 ≤ die && die ≤ 10 && 64 ≤ a && a < 192
    match (s.arb die a).holder with
    | some h =>
      let r := numRid h.id
      let test := match testArb r with | some (d, b, i) => d == die && b == a && i == h.input | none => false
      let cairn := match cairnArb r with | some (d, b, i) => d == die && b == a && i == h.input | none => false
      if test then
        match s.svc.tests.find? fun t => t.rid == r with
        | some t => arbGrant (testEnd (fire s) t 0x0C) die a
        | none => s
      else if cairn then arbGrant (cairnEnd (fire s) r true) die a
      else s
    | none =>
      if !pch then s
      else if rebuilding s (die - 5) ((a - 64) / 32) then retireStack (fire s) (die - 5) ((a - 64) / 32)
      else if fld s 0 R.HUB_SCREE_CFG_HBM_H ≠ 0 then taskAbandoned (fire s) (rid 1 die (a - 64)) false
      else s

/-! ## Telemetry (R497) and fatal errors (R498) -/

/-- TJ of a die, or 0 out of service. -/
def tjOf (s : State) (die : Nat) : Nat := if dieUp s die then fld s die R.PWR_STATUS_TJ else 0

/-- The bytes of a telemetry record. -/
def telBytes (s : State) (seq : Nat) : List Byte :=
  let pin := fld s 0 R.HUB_PWR_INPUT_PIN + fld s 0 R.HUB_PWR_STATE_EFF_CAP * 2 ^ 16
    + fld s 0 R.HUB_PWR_STATE_TLM_FAIL * 2 ^ 25 + fld s 0 R.HUB_PWR_STATE_INLET * 2 ^ 26
  let stack := fun (n : Nat) =>
    if fldAt s (5 + n / 4) R.MEM_HBM_STACK_STACK_RETIRED (n % 4) = 1 then 0
    else fldAt s (5 + n / 4) R.MEM_HBM_STACK_TEMP (n % 4)
  leBytes 8 seq ++ leBytes 8 s.time.toNat ++ leBytes 8 pin
  ++ (List.range 32).map (fun d => BitVec.ofNat 8 (tjOf s d))
  ++ (List.range 24).map (fun n => BitVec.ofNat 8 (stack n))
  ++ (List.range 32).flatMap (fun d => leBytes 2 (fld s d R.PWR_STATUS_PCTL / 4))
  ++ List.replicate 112 0

/-- TELEMETRY_RECORD. -/
def telemetryRecord (s : State) (t : W64) : State :=
  let s := setTime s t
  if fld s 0 R.HUB_TEL_CFG_PERIOD_MS = 0 then s
  else
    let seq := (fld s 0 R.HUB_TEL_HEAD_SEQ + 1) % 2 ^ 32
    let pa := fld s 0 R.HUB_TEL_CFG_BASE * 4096 + 256 * (seq % 2 ^ (fld s 0 R.HUB_TEL_CFG_SIZE + 8))
    if pa < hbmEnd ∧ !rangeIdle s pa 256 then s
    else
      let s := if pa < hbmEnd then cohPut s pa (telBytes s seq) false else s
      setFld s 0 R.HUB_TEL_HEAD_SEQ seq

/-- FATAL_ERROR: an uncorrected error in the logic of the hub, a memory die or the tier die, or a lost stream. -/
def fatalError (s : State) (cause die : Nat) : State :=
  if (cause = 1 ∧ (die = 0 ∨ (5 ≤ die ∧ die ≤ 10) ∨ die = 13)) ∨ cause = 2 then fatal s cause die else s

/-! ## The meanings -/

/-- LOCK_WATCHDOG_EXPIRY. -/
def execLockWatchdogExpiry (die : Fin 32) (arb : Nat) (s : State) : Host.Outcome State Fault Refusal :=
  .next (lockWatchdog s die arb)
/-- CORRECTED_ERROR. -/
def execCorrectedError (rid : Rid) (cls : Bool) (pa : BitVec 52) (detail : BitVec 16) (t : W64) (s : State) :
    Host.Outcome State Fault Refusal := .next (correctedError s rid cls pa.toNat detail.toNat t)
/-- UNCORRECTED_ERROR. -/
def execUncorrectedError (rid : Rid) (pa : BitVec 52) (detail : BitVec 16) (t : W64) (s : State) :
    Host.Outcome State Fault Refusal := .next (uncorrectedError s rid pa.toNat detail.toNat t)
/-- STACK_REBUILD_STEP. -/
def execStackRebuildStep (md : Fin 6) (stack : Fin 4) (s : State) : Host.Outcome State Fault Refusal :=
  .next (rebuildStep s md stack)
/-- STACK_REBUILD_DONE. -/
def execStackRebuildDone (md : Fin 6) (stack : Fin 4) (s : State) : Host.Outcome State Fault Refusal :=
  .next (rebuildDone s md stack)
/-- SCREE_HBM_STEP. -/
def execScreeHbmStep (md : Fin 6) (stack : Fin 4) (errs errs2 : List (Fin 72)) (s : State) :
    Host.Outcome State Fault Refusal := .next (screeHbm s md stack errs errs2)
/-- SCREE_BOARD_STEP. -/
def execScreeBoardStep (linkErr : Bool) (s : State) : Host.Outcome State Fault Refusal := .next (screeBoard s linkErr)
/-- SCREE_PERIOD_END. -/
def execScreePeriodEnd (board : Bool) (s : State) : Host.Outcome State Fault Refusal := .next (screePeriod s board)
/-- CAIRN_CALIBRATION. -/
def execCairnCalibration (rid : Rid) (s : State) : Host.Outcome State Fault Refusal := .next (cairnStart s rid)
/-- CAIRN_TASK_END. -/
def execCairnTaskEnd (rid : Rid) (watchdog : Bool) (s : State) : Host.Outcome State Fault Refusal :=
  .next (cairnEnd s rid watchdog)
/-- SELFTEST_REQUEST. -/
def execSelftestRequest (ctx : BitVec 16) (val : W64) (s : State) : Host.Outcome State Fault Refusal :=
  .next (selftestRequest s ctx val.toNat)
/-- SELFTEST_START. -/
def execSelftestStart (s : State) : Host.Outcome State Fault Refusal := .next (selftestStart s)
/-- SELFTEST_START_TIMEOUT. -/
def execSelftestStartTimeout (s : State) : Host.Outcome State Fault Refusal := .next (selftestTimeout s)
/-- SELFTEST_RESULT. -/
def execSelftestResult (res : Fin 3) (s : State) : Host.Outcome State Fault Refusal := .next (selftestResult s res)
/-- TELEMETRY_RECORD. -/
def execTelemetryRecord (t : W64) (s : State) : Host.Outcome State Fault Refusal := .next (telemetryRecord s t)
/-- FATAL_ERROR. -/
def execFatalError (cause : BitVec 3) (die : Fin 32) (s : State) : Host.Outcome State Fault Refusal :=
  .next (fatalError s cause.toNat die)

end Sys2Proof.Machine
end

