-- ==== Sys2Proof/Machine/Power.lean ====
section
/-! DEFINITION. Power, droop and thermal control (chapter 15). Watts are counted in quarters. -/

namespace Sys2Proof.Machine

/-! ## Orderly power-down -/

/-- An orderly power-down is requested: STATE 6, or before STATE 3 the rails go off at once (R454, R504). -/
def orderlyDown (s : State) : State :=
  if !s.boot.powered || s.boot.down then s
  else if s.boot.state < 3 then railsOff s
  else setBootState (modBoot s fun b => { b with down := true }) 6

/-- FAULT_N is asserted (R502); the endpoint raises an alert while it has power (R506). -/
def faultOut (s : State) : State :=
  { modBoot s fun b => { b with faultN := true } with mgmt := { s.mgmt with alert := true } }

/-! ## Effective cap and efficiency (R432, R438, R447) -/

/-- Is telemetry failed? -/
def tlmFailed (s : State) : Bool := s.pwr.failed != []

/-- Coolant limit in W (R454). -/
def coolantLimit (s : State) : Nat := 7500 - 250 * (fld s 0 R.HUB_PWR_STATE_INLET - 40)

/-- Effective cap in W: the least of four (R432). Before the first measurement of the input the second does not bind. -/
def effCap (s : State) : Rat :=
  let cap : Rat := (25 * fld s 0 R.HUB_TREELINE_CAP_CAP : Nat)
  let vs := (s.pwr.hist.take 100).map fun h => h.2.2
  let volt : Rat := if vs = [] then cap else (187.5 : Rat) * ((vs.sum : Nat) : Rat) / ((100 * vs.length : Nat) : Rat)
  let cool : Rat := (coolantLimit s : Nat)
  min (min cap volt) (min cool (if tlmFailed s then (0.9 : Rat) * cap else cap))

/-- η (R438): held between 0.88 and 0.96; 0.90 while telemetry is failed. -/
def efficiency (s : State) : Rat :=
  let rails := (s.pwr.hist.map fun h => h.1).sum
  let input := (s.pwr.hist.map fun h => h.2.1).sum
  if tlmFailed s then 0.9
  else if input = 0 then (238 : Rat) / 256
  else max 0.88 (min 0.96 (((rails : Nat) : Rat) / ((input : Nat) : Rat)))

/-- The fields that report them. -/
def setInput (s : State) : State :=
  let s := setFld s 0 R.HUB_PWR_STATE_TLM_FAIL (b2n (tlmFailed s))
  let s := setFld s 0 R.HUB_PWR_STATE_EFF_CAP ((effCap s / 25).floor.toNat)
  setFld s 0 R.HUB_PWR_INPUT_ETA ((efficiency s * 256).floor.toNat)

/-! ## Droop (R448, R449) -/

/-- DROOP_N of a rail group is asserted. -/
def droopAssert (s : State) (g : Nat) : State :=
  let die := groupDie g
  if !dieUp s die || (s.pwrDie die).asserting.contains g then s
  else
    let s := bumpEventAt s die R.PWR_DROOPS_COUNT 0 R.PWR_STATUS_DROOP_OVF 0 1
    let s := modPwr s die fun p => { p with asserting := g :: p.asserting, droop := if stretches g then 1 else p.droop }
    if stretches g then setFld s die R.PWR_STATUS_DROOP 1 else s

/-- DROOP_N of a rail group is released: the die counts DROOP_HOLD cycles. -/
def droopRelease (s : State) (g : Nat) : State :=
  let die := groupDie g
  if !(s.pwrDie die).asserting.contains g then s
  else modPwr s die fun p =>
    let left := p.asserting.filter (· != g)
    { p with asserting := left, droop := if p.droop = 1 ∧ !left.any stretches then 2 else p.droop }

/-- DROOP_HOLD cycles have passed. -/
def droopHold (s : State) (die : Nat) : State :=
  modPwr s die fun p => { p with droop := if p.droop = 2 then 3 else p.droop }

/-- 16 cycles at 1.5 times the period have passed. -/
def droopDone (s : State) (die : Nat) : State :=
  if (s.pwrDie die).droop = 3 then setFld (modPwr s die fun p => { p with droop := 0 }) die R.PWR_STATUS_DROOP 0 else s

/-! ## Input (R430 to R433) -/

/-- Sum of the rail groups' latest measurements. -/
def railSum (s : State) : Nat := (s.pwr.dies.map fun e => (e.2.meas.map Prod.snd).sum).sum

/-- INPUT_SAMPLE. -/
def inputSample (s : State) (v i p : Nat) (overLong : Bool) : State :=
  let s := setFld (setFld (setFld s 0 R.HUB_PWR_INPUT_VIN v) 0 R.HUB_PWR_INPUT_IIN i) 0 R.HUB_PWR_INPUT_PIN p
  let s := if v < 4000 then setFld s 0 R.HUB_PWR_STATE_VIN_LOW 1 else s
  let s := if 5000 < v then setFld s 0 R.HUB_PWR_STATE_VIN_HIGH 1 else s
  let ok := p != 0 && p ≤ 9000
  let s := { s with pwr := { s.pwr with
    hist := ((railSum s, 4 * p, v) :: s.pwr.hist).take 1000
    failed := if ok then setDel s.pwr.failed 40 else setAdd s.pwr.failed 40 } }
  let s := setInput s
  let s := if 20000 ≤ i then (List.range 40).foldl droopAssert s else s
  if overLong then railsOff (faultOut s) else s

/-! ## Rail telemetry and the estimator (R444 to R447) -/

/-- A non-negative number as binary32, rounded to nearest, ties to even. -/
def ratF32 (r : Rat) : Nat :=
  let n := r.num.natAbs
  let sh := 64 + Nat.log2 (r.den + 1)
  let q := n * 2 ^ sh / r.den
  let m := 2 * q + b2n (n * 2 ^ sh % r.den != 0)
  fp32.encode .rne (.fin false m (-(sh : Int) - 1))

/-- A mode is entered: event 0x17 (R446, R496). -/
def setMode (s : State) (die mode : Nat) : State :=
  let old := fld s die R.PWR_STATUS_MODE
  relEvent (setFld s die R.PWR_STATUS_MODE mode) 0x17 0
    (body4 (die + old * 2 ^ 5 + mode * 2 ^ 7) (ratF32 (s.pwrDie die).g) 0 0)

/-- P_ctl by the mode (R446). -/
def pctlOf (s : State) (die : Nat) : Nat :=
  let p := s.pwrDie die
  let e : Rat := p.g * ((p.e : Nat) : Rat)
  match fld s die R.PWR_STATUS_MODE with
  | 1 => (p.meas.map Prod.snd).sum
  | 2 => ((1.15 : Rat) * e).floor.toNat
  | _ => e.floor.toNat

/-- Does an array of a tensor die stand at a ramp-up step, so that a ramp hold comes before a clock step (R443, R450)? -/
def ramping (s : State) (die : Nat) : Bool :=
  decide (16 ≤ die) && (List.range 8).any fun i => (s.spur ((die - 16) * 8 + i)).mx.ramps.any fun r =>
    match r.2 with
    | .up _ => true
    | _ => false

/-- The loop of R443: P_ctl against the limit, one step. Under R451 it rests. The flag: it lowered the clock or held a
ramp. -/
def controlLoop (s : State) (die : Nat) : State × Bool :=
  let p := s.pwrDie die
  let c := pctlOf s die
  let limit := fld s die R.PWR_STATUS_LIMIT
  let s := setFld s die R.PWR_STATUS_PCTL (min 65535 c)
  let thr : Bool := fld s die R.PWR_STATUS_THROTTLE == 1
  if thr then (s, true)
  else if limit < c then
    if ramping s die then (s, true)
    else if p.step < maxSteps die then (modPwr s die fun p => { p with step := p.step + 1 }, true)
    else (modPwr s die fun p => { p with gaps := dieClass false die == 2 }, false)
  else
    let s := modPwr s die fun p => { p with gaps := false }
    if c + (Config.stepCost (1 + dieClass false die)).toNat < limit ∧ p.step ≠ 0 then
      (modPwr s die fun p => { p with step := p.step - 1 }, false)
    else (s, false)

/-- A quotient; with a divisor of 0 the manual gives none, and it is a free value (log 4). -/
def quotient (s : State) (a b : Nat) : Rat × State :=
  if b = 0 then
    let d := drawFree s
    (((d.1.toNat : Nat) : Rat), d.2)
  else (((a : Nat) : Rat) / ((b : Nat) : Rat), s)

/-- A sample of a domain: measurement m and average estimate e (R445, R446). -/
def domainSample (s : State) (die m e : Nat) (ok : Bool) : State :=
  let p := s.pwrDie die
  let ge : Rat := p.g * ((e : Nat) : Rat)
  let mr : Rat := ((m : Nat) : Rat)
  let far : Bool := decide ((0.2 : Rat) * mr < (if ge < mr then mr - ge else ge - mr))
  let s := modPwr s die fun p => { p with repM := p.repM + m, repE := p.repE + e }
  match fld s die R.PWR_STATUS_MODE with
  | 2 =>
    if !ok then modPwr s die fun p => { p with good := 0, goodM := 0, goodE := 0 }
    else if p.good + 1 < 1000 then
      modPwr s die fun p => { p with good := p.good + 1, goodM := p.goodM + m, goodE := p.goodE + e }
    else
      let r := quotient s (p.goodM + m) (p.goodE + e)
      let s := { r.2 with pwr := { r.2.pwr with failed := r.2.pwr.failed.filter fun g => !(domainOf die).contains g } }
      let s := modPwr s die fun p => { p with
        g := r.1, good := 0, goodM := 0, goodE := 0, dis := 0, disM := 0, disE := 0, agree := 0 }
      setInput (setMode s die 0)
  | 1 =>
    let s := if far then modPwr s die fun p => { p with agree := 0 }
      else if p.agree + 1 < 10 then modPwr s die fun p => { p with agree := p.agree + 1 }
      else setMode (modPwr s die fun p => { p with agree := 0, dis := 0, disM := 0, disE := 0 }) die 0
    if fld s die R.PWR_STATUS_MODE = 1 then
      let r := controlLoop s die
      modPwr r.1 die fun p => { p with lowered := p.lowered || r.2 }
    else s
  | _ =>
    if !far then
      let r := quotient s m e
      modPwr r.2 die fun p => { p with g := p.g + (r.1 - p.g) / 64, dis := 0, disM := 0, disE := 0 }
    else if p.dis + 1 < 50 then
      modPwr s die fun p => { p with dis := p.dis + 1, disM := p.disM + m, disE := p.disE + e }
    else
      let r := quotient s (p.disM + m) (p.disE + e)
      let s := modPwr r.2 die fun p => { p with g := r.1, dis := 0, disM := 0, disE := 0, agree := 0 }
      setMode (bumpErr s die R.PWR_ERR_RECAL) die 1

/-- A rail group is failed: mode 2 for its die (R444, R446, R447). -/
def groupFailed (s : State) (g : Nat) : State :=
  let die := groupDie g
  let s := setInput { s with pwr := { s.pwr with failed := setAdd s.pwr.failed g } }
  let s := modPwr s die fun p => { p with good := 0, goodM := 0, goodE := 0 }
  if fld s die R.PWR_STATUS_MODE = 2 then s else setMode s die 2

/-- RAIL_TELEMETRY_SAMPLE: a sample of the domain is formed when every group of it has reported. -/
def railSample (s : State) (g m e : Nat) : State :=
  let die := groupDie g
  if !dieUp s die then s
  else
    let s := modPwr s die fun p => { p with meas := tset p.meas g m, got := setAdd p.got g }
    let s := if m = 0 ∨ railMax g < m then groupFailed s g else s
    let p := s.pwrDie die
    if (domainOf die).all p.got.contains then
      let ms := (domainOf die).map fun x => (x, tget p.meas x 0)
      let ok := ms.all fun x => x.2 != 0 && x.2 ≤ railMax x.1
      domainSample (modPwr s die fun p => { p with got := [] }) die (ms.map Prod.snd).sum e ok
    else s

/-- TELEMETRY_TIMEOUT. -/
def telemetryTimeout (s : State) (src : Nat) : State :=
  if src = 40 then setInput { s with pwr := { s.pwr with failed := setAdd s.pwr.failed 40 } }
  else if dieUp s (groupDie src) then
    groupFailed (modPwr s (groupDie src) fun p => { p with meas := tset p.meas src 0 }) src
  else s

/-! ## Reports and grants (R437 to R440) -/

/-- POWER_REPORT: a die's report goes to its slot at the hub. -/
def powerReport (s : State) (die k : Nat) : State :=
  if !dieUp s die then s
  else
    let p := s.pwrDie die
    let limited := p.ticks.any Prod.snd
    let demand : Rat := if limited then ((ceilOf s die : Nat) : Rat)
      else max ((floorOf s die : Nat) : Rat) ((1.1 : Rat) * ((p.high : Nat) : Rat) / 10)
    let s := modPwr s die fun p => { p with repM := 0, repE := 0, high := 0 }
    { s with pwr := { s.pwr with reports := tset s.pwr.reports die ⟨k, demand, p.repM, p.repE⟩ } }

/-- A die as the power manager sees it: FLOOR, want, WEIGHT. -/
structure PwrWant where
  die : Nat
  floor : Rat
  want : Rat
  weight : Nat
deriving DecidableEq, Repr

/-- What a die in service wants for epoch k (R438); one that has sent no report for it wants its floor. -/
def wantOf (s : State) (k die : Nat) : PwrWant :=
  let f : Rat := ((floorOf s die : Nat) : Rat)
  let c : Rat := ((ceilOf s die : Nat) : Rat)
  let d : Rat := ((tget? s.pwr.reports die).bind fun r => if r.k = k then some r.demand else none).getD 0
  ⟨die, f, min c (max f d), fld s die R.PWR_CFG_WEIGHT⟩

/-- Raise x over the dies in the order in which they are satisfied, while power is left: the largest x (R438). -/
def fillLevel : List PwrWant → Rat → Rat → Rat
  | [], x, _ => x
  | w :: ws, x, left =>
    let wt : Rat := (((w :: ws).map (·.weight)).sum : Nat)
    let stop : Rat := (w.want - w.floor) / (((w.weight : Nat)) : Rat)
    let cost : Rat := (stop - x) * wt
    if cost ≤ left then fillLevel ws stop (left - cost) else x + left / wt

/-- The grants of the dies in service (R438). -/
def computeGrants (s : State) (k : Nat) : List (Nat × Rat) :=
  let a : Rat := 4 * effCap s * efficiency s
  let all := ((List.range 32).filter (dieUp s)).map (wantOf s k)
  let isService := fun (w : PwrWant) => !(dieClass false w.die == 1 || dieClass false w.die == 7)
  let service := all.filter isService
  let others := all.filter fun w => !isService w
  let sum := fun (l : List Rat) => l.foldl (· + ·) 0
  let left := a - sum (all.map (·.floor))
  let excess := sum (service.map fun w => w.want - w.floor)
  let g1 := service.map fun w =>
    (w.die, if excess ≤ left then w.want else w.floor + (w.want - w.floor) * left / excess)
  let left := a - sum (g1.map Prod.snd) - sum (others.map (·.floor))
  let key := fun (w : PwrWant) => (w.want - w.floor) / ((w.weight : Nat) : Rat)
  let x := fillLevel (sortBy (fun u v => decide (key u ≤ key v)) others) 0 left
  g1 ++ others.map fun w => (w.die, min w.want (w.floor + ((w.weight : Nat) : Rat) * x))

/-- GRANT_COMPUTE: once the hub's power block is locked, the grants go to the dies' slots (R438, R439, R455). -/
def grantCompute (s : State) (k : Nat) : State :=
  if !dieUp s 0 ∨ !bitAt (fld s 0 R.LOCK_STATE_LOCKED) 0 then s
  else
    let s' := { s with pwr := { s.pwr with reports := s.pwr.reports.filter fun r => k < r.2.k } }
    (computeGrants s k).foldl (fun s e =>
      { s with pwr := { s.pwr with grants := tset s.pwr.grants e.1 (k, e.2.floor.toNat) } }) s'

/-- GRANT_RECEIVE. -/
def grantReceive (s : State) (die : Nat) (t : W64) : State :=
  let s := setTime s t
  match tget? s.pwr.grants die with
  | none => s
  | some (k, v) =>
    let s := { s with pwr := { s.pwr with grants := tdel s.pwr.grants die } }
    if !dieUp s die then s
    else
      let s := setFld s die R.PWR_STATUS_STALE 0
      if 100000 * k ≤ s.time.toNat then applyGrant s die k v else modPwr s die fun p => { p with next := some (k, v) }

/-- EPOCH_BOUNDARY: loans of earlier epochs end, and the grant of epoch k applies, or STALE is set (R440, R442). -/
def epochBoundary (s : State) (die k : Nat) : State :=
  if !dieUp s die then s
  else
    let s := setTime s (BitVec.ofNat 64 (100000 * k))
    let s := modPwr s die fun p => { p with
      epoch := k
      lent := if p.epoch < k then 0 else p.lent
      loans := p.loans.filter fun l => k ≤ l.1 }
    let s := match (s.pwrDie die).next with
      | some (n, v) => if n ≤ k then applyGrant s die n v else setLimit s die
      | none => setLimit s die
    if (s.pwrDie die).gotFor = some k then s else setFld s die R.PWR_STATUS_STALE 1

/-! ## Lending (R442) -/

/-- Neighbours that a die may lend to. -/
def lendTo (die : Nat) : List Nat :=
  if 16 ≤ die then [16 + (die - 16 + 15) % 16, 16 + (die - 15) % 16]
  else if 5 ≤ die ∧ die ≤ 10 then [die - 1, die + 1].filter fun d => 5 ≤ d && d ≤ 10
  else []

/-- Put a message about a loan made in epoch k into the slot of a die for a sender. -/
def sendLoan (s : State) (src dst k amount : Nat) (back : Bool) : State :=
  modPwr s dst fun p => { p with slots := tset p.slots src (k, amount, back) }

/-- LEND_STATUS_TICK. -/
def lendTick (s : State) (die : Nat) : State :=
  let near := (lendTo die).filter (dieUp s)
  if !dieUp s die ∨ fld s die R.PWR_CFG_LEND_EN = 0 ∨ lendTo die = [] then s
  else
    let p := s.pwrDie die
    let last := p.ticks.take 10
    let limited := last.any Prod.snd
    let s := near.foldl (fun s d => modPwr s d fun q => { q with status := tset q.status die limited }) s
    let limit := fld s die R.PWR_STATUS_LIMIT
    let top := (last.map Prod.fst).foldl max 0
    let spare := min (limit - heldOf p) ((((limit : Nat) : Rat) - (1.1 : Rat) * ((top : Nat) : Rat)).floor.toNat)
    let amount := spare / 4 * 4
    let may := last.length == 10 && last.all fun t => t.1 + 40 < limit
    let order := if p.turn then near.reverse else near
    match order.find? fun d => tget (s.pwrDie die).status d false with
    | none => s
    | some d =>
      if !may ∨ amount < 4 then s
      else
        let s := modPwr s die fun q => { q with lent := q.lent + amount, turn := near.head? == some d }
        sendLoan (setLimit s die) die d p.epoch amount false

/-- LOAN_RECEIVE: the die takes the loan message of its lowest sender. -/
def loanReceive (s : State) (die : Nat) : State :=
  match (s.pwrDie die).slots with
  | [] => s
  | (src, k, amount, back) :: _ =>
    let s := modPwr s die fun p => { p with slots := tdel p.slots src }
    let p := s.pwrDie die
    if !dieUp s die ∨ k < p.epoch then s
    else if back then setLimit (modPwr s die fun q => { q with lent := q.lent - amount }) die
    else
      let limit := fld s die R.PWR_STATUS_LIMIT
      let take := min amount (ceilOf s die - limit)
      let s := modPwr s die fun q => { q with loans := (k, take) :: q.loans }
      let s := setLimit s die
      if take < amount then sendLoan s die src k (amount - take) true else s

/-! ## The control tick (R443, R446) -/

/-- POWER_CONTROL_TICK. In mode 1 the loop acts once per sample instead. -/
def controlTick (s : State) (die e : Nat) : State :=
  if !dieUp s die then s
  else
    let s := modPwr s die fun p => { p with e := e }
    let r := if fld s die R.PWR_STATUS_MODE = 1 then (setFld s die R.PWR_STATUS_PCTL (min 65535 (pctlOf s die)), (s.pwrDie die).lowered)
      else controlLoop s die
    let c := pctlOf r.1 die
    modPwr r.1 die fun p =>
      let sum := p.sum + c
      let full := 10 ≤ p.cnt + 1
      { p with
        ticks := ((c, r.2) :: p.ticks).take 20
        lowered := false
        sum := if full then 0 else sum
        cnt := if full then 0 else p.cnt + 1
        high := if full then max p.high sum else p.high }

/-! ## Thermal (R451 to R454) -/

/-- Event 0x16 of a die (R496). -/
def thermalEvent (s : State) (die kind temp : Nat) : State :=
  relEvent s 0x16 0 (body4 (die + kind * 2 ^ 5 + temp * 2 ^ 16) 0 0 0)

/-- A die trips at 110 °C (R452). -/
def trip (s : State) (die temp : Nat) : State :=
  match dieClass false die with
  | 0 | 2 | 4 => railsOff (faultOut s)
  | 5 | 6 => thermalEvent (colKill s (die - 14)) die 1 temp
  | _ => thermalEvent (dieOut s die true) die 1 temp

/-- TJ_SAMPLE. -/
def tjSample (s : State) (die : Nat) (temps : List (BitVec 8)) : State :=
  let tj := (temps.map (·.toNat)).foldl max 0
  if !dieUp s die ∨ temps = [] then s
  else
    let s := setFld s die R.PWR_STATUS_TJ tj
    let down := fun (s : State) => modPwr s die fun p => { p with step := min (maxSteps die) (p.step + 1) }
    let thr : Bool := fld s die R.PWR_STATUS_THROTTLE == 1
    if 110 ≤ tj then trip s die tj
    else if thr then
      if 97 ≤ tj then down s else setFld s die R.PWR_STATUS_THROTTLE 0
    else if 100 ≤ tj then
      thermalEvent (bumpErr (down (setFld s die R.PWR_STATUS_THROTTLE 1)) die R.PWR_ERR_THERMAL) die 0 tj
    else s

/-- COOLANT_SAMPLE. -/
def coolantSample (s : State) (temp : Nat) : State :=
  let was := coolantLimit s
  let s := setInput (setFld s 0 R.HUB_PWR_STATE_INLET temp)
  let s := if coolantLimit s < 7500 ∧ 7500 ≤ was then thermalEvent s 0 3 temp else s
  if 50 ≤ temp then orderlyDown (faultOut s) else s

/-! ## The meanings. A module without power does nothing. -/

/-- Do it while the module has power. -/
def powered (s : State) (f : State → State) : State := if s.boot.powered then f s else s

/-- INPUT_SAMPLE. Above 60 V the module's behaviour is undefined (R430). -/
def execInputSample (v i p : BitVec 16) (overLong : Bool) (s : State) : Host.Outcome State Fault Refusal :=
  if 6000 < v.toNat then .fault .undefinedAfterOvervoltage
  else .next (powered s fun s => inputSample s v.toNat i.toNat p.toNat overLong)
/-- INPUT_VOLTAGE_TRIP: below 38.0 V or above 52.0 V for 100 µs. -/
def execInputVoltageTrip (v : BitVec 16) (s : State) : Host.Outcome State Fault Refusal :=
  if 6000 < v.toNat then .fault .undefinedAfterOvervoltage
  else .next (powered s fun s => 
    if v.toNat < 3800 ∨ 5200 < v.toNat then railsOff (modBoot s fun b => { b with vin := false }) else s)
/-- RAIL_TELEMETRY_SAMPLE. -/
def execRailTelemetrySample (grp : Fin 40) (m e : Nat) (s : State) : Host.Outcome State Fault Refusal :=
  .next (railSample s grp m e)
/-- TELEMETRY_TIMEOUT. -/
def execTelemetryTimeout (src : Fin 41) (s : State) : Host.Outcome State Fault Refusal :=
  .next (powered s fun s => telemetryTimeout s src)
/-- POWER_REPORT. -/
def execPowerReport (die : Fin 32) (k : Nat) (s : State) : Host.Outcome State Fault Refusal := .next (powerReport s die k)
/-- GRANT_COMPUTE. -/
def execGrantCompute (k : Nat) (s : State) : Host.Outcome State Fault Refusal := .next (grantCompute s k)
/-- GRANT_RECEIVE. -/
def execGrantReceive (die : Fin 32) (t : W64) (s : State) : Host.Outcome State Fault Refusal := .next (grantReceive s die t)
/-- EPOCH_BOUNDARY. -/
def execEpochBoundary (die : Fin 32) (k : Nat) (s : State) : Host.Outcome State Fault Refusal := .next (epochBoundary s die k)
/-- LEND_STATUS_TICK. -/
def execLendStatusTick (die : Fin 32) (s : State) : Host.Outcome State Fault Refusal := .next (lendTick s die)
/-- LOAN_RECEIVE. -/
def execLoanReceive (die : Fin 32) (s : State) : Host.Outcome State Fault Refusal := .next (loanReceive s die)
/-- POWER_CONTROL_TICK. -/
def execPowerControlTick (die : Fin 32) (e : Nat) (s : State) : Host.Outcome State Fault Refusal :=
  .next (controlTick s die e)
/-- DROOP_ASSERT. -/
def execDroopAssert (grp : Fin 40) (s : State) : Host.Outcome State Fault Refusal := .next (droopAssert s grp)
/-- DROOP_RELEASE. -/
def execDroopRelease (grp : Fin 40) (s : State) : Host.Outcome State Fault Refusal := .next (droopRelease s grp)
/-- DROOP_HOLD_END. -/
def execDroopHoldEnd (die : Fin 32) (s : State) : Host.Outcome State Fault Refusal := .next (droopHold s die)
/-- DROOP_RECOVERY_END. -/
def execDroopRecoveryEnd (die : Fin 32) (s : State) : Host.Outcome State Fault Refusal := .next (droopDone s die)
/-- TJ_SAMPLE. -/
def execTjSample (die : Fin 32) (temps : List (BitVec 8)) (s : State) : Host.Outcome State Fault Refusal :=
  .next (tjSample s die temps)
/-- COOLANT_SAMPLE. -/
def execCoolantSample (temp : BitVec 8) (s : State) : Host.Outcome State Fault Refusal :=
  .next (powered s fun s => coolantSample s temp.toNat)

end Sys2Proof.Machine
end

