-- ==== Sys2Proof/Machine/RegOps.lean ====
section
/-! DEFINITION. Writes of control-space registers (R4 to R8), commits of shadow values (R6, R303, R317, R420, R441) and
locks (R267, R469). -/

namespace Sys2Proof.Machine

/-! ## Locks -/

/-- Bit of LOCK_SET that covers an offset of a die's window; the identification block has no RWL field. -/
def lockBit (off : Nat) : Option Nat :=
  if off < 0x100000 then none
  else if off < 0x200000 then some 0
  else if off < 0x400000 then some 1
  else if off < 0x1000000 then some 2
  else if off < 0x2000000 then some (3 + (off - 0x1000000) / 0x100000)
  else none

/-- Is the block of an offset locked? -/
def lockedAt (s : State) (die off : Nat) : Bool :=
  match lockBit off with
  | some b => bitAt (fld s die R.LOCK_STATE_LOCKED) b
  | none => true

/-- Blocks of a die that have an RWL field, as LOCK_SET bits. -/
def rwlBlocks (die : Nat) : List Nat :=
  (regTable.filter fun r => r.dies.holds die && r.fields.any fun f => f.acc == .rwl).filterMap fun r => lockBit r.off

/-- A write to LOCK_SET. The lock of a memory die's HBM block ends the boot case of priority service (R304); the lock of
the tier die's first block fixes the pool ranges (R311). -/
def lockSet (s : State) (die bs : Nat) : State :=
  if !dieUp s die then s
  else
    let old := fld s die R.LOCK_STATE_LOCKED
    let new := old ||| (bs % 2 ^ 19)
    let s := setFld s die R.LOCK_STATE_LOCKED new
    let s := setFld s die R.LOCK_STATE_ALL (b2n ((rwlBlocks die).all (bitAt new)))
    let hbm : Bool := decide (5 ≤ die ∧ die ≤ 10) && bitAt new 9
    let pool : Bool := die == 13 && bitAt new 3 && !bitAt old 3
    let s := if hbm then modHbm s (die - 5) fun h => { h with booted := true } else s
    if pool then modTiers s fun t => { t with ranges := poolRanges s } else s

/-! ## Field writes -/

/-- Change bits [hi:lo]. -/
def onBits (v hi lo : Nat) (f : Nat → Nat) : Nat := setBits v hi lo (f (bits v hi lo))

/-- What is stored of a written value: the clamps that the tables and R129, R176, R292 and R435 state. -/
def clampReg (r : RegSpec) (v : Nat) : Nat :=
  let atLeast := fun (n x : Nat) => max n x
  match r.dies, r.off with
  | .tensor, 0x1000008 => onBits (onBits v 14 10 fun x => min 16 (max 2 x)) 9 5 fun x => min 16 (max 2 x)
  | .hub, 0x1300000 => onBits v 13 0 fun x => min 10000 (max 10 x)
  | .memory, 0x1100000 => onBits v 6 0 (min 64)
  | .memory, 0x1600000 => onBits v 8 0 fun x => min 504 (max 8 (x / 8 * 8))
  | .memory, 0x1600100 => onBits v 15 0 (atLeast 1)
  | .fabric, 0x1000400 => onBits (onBits v 23 8 (atLeast 5)) 4 0 (atLeast 1)
  | .every, 0x400008 => onBits (onBits v 31 16 (atLeast 1)) 15 8 (atLeast 1)
  | .hub, 0x1900088 => onBits v 15 0 (atLeast 1)
  | .every, 0x100010 => onBits v 7 0 (atLeast 4)
  | .every, 0x100008 => onBits (onBits v 21 12 (min (bits v 31 22))) 11 8 (atLeast 1)
  | .hub, 0x100100 => onBits v 8 0 fun x => min 300 (max 120 x)
  | .hub, 0x200108 => onBits (onBits v 15 8 fun x => min 15 (max 1 x)) 7 0 (atLeast 1)
  | .hub, 0x200400 => onBits v 55 52 (min 12)
  | _, _ => v

/-- A field after a write: `hw`, bits that hardware sets in the same cycle (R4, R5). -/
def putField (locked : Bool) (val hw v : Nat) (f : FieldSpec) : Nat :=
  match f.acc with
  | .rw => setBits v f.hi f.lo (bits val f.hi f.lo)
  | .rwl => if locked then v else setBits v f.hi f.lo (bits val f.hi f.lo)
  | .w1c =>
    let all := 2 ^ (f.hi - f.lo + 1) - 1
    setBits v f.hi f.lo ((bits v f.hi f.lo &&& (all - bits val f.hi f.lo)) ||| bits hw f.hi f.lo)
  | _ => v

/-- Shadow value of a register. -/
def shadowOf (s : State) (die off cold : Nat) : Nat :=
  match tget? s.shadow (regKey die off) with
  | some v => v.toNat
  | none => (regRaw s die off cold).toNat

/-- A write to a register, but for what its WO fields start: nothing where no register is, at another width, or on a die
out of service (R8, R28, R267). -/
def regPut (s : State) (die off width val hw : Nat) : State :=
  match (if dieUp s die then regFind die off width else none) with
  | none => s
  | some r =>
    let old := (regRaw s die off r.cold).toNat
    let new := clampReg r (r.fields.foldl (putField (lockedAt s die off) val hw) old)
    let s := if new = old then s else { s with regs := tset s.regs (regKey die off) (BitVec.ofNat 64 new) }
    if r.fields.any fun f => f.acc == .shd then
      let sh := r.fields.foldl (fun v f => if f.acc == .shd then setBits v f.hi f.lo (bits val f.hi f.lo) else v)
        (shadowOf s die off r.cold)
      { s with shadow := tset s.shadow (regKey die off) (BitVec.ofNat 64 (clampReg r sh)) }
    else s

/-! ## Commits -/

/-- The SHD fields of a register take their shadow values (R6). -/
def commitReg (s : State) (die off width : Nat) : State :=
  match regFind die off width, tget? s.shadow (regKey die off) with
  | some r, some sh =>
    let v := r.fields.foldl (fun v f => if f.acc == .shd then setBits v f.hi f.lo (bits sh.toNat f.hi f.lo) else v)
      (regRaw s die off r.cold).toNat
    { s with regs := tset s.regs (regKey die off) (BitVec.ofNat 64 v) }
  | _, _ => s

/-- PART_COMMIT: buckets keep their contents, clipped to their new BURST (R303). -/
def partCommit (s : State) (md : Nat) : State :=
  if !dieUp s (5 + md) then s
  else
    let s := fillBuckets s md
    let s := (List.range 64).foldl (fun s n => commitReg s (5 + md) (0x1600100 + 4 * n) 32) s
    modTiers s fun t => { t with hbm := tmod t.hbm md {} fun h => { h with
      bucket := h.bucket.map fun b => (b.1, min b.2 (bucketCap s md b.1)) } }

/-- QUOTA_COMMIT (R317). -/
def quotaCommitWrite (s : State) : State := if dieUp s 13 then quotaCommit (commitReg s 13 0x1000100 64) else s

/-- ARB_COMMIT: a die's ranks act at each arbiter's next grant decision (R420). -/
def arbCommit (s : State) (die : Nat) : State :=
  if dieUp s die then ((tkeys s.shadow).filter fun k => k / 2 ^ 28 == die && 0x410000 ≤ k % 2 ^ 28 && k % 2 ^ 28 < 0x410304).foldl
    (fun s k => commitReg s die (k % 2 ^ 28) 32) s else s

/-- TREELINE_COMMIT: CAP takes effect in the next computation of grants (R441). -/
def treelineCommit (s : State) : State := if dieUp s 0 then setInput (commitReg s 0 0x100100 32) else s

/-- The commits and locks that a write starts. -/
def commitTrigger (s : State) (die off width val : Nat) : State :=
  if width ≠ 32 then s
  else if off = 0x100080 then lockSet s die val
  else if val % 2 = 0 then s
  else if off = 0x400010 then arbCommit s die
  else if die = 0 ∧ off = 0x100108 then treelineCommit s
  else if 5 ≤ die ∧ die ≤ 10 ∧ off = 0x1600080 then partCommit s (die - 5)
  else if die = 13 ∧ off = 0x1000108 then quotaCommitWrite s
  else s

end Sys2Proof.Machine
end

