-- ==== Sys2Proof/Machine/Image.lean ====
section
/-! DEFINITION. The configuration flash and image (R460 to R466) and the measurement log (R471). -/

namespace Sys2Proof.Machine

/-! ## Image copies (R460, R461) -/

/-- Bytes o to o + n - 1 of an image copy; flash that nothing has written reads 0xFF. -/
def imgBytes (c : List Byte) (o n : Nat) : List Byte :=
  let x := (c.drop o).take n
  x ++ List.replicate (n - x.length) 0xFF

/-- A little-endian number of an image copy. -/
def imgNum (c : List Byte) (o n : Nat) : Nat := leNat (imgBytes c o n)

/-- An entry of the section table. -/
structure ImgSection where
  type : Nat
  offset : Nat
  size : Nat
  /-- RES0 bits of the entry are not all 0 -/
  res0 : Bool
deriving DecidableEq, Repr

/-- LENGTH: bytes in the signed region. -/
def imgLength (c : List Byte) : Nat := bits (imgNum c 0x18 8) 23 0

/-- SVN. -/
def imgSvn (c : List Byte) : Nat := bits (imgNum c 0x10 8) 5 0

/-- VKEY. -/
def imgVkey (c : List Byte) : Nat := bits (imgNum c 0x10 8) 8 7

/-- IMAGE_SEQ. -/
def imgSeq (c : List Byte) : W32 := BitVec.ofNat 32 (bits (imgNum c 0x08 8) 63 32)

/-- The section table. -/
def imgSections (c : List Byte) : List ImgSection :=
  (List.range (bits (imgNum c 0x18 8) 39 32)).map fun i =>
    let a := imgNum c (0x100 + 16 * i) 8
    let b := imgNum c (0x108 + 16 * i) 8
    ⟨bits a 7 0, bits a 63 32, bits b 31 0, bits a 31 8 != 0 || bits b 63 32 != 0⟩

/-- The header meets R460 and the part, partner code and stepping match the module (R462); `pc`: the partner code. -/
def headerOk (pc : Nat) (c : List Byte) : Bool :=
  let b := imgNum c 0x08 8
  let k := imgNum c 0x10 8
  let l := imgNum c 0x18 8
  imgNum c 0 8 == 0x91000001474D494B
    && bits b 9 0 == pc && bits b 15 10 == 0 && bitAt (bits b 31 16) 4
    && bits k 63 10 == 0
    && imgLength c % 16 == 0 && imgLength c ≤ 2 ^ 23 && bits l 31 24 == 0 && 3 ≤ bits l 39 32 && bits l 39 32 ≤ 15
    && bits l 63 40 == 0 && (imgBytes c 0x20 0xE0).all (· == 0)

/-- Sizes that the section types fix (R461, R468; log 29). -/
def sectionSizeOk (x : ImgSection) : Bool :=
  match x.type with
  | 1 => x.size % 16 == 0
  | 2 => x.size == 65536
  | 5 => x.size % 1176 == 0 && x.size ≤ 256 * 1176
  | 6 => x.size == 1
  | _ => true

/-- The sections meet R461. -/
def sectionsOk (c : List Byte) : Bool :=
  let t := imgSections c
  let one := fun (k : Nat) => (t.filter fun x => x.type == k).length
  t.all (fun x => !x.res0 && 1 ≤ x.type && x.type ≤ 6 && x.offset % 16 == 0 && 0x100 + 16 * t.length ≤ x.offset
      && x.offset + x.size ≤ imgLength c && sectionSizeOk x)
    && one 1 == 1 && one 2 == 1 && one 3 == 1 && one 4 ≤ 1 && one 5 ≤ 1 && one 6 ≤ 1
    && t.all fun x => t.all fun y => x == y || x.offset + x.size ≤ y.offset || y.offset + y.size ≤ x.offset

/-- Bytes of the section of a type; none: the image has none. -/
def imgSection (c : List Byte) (type : Nat) : Option (List Byte) :=
  ((imgSections c).find? fun x => x.type == type).map fun x => imgBytes c x.offset x.size

/-! ## Signatures (R463 to R465) -/

/-- Bytes of a signer record. -/
abbrev recordBytes : Nat := 5357

/-- The message M: the digest of the signed region. -/
def imgDigest (c : List Byte) : Line := Config.sha512 (imgBytes c 0 (imgLength c))

/-- The two public keys of a signer record. -/
def recordKeys (r : List Byte) : List Byte := r.take 32 ++ (r.drop 96).take 1952

/-- A signer record verifies for a digest against the fused hash of a slot (R463). -/
def recordOk (r hash : List Byte) (m : Line) : Bool :=
  lineBytes (Config.sha512 (recordKeys r)) == hash && Config.recordSigned r m

/-- The i-th signer record of an image copy. -/
def imgRecord (c : List Byte) (i : Nat) : List Byte := imgBytes c (imgLength c + recordBytes * i) recordBytes

/-- Is the owner record of an image checked (R464)? -/
def ownerChecked (f : Fuses) : Bool := f.owners != []

/-- A copy is valid (R462, R464). -/
def imgOk (f : Fuses) (c : List Byte) : Bool :=
  headerOk f.partner c && sectionsOk c && f.svn ≤ imgSvn c && !bitAt f.revoked.toNat (imgVkey c)
    && recordOk (imgRecord c 0) (Config.vendorHash (imgVkey c)) (imgDigest c)
    && (!ownerChecked f || (bitAt (imgNum c 0x10 8) 9
        && recordOk (imgRecord c 1) (f.owners.getLast?.getD []) (imgDigest c)))

/-! ## Records of the REGWRITE section and the stream pairing table (R461, R404) -/

/-- A record of the REGWRITE section. -/
structure RegRec where
  die : Nat
  wide : Bool
  off : Nat
  val : Nat
deriving DecidableEq, Repr

/-- The width that a record writes. -/
def RegRec.width (r : RegRec) : Nat := if r.wide then 64 else 32

/-- The value that it writes: the low half for a narrow register. -/
def RegRec.value (r : RegRec) : Nat := if r.wide then r.val else r.val % 2 ^ 32

/-- The records of an image, in order. -/
def imgRecords (c : List Byte) : List RegRec :=
  match imgSection c 1 with
  | none => []
  | some b => (List.range (b.length / 16)).map fun i =>
    let a := leNat ((b.drop (16 * i)).take 8)
    ⟨bits a 4 0, bitAt a 5, bits a 35 8, leNat ((b.drop (16 * i + 8)).take 8)⟩

/-- A field as the records of an image leave it: the last record that names its register (`i`: index in an array). -/
def recField (s : State) (rs : List RegRec) (die : Nat) (f : FRef) : Nat :=
  match (rs.filter fun r => r.die == die && r.off == f.off).getLast? with
  | some r => bits r.value f.hi f.lo
  | none => fld s die f

/-- An entry of the stream pairing table; none: unused or reserved (R404). -/
def routeOf (w : Nat) : Option Route :=
  let hops := bits w 28 26
  if hops = 0 ∨ hops = 7 then none
  else some {
    srcDie := bits w 4 0, srcEp := bits w 12 5, dstDie := bits w 17 13, dstEp := bits w 25 18
    mods := (List.range hops).map fun k => bits w (32 + 12 * k + 5) (32 + 12 * k)
    spares := (List.range hops).map fun k => bits w (32 + 12 * k + 11) (32 + 12 * k + 6) }

/-- The routes of an image, by stream. -/
def imgRoutes (c : List Byte) : Tbl Route :=
  match imgSection c 2 with
  | none => []
  | some b => (List.range 4096).filterMap fun i => (routeOf (leNat ((b.drop (16 * i)).take 16))).map fun r => (i, r)

/-! ## Measurement log (R471) -/

/-- Append an entry to the measurement log; the running register takes it in. -/
def logAppend (s : State) (kind die arg : Nat) (digest : Line) : State :=
  let e := leBytes 8 (kind + die * 2 ^ 8 + arg * 2 ^ 13) ++ List.replicate 8 0 ++ lineBytes digest
  modBoot s fun b => { b with log := b.log ++ [e], pcr := lineBytes (Config.sha512 (b.pcr ++ e)) }

/-- DIE_MAP and every unit map, as the entry of KIND 0x06 measures them (log 9). -/
def mapBytes (s : State) : List Byte :=
  leBytes 4 (fld s 0 R.HUB_DIE_MAP_IN_SERVICE) ++ (List.range 32).flatMap fun d =>
    (List.range 3).flatMap (fun n => leBytes 8 (fldAt s d R.UNIT_MAP_IN_SERVICE n))
      ++ (if 16 ≤ d then leBytes 4 (fld s d R.TNS_ARRAY_MAP_IN_SERVICE) else [])
      ++ (if 5 ≤ d ∧ d ≤ 10 then leBytes 4 (fld s d R.MEM_CL_MAP_IN_SERVICE) else [])
      ++ leBytes 8 (fld s d R.RIDGE_MAP_IN_SERVICE)

/-- The retained image is checked again: the first check is logged, a later one counted; false: its digest differs, or
none is retained (R471). -/
def recheck (s : State) : State × Bool :=
  if s.boot.image = [] then (s, false)
  else
    let d := Config.sha512 s.boot.image
    match s.boot.log.find? fun e => e.head? == some 8 with
    | none => (logAppend s 8 0 0 d, true)
    | some e =>
      if e.drop 16 = lineBytes d then (modBoot s fun b => { b with rechecks := min 0xFFFF (b.rechecks + 1) }, true)
      else (s, false)

end Sys2Proof.Machine
end

