-- ==== Sys2Proof/Machine/Boot.lean ====
section
/-! DEFINITION. Power-on, cold reset, the site survey and boot (R457 to R468, R473, R503). -/

namespace Sys2Proof.Machine

/-! ## Cold reset and power -/

/-- The fields of HUB_SEC_STATUS that the fuses give. -/
def showFuses (s : State) : State :=
  let s := setFld s 0 R.HUB_SEC_STATUS_SVN_MIN s.boot.fuses.svn
  let s := setFld s 0 R.HUB_SEC_STATUS_VREVOKED s.boot.fuses.revoked.toNat
  setFld s 0 R.HUB_SEC_STATUS_OWNERS s.boot.fuses.owners.length

/-- What a cold start draws at random: the salt (R323) and the epoch of each KSL port (R343). -/
def coldStart (s : State) : State :=
  let a := drawFree s
  let b := drawFree a.2
  let c := drawFree b.2
  let s := modTiers c.2 fun t => { t with salt := a.1 }
  let s := setFldAt s 0 R.HUB_KSL_EPOCH_LOCAL_EPOCH 0 (b.1.toNat % 2 ^ 32)
  showFuses (setFldAt s 0 R.HUB_KSL_EPOCH_LOCAL_EPOCH 1 (c.1.toNat % 2 ^ 32))

/-- Fields whose cold-reset column says that they show their current value. -/
def keepCurrent (old s : State) : State :=
  let hub := fun (s : State) (f : FRef) => setFld s 0 f (fld old 0 f)
  let s := hub (hub (hub (hub s R.HUB_PWR_INPUT_VIN) R.HUB_PWR_INPUT_IIN) R.HUB_PWR_INPUT_PIN) R.HUB_PWR_STATE_INLET
  (List.range 32).foldl (fun s d => setFld s d R.PWR_STATUS_TJ (fld old d R.PWR_STATUS_TJ)) s

/-- A cold reset: everything goes to its reset value but HBM and board tier, flash, fuses, what is plugged in, and the
pins and straps (R230, R309, R318, R370, R398, R473, R502, R514). -/
def coldReset (s : State) : State :=
  let t : State := {
    pending := s.pending
    free := s.free
    mem := s.mem
    poison := s.poison
    ksl := [0, 1].map fun p => (p, { mated := (s.port p).mated, powered := (s.port p).powered })
    fab := { missing := s.fab.missing }
    tiers := { pages := s.tiers.pages, nextPage := s.tiers.nextPage, badBlocks := s.tiers.badBlocks, erases := s.tiers.erases }
    boot := { vin := s.boot.vin, rstLow := s.boot.rstLow, pwrGood := s.boot.pwrGood, faultN := s.boot.faultN
              straps := s.boot.straps, fuses := s.boot.fuses, flash := flashCut s }
    mgmt := { jtag := s.mgmt.jtag, boundary := s.mgmt.boundary, alert := s.boot.state != 0 } }
  coldStart (keepCurrent s t)

/-- The hub's rails come up: a cold start begins (R473, R510). -/
def railsUp (s : State) : State :=
  let s := modBoot s fun b => { b with powered := true, state := 0 }
  coldStart { s with ksl := s.ksl.map fun p => (p.1, { p.2 with powered := true }) }

/-- POWER_ON: the input enters its operating range. -/
def powerOn (s : State) (straps : BitVec 3) : State :=
  if s.boot.powered || s.boot.vin then s else railsUp (modBoot s fun b => { b with vin := true, straps := straps })

/-- POWER_LOSS: everything is lost (R230, R456), and FAULT_N with the input (R502). -/
def powerLoss (s : State) : State := railsOff (modBoot s fun b => { b with vin := false, faultN := false })

/-- RESET_N_ASSERT: a cold reset, and the module stays in reset; an orderly power-down is abandoned (R503). -/
def rstAssert (s : State) : State :=
  let s := if s.boot.powered then coldReset s else s
  modBoot s fun b => { b with rstLow := true }

/-- RESET_N_RELEASE: the survey may start; a module whose rails an orderly power-down has switched off starts again
(R503, R504). EXTEST and HIGHZ act only while RESET_N is low (R509). -/
def rstRelease (s : State) : State :=
  let s := modBoot s fun b => { b with rstLow := false }
  let s := { s with mgmt := { s.mgmt with jtag :=
    if s.mgmt.jtag = .extest ∨ s.mgmt.jtag = .highz then .bypass else s.mgmt.jtag } }
  if !s.boot.powered && s.boot.vin then railsUp s else s

/-! ## Site survey (R458, R459) -/

/-- Every unit of a die is in service. -/
def unitsUp (s : State) (die : Nat) : State :=
  let map := fun (s : State) (n v : Nat) => setFldAt s die R.UNIT_MAP_IN_SERVICE n v
  let s := if die = 0 then map s 0 0xFFFF
    else if die ≤ 4 then map (map s 0 0xFFFFFFFF) 1 0xFF
    else if die ≤ 10 then setFld (map s 0 0xFF) die R.MEM_CL_MAP_IN_SERVICE 0xFFFF
    else if die = 13 then map (map (map s 0 (2 ^ 64 - 1)) 1 (2 ^ 64 - 1)) 2 0xFFFFFFFF
    else if 16 ≤ die then setFld (map s 0 0xFF) die R.TNS_ARRAY_MAP_IN_SERVICE 0xFFFFFFFF
    else s
  setFld s die R.RIDGE_MAP_IN_SERVICE (2 ^ (ridgeLocals die).length - 1)

/-- Capacity without the units of dies that fail the survey. -/
def surveyCapacity (s : State) (pass : Nat) : State :=
  let tens := (List.range 16).countP fun i => !bitAt pass (16 + i)
  let cores := (List.range 4).countP fun i => !bitAt pass (1 + i)
  loseCapacity (loseCapacity (loseCapacity s R.HUB_CAPACITY0_SPURS (8 * tens)) R.HUB_CAPACITY0_ARRAYS (32 * tens))
    R.HUB_CAPACITY0_CORES (32 * cores)

/-- What the survey measured of a KSL port's cable; a port with no far end is recorded as absent. -/
def surveyKsl (s : State) (x : Nat × (BitVec 2 × BitVec 10 × BitVec 8)) : State :=
  if (s.port x.1).mated then
    let s := setFldAt s 0 R.HUB_KSL_STAT_CABLE x.1 x.2.1.toNat
    setFldAt (setFldAt s 0 R.HUB_KSL_STAT_LENGTH x.1 x.2.2.1.toNat) 0 R.HUB_KSL_STAT_LOSS x.1 x.2.2.2.toNat
  else s

/-- The dies that pass: a guest site also by its identity. -/
def surveyPass (r : Survey) : Nat :=
  (List.range 2).foldl (fun v g => if r.guestBad.getLsbD g then setBits v (14 + g) (14 + g) 0 else v) r.dies.toNat

/-- The survey past its input and coolant checks. -/
def surveyRun (s : State) (r : Survey) : State :=
  let pass := surveyPass r
  let needed : Bool := [0, 5, 6, 7, 8, 9, 10, 13].all (bitAt pass)
  let s := modBoot s fun b => { b with pwrGood := needed }
  let s := logAppend s 1 0 0 (bytesLine Config.bootRom)
  let core : Bool := [1, 2, 3, 4].any (bitAt pass)
  if !needed || !core then bootFail s 2
  else
    let s := setFld s 0 R.HUB_DIE_MAP_IN_SERVICE pass
    let dies := (List.range 32).filter (bitAt pass)
    let s := dies.foldl unitsUp (surveyCapacity s pass)
    let s := (List.range 2).foldl (fun s g =>
      if r.guestBad.getLsbD g then setFldAt s 0 R.HUB_COL_CTL_KILLED g 1 else s) s
    let s := modBoot s fun b => { b with
      resets := ((List.range 32).filter fun d => !bitAt pass d).map fun d => (d, { written := true, out := true }) }
    let s := r.ridgeBad.foldl (fun s x => ridgeRetire s x.1 x.2) s
    let s := r.failed.foldl (fun s x => retireRid s x none) s
    let s := ((List.range 2).zip r.ksl).foldl surveyKsl s
    let gone : Nat := (List.range 8).foldl (fun v p =>
      if r.fabPresent.getLsbD (2 * p) || r.fabPresent.getLsbD (2 * p + 1) then v else v + 2 ^ p) 0
    let s := { s with fab := { s.fab with missing := BitVec.ofNat 8 gone } }
    let s := logAppend s 6 0 0 (Config.sha512 (mapBytes s))
    let sites := [14, 15].filter fun d => s.boot.fuses.partner != 0 && bitAt pass d
    setBootState (sites.foldl (fun s d => logAppend s 7 d 0 (Config.sha512 (Config.partnerBlock d))) s) 1

/-- SITE_SURVEY. While the input or the coolant is outside its limits the survey waits. -/
def siteSurvey (s : State) (r : Survey) : State :=
  if !s.boot.powered || s.boot.rstLow || s.boot.state != 0 || !r.inputOk || !r.coolantOk then s else surveyRun s r

/-- SURVEY_TIMEOUT: 10 s of waiting. -/
def surveyTimeout (s : State) (coolant : Bool) : State :=
  if !s.boot.powered || s.boot.rstLow || s.boot.state != 0 then s else bootFail s (if coolant then 4 else 1)

/-! ## Choosing an image (R462) -/

/-- The image to use and the other copy's validity: (copy, other valid); none when no copy is valid. -/
def chooseCopy (f : Fuses) (fl : ConfigFlash) : Option (Bool × Bool) :=
  match imgOk f fl.a, imgOk f fl.b with
  | true, true => some (imgSeq fl.a != imgSeq fl.b && seqReached (imgSeq fl.a) (imgSeq fl.b), true)
  | true, false => some (false, false)
  | false, true => some (true, false)
  | false, false => none

/-- IMAGE_SELECT. -/
def imageSelect (s : State) : State :=
  if s.boot.state ≠ 1 then s
  else match chooseCopy s.boot.fuses s.boot.flash with
  | none => bootFail s 3
  | some (b, other) =>
    let c := if b then s.boot.flash.b else s.boot.flash.a
    let s := modBoot s fun x => { x with image := imgBytes c 0 (imgLength c), fuseDue := true }
    let s := setFld (setFld s 0 R.HUB_SEC_STATUS_COPY (b2n b)) 0 R.HUB_SEC_STATUS_OTHER_VALID (b2n other)
    let s := setFld s 0 R.HUB_SEC_STATUS_VKEY (imgVkey c)
    let s := logAppend s 2 0 0 (Config.sha512 (recordKeys (imgRecord c 0)))
    let s := if ownerChecked s.boot.fuses then logAppend s 3 0 0 (Config.sha512 (recordKeys (imgRecord c 1))) else s
    let s := logAppend s 4 0 0 (imgDigest c)
    let s := (imgSections c).foldl (fun s x =>
      logAppend s 5 0 x.type (Config.sha512 (imgBytes c x.offset x.size))) s
    setBootState s 2

/-! ## Boot (R467) -/

/-- Writes that start a port or kill a guest: ENABLE of KSL_CFG (R325), of FAB_PORT_CFG (R372), KILL (R428). -/
def portTrigger (s : State) (die off width val : Nat) : State :=
  if width ≠ 32 ∨ !dieUp s die then s
  else if die = 0 ∧ (off = 0x1500000 ∨ off = 0x1500100) then kslEnable s ((off - 0x1500000) / 0x100) (bitAt val 2)
  else if (die = 11 ∨ die = 12) ∧ 0x1000000 ≤ off ∧ off < 0x1000400 ∧ off % 0x100 = 0 then
    let p := 4 * (die - 11) + (off - 0x1000000) / 0x100
    fabEnable (fabEnable s p false (bitAt val 0)) p true (bitAt val 1)
  else if die = 0 ∧ (off = 0x1900090 ∨ off = 0x1901090) ∧ bitAt val 31 then colKill s ((off - 0x1900090) / 0x1000)
  else s

/-- A record of the image is applied; one for a die out of service is skipped (R461). -/
def bootWrite (s : State) (r : RegRec) : State :=
  if !dieUp s r.die then s
  else
    let s := regPut s r.die r.off r.width r.value 0
    portTrigger (commitTrigger s r.die r.off r.width r.value) r.die r.off r.width r.value

/-- Write a die's blocks that `pick` names, and lock them: those of its blocks that have an RWL field. -/
def bootBlocks (rs : List RegRec) (pick : Nat → Bool) (s : State) (die : Nat) : State :=
  let mine := rs.filter fun r => r.die == die && match lockBit r.off with | some b => pick b | none => false
  let s := mine.foldl bootWrite s
  lockSet s die ((List.range 19).foldl (fun v b => if pick b && (rwlBlocks die).contains b then v + 2 ^ b else v) 0)

/-- A fabric die's logical ports follow their ENABLE (R372). -/
def fabPortsStart (s : State) (die : Nat) : State :=
  (List.range 4).foldl (fun s i =>
    let p := 4 * (die - 11) + i
    let s := fabEnable s p false (fldAt s die R.FAB_PORT_CFG_ENABLE_A i == 1)
    fabEnable s p true (fldAt s die R.FAB_PORT_CFG_ENABLE_B i == 1)) s

/-- Extents that boot claims to context 0 under R286: each copy of the claim table, and the context table. -/
def bootClaims (s : State) (rs : List RegRec) : List (Nat × Nat) :=
  ((List.range 6).map fun md => (memExtent (recField s rs (5 + md) R.MEM_CLAIM_BASE_BASE * 2 ^ 24), 8))
    ++ [(memExtent (recField s rs 0 R.HUB_CTX_TABLE_BASE * 2 ^ 22), 2)]

/-- Build every copy of the claim table: all entries free, or context 0 with mode free, which are the same word. -/
def buildClaims (s : State) (rs : List RegRec) : State :=
  let s := (List.range 6).foldl (fun s md =>
    let base := recField s rs (5 + md) R.MEM_CLAIM_BASE_BASE * 2 ^ 24
    let inside := fun (a : Nat) => base ≤ a && a < base + 4 * claimExtents
    { s with mem := s.mem.filter fun c => !inside c.1, poison := s.poison.filter fun ln => !inside (ln * 64) }) s
  modXlt s fun x => { x with windowClaims := [], reservedClaims := bootClaims s rs }

/-- The six STRETCH_GIB values are equal, and every block of every die in service is locked. -/
def bootChecked (s : State) : Bool :=
  let g := fld s 5 R.MEM_HBM_LAYOUT_STRETCH_GIB
  [6, 7, 8, 9, 10].all (fun d => fld s d R.MEM_HBM_LAYOUT_STRETCH_GIB == g)
    && (List.range 32).all fun d => !dieUp s d || fld s d R.LOCK_STATE_ALL == 1

/-- The fuse requests of the chosen image, at ready (R465). -/
def blowFuses (s : State) : State :=
  if !s.boot.fuseDue then s
  else
    let c := s.boot.image
    let own : BitVec 4 := 1 <<< imgVkey c
    let named : BitVec 4 := match imgSection c 6 with | some b => (b.headD 0).setWidth 4 | none => 0
    showFuses (modBoot s fun b => { b with
      fuseDue := false
      fuses := { b.fuses with
        svn := if bitAt (imgNum c 0x10 8) 6 then max b.fuses.svn (imgSvn c) else b.fuses.svn
        revoked := b.fuses.revoked ||| (named &&& ~~~own) } })

/-- Steps 1 to 5 of boot. The blocks of the memory dies that no step names are written with those of step 3 (log 30). -/
def bootSteps (s : State) : State :=
  let rs := imgRecords s.boot.image
  let all := List.range 32
  let s := { s with ridge := { s.ridge with routes := imgRoutes s.boot.image } }
  let s := all.foldl (bootBlocks rs (· == 2)) s
  let s := [5, 6, 7, 8, 9, 10].foldl (bootBlocks rs fun b => b == 9 || b == 7) s
  let s := if s.xlt.reservedClaims = [] then buildClaims s rs else s
  let rest := [5, 6, 7, 8, 9, 10, 13, 11, 12, 14, 15, 1, 2, 3, 4] ++ (List.range 16).map (16 + ·)
  let s := rest.foldl (bootBlocks rs fun b => b != 2) s
  let s := [11, 12].foldl (fun s d => if dieUp s d then fabPortsStart s d else s) s
  let s := treelineCommit (bootBlocks rs (· == 0) s 0)
  let ports := rs.filter fun r => r.die == 0 && (r.off == 0x1500000 || r.off == 0x1500100)
  let s := ports.foldl bootWrite s
  let s := kslEnable (kslEnable s 0 true) 1 true
  bootBlocks (rs.filter fun r => !ports.contains r) (fun b => b != 0 && b != 2) s 0

/-- BOOT_SEQUENCE. -/
def bootSequence (s : State) : State :=
  if s.boot.state ≠ 2 then s
  else
    let s := bootSteps s
    if !bootChecked s then bootFail s 5
    else
      let s := { s with fab := { s.fab with secret := (imgSection s.boot.image 5).bind Config.fabricSecret } }
      fabReady (setBootState (blowFuses s) 3)

/-- BOOT_TIMEOUT: 60 s after the input entered its range. -/
def bootTimeout (s : State) : State :=
  if !s.boot.powered || s.boot.rstLow || 3 ≤ s.boot.state then s else bootFail s 6

/-- FABRIC_READY_TIMEOUT: event 0x18, and the module stays in STATE 3. -/
def fabTimeout (s : State) : State := if s.boot.state = 3 then relEvent s 0x18 0 (body4 0 0 0 0) else s

/-! ## The meanings -/

/-- POWER_ON. -/
def execPowerOn (straps : BitVec 3) (s : State) : Host.Outcome State Fault Refusal := .next (powerOn s straps)
/-- POWER_LOSS. -/
def execPowerLoss (s : State) : Host.Outcome State Fault Refusal := .next (powerLoss s)
/-- RESET_N_ASSERT. -/
def execResetNAssert (s : State) : Host.Outcome State Fault Refusal := .next (rstAssert s)
/-- RESET_N_RELEASE. -/
def execResetNRelease (s : State) : Host.Outcome State Fault Refusal := .next (rstRelease s)
/-- SITE_SURVEY. -/
def execSiteSurvey (r : Survey) (s : State) : Host.Outcome State Fault Refusal := .next (siteSurvey s r)
/-- SURVEY_TIMEOUT. -/
def execSurveyTimeout (coolant : Bool) (s : State) : Host.Outcome State Fault Refusal := .next (surveyTimeout s coolant)
/-- IMAGE_SELECT. -/
def execImageSelect (s : State) : Host.Outcome State Fault Refusal := .next (imageSelect s)
/-- BOOT_SEQUENCE. -/
def execBootSequence (s : State) : Host.Outcome State Fault Refusal := .next (bootSequence s)
/-- BOOT_TIMEOUT. -/
def execBootTimeout (s : State) : Host.Outcome State Fault Refusal := .next (bootTimeout s)
/-- FABRIC_READY_TIMEOUT. -/
def execFabricReadyTimeout (s : State) : Host.Outcome State Fault Refusal := .next (fabTimeout s)
/-- LOCK_SET. -/
def execLockSet (die : Fin 32) (bits : BitVec 19) (s : State) : Host.Outcome State Fault Refusal :=
  .next (lockSet s die bits.toNat)

end Sys2Proof.Machine
end

