-- ==== Sys2Proof/Machine/Lane.lean ====
section
/-! DEFINITION. Lane-unit instructions (chapters 02 and 04): integer, floating point, special functions, conversion,
branches, exit, special values, shuffle and vote. -/

namespace Sys2Proof.Machine

/-- An instruction that writes one register in its enabled lanes. -/
def laneWrite (s : State) (sp slot vd : Nat) (pred : Nat) (pneg : Bool) (f : Group → Nat → W32) (g : Group) : State :=
  advance s sp slot (g.wrLanes vd (f g) (g.enabled pred pneg))

/-- An instruction that writes predicate `p` in its enabled lanes. -/
def predWrite (s : State) (sp slot p pred : Nat) (pneg : Bool) (f : Group → Nat → Bool) (g : Group) : State :=
  advance s sp slot ((g.enabled pred pneg).foldl (fun h l => h.setPred l p (f g l)) g)

/-- Integer, format A (R522). -/
def intReg (s : State) (sp slot : Nat) (w : W64) : State :=
  ofClass s sp slot 0x01 w fun _ =>
    let a := fmtA w
    let signed := a.typ == 1
    let bad := a.scope != 0 || 13 < a.func || 1 < a.typ
      || (if a.func = 13 then 5 < a.md % 8 || 8 ≤ a.md else a.md != 0)
    let regs := if a.func = 13 then [a.va, a.vb] else [a.va, a.vb, a.vd]
    issue s sp slot regs bad fun g =>
      if a.func = 13 then
        predWrite s sp slot (a.vd % 8) a.pred a.pneg (fun g l => intCond signed a.md (g.rd l a.va) (g.rd l a.vb)) g
      else if a.func = 12 then
        laneWrite s sp slot a.vd a.pred a.pneg
          (fun g l => if g.pred l (a.vc % 8) then g.rd l a.va else g.rd l a.vb) g
      else laneWrite s sp slot a.vd a.pred a.pneg (fun g l => intOp a.func signed (g.rd l a.va) (g.rd l a.vb)) g

/-- Integer, format I (R522). -/
def intImm (s : State) (sp slot : Nat) (w : W64) : State :=
  ofClass s sp slot 0x02 w fun _ =>
    let i := fmtI w
    issue s sp slot [i.va, i.vd] (i.zero != 0 || 11 < i.func % 16) fun g =>
      laneWrite s sp slot i.vd 7 false (fun g l => intOp (i.func % 16) (16 ≤ i.func) (g.rd l i.va) i.imm) g

/-- Floating point, format A (R147 to R150). -/
def fpReg (s : State) (sp slot : Nat) (w : W64) : State :=
  ofClass s sp slot 0x08 w fun _ =>
    let a := fmtA w
    let bad := a.scope != 0 || 5 < a.func || 2 < a.typ
      || (if a.func = 5 then a.typ != 0 || 8 ≤ a.md else a.md != 0)
    let regs := if a.func = 5 then [a.va, a.vb] else if a.func = 0 then [a.va, a.vb, a.vc, a.vd] else [a.va, a.vb, a.vd]
    issue s sp slot regs bad fun g =>
      if a.func = 5 then
        predWrite s sp slot (a.vd % 8) a.pred a.pneg (fun g l => fpCond a.md (g.rd l a.va) (g.rd l a.vb)) g
      else
        laneWrite s sp slot a.vd a.pred a.pneg
          (fun g l => fpOp a.typ a.func (g.rd l a.va) (g.rd l a.vb) (g.rd l a.vc)) g

/-- Floating point, format I (R147): `fp.fma` computes VA × IMM + VD. -/
def fpImm (s : State) (sp slot : Nat) (w : W64) : State :=
  ofClass s sp slot 0x09 w fun _ =>
    let i := fmtI w
    issue s sp slot [i.va, i.vd] (i.zero != 0 || 4 < i.func) fun g =>
      laneWrite s sp slot i.vd 7 false (fun g l => fpOp 0 i.func (g.rd l i.va) i.imm (g.rd l i.vd)) g

/-- Special function (R153). -/
def specialFunction (s : State) (sp slot : Nat) (w : W64) : State :=
  ofClass s sp slot 0x0C w fun _ =>
    let a := fmtA w
    issue s sp slot [a.va, a.vd] (a.scope != 0 || 7 < a.func || a.typ != 0 || a.md != 0) fun g =>
      laneWrite s sp slot a.vd a.pred a.pneg (fun g l => sfOp a.func (g.rd l a.va)) g

/-- Conversion (R151, R152). -/
def cvt (s : State) (sp slot : Nat) (w : W64) : State :=
  ofClass s sp slot 0x10 w fun _ =>
    let a := fmtA w
    let bad := a.scope != 0 || 3 < a.md % 8 || 16 ≤ a.md || (cvtOp a.typ a.func a.md 0).isNone
    issue s sp slot [a.va, a.vd] bad fun g =>
      laneWrite s sp slot a.vd a.pred a.pneg (fun g l => (cvtOp a.typ a.func a.md (g.rd l a.va)).getD 0) g

/-- `br` (R87): the group moves as one; where its lanes disagree on PRED the manual does not say whether it branches,
which a free value decides (log 13). -/
def br (s : State) (sp slot : Nat) (w : W64) : State :=
  ofClass s sp slot 0x30 w fun _ =>
    let j := fmtJ w
    issue s sp slot [] (j.res0 != 0) fun g =>
      let on := g.enabled j.pred j.pneg
      if on = g.lanes then setGroup s sp slot (g.goto (g.pc + 8 * j.ofs))
      else if on = [] then advance s sp slot g
      else
        let d := drawFree s
        if d.1.getLsbD 0 then setGroup d.2 sp slot (g.goto (g.pc + 8 * j.ofs)) else advance d.2 sp slot g

/-- Mask of a list of lanes. -/
def laneMask (l : List Nat) : BitVec 64 := BitVec.ofNat 64 (l.foldl (fun m i => m + 2 ^ i) 0)

/-- `br.c` (R50 to R52); `w2` holds TARGET. -/
def brC (s : State) (sp slot : Nat) (w w2 : W64) : State :=
  ofClass s sp slot 0x31 w fun _ =>
    let j := fmtJ w
    issue s sp slot [] (j.res0 != 0) fun g =>
      let taken := laneMask (g.enabled j.pred j.pneg)
      let target := g.pc + 8 * w2
      if taken = g.active then setGroup s sp slot (g.goto target)
      else if taken = 0 then setGroup s sp slot (g.goto (g.pc + 16))
      else if 32 ≤ g.stack.length then groupFault s sp slot 8 g.pc 0
      else
        let e : JoinEntry := ⟨g.pc + 8 * j.ofs, g.active, taken, target, false⟩
        setGroup s sp slot
          (({ g with stack := e :: g.stack, active := g.active &&& ~~~taken } : Group).goto (g.pc + 16))

/-- The group of a slot has ended (R53): its region closes (R113) and its block may end (R38). -/
def groupEnd (s : State) (sp slot : Nat) (g : Group) : State :=
  let s := modSpur s sp fun p =>
    let p := { p with groups := tset p.groups slot { g with active := 0, stack := [], done := true } }
    let p := { p with ops := p.ops.filter fun o => o.gid != g.gid || (match o.kind with | .load _ => false | _ => true) }
    if p.mx.seat = some slot then { p with mx := mxSettle { p.mx with closing := true } } else p
  blockEnd s sp g.blk

/-- `exit` (R53). -/
def exitLanes (s : State) (sp slot : Nat) (w : W64) : State :=
  ofClass s sp slot 0x32 w fun _ =>
    let j := fmtJ w
    issue s sp slot [] (j.res0 != 0 || j.ofs != 0) fun g =>
      let m := ~~~(laneMask (g.enabled j.pred j.pneg))
      let cut := fun (e : JoinEntry) => { e with full := e.full &&& m, taken := e.taken &&& m }
      let g := ({ g with active := g.active &&& m, stack := g.stack.map cut } : Group).next
      if g.active = 0 then groupEnd s sp slot g else setGroup s sp slot g

/-- `nop`. -/
def nopLane (s : State) (sp slot : Nat) (w : W64) : State :=
  ofClass s sp slot 0x33 w fun _ =>
    let j := fmtJ w
    issue s sp slot [] (j.res0 != 0 || j.ofs != 0) fun g => advance s sp slot g

/-- Special values (R89), but Alpenglow time's high half. -/
def specialValue (s : State) (sp : Nat) (g : Group) (b : Block) (idx lane : Nat) : W32 :=
  let t := g.idx * g.width + lane
  BitVec.ofNat 32 <| match idx with
  | 0x00 => t % b.bx
  | 0x01 => t / b.bx % b.by_
  | 0x02 => t / (b.bx * b.by_)
  | 0x03 => lane
  | 0x04 => g.idx
  | 0x05 => b.num % b.gx
  | 0x06 => b.num / b.gx % b.gy
  | 0x07 => b.num / (b.gx * b.gy)
  | 0x08 => sp
  | 0x09 => g.blk
  | 0x0A => b.params.toNat
  | 0x0B => b.params.toNat / 2 ^ 32
  | 0x0C => g.active.toNat
  | 0x0D => g.active.toNat / 2 ^ 32
  | 0x0E => s.time.toNat
  | 0x0F => (match tget? g.latch lane with | some h => h.toNat | none => s.time.toNat / 2 ^ 32)
  | _ => b.ctx.toNat

/-- `mov.sp` (R89, R90, R520). -/
def movSp (s : State) (sp slot : Nat) (w : W64) : State :=
  ofClass s sp slot 0x38 w fun _ =>
    let a := fmtA w
    let bad := a.scope != 0 || a.typ != 0 || a.md != 0 || a.func != 0 || a.vb != 0 || a.vc != 0 || 0x10 < a.va
    issue s sp slot [a.vd] bad fun g =>
      match blockAt s sp g.blk with
      | none => s
      | some b =>
        let on := g.enabled a.pred a.pneg
        let h := g.wrLanes a.vd (specialValue s sp g b a.va) on
        let h := if a.va = 0x0E then
            { h with latch := on.foldl (fun t l => tset t l ((s.time >>> 32).setWidth 32)) h.latch }
          else h
        advance s sp slot h

/-- `lane.shfl` (R519, R520). -/
def laneShfl (s : State) (sp slot : Nat) (w : W64) : State :=
  ofClass s sp slot 0x39 w fun _ =>
    let a := fmtA w
    let bad := a.scope != 0 || a.typ != 0 || a.md != 0 || a.func != 0 || a.vc != 0
    issue s sp slot [a.va, a.vb, a.vd] bad fun g =>
      laneWrite s sp slot a.vd a.pred a.pneg
        (fun g l =>
          let src := (g.rd l a.vb).toNat % g.width
          if g.active.getLsbD src then g.rd src a.va else 0) g

/-- `lane.vote` (R519, R520). -/
def laneVote (s : State) (sp slot : Nat) (w : W64) : State :=
  ofClass s sp slot 0x3A w fun _ =>
    let a := fmtA w
    let wide := a.func = 0 ∧ ((groupAt s sp slot).map (·.width)).getD 0 = 64
    let bad := a.scope != 0 || a.typ != 0 || a.md != 0 || a.vb != 0 || a.vc != 0 || 7 < a.va || 1 < a.func
      || (decide wide && a.vd % 2 == 1)
    issue s sp slot (run a.vd (if wide then 2 else 1)) bad fun g =>
      let m := laneMask (g.lanes.filter fun l => g.pred l a.va)
      let on := g.enabled a.pred a.pneg
      if a.func = 1 then
        laneWrite s sp slot a.vd a.pred a.pneg (fun _ _ => if m = g.active ∨ m = 0 then 1 else 0) g
      else if g.width = 64 then advance s sp slot (on.foldl (fun h l => h.wr64 l a.vd m) g)
      else advance s sp slot (g.wrLanes a.vd (fun _ => m.setWidth 32) on)

/-! ## The meanings -/

/-- INT_REG. -/
def execIntReg (sp : Fin 128) (sl : Fin 32) (w : W64) (s : State) : Host.Outcome State Fault Refusal :=
  .next (intReg s sp sl w)
/-- INT_IMM. -/
def execIntImm (sp : Fin 128) (sl : Fin 32) (w : W64) (s : State) : Host.Outcome State Fault Refusal :=
  .next (intImm s sp sl w)
/-- FP_REG. -/
def execFpReg (sp : Fin 128) (sl : Fin 32) (w : W64) (s : State) : Host.Outcome State Fault Refusal :=
  .next (fpReg s sp sl w)
/-- FP_IMM. -/
def execFpImm (sp : Fin 128) (sl : Fin 32) (w : W64) (s : State) : Host.Outcome State Fault Refusal :=
  .next (fpImm s sp sl w)
/-- SPECIAL_FUNCTION. -/
def execSpecialFunction (sp : Fin 128) (sl : Fin 32) (w : W64) (s : State) : Host.Outcome State Fault Refusal :=
  .next (specialFunction s sp sl w)
/-- CVT. -/
def execCvt (sp : Fin 128) (sl : Fin 32) (w : W64) (s : State) : Host.Outcome State Fault Refusal :=
  .next (cvt s sp sl w)
/-- BR. -/
def execBr (sp : Fin 128) (sl : Fin 32) (w : W64) (s : State) : Host.Outcome State Fault Refusal :=
  .next (br s sp sl w)
/-- BR_C. -/
def execBrC (sp : Fin 128) (sl : Fin 32) (w w2 : W64) (s : State) : Host.Outcome State Fault Refusal :=
  .next (brC s sp sl w w2)
/-- EXIT. -/
def execExit (sp : Fin 128) (sl : Fin 32) (w : W64) (s : State) : Host.Outcome State Fault Refusal :=
  .next (exitLanes s sp sl w)
/-- NOP. -/
def execNop (sp : Fin 128) (sl : Fin 32) (w : W64) (s : State) : Host.Outcome State Fault Refusal :=
  .next (nopLane s sp sl w)
/-- MOV_SP. -/
def execMovSp (sp : Fin 128) (sl : Fin 32) (w : W64) (s : State) : Host.Outcome State Fault Refusal :=
  .next (movSp s sp sl w)
/-- LANE_SHFL. -/
def execLaneShfl (sp : Fin 128) (sl : Fin 32) (w : W64) (s : State) : Host.Outcome State Fault Refusal :=
  .next (laneShfl s sp sl w)
/-- LANE_VOTE. -/
def execLaneVote (sp : Fin 128) (sl : Fin 32) (w : W64) (s : State) : Host.Outcome State Fault Refusal :=
  .next (laneVote s sp sl w)

end Sys2Proof.Machine
end

