-- ==== Sys2Proof/Machine/Resets.lean ====
section
/-! DEFINITION. Warm, die and context resets (R230, R370, R473 to R475), the unload of a context (R278), and requests of
the security processor (R466, R470, R472). -/

namespace Sys2Proof.Machine

/-! ## Warm reset -/

/-- A journal record; one that reads poisoned in HBM is served from the mirror (R368). -/
def journalAt (s : State) (n : Nat) : List Byte :=
  let off := 32 * (n % 2 ^ 22)
  let a := fld s 0 R.HUB_JOURNAL_BASE_BASE * 2 ^ 27 + off
  if s.poison.contains (a / 64) then memRead s.mem (fld s 0 R.HUB_JOURNAL_MIRROR_BASE * 2 ^ 27 + off) 32
  else memRead s.mem a 32

/-- The command that a record names: QUEUE, INDEX, STAG. -/
def recordKey (b : List Byte) : Nat × Nat × Nat :=
  let w := leNat ((b.drop 8).take 8)
  (bits w 31 14, bits w 55 32, bits (leNat ((b.drop 16).take 8)) 31 16)

/-- An aborted record for the command of a record, with status 0x0F (R370). -/
def abortRecord (s : State) (b : List Byte) : JRec :=
  let w := leNat ((b.drop 8).take 8)
  let v := leNat ((b.drop 16).take 8)
  ⟨0, 5, 0, 0x0F, BitVec.ofNat 18 (bits w 31 14), bits w 55 32, BitVec.ofNat 8 (bits w 63 56), BitVec.ofNat 16 v,
    BitVec.ofNat 16 (bits v 31 16), BitVec.ofNat 32 (bits v 63 32), s.time⟩

/-- Commands that the newest 2^22 records leave without a final record, by their latest record (R370). -/
def journalOpen (s : State) : List (List Byte) :=
  let h := fld s 0 R.HUB_JOURNAL_HEAD_HEAD
  let n := min h (2 ^ 22)
  (List.range n).foldl (fun l i =>
    let b := journalAt s (h - n + 1 + i)
    if leNat (b.take 8) ≠ h - n + 1 + i then l
    else
      let l := l.filter fun x => recordKey x != recordKey b
      let event := leNat ((b.drop 8).take 8) % 8
      if event = 3 ∨ event = 4 ∨ event = 5 then l else l ++ [b]) []

/-- The pool at a warm reset: holds and ages are 0, and moves stop, whose sources stay their handles' locations (R316,
R318). -/
def poolWarm (s : State) : State :=
  let s := s.tiers.moves.foldl (fun s m => match tget? s.tiers.pool m.1 with
    | some p => if p.level < 2 then poolClaim s p.extent p.ctx 1 else s
    | none => s) s
  modTiers s fun t => { t with
    moves := [], waiting := [], evicting := (false, false)
    pool := t.pool.map fun p => (p.1, { p.2 with hold := 0, age := 0, heldNow := false })
    images := t.images.filter fun i => ((tget? t.pool i.1).map (·.level)) == some 2
    hbm := t.hbm.map fun h => (h.1, { rebuilding := h.2.rebuilding }) }

/-- The epoch of a KSL port rises, and is never the one that it last received (R343). -/
def epochRise (s : State) (p : Nat) : State :=
  let e := (fldAt s 0 R.HUB_KSL_EPOCH_LOCAL_EPOCH p + 1) % 2 ^ 32
  setFldAt s 0 R.HUB_KSL_EPOCH_LOCAL_EPOCH p
    (if e = fldAt s 0 R.HUB_KSL_EPOCH_PEER_EPOCH p then (e + 1) % 2 ^ 32 else e)

/-- A die held by a trip, or in reset, takes its self-test and its part of boot again (R452, R475). -/
def resetsWarm (s : State) : State :=
  let held := s.boot.resets.filter fun e => e.2.trip || !e.2.out
  let s := (held.filter fun e => e.2.trip).foldl (fun s e => dieCapacity s e.1 true) s
  modBoot s fun b => { b with resets := b.resets.map fun e =>
    if e.2.trip || !e.2.out then (e.1, { written := true }) else (e.1, { e.2 with cmd := false }) }

/-- A warm reset with a good image: caches are written back, command state is discarded, contexts and peers are unloaded,
registers take their warm values; the module goes on at boot step 1. -/
def warmRun (s : State) : State :=
  let s := poolWarm (resetsWarm (cachesFlush s))
  let s := pwrWarm (fabWarmReset s)
  let s := (List.range 2).foldl (fun s g => siteEmpty s g) s
  let s := epochRise (epochRise s 0) 1
  let s := (List.range 32).foldl regWarm s
  let boot := { s.boot with sec := none, ctxReset := none, down := false }
  let svc : Service := { times := s.svc.times, posted := s.svc.posted, unposted := s.svc.unposted
                         retired := s.svc.retired, abandons := s.svc.abandons, rebuilt := s.svc.rebuilt }
  let s : State := { s with
    shadow := []
    net := []
    spurs := []
    tdies := []
    kernels := []
    harts := []
    coh := {}
    xlt := { windowClaims := s.xlt.windowClaims, reservedClaims := s.xlt.reservedClaims }
    qs := { jnext := fld s 0 R.HUB_JOURNAL_HEAD_HEAD + 1 }
    former := {}
    cl := {}
    arbs := []
    ksl := [0, 1].map fun p => (p, { mated := (s.port p).mated, powered := (s.port p).powered })
    ridge := {}
    boot := boot
    svc := svc }
  setBootState (journalFlush ((journalOpen s).map (abortRecord s)) s) 2

/-- A warm reset; without a good retained image it is a cold reset (R471, R474). -/
def warmReset (s : State) : State :=
  let r := recheck s
  if r.2 then warmRun r.1 else coldReset s

/-! ## HUB_RESET_CMD (R475) -/

/-- The command is refused. -/
def resetRefused (s : State) : State := setFld s 0 R.HUB_RESET_STATUS_RESULT 0x0F

/-- A cold or warm reset command: performed even while BUSY is 1. -/
def resetWhole (s : State) (ctx : BitVec 16) (act : State → State) : State :=
  if !dieUp s 0 || !s.boot.powered then s else if ctx ≠ 0 then resetRefused s else act s

/-- A die or context reset command: ignored while BUSY is 1, or refused. -/
def resetPart (s : State) (refused : Bool) (act : State → State) : State :=
  if !s.boot.powered then s
  else if fld s 0 R.HUB_RESET_STATUS_BUSY = 1 then setFld s 0 R.HUB_RESET_STATUS_DROPPED 1
  else if refused then resetRefused s
  else setFld (act (setFld s 0 R.HUB_RESET_STATUS_RESULT 0)) 0 R.HUB_RESET_STATUS_BUSY 1

/-- A die reset that is refused. -/
def dieResetBad (s : State) (ctx : BitVec 16) (die : Nat) : Bool :=
  let inReset : Bool := match tget? s.boot.resets die with
    | some e => e.trip || !e.out
    | none => false
  ctx != 0 || die == 0 || (5 ≤ die && die ≤ 10) || die == 13 || inReset
    || ((die == 14 || die == 15) && siteKilled s (die - 14))

/-- A die reset begins: its bit is cleared, its work stops, its caches are written back (R29, R230). -/
def dieResetBegin (s : State) (die : Nat) : State :=
  if !dieUp s die then
    modBoot s fun b => { b with resets := tmod b.resets die { written := true, out := true } fun e => { e with cmd := true } }
  else
    let s := setFld s 0 R.HUB_DIE_MAP_IN_SERVICE (setBits (fld s 0 R.HUB_DIE_MAP_IN_SERVICE) die die 0)
    let s := dieStop s die false
    let s := if die = 14 ∨ die = 15 then siteEmpty s (die - 14) else s
    modBoot s fun b => { b with resets := tset b.resets die { written := dieLines s die = [], cmd := true } }

/-- RESET_DIE. -/
def resetDie (s : State) (ctx : BitVec 16) (die : Nat) : State :=
  resetPart s (dieResetBad s ctx die) fun s => dieResetBegin s die

/-- DIE_WRITEBACK_TIMEOUT: 100 µs after the reset or the loss began. -/
def writebackTimeout (s : State) (die : Nat) : State :=
  match tget? s.boot.resets die with
  | some e =>
    if e.written then s
    else modBoot (dieWritten s die) fun b => { b with resets := tset b.resets die { e with written := true } }
  | none => s

/-- Event 0x18 of a die reset (R496). -/
def dieEvent (s : State) (kind die : Nat) : State := relEvent s 0x18 0 (body4 (kind + die * 2 ^ 4) 0 0 0)

/-- A die reset ends; BUSY falls when the command started it. -/
def dieResetOver (s : State) (e : DieReset) (kind die : Nat) : State :=
  let s := dieEvent s kind die
  if e.cmd then setFld s 0 R.HUB_RESET_STATUS_BUSY 0 else s

/-- The die passes its self-test: its registers take their warm values, its part of boot runs again (R473, R475, R514). -/
def dieBack (s : State) (die : Nat) : State :=
  let s := pwrReset (regWarm { s with shadow := s.shadow.filter fun e => e.1 / 2 ^ 28 != die } die) die
  let s := setFld s 0 R.HUB_DIE_MAP_IN_SERVICE (setBits (fld s 0 R.HUB_DIE_MAP_IN_SERVICE) die die 1)
  let s := modBoot s fun b => { b with resets := tdel b.resets die }
  let s := bootBlocks (imgRecords s.boot.image) (fun _ => true) s die
  if die = 11 ∨ die = 12 then fabPortsStart s die else s

/-- DIE_RESET_DONE. -/
def dieResetDone (s : State) (die : Nat) (pass : Bool) : State :=
  match tget? s.boot.resets die with
  | none => s
  | some e =>
    let clean : Bool := dieLines s die = []
    if e.trip || (e.out && !e.cmd) || !(e.written || clean) then s
    else
      let s := if e.written then s else dieWritten s die
      let stay := fun (s : State) => modBoot s fun b => { b with
        resets := tset b.resets die { written := true, out := true } }
      if e.out then dieResetOver (stay s) e 2 die
      else if !pass then dieResetOver (stay (dieCapacity s die false)) e 2 die
      else
        let r := recheck s
        if r.2 then dieResetOver (dieBack r.1 die) e 1 die else coldReset s

/-- RESET_CONTEXT. -/
def resetContext (s : State) (ctx target : BitVec 16) : State :=
  resetPart s (target == 0 || (s.ctx? target).isNone || (ctx != 0 && ctx != target)) fun s =>
    modBoot (contextStop s target) fun b => { b with ctxReset := some target }

/-- CTX_UNLOAD: a context reset, then an invalidate (R278). -/
def ctxUnload (s : State) (ctx : BitVec 16) : State :=
  ctxCmd s ctx (ctx == 0 || (s.ctx? ctx).isNone) fun s =>
    let s := modXlt (contextStop s ctx) fun x => { x with inval := some { ctx := ctx, unload := true, resetting := true } }
    setFld s 0 R.HUB_CTX_STATUS_BUSY 1

/-- The context reset of HUB_RESET_CMD has finished. -/
def ctxResetEnd (s : State) : State :=
  match s.boot.ctxReset with
  | some c =>
    if ctxQuiet s c then
      setFld (modBoot (rereadTables s c) fun b => { b with ctxReset := none }) 0 R.HUB_RESET_STATUS_BUSY 0
    else s
  | none => s

/-- CONTEXT_RESET_DONE: an unload goes on with its invalidate. -/
def contextResetDone (s : State) : State :=
  let s := ctxResetEnd s
  match s.xlt.inval with
  | some i => if i.resetting && ctxQuiet s i.ctx then beginInval (poolUnload s i.ctx) i.ctx true else s
  | none => s

/-! ## The security processor (R466, R470, R472) -/

/-- A write to HUB_SEC_REQ. -/
def secRequest (s : State) (ctx : BitVec 16) (kind addr bufk : Nat) : State :=
  if !s.boot.powered then s
  else if fld s 0 R.HUB_SEC_STATUS_BUSY = 1 then setFld s 0 R.HUB_SEC_STATUS_DROPPED 1
  else if kind = 0 ∨ 3 < kind then setFld s 0 R.HUB_SEC_STATUS_RESULT 0x0F
  else setFld (modBoot s fun b => { b with sec := some ⟨ctx, kind, addr, bufk⟩ }) 0 R.HUB_SEC_STATUS_BUSY 1

/-- Bytes of a request block. -/
def secBlock (s : State) (r : SecReq) : Nat :=
  if r.kind = 3 then (if s.boot.fuses.owners = [] then recordBytes else 2 * recordBytes) else 40

/-- `n` bytes of a string, with zeros after its end. -/
def padTo (n : Nat) (b : List Byte) : List Byte := b.take n ++ List.replicate (n - b.length) 0

/-- The attestation report (R472). -/
def attestReport (s : State) (nonce : List Byte) : List Byte :=
  let n := s.boot.log.length
  let seq := if s.boot.image = [] then 0 else (imgSeq s.boot.image).toNat
  let body :=
    leBytes 4 1 ++ leBytes 4 (6717 + 80 * n) ++ leBytes 8 Config.serial.toNat ++ leBytes 8 (regRead s 0 8 64)
      ++ leBytes 8 s.time.toNat ++ padTo 32 nonce ++ leBytes 8 (s.boot.fuses.svn + seq * 2 ^ 32)
      ++ leBytes 8 (fld s 0 R.HUB_DIE_MAP_IN_SERVICE + n * 2 ^ 32 + s.boot.fuses.owners.length * 2 ^ 40
          + s.boot.rechecks * 2 ^ 43)
      ++ s.boot.pcr ++ padTo 3200 Config.identityKeys ++ s.boot.log.flatten
  body ++ padTo 3373 (Config.reportSignature (lineBytes (Config.sha512 body)))

/-- The message that an enrolment signs: serial and the new pair's key hash (R466). -/
def enrolDigest (keyHash : List Byte) : Line := Config.sha512 (leBytes 8 Config.serial.toNat ++ keyHash)

/-- An enrolment request is granted (R466). -/
def enrolOk (s : State) (b : List Byte) : Bool :=
  let f := s.boot.fuses
  let new := b.take recordBytes
  let m := enrolDigest (lineBytes (Config.sha512 (recordKeys new)))
  (s.boot.state == 3 || s.boot.state == 4) && f.owners.length < 4 && Config.recordSigned new m
    && (f.owners == [] || recordOk (b.drop recordBytes) (f.owners.getLast?.getD []) m)

/-- The request ends with a result. -/
def secEnd (s : State) (result : Nat) : State :=
  let s := modBoot s fun b => { b with sec := none }
  setFld (setFld s 0 R.HUB_SEC_STATUS_RESULT result) 0 R.HUB_SEC_STATUS_BUSY 0

/-- The claim checks of a request's access to its block or its buffer (R281, R472; log 80). -/
def secCheck (s : State) (r : SecReq) (a n : Nat) (write : Bool) : State × Bool :=
  let c := targetCheckBy s 0 0 r.ctx a write
  if !c.2 || memExtent a == memExtent (a + n - 1) then c else targetCheckBy c.1 0 0 r.ctx (a + n - 1) write

/-- Write a request's answer into its buffer, if it fits. -/
def secAnswer (s : State) (r : SecReq) (buf : Nat) (b : List Byte) : State :=
  if r.bufk * 4096 < b.length then secEnd s 0x0F
  else if hbmEnd < buf + r.bufk * 4096 then secEnd s 0x05
  else if !rangeIdle s buf b.length then s
  else
    let c := secCheck s r buf b.length true
    if c.2 then secEnd (cohPut c.1 buf b false) 0 else secEnd c.1 0x04

/-- A request whose block can be read is served. -/
def secServe (s : State) (r : SecReq) : State :=
  let d := cohRead s r.addr (secBlock s r)
  let buf := leNat ((d.1.drop 32).take 8)
  if d.2 then secEnd s 0x05
  else if r.kind = 1 then secAnswer s r buf (attestReport s (d.1.take 32))
  else if r.kind = 2 then secAnswer s r buf Config.identityCerts
  else if !enrolOk s d.1 then secEnd s 0x0F
  else
    let hash := lineBytes (Config.sha512 (recordKeys (d.1.take recordBytes)))
    secEnd (showFuses (modBoot s fun b => { b with fuses := { b.fuses with owners := b.fuses.owners ++ [hash] } })) 0

/-- SEC_REQUEST_COMPLETE. It waits while a line that it reads or writes has a transaction open. -/
def secComplete (s : State) : State :=
  match s.boot.sec with
  | none => s
  | some r =>
    let n := secBlock s r
    if !isMem r.addr || !isMem (r.addr + n - 1) then secEnd s 0x05
    else if !rangeIdle s r.addr n then s
    else
      let c := secCheck s r r.addr n false
      if c.2 then secServe c.1 r else secEnd c.1 0x04

/-! ## The meanings -/

/-- RESET_COLD. -/
def execResetCold (ctx : BitVec 16) (s : State) : Host.Outcome State Fault Refusal := .next (resetWhole s ctx coldReset)
/-- RESET_WARM. -/
def execResetWarm (ctx : BitVec 16) (s : State) : Host.Outcome State Fault Refusal := .next (resetWhole s ctx warmReset)
/-- RESET_DIE. -/
def execResetDie (ctx : BitVec 16) (die : Fin 32) (s : State) : Host.Outcome State Fault Refusal := .next (resetDie s ctx die)
/-- DIE_WRITEBACK_TIMEOUT. -/
def execDieWritebackTimeout (die : Fin 32) (s : State) : Host.Outcome State Fault Refusal := .next (writebackTimeout s die)
/-- DIE_RESET_DONE. -/
def execDieResetDone (die : Fin 32) (pass : Bool) (s : State) : Host.Outcome State Fault Refusal :=
  .next (dieResetDone s die pass)
/-- RESET_CONTEXT. -/
def execResetContext (ctx target : BitVec 16) (s : State) : Host.Outcome State Fault Refusal :=
  .next (resetContext s ctx target)
/-- CTX_UNLOAD. -/
def execCtxUnload (ctx : BitVec 16) (s : State) : Host.Outcome State Fault Refusal := .next (ctxUnload s ctx)
/-- CONTEXT_RESET_DONE. -/
def execContextResetDone (s : State) : Host.Outcome State Fault Refusal := .next (contextResetDone s)
/-- SEC_ATTEST_REPORT; `addr`: bits [51:4] of the request block's address. -/
def execSecAttestReport (ctx : BitVec 16) (addr : BitVec 48) (bufk : BitVec 4) (s : State) : Host.Outcome State Fault Refusal :=
  .next (secRequest s ctx 1 (16 * addr.toNat) bufk.toNat)
/-- SEC_IDENTITY_CERTS. -/
def execSecIdentityCerts (ctx : BitVec 16) (addr : BitVec 48) (bufk : BitVec 4) (s : State) : Host.Outcome State Fault Refusal :=
  .next (secRequest s ctx 2 (16 * addr.toNat) bufk.toNat)
/-- SEC_OWNER_ENROL. -/
def execSecOwnerEnrol (ctx : BitVec 16) (addr : BitVec 48) (s : State) : Host.Outcome State Fault Refusal :=
  .next (secRequest s ctx 3 (16 * addr.toNat) 0)
/-- SEC_REQUEST_COMPLETE. -/
def execSecRequestComplete (s : State) : Host.Outcome State Fault Refusal := .next (secComplete s)

end Sys2Proof.Machine
end

