-- ==== Sys2Proof/Machine/RegCmds.lean ====
section
/-! DEFINITION. A write of a register of control space, with what its command fields start, and the commits. -/

namespace Sys2Proof.Machine

/-- What a write to a command register of the hub starts. -/
def hubTrigger (s : State) (off width val : Nat) (ctx : BitVec 16) : State :=
  if off = 0x1400008 ∧ width = 32 then
    let c := BitVec.ofNat 16 val
    match bits val 19 16 with
    | 1 => ctxLoad s c
    | 2 => ctxInvalidate s c
    | 3 => ctxUnload s c
    | _ => ctxCmd s c true id
  else if off = 0x1400020 ∧ width = 32 then
    claimCmd s (BitVec.ofNat 16 val) (BitVec.ofNat 2 (bits val 17 16)) (bits val 19 18)
  else if off = 0x1600008 ∧ width = 32 then
    let q := bits val 17 0
    match bits val 22 20 with
    | 1 => queueEnable s q
    | 2 => queueHalt s q
    | 3 => queueResume s q
    | 4 => queueDisable s q
    | 5 => queueQuery s q
    | _ => queueCmd s true id
  else if off = 0x1A00000 ∧ width = 64 then secRequest s ctx (bits val 63 52) (16 * bits val 51 4) (bits val 3 0)
  else if off = 0x1A00100 ∧ width = 32 then
    match bits val 31 28 with
    | 1 => resetWhole s ctx coldReset
    | 2 => resetWhole s ctx warmReset
    | 3 => resetDie s ctx (bits val 20 16)
    | 4 => resetContext s ctx (BitVec.ofNat 16 val)
    | _ => resetRefused s
  else if off = 0x200300 ∧ width = 64 then selftestRequest s ctx val
  else s

/-- What a write to a command register starts. -/
def cmdTrigger (s : State) (die off width val : Nat) (ctx : BitVec 16) : State :=
  if !dieUp s die then s
  else if die = 0 then hubTrigger s off width val ctx
  else if die = 11 ∧ off = 0x1100008 ∧ width = 32 then
    match bits val 11 8 with
    | 1 => peerLoad s (bits val 7 0)
    | 2 => peerUnload s (bits val 7 0)
    | _ => peerCmd s 0x0F id
  else if 5 ≤ die ∧ die ≤ 10 ∧ off = 0x1100008 ∧ width = 64 then dirProbe s (die - 5) (BitVec.ofNat 64 val)
  else s

/-- A write that its target has let through. The Col gate answers or forwards one to a guest site's window (R426). -/
def regWriteFull (s : State) (die off width val hw : Nat) (ctx : BitVec 16) : State :=
  let put := fun (s : State) => commitTrigger (regPut s die off width val hw) die off width val
  if die = 14 ∨ die = 15 then
    let s := if gateAnswers off then put s else s
    colInbound s (die - 14) ctx off width (some (BitVec.ofNat 64 val))
  else cmdTrigger (portTrigger (put s) die off width val) die off width val ctx

/-- The source of a register write in flight. -/
def writeSrc (s : State) (die off width : Nat) (val : W64) (ctx : BitVec 16) : Option Nat :=
  s.net.findSome? fun m => match m with
    | .regWrite d o w v c src => if d = die ∧ o = off ∧ w = width ∧ v = val ∧ c = ctx then some src else none
    | _ => none

/-- REGISTER_WRITE: the write reaches its window, and its target checks the claim (R281). A refused KSL write is answered
with status 0x04 (R337). -/
def registerWrite (s : State) (die off width : Nat) (val hw : W64) (ctx : BitVec 16) : State :=
  let src := writeSrc s die off width val ctx
  let s := match src with
    | some k => recv s (.regWrite die off width val ctx k)
    | none => s
  let a := match src with
    | some k => srcAgent k
    | none => (0, 0)
  let r := targetCheckBy s a.1 a.2 ctx (windowBase + die * 2 ^ 28 + off) true
  if r.2 then regWriteFull r.1 die off width val.toNat hw.toNat ctx
  else match src with
    | some k =>
      if 2 ^ 42 ≤ k then
        let j := k - 2 ^ 42
        modPort r.1 (j / 1024 % 2) fun p => { p with
          wacks := p.wacks.map fun w => if w.tag.toNat = j % 1024 then { w with status := 0x04 } else w }
      else r.1
    | none => r.1

/-- COL_INBOUND_REQUEST: a write of a register that the gate answers takes effect there. -/
def colRequest (s : State) (g : Nat) (ctx : BitVec 16) (off width : Nat) (write : Option W64) : State :=
  match write with
  | some v => regWriteFull s (14 + g) off width v.toNat 0 ctx
  | none => colInbound s g ctx off width none

/-! ## The meanings -/

/-- REGISTER_WRITE. -/
def execRegisterWrite (die : Fin 32) (off : BitVec 28) (width : Nat) (val hw : W64) (ctx : BitVec 16) (s : State) :
    Host.Outcome State Fault Refusal := .next (registerWrite s die off.toNat width val hw ctx)
/-- PART_COMMIT. -/
def execPartCommit (md : Fin 6) (s : State) : Host.Outcome State Fault Refusal := .next (partCommit s md)
/-- QUOTA_COMMIT. -/
def execQuotaCommit (s : State) : Host.Outcome State Fault Refusal := .next (quotaCommitWrite s)
/-- ARB_COMMIT. -/
def execArbCommit (die : Fin 32) (s : State) : Host.Outcome State Fault Refusal := .next (arbCommit s die)
/-- TREELINE_COMMIT. -/
def execTreelineCommit (s : State) : Host.Outcome State Fault Refusal := .next (treelineCommit s)
/-- COL_INBOUND_REQUEST. -/
def execColInboundRequest (g : Fin 2) (ctx : BitVec 16) (off : BitVec 28) (width : Nat) (write : Option W64) (s : State) :
    Host.Outcome State Fault Refusal := .next (colRequest s g ctx off.toNat width write)

end Sys2Proof.Machine
end

