-- ==== Sys2Proof/Machine/Mgmt.lean ====
section
/-! DEFINITION. Power-down, the management bus and the test access port (R504 to R509). -/

namespace Sys2Proof.Machine

/-! ## Orderly power-down (R504) -/

/-- Has the power-down drained: commands ended, records acknowledged, host-bound and peer-bound writes complete? -/
def drained (s : State) : Bool :=
  s.qs.cmds.all (fun c => match c.2.st with | .ended _ => true | _ => false) && s.qs.jflight == []
    && s.ksl.all (fun p => p.2.outq == [] && p.2.wrTags == [])
    && s.fab.tx.all fun t => t.2.unacked == [] && t.2.queue == []

/-- Caches are written back and the rails are switched off; PWR_GOOD falls. -/
def downEnd (s : State) : State := railsOff (cachesFlush s)

/-- POWERDOWN_DRAIN_DONE. -/
def drainDone (s : State) : State := if s.boot.down && drained s then downEnd s else s

/-- Host-bound and peer-bound writes not acknowledged are dropped (R232). -/
def dropOutbound (s : State) : State :=
  { s with
    ksl := s.ksl.map fun p => (p.1, { p.2 with outq := [], wrTags := [] })
    fab := { s.fab with tx := [] } }

/-- POWERDOWN_DRAIN_TIMEOUT: 3 s after the request, running commands end with 0x0F and an aborted record. -/
def drainTimeout (s : State) : State :=
  if !s.boot.down then s
  else
    let out := s.qs.cmds.filter fun c => match c.2.st with | .ended _ => false | _ => true
    downEnd (dropOutbound (out.foldl (fun s c => endCmd s c.1 5 0x0F) s))

/-! ## The management endpoint (R505 to R507) -/

/-- Change the management state. -/
def modMgmt (s : State) (f : Mgmt → Mgmt) : State := { s with mgmt := f s.mgmt }

/-- Does the endpoint answer: the hub has power and RESET_N is high (R503, R506)? -/
def endpointUp (s : State) : Bool := s.boot.powered && !s.boot.rstLow

/-- Is the module an I3C target? -/
def isI3c (s : State) : Bool := s.boot.straps.getLsbD 0

/-- The static address of the module (R505). -/
def staticAddr (s : State) : BitVec 7 := 0x60 + 2 * (b2n (s.boot.straps.getLsbD 2) : BitVec 7) + (b2n (s.boot.straps.getLsbD 1) : BitVec 7)

/-- I3C_ADDRESS_ASSIGN, by ENTDAA or by SETDASA from the static address. -/
def addressAssign (s : State) (addr : BitVec 7) : State :=
  if endpointUp s && isI3c s then modMgmt s fun m => { m with dyn := some addr } else s

/-- ALERT_READ: an I2C target releases ALERT_N. -/
def alertRead (s : State) : State :=
  if endpointUp s && !isI3c s then modMgmt s fun m => { m with alert := false } else s

/-- MCTP_SET_EID. -/
def setEid (s : State) (eid : BitVec 8) : State :=
  if endpointUp s then modMgmt s fun m => { m with eid := some eid } else s

/-- The endpoint answers a request. -/
def pldmReply (s : State) (r : MgmtReply) : State :=
  if endpointUp s then modMgmt s fun m => { m with reply := some r } else s

/-- The highest of some values; none when there are none. -/
def highest (l : List Nat) : Option Int := if l = [] then none else some (l.foldl max 0 : Nat)

/-- A sensor (R506), in the unit of its register: VIN, IIN, PIN, EFF_CAP, coolant inlet, highest TJ, highest HBM stack
temperature, STATE, HUB_REL_FATAL.CAUSE. -/
def sensorValue (s : State) (n : Nat) : Option Int :=
  let hub := fun (f : FRef) => if dieUp s 0 then some ((fld s 0 f : Nat) : Int) else none
  match n with
  | 0 => hub R.HUB_PWR_INPUT_VIN
  | 1 => hub R.HUB_PWR_INPUT_IIN
  | 2 => hub R.HUB_PWR_INPUT_PIN
  | 3 => hub R.HUB_PWR_STATE_EFF_CAP
  | 4 => hub R.HUB_PWR_STATE_INLET
  | 5 => highest (((List.range 32).filter (dieUp s)).map fun d => fld s d R.PWR_STATUS_TJ)
  | 6 => highest ((([5, 6, 7, 8, 9, 10].filter (dieUp s)).flatMap fun d =>
      ((List.range 4).filter fun j => fldAt s d R.MEM_HBM_STACK_STACK_RETIRED j == 0).map fun j =>
        fldAt s d R.MEM_HBM_STACK_TEMP j))
  | 7 => some ((s.boot.state : Nat) : Int)
  | _ => hub R.HUB_REL_FATAL_CAUSE

/-- FRU data: part number, partner code, stepping and serial. -/
def fruReply (s : State) : MgmtReply :=
  let v := regRead s 0 8 64
  .fru (bits v 63 48) (bits v 47 38) (bits v 37 34) (bits v 33 30) (BitVec.ofNat 64 (regRead s 0 0x10 64))

/-! ## Firmware update (R507) -/

/-- Put bytes into a flash copy. -/
def flashPut (c : List Byte) (off : Nat) (b : List Byte) : List Byte :=
  imgBytes c 0 off ++ b ++ c.drop (off + b.length)

/-- Bytes of a copy that an update may write: copy A ends where the identity certificates begin. -/
def updateLimit (b : Bool) : Nat := if b then Config.flashRoom + 65536 else Config.flashRoom

/-- A copy of the configuration flash. -/
def flashCopy (s : State) (b : Bool) : List Byte := if b then s.boot.flash.b else s.boot.flash.a

/-- Replace a copy. -/
def setCopy (s : State) (b : Bool) (c : List Byte) : State :=
  modBoot s fun x => { x with flash := if b then { x.flash with b := c } else { x.flash with a := c } }

/-- Is it copy B that HUB_SEC_STATUS.COPY does not name? -/
def spareIsB (s : State) : Bool := fld s 0 R.HUB_SEC_STATUS_COPY == 0

/-- PLDM_FIRMWARE_UPDATE: bytes of a transfer, whose first ones find the copy erased. -/
def firmwareUpdate (s : State) (off : Nat) (b : List Byte) (last : Bool) : State :=
  let w := spareIsB s
  if !endpointUp s || updateLimit w < off + b.length then s
  else
    let old := if s.mgmt.updating then flashCopy s w else []
    modMgmt (setCopy s w (flashPut old off b)) fun m => { m with updating := !last, verifyDue := last }

/-- FIRMWARE_UPDATE_VERIFY: the written copy is checked under R462, and left in place. -/
def updateVerify (s : State) : State :=
  if s.mgmt.verifyDue && endpointUp s then
    modMgmt s fun m => { m with verifyDue := false, reply := some (.verified (imgOk s.boot.fuses (flashCopy s (spareIsB s)))) }
  else s

/-! ## JTAG (R509) -/

/-- IDCODE. -/
abbrev idcode : W32 := 0x1910045B

/-- The data register that the current instruction selects, bit 0 first (IEEE 1149.1). -/
def jtagData (s : State) : List Bool :=
  match s.mgmt.jtag with
  | .bypass | .highz => [false]
  | .idcode => (List.range 32).map idcode.getLsbD
  | .sample | .extest => s.mgmt.boundary

/-- The instruction of the test access port. -/
def jtagSet (s : State) (i : JtagInstr) : State := if s.boot.powered then modMgmt s fun m => { m with jtag := i } else s

/-- EXTEST and HIGHZ act only while RESET_N is low. -/
def jtagLow (s : State) (i : JtagInstr) : State := jtagSet s (if s.boot.rstLow then i else .bypass)

/-! ## The meanings -/

/-- POWERDOWN_REQUEST. -/
def execPowerdownRequest (s : State) : Host.Outcome State Fault Refusal := .next (orderlyDown s)
/-- POWERDOWN_DRAIN_TIMEOUT. -/
def execPowerdownDrainTimeout (s : State) : Host.Outcome State Fault Refusal := .next (drainTimeout s)
/-- POWERDOWN_DRAIN_DONE. -/
def execPowerdownDrainDone (s : State) : Host.Outcome State Fault Refusal := .next (drainDone s)
/-- I3C_ADDRESS_ASSIGN. -/
def execI3cAddressAssign (_static : Bool) (addr : BitVec 7) (s : State) : Host.Outcome State Fault Refusal :=
  .next (addressAssign s addr)
/-- ALERT_READ. -/
def execAlertRead (s : State) : Host.Outcome State Fault Refusal := .next (alertRead s)
/-- MCTP_SET_EID. -/
def execMctpSetEid (eid : BitVec 8) (s : State) : Host.Outcome State Fault Refusal := .next (setEid s eid)
/-- PLDM_DISCOVERY. -/
def execPldmDiscovery (s : State) : Host.Outcome State Fault Refusal := .next (pldmReply s (.types [0, 2, 4, 5]))
/-- PLDM_SENSOR_READ. -/
def execPldmSensorRead (sensor : Fin 9) (s : State) : Host.Outcome State Fault Refusal :=
  .next (pldmReply s (.sensor (sensorValue s sensor)))
/-- PLDM_WARM_RESET. -/
def execPldmWarmReset (s : State) : Host.Outcome State Fault Refusal := .next (if endpointUp s then warmReset s else s)
/-- PLDM_POWERDOWN. -/
def execPldmPowerdown (s : State) : Host.Outcome State Fault Refusal := .next (if endpointUp s then orderlyDown s else s)
/-- PLDM_FRU_READ. -/
def execPldmFruRead (s : State) : Host.Outcome State Fault Refusal := .next (pldmReply s (fruReply s))
/-- PLDM_FIRMWARE_UPDATE. -/
def execPldmFirmwareUpdate (off : Nat) (data : List Byte) (last : Bool) (s : State) : Host.Outcome State Fault Refusal :=
  .next (firmwareUpdate s off data last)
/-- FIRMWARE_UPDATE_VERIFY. -/
def execFirmwareUpdateVerify (s : State) : Host.Outcome State Fault Refusal := .next (updateVerify s)
/-- JTAG_BYPASS: BYPASS and every instruction that is not implemented. -/
def execJtagBypass (_code : Nat) (s : State) : Host.Outcome State Fault Refusal := .next (jtagSet s .bypass)
/-- JTAG_IDCODE. -/
def execJtagIdcode (s : State) : Host.Outcome State Fault Refusal := .next (jtagSet s .idcode)
/-- JTAG_SAMPLE_PRELOAD. -/
def execJtagSamplePreload (preload : List Bool) (s : State) : Host.Outcome State Fault Refusal :=
  .next (if s.boot.powered then modMgmt s fun m => { m with jtag := .sample, boundary := preload } else s)
/-- JTAG_EXTEST. -/
def execJtagExtest (s : State) : Host.Outcome State Fault Refusal := .next (jtagLow s .extest)
/-- JTAG_HIGHZ. -/
def execJtagHighz (s : State) : Host.Outcome State Fault Refusal := .next (jtagLow s .highz)

end Sys2Proof.Machine
end

