-- ==== Sys2Proof/Machine/Dispatch.lean ====
section
/-! DEFINITION. The dispatch of commands: one arm per constructor of `Instr`. -/

namespace Sys2Proof.Machine

/-- The effect of a command on everything but the queue. -/
def exec (i : Instr) (s : State) : Host.Outcome State Fault Refusal :=
  match i with
  | .registerWrite die off width val hw ctx => Sys2Proof.Machine.execRegisterWrite die off width val hw ctx s
  | .partCommit md => Sys2Proof.Machine.execPartCommit md s
  | .quotaCommit => Sys2Proof.Machine.execQuotaCommit s
  | .arbCommit die => Sys2Proof.Machine.execArbCommit die s
  | .treelineCommit => Sys2Proof.Machine.execTreelineCommit s
  | .intReg sp sl w => Sys2Proof.Machine.execIntReg sp sl w s
  | .intImm sp sl w => Sys2Proof.Machine.execIntImm sp sl w s
  | .fpReg sp sl w => Sys2Proof.Machine.execFpReg sp sl w s
  | .fpImm sp sl w => Sys2Proof.Machine.execFpImm sp sl w s
  | .specialFunction sp sl w => Sys2Proof.Machine.execSpecialFunction sp sl w s
  | .cvt sp sl w => Sys2Proof.Machine.execCvt sp sl w s
  | .ldG sp sl w => Sys2Proof.Machine.execLdG sp sl w s
  | .stG sp sl w => Sys2Proof.Machine.execStG sp sl w s
  | .ldL sp sl w => Sys2Proof.Machine.execLdL sp sl w s
  | .stL sp sl w => Sys2Proof.Machine.execStL sp sl w s
  | .atG sp sl w => Sys2Proof.Machine.execAtG sp sl w s
  | .atL sp sl w => Sys2Proof.Machine.execAtL sp sl w s
  | .haulLane sp sl w => Sys2Proof.Machine.execHaulLane sp sl w s
  | .haulBulk sp sl w => Sys2Proof.Machine.execHaulBulk sp sl w s
  | .copyUnitComplete sp job => Sys2Proof.Machine.execCopyUnitComplete sp job s
  | .arriveGet sp sl w => Sys2Proof.Machine.execArriveGet sp sl w s
  | .arriveWait sp sl w => Sys2Proof.Machine.execArriveWait sp sl w s
  | .barSync sp sl w => Sys2Proof.Machine.execBarSync sp sl w s
  | .barArrive sp sl w => Sys2Proof.Machine.execBarArrive sp sl w s
  | .fenceS sp sl w => Sys2Proof.Machine.execFenceS sp sl w s
  | .br sp sl w => Sys2Proof.Machine.execBr sp sl w s
  | .brC sp sl w w2 => Sys2Proof.Machine.execBrC sp sl w w2 s
  | .exit sp sl w => Sys2Proof.Machine.execExit sp sl w s
  | .nop sp sl w => Sys2Proof.Machine.execNop sp sl w s
  | .movSp sp sl w => Sys2Proof.Machine.execMovSp sp sl w s
  | .laneShfl sp sl w => Sys2Proof.Machine.execLaneShfl sp sl w s
  | .laneVote sp sl w => Sys2Proof.Machine.execLaneVote sp sl w s
  | .cmInvL1 sp sl w => Sys2Proof.Machine.execCmInvL1 sp sl w s
  | .cmInvL1All sp sl w => Sys2Proof.Machine.execCmInvL1All sp sl w s
  | .cmClean sp sl w => Sys2Proof.Machine.execCmClean sp sl w s
  | .cmFlush sp sl w => Sys2Proof.Machine.execCmFlush sp sl w s
  | .cmZero sp sl w => Sys2Proof.Machine.execCmZero sp sl w s
  | .cmPfL2 sp sl w => Sys2Proof.Machine.execCmPfL2 sp sl w s
  | .l1FillReturn sp blk ctx sec => Sys2Proof.Machine.execL1FillReturn sp blk ctx sec s
  | .stallLimitExpiry sp sl => Sys2Proof.Machine.execStallLimitExpiry sp sl s
  | .blockStart td => Sys2Proof.Machine.execBlockStart td s
  | .launch cid => Sys2Proof.Machine.execLaunch cid s
  | .timedLaunchStart td cid t => Sys2Proof.Machine.execTimedLaunchStart td cid t s
  | .mxOpen sp sl w => Sys2Proof.Machine.execMxOpen sp sl w s
  | .seatGrant sp => Sys2Proof.Machine.execSeatGrant sp s
  | .mxClose sp sl w => Sys2Proof.Machine.execMxClose sp sl w s
  | .mxLdw sp sl w => Sys2Proof.Machine.execMxLdw sp sl w s
  | .mxLdacc sp sl w => Sys2Proof.Machine.execMxLdacc sp sl w s
  | .mxMma sp sl w => Sys2Proof.Machine.execMxMma sp sl w s
  | .mxDrain sp sl w => Sys2Proof.Machine.execMxDrain sp sl w s
  | .mxWait sp sl w => Sys2Proof.Machine.execMxWait sp sl w s
  | .mxInstrComplete sp id => Sys2Proof.Machine.execMxInstrComplete sp id s
  | .rampUpStepEnd sp arr => Sys2Proof.Machine.execRampUpStepEnd sp arr s
  | .rampHoldExpiry sp arr => Sys2Proof.Machine.execRampHoldExpiry sp arr s
  | .releaseStepEnd sp arr => Sys2Proof.Machine.execReleaseStepEnd sp arr s
  | .teamRegister cid => Sys2Proof.Machine.execTeamRegister cid s
  | .teamReservationTake res sp => Sys2Proof.Machine.execTeamReservationTake res sp s
  | .teamRelease cid => Sys2Proof.Machine.execTeamRelease cid s
  | .teamStep cid => Sys2Proof.Machine.execTeamStep cid s
  | .teamDeadlineCheck res t => Sys2Proof.Machine.execTeamDeadlineCheck res t s
  | .teamDispatch team t => Sys2Proof.Machine.execTeamDispatch team t s
  | .teamDispatchReceive td seq => Sys2Proof.Machine.execTeamDispatchReceive td seq s
  | .teamBlockStart sp => Sys2Proof.Machine.execTeamBlockStart sp s
  | .teamStagingDone sp => Sys2Proof.Machine.execTeamStagingDone sp s
  | .entryDoneNotice td src team => Sys2Proof.Machine.execEntryDoneNotice td src team s
  | .teamScatter team => Sys2Proof.Machine.execTeamScatter team s
  | .teamRowComplete team => Sys2Proof.Machine.execTeamRowComplete team s
  | .clPortAssemble sp sl n data => Sys2Proof.Machine.execClPortAssemble sp sl n data s
  | .clSubmit sp sl data => Sys2Proof.Machine.execClSubmit sp sl data s
  | .clSubmitSend sp sl => Sys2Proof.Machine.execClSubmitSend sp sl s
  | .clCommandReceive md id => Sys2Proof.Machine.execClCommandReceive md id s
  | .clScanStep md eng => Sys2Proof.Machine.execClScanStep md eng s
  | .clResultDeliver md id => Sys2Proof.Machine.execClResultDeliver md id s
  | .scalarLoad h rd va lg signed => Sys2Proof.Machine.execScalarLoad h rd va lg signed s
  | .scalarStore h va lg data => Sys2Proof.Machine.execScalarStore h va lg data s
  | .scalarAmo h op rd va dbl aq rl data => Sys2Proof.Machine.execScalarAmo h op rd va dbl aq rl data s
  | .scalarFence h pred succ => Sys2Proof.Machine.execScalarFence h pred succ s
  | .fenceI h => Sys2Proof.Machine.execFenceI h s
  | .wrsWait h sto => Sys2Proof.Machine.execWrsWait h sto s
  | .cboClean h va => Sys2Proof.Machine.execCboClean h va s
  | .cboFlush h va inval => Sys2Proof.Machine.execCboFlush h va inval s
  | .cboZero h va => Sys2Proof.Machine.execCboZero h va s
  | .scalarPrefetch h va write => Sys2Proof.Machine.execScalarPrefetch h va write s
  | .homeReadShared md src ctx line => Sys2Proof.Machine.execHomeReadShared md src ctx line s
  | .homeReadUnique md src ctx line => Sys2Proof.Machine.execHomeReadUnique md src ctx line s
  | .homeUpgrade md src ctx line => Sys2Proof.Machine.execHomeUpgrade md src ctx line s
  | .homeZero md src ctx line => Sys2Proof.Machine.execHomeZero md src ctx line s
  | .homeClean md src ctx line => Sys2Proof.Machine.execHomeClean md src ctx line s
  | .homeFlush md src ctx line => Sys2Proof.Machine.execHomeFlush md src ctx line s
  | .homeRdonce md src ctx line => Sys2Proof.Machine.execHomeRdonce md src ctx line s
  | .homeWrline md src ctx line data => Sys2Proof.Machine.execHomeWrline md src ctx line data s
  | .homeWrpart md src ctx line data mask => Sys2Proof.Machine.execHomeWrpart md src ctx line data mask s
  | .homeWb md agent line data poison => Sys2Proof.Machine.execHomeWb md agent line data poison s
  | .homeOffer md agent line data poison => Sys2Proof.Machine.execHomeOffer md agent line data poison s
  | .homeQueuedRequestStart md line => Sys2Proof.Machine.execHomeQueuedRequestStart md line s
  | .homeReplyReceive md agent line reply => Sys2Proof.Machine.execHomeReplyReceive md agent line reply s
  | .fwdShared agent line requester => Sys2Proof.Machine.execFwdShared agent line requester s
  | .fwdUnique agent line requester => Sys2Proof.Machine.execFwdUnique agent line requester s
  | .fwdOnce agent line requester => Sys2Proof.Machine.execFwdOnce agent line requester s
  | .recall agent line => Sys2Proof.Machine.execRecall agent line s
  | .inval agent line => Sys2Proof.Machine.execInval agent line s
  | .dataGrantReceive agent line st data poison => Sys2Proof.Machine.execDataGrantReceive agent line st data poison s
  | .writebackAckReceive agent line declined => Sys2Proof.Machine.execWritebackAckReceive agent line declined s
  | .victimQueueDrain md => Sys2Proof.Machine.execVictimQueueDrain md s
  | .dirProbe md val => Sys2Proof.Machine.execDirProbe md val s
  | .dirProbeDone md => Sys2Proof.Machine.execDirProbeDone md s
  | .ctxLoad ctx => Sys2Proof.Machine.execCtxLoad ctx s
  | .ctxInvalidate ctx => Sys2Proof.Machine.execCtxInvalidate ctx s
  | .ctxInvalidateDone => Sys2Proof.Machine.execCtxInvalidateDone s
  | .ctxUnload ctx => Sys2Proof.Machine.execCtxUnload ctx s
  | .tlbMissRequest md td stream ctx va => Sys2Proof.Machine.execTlbMissRequest md td stream ctx va s
  | .engineTlbMiss md eng ctx va => Sys2Proof.Machine.execEngineTlbMiss md eng ctx va s
  | .walkStart md fromEngine => Sys2Proof.Machine.execWalkStart md fromEngine s
  | .walkReadReply md walk => Sys2Proof.Machine.execWalkReadReply md walk s
  | .walkReplyReceive md walk => Sys2Proof.Machine.execWalkReplyReceive md walk s
  | .claimQuery md h pa => Sys2Proof.Machine.execClaimQuery md h pa s
  | .ctxFaultRecordTimer tgt ctx t => Sys2Proof.Machine.execCtxFaultRecordTimer tgt ctx t s
  | .claimSet ctx mode => Sys2Proof.Machine.execClaimSet ctx mode s
  | .claimSetFlush ctx mode => Sys2Proof.Machine.execClaimSetFlush ctx mode s
  | .claimSetZero ctx mode => Sys2Proof.Machine.execClaimSetZero ctx mode s
  | .claimChangeDone => Sys2Proof.Machine.execClaimChangeDone s
  | .hbmAccess md line ctx write errs errs2 => Sys2Proof.Machine.execHbmAccess md line ctx write errs errs2 s
  | .hbmControllerGrant md stack t => Sys2Proof.Machine.execHbmControllerGrant md stack t s
  | .hbmTempSample md stack temp => Sys2Proof.Machine.execHbmTempSample md stack temp s
  | .boardAccess line write poison linkErr => Sys2Proof.Machine.execBoardAccess line write poison linkErr s
  | .flashWriteComplete page => Sys2Proof.Machine.execFlashWriteComplete page s
  | .flashRelocate block reason wear spare => Sys2Proof.Machine.execFlashRelocate block reason wear spare s
  | .poolAgeTick => Sys2Proof.Machine.execPoolAgeTick s
  | .poolEvict fromBoard quotaOf => Sys2Proof.Machine.execPoolEvict fromBoard quotaOf s
  | .poolMoveDone handle => Sys2Proof.Machine.execPoolMoveDone handle s
  | .poolFreeWaitTimeout cid => Sys2Proof.Machine.execPoolFreeWaitTimeout cid s
  | .tierAlloc cid => Sys2Proof.Machine.execTierAlloc cid s
  | .tierFree cid => Sys2Proof.Machine.execTierFree cid s
  | .tierHold cid => Sys2Proof.Machine.execTierHold cid s
  | .tierRelease cid => Sys2Proof.Machine.execTierRelease cid s
  | .tierDemote cid => Sys2Proof.Machine.execTierDemote cid s
  | .streamDieTransfer handle => Sys2Proof.Machine.execStreamDieTransfer handle s
  | .kslEnableWrite port enable => Sys2Proof.Machine.execKslEnableWrite port enable s
  | .kslTrainStepDone port r => Sys2Proof.Machine.execKslTrainStepDone port r s
  | .kslTrainTimeout port => Sys2Proof.Machine.execKslTrainTimeout port s
  | .kslFlitReceive port flit => Sys2Proof.Machine.execKslFlitReceive port flit s
  | .kslNakReceive port ackseq => Sys2Proof.Machine.execKslNakReceive port ackseq s
  | .kslRd port hdr => Sys2Proof.Machine.execKslRd port hdr s
  | .kslWr port hdr data => Sys2Proof.Machine.execKslWr port hdr data s
  | .kslDb port hdr data => Sys2Proof.Machine.execKslDb port hdr data s
  | .kslCpl port hdr data => Sys2Proof.Machine.execKslCpl port hdr data s
  | .kslWack port hdr => Sys2Proof.Machine.execKslWack port hdr s
  | .kslMsgEpoch port value => Sys2Proof.Machine.execKslMsgEpoch port value s
  | .kslMsgNotify port queue => Sys2Proof.Machine.execKslMsgNotify port queue s
  | .kslInboundPerformed port tag => Sys2Proof.Machine.execKslInboundPerformed port tag s
  | .kslRetrain port => Sys2Proof.Machine.execKslRetrain port s
  | .kslRetrainDone port ok ackseq => Sys2Proof.Machine.execKslRetrainDone port ok ackseq s
  | .kslPortLostTimeout port => Sys2Proof.Machine.execKslPortLostTimeout port s
  | .cableMate port => Sys2Proof.Machine.execCableMate port s
  | .cableUnmate port => Sys2Proof.Machine.execCableUnmate port s
  | .cblOvercurrent port => Sys2Proof.Machine.execCblOvercurrent port s
  | .cblPowerRetry port => Sys2Proof.Machine.execCblPowerRetry port s
  | .queueEnable q => Sys2Proof.Machine.execQueueEnable q s
  | .queueHalt q => Sys2Proof.Machine.execQueueHalt q s
  | .queueResume q => Sys2Proof.Machine.execQueueResume q s
  | .queueDisable q => Sys2Proof.Machine.execQueueDisable q s
  | .queueDisableDone q => Sys2Proof.Machine.execQueueDisableDone q s
  | .queueQuery q => Sys2Proof.Machine.execQueueQuery q s
  | .doorbell q ctx val => Sys2Proof.Machine.execDoorbell q ctx val s
  | .queueFetch q => Sys2Proof.Machine.execQueueFetch q s
  | .tornReread q => Sys2Proof.Machine.execTornReread q s
  | .commandAccept q t => Sys2Proof.Machine.execCommandAccept q t s
  | .commandHandoff q t => Sys2Proof.Machine.execCommandHandoff q t s
  | .nopCommand cid => Sys2Proof.Machine.execNopCommand cid s
  | .copy cid => Sys2Proof.Machine.execCopy cid s
  | .copyEngineComplete eng => Sys2Proof.Machine.execCopyEngineComplete eng s
  | .completionPost cid t => Sys2Proof.Machine.execCompletionPost cid t s
  | .journalRecordAck jseq => Sys2Proof.Machine.execJournalRecordAck jseq s
  | .eventPost q t => Sys2Proof.Machine.execEventPost q t s
  | .notifyWindowExpiry q => Sys2Proof.Machine.execNotifyWindowExpiry q s
  | .fabPortEnable p b enable => Sys2Proof.Machine.execFabPortEnable p b enable s
  | .fabPortLinkChange lp up => Sys2Proof.Machine.execFabPortLinkChange lp up s
  | .fabPauseRx p => Sys2Proof.Machine.execFabPauseRx p s
  | .fabArpNdRequest lp addr => Sys2Proof.Machine.execFabArpNdRequest lp addr s
  | .fabModulePresent p => Sys2Proof.Machine.execFabModulePresent p s
  | .peerLoad p => Sys2Proof.Machine.execPeerLoad p s
  | .peerUnload p => Sys2Proof.Machine.execPeerUnload p s
  | .kftDataWrite h data => Sys2Proof.Machine.execKftDataWrite h data s
  | .kftReadRequest h len => Sys2Proof.Machine.execKftReadRequest h len s
  | .kftReadResponse h data => Sys2Proof.Machine.execKftReadResponse h data s
  | .kftCollData h data t => Sys2Proof.Machine.execKftCollData h data t s
  | .kftReady h a t => Sys2Proof.Machine.execKftReady h a t s
  | .kftAck h => Sys2Proof.Machine.execKftAck h s
  | .kftSession h => Sys2Proof.Machine.execKftSession h s
  | .kftInboundPerformed peer flow psn => Sys2Proof.Machine.execKftInboundPerformed peer flow psn s
  | .kftAckTimer peer flow => Sys2Proof.Machine.execKftAckTimer peer flow s
  | .kftRtoExpiry peer flow psn => Sys2Proof.Machine.execKftRtoExpiry peer flow psn s
  | .kftFlowAbandon peer flow => Sys2Proof.Machine.execKftFlowAbandon peer flow s
  | .fabWrite cid => Sys2Proof.Machine.execFabWrite cid s
  | .fabRead cid => Sys2Proof.Machine.execFabRead cid s
  | .timedFabStart cid t => Sys2Proof.Machine.execTimedFabStart cid t s
  | .fabCommandComplete cid => Sys2Proof.Machine.execFabCommandComplete cid s
  | .collSet cid => Sys2Proof.Machine.execCollSet cid s
  | .collRelease cid => Sys2Proof.Machine.execCollRelease cid s
  | .collBarrier cid t => Sys2Proof.Machine.execCollBarrier cid t s
  | .collBroadcast cid t => Sys2Proof.Machine.execCollBroadcast cid t s
  | .collAllGather cid t => Sys2Proof.Machine.execCollAllGather cid t s
  | .collReduceScatter cid t => Sys2Proof.Machine.execCollReduceScatter cid t s
  | .collMergePartials cid t => Sys2Proof.Machine.execCollMergePartials cid t s
  | .collWaitExpiry set step t => Sys2Proof.Machine.execCollWaitExpiry set step t s
  | .collDeadline set step t => Sys2Proof.Machine.execCollDeadline set step t s
  | .collMissingTimeout set step t => Sys2Proof.Machine.execCollMissingTimeout set step t s
  | .collComplete cid => Sys2Proof.Machine.execCollComplete cid s
  | .ptpMessage msg => Sys2Proof.Machine.execPtpMessage msg s
  | .agHoldoverTimeout t => Sys2Proof.Machine.execAgHoldoverTimeout t s
  | .ppsEdge t => Sys2Proof.Machine.execPpsEdge t s
  | .ppsLossTimeout t => Sys2Proof.Machine.execPpsLossTimeout t s
  | .ridgeFrameReceive die mod f payload => Sys2Proof.Machine.execRidgeFrameReceive die mod f payload s
  | .ridgeNakResend die mod ackseq => Sys2Proof.Machine.execRidgeNakResend die mod ackseq s
  | .ridgeRetrain die mod ok => Sys2Proof.Machine.execRidgeRetrain die mod ok s
  | .ridgeModuleRetire die mod => Sys2Proof.Machine.execRidgeModuleRetire die mod s
  | .arbGrant die arb => Sys2Proof.Machine.execArbGrant die arb s
  | .lockWatchdogExpiry die arb => Sys2Proof.Machine.execLockWatchdogExpiry die arb s
  | .guestRead g h => Sys2Proof.Machine.execGuestRead g h s
  | .guestWriteLine g h data => Sys2Proof.Machine.execGuestWriteLine g h data s
  | .guestWritePart g h data => Sys2Proof.Machine.execGuestWritePart g h data s
  | .guestCacheableRequest g h => Sys2Proof.Machine.execGuestCacheableRequest g h s
  | .colRateRelease g t => Sys2Proof.Machine.execColRateRelease g t s
  | .colAnswerReturn g tag => Sys2Proof.Machine.execColAnswerReturn g tag s
  | .colInboundRequest g ctx off width write => Sys2Proof.Machine.execColInboundRequest g ctx off width write s
  | .guestAnswer g id data status => Sys2Proof.Machine.execGuestAnswer g id data status s
  | .colGuestTimeout g id => Sys2Proof.Machine.execColGuestTimeout g id s
  | .colKill g => Sys2Proof.Machine.execColKill g s
  | .guestLinkFault g => Sys2Proof.Machine.execGuestLinkFault g s
  | .inputSample v amps p overLong => Sys2Proof.Machine.execInputSample v amps p overLong s
  | .inputVoltageTrip v => Sys2Proof.Machine.execInputVoltageTrip v s
  | .railTelemetrySample grp m e => Sys2Proof.Machine.execRailTelemetrySample grp m e s
  | .telemetryTimeout src => Sys2Proof.Machine.execTelemetryTimeout src s
  | .powerReport die k => Sys2Proof.Machine.execPowerReport die k s
  | .grantCompute k => Sys2Proof.Machine.execGrantCompute k s
  | .grantReceive die t => Sys2Proof.Machine.execGrantReceive die t s
  | .epochBoundary die k => Sys2Proof.Machine.execEpochBoundary die k s
  | .lendStatusTick die => Sys2Proof.Machine.execLendStatusTick die s
  | .loanReceive die => Sys2Proof.Machine.execLoanReceive die s
  | .powerControlTick die e => Sys2Proof.Machine.execPowerControlTick die e s
  | .droopAssert grp => Sys2Proof.Machine.execDroopAssert grp s
  | .droopRelease grp => Sys2Proof.Machine.execDroopRelease grp s
  | .droopHoldEnd die => Sys2Proof.Machine.execDroopHoldEnd die s
  | .droopRecoveryEnd die => Sys2Proof.Machine.execDroopRecoveryEnd die s
  | .tjSample die temps => Sys2Proof.Machine.execTjSample die temps s
  | .coolantSample temp => Sys2Proof.Machine.execCoolantSample temp s
  | .powerOn straps => Sys2Proof.Machine.execPowerOn straps s
  | .powerLoss => Sys2Proof.Machine.execPowerLoss s
  | .resetNAssert => Sys2Proof.Machine.execResetNAssert s
  | .siteSurvey r => Sys2Proof.Machine.execSiteSurvey r s
  | .surveyTimeout coolant => Sys2Proof.Machine.execSurveyTimeout coolant s
  | .imageSelect => Sys2Proof.Machine.execImageSelect s
  | .bootSequence => Sys2Proof.Machine.execBootSequence s
  | .bootTimeout => Sys2Proof.Machine.execBootTimeout s
  | .fabricReadyTimeout => Sys2Proof.Machine.execFabricReadyTimeout s
  | .lockSet die bits => Sys2Proof.Machine.execLockSet die bits s
  | .resetCold ctx => Sys2Proof.Machine.execResetCold ctx s
  | .resetWarm ctx => Sys2Proof.Machine.execResetWarm ctx s
  | .resetDie ctx die => Sys2Proof.Machine.execResetDie ctx die s
  | .dieResetDone die pass => Sys2Proof.Machine.execDieResetDone die pass s
  | .resetContext ctx target => Sys2Proof.Machine.execResetContext ctx target s
  | .secAttestReport ctx addr bufk => Sys2Proof.Machine.execSecAttestReport ctx addr bufk s
  | .secIdentityCerts ctx addr bufk => Sys2Proof.Machine.execSecIdentityCerts ctx addr bufk s
  | .secOwnerEnrol ctx addr => Sys2Proof.Machine.execSecOwnerEnrol ctx addr s
  | .secRequestComplete => Sys2Proof.Machine.execSecRequestComplete s
  | .correctedError rid cls pa detail t => Sys2Proof.Machine.execCorrectedError rid cls pa detail t s
  | .uncorrectedError rid pa detail t => Sys2Proof.Machine.execUncorrectedError rid pa detail t s
  | .stackRebuildStep md stack => Sys2Proof.Machine.execStackRebuildStep md stack s
  | .stackRebuildDone md stack => Sys2Proof.Machine.execStackRebuildDone md stack s
  | .screeHbmStep md stack errs errs2 => Sys2Proof.Machine.execScreeHbmStep md stack errs errs2 s
  | .screeBoardStep linkErr => Sys2Proof.Machine.execScreeBoardStep linkErr s
  | .screePeriodEnd board => Sys2Proof.Machine.execScreePeriodEnd board s
  | .cairnCalibration rid => Sys2Proof.Machine.execCairnCalibration rid s
  | .cairnTaskEnd rid watchdog => Sys2Proof.Machine.execCairnTaskEnd rid watchdog s
  | .selftestRequest ctx val => Sys2Proof.Machine.execSelftestRequest ctx val s
  | .selftestStart => Sys2Proof.Machine.execSelftestStart s
  | .selftestStartTimeout => Sys2Proof.Machine.execSelftestStartTimeout s
  | .selftestResult res => Sys2Proof.Machine.execSelftestResult res s
  | .telemetryRecord t => Sys2Proof.Machine.execTelemetryRecord t s
  | .fatalError cause die => Sys2Proof.Machine.execFatalError cause die s
  | .powerdownRequest => Sys2Proof.Machine.execPowerdownRequest s
  | .powerdownDrainTimeout => Sys2Proof.Machine.execPowerdownDrainTimeout s
  | .i3cAddressAssign static addr => Sys2Proof.Machine.execI3cAddressAssign static addr s
  | .alertRead => Sys2Proof.Machine.execAlertRead s
  | .mctpSetEid eid => Sys2Proof.Machine.execMctpSetEid eid s
  | .pldmDiscovery => Sys2Proof.Machine.execPldmDiscovery s
  | .pldmSensorRead sensor => Sys2Proof.Machine.execPldmSensorRead sensor s
  | .pldmWarmReset => Sys2Proof.Machine.execPldmWarmReset s
  | .pldmPowerdown => Sys2Proof.Machine.execPldmPowerdown s
  | .pldmFruRead => Sys2Proof.Machine.execPldmFruRead s
  | .pldmFirmwareUpdate off data last => Sys2Proof.Machine.execPldmFirmwareUpdate off data last s
  | .firmwareUpdateVerify => Sys2Proof.Machine.execFirmwareUpdateVerify s
  | .jtagBypass code => Sys2Proof.Machine.execJtagBypass code s
  | .jtagIdcode => Sys2Proof.Machine.execJtagIdcode s
  | .jtagSamplePreload preload => Sys2Proof.Machine.execJtagSamplePreload preload s
  | .jtagExtest => Sys2Proof.Machine.execJtagExtest s
  | .jtagHighz => Sys2Proof.Machine.execJtagHighz s
  | .resetNRelease => Sys2Proof.Machine.execResetNRelease s
  | .powerdownDrainDone => Sys2Proof.Machine.execPowerdownDrainDone s
  | .collSendInstant set step t => Sys2Proof.Machine.execCollSendInstant set step t s
  | .dieWritebackTimeout die => Sys2Proof.Machine.execDieWritebackTimeout die s
  | .contextResetDone => Sys2Proof.Machine.execContextResetDone s
  | .asynchronousInterrupt h cause => Sys2Proof.Machine.execAsynchronousInterrupt h cause s
  | .sfenceVma h va ctx => Sys2Proof.Machine.execSfenceVma h va ctx s
  | .directAccessResponse sp op => Sys2Proof.Machine.execDirectAccessResponse sp op s
  | .outboundWindowRequest src => Sys2Proof.Machine.execOutboundWindowRequest src s

end Sys2Proof.Machine
end

