-- ==== Sys2Proof/Safety.lean ====
section
/-! DEFINITION. What the statements speak of: steps that neither fault nor are refused, groups that can issue, and
frames, which say that a command changes one part of the state alone. -/

namespace Sys2Proof.Machine

/-- A step that neither faults nor is refused. -/
def SafeStep (s : State) : Prop := ∃ t, step s = .next t

/-- The command `c` answers the next state `t` at `s`. -/
def Answers (c : Instr) (s t : State) : Prop := exec c s = .next t

/-- `g`, in slot `sl` of Spur `sp`, can issue an instruction that names `regs`: it is ready (R36), the registers lie
within REGS (R35), and no array that it has selected was retired (R130). -/
structure Issues (s : State) (sp sl : Nat) (regs : List Nat) (g : Group) : Prop where
  ready : issuable s sp sl regs = some g
  inRange : regsOk g regs = true
  noHit : (s.spur sp).mx.arrayHit = false

/-! ## Frames -/

/-- `t` is `s` but for registers of control space. -/
def OnlyRegs (s t : State) : Prop := t = { s with regs := t.regs }

/-- `t` is `s` but for Spur `sp`. -/
def OnlySpur (s t : State) (sp : Nat) : Prop :=
  t = { s with spurs := t.spurs } ∧ ∀ k, k ≠ sp → t.spur k = s.spur k

/-- `t` is `s` but for the group in slot `sl` of Spur `sp`. -/
def OnlyGroup (s t : State) (sp sl : Nat) : Prop :=
  OnlySpur s t sp ∧ t.spur sp = { s.spur sp with groups := (t.spur sp).groups } ∧
    ∀ k, k ≠ sl → groupAt t sp k = groupAt s sp k

/-- Every byte of memory, and which lines are poisoned, are the same. -/
def SameMemory (s t : State) : Prop := (∀ a, memByte t.mem a = memByte s.mem a) ∧ t.poison = s.poison

/-- No register of control space changes. -/
def SameRegs (s t : State) : Prop := t.regs = s.regs ∧ t.shadow = s.shadow

/-! ## Harts and homes that can act -/

/-- Hart `h` is in service, nothing holds its next access, its stores are performed, and its addresses are physical: it
is in machine mode, not in a guest (R200, R210). -/
structure HartIdle (s : State) (h : Nat) : Prop where
  up : hartUp s h = true
  stores : (s.hart h).storeBuf = []
  load : (s.hart h).load = none
  ds : (s.hart h).ds = false
  wrs : (s.hart h).wrs = none
  fence : (s.hart h).fenceWait = false
  bare : (s.hart h).v = false ∧ (s.hart h).mode = 3

/-- `t` is `s` but for hart `h`. -/
def OnlyHart (s t : State) (h : Nat) : Prop :=
  t = { s with harts := t.harts } ∧ ∀ k, k ≠ h → t.hart k = s.hart k

/-- Line `ln` is homed on memory die 5 + md, and a request for it begins at once: no transaction is open on it, no
request for it waits, and the home has a transaction register free (R243). -/
structure HomeFree (s : State) (md ln : Nat) : Prop where
  mem : isMem (ln * 64) = true
  home : homeOfLine s ln = md
  noTxn : tget? (s.home md).txns ln = none
  room : (s.home md).txns.length < 1024
  noWait : ∀ q ∈ (s.home md).waiting, q.line ≠ ln

/-! ## Results of lane instructions -/

/-- After an instruction of one word, group `g` holds `h`, which differs from `g` in its registers and in where it
stands: the next word, after reconvergence (R51). Nothing else of the state changes. -/
def Advanced (s t : State) (sp sl : Nat) (g h : Group) : Prop :=
  OnlyGroup s t sp sl ∧ groupAt t sp sl = some h ∧
    h = { g.next with regs := h.regs, preds := h.preds, latch := h.latch }

/-- Register `vd` of the lanes in `on` holds `f`; v255 and every other register of every lane are as they were (R35). -/
def WritesReg (g h : Group) (vd : Nat) (on : List Nat) (f : Nat → W32) : Prop :=
  h.preds = g.preds ∧ h.latch = g.latch ∧
    ∀ l r, r < 256 → h.rd l r = if r = vd ∧ vd ≠ 255 ∧ l ∈ on then f l else g.rd l r

/-- Predicate `p` of the lanes in `on` holds `f`; p7 and every other predicate of every lane are as they were. -/
def WritesPred (g h : Group) (p : Nat) (on : List Nat) (f : Nat → Bool) : Prop :=
  h.regs = g.regs ∧ h.latch = g.latch ∧
    ∀ l q, q < 8 → h.pred l q = if q = p ∧ p ≠ 7 ∧ l ∈ on then f l else g.pred l q

end Sys2Proof.Machine
end

