-- ==== Sys2Proof/Certificates/Slice0/Obligations.lean ====
section
/-! DEFINITION. The statements for the provers, from the manual's numbered rules. Each is about one family of commands
or one rule of the whole machine. -/

open Sys2Proof Sys2Proof.Machine

/-! ## Lane instructions (chapters 02 and 04) -/

/-- R36, R86, R522: an integer instruction that issues writes, in its enabled lanes, the result that FUNC and TYPE (format
A) or FUNC[3:0] and FUNC[4] (format I) select, `int.sel` one of its sources by its predicate VC, and `int.setp` a
predicate; it goes on to the next word and changes nothing else. -/
def Obligations.IntegerInstructionsWriteTheirResult : Prop :=
  ∀ (s : State) (sp : Fin 128) (sl : Fin 32) (w : W64) (g : Group),
    (opOf w = 0x01 → (fmtA w).scope = 0 → (fmtA w).func < 12 → (fmtA w).typ < 2 → (fmtA w).md = 0 →
      Issues s sp sl [(fmtA w).va, (fmtA w).vb, (fmtA w).vd] g →
      ∃ t h, exec (.intReg sp sl w) s = .next t ∧ Advanced s t sp sl g h ∧
        WritesReg g h (fmtA w).vd (g.enabled (fmtA w).pred (fmtA w).pneg) fun l =>
          intOp (fmtA w).func ((fmtA w).typ == 1) (g.rd l (fmtA w).va) (g.rd l (fmtA w).vb)) ∧
    (opOf w = 0x01 → (fmtA w).scope = 0 → (fmtA w).func = 12 → (fmtA w).typ < 2 → (fmtA w).md = 0 →
      Issues s sp sl [(fmtA w).va, (fmtA w).vb, (fmtA w).vd] g →
      ∃ t h, exec (.intReg sp sl w) s = .next t ∧ Advanced s t sp sl g h ∧
        WritesReg g h (fmtA w).vd (g.enabled (fmtA w).pred (fmtA w).pneg) fun l =>
          if g.pred l ((fmtA w).vc % 8) then g.rd l (fmtA w).va else g.rd l (fmtA w).vb) ∧
    (opOf w = 0x01 → (fmtA w).scope = 0 → (fmtA w).func = 13 → (fmtA w).typ < 2 → (fmtA w).md < 6 →
      Issues s sp sl [(fmtA w).va, (fmtA w).vb] g →
      ∃ t h, exec (.intReg sp sl w) s = .next t ∧ Advanced s t sp sl g h ∧
        WritesPred g h ((fmtA w).vd % 8) (g.enabled (fmtA w).pred (fmtA w).pneg) fun l =>
          intCond ((fmtA w).typ == 1) (fmtA w).md (g.rd l (fmtA w).va) (g.rd l (fmtA w).vb)) ∧
    (opOf w = 0x02 → (fmtI w).zero = 0 → (fmtI w).func % 16 < 12 → Issues s sp sl [(fmtI w).va, (fmtI w).vd] g →
      ∃ t h, exec (.intImm sp sl w) s = .next t ∧ Advanced s t sp sl g h ∧
        WritesReg g h (fmtI w).vd g.lanes fun l =>
          intOp ((fmtI w).func % 16) (16 ≤ (fmtI w).func) (g.rd l (fmtI w).va) (fmtI w).imm)

/-- R522: the integer operations, in the order of their FUNC encodings. TYPE governs `int.mul.hi`, `int.min`, `int.max`
and the comparisons and has no effect on the others. A shift by 32 or more is the model's free value (log 8). -/
def Obligations.IntegerOperationsAreInOrder : Prop :=
  ∀ (a b : W32) (signed : Bool),
    intOp 0 signed a b = a + b ∧ intOp 1 signed a b = a - b ∧ intOp 2 signed a b = a * b ∧
    intOp 3 false a b = ((a.setWidth 64 * b.setWidth 64) >>> 32).setWidth 32 ∧
    intOp 3 true a b = ((a.signExtend 64 * b.signExtend 64) >>> 32).setWidth 32 ∧
    intOp 4 signed a b = a &&& b ∧ intOp 5 signed a b = a ||| b ∧ intOp 6 signed a b = a ^^^ b ∧
    (b < 32 → intOp 7 signed a b = a <<< b ∧ intOp 8 signed a b = a >>> b ∧ intOp 9 signed a b = BitVec.sshiftRight' a b) ∧
    (¬ b < 32 → intOp 7 signed a b = Config.shiftOver 7 a b ∧ intOp 8 signed a b = Config.shiftOver 8 a b ∧
      intOp 9 signed a b = Config.shiftOver 9 a b) ∧
    (intOp 10 false a b).toNat = min a.toNat b.toNat ∧ (intOp 10 true a b).toInt = min a.toInt b.toInt ∧
    (intOp 11 false a b).toNat = max a.toNat b.toNat ∧ (intOp 11 true a b).toInt = max a.toInt b.toInt ∧
    (intCond signed 0 a b = (a == b)) ∧ (intCond signed 1 a b = (a != b)) ∧
    intCond false 2 a b = decide (a.toNat < b.toNat) ∧ intCond true 2 a b = decide (a.toInt < b.toInt) ∧
    intCond false 3 a b = decide (a.toNat ≤ b.toNat) ∧ intCond true 3 a b = decide (a.toInt ≤ b.toInt) ∧
    intCond false 4 a b = decide (b.toNat < a.toNat) ∧ intCond true 4 a b = decide (b.toInt < a.toInt) ∧
    intCond false 5 a b = decide (b.toNat ≤ a.toNat) ∧ intCond true 5 a b = decide (b.toInt ≤ a.toInt)

/-- R147 to R153, R86: a floating-point, special-function or conversion instruction that issues writes, in its enabled
lanes, the result of its operation, `fp.setp` a predicate; it goes on to the next word and changes nothing else.
Format I of `fp.fma` computes VA × IMM + VD. -/
def Obligations.FloatingPointInstructionsWriteTheirResult : Prop :=
  ∀ (s : State) (sp : Fin 128) (sl : Fin 32) (w : W64) (g : Group),
    (opOf w = 0x08 → (fmtA w).scope = 0 → (fmtA w).func = 0 → (fmtA w).typ < 3 → (fmtA w).md = 0 →
      Issues s sp sl [(fmtA w).va, (fmtA w).vb, (fmtA w).vc, (fmtA w).vd] g →
      ∃ t h, exec (.fpReg sp sl w) s = .next t ∧ Advanced s t sp sl g h ∧
        WritesReg g h (fmtA w).vd (g.enabled (fmtA w).pred (fmtA w).pneg) fun l =>
          fpOp (fmtA w).typ 0 (g.rd l (fmtA w).va) (g.rd l (fmtA w).vb) (g.rd l (fmtA w).vc)) ∧
    (opOf w = 0x08 → (fmtA w).scope = 0 → 1 ≤ (fmtA w).func → (fmtA w).func < 5 → (fmtA w).typ < 3 → (fmtA w).md = 0 →
      Issues s sp sl [(fmtA w).va, (fmtA w).vb, (fmtA w).vd] g →
      ∃ t h, exec (.fpReg sp sl w) s = .next t ∧ Advanced s t sp sl g h ∧
        WritesReg g h (fmtA w).vd (g.enabled (fmtA w).pred (fmtA w).pneg) fun l =>
          fpOp (fmtA w).typ (fmtA w).func (g.rd l (fmtA w).va) (g.rd l (fmtA w).vb) (g.rd l (fmtA w).vc)) ∧
    (opOf w = 0x08 → (fmtA w).scope = 0 → (fmtA w).func = 5 → (fmtA w).typ = 0 → (fmtA w).md < 8 →
      Issues s sp sl [(fmtA w).va, (fmtA w).vb] g →
      ∃ t h, exec (.fpReg sp sl w) s = .next t ∧ Advanced s t sp sl g h ∧
        WritesPred g h ((fmtA w).vd % 8) (g.enabled (fmtA w).pred (fmtA w).pneg) fun l =>
          fpCond (fmtA w).md (g.rd l (fmtA w).va) (g.rd l (fmtA w).vb)) ∧
    (opOf w = 0x09 → (fmtI w).zero = 0 → (fmtI w).func < 5 → Issues s sp sl [(fmtI w).va, (fmtI w).vd] g →
      ∃ t h, exec (.fpImm sp sl w) s = .next t ∧ Advanced s t sp sl g h ∧
        WritesReg g h (fmtI w).vd g.lanes fun l =>
          fpOp 0 (fmtI w).func (g.rd l (fmtI w).va) (fmtI w).imm (g.rd l (fmtI w).vd)) ∧
    (opOf w = 0x0C → (fmtA w).scope = 0 → (fmtA w).func < 8 → (fmtA w).typ = 0 → (fmtA w).md = 0 →
      Issues s sp sl [(fmtA w).va, (fmtA w).vd] g →
      ∃ t h, exec (.specialFunction sp sl w) s = .next t ∧ Advanced s t sp sl g h ∧
        WritesReg g h (fmtA w).vd (g.enabled (fmtA w).pred (fmtA w).pneg) fun l => sfOp (fmtA w).func (g.rd l (fmtA w).va)) ∧
    (opOf w = 0x10 → (fmtA w).scope = 0 → (fmtA w).md % 8 < 4 → (fmtA w).md < 16 →
      (cvtOp (fmtA w).typ (fmtA w).func (fmtA w).md 0).isSome →
      Issues s sp sl [(fmtA w).va, (fmtA w).vd] g →
      ∃ t h, exec (.cvt sp sl w) s = .next t ∧ Advanced s t sp sl g h ∧
        WritesReg g h (fmtA w).vd (g.enabled (fmtA w).pred (fmtA w).pneg) fun l =>
          (cvtOp (fmtA w).typ (fmtA w).func (fmtA w).md (g.rd l (fmtA w).va)).getD 0)

/-- R89, R90, R519, R520: `mov.sp` writes the special value that VA names and, for Alpenglow time's low half, latches the
high half; `lane.shfl` gives each lane the VA register of the lane numbered by its VB modulo W, or 0 where that lane is
inactive; `lane.vote` writes the mask of active lanes whose predicate is true, or 1 where all agree; `nop` only goes on. -/
def Obligations.LaneExchangeInstructionsWriteTheirResult : Prop :=
  ∀ (s : State) (sp : Fin 128) (sl : Fin 32) (w : W64) (g : Group),
    (opOf w = 0x38 → (fmtA w).scope = 0 → (fmtA w).typ = 0 → (fmtA w).md = 0 → (fmtA w).func = 0 → (fmtA w).vb = 0 →
      (fmtA w).vc = 0 → (fmtA w).va ≤ 0x10 → Issues s sp sl [(fmtA w).vd] g → ∀ b, blockAt s sp g.blk = some b →
      ∃ t h, exec (.movSp sp sl w) s = .next t ∧ Advanced s t sp sl g h ∧ h.preds = g.preds ∧
        (∀ l r, r < 256 → h.rd l r =
          if r = (fmtA w).vd ∧ (fmtA w).vd ≠ 255 ∧ l ∈ g.enabled (fmtA w).pred (fmtA w).pneg
          then specialValue s sp g b (fmtA w).va l else g.rd l r) ∧
        (∀ l, tget? h.latch l = if (fmtA w).va = 0x0E ∧ l ∈ g.enabled (fmtA w).pred (fmtA w).pneg
          then some ((s.time >>> 32).setWidth 32) else tget? g.latch l)) ∧
    (opOf w = 0x39 → (fmtA w).scope = 0 → (fmtA w).typ = 0 → (fmtA w).md = 0 → (fmtA w).func = 0 → (fmtA w).vc = 0 →
      Issues s sp sl [(fmtA w).va, (fmtA w).vb, (fmtA w).vd] g →
      ∃ t h, exec (.laneShfl sp sl w) s = .next t ∧ Advanced s t sp sl g h ∧
        WritesReg g h (fmtA w).vd (g.enabled (fmtA w).pred (fmtA w).pneg) fun l =>
          if g.active.getLsbD ((g.rd l (fmtA w).vb).toNat % g.width) then g.rd ((g.rd l (fmtA w).vb).toNat % g.width) (fmtA w).va
          else 0) ∧
    (opOf w = 0x3A → (fmtA w).scope = 0 → (fmtA w).typ = 0 → (fmtA w).md = 0 → (fmtA w).func = 1 → (fmtA w).vb = 0 →
      (fmtA w).vc = 0 → (fmtA w).va ≤ 7 → Issues s sp sl [(fmtA w).vd] g →
      ∃ t h, exec (.laneVote sp sl w) s = .next t ∧ Advanced s t sp sl g h ∧
        WritesReg g h (fmtA w).vd (g.enabled (fmtA w).pred (fmtA w).pneg) fun _ =>
          if laneMask (g.lanes.filter fun l => g.pred l (fmtA w).va) = g.active ∨
            laneMask (g.lanes.filter fun l => g.pred l (fmtA w).va) = 0 then 1 else 0) ∧
    (opOf w = 0x3A → (fmtA w).scope = 0 → (fmtA w).typ = 0 → (fmtA w).md = 0 → (fmtA w).func = 0 → (fmtA w).vb = 0 →
      (fmtA w).vc = 0 → (fmtA w).va ≤ 7 → g.width ≠ 64 → Issues s sp sl [(fmtA w).vd] g →
      ∃ t h, exec (.laneVote sp sl w) s = .next t ∧ Advanced s t sp sl g h ∧
        WritesReg g h (fmtA w).vd (g.enabled (fmtA w).pred (fmtA w).pneg) fun _ =>
          (laneMask (g.lanes.filter fun l => g.pred l (fmtA w).va)).setWidth 32) ∧
    (opOf w = 0x33 → (fmtJ w).res0 = 0 → (fmtJ w).ofs = 0 → Issues s sp sl [] g →
      exec (.nop sp sl w) s = .next (setGroup s sp sl g.next))

/-- R50 to R53: where branches and `exit` leave a group. `br` moves the group as one; `br.c` pushes an entry only when
the active lanes disagree, and faults with cause 0x08 on a full stack; `exit` takes its lanes out of the active mask and
of every mask of the stack, and the group ends when no lane remains. Nothing but the group changes otherwise.

R51, R53: following the reconvergence stack. A group that still has lanes and stands at no join address stays where
it is; one that reaches the join address on top switches to the taken lanes at the stored target, and from there to the
stored mask less the lanes that have exited, the entry popped. -/
def Obligations.BranchesAndReconvergenceFollowTheStack : Prop :=
  (
  ∀ (s : State) (sp : Fin 128) (sl : Fin 32) (w w2 : W64) (g : Group), Issues s sp sl [] g →
    (opOf w = 0x30 → (fmtJ w).res0 = 0 → g.enabled (fmtJ w).pred (fmtJ w).pneg = g.lanes →
      exec (.br sp sl w) s = .next (setGroup s sp sl (g.goto (g.pc + 8 * (fmtJ w).ofs)))) ∧
    (opOf w = 0x30 → (fmtJ w).res0 = 0 → g.enabled (fmtJ w).pred (fmtJ w).pneg = [] → g.lanes ≠ [] →
      exec (.br sp sl w) s = .next (setGroup s sp sl g.next)) ∧
    (opOf w = 0x31 → (fmtJ w).res0 = 0 → laneMask (g.enabled (fmtJ w).pred (fmtJ w).pneg) = g.active →
      exec (.brC sp sl w w2) s = .next (setGroup s sp sl (g.goto (g.pc + 8 * w2)))) ∧
    (opOf w = 0x31 → (fmtJ w).res0 = 0 → laneMask (g.enabled (fmtJ w).pred (fmtJ w).pneg) = 0 → g.active ≠ 0 →
      exec (.brC sp sl w w2) s = .next (setGroup s sp sl (g.goto (g.pc + 16)))) ∧
    (opOf w = 0x31 → (fmtJ w).res0 = 0 → laneMask (g.enabled (fmtJ w).pred (fmtJ w).pneg) ≠ g.active →
      laneMask (g.enabled (fmtJ w).pred (fmtJ w).pneg) ≠ 0 → g.stack.length < 32 →
      exec (.brC sp sl w w2) s = .next (setGroup s sp sl (Group.goto
        { g with
          stack := { join := g.pc + 8 * (fmtJ w).ofs, full := g.active,
                     taken := laneMask (g.enabled (fmtJ w).pred (fmtJ w).pneg), target := g.pc + 8 * w2, onTaken := false } :: g.stack
          active := g.active &&& ~~~(laneMask (g.enabled (fmtJ w).pred (fmtJ w).pneg)) } (g.pc + 16)))) ∧
    (opOf w = 0x31 → (fmtJ w).res0 = 0 → laneMask (g.enabled (fmtJ w).pred (fmtJ w).pneg) ≠ g.active →
      laneMask (g.enabled (fmtJ w).pred (fmtJ w).pneg) ≠ 0 → 32 ≤ g.stack.length →
      exec (.brC sp sl w w2) s = .next (groupFault s sp sl 8 g.pc 0)) ∧
    (opOf w = 0x32 → (fmtJ w).res0 = 0 → (fmtJ w).ofs = 0 →
      let m := ~~~(laneMask (g.enabled (fmtJ w).pred (fmtJ w).pneg))
      let g' := Group.next { g with
        active := g.active &&& m
        stack := g.stack.map fun e => { e with full := e.full &&& m, taken := e.taken &&& m } }
      exec (.exit sp sl w) s = .next (if g'.active = 0 then groupEnd s sp sl g' else setGroup s sp sl g'))
  ) ∧
  (
  ∀ (e : JoinEntry) (st : List JoinEntry) (pc : W64) (act : BitVec 64),
    settle [] pc act = ([], pc, act) ∧
    (act ≠ 0 → pc ≠ e.join → settle (e :: st) pc act = (e :: st, pc, act)) ∧
    (act = 0 ∨ pc = e.join → e.onTaken = false → e.taken ≠ 0 → e.target ≠ e.join →
      settle (e :: st) pc act = ({ e with onTaken := true } :: st, e.target, e.taken)) ∧
    (act = 0 ∨ pc = e.join → e.onTaken = true ∨ e.taken = 0 ∨ e.target = e.join →
      settle (e :: st) pc act = settle st e.join e.full) ∧
    (e.full ≠ 0 → (∀ x ∈ st.head?, x.join ≠ e.join) → pc = e.join → e.onTaken = true →
      settle (e :: st) pc act = (st, e.join, e.full))
  )

/-- R64, R67, R13: `arrive.get` writes ISSUE of the named counter to every active lane; `arrive.wait` goes on when its
target, read from the lowest active lane, precedes or equals DONE as R13 compares, and otherwise holds the group.

R69, R70: a barrier instruction adds W to the named barrier's arrival count. When the count reaches the target the
count starts again at 0, and every group that waits at this barrier for at most that count goes on; `bar.sync` short of
its target holds its group, `bar.arrive` never does. Only the Spur changes.

R67, R83: when STALL_LIMIT is not 0, a group that has waited it out at an `arrive.wait` or a `bar.sync` takes a group
fault with cause 0x0A; with STALL_LIMIT 0 it waits on and no fault is raised. -/
def Obligations.CountersAndBarriersHoldAndRelease : Prop :=
  (
  ∀ (s : State) (sp : Fin 128) (sl : Fin 32) (w : W64) (g : Group) (b : Block) (i : Nat),
    badW w = false → Issues s sp sl [wf w 45 38] g → blockAt s sp g.blk = some b → ctrIndex b g.blk (wf w 51 46) = some i →
    (opOf w = 0x22 → ∃ t h, exec (.arriveGet sp sl w) s = .next t ∧ Advanced s t sp sl g h ∧
      WritesReg g h (wf w 45 38) g.lanes fun _ => (tget (s.spur sp).counters i {}).issue) ∧
    (opOf w = 0x23 → ((tget (s.spur sp).counters i {}).done - g.rd (g.lanes.headD 0) (wf w 45 38)).toNat < 2 ^ 31 →
      exec (.arriveWait sp sl w) s = .next (setGroup s sp sl g.next)) ∧
    (opOf w = 0x23 → 2 ^ 31 ≤ ((tget (s.spur sp).counters i {}).done - g.rd (g.lanes.headD 0) (wf w 45 38)).toNat →
      exec (.arriveWait sp sl w) s =
        .next (setGroup s sp sl { g with wait := some (.arrive i (g.rd (g.lanes.headD 0) (wf w 45 38))) }))
  ) ∧
  (
  ∀ (s : State) (sp : Fin 128) (sl : Fin 32) (w : W64) (g : Group) (b : Block),
    wf w 55 52 = 0 → wf w 39 0 = 0 → Issues s sp sl [wf w 47 40] g → blockAt s sp g.blk = some b →
    (g.rd (g.lanes.headD 0) (wf w 47 40)).toNat % g.width = 0 → settledAt (s.spur sp) g.gid 1 = true →
    let count := (g.rd (g.lanes.headD 0) (wf w 47 40)).toNat
    let target := if count = 0 then g.width * liveGroups (s.spur sp) g.blk else count
    let now := tget b.bars (wf w 51 48) 0 + g.width
    let waits := fun (x : Group) => x.blk = g.blk ∧ ∃ k n, x.wait = some (.bar k n) ∧ k.toNat = wf w 51 48 ∧ n ≤ now
    (opOf w = 0x28 → target ≤ now → ∃ t, exec (.barSync sp sl w) s = .next t ∧ OnlySpur s t sp ∧
      blockAt t sp g.blk = some { b with bars := tset b.bars (wf w 51 48) 0 } ∧ groupAt t sp sl = some g.next ∧
      ∀ k x, k ≠ sl.val → groupAt s sp k = some x →
        (waits x → groupAt t sp k = some x.resume) ∧ (¬ waits x → groupAt t sp k = some x)) ∧
    (opOf w = 0x28 → now < target → (∀ e ∈ (s.spur sp).groups, ¬ waits e.2) → ∃ t, exec (.barSync sp sl w) s = .next t ∧ OnlySpur s t sp ∧
      blockAt t sp g.blk = some { b with bars := tset b.bars (wf w 51 48) now } ∧
      groupAt t sp sl = some { g with wait := some (.bar (BitVec.ofNat 4 (wf w 51 48)) target) } ∧
      ∀ k, k ≠ sl.val → groupAt t sp k = groupAt s sp k) ∧
    (opOf w = 0x29 → ∃ t, exec (.barArrive sp sl w) s = .next t ∧ OnlySpur s t sp ∧ groupAt t sp sl = some g.next ∧
      (target ≤ now → blockAt t sp g.blk = some { b with bars := tset b.bars (wf w 51 48) 0 }) ∧
      (∀ k x, k ≠ sl.val → groupAt s sp k = some x →
        (waits x → groupAt t sp k = some x.resume) ∧ (¬ waits x → groupAt t sp k = some x)))
  ) ∧
  (
  ∀ (s : State) (sp : Fin 128) (sl : Fin 32) (g : Group) (b : Block), groupAt s sp sl = some g → blockAt s sp g.blk = some b →
    ((∃ i n, g.wait = some (.arrive i n)) ∨ (∃ i n, g.wait = some (.bar i n))) →
    (b.stall ≠ 0 → exec (.stallLimitExpiry sp sl) s = .next (groupFault s sp sl 10 g.pc 0)) ∧
    (b.stall = 0 → exec (.stallLimitExpiry sp sl) s = .next s)
  )

/-- R54, R56, R88: local loads and stores whose lanes are aligned and inside the block's allocation. `ld.l` writes the
bytes read, low register first, to the enabled lanes; `st.l` writes the low bytes of its registers, the lanes in
increasing order. An acquire at a scope wider than the group clears the L1 (R73). Nothing else changes.

R54, R56: a local access of an enabled lane that is not aligned to its size faults with cause 0x03, and one that
reaches beyond the end of the block's allocation with cause 0x04; its write is not performed.

R58, R60, R61: an atomic whose enabled lanes name one aligned address of local memory acts on it as those lanes would
one at a time in increasing lane order: memory is left as the last leaves it, and each lane receives what it would have
received. -/
def Obligations.LocalMemoryAccessesAreCheckedAndPerformed : Prop :=
  (
  ∀ (s : State) (sp : Fin 128) (sl : Fin 32) (w : W64) (g : Group) (b : Block),
    let m := fmtM w
    let n := sizeBytes m.size
    let on := g.enabled m.pred m.pneg
    let addr := fun l => (g.rd l m.va + m.offset.setWidth 32).toNat
    Issues s sp sl (m.va :: sizeRegs m.vd m.size) g → blockAt s sp g.blk = some b →
    acquireHeld (s.spur sp) g.gid = false → (∀ l ∈ on, addr l % n = 0 ∧ addr l + n ≤ b.localSize) →
    (opOf w = 0x1A → badM m [0, 1] false = false → ∃ h,
      exec (.ldL sp sl w) s = .next (setGroup (acquireL1 s sp b.ctx m.order m.scope) sp sl h) ∧
      h = { g.next with regs := h.regs } ∧
      ∀ l r, r < 256 → h.rd l r =
        if m.vd ≠ 255 ∧ m.vd ≤ r ∧ r < m.vd + ceilDiv n 4 ∧ r ≠ 255 ∧ l ∈ on
        then BitVec.ofNat 32 ((s.spur sp).lread (b.base + addr l) n / 2 ^ (32 * (r - m.vd))) else g.rd l r) ∧
    (opOf w = 0x1B → badM m [0, 2] false = false →
      (m.order = 2 → settledAt (s.spur sp) g.gid (min (scopeExec s b.ctx (BitVec.ofNat 3 m.scope)).toNat 1) = true) →
      let stored := fun (p : Spur) => on.foldl
        (fun mem l => memWrite mem (b.base + addr l) (leBytes n (g.rdSize l m.vd m.size).toNat)) p.lmem
      exec (.stL sp sl w) s = .next (setGroup (modSpur s sp fun p => { p with lmem := stored p }) sp sl g.next))
  ) ∧
  (
  ∀ (s : State) (sp : Fin 128) (sl : Fin 32) (w : W64) (g : Group) (b : Block) (a : Nat),
    let m := fmtM w
    let n := sizeBytes m.size
    let addrs := (g.enabled m.pred m.pneg).map fun l => (g.rd l m.va + m.offset.setWidth 32).toNat
    Issues s sp sl (m.va :: sizeRegs m.vd m.size) g → blockAt s sp g.blk = some b →
    acquireHeld (s.spur sp) g.gid = false → m.order = 0 →
    (addrs.find? (fun a => a % n != 0) = some a →
      (opOf w = 0x1A → badM m [0, 1] false = false →
        exec (.ldL sp sl w) s = .next (groupFault s sp sl 3 g.pc (BitVec.ofNat 64 a))) ∧
      (opOf w = 0x1B → badM m [0, 2] false = false →
        exec (.stL sp sl w) s = .next (groupFault s sp sl 3 g.pc (BitVec.ofNat 64 a)))) ∧
    ((∀ x ∈ addrs, x % n = 0) → addrs.find? (fun a => b.localSize < a + n) = some a →
      (opOf w = 0x1A → badM m [0, 1] false = false →
        exec (.ldL sp sl w) s = .next (groupFault s sp sl 4 g.pc (BitVec.ofNat 64 a))) ∧
      (opOf w = 0x1B → badM m [0, 2] false = false →
        exec (.stL sp sl w) s = .next (groupFault s sp sl 4 g.pc (BitVec.ofNat 64 a))))
  ) ∧
  (
  ∀ (s : State) (sp : Fin 128) (sl : Fin 32) (w : W64) (g : Group) (b : Block) (a : Nat),
    let t := fmtT w
    let n := sizeBytes (atSize t.aty)
    let on := g.enabled t.pred t.pneg
    let args := on.map (g.atArgs t)
    let res := atomicLanes t.aop t.aty (BitVec.ofNat 64 ((s.spur sp).lread (b.base + a) n)) args
    opOf w = 0x1D → badT t false = false → Issues s sp sl (regsT t 1) g → blockAt s sp g.blk = some b →
    acquireHeld (s.spur sp) g.gid = false →
    (2 ≤ t.order → settledAt (s.spur sp) g.gid (min (scopeExec s b.ctx (BitVec.ofNat 3 t.scope)).toNat 1) = true) →
    on ≠ [] → (∀ l ∈ on, (g.rd l t.va).toNat = a) → a % n = 0 → a + n ≤ b.localSize →
    exec (.atL sp sl w) s = .next (setGroup
      (acquireL1 (modSpur s sp fun p => p.lwrite (b.base + a) n res.2.toNat) sp b.ctx t.order t.scope) sp sl
      (Group.next ((on.zip res.1).foldl (fun h x =>
        if t.vd = 255 then h else if n = 8 then h.wr64 x.1 t.vd x.2 else h.wr x.1 t.vd (x.2.setWidth 32)) g)))
  )

/-- R36, R57, R88, R213, R262, R516: a global load, store or atomic and a cache maintenance instruction that name an
address enter the group's outstanding operations with an address for each enabled lane, and the group goes on; the
operation then tries its translations at once. `ld.g` is served past the L1 when it is an acquire, when CACHE is 1 and
when the die's BYPASS is set.

R72, R73: `fence.s` goes on at once when the group's earlier accesses have been performed as far as its kind and scope
ask, and an acquire at cluster scope or wider then clears the L1; otherwise it holds the group. -/
def Obligations.GlobalAccessesAndFences : Prop :=
  (
  ∀ (s : State) (sp : Fin 128) (sl : Fin 32) (w : W64) (g : Group) (b : Block), blockAt s sp g.blk = some b →
    let id := (s.spur sp).nextId
    let op := fun (kind : MemKind) (size order scope : Nat) (direct once : Bool) (lanes : List MemLane) => ({
      id := id, gid := g.gid, slot := sl, blk := g.blk, pc := g.pc, ctx := b.ctx, kind := kind, size := size
      order := BitVec.ofNat 3 order, scope := scopeExec s b.ctx (BitVec.ofNat 3 scope), direct := direct, once := once
      lanes := lanes } : MemOp)
    let entered := fun (kind : MemKind) (size order scope : Nat) (direct once : Bool) (lanes : List MemLane) =>
      opTry (setGroup (modSpur s sp fun p =>
        { p with nextId := id + 1, ops := p.ops ++ [op kind size order scope direct once lanes] }) sp sl g.next) sp id
    let free := memHeld s sp sl g = false
    (let m := fmtM w
     let on := g.enabled m.pred m.pneg
     let n := sizeBytes m.size
     let once := decide (m.cache = 1 ∨ fld s (16 + sp.val / 8) R.TNS_L1_CFG_BYPASS = 1)
     opOf w = 0x18 → badM m [0, 1] true = false → Issues s sp sl (run m.va 2 ++ sizeRegs m.vd m.size) g → free → on ≠ [] →
     (∀ l ∈ on, (g.rd64 l m.va + m.offset).toNat % n = 0) →
     exec (.ldG sp sl w) s = .next (entered (.load m.vd) n m.order m.scope (decide (m.order = 1) || once) once
       (on.map fun l => { lane := l, va := g.rd64 l m.va + m.offset }))) ∧
    (let m := fmtM w
     let on := g.enabled m.pred m.pneg
     let n := sizeBytes m.size
     opOf w = 0x19 → badM m [0, 2] true = false → Issues s sp sl (run m.va 2 ++ sizeRegs m.vd m.size) g → free → on ≠ [] →
     (∀ l ∈ on, (g.rd64 l m.va + m.offset).toNat % n = 0) →
     (m.order = 2 → settledAt (s.spur sp) g.gid (scopeExec s b.ctx (BitVec.ofNat 3 m.scope)).toNat = true) →
     exec (.stG sp sl w) s = .next (entered .store n m.order m.scope true false
       (on.map fun l => { lane := l, va := g.rd64 l m.va + m.offset, data := g.rdSize l m.vd m.size }))) ∧
    (let t := fmtT w
     let on := g.enabled t.pred t.pneg
     let n := sizeBytes (atSize t.aty)
     opOf w = 0x1C → badT t true = false → Issues s sp sl (regsT t 2) g → free → on ≠ [] →
     (∀ l ∈ on, (g.rd64 l t.va).toNat % n = 0) →
     (2 ≤ t.order → settledAt (s.spur sp) g.gid (scopeExec s b.ctx (BitVec.ofNat 3 t.scope)).toNat = true) →
     exec (.atG sp sl w) s = .next (entered (.atomic (BitVec.ofNat 4 t.aop) (BitVec.ofNat 3 t.aty) t.vd) n t.order t.scope
       true false (on.map fun l => { lane := l, va := g.rd64 l t.va, data := (g.atArgs t l).1.setWidth 128,
                                     cmp := (g.atArgs t l).2 }))) ∧
    (let a := fmtA w
     let on := g.enabled a.pred a.pneg
     let maint := fun (f : Nat) => entered (.maint (BitVec.ofNat 5 f)) 1 0 0 true false
       (on.map fun l => { lane := l, va := g.rd64 l a.va })
     opOf w = 0x3C → a.scope = 0 → a.vd = 0 → a.vb = 0 → a.vc = 0 → a.typ = 0 → a.md = 0 → a.va % 2 = 0 →
     Issues s sp sl (run a.va 2) g → free → on ≠ [] →
     (a.func = 0 → exec (.cmInvL1 sp sl w) s = .next (maint 0)) ∧
     (a.func = 2 → exec (.cmClean sp sl w) s = .next (maint 2)) ∧
     (a.func = 3 → exec (.cmFlush sp sl w) s = .next (maint 3)) ∧
     (a.func = 4 → exec (.cmZero sp sl w) s = .next (maint 4)) ∧
     (a.func = 5 → exec (.cmPfL2 sp sl w) s = .next (maint 5)))
  ) ∧
  (
  ∀ (s : State) (sp : Fin 128) (sl : Fin 32) (w : W64) (g : Group) (b : Block),
    let scope := wf w 55 53
    let kind := wf w 52 50
    let sc := scopeExec s b.ctx (BitVec.ofNat 3 scope)
    opOf w = 0x2A → scope < 6 → kind < 4 → wf w 49 0 = 0 → Issues s sp sl [] g → blockAt s sp g.blk = some b →
    (∀ e ∈ (s.spur sp).groups, ∀ k c, e.2.wait ≠ some (.fence k c)) →
    (fenceReady (s.spur sp) g.gid kind sc.toNat = true → ∃ t, exec (.fenceS sp sl w) s = .next t ∧ OnlySpur s t sp ∧
      groupAt t sp sl = some (Group.resume { g with wait := some (.fence (BitVec.ofNat 3 kind) sc) }) ∧
      (kind ≠ 1 → sc ≠ 0 → ∀ e ∈ (t.spur sp).l1, e.2.valid = 0)) ∧
    (fenceReady (s.spur sp) g.gid kind sc.toNat = false → ∃ t, exec (.fenceS sp sl w) s = .next t ∧ OnlySpur s t sp ∧
      groupAt t sp sl = some { g with wait := some (.fence (BitVec.ofNat 3 kind) sc) } ∧ (t.spur sp).l1 = (s.spur sp).l1)
  )

/-- R79, R261: `cm.inv.l1.all` clears every valid bit of the Spur's L1 and marks every miss in flight not-to-install; the
group goes on and nothing outside the Spur changes.

R76, R77, R79: a fill that returns to a line not marked installs the sector, and the load that waited for it writes
its destination and leaves the operation list. Only the Spur changes.

R57, R200, R213: a load of NU memory is served at its home, past every cache: it gives its group the bytes that the
line holds now, when no transaction is open on the line and the home's claim check passes. No byte of memory changes. -/
def Obligations.L1FillsInvalidationsAndDirectLoads : Prop :=
  (
  ∀ (s : State) (sp : Fin 128) (sl : Fin 32) (w : W64) (g : Group),
    let a := fmtA w
    opOf w = 0x3C → a.func = 1 → a.scope = 0 → a.vd = 0 → a.vb = 0 → a.vc = 0 → a.typ = 0 → a.md = 0 → Issues s sp sl [] g →
    ∃ t, exec (.cmInvL1All sp sl w) s = .next t ∧ OnlySpur s t sp ∧ groupAt t sp sl = some g.next ∧
      (∀ e ∈ (t.spur sp).l1, e.2.valid = 0) ∧ (∀ x ∈ (t.spur sp).l1miss, x.noLine = true) ∧
      (∀ pa ctx, (t.spur sp).l1Hit pa ctx = none) ∧ (t.spur sp).lmem = (s.spur sp).lmem
  ) ∧
  (
  ∀ (s : State) (sp : Fin 128) (blk k vd : Nat) (ctx : BitVec 16) (sec : Fin 4) (m : L1Miss) (e : L1Line) (x : AgentLine)
    (o : MemOp) (l : MemLane) (g : Group),
    (s.spur sp).l1miss = [m] → m.blk = blk → m.ctx = ctx → m.req = BitVec.ofNat 4 (2 ^ sec.val) → m.way = some k →
    m.noLine = false → m.noSec = 0 → m.waiters = [(o.id, sec.val)] →
    tget? (s.spur sp).l1 k = some e → e.blk = blk → e.ctx = ctx →
    agentLine s (regionOf sp) (blk * 4 + sec) = some x → x.poison = false →
    takeRefused s (regionOf sp) (blk * 4 + sec) = none →
    (s.spur sp).ops = [o] → o.kind = .load vd → o.order = 0 → o.lanes = [l] → l.st = .miss → l.pa / 64 = blk * 4 + sec →
    groupAt s sp o.slot = some g → g.gid = o.gid → g.stop = false → g.done = false →
    (∀ y ∈ (s.spur sp).groups, ∀ a c, y.2.wait ≠ some (.fence a c)) → (s.spur sp).teamBlock = none →
    ∃ t, exec (.l1FillReturn sp blk ctx sec) s = .next t ∧ OnlySpur s t sp ∧
      (t.spur sp).ops = [] ∧ (t.spur sp).l1miss = [] ∧
      tget? (t.spur sp).l1 k = some { e with valid := e.valid ||| BitVec.ofNat 4 (2 ^ sec.val), sec := tset e.sec sec x.data } ∧
      groupAt t sp o.slot = some (writeBack g
        { o with lanes := [{ l with st := .done, data := lineValue x.data (l.pa % 64) o.size }] } vd)
  ) ∧
  (
  ∀ (s : State) (sp : Fin 128) (vd : Nat) (o : MemOp) (l : MemLane) (g : Group),
    (s.spur sp).ops = [o] → o.kind = .load vd → o.order = 0 → o.lanes = [l] → l.st = .ready → l.typ = 1 → isMem l.pa = true →
    o.direct = true → lineBlocked (s.spur sp) o (l.pa / 64) = false → lineIdle s (l.pa / 64) = true →
    (targetCheck s sp o.ctx l.pa false).2 = true →
    (cohLine (targetCheck s sp o.ctx l.pa false).1 (l.pa / 64)).2 = false →
    groupAt s sp o.slot = some g → g.gid = o.gid → g.stop = false → g.done = false →
    (∀ y ∈ (s.spur sp).groups, ∀ a c, y.2.wait ≠ some (.fence a c)) → (s.spur sp).teamBlock = none →
    ∃ t, exec (.directAccessResponse sp o.id) s = .next t ∧ SameMemory s t ∧ SameRegs s t ∧ (t.spur sp).ops = [] ∧
      groupAt t sp o.slot = some (writeBack g { o with lanes := [{ l with
        st := .done, data := lineValue (cohLine (targetCheck s sp o.ctx l.pa false).1 (l.pa / 64)).1 (l.pa % 64) o.size }] } vd)
  )

/-- R63, R65, R66, R521: a haul whose enabled lanes, or whose lowest lane's descriptor, name bytes to move takes the next
number of its counter and enters the copy unit with its pieces, and the group goes on; one that names none takes a number
that is finished at once. Only the Spur changes.

R521: the rows of a bulk descriptor. ROWS and LEN are stored less 1, LEN in units of 16 bytes; row r lies STRIDE × r
beyond the global address and LEN × r beyond the local one. A descriptor of more than 64 KiB a row, or 1 MiB in all, is
refused.

R63: copies on one counter can finish in any order, but DONE advances in issue order: past the numbers that have
finished, and no further.

R63, R68, R517: a copy from global to local memory that lies in one line which its home can serve, and which is not
poisoned, puts the line's bytes into the block's local memory, leaves the copy unit and finishes its number, and its block
may end. -/
def Obligations.HaulsAreIssuedMovedAndCounted : Prop :=
  (
  ∀ (s : State) (sp : Fin 128) (sl : Fin 32) (w : W64) (g : Group) (b : Block) (i : Nat),
    let c := fmtC w
    let p := s.spur sp
    let issued := fun (t : State) (parts : List CopyPart) =>
      OnlySpur s t sp ∧ groupAt t sp sl = some g.next ∧ (t.spur sp).lmem = p.lmem ∧
      (tget (t.spur sp).counters i {}).issue = (tget p.counters i {}).issue + 1 ∧
      (tget (t.spur sp).counters i {}).done = (tget p.counters i {}).done ∧
      (t.spur sp).copies = p.copies ++ [{
        id := p.nextId, slot := sl, blk := g.blk, gidx := g.idx, pc := g.pc, ctx := b.ctx, ctr := i
        num := (tget p.counters i {}).issue + 1, toGlobal := c.toGlobal
        scope := scopeExec s b.ctx (BitVec.ofNat 3 c.scope), parts := parts }]
    blockAt s sp g.blk = some b → ctrIndex b g.blk c.ctr = some i → acquireHeld p g.gid = false → copyPlaces s sp < 256 →
    c.scope < 6 → c.res0 = 0 → c.vg % 2 = 0 →
    (let n := 4 * 2 ^ c.size
     let parts := (g.enabled c.pred c.pneg).map fun l => ({ va := g.rd64 l c.vg, la := (g.rd l c.vl).toNat, len := n } : CopyPart)
     opOf w = 0x20 → c.size < 3 → Issues s sp sl (run c.vg 2 ++ [c.vl]) g → parts ≠ [] →
     (∀ q ∈ parts, q.va.toNat % n = 0 ∧ q.la % n = 0 ∧ q.la + n ≤ b.localSize) →
     ∃ t, exec (.haulLane sp sl w) s = .next t ∧ issued t parts) ∧
    (opOf w = 0x21 → c.size = 0 → c.vl = 0 → Issues s sp sl (run c.vg 5) g → ∀ l rest parts, g.lanes = l :: rest →
     xor (g.pred l c.pred) c.pneg = true → bulkParts g l c.vg = some parts → (∀ q ∈ parts, q.la + q.len ≤ b.localSize) →
     ∃ t, exec (.haulBulk sp sl w) s = .next t ∧ issued t parts) ∧
    (opOf w = 0x20 → c.size < 3 → Issues s sp sl (run c.vg 2 ++ [c.vl]) g → g.enabled c.pred c.pneg = [] →
     ∃ t, exec (.haulLane sp sl w) s = .next t ∧ OnlySpur s t sp ∧ (t.spur sp).copies = p.copies ∧
       (tget (t.spur sp).counters i {}).issue = (tget p.counters i {}).issue + 1)
  ) ∧
  (
  ∀ (g : Group) (l vg : Nat) (parts : List CopyPart), bulkParts g l vg = some parts →
    let rows := bits (g.rd l (vg + 3)).toNat 11 0 + 1
    let len := (bits (g.rd l (vg + 3)).toNat 27 12 + 1) * 16
    parts.length = rows ∧ len ≤ 65536 ∧ rows * len ≤ 2 ^ 20 ∧
    ∀ r, r < rows → ∃ q, parts[r]? = some q ∧ q.len = len ∧
      q.va = g.rd64 l vg + BitVec.ofNat 64 (r * (g.rd l (vg + 4)).toNat) ∧
      q.la = bits (g.rd l (vg + 2)).toNat 23 0 + r * len
  ) ∧
  (
  ∀ (c : Counter) (n : W32), c.fin.length + 1 < 2 ^ 32 →
    (c.finish n).issue = c.issue ∧ (c.finish n).done + 1 ∉ (c.finish n).fin ∧
    (∀ m : W32, (m - c.done - 1).toNat < ((c.finish n).done - c.done).toNat → m ∈ n :: c.fin) ∧
    (n ≠ c.done + 1 → c.done + 1 ∉ c.fin → (c.finish n).done = c.done)
  ) ∧
  (
  ∀ (s : State) (sp : Fin 128) (j : CopyJob) (p : CopyPart) (b : Block) (pa : Nat),
    (s.spur sp).copies.find? (fun c => c.id == j.id && c.row.isNone) = some j → blockAt s sp j.blk = some b →
    j.toGlobal = false → j.parts = [p] → p.st ≠ .done → p.va.toNat % 64 + p.len ≤ 64 →
    xlate s j.ctx p.va false = .inl pa → outside pa = false → isMem pa = true → lineIdle s (pa / 64) = true →
    (targetCheck s sp j.ctx pa false).2 = true → (cohRead (targetCheck s sp j.ctx pa false).1 pa p.len).2 = false →
    let c := (targetCheck s sp j.ctx pa false).1
    let bytes := (cohRead c pa p.len).1
    let landed := modSpur (touch c (pa / 64)) sp fun q => { q with lmem := memWrite q.lmem (b.base + p.la) bytes }
    let freed := modSpur landed sp fun q => { q with copies := q.copies.filter fun c => c.id != j.id }
    exec (.copyUnitComplete sp j.id) s = .next (blockEnd (finishCount freed sp j.ctr j.num) sp j.blk)
  )

/-! ## Launches and the matrix unit (chapters 02 and 03) -/

/-- R42, R46, R271, R386: LAUNCH of an accepted descriptor puts the kernel at the end of the pending order of every
selected die; one that is TIMED and early is only kept; a context that is not loaded ends it with status 0x04 and a
descriptor that breaks a limit with 0x0F.

R386: when a die's copy of Alpenglow time has reached START_AT of a timed launch that the die has not taken yet, the
kernel enters the die's pending order.

R38, R39, R45, R46, R48: BLOCK_START places the next block of the oldest pending kernel that has a Spur for it, on the
Spur chosen by R45: the block stands in the lowest free block slot with its number, its groups start at the kernel's
entry with every register 0, and the other Spurs are as they were. -/
def Obligations.LaunchesReachTheirDiesAndBlocksStart : Prop :=
  (
  ∀ (s : State) (cid : Nat) (c : Cmd), runnable s cid 0x02 = some c → c.running = false →
    let k := launchKernel s cid c
    (s.ctx? c.ctx = none → exec (.launch cid) s = .next (finishCmd s cid 0x04)) ∧
    ((s.ctx? c.ctx).isSome → launchOk c k = false → exec (.launch cid) s = .next (finishCmd s cid 0x0F)) ∧
    ((s.ctx? c.ctx).isSome → launchOk c k = true → k.timed = true → s.time.toNat < k.startAt.toNat →
      exec (.launch cid) s = .next { setCmd s cid { c with running := true } with
        kernels := tset s.kernels cid { k with left := k.dies } }) ∧
    ((s.ctx? c.ctx).isSome → launchOk c k = true → (k.timed = true → k.startAt.toNat ≤ s.time.toNat) →
      (∀ td ∈ k.dies, noSpur s k td = false) →
      ∃ t, exec (.launch cid) s = .next t ∧ SameMemory s t ∧ SameRegs s t ∧ t.cmd? cid = some { c with running := true } ∧
        (∀ td, (t.tdie td).pend = if td ∈ k.dies ∧ cid ∉ (s.tdie td).pend then (s.tdie td).pend ++ [cid] else (s.tdie td).pend) ∧
        ∃ k', tget? t.kernels cid = some k' ∧ k'.entry = k.entry ∧ k'.dies = k.dies ∧ k'.next = [])
  ) ∧
  (
  ∀ (s : State) (td : Fin 16) (cid : Nat) (time : W64) (k : Kernel), tget? s.kernels cid = some k →
    k.timed = true → k.startAt.toNat ≤ (setTime s time).time.toNat → td.val ∈ k.dies → k.stopped = false → td.val ∈ k.left →
    cid ∉ (s.tdie td).pend → noSpur s k td = false →
    tget k.next td 0 < shareCount k (k.dies.findIdx (· == td.val)) k.dies.length →
    ∃ t, exec (.timedLaunchStart td cid time) s = .next t ∧ t.time = (setTime s time).time ∧
      (t.tdie td).pend = (s.tdie td).pend ++ [cid] ∧ (∀ d, d ≠ td.val → t.tdie d = s.tdie d) ∧
      SameMemory s t ∧ SameRegs s t ∧ t.spurs = s.spurs
  ) ∧
  (
  ∀ (s : State) (td : Fin 16) (k : Kernel) (ks : List Kernel) (sp slot g0 : Nat),
    pendingOn s td = k :: ks → pickSpur s k td = some sp → freeBlock (s.spur sp) = some slot →
    freeGrans (s.spur sp) k.grans = some g0 →
    ∃ t, exec (.blockStart td) s = .next t ∧ SameMemory s t ∧ SameRegs s t ∧
      blockAt t sp slot = some (nextBlock k td g0) ∧ (∀ q, q ≠ sp → t.spur q = s.spur q) ∧
      (t.tdie td).miss8 = 0 ∧
      (∃ k', tget? t.kernels k.cid = some k' ∧ tget k'.next td 0 = tget k.next td 0 + 1) ∧
      (∀ sl g, groupAt t sp sl = some g → groupAt s sp sl = none →
        g.blk = slot ∧ g.regs = [] ∧ g.preds = [] ∧ g.pc = k.entry ∧ g.width = k.width) ∧
      (∀ sl g, groupAt s sp sl = some g → groupAt t sp sl = some g)
  )

/-- R107, R108, R110, R113, R123: `mx.open` makes its group wait for the seat, behind the requests before it; SEAT_GRANT
gives a free seat to the next request with the group's mask as region mask, empty buffers and zero slices; `mx.wait` and
`mx.close` go on at once when nothing is queued, and the close frees the seat; otherwise they hold the group.

R114 to R119: a legal matrix instruction of the group that holds the seat, whose operands lie in the block's local
memory and whose arrays are in service, joins the end of the matrix queue with its operands as read at issue, and the
group goes on. A drain that counts also takes the next number of its counter. Only the Spur changes. -/
def Obligations.MatrixSeatAndQueue : Prop :=
  (
  ∀ (s : State) (sp : Fin 128) (sl : Fin 32) (w : W64) (g : Group),
    let p := s.spur sp
    (opOf w = 0x40 → wf w 55 0 = 0 → hasSeat s sp sl = false → Issues s sp sl [] g → g.active = g.live →
      ∃ t, exec (.mxOpen sp sl w) s = .next t ∧ OnlySpur s t sp ∧ groupAt t sp sl = some { g with wait := some .mxOpen } ∧
        (t.spur sp).mx = { p.mx with waiters := p.mx.waiters ++ [sl.val] }) ∧
    (p.mx.seat = none → nextSeat p = some sl.val → groupAt s sp sl = some g →
      ∃ t, exec (.seatGrant sp) s = .next t ∧ OnlySpur s t sp ∧ groupAt t sp sl = some g.resume ∧
        (t.spur sp).mx.seat = some sl.val ∧ (t.spur sp).mx.mask = g.active ∧ (t.spur sp).mx.queue = [] ∧
        sl.val ∉ (t.spur sp).mx.waiters ∧ (∀ j, tget (t.spur sp).mx.bufs j none = none) ∧
        (∀ row col, (t.spur sp).mx.cell row col = 0)) ∧
    (opOf w = 0x41 → wf w 55 0 = 0 → hasSeat s sp sl = true → Issues s sp sl [] g → g.active = p.mx.mask → p.mx.queue = [] →
      ∃ t, exec (.mxClose sp sl w) s = .next t ∧ OnlySpur s t sp ∧ (t.spur sp).mx.seat = none ∧
        groupAt t sp sl = some (Group.resume { g with wait := some .mxClose })) ∧
    (opOf w = 0x41 → wf w 55 0 = 0 → hasSeat s sp sl = true → Issues s sp sl [] g → g.active = p.mx.mask → p.mx.queue ≠ [] →
      ∃ t, exec (.mxClose sp sl w) s = .next t ∧ OnlySpur s t sp ∧ (t.spur sp).mx = { p.mx with closing := true } ∧
        groupAt t sp sl = some { g with wait := some .mxClose }) ∧
    (opOf w = 0x46 → wf w 55 0 = 0 → hasSeat s sp sl = true → Issues s sp sl [] g → g.active = p.mx.mask →
      ∃ t, exec (.mxWait sp sl w) s = .next t ∧ OnlySpur s t sp ∧ (t.spur sp).mx = p.mx ∧
        groupAt t sp sl = some (if p.mx.queue = [] then Group.resume { g with wait := some .mxWait }
          else { g with wait := some .mxWait }))
  ) ∧
  (
  ∀ (s : State) (sp : Fin 128) (sl : Fin 32) (w : W64) (g : Group) (b : Block),
    let p := s.spur sp
    let am := amaskOf w
    let queued := fun (t : State) (op : MxOp) => OnlySpur s t sp ∧ groupAt t sp sl = some g.next ∧
      (t.spur sp).lmem = p.lmem ∧ (t.spur sp).mx.acc = p.mx.acc ∧ (t.spur sp).mx.bufs = p.mx.bufs ∧
      (t.spur sp).mx.queue = p.mx.queue ++ [{ id := p.nextId, slot := sl, blk := g.blk, base := b.base, op := op, old := p.lmem }]
    let fits := fun (op : MxOp) => ∀ r ∈ op.ranges, r.2.1 ≤ b.localSize
    blockAt s sp g.blk = some b → wf w 55 53 = 0 → am ≠ 0 → hasSeat s sp sl = true → g.active = p.mx.mask →
    (∀ j ∈ arraysOf am, arrayUp s sp j = true) → p.mx.queue.length < 32 →
    (let fmt := wf w 48 45
     let va := wf w 44 37
     let op := MxOp.ldw am (BitVec.ofNat 4 fmt) (mxReg g va 0) (mxReg g va 1) (mxReg g va 2) (mxReg g va 3)
     opOf w = 0x42 → wf w 36 0 = 0 → fmt ≤ 0xA → Issues s sp sl (mxRegs va 4) g → mxReg g va 0 % 16 = 0 →
     badStride 128 (mxReg g va 1) (rowBytes fmt 128) = false →
     badStride (arraysOf am).length (mxReg g va 2) (rowBytes fmt 128) = false →
     (mxScaled fmt = true → mxReg g va 3 % 4 = 0) → fits op →
     ∃ t, exec (.mxLdw sp sl w) s = .next t ∧ queued t op ∧
       ∀ j ∈ arraysOf am, tget (t.spur sp).mx.issueBufs (4 + j) none = some (BitVec.ofNat 4 fmt)) ∧
    (let rows := wf w 48 40 + 1
     let acc := wf w 39 31
     let fmt := wf w 30 27
     let va := wf w 26 19
     let op := MxOp.ldacc am rows acc (BitVec.ofNat 4 fmt) (mxReg g va 0) (mxReg g va 1)
     opOf w = 0x43 → wf w 18 0 = 0 → fmt = 0xB ∨ fmt = 0xC → acc + rows ≤ 512 → Issues s sp sl (mxRegs va 2) g →
     mxReg g va 0 % 16 = 0 → badStride rows (mxReg g va 1) (512 * (arraysOf am).length) = false → fits op →
     ∃ t, exec (.mxLdacc sp sl w) s = .next t ∧ queued t op) ∧
    (let sw := w.getLsbD 48
     let za := w.getLsbD 47
     let afmt := wf w 46 43
     let m := wf w 42 34 + 1
     let acc := wf w 33 25
     let va := wf w 24 17
     let fmts := (passTiles p.mx am sw).filterMap fun t => t.map (·.toNat)
     let k := mxK (fmts.headD 0)
     let kind : BitVec 2 := if afmt = 8 then 2 else 1
     let op := MxOp.mma am sw za (BitVec.ofNat 4 afmt) k m acc (mxReg g va 0) (mxReg g va 1) (mxReg g va 2)
     opOf w = 0x44 → wf w 16 0 = 0 → afmt ≤ 0xA → acc + m ≤ 512 → (∀ t ∈ passTiles p.mx am sw, t.isSome) →
     (∀ f ∈ fmts, pairLegal afmt f = true ∧ mxK f = k) →
     (za = true ∨ kindsAll p.mx am acc m (fun x => x == 0 || x == kind) = true) → Issues s sp sl (mxRegs va 3) g →
     mxReg g va 0 % 16 = 0 → badStride m (mxReg g va 1) (rowBytes afmt k) = false →
     (mxScaled afmt = true → mxReg g va 2 % 4 = 0) → fits op →
     ∃ t, exec (.mxMma sp sl w) s = .next t ∧ queued t op) ∧
    (let rows := wf w 48 40 + 1
     let acc := wf w 39 31
     let fmt := wf w 30 27
     let act := wf w 26 24
     let va := wf w 12 5
     let n := (arraysOf am).length
     let ctr := ctrIndex b g.blk (wf w 19 14)
     let num := if w.getLsbD 13 then ctr.map (fun c => (c, (tget p.counters c {}).issue + 1)) else none
     let op := MxOp.drain am rows acc (BitVec.ofNat 4 fmt) (BitVec.ofNat 3 act) (w.getLsbD 23) (w.getLsbD 22) (w.getLsbD 21)
       (w.getLsbD 20) num (mxReg g va 0) (mxReg g va 1) (mxReg g va 2) (mxReg g va 3) (mxReg g va 4)
     opOf w = 0x45 → wf w 4 0 = 0 → fmt ≤ 0xC → act ≤ 5 → acc + rows ≤ 512 → (w.getLsbD 21 = true → mxScaled fmt = true) →
     (w.getLsbD 13 = true → ctr.isSome ∧ copyPlaces s sp < 256) →
     (fmt = 0xC → w.getLsbD 22 = false ∧ w.getLsbD 23 = false ∧ act = 0 ∧ kindsAll p.mx am acc rows (· != 1) = true) →
     Issues s sp sl (mxRegs va 5) g → mxReg g va 0 % 16 = 0 →
     badStride rows (mxReg g va 1) (rowBytes fmt (128 * n)) = false → (w.getLsbD 23 = true → mxReg g va 2 % 16 = 0) →
     (w.getLsbD 22 = true → mxReg g va 3 % 16 = 0) → (mxScaled fmt = true → mxReg g va 4 % 4 = 0) → fits op →
     ∃ t, exec (.mxDrain sp sl w) s = .next t ∧ queued t op ∧
       ∀ c v, num = some (c, v) → (tget (t.spur sp).counters c {}).issue = v)
  )

/-- R92, R98, R99, R139, R141: what a pass leaves in the accumulators. Cell (ACC + i, 128 j + n) of every selected array j
with a tile takes the product of row i and column n: alone where the slice was zero or ZA is set, added to the old value
otherwise, modulo 2^32 for integers and rounded for FP32. Every other cell keeps its value.

R118, R120, R122, R123: MX_INSTR_COMPLETE acts for an instruction that no earlier one of the queue holds back: it has its
effect on the accumulators, buffers or local memory, leaves the queue, finishes the number of a counting drain, and lets
the seat and the groups that wait for the queue go on; its block may end. It reads local memory as it stands where nothing
has written its operands since its issue, and else of each such byte the old value or the new one, which a free value
chooses (log 16). -/
def Obligations.MatrixInstructionsHaveTheirEffect : Prop :=
  (
  ∀ (p : Spur) (base : Nat) (am : BitVec 4) (za : Bool) (afmt k m acc abase astride ascale i j n : Nat) (t : Tile),
    i < m → j ∈ arraysOf am → n < 128 → tget p.mx.bufs j none = some t →
    let q := mmaRun p base am false za afmt k m acc abase astride ascale
    let x := passCell afmt t.fmt.toNat k (rowElems afmt k (memRead p.lmem (base + abase + i * astride) (rowBytes afmt k)))
      (memRead p.lmem (base + ascale + i * (k / 32)) (k / 32))
      (t.rows.map fun r => (rowElems t.fmt.toNat 128 r).getD n 0) t.scales n
    let old := p.mx.cell (acc + i) (128 * j + n)
    (q.mx.cell (acc + i) (128 * j + n) =
      if za = true ∨ tget p.mx.kinds ((acc + i) * 4 + j) 0 = 0 then x else if afmt = 8 then old + x else f32Add old x) ∧
    (∀ row col, col < 512 → (row < acc ∨ acc + m ≤ row ∨ col / 128 ∉ arraysOf am) →
      q.mx.cell row col = p.mx.cell row col) ∧
    q.lmem = p.lmem ∧ q.mx.bufs = p.mx.bufs
  ) ∧
  (
  ∀ (s : State) (sp : Fin 128) (i : MxInstr),
    (mxRunning [] (s.spur sp).mx.queue).find? (fun x => x.id == i.id) = some i → mxClash (s.spur sp) i = false →
    let done := modSpur s sp fun p =>
      let q := mxEffect p p.lmem (srState s sp) i
      let rest := (q.mx.queue.filter fun x => x.id != i.id).map (mxPatch i q.lmem)
      mxWake { q with mx := mxSettle (mxEngage { q.mx with queue := rest }) }
    (∀ am rows acc f act bias sc sr clr c n d ds bv sv os,
      i.op = .drain am rows acc f act bias sc sr clr (some (c, n)) d ds bv sv os →
      exec (.mxInstrComplete sp i.id) s = .next (blockEnd (finishCount done sp c n) sp i.blk)) ∧
    ((∀ am rows acc f act bias sc sr clr c n d ds bv sv os,
      i.op ≠ .drain am rows acc f act bias sc sr clr (some (c, n)) d ds bv sv os) →
      exec (.mxInstrComplete sp i.id) s = .next (blockEnd done sp i.blk))
  ) ∧
  (
  ∀ (p : Spur) (d a : Nat) (i : MxInstr), memWf p.lmem = true →
    (mxTouches i false a = false → memByte (mxSeen d p i) a = memByte p.lmem a) ∧
    (memByte (mxSeen d p i) a = memByte p.lmem a ∨ memByte (mxSeen d p i) a = memByte i.old a)
  )

/-- R125 to R127, R450, R451: the current ramp of an array. While its power controller allows it, a busy array climbs one
step at each RAMP_UP_STEP_END, after the eighth to full; an array with no pass to run turns down when the hold ends, from
full to the first release step and from ramp-up step i to release step 9 - i; it is off after the eighth. -/
def Obligations.RampsClimbHoldAndRelease : Prop :=
  ∀ (s : State) (sp : Fin 128) (j : Fin 4) (i : Nat),
    let ph := tget (s.spur sp).mx.ramps j .off
    (ph = .up i → arrayBusy (s.spur sp).mx j = true → rampAllowed s (16 + sp.val / 8) = true →
      ∃ t, exec (.rampUpStepEnd sp j) s = .next t ∧ OnlySpur s t sp ∧
        tget (t.spur sp).mx.ramps j .off = if i < 8 then .up (i + 1) else .full) ∧
    (ph = .up i → rampAllowed s (16 + sp.val / 8) = false → exec (.rampUpStepEnd sp j) s = .next s) ∧
    (ph = .full → arrayBusy (s.spur sp).mx j = false → ∃ t, exec (.rampHoldExpiry sp j) s = .next t ∧ OnlySpur s t sp ∧
      tget (t.spur sp).mx.ramps j .off = .down 1) ∧
    (ph = .up i → arrayBusy (s.spur sp).mx j = false → ∃ t, exec (.rampHoldExpiry sp j) s = .next t ∧ OnlySpur s t sp ∧
      tget (t.spur sp).mx.ramps j .off = .down (9 - i)) ∧
    (ph = .down i → ∃ t, exec (.releaseStepEnd sp j) s = .next t ∧ OnlySpur s t sp ∧
      tget (t.spur sp).mx.ramps j .off = if i < 8 then .down (i + 1) else .off)

/-! ## Roped teams and Couloir engines (chapters 05 and 06) -/

/-- R159 to R164: TEAM_STEP of a queue bound to no residency ends with 0x0F, of a suspended residency with 0x0B; any other
well-formed step becomes the last candidate, with the deadline of its queue's class. A residency whose eligible candidates
reach FILL closes a team of the first FILL of them in selection order; TEAM_DEADLINE_CHECK before any deadline only moves
time.

R164, R165: TEAM_DISPATCH sends the oldest closed team of its residency, while fewer than INFLIGHT are out, to all 16
tensor dies under the next sequence number; it is late when its earliest deadline has passed, unless it closed by deadline
at this instant. -/
def Obligations.TeamsAreFormedAndDispatched : Prop :=
  (
  ∀ (s : State) (cid : Nat) (c : Cmd), s.cmd? cid = some c → c.st = .accepted → c.kind = 0x05 → c.running = false →
    fenceMet s cid c = true →
    (boundTo s c.queue = none → exec (.teamStep cid) s = .next (finishCmd s cid 0x0F)) ∧
    ∀ (res : Nat) (r : Residency), tget? s.former.residencies res = some r →
      (boundTo s c.queue = some res → stepOk c = false → exec (.teamStep cid) s = .next (finishCmd s cid 0x0F)) ∧
      (boundTo s c.queue = some res → stepOk c = true → r.suspended = true →
        exec (.teamStep cid) s = .next (finishCmd s cid 0x0B)) ∧
      (boundTo s c.queue = some res → stepOk c = true → r.suspended = false → ∃ u cls,
        exec (.teamStep cid) s = .next (tryClose u res) ∧ u.former.residencies = s.former.residencies ∧
        ((c.queue, cls) ∈ r.queues ∨ ∀ x ∈ r.queues, x.1 ≠ c.queue) ∧
        u.former.cands = s.former.cands ++ [⟨cid, res, c.queue, cls,
          c.acceptedAt + BitVec.ofNat 64 (1000 * fldAt s 0 R.HUB_TEAM_CLASS_DEADLINE_US cls.toNat)⟩] ∧
        SameMemory s u ∧ SameRegs s u) ∧
      ∀ (b : BitVec 8) (t : W64), b.toNat = res →
        let now := setTime s t
        let el := eligible r (s.former.cands.filter fun x => x.res == res)
        let take := (selection r el).take r.fill
        (r.fill ≤ el.length → ∃ u, exec (.teamDeadlineCheck b t) s = .next u ∧ u.time = now.time ∧
          tget? u.former.teams s.former.nextTeam = some {
            res := res, rows := take.filterMap (rowOf s), byDeadline := false
            closeTime := now.time, deadline := (earliest take).getD 0 } ∧
          (∀ x, x ∈ u.former.cands ↔ x ∈ s.former.cands ∧ ∀ y ∈ take, y.cid ≠ x.cid) ∧
          tget? u.former.residencies res = some { r with favoured := [], closed := r.closed ++ [s.former.nextTeam] }) ∧
        (el.length < r.fill → (∀ x ∈ s.former.cands, now.time < x.deadline) →
          exec (.teamDeadlineCheck b t) s = .next now)
  ) ∧
  (
  ∀ (s : State) (tm : Nat) (time : W64) (x : Team) (r : Residency) (rest : List Nat),
    let now := (setTime s time).time
    let late := x.deadline < now && !(x.byDeadline && now == x.closeTime)
    tget? s.former.teams tm = some x → tget? s.former.residencies x.res = some r → x.seq = none → r.closed = tm :: rest →
    inFlight s x.res < r.inflight →
    ∃ t, exec (.teamDispatch tm time) s = .next t ∧ t.time = now ∧ t.former.nextSeq = s.former.nextSeq + 1 ∧
      tget? t.former.teams tm = some { x with
        seq := some s.former.nextSeq, late := late, fault := if setRetired s r then x.fault.or (some 0x0B) else x.fault } ∧
      tget? t.former.residencies x.res = some { r with
        closed := rest, favoured := if late then r.favoured ++ x.rows.map (·.queue) else r.favoured } ∧
      t.net = s.net ++ (List.range 16).map (fun td => Msg.dispatch td s.former.nextSeq tm) ∧ t.spurs = s.spurs
  )

/-- R165 to R169: a tensor die takes dispatch messages in order of their sequence numbers; TEAM_BLOCK_START places the
team block and adds the reads that stage its rows; once every row is staged TEAM_STAGING_DONE writes the header, row table
and zero rows and the die may start entry 0; an ENTRY_DONE_NOTICE is remembered and may let the next entry start. -/
def Obligations.TeamBlocksAreStagedAndRun : Prop :=
  ∀ (s : State),
    (∀ (td : Fin 16) (seq : W32) (tm : Nat), (s.tdie td).early = [] →
      s.net.find? (fun m => match m with | .dispatch d q _ => d == td && q == seq | _ => false) = some (.dispatch td seq tm) →
      ∃ t, exec (.teamDispatchReceive td seq) s = .next t ∧ t.net = s.net.erase (.dispatch td seq tm) ∧
        (seq = (s.tdie td).expect → (t.tdie td).expect = seq + 1 ∧ (t.tdie td).early = [] ∧
          ∀ x r, tget? s.former.teams tm = some x → tget? s.former.residencies x.res = some r → x.fault = none →
            (t.tdie td).teams = if td.val ∈ diesOf r.spurs then (s.tdie td).teams ++ [tm] else (s.tdie td).teams) ∧
        (seq ≠ (s.tdie td).expect → (t.tdie td).expect = (s.tdie td).expect ∧ (t.tdie td).early = [(seq.toNat, tm)] ∧
          (t.tdie td).teams = (s.tdie td).teams)) ∧
    (∀ (sp : Fin 128) (tm : Nat) (x : Team) (r : Residency) (slot : Nat), teamTurn s sp = some tm →
      tget? s.former.teams tm = some x → tget? s.former.residencies x.res = some r →
      ((s.spur sp).holds.any fun h => h.res == x.res) = false → teamFits (s.spur sp) r = true →
      freeBlock (s.spur sp) = some slot →
      ∃ t b, exec (.teamBlockStart sp) s = .next t ∧ (∀ q, q ≠ sp.val → t.spur q = s.spur q) ∧ SameMemory s t ∧
        blockAt t sp slot = some b ∧ b.team = some tm ∧ b.ctx = r.ctx ∧ b.groups = r.groups ∧ b.width = r.width ∧
        b.gran0 = 120 ∧ b.grans = 8 ∧ b.stall = r.stall ∧
        tget? t.former.teams tm = some { x with started := x.started ++ [sp.val] } ∧
        (t.spur sp).copies = (s.spur sp).copies
          ++ stageJobs r x (r.spurs.findIdx (· == sp.val)) slot (s.spur sp).nextId) ∧
    (∀ (sp : Fin 128) (slot tm : Nat) (b : Block) (x : Team) (r : Residency) (j : CopyJob) (u : State),
      (s.spur sp).teamBlock = some (slot, b) → b.team = some tm → b.idle = false → b.stopping = false →
      slotsOf (s.spur sp) slot = [] → tget? s.former.teams tm = some x → tget? s.former.residencies x.res = some r →
      tget x.dieEntry (sp.val / 8) 0 = 0 → (s.spur sp).copies.filter (fun j => j.row.isSome) = [j] →
      stageRow s sp j = some (u, none) →
      exec (.teamStagingDone sp) s = .next (entryNext (modSpur (setTeam u tm { x with
        rows := x.rows.map fun w => { w with status := w.status.or none } }) sp fun p =>
          let p := stageWrite p r x (r.spurs.findIdx (· == sp.val)) []
          { p with copies := p.copies.filter (fun j => j.row.isNone)
                   blocks := tset p.blocks slot { b with idle := true } }) tm (sp.val / 8))) ∧
    (∀ (td src : Fin 16) (tm e : Nat) (x : Team), tget? s.former.teams tm = some x →
      s.net.find? (fun m => match m with | .entryDone a b c _ => a == td && b == src && c == tm | _ => false)
        = some (.entryDone td src tm e) →
      exec (.entryDoneNotice td src tm) s = .next (entryNext (setTeam (recv s (.entryDone td src tm e)) tm
        { x with notices := x.notices ++ [(td.val, src.val, e)] }) tm td))

/-- R155 to R159, R167, R170, R171, R175: TEAM_REGISTER puts a valid residency in place; TEAM_RESERVATION_TAKE takes the
reservation on one Spur and completes the registration with the last; TEAM_SCATTER adds the output writes of OUT_RANK;
TEAM_ROW_COMPLETE ends the next row's command after the row before it; TEAM_RELEASE ends what waits with 0x0F, and with
no team out the residency is gone. -/
def Obligations.TeamsRegisterScatterAndRelease : Prop :=
  ∀ (s : State),
    (∀ (cid : Nat) (c : Cmd) (u v : State) (mb sb : List Byte) (ms : List (BitVec 18 × BitVec 3)) (sch : List W64),
      let r := residencyOf cid c
      let res := bodyBits c 0 7 0
      runnable s cid 0x03 = some c → c.running = false → isPanyx s c.ctx = false → residencyOk s c r = true →
      tget? s.former.residencies res = none →
      virtBytes s c.ctx (BitVec.ofNat 64 (bodyBits c 0x18 63 0)) (4 * bodyBits c 0x20 9 0) = some (u, .inl mb) →
      scheduleBytes u c.ctx (BitVec.ofNat 64 (bodyBits c 8 63 0)) 256 = some (v, .inl sb) →
      memberList (bodyBits c 0x20 9 0) mb = some ms → scheduleList (sb.length / 16) sb = some sch →
      (membersBad v c.ctx ms = none →
        let r' := { r with queues := ms, schedule := sch, pending := r.reserve }
        let w := { v with former := { v.former with residencies := tset v.former.residencies res r' } }
        exec (.teamRegister cid) s = .next (if r.reserve then setCmd w cid { c with running := true } else finishCmd w cid 0)) ∧
      (∀ st, membersBad v c.ctx ms = some st → exec (.teamRegister cid) s = .next (finishCmd v cid st))) ∧
    (∀ (res : BitVec 8) (sp : Fin 128) (r : Residency), tget? s.former.residencies res.toNat = some r → r.pending = true →
      sp.val ∈ r.spurs → ((s.spur sp).holds.any fun h => h.res == res.toNat) = false → teamFits (s.spur sp) r = true →
      let u := modSpur s sp fun p => { p with holds := p.holds ++ [newHold p res.toNat r] }
      exec (.teamReservationTake res sp) s =
        .next (if r.spurs.all fun x => (u.spur x).holds.any fun h => h.res == res.toNat then
          finishCmd (modRes u res.toNat fun r => { r with pending := false }) r.cid 0 else u)) ∧
    (∀ (tm slot : Nat) (x : Team) (r : Residency) (b : Block), tget? s.former.teams tm = some x →
      tget? s.former.residencies x.res = some r → x.scattering = false → x.seq.isSome → x.fault = none →
      lastDone s tm x r = true → (s.spur (r.spurs.getD r.outRank 0)).teamBlock = some (slot, b) →
      ∃ t, exec (.teamScatter tm) s = .next t ∧ SameMemory s t ∧
        tget? t.former.teams tm = some { x with scattering := true } ∧
        (t.spur (r.spurs.getD r.outRank 0)).copies = (s.spur (r.spurs.getD r.outRank 0)).copies
          ++ scatterJobs r x slot (s.spur (r.spurs.getD r.outRank 0)).nextId) ∧
    (∀ (tm : Nat) (x : Team) (r : Residency) (w : TeamRow) (c : Cmd), tget? s.former.teams tm = some x →
      tget? s.former.residencies x.res = some r → x.scattering = true → x.rows[x.posted]? = some w →
      (s.spur (r.spurs.getD r.outRank 0)).copies.find? (fun j => j.row == some x.posted && j.toGlobal) = none →
      s.cmd? w.cid = some c → c.st = .started → x.posted + 1 < x.rows.length →
      ∃ t c', exec (.teamRowComplete tm) s = .next t ∧ t.cmd? w.cid = some c' ∧
        c'.st = .ended ((w.status.or x.fault).getD 0) ∧
        c'.after = (if x.posted = 0 then none else (x.rows[x.posted - 1]?).map (·.cid)) ∧
        tget? t.former.teams tm = some { x with posted := x.posted + 1 }) ∧
    (∀ (cid : Nat) (c : Cmd) (r : Residency), runnable s cid 0x04 = some c → c.running = false →
      let res := bodyBits c 0 7 0
      bodyBits c 0 63 8 = 0 → (∀ x ∈ c.body.drop 8, x = 0) → tget? s.former.residencies res = some r → r.ctx = c.ctx →
      r.pending = false → r.releasing = none →
      ∃ t, exec (.teamRelease cid) s = .next t ∧ (∀ x ∈ t.former.cands, x.res ≠ res) ∧
        (inFlight s res = 0 → tget? t.former.residencies res = none) ∧
        (∀ tm ∈ r.closed, tget? t.former.teams tm = none))

/-- R177 to R181, R196: three port stores fill a group's command buffer and the fourth submits it: the group is held with
a valid command, and a command with bad fields is refused with status 0x0F under a number of its own; CL_SUBMIT_SEND takes
a number and a credit and sends the command to its memory die, where it joins the end of the queue.

R183 to R185, R189, R191: a step of a scan with no position left ends the command with status 0; one that reads its
positions scores them, 32 at a time, into the running state of each head, and the command with nothing left ends; a read
that is refused ends it with its status. The result is written to the Spur's local memory, the credit returns and the
number of the counter is finished. -/
def Obligations.CouloirCommandsAreSentScannedAndAnswered : Prop :=
  (
  ∀ (s : State) (sp : Fin 128) (sl : Fin 32) (g : Group) (b : Block) (data : BitVec 128), groupAt s sp sl = some g →
    blockAt s sp g.blk = some b →
    let noStore := fun (n : Nat) =>
      s.net.find? (fun m => match m with | .clPort a k i d _ => a == sp && k == sl && i == n && d == data | _ => false) = none
    let buf := tget (s.spur sp).clBufs sl {}
    (∀ n : Fin 3, noStore n → ∃ t, exec (.clPortAssemble sp sl n data) s = .next t ∧ OnlySpur s t sp ∧
      groupAt t sp sl = some g ∧ ∀ i, tget? (tget (t.spur sp).clBufs sl {}).parts i =
        if i = n.val then some data else tget? buf.parts i) ∧
    (∀ ctr, noStore 3 → g.done = false → g.stop = false → g.wait = none →
      let c := clCommand buf data
      ctrIndex b g.blk (clBits c 0 32 27) = some ctr →
      clBits c 0x28 23 0 + clHeads c * 2 * clDim c ≤ b.localSize →
      clBits c 0x28 47 24 + clResultSize (clHeads c) (clDim c) ≤ b.localSize →
      (clValid c = true → ∃ t, exec (.clSubmit sp sl data) s = .next t ∧ OnlySpur s t sp ∧
        groupAt t sp sl = some { g with wait := some .clSubmit } ∧ tget (t.spur sp).clBufs sl {} = { held := some c } ∧
        (t.spur sp).lmem = (s.spur sp).lmem) ∧
      (clValid c = false → ∃ t, exec (.clSubmit sp sl data) s = .next t ∧ OnlySpur s t sp ∧
        (tget (t.spur sp).counters ctr {}).issue = (tget (s.spur sp).counters ctr {}).issue + 1 ∧
        (t.spur sp).lmem = memWrite (s.spur sp).lmem (b.base + clBits c 0x28 47 24)
          (clResult 0x0F 0 (BitVec.ofNat 32 (clBits c 0x30 63 32)) (clHeads c) (clDim c) []))) ∧
    (∀ c ctr, buf.held = some c → tget? (s.spur sp).clBufs sl = some buf → ctrIndex b g.blk (clBits c 0 32 27) = some ctr →
      let md := clBits c 0 12 8 - 5
      let key := md * 16 + sp.val / 8
      copyPlaces s sp < 256 → clDieUp s md = true → tget s.cl.credits key 0 < 32 →
      ∃ t, exec (.clSubmitSend sp sl) s = .next t ∧ groupAt t sp sl = some { g with wait := none } ∧
        tget? t.cl.cmds s.cl.next = some (clMake s sp b g.blk ctr ((tget (s.spur sp).counters ctr {}).issue + 1) c) ∧
        tget t.cl.credits key 0 = tget s.cl.credits key 0 + 1 ∧
        (tget (t.spur sp).counters ctr {}).issue = (tget (s.spur sp).counters ctr {}).issue + 1 ∧ SameMemory s t) ∧
    (∀ (md : Fin 6) (id : Nat) (c : ClCmd), tget? s.cl.cmds id = some c → c.md = md → c.phase = .sent →
      ∃ t, exec (.clCommandReceive md id) s = .next t ∧ tget? t.cl.cmds id = some { c with phase := .queued } ∧
        tget t.cl.queues md [] = tget s.cl.queues md [] ++ [id] ∧ t.spurs = s.spurs ∧ SameMemory s t ∧ SameRegs s t)
  ) ∧
  (
  ∀ (s : State) (md : Fin 6) (e : Fin 16) (id : Nat) (c : ClCmd), clEngineUp s md e = true →
    (clRunning s md e = some (id, c) →
      let start := 32 * c.step
      let n := min 32 (c.total - start)
      (n = 0 → exec (.clScanStep md e) s = .next (clFinish s id c 0)) ∧
      (∀ u rows, n ≠ 0 → clGather c ((List.range n).map (start + ·)) s [] = some (u, rows, none) → c.total ≤ start + 32 →
        let rs := rows.map clSplit
        let scores := fun h => rs.map fun r => clScore c (clQuery c h) r.1
        let c' := { c with
          keys := c.keys + rows.length, step := c.step + 1
          state := (List.range c.heads).map fun h => headStep (c.state.getD h ⟨f32NegInf, 0, []⟩)
            (List.zip (scores h) (rs.map fun r => clValues c r.2)) }
        exec (.clScanStep md e) s = .next (clFinish u id c' 0)) ∧
      (∀ u rows st, n ≠ 0 → clGather c ((List.range n).map (start + ·)) s [] = some (u, rows, some st) →
        exec (.clScanStep md e) s = .next (clFinish u id { c with keys := c.keys + rows.length } st))) ∧
    (tget? s.cl.cmds id = some c → c.md = md → c.phase = .result →
      let key := md.val * 16 + c.sp / 8
      ∃ u, exec (.clResultDeliver md id) s = .next (blockEnd (finishCount u c.sp c.ctr c.num) c.sp c.blk) ∧
        (u.spur c.sp).lmem = memWrite (s.spur c.sp).lmem c.raddr
          (clResult c.status c.keys c.tag c.heads c.dim c.state) ∧
        tget? u.cl.cmds id = none ∧ tget u.cl.credits key 0 = tget s.cl.credits key 0 - 1 ∧
        (∀ q, q ≠ c.sp → u.spur q = s.spur q) ∧ SameMemory s u ∧ SameRegs s u)
  )

/-! ## Scalar harts (chapters 07, 08) -/

/-- R208, R210, R237, R240: an aligned load of memory by an idle hart takes its bytes from the hart's own core L1, or from
its cluster L2, and writes rd sign- or zero-extended; an aligned store goes into the line that the cluster L2 may write,
which becomes M, and otherwise stays in the store buffer while the line is asked for; an AMO on a line the cluster may
write returns the old value and leaves the new one. x0 discards. -/
def Obligations.ScalarAccessesActInTheClusterCache : Prop :=
  ∀ (s : State) (h : Fin 128) (va : W64) (lg : Fin 4), HartIdle s h → isMem va.toNat = true → va.toNat % 2 ^ lg.val = 0 →
    let a := clusterOf h
    let ln := va.toNat / 64
    let o := va.toNat % 64
    let x := s.hart h
    tget? s.coh.misses (aKey a ln) = none →
    (∀ (rd : Fin 32) (signed : Bool) (l : CoreLine), tget? x.l1d ln = some l →
      ∃ t, exec (.scalarLoad h rd va lg signed) s = .next t ∧ OnlyHart s t h ∧ ∀ r, tget (t.hart h).x r 0 =
        if r = rd.val ∧ rd.val ≠ 0 then extend (lineSlice l.data o (2 ^ lg.val)) signed else tget x.x r 0) ∧
    (∀ (rd : Fin 32) (signed : Bool) (l : AgentLine), tget? x.l1d ln = none → l1Dirty s a ln = none →
      agentLine s a ln = some l → l.poison = false →
      ∃ t, exec (.scalarLoad h rd va lg signed) s = .next t ∧ SameMemory s t ∧ SameRegs s t ∧
        ∀ r, tget (t.hart h).x r 0 =
          if r = rd.val ∧ rd.val ≠ 0 then extend (lineSlice l.data o (2 ^ lg.val)) signed else tget x.x r 0) ∧
    (∀ (data : W64) (l : AgentLine), agentLine s a ln = some l → l.st = .m ∨ l.st = .e → l1Dirty s a ln = none →
      (∀ k ∈ hartsOf a, (s.hart k).storeBuf = []) →
      ∃ t, exec (.scalarStore h va lg data) s = .next t ∧ SameMemory s t ∧ SameRegs s t ∧ (t.hart h).storeBuf = [] ∧
        agentLine t a ln = some { l with st := .m, data := putBytes l.data o (leBytes (2 ^ lg.val) data.toNat) }) ∧
    (∀ (data : W64), agentLine s a ln = none → agentMissCount s a < 128 →
      ∃ t, exec (.scalarStore h va lg data) s = .next t ∧ SameMemory s t ∧ SameRegs s t ∧
        (t.hart h).storeBuf = [⟨va.toNat, leBytes (2 ^ lg.val) data.toNat, 0, 0⟩] ∧
        t.net = s.net ++ [.home (homeOfLine s ln) ⟨.ru, a, 0, ln⟩]) ∧
    (∀ (op : AmoOp) (rd : Fin 32) (dbl aq rl : Bool) (data : W64) (l : AgentLine), lg.val = (if dbl then 3 else 2) →
      op ≠ .lr → op ≠ .sc → hartQuiet s h = true → agentLine s a ln = some l → l.st = .m ∨ l.st = .e →
      l.poison = false → l1Dirty s a ln = none → tget? x.l1d ln = none →
      let old := lineSlice l.data o (2 ^ lg.val)
      let new := amoValue op (2 ^ lg.val) (BitVec.ofNat 64 (leNat old)) data
      ∃ t, exec (.scalarAmo h op rd va dbl aq rl data) s = .next t ∧ SameMemory s t ∧ SameRegs s t ∧
        (∀ r, tget (t.hart h).x r 0 = if r = rd.val ∧ rd.val ≠ 0 then extend old true else tget x.x r 0) ∧
        ∃ y, tget? (t.hart h).l1d ln = some y ∧ y.dirty = true ∧
          y.data = putBytes l.data o (leBytes (2 ^ lg.val) new.toNat)) ∧
    (∀ (op : AmoOp) (rd : Fin 32) (dbl aq rl : Bool) (data : W64), va.toNat % (if dbl then 8 else 4) ≠ 0 →
      (op = .lr → exec (.scalarAmo h op rd va dbl aq rl data) s = .next (hartTrap (modHart s h id) h 4 va)) ∧
      (op = .sc → exec (.scalarAmo h op rd va dbl aq rl data) s = .next (hartTrap (modHart s h id) h 6 va)))

/-- R200, R210, R211, R230, R237, R260, R262, R280: fences, waits, cache-block operations, prefetches, interrupts and
SFENCE.VMA of an idle hart. A fence with nothing to wait for holds nothing; FENCE.I empties the instruction cache; WRS
waits only with a reservation; the cache-block operations act at the block's home; cbo.zero zeroes the cluster's copy; a
prefetch asks for a line that is missing; an interrupt is taken; SFENCE.VMA drops the named scalar TLB entries. -/
def Obligations.ScalarFencesAndBlockOperations : Prop :=
  ∀ (s : State) (h : Fin 128), HartIdle s h →
    let x := s.hart h
    let a := clusterOf h
    (∀ (pred succ : BitVec 4), ∃ t, exec (.scalarFence h pred succ) s = .next t ∧ OnlyHart s t h ∧
      t.hart h = { x with fenceWait := (pred.getLsbD 0 || pred.getLsbD 2) && succ != 0 && !hartQuiet s h }) ∧
    (∃ t, exec (.fenceI h) s = .next t ∧ OnlyHart s t h ∧ t.hart h = { x with l1i := [] }) ∧
    (∀ sto, ∃ t, exec (.wrsWait h sto) s = .next t ∧ OnlyHart s t h ∧
      t.hart h = { x with wrs := if x.resv = none then none else some sto }) ∧
    (∀ (va : Option W64) (ctx : Option (BitVec 16)), ∃ t, exec (.sfenceVma h va ctx) s = .next t ∧ OnlyHart s t h ∧
      (va = none → ctx = none → (t.hart h).tlb = []) ∧
      (∀ e, e ∈ (t.hart h).tlb → e ∈ x.tlb) ∧ (t.hart h).x = x.x) ∧
    (∀ cause, (cause = 5 → x.stimecmp ≤ s.time) → ∃ t, exec (.asynchronousInterrupt h cause) s = .next t ∧ OnlyHart s t h ∧
      t.hart h = { x with trap := some ⟨cause, 0, true⟩, stip := x.stip || cause == 5 }) ∧
    ∀ (va : W64), isMem va.toNat = true →
      let ln := va.toNat / 64
      (lineIdle s ln = true →
        (∃ u, exec (.cboClean h va) s = .next (cohClean u ln) ∧ SameMemory s u ∧ SameRegs s u ∧ u.coh = s.coh) ∧
        (∀ inval, ∃ u, exec (.cboFlush h va inval) s = .next (cohFlush u ln) ∧ SameMemory s u ∧ SameRegs s u ∧
          u.coh = s.coh)) ∧
      (∀ l, tget? s.coh.misses (aKey a ln) = none → agentLine s a ln = some l → l.st = .m ∨ l.st = .e →
        ∃ t y, exec (.cboZero h va) s = .next t ∧ SameMemory s t ∧ SameRegs s t ∧ agentLine t a ln = some y ∧
          y.st = .m ∧ y.data = 0 ∧ y.poison = false) ∧
      (agentLine s a ln = none → tget? s.coh.misses (aKey a ln) = none → agentMissCount s a < 128 → ∀ write,
        ∃ t, exec (.scalarPrefetch h va write) s = .next t ∧ SameMemory s t ∧ SameRegs s t ∧
          t.net = s.net ++ [.home (homeOfLine s ln) ⟨if write then .ru else .rs, a, 0, ln⟩])

/-! ## Homes, the directory and caching agents (chapter 08) -/

/-- R243, R244, R246, R248 to R250: a request that its home may begin, for a line that no directory entry lists. RS gets E
with the value of the L3 or memory, or M when the L3's copy is dirty; RU and ZERO get M, and the entry then names the
requester as owner; RDONCE gets the value; WRLINE and WRPART put their bytes below; CLEAN and FLUSH are answered.

R240, R242, R243, R245: a home whose directory names an owner forwards a read to it, asks it for its copy before a
write, and holds the line's transaction open until the owner has replied; a request behind a transaction waits, and a
waiting request begins when the line is free. -/
def Obligations.HomesGrantLinesOrForwardToTheOwner : Prop :=
  (
  ∀ (s : State) (md : Fin 6) (src : Nat) (ctx : BitVec 16) (ln w : Nat), HomeFree s md ln →
    let h := s.home md
    let below := belowLine s ln
    let dirty := ((l3Copy h ln).map (·.dirty)).getD false
    let may := fun (write : Bool) => claimOk s ctx (ln * 64) write = true
    let room := dirRoom h (dirSeed s md) ln (wayOut s (5 + md) 1) = .way w
    let granted := fun (t : State) (st : Moesi) (d : Line) (p : Bool) => Msg.grant src ln st d p ∈ t.net ∧
      ∃ e, tget? (t.home md).dir ln = some e ∧ e.dstate = 2 ∧ e.owner = src ∧ e.way = w ∧ e.sharers = []
    tget? h.dir ln = none →
    (may false → room → dirty = false → ∃ t, exec (.homeReadShared md src ctx ln) s = .next t ∧ SameMemory s t ∧
      granted t .e below.1 below.2) ∧
    (may false → room → dirty = true → ∃ t, exec (.homeReadShared md src ctx ln) s = .next t ∧ SameMemory s t ∧
      granted t .m below.1 below.2 ∧ l3Copy (t.home md) ln = none) ∧
    (may true → room → ∃ t, exec (.homeReadUnique md src ctx ln) s = .next t ∧ SameMemory s t ∧
      granted t .m below.1 below.2 ∧ l3Copy (t.home md) ln = none) ∧
    (may true → room → agentLine s src ln = none → ∃ t, exec (.homeUpgrade md src ctx ln) s = .next t ∧ SameMemory s t ∧
      granted t .m below.1 below.2) ∧
    (may true → room → ∃ t, exec (.homeZero md src ctx ln) s = .next t ∧ SameMemory s t ∧ granted t .m 0 false) ∧
    (may false → ∃ t, exec (.homeRdonce md src ctx ln) s = .next t ∧ SameMemory s t ∧
      Msg.once src ln below.1 below.2 false ∈ t.net) ∧
    (may true → ∀ d, ∃ t, exec (.homeWrline md src ctx ln d) s = .next t ∧ Msg.once src ln 0 false false ∈ t.net ∧
      (lineRetired s ln = false → (belowLine t ln).1 = d)) ∧
    (may true → ∀ d m, ∃ t, exec (.homeWrpart md src ctx ln d m) s = .next t ∧ Msg.once src ln 0 false false ∈ t.net ∧
      (lineRetired s ln = false → (belowLine t ln).1 = mergeBytes below.1 d m)) ∧
    (may true → ∃ t, exec (.homeClean md src ctx ln) s = .next t ∧ Msg.once src ln 0 false false ∈ t.net) ∧
    (may true → ∃ t, exec (.homeFlush md src ctx ln) s = .next t ∧ Msg.once src ln 0 false false ∈ t.net ∧
      l3Copy (t.home md) ln = none)
  ) ∧
  (
  ∀ (s : State) (md : Fin 6) (src : Nat) (ctx : BitVec 16) (ln o : Nat) (e : DirEntry),
    let h := s.home md
    let may := fun (write : Bool) => claimOk s ctx (ln * 64) write = true
    let asked := fun (t : State) (k : ReqKind) (m : Msg) => m ∈ t.net ∧ ∃ x, tget? (t.home md).txns ln = some x ∧
      x.req = ⟨k, src, ctx, ln⟩ ∧ x.owner = some o ∧ x.acks = [] ∧ tget? (t.home md).dir ln = some e
    tget? h.dir ln = some e → e.dstate = 2 → e.owner = o → e.ptrs = [none, none, none, none] → o ≠ src →
    (HomeFree s md ln → may false → ∃ t, exec (.homeReadShared md src ctx ln) s = .next t ∧ SameMemory s t ∧
      asked t .rs (.fwdShared o ln src)) ∧
    (HomeFree s md ln → may true → ∃ t, exec (.homeReadUnique md src ctx ln) s = .next t ∧ SameMemory s t ∧
      asked t .ru (.fwdUnique o ln src)) ∧
    (HomeFree s md ln → may false → ∃ t, exec (.homeRdonce md src ctx ln) s = .next t ∧ SameMemory s t ∧
      asked t .rdonce (.fwdOnce o ln src)) ∧
    (HomeFree s md ln → may true → ∃ t, exec (.homeFlush md src ctx ln) s = .next t ∧ SameMemory s t ∧
      asked t .flush (.recall o ln)) ∧
    (∀ x, isMem (ln * 64) = true → homeOfLine s ln = md → tget? h.txns ln = some x →
      ∃ t, exec (.homeReadShared md src ctx ln) s = .next t ∧ SameMemory s t ∧ SameRegs s t ∧
        (t.home md).waiting = h.waiting ++ [⟨.rs, src, ctx, ln⟩] ∧ (t.home md).dir = h.dir) ∧
    (∀ r, h.waiting.find? (fun q => q.line == ln) = some r → tget? h.txns ln = none → h.txns.length < 1024 →
      exec (.homeQueuedRequestStart md ln) s =
        .next (homeBegin (modHome s md fun h => { h with waiting := h.waiting.erase r }) md r)) ∧
    (∀ (a : Fin 64) (x : Txn), tget? h.txns ln = some x → x.evict = false →
      (Msg.reply md a ln .ack ∈ s.net → x.acks = [a.val] → x.owner = none → x.req.kind = .zero →
        ∃ t, exec (.homeReplyReceive md a ln .ack) s = .next t ∧ SameMemory s t ∧ tget? (t.home md).txns ln = none ∧
          Msg.grant x.req.src x.req.line .m 0 false ∈ t.net) ∧
      (Msg.reply md a ln (.forwarded true false) ∈ s.net → x.owner = some a.val → x.req.kind = .rs →
        ∃ t f, exec (.homeReplyReceive md a ln (.forwarded true false)) s = .next t ∧ SameMemory s t ∧
          tget? (t.home md).txns ln = none ∧ tget? (t.home md).dir ln = some f ∧ f.dstate = 3 ∧ f.owner = o ∧
          f.sharers = [x.req.src]) ∧
      (Msg.reply md a ln (.forwarded true true) ∈ s.net → x.owner = some a.val → x.req.kind = .ru →
        ∃ t, exec (.homeReplyReceive md a ln (.forwarded true true)) s = .next t ∧ SameMemory s t ∧
          tget? (t.home md).txns ln = none ∧
          tget? (t.home md).dir ln = some ⟨2, x.req.src, [none, none, none, none], e.way⟩))
  )

/-- R239, R240, R245, R253, R254, R255: a caching agent answers a forward, a recall or an Inval from its line, which
becomes O or S on a shared forward and I otherwise, with its dirty data passed on; the home takes an eviction by the owner
into its victim queue, frees the entry and acknowledges it, and the oldest of the victim queue goes to the L3 or to
memory. -/
def Obligations.AgentsAnswerAndEvict : Prop :=
  ∀ (s : State) (a : Fin 64) (ln : Nat) (l : AgentLine), ln < 2 ^ 46 → agentLine s a ln = some l → l1Dirty s a ln = none →
    let dirty := l.st == .m || l.st == .o
    let home := homeOfLine s ln
    let said := fun (t : State) (rep : HomeReply) => Msg.reply home a ln rep ∈ t.net ∧ SameMemory s t ∧ SameRegs s t
    (∀ req, Msg.fwdShared a ln req ∈ s.net → ∃ t, exec (.fwdShared a ln req) s = .next t ∧
      said t (.forwarded dirty false) ∧ Msg.grant req ln .s l.data l.poison ∈ t.net ∧
      agentLine t a ln = some { l with st := if dirty then .o else .s }) ∧
    (∀ req, Msg.fwdUnique a ln req ∈ s.net → ∃ t, exec (.fwdUnique a ln req) s = .next t ∧
      said t (.forwarded dirty true) ∧ Msg.grant req ln .m l.data l.poison ∈ t.net ∧ agentLine t a ln = none) ∧
    (∀ req, Msg.fwdOnce a ln req ∈ s.net → ∃ t, exec (.fwdOnce a ln req) s = .next t ∧
      said t (.forwarded dirty false) ∧ Msg.once req ln l.data l.poison false ∈ t.net ∧ agentLine t a ln = some l) ∧
    (Msg.recall a ln ∈ s.net → ∃ t, exec (.recall a ln) s = .next t ∧
      said t (.recalled dirty l.poison l.data) ∧ agentLine t a ln = none) ∧
    (Msg.inval a ln ∈ s.net → ∃ t, exec (.inval a ln) s = .next t ∧ said t .ack ∧ agentLine t a ln = none) ∧
    (∀ (md : Fin 6) (e : DirEntry) (d : Line) (p : Bool), HomeFree s md ln → tget? (s.home md).dir ln = some e →
      e.dstate = 2 → e.owner = a.val → e.sharers = [] → (s.home md).vq.length < 64 →
      ((tget? s.coh.wbs (aKey a ln)).map (·.gone)).getD false = false →
      (∃ t, exec (.homeWb md a ln d p) s = .next t ∧ SameMemory s t ∧ Msg.wbAck a ln false ∈ t.net ∧
        tget? (t.home md).dir ln = none ∧ l3Copy (t.home md) ln = some ⟨d, true, p, 0⟩) ∧
      (fld s (5 + md) R.MEM_L3_CFG_DECLINE_THRESH ≤ (s.home md).vq.length →
        fld s (5 + md) R.MEM_L3_CFG_DECLINE_THRESH < 64 →
        ∃ t, exec (.homeOffer md a ln d p) s = .next t ∧ SameMemory s t ∧ Msg.wbAck a ln true ∈ t.net ∧
          tget? (t.home md).dir ln = none ∧ (t.home md).vq = (s.home md).vq)) ∧
    (∀ (md : Fin 6) (v : VictimEntry) (rest : List VictimEntry), (s.home md).vq = v :: rest →
      (v.toMem = true → exec (.victimQueueDrain md) s =
        .next (hbmUse (storeLine (modHome s md fun h => { h with vq := rest }) v.line v.data v.poison) v.line 0 true false)) ∧
      (v.toMem = false → (∀ x ∈ rest, x.line ≠ v.line) → ∃ t, exec (.victimQueueDrain md) s = .next t ∧ SameMemory s t ∧
        ∃ y, tget? (t.home md).l3 v.line = some y ∧ y.data = v.data ∧ y.dirty = v.dirty ∧ y.poison = v.poison))

/-- R242, R243, R245, R258, R264: a caching agent installs the data it is granted and its miss is over; a writeback
acknowledgement empties its writeback buffer; a directory probe names a line, and when it is done its register says
whether the home holds an entry, its state, owner and L3 copy. -/
def Obligations.GrantsInstallAndProbesReport : Prop :=
  ∀ (s : State) (a : Fin 64) (md : Fin 6),
    (∀ ln st d p, Msg.grant a ln st d p ∈ s.net → st ≠ .i → ln < 2 ^ 46 → agentLine s a ln = none → agentRoom s a ln = true →
      waitingStore s a ln = none → (∀ k ∈ hartsOf a, (s.hart k).storeBuf = []) →
      (∀ sp ∈ spursOfAgent a, (s.spur sp).ops = []) →
      ∃ t l, exec (.dataGrantReceive a ln st d p) s = .next t ∧ SameMemory s t ∧ SameRegs s t ∧ agentLine t a ln = some l ∧
        l.st = st ∧ l.data = d ∧ l.poison = p ∧ tget? t.coh.misses (aKey a ln) = none) ∧
    (∀ ln b, Msg.wbAck a ln b ∈ s.net → ∃ t, exec (.writebackAckReceive a ln b) s = .next t ∧ SameMemory s t ∧
      SameRegs s t ∧ tget? t.coh.wbs (aKey a ln) = none ∧ t.net = s.net.erase (.wbAck a ln b) ∧
      t.coh.lines = s.coh.lines) ∧
    (∀ v : W64, ∃ t, exec (.dirProbe md v) s = .next t ∧ SameMemory s t ∧
      fld t (5 + md) R.MEM_DIR_PROBE_ADDR_LINE = bits v.toNat 51 6 ∧ fld t (5 + md) R.MEM_DIR_PROBE_DATA_DONE = 0 ∧
      (t.home md).probe = some (bits v.toNat 51 6)) ∧
    (∀ ln e, (s.home md).probe = some ln → isMem (ln * 64) = true → homeOfLine s ln = md →
      tget? (s.home md).dir ln = some e → (e.owner < 64) →
      ∃ t, exec (.dirProbeDone md) s = .next t ∧ SameMemory s t ∧ (t.home md).probe = none ∧
        fld t (5 + md) R.MEM_DIR_PROBE_DATA_DONE = 1 ∧ fld t (5 + md) R.MEM_DIR_PROBE_DATA_HIT = 1 ∧
        fld t (5 + md) R.MEM_DIR_PROBE_DATA_FOREIGN = 0 ∧ fld t (5 + md) R.MEM_DIR_PROBE_DATA_DSTATE = e.dstate.toNat ∧
        fld t (5 + md) R.MEM_DIR_PROBE_DATA_OWNER = e.own.getD 0)

/-! ## Contexts, translation and claims (chapter 09) -/

/-- R269 to R271, R278, R279, R475, R504: the commands of HUB_CTX_CMD and the context reset. A command that comes while one
is in progress is dropped; context 0 and a context in the wrong state are refused with 0x0F; a load takes the descriptor;
an invalidate empties the context's TLB entries and ends when the accesses translated before it are done; an unload begins
with a context reset. -/
def Obligations.ContextsAreLoadedInvalidatedAndUnloaded : Prop :=
  ∀ (s : State) (ctx : BitVec 16),
    let busy := fld s 0 R.HUB_CTX_STATUS_BUSY = 1
    let dropped := setFld s 0 R.HUB_CTX_STATUS_DROPPED 1
    let bad := fun (t : State) => fld t 0 R.HUB_CTX_STATUS_RESULT = 0x0F ∧ fld t 0 R.HUB_CTX_STATUS_CTX = ctx.toNat ∧
      fld t 0 R.HUB_CTX_STATUS_BUSY = 0 ∧ t.xlt = s.xlt ∧ SameMemory s t
    (busy → exec (.ctxLoad ctx) s = .next dropped ∧ exec (.ctxInvalidate ctx) s = .next dropped ∧
      exec (.ctxUnload ctx) s = .next dropped) ∧
    (fld s 0 R.HUB_CTX_STATUS_BUSY = 0 → (ctx = 0 ∨ (s.ctx? ctx).isSome ∨ readDescriptor s ctx = none) →
      ∃ t, exec (.ctxLoad ctx) s = .next t ∧ bad t) ∧
    (fld s 0 R.HUB_CTX_STATUS_BUSY = 0 → (ctx = 0 ∨ s.ctx? ctx = none) →
      (∃ t, exec (.ctxInvalidate ctx) s = .next t ∧ bad t) ∧ ∃ t, exec (.ctxUnload ctx) s = .next t ∧ bad t) ∧
    (∀ d, fld s 0 R.HUB_CTX_STATUS_BUSY = 0 → ctx ≠ 0 → s.ctx? ctx = none → readDescriptor s ctx = some d →
      ∃ t, exec (.ctxLoad ctx) s = .next t ∧ t.ctx? ctx = some d ∧ (∀ c, c ≠ ctx → t.ctx? c = s.ctx? c) ∧
        fld t 0 R.HUB_CTX_STATUS_RESULT = 0 ∧ fld t 0 R.HUB_CTX_STATUS_CTX = ctx.toNat ∧ SameMemory s t) ∧
    (∀ d, fld s 0 R.HUB_CTX_STATUS_BUSY = 0 → ctx ≠ 0 → s.ctx? ctx = some d →
      (∃ t i, exec (.ctxInvalidate ctx) s = .next t ∧ fld t 0 R.HUB_CTX_STATUS_BUSY = 1 ∧ SameMemory s t ∧
        t.xlt.inval = some i ∧ i.ctx = ctx ∧ i.unload = false ∧ i.resetting = false ∧
        (∀ sp, ∀ e ∈ (t.spur sp).utlb, e.ctx ≠ ctx) ∧ (∀ td, ∀ e ∈ (t.tdie td).tlb, e.ctx ≠ ctx) ∧
        (∀ md, ∀ e ∈ (t.helper md).cache, e.1 ≠ ctx)) ∧
      (∃ t i, exec (.ctxUnload ctx) s = .next t ∧ fld t 0 R.HUB_CTX_STATUS_BUSY = 1 ∧ t.xlt.inval = some i ∧ i.ctx = ctx ∧
        i.unload = true ∧ i.resetting = true)) ∧
    (∀ i, s.xlt.inval = some i → i.resetting = false → (∀ w ∈ i.waits, w ∉ translatedOps s i.ctx) →
      ∃ t, exec .ctxInvalidateDone s = .next t ∧ t.xlt.inval = none ∧ fld t 0 R.HUB_CTX_STATUS_BUSY = 0 ∧ SameMemory s t ∧
        (i.unload = true → t.ctx? i.ctx = none) ∧ (∀ c, c ≠ i.ctx → t.ctx? c = s.ctx? c)) ∧
    (∀ target, s.boot.powered = true → fld s 0 R.HUB_RESET_STATUS_BUSY = 0 →
      (target ≠ 0 → (s.ctx? target).isSome → (ctx = 0 ∨ ctx = target) → ∃ t, exec (.resetContext ctx target) s = .next t ∧
        t.boot.ctxReset = some target ∧ fld t 0 R.HUB_RESET_STATUS_BUSY = 1) ∧
      (target = 0 ∨ s.ctx? target = none ∨ (ctx ≠ 0 ∧ ctx ≠ target) →
        exec (.resetContext ctx target) s = .next (setFld s 0 R.HUB_RESET_STATUS_RESULT 0x0F))) ∧
    (s.boot.ctxReset = some ctx → ctxQuiet s ctx = true → s.xlt.inval = none → ∃ t, exec .contextResetDone s = .next t ∧
      t.boot.ctxReset = none ∧ fld t 0 R.HUB_RESET_STATUS_BUSY = 0 ∧ SameMemory s t)

/-- R272 to R277, R280, R283, R284, R287: a miss that its memory die serves joins the helpers' queue, with at most four of a
stream in flight; a helper in service takes the next one as a walk at the root of its context; a read step descends or
finishes it, and a virtual address that is not canonical ends it with a fault; a finished walk of an engine ends its miss; a claim query lets the leaf into the scalar TLB; a held-back
fault record is posted when its 10 µs window has passed. -/
def Obligations.MissesAreWalkedAndAnswered : Prop :=
  ∀ (s : State) (md : Fin 6),
    (∀ (td : Fin 16) (st : Fin 256) (ctx : BitVec 16) (va : W64) (m : MissEntry),
      let q := tget (s.tdie td).streams st []
      missOf q ctx va = some m → m.sent = false → missDie s td va = md → dieUp s (5 + md) = true →
      (q.filter (·.sent)).length < 4 →
      ∃ t, exec (.tlbMissRequest md td st ctx va) s = .next t ∧ SameMemory s t ∧ SameRegs s t ∧
        (t.helper md).queue = (s.helper md).queue ++ [(.stream td st, ctx, m.va)] ∧
        tget (t.tdie td).streams st [] = markSent q m) ∧
    (∀ (eng : Nat) (ctx : BitVec 16) (va : W64) (m : MissEntry),
      let q := missPut (tget s.xlt.engines eng []) ctx va
      missOf q ctx va = some m → m.sent = false → engineMissDie s (eng / 64) va = md → dieUp s (5 + md) = true →
      (q.filter (·.sent)).length < 4 →
      ∃ t, exec (.engineTlbMiss md eng ctx va) s = .next t ∧ SameMemory s t ∧ SameRegs s t ∧
        (t.helper md).queue = (s.helper md).queue ++ [(.engine eng, ctx, m.va)] ∧
        tget t.xlt.engines eng [] = markSent q m) ∧
    (∀ (b : Bool) (src : WalkSrc) (ctx : BitVec 16) (va : W64) (c : Ctx), nextMiss (s.helper md) b = some (src, ctx, va) →
      fldAt s (5 + md) R.UNIT_MAP_IN_SERVICE 0 % 256 ≠ 0 → s.ctx? ctx = some c →
      ∃ t w, exec (.walkStart md b) s = .next t ∧ SameMemory s t ∧ SameRegs s t ∧
        (t.helper md).queue = (s.helper md).queue.erase (src, ctx, va) ∧
        tget? (t.helper md).walks (s.helper md).next = some w ∧ w.src = src ∧ w.ctx = ctx ∧ w.va = va ∧
        w.level = topLevel c.mode ∧ w.table = c.root.toNat ∧ w.result = none) ∧
    (∀ (id : Nat) (w : Walk) (c : Ctx), tget? (s.helper md).walks id = some w → w.result = none →
      s.ctx? w.ctx = some c → canonical c.mode w.va = false →
      ∃ t, exec (.walkReadReply md id) s = .next t ∧ SameMemory s t ∧
        tget? (t.helper md).walks id = some { w with result := some (.inr .translation) }) ∧
    (∀ (id : Nat) (w : Walk) (c : Ctx) (pa : Nat), tget? (s.helper md).walks id = some w → w.result = none →
      s.ctx? w.ctx = some c → canonical c.mode w.va = true → walkAddr s c w = some pa → isMem pa = true → lineIdle s (pa / 64) = true →
      (∀ ppn, walkStep s c w.ctx (cachedPte s md w.ctx) w.va w.level w.table = .inl ppn → w.level ≠ 0 →
        ∃ t, exec (.walkReadReply md id) s = .next t ∧ SameMemory s t ∧ SameRegs s t ∧
          tget? (t.helper md).walks id = some { w with level := w.level - 1, table := ppn }) ∧
      (∀ f, walkStep s c w.ctx (cachedPte s md w.ctx) w.va w.level w.table = .inr (.inr f) →
        ∃ t, exec (.walkReadReply md id) s = .next t ∧ SameMemory s t ∧
          tget? (t.helper md).walks id = some { w with result := some (.inr f) })) ∧
    (∀ (id e : Nat) (w : Walk) (r : Sum TlbEntry XltFault), tget? (s.helper md).walks id = some w → w.result = some r →
      w.src = .engine e → ∃ t, exec (.walkReplyReceive md id) s = .next t ∧ SameMemory s t ∧ SameRegs s t ∧
        tget? (t.helper md).walks id = none ∧ tget t.xlt.engines e [] = dropMiss (tget s.xlt.engines e []) w) ∧
    (∀ (h : Fin 128) (pa : BitVec 52) (f : HartFill), (s.hart h).fill = some f → f.pa = pa.toNat → f.refused = false →
      md.val = (if dieUp s (5 + (coreLinks (1 + h.val / 32)).1) then (coreLinks (1 + h.val / 32)).1
        else (coreLinks (1 + h.val / 32)).2) → f.t.e.ctx = 0 →
      ∃ t e, exec (.claimQuery md h pa) s = .next t ∧ SameMemory s t ∧ SameRegs s t ∧ (t.hart h).fill = none ∧
        e ∈ (t.hart h).tlb ∧ e.e.ppn = f.t.e.ppn ∧ e.e.vpn = f.t.e.vpn ∧ e.e.wok = true) ∧
    (∀ (tgt : Fin 32) (ctx : BitVec 16) (time : W64) (w : FaultWindow) (n : Nat) (b : List Byte) (q : BitVec 18) (c : Ctx),
      let key := tgt.val * 65536 + ctx.toNat
      let now := (setTime s time).time
      tget? s.xlt.windows key = some w → w.defer = some (n, b) → s.ctx? ctx = some c → c.evq = some q →
      (w.posted.toNat + 10000 ≤ now.toNat → ∃ t, exec (.ctxFaultRecordTimer tgt ctx time) s = .next t ∧
        tget? t.xlt.windows key = some ⟨now, none⟩ ∧ t.qs.events = s.qs.events ++ [⟨q, 0x02, ctx, ctxFaultBody b n⟩] ∧
        SameMemory s t ∧ SameRegs s t) ∧
      (now.toNat < w.posted.toNat + 10000 → exec (.ctxFaultRecordTimer tgt ctx time) s = .next (setTime s time)))

/-- R281, R286, R288, R289: a claim change whose extents are outside the space, reserved, or whose form is bad is refused
with 0x0F; a good one writes the entry of every extent into every table copy and drops it from the claim caches; a zeroing
one leaves its memory 0; the change is over when the transactions begun before it have ended. -/
def Obligations.ClaimChangesWriteEveryTable : Prop :=
  ∀ (s : State) (ctx : BitVec 16) (mode : BitVec 2),
    let first := fld s 0 R.HUB_CLAIM_ARG_FIRST
    let n := fld s 0 R.HUB_CLAIM_ARG_COUNT
    let bad := n = 0 ∨ claimExtents ≤ first + n - 1 ∨ (s.xlt.reservedClaims.any fun r => first < r.1 + r.2 && r.1 ≤ first + n - 1)
    let refused := setFld s 0 R.HUB_CLAIM_STATUS_RESULT 0x0F
    let dropped := setFld s 0 R.HUB_CLAIM_STATUS_DROPPED 1
    let begun := fun (t : State) => fld t 0 R.HUB_CLAIM_STATUS_BUSY = 1 ∧ fld t 0 R.HUB_CLAIM_STATUS_RESULT = 0 ∧
      ∃ c, t.xlt.change = some c ∧ ∀ ln ∈ c.todo, first ≤ lineExtent ln ∧ lineExtent ln < first + n
    (fld s 0 R.HUB_CLAIM_STATUS_BUSY = 1 → exec (.claimSet ctx mode) s = .next dropped ∧
      exec (.claimSetFlush ctx mode) s = .next dropped ∧ exec (.claimSetZero ctx mode) s = .next dropped) ∧
    (fld s 0 R.HUB_CLAIM_STATUS_BUSY = 0 → bad → exec (.claimSet ctx mode) s = .next refused ∧
      exec (.claimSetFlush ctx mode) s = .next refused ∧ exec (.claimSetZero ctx mode) s = .next refused) ∧
    (fld s 0 R.HUB_CLAIM_STATUS_BUSY = 0 → windowExtent ≤ first + n - 1 →
      exec (.claimSetFlush ctx mode) s = .next refused ∧ exec (.claimSetZero ctx mode) s = .next refused) ∧
    (fld s 0 R.HUB_CLAIM_STATUS_BUSY = 0 → ¬ bad →
      (∃ t, exec (.claimSet ctx mode) s = .next t ∧ begun t ∧ (∀ md, ∀ e ∈ (t.helper md).claims, e.1 < first ∨ first + n ≤ e.1) ∧
        ∀ e, first ≤ e → e < first + n → windowExtent ≤ e →
          tget t.xlt.windowClaims e 0 = BitVec.ofNat 32 (ctx.toNat + mode.toNat * 2 ^ 16)) ∧
      (first + n - 1 < windowExtent → (∃ t, exec (.claimSetFlush ctx mode) s = .next t ∧ begun t) ∧
        ∃ t, exec (.claimSetZero ctx mode) s = .next t ∧ begun t ∧
          ∀ a, isMem a = true → first ≤ memExtent a → memExtent a < first + n → lineRetired s (a / 64) = false →
            memByte t.mem a = 0)) ∧
    (∀ c, s.xlt.change = some c → (∀ ln ∈ c.todo, lineIdle s ln = true) → c.scrub = 0 →
      ∃ t, exec .claimChangeDone s = .next t ∧ t.xlt.change = none ∧ fld t 0 R.HUB_CLAIM_STATUS_BUSY = 0 ∧ SameMemory s t)

/-! ## Memory tiers (chapter 10) -/

/-- R294 to R299, R301, R305 to R307: a read of an HBM line that neither try decodes poisons the line, a write stores it and
clears its poison; the controller's grant takes a request off its queue; a temperature sets the refresh level; a board-tier
write with a link error stores poisoned data. Other lines keep their bytes.

R308 to R311, R314, R315, R322, R324, R489: a flash write maps its logical page to a fresh page; a relocation reports
wear, spares and stopped writes; an age collection ages the extents that nothing touched or holds; an eviction starts the
move of the oldest victim that has somewhere to go; a stream die seals each image that moves to flash; a move to another
tier ends with the extent at its destination. -/
def Obligations.StoredLinesFlashAndPool : Prop :=
  (
  ∀ (s : State) (ln : Nat), lineRetired s ln = false →
    (∀ (md : Fin 6) (ctx : BitVec 16) (e1 e2 : List (Fin 72)), ln * 64 < hbmEnd → homeOfLine s ln = md →
      let stack := (hbmPlace s (ln * 64)).1 % 4
      (∀ d, ∃ t, exec (.hbmAccess md ln ctx (some d) e1 e2) s = .next t ∧ memLine t ln = d ∧ linePoison t ln = false ∧
        SameRegs s t ∧ ∀ a, a / 64 ≠ ln → memByte t.mem a = memByte s.mem a) ∧
      (decodes s md stack ln e1 = true ∨ decodes s md stack ln e2 = true ∨ linePoison s ln = true →
        exec (.hbmAccess md ln ctx none e1 e2) s = .next s) ∧
      (decodes s md stack ln e1 = false → decodes s md stack ln e2 = false → linePoison s ln = false →
        ∃ t, exec (.hbmAccess md ln ctx none e1 e2) s = .next t ∧ linePoison t ln = true ∧ t.mem = s.mem ∧ SameRegs s t)) ∧
    (boardBase ≤ ln * 64 → ln * 64 < boardEnd →
      (∀ d poison linkErr, s.tiers.boardPoison.length < 4096 →
        ∃ t, exec (.boardAccess ln (some d) poison linkErr) s = .next t ∧ memLine t ln = d ∧
        SameRegs s t ∧ ((poison || linkErr) = true → linePoison t ln = true) ∧
        ∀ a, a / 64 ≠ ln → memByte t.mem a = memByte s.mem a) ∧
      (∀ poison, exec (.boardAccess ln none poison false) s = .next s) ∧
      (∀ poison, s.tiers.boardPoison.length < 4096 → ∃ t, exec (.boardAccess ln none poison true) s = .next t ∧
        linePoison t ln = true ∧ t.mem = s.mem ∧ SameRegs s t)) ∧
    (∀ (md : Fin 6) (stack : Fin 4) (time : W64),
      let u := fillBuckets (setTime s time) md
      (∀ r h, hbmNext u md stack = some (r, h) → exec (.hbmControllerGrant md stack time) s =
        .next (modTiers u fun x => { x with hbm := tset x.hbm md h })) ∧
      (hbmNext u md stack = none → exec (.hbmControllerGrant md stack time) s = .next u)) ∧
    (∀ (md : Fin 6) (stack : Fin 4) (temp : BitVec 8), temp.toNat < 105 →
      ∃ t, exec (.hbmTempSample md stack temp) s = .next t ∧ SameMemory s t ∧
        fldAt t (5 + md) R.MEM_HBM_STACK_TEMP stack = temp.toNat ∧
        fldAt t (5 + md) R.MEM_HBM_STACK_REFRESH stack =
          refreshNext (fldAt s (5 + md) R.MEM_HBM_STACK_REFRESH stack) temp.toNat ∧
        (fldAt s (5 + md) R.MEM_HBM_STACK_REFRESH stack = 0 →
          fldAt t (5 + md) R.MEM_HBM_STACK_REFRESH stack = if 95 ≤ temp.toNat then 2 else if 85 ≤ temp.toNat then 1 else 0))
  ) ∧
  (
  ∀ (s : State),
    (∀ page w, s.tiers.writes.find? (fun x => x.page == page) = some w →
      ∃ t p, exec (.flashWriteComplete page) s = .next t ∧ SameMemory s t ∧ SameRegs s t ∧
        tget? t.tiers.map page = some p ∧ tget? t.tiers.pages p = some w.data ∧ t.tiers.writes = s.tiers.writes.erase w) ∧
    (∀ (block : Nat) (reason : Fin 4) (wear : BitVec 8) (spare : BitVec 10), ∃ t,
      exec (.flashRelocate block reason wear spare) s = .next t ∧ SameMemory s t ∧
        fld t 13 R.TIER_FLASH_STATUS_WEAR_PCT = wear.toNat ∧ fld t 13 R.TIER_FLASH_STATUS_SPARE_PERMILLE = spare.toNat ∧
        fld t 13 R.TIER_FLASH_STATUS_WRITES_STOPPED = b2n (spare.toNat < 20) ∧
        (reason = 3 → block ∈ t.tiers.badBlocks) ∧
        (reason ≠ 3 → tget t.tiers.erases block 0 = tget s.tiers.erases block 0 + 1)) ∧
    (∃ t, exec .poolAgeTick s = .next t ∧ SameMemory s t ∧ SameRegs s t ∧ ∀ h p, tget? s.tiers.pool h = some p →
      tget? t.tiers.pool h = some (if p.level = 2 then p else { p with
        heldNow := false
        age := if p.extent ∈ s.tiers.touched ∨ p.hold ≠ 0 ∨ p.heldNow = true then 0 else min 255 (p.age + 1) })) ∧
    (∀ (board : Bool) (q : Option (BitVec 16)),
      let level := if board then 1 else 0
      let u := setEvicting s board
      let due := match q with
        | some c => quotaAt u.tiers c level < poolUse u.tiers c level || poolDemand u level
        | none => (if board then u.tiers.evicting.2 else u.tiers.evicting.1) || poolDemand u level
      (due = false → exec (.poolEvict board q) s = .next u) ∧
      (∀ h rest p lv e, due = true → victims u.tiers level q = h :: rest → tget? u.tiers.pool h = some p →
        extIdle u p.extent = true → evictDst u level p = some (lv, e) →
        exec (.poolEvict board q) s = .next (moveStart u h lv e none))) ∧
    (∀ (h : BitVec 24) (m : PoolMove) (p : PoolEnt), tget? s.tiers.moves h.toNat = some m → tget? s.tiers.pool h.toNat = some p →
      (m.sealed_ = false → streamDies s ≠ [] → m.dstLevel = 2 →
        exec (.streamDieTransfer h) s = .next (modTiers (makeImage s h.toNat p true) fun t => { t with
          alternate := !t.alternate, moves := tset t.moves h.toNat { m with sealed_ := true } })) ∧
      (m.sealed_ = false → streamDies s ≠ [] → p.level = 2 → m.dstLevel ≠ 2 →
        exec (.streamDieTransfer h) s = .next (modTiers s fun t => { t with
          alternate := !t.alternate, moves := tset t.moves h.toNat { m with sealed_ := true } })) ∧
      (m.dstLevel < 2 → p.level < 2 → m.cid = none → extIdle s p.extent = true → s.tiers.waiting = [] → moversHeld s = false →
        ∃ t q, exec (.poolMoveDone h) s = .next t ∧ tget? t.tiers.moves h.toNat = none ∧
          tget? t.tiers.pool h.toNat = some q ∧ q.level = m.dstLevel ∧ q.extent = m.dstExtent ∧ q.ctx = p.ctx ∧
          q.hold = p.hold))
  )

/-- R312, R317 to R321: the five TIER commands on a runnable command with no result record, when no other one waits. An
ALLOC with room takes the lowest free handle with hold 1; a FREE ends the handle; a HOLD at a level it already has raises
the hold count, and a RELEASE lowers it; a DEMOTE with room starts its move; a malformed command ends with 0x0F, one of
another context with 0x04, and one that has waited too long with 0x0C. -/
def Obligations.TierCommandsActOnHandles : Prop :=
  ∀ (s : State) (cid : Nat) (c : Cmd), runnable s cid 6 = some c →
    let t := tierCmd c
    let h := t.handle
    let row := fun (op : Nat) => if op = 1 then Instr.tierAlloc cid else if op = 2 then .tierFree cid
      else if op = 3 then .tierHold cid else if op = 4 then .tierRelease cid else .tierDemote cid
    let ended := fun (u : State) (status : Byte) => ∃ x, u.cmd? cid = some x ∧ x.st = .ended status
    s.tiers.waiting = [] → (∀ m ∈ s.tiers.moves, m.2.cid ≠ some cid) → t.result = 0 → 1 ≤ t.op → t.op ≤ 5 →
    (t.bad = true → ∃ u, exec (row t.op) s = .next u ∧ ended u 0x0F ∧ u.tiers.pool = s.tiers.pool) ∧
    (t.bad = false → (moverOf s c).isSome →
      (∀ e n, t.op = 1 → poolRoom s c.ctx t.level (if t.level = 0 then some t.place else none) = .inl (some e) →
        freeHandle s.tiers = some n → ∃ u, exec (.tierAlloc cid) s = .next u ∧ ended u 0 ∧ tget? u.tiers.pool n = some {
          ctx := c.ctx, level := t.level, extent := e, place := t.place, hold := 1 }) ∧
      (∀ p, tget? s.tiers.pool h = some p → t.op ≠ 1 → p.ctx ≠ c.ctx →
        ∃ u, exec (row t.op) s = .next u ∧ ended u 0x04 ∧ u.tiers.pool = s.tiers.pool) ∧
      (∀ p, tget? s.tiers.pool h = some p → p.ctx = c.ctx → tget? s.tiers.moves h = none →
        (t.op = 2 → p.hold = 0 → (p.level < 2 → extIdle s p.extent = true) → ∃ u, exec (.tierFree cid) s = .next u ∧ ended u 0 ∧ tget? u.tiers.pool h = none) ∧
        (t.op = 3 → p.hold < 255 → p.level ≤ t.level → ∃ u, exec (.tierHold cid) s = .next u ∧ ended u 0 ∧
          tget? u.tiers.pool h = some { p with hold := p.hold + 1, heldNow := true }) ∧
        (t.op = 4 → p.hold ≠ 0 → ∃ u, exec (.tierRelease cid) s = .next u ∧ ended u 0 ∧
          tget? u.tiers.pool h = some { p with hold := p.hold - 1 }) ∧
        (∀ e, t.op = 5 → p.hold = 0 → p.level < t.level → poolRoom s c.ctx t.level none = .inl (some e) →
          dataRetired s h p = false → extIdle s p.extent = true →
          exec (.tierDemote cid) s = .next (moveStart s h t.level e (some cid))))) ∧
    (∀ v : State, v = { s with tiers := { s.tiers with waiting := [cid] } } → t.op = 1 →
      ∃ u, exec (.poolFreeWaitTimeout cid) v = .next u ∧ ended u 0x0C ∧ u.tiers.waiting = [])

/-! ## KSL ports (chapter 11) -/

/-- R325 to R327, R330, R341 to R343, R510: the life of a KSL port. ENABLE with a mated cable starts training; step 2
records the cable and refuses one out of limits; step 5 brings the port up with fresh credits, or finds a role mismatch; a
timeout starts training again; an up port may retrain and comes back, or trains anew after three failures; mating, unmating
and an overcurrent act as the cable does; a port that is not up when its time is over is lost. -/
def Obligations.KslPortsTrainAndRecover : Prop :=
  ∀ (s : State) (p : Fin 2),
    let x := s.port p
    let state := fldAt s 0 R.HUB_KSL_STAT_STATE p
    let training := fun (t : State) => fldAt t 0 R.HUB_KSL_STAT_STATE p = 1 ∧ (t.port p).step = 1 ∧ SameMemory s t
    (x.mated = true → ∃ t, exec (.kslEnableWrite p true) s = .next t ∧ training t ∧ fldAt t 0 R.HUB_KSL_CFG_ENABLE p = 1) ∧
    (x.lost = true → ∃ t, exec (.kslEnableWrite p false) s = .next t ∧ fldAt t 0 R.HUB_KSL_STAT_STATE p = 0 ∧
      fldAt t 0 R.HUB_KSL_CFG_ENABLE p = 0 ∧ (t.port p).step = 0 ∧ SameMemory s t) ∧
    (state = 1 → x.step = 1 → exec (.kslTrainStepDone p .done) s = .next (modPort s p fun x => { x with step := 2 })) ∧
    (∀ cable len loss, state = 1 → x.step = 2 → ∃ t, exec (.kslTrainStepDone p (.measured cable len loss)) s = .next t ∧
      SameMemory s t ∧ fldAt t 0 R.HUB_KSL_STAT_CABLE p = cable.toNat ∧ fldAt t 0 R.HUB_KSL_STAT_LENGTH p = len.toNat ∧
      fldAt t 0 R.HUB_KSL_STAT_LOSS p = loss.toNat ∧
      (if (cable = 1 ∧ 30 < len.toNat) ∨ (cable = 2 ∧ 150 < len.toNat) ∨ 112 < loss.toNat
        then fldAt t 0 R.HUB_KSL_STAT_STATE p = 0 ∧ (t.port p).step = 0
        else fldAt t 0 R.HUB_KSL_STAT_STATE p = 1 ∧ (t.port p).step = 3)) ∧
    (∀ role epoch, state = 1 → x.step = 5 → b2n role = fldAt s 0 R.HUB_KSL_CFG_ROLE p →
      ∃ t, exec (.kslTrainStepDone p (.linked role epoch)) s = .next t ∧ fldAt t 0 R.HUB_KSL_STAT_STATE p = 4 ∧
        SameMemory s t) ∧
    (∀ role epoch, state = 1 → x.step = 5 → b2n role ≠ fldAt s 0 R.HUB_KSL_CFG_ROLE p → x.txq = [] → x.outq = [] →
      x.retry = [] → (∀ q ∈ s.qs.q, q.2.held = false) → fldAt s 0 R.HUB_KSL_EPOCH_PEER_EPOCH p = epoch.toNat →
      ∃ t, exec (.kslTrainStepDone p (.linked role epoch)) s = .next t ∧ fldAt t 0 R.HUB_KSL_STAT_STATE p = 2 ∧
        SameMemory s t ∧ (t.port p).lost = false ∧ (t.port p).rxSeq = 0 ∧ (t.port p).k1 = 1024 ∧ (t.port p).k2 = 4096 ∧
        (t.port p).k3 = 63 ∧ (t.port p).txSeq = 1) ∧
    (state = 1 → x.mated = true → ∃ t, exec (.kslTrainTimeout p) s = .next t ∧ training t) ∧
    (state = 2 → ∃ t, exec (.kslRetrain p) s = .next t ∧ fldAt t 0 R.HUB_KSL_STAT_STATE p = 3 ∧ SameMemory s t) ∧
    (∀ ack : BitVec 12, state = 3 → x.txq = [] → x.outq = [] →
      ∃ t, exec (.kslRetrainDone p true ack) s = .next t ∧ fldAt t 0 R.HUB_KSL_STAT_STATE p = 2 ∧ SameMemory s t ∧
        (t.port p).retry = (afterAck x.retry ack.toNat).map fun f => { f with resends := 0 }) ∧
    (∀ ack, state = 3 → x.mated = true → 2 ≤ x.retrainFails →
      ∃ t, exec (.kslRetrainDone p false ack) s = .next t ∧ training t) ∧
    (state = 2 → exec (.kslPortLostTimeout p) s = .next s) ∧
    (state ≠ 2 → x.lost = false → exec (.kslPortLostTimeout p) s =
      .next (hostReset (modPort s p fun x => { x with lost := true, txq := [], retry := [] }) p)) ∧
    (state = 0 → fldAt s 0 R.HUB_KSL_CFG_ENABLE p = 1 → ∃ t, exec (.cableMate p) s = .next t ∧ training t ∧
      (t.port p).mated = true) ∧
    (x.lost = true → ∃ t, exec (.cableUnmate p) s = .next t ∧ fldAt t 0 R.HUB_KSL_STAT_STATE p = 0 ∧
      (t.port p).mated = false ∧ SameMemory s t) ∧
    (state ≠ 1 → ∃ t, exec (.cblOvercurrent p) s = .next t ∧ t.port p = { x with powered := false } ∧ SameMemory s t ∧
      SameRegs s t) ∧
    (∃ t, exec (.cblPowerRetry p) s = .next t ∧ t.port p = { x with powered := true } ∧ SameMemory s t ∧ SameRegs s t)

/-- R328, R329, R331, R333 to R339, R343, R344, R348, R515: what a port that is up does with what comes. A flit with a bad
CRC only asks for a resend; a NAK sends what it does not acknowledge again; a read of the status window or of an undecoded
address, a write and a doorbell are taken from the inbox and answered; a completion or acknowledgement frees its tag; an
EPOCH is recorded, and a NOTIFY raises the interrupt at the adapter end. -/
def Obligations.KslTransactionsAreAnswered : Prop :=
  ∀ (s : State) (p : Fin 2),
    let x := s.port p
    let kept := fun (t : State) => SameMemory s t ∧ (t.port p).inbox = []
    portUp s p = true →
    (∀ flit : BitVec 2048, crc64 ((leBytes 256 flit.toNat).take 248) ≠ BitVec.ofNat 64 (leNat ((leBytes 256 flit.toNat).drop 248)) →
      exec (.kslFlitReceive p flit) s = .next (modPort s p fun x => { x with nak := true })) ∧
    (∀ ack : BitVec 12, x.txq = [] → x.outq = [] → (∀ f ∈ x.retry, f.resends < 7) →
      ∃ t, exec (.kslNakReceive p ack) s = .next t ∧ SameMemory s t ∧
        (t.port p).retry = (afterAck x.retry ack.toNat).map fun f => { f with resends := f.resends + 1 }) ∧
    (∀ (h : KslHdr) (b : List Byte), h.ttype = 1 → x.inbox = [(h, b)] → h.res0 = 0 →
      (inStatus h.addr.toNat = true → h.lenm1 = 7 → h.addr.toNat % 8 = 0 → exec (.kslRd p h) s =
        .next (kslCpl (inboxDrop s p h b) p h 0 (leBytes 8 (statusWord (inboxDrop s p h b) p (h.addr.toNat % 0x10000))))) ∧
      (inStatus h.addr.toNat = false → moduleReady s = false →
        exec (.kslRd p h) s = .next (kslCpl (inboxDrop s p h b) p h 0x0F [])) ∧
      (inStatus h.addr.toNat = false → moduleReady s = true → kslMalformed h = false → ctx0Refused s p h = false →
        kslDecode h.addr.toNat = none → exec (.kslRd p h) s = .next (kslCpl (inboxDrop s p h b) p h 0x05 []))) ∧
    (∀ (h : KslHdr) (b : List Byte) (pa : Nat), h.ttype = 2 → x.inbox = [(h, b)] → h.release = false →
      inStatus h.addr.toNat = false → moduleReady s = true → kslMalformed h = false →
      (h.addr.toNat < 0x70200000000) → ctx0Refused s p h = false → kslDecode h.addr.toNat = some pa →
      (isMem pa = true → rangeIdle s pa b.length = true) →
      exec (.kslWr p h b) s = .next (kslTaken (kslWriteAt (inboxDrop s p h b) p h pa b).1 p h
        (kslWriteAt (inboxDrop s p h b) p h pa b).2)) ∧
    (∀ (h : KslHdr) (val : W64), h.ttype = 3 → x.inbox = [(h, leBytes 8 val.toNat)] → s.net = [] → moduleReady s = true →
      h.res0 = 0 → h.lenm1 = 7 → h.addr.toNat % 8 = 0 → 0x70200000000 ≤ h.addr.toNat → h.addr.toNat < 0x70200200000 →
      ctx0Refused s p h = false → ∃ t, exec (.kslDb p h val) s = .next t ∧ kept t ∧ SameRegs s t ∧
        t.net = [.doorbell (BitVec.ofNat 18 ((h.addr.toNat - 0x70200000000) / 8)) h.ctx val (kslKey p h.tag.toNat)] ∧
        (t.port p).wacks = x.wacks ++ [⟨h.tag, 0⟩]) ∧
    (∀ (tag : BitVec 10) (w : KslIn), x.wacks.find? (fun w => w.tag.toNat == tag.toNat) = some w →
      portFlying s p (some tag.toNat) = false → exec (.kslInboundPerformed p tag) s =
        .next (kslSend (modPort s p fun x => { x with wacks := x.wacks.erase w }) p
          { kslHdr0 5 with tag := w.tag, status := w.status } [])) ∧
    (∀ (h : KslHdr) (b : List Byte) (g : KslTag), h.ttype = 4 → h.status = 0 → x.inbox = [(h, b)] →
      tget? x.rdTags h.tag.toNat = some g → g.req.owner = .post → x.txq = [] → x.outq = [] →
      (g.req.len ≤ g.got.length + b.length → ∃ t, exec (.kslCpl p h b) s = .next t ∧ kept t ∧
        tget? (t.port p).rdTags h.tag.toNat = none) ∧
      (g.got.length + b.length < g.req.len → ∃ t, exec (.kslCpl p h b) s = .next t ∧ kept t ∧
        tget? (t.port p).rdTags h.tag.toNat = some { g with got := g.got ++ b })) ∧
    (∀ (h : KslHdr) (b : List Byte) (g : KslTag), h.ttype = 5 → x.inbox = [(h, b)] →
      tget? x.wrTags h.tag.toNat = some g → g.req.owner = .post → x.txq = [] → x.outq = [] →
      ∃ t, exec (.kslWack p h) s = .next t ∧ kept t ∧ tget? (t.port p).wrTags h.tag.toNat = none) ∧
    (∀ (h : KslHdr) (b : List Byte) (v : W32), h.ttype = 6 → x.inbox = [(h, b)] → h.addr.toNat % 256 = 1 →
      bits h.addr.toNat 63 32 = v.toNat → portFlying s p none = false →
      exec (.kslMsgEpoch p v) s = .next (takeEpoch (inboxDrop s p h b) p v.toNat)) ∧
    (∀ (h : KslHdr) (b : List Byte) (q : BitVec 18), h.ttype = 6 → x.inbox = [(h, b)] → h.addr.toNat % 256 = 2 →
      bits h.addr.toNat 49 32 = q.toNat → portFlying s p none = false → fldAt s 0 R.HUB_KSL_CFG_ROLE p = 1 →
      moduleReady s = true → ∃ t, exec (.kslMsgNotify p q) s = .next t ∧ kept t ∧ SameRegs s t ∧
        q ∈ (t.port p).interrupts) ∧
    (∀ (h : Fin 128) (pa : BitVec 52) (ctx : BitVec 16) (data : W64) (a : HartPart), hostBase ≤ pa.toNat →
      portOf pa.toNat = p → (s.hart h).winStores = [a] → a.st = 0 → a.pa = pa.toNat → a.ctx = ctx → leNat a.data = data.toNat →
      x.lost = false → ∃ t, exec (.outboundWindowRequest (.hart h true pa ctx data)) s = .next t ∧ SameMemory s t ∧
        (t.hart h).winStores = [{ a with st := 1 }])

/-! ## Queues, commands and the Summit Book (chapter 12) -/

/-- R345 to R347, R357 to R359: the commands of HUB_QUEUE_CMD, one at a time, each refused with 0x0F in a state that does not
allow it: an enable takes the descriptor; a halt stops the queue with status 0x0F; a resume makes it active; a disable halts
it and ends when its commands have ended; a query shows its state. -/
def Obligations.QueueCommandsChangeTheQueueState : Prop :=
  ∀ (s : State) (q : BitVec 18),
    let n := q.toNat
    let x := s.queue n
    let dropped := setFld s 0 R.HUB_QUEUE_STATUS_DROPPED 1
    let refused := setFld s 0 R.HUB_QUEUE_STATUS_RESULT 0x0F
    (fld s 0 R.HUB_QUEUE_STATUS_BUSY = 1 → exec (.queueEnable q) s = .next dropped ∧ exec (.queueHalt q) s = .next dropped ∧
      exec (.queueResume q) s = .next dropped ∧ exec (.queueDisable q) s = .next dropped ∧
      exec (.queueQuery q) s = .next dropped) ∧
    (fld s 0 R.HUB_QUEUE_STATUS_BUSY = 0 →
      (x.state ≠ 0 ∨ readQueue s n = none → exec (.queueEnable q) s = .next refused) ∧
      (x.state ≠ 1 → exec (.queueHalt q) s = .next refused) ∧
      (x.state ≠ 2 → exec (.queueResume q) s = .next refused) ∧
      (x.state = 0 → exec (.queueDisable q) s = .next refused) ∧
      (∀ y, x.state = 0 → readQueue s n = some y → ∃ t, exec (.queueEnable q) s = .next t ∧ t.queue n = y ∧ y.state = 1 ∧
        (∀ k, k ≠ n → t.queue k = s.queue k) ∧ fld t 0 R.HUB_QUEUE_STATUS_RESULT = 0 ∧ SameMemory s t) ∧
      (x.state = 1 → ∃ t, exec (.queueHalt q) s = .next t ∧ (t.queue n).state = 2 ∧ (t.queue n).haltStatus = 0x0F ∧
        (t.queue n).fetched = none ∧ (x.kind = 0 → ∀ cid c, t.cmd? cid = some c → c.queue = q → c.st ≠ .accepted)) ∧
      (x.state = 2 → x.disabling = false → x.heldBell = none → ∃ t, exec (.queueResume q) s = .next t ∧
        (t.queue n).state = 1 ∧ (∀ k, k ≠ n → t.queue k = s.queue k) ∧ SameMemory s t) ∧
      (x.state = 1 ∨ x.state = 2 → x.disabling = false → x.kind = 0 → ∃ t, exec (.queueDisable q) s = .next t ∧
        (t.queue n).disabling = true ∧ (t.queue n).state = 2 ∧ fld t 0 R.HUB_QUEUE_STATUS_BUSY = 1) ∧
      (∃ t, exec (.queueQuery q) s = .next t ∧ t.qs = s.qs ∧ SameMemory s t ∧
        (x.state < 4 → fld t 0 R.HUB_QUEUE_STATE_STATE = x.state) ∧
        fld t 0 R.HUB_QUEUE_STATE_HALT_STATUS = x.haltStatus.toNat ∧
        (x.logSize ≤ 24 → x.pos < 2 * x.size → fld t 0 R.HUB_QUEUE_STATE_INDEX = x.pos % x.size ∧
          fld t 0 R.HUB_QUEUE_STATE_PHASE = x.pos / x.size))) ∧
    (x.disabling = true → x.opened = 0 → ∃ t, exec (.queueDisableDone q) s = .next t ∧ (t.queue n).state = 0 ∧
      fld t 0 R.HUB_QUEUE_STATUS_BUSY = 0 ∧ SameMemory s t) ∧
    (x.disabling = false → exec (.queueDisableDone q) s = .next s)

/-- R348 to R356: a doorbell of the queue's own context that names a position in its range moves the submission queue's
bell; a fetch reads the slot at the fetch position from its ring; a torn slot is read again; a fetched command with room
for its completion is accepted, journalled and numbered; a handed-off one is started. -/
def Obligations.CommandsAreFetchedAcceptedAndStarted : Prop :=
  ∀ (s : State) (q : BitVec 18),
    let n := q.toNat
    let x := s.queue n
    (∀ (ctx : BitVec 16) (val : W64) (src : Nat), src < 2 ^ 42 → moduleStopped s = false →
      s.net.find? (fun m => match m with | .doorbell a b c _ => a == q && b == ctx && c == val | _ => false)
        = some (.doorbell q ctx val src) →
      (x.state ≠ 0 → ctx = x.ctx → x.kind = 0 → bellBad x val.toNat = false → ∃ t, exec (.doorbell q ctx val) s = .next t ∧
        t.queue n = { x with bell := bits val.toNat 23 0 + (if bitAt val.toNat 24 then x.size else 0) } ∧
        t.net = s.net.erase (.doorbell q ctx val src) ∧ SameMemory s t ∧ SameRegs s t) ∧
      (ctx = x.ctx → bellBad x val.toNat = true → exec (.doorbell q ctx val) s =
        .next (bumpErr (recv s (.doorbell q ctx val src)) 0 R.HUB_QUEUE_ERR_DB_DROPPED))) ∧
    (x.state = 1 → x.kind = 0 → x.fetched = none → x.rereads = none → x.gap x.pos x.bell ≠ 0 → x.ringBusy = false →
      x.ring < hostBase → x.ctx = 0 →
      ∀ b, cohRead (claimCacheFill s (slotAddr x 0)) (slotAddr x 0) 64 = (b, false) → fetchCheck x b = .cmd 1 →
        ∃ t, exec (.queueFetch q) s = .next t ∧ (t.queue n).fetched = some ⟨b, 1⟩ ∧ SameMemory s t ∧ SameRegs s t) ∧
    (∀ k, x.state = 1 → x.rereads = some k → k < 63 → x.ringBusy = false → x.ring < hostBase → x.ctx = 0 →
      ∀ b e f, cohRead (claimCacheFill s (slotAddr x 0)) (slotAddr x 0) 64 = (b, false) → fetchCheck x b = .torn e f →
        ∃ t, exec (.tornReread q) s = .next t ∧ (t.queue n).rereads = some (k + 1) ∧ (t.queue n).state = 1 ∧ SameMemory s t) ∧
    (∀ (time : W64) (f : Fetched), x.state = 1 → x.fetched = some f → f.slots = 1 → moduleStopped s = false →
      acceptOk (setTime s time) x f = true → x.link.toNat ≠ n → cmdMalformed f.bytes f.slots = false → boundTo s q = none →
      ∃ t c, exec (.commandAccept q time) s = .next t ∧ t.cmd? s.qs.nextCid = some c ∧ t.qs.nextCid = s.qs.nextCid + 1 ∧
        c.queue = q ∧ c.index = x.pos % x.size ∧ c.st = .accepted ∧ c.ctx = x.ctx ∧ c.acceptedAt = (setTime s time).time ∧
        (t.queue n).pos = (x.pos + 1) % (2 * x.size) ∧ (t.queue n).fetched = none ∧ (t.queue n).opened = x.opened + 1 ∧
        (t.queue x.link.toNat).opened = (s.queue x.link.toNat).opened + 1) ∧
    (∀ (time : W64) (cid : Nat) (c : Cmd), nextHandoff s n = some (cid, c) → tget? s.qs.cmds cid = some c → c.kind ≠ 5 →
      journalAcked s c = true → fenceMet s cid c = true →
      ((s.ctx? c.ctx).isSome → ∃ t c', exec (.commandHandoff q time) s = .next t ∧ t.cmd? cid = some c' ∧ c'.st = .started ∧
        c'.body = c.body) ∧
      (s.ctx? c.ctx = none → ∃ t c', exec (.commandHandoff q time) s = .next t ∧ t.cmd? cid = some c' ∧
        c'.st = .ended 0x04))

/-- R359 to R368: a NOP ends with 0; a COPY with a good body joins the next engine in service of its bank and its engine
ends it when all its bytes have moved; a completion leaves its queue's list and is written once its record is acknowledged; JOURNAL_HEAD
follows the acknowledgements in order; an event is written into its queue, or counted as lost when the ring is full; the
NOTIFY window sends what has become due. -/
def Obligations.CommandsEndAndArePosted : Prop :=
  ∀ (s : State),
    (∀ cid c, runnable s cid 1 = some c → ∃ t c', exec (.nopCommand cid) s = .next t ∧ t.cmd? cid = some c' ∧
      c'.st = .ended 0) ∧
    (∀ cid c e, runnable s cid 7 = some c → c.running = false → bodyBits c 16 63 38 = 0 → (∀ b ∈ c.body.drop 24, b = 0) →
      bodyBits c 16 36 0 ≠ 0 → bodyBits c 16 36 0 ≤ 2 ^ 36 →
      (copyEngine s c = some e → ∃ t, exec (.copy cid) s = .next t ∧ t.cmd? cid = some { c with running := true } ∧
        tget t.qs.engines e [] = tget s.qs.engines e [] ++ [cid] ∧ SameMemory s t ∧ SameRegs s t) ∧
      (copyEngine s c = none → ∃ t c', exec (.copy cid) s = .next t ∧ t.cmd? cid = some c' ∧ c'.st = .ended 0x0B)) ∧
    (∀ (eng : Fin 16) cid rest c, tget s.qs.engines eng [] = cid :: rest → s.cmd? cid = some c → c.st = .started →
      c.stopped = none → c.progress = bodyBits c 16 36 0 → c.windowWrites = 0 →
      ∃ t c', exec (.copyEngineComplete eng) s = .next t ∧ t.cmd? cid = some c' ∧
        c'.st = .ended (if c.poisoned then 0x06 else 0) ∧ tget t.qs.engines eng [] = rest) ∧
    (∀ cid (time : W64) c st, s.cmd? cid = some c → c.st = .ended st → c.windowWrites = 0 → journalAcked s c = true →
      c.after = none →
      let cq := (s.queue c.queue.toNat).link.toNat
      let y := s.queue cq
      (y.state = 0 → ∃ t, exec (.completionPost cid time) s = .next t ∧ t.cmd? cid = none ∧
        (t.queue cq).opened = y.opened - 1 ∧ SameMemory s t) ∧
      (y.state ≠ 0 → y.armed = false → y.ctx = 0 → isMem (slotAddr y 0) = true → ∃ t, exec (.completionPost cid time) s = .next t ∧
        t.cmd? cid = none ∧ (t.queue cq).opened = y.opened - 1 ∧ (t.queue cq).pos = (y.pos + 1) % (2 * y.size))) ∧
    (∀ (n : W64) rest, s.qs.jflight = (n.toNat, false) :: rest → (∀ r ∈ rest, r.2 = false ∧ r.1 ≠ n.toNat) → s.qs.jwait = [] →
      ∃ t, exec (.journalRecordAck n) s = .next t ∧ fld t 0 R.HUB_JOURNAL_HEAD_HEAD = n.toNat ∧ t.qs.jflight = rest ∧
        SameMemory s t) ∧
    (∀ (q : BitVec 18) (time : W64) (e : EventRec), s.qs.events.find? (fun e => e.queue.toNat == q.toNat) = some e →
      let y := s.queue q.toNat
      (y.state = 0 ∨ y.kind ≠ 2 → ∃ t, exec (.eventPost q time) s = .next t ∧ t.qs.events = s.qs.events.erase e ∧
        t.queue q.toNat = y ∧ SameMemory s t ∧ SameRegs s t) ∧
      (y.state ≠ 0 → y.kind = 2 → y.size ≤ y.gap y.bell y.pos + 1 → ∃ t, exec (.eventPost q time) s = .next t ∧
        t.queue q.toNat = { y with lost := min 0xFFFF (y.lost + 1) } ∧ SameMemory s t ∧ SameRegs s t) ∧
      (y.state ≠ 0 → y.kind = 2 → y.gap y.bell y.pos + 1 < y.size → y.hport = 0 → y.ctx = 0 → isMem (slotAddr y 0) = true →
        ∃ t, exec (.eventPost q time) s = .next t ∧ t.qs.events = s.qs.events.erase e ∧
          (t.queue q.toNat).pos = (y.pos + 1) % (2 * y.size))) ∧
    (∀ q : BitVec 18, (s.queue q.toNat).window = true →
      ((s.queue q.toNat).due = false → ∃ t, exec (.notifyWindowExpiry q) s = .next t ∧
        t.queue q.toNat = { s.queue q.toNat with window := false } ∧ SameMemory s t ∧ SameRegs s t) ∧
      ((s.queue q.toNat).due = true → portUp s ((s.queue q.toNat).hport - 1) = false →
        ∃ t, exec (.notifyWindowExpiry q) s = .next t ∧ (t.queue q.toNat).held = true ∧ SameMemory s t ∧ SameRegs s t))

/-! ## The fabric (chapter 13) -/

/-- R372 to R376, R380, R511: ports and peers. Enabling a port with its module present starts its training, a port whose link
comes up is up and one whose link goes down trains again; a PAUSE is counted; an ARP or ND request for this module's address
is answered; a module present again is surveyed; a good peer entry is loaded under a new session number, a bad one is refused
with 0x0F, and an unloaded peer is gone. -/
def Obligations.FabricPortsComeUpAndPeersAreLoaded : Prop :=
  ∀ (s : State), s.fab.tx = [] →
    (∀ (p : Fin 8) (b : Bool),
      let lp := 2 * p.val + b2n b
      let f := if b then R.FAB_PORT_CFG_ENABLE_B else R.FAB_PORT_CFG_ENABLE_A
      lpExists s lp = true →
      (lpState s lp = 0 → cagePresent s p = true → ∃ t, exec (.fabPortEnable p b true) s = .next t ∧ lpState t lp = 1 ∧
        fldAt t (11 + p / 4) f (p % 4) = 1 ∧ SameMemory s t) ∧
      (∃ t, exec (.fabPortEnable p b false) s = .next t ∧ lpState t lp = 0 ∧ fldAt t (11 + p / 4) f (p % 4) = 0 ∧
        SameMemory s t)) ∧
    (∀ lp : Fin 16, lpExists s lp = true → lpEnabled s lp = true →
      (lpState s lp = 1 → ∃ t, exec (.fabPortLinkChange lp true) s = .next t ∧ lpState t lp = 2 ∧ SameMemory s t) ∧
      (lpState s lp = 2 → ∃ t, exec (.fabPortLinkChange lp false) s = .next t ∧ lpState t lp = 1 ∧ SameMemory s t)) ∧
    (∀ p : Fin 8, ∃ t, exec (.fabPauseRx p) s = .next t ∧ OnlyRegs s t ∧
      fldAt t (11 + p / 4) R.FAB_PORT_STAT_PAUSE_RX (p % 4) =
        min 0xFFFF (fldAt s (11 + p / 4) R.FAB_PORT_STAT_PAUSE_RX (p % 4) + 1)) ∧
    (∀ (lp : Fin 16) (addr : BitVec 128) (me : Nat) (e : Peer), selfPeer s = some me → s.peer? me = some e →
      (bitAt e.ports lp = true → lpUp s lp = true → e.addr = addr → exec (.fabArpNdRequest lp addr) s =
        .next (putFrame s (.answer lp addr))) ∧
      (e.addr ≠ addr → exec (.fabArpNdRequest lp addr) s = .next s)) ∧
    (∀ p : Fin 8, ∃ t, exec (.fabModulePresent p) s = .next t ∧ SameMemory s t ∧ cagePresent t p = true ∧
      (lpEnabled s (2 * p) = true → lpState s (2 * p) = 0 → lpState t (2 * p) = 1)) ∧
    (∀ (p : BitVec 8), fld s 11 R.FAB_PEER_STATUS_BUSY = 0 →
      (readPeer s p.toNat = none → exec (.peerLoad p) s = .next (setFld s 11 R.FAB_PEER_STATUS_RESULT 0x0F)) ∧
      (∀ e, readPeer s p.toNat = some e → (s.peer? p.toNat).isSome →
        exec (.peerLoad p) s = .next (setFld s 11 R.FAB_PEER_STATUS_RESULT 0x0F)) ∧
      (∀ e, readPeer s p.toNat = some e → s.peer? p.toNat = none → e.direct = true ∨ e.self = true → e.secure = false →
        e.compress = false → ∃ t, exec (.peerLoad p) s = .next t ∧ SameMemory s t ∧ t.peer? p.toNat = some e ∧
          fld t 11 R.FAB_PEER_STATUS_RESULT = 0 ∧
          tget t.fab.sessions p.toNat 0 = (tget s.fab.sessions p.toNat 0 + 1) % 65536 ∧
          (∀ q, q ≠ p.toNat → t.peer? q = s.peer? q)) ∧
      (s.fab.reads = [] → s.fab.sets = [] → s.qs.cmds = [] → ∃ t, exec (.peerUnload p) s = .next t ∧ SameMemory s t ∧
        t.peer? p.toNat = none ∧ (∀ q, q ≠ p.toNat → t.peer? q = s.peer? q)))

/-- R378 to R382: packets of the transport. A packet not yet received is performed once and waits for its report; a refused
write leaves memory alone; a session makes the sender's flows new; a performed packet advances ACK_PSN; an ACK carries it
and takes the acknowledged packets off the sender; a timeout sends a packet again and halves the window; an abandoned flow
ends its operations. -/
def Obligations.TransportPacketsArePerformedAndAcknowledged : Prop :=
  ∀ (s : State) (h : KftHdr) (b : List Byte) (p : Nat),
    let f := h.flow.toNat
    let x := s.rx p f
    let took := fun (u : State) (st : Byte) =>
      rxCount (modRx u p f fun x => { x with pend := x.pend ++ [(h.psn, st)] }) p f h.ce
    (kftFrom s h b true = .inr p → h.ptype = 0 → kftSeen x h.psn = false → h.len.toNat = b.length →
      (∀ u, h.op = 0 → inboundCheck s p (lpDie h.lp.toNat) h.offset.toNat b.length true = some (u, 0) →
        exec (.kftDataWrite h b) s = .next (took (cohPut u h.offset.toNat b false) 0)) ∧
      (∀ u st, h.op = 0 → inboundCheck s p (lpDie h.lp.toNat) h.offset.toNat b.length true = some (u, st) → st ≠ 0 →
        exec (.kftDataWrite h b) s = .next (took u st)) ∧
      (∀ r q, h.op = 2 → tget? s.fab.reads h.opid.toNat = some r → r.peer = p → h.status = 0 → r.owner = .inl q →
        r.got + b.length < r.len → exec (.kftReadResponse h b) s = .next (took (modFab s fun y => { y with
          reads := tset y.reads h.opid.toNat { r with got := r.got + b.length, data := r.data ++ b } }) 0))) ∧
    (∀ (len : BitVec 37) u st, kftFrom s h (leBytes 8 len.toNat) true = .inr p → h.ptype = 0 → h.op = 1 →
      kftSeen x h.psn = false → inboundCheck s p (lpDie h.lp.toNat) h.offset.toNat len.toNat false = some (u, st) →
      (st ≠ 0 → exec (.kftReadRequest h len) s = .next (took u st)) ∧
      (st = 0 → len ≠ 0 → len.toNat ≤ kftMax u p → (cohRead u h.offset.toNat len.toNat).2 = false →
        exec (.kftReadRequest h len) s = .next (took (kftSend u p f {
          op := 2, offset := h.offset.toNat, opid := h.opid.toNat, data := (cohRead u h.offset.toNat len.toNat).1 }) 0))) ∧
    (kftFrom s h [] false = .inr p → h.ptype = 2 → ∃ t, exec (.kftSession h) s = .next t ∧ SameMemory s t ∧ SameRegs s t ∧
      tget? t.fab.theirs p = some h.session.toNat ∧ (∀ e ∈ t.fab.rx, e.1 / 16 ≠ p)) ∧
    (kftFrom s h [] true = .inr p → h.ptype = 1 → h.status = 0 → h.ece = false → h.ackMap = 0 → (s.tx p f).queue = [] →
      (∀ k ∈ (s.tx p f).unacked, seqReached (k.psn + 1) h.ackPsn = true ∧ k.pkt.owner = .reply) →
      ∃ t, exec (.kftAck h) s = .next t ∧ SameMemory s t ∧ SameRegs s t ∧ (t.tx p f).unacked = [] ∧
        (t.tx p f).credits = (s.tx p f).credits - (s.tx p f).unacked.length + h.credits.toNat) ∧
    (∀ (peer : BitVec 8) (psn : W32), peer.toNat = p →
      (x.pend.find? (fun e => e.1 == psn) = some (psn, 0) → ∃ t, exec (.kftInboundPerformed peer h.flow psn) s = .next t ∧
        SameMemory s t ∧ SameRegs s t ∧ (t.rx p f).pend = x.pend.erase (psn, 0) ∧ (t.rx p f).grant = x.grant + 1 ∧
        (psn = x.next → x.got = [] → (t.rx p f).next = x.next + 1)) ∧
      (x.fresh = 0 → exec (.kftAckTimer peer h.flow) s = .next s) ∧
      (∀ lp, 0 < x.fresh → flowPort s p f = some lp → ∃ t y, exec (.kftAckTimer peer h.flow) s = .next t ∧ SameMemory s t ∧
        SameRegs s t ∧ t.fab.frames = s.fab.frames ++ [.kft y []] ∧ y.ptype = 1 ∧ y.ackPsn = x.next ∧ y.ackMap = ackMap x ∧
        (t.rx p f).fresh = 0) ∧
      (∀ lp k, (s.tx p f).unacked = [k] → k.psn = psn → flowPort s p f = some lp →
        k.resends + 1 < fld s (lpDie lp) R.FAB_KFT_CFG_RETRY_MAX →
        ∃ t, exec (.kftRtoExpiry peer h.flow psn) s = .next t ∧ SameMemory s t ∧
          (t.tx p f).unacked = [{ k with resends := k.resends + 1 }] ∧ (t.tx p f).cwnd = (halve (s.tx p f)).cwnd ∧
          t.fab.frames.length = s.fab.frames.length + 1) ∧
      ((s.tx p f).unacked = [] → (s.tx p f).queue = [] → exec (.kftFlowAbandon peer h.flow) s = .next s) ∧
      ((s.tx p f).unacked ≠ [] → exec (.kftFlowAbandon peer h.flow) s = .next (flowAbandon s p f)))

/-- R386 to R389: FAB_WRITE and FAB_READ. One that breaks R388 ends with 0x0F; one whose instant has not come only begins to
run; a FAB_READ that may go asks for its bytes once; TIMED_FAB_START makes a command due; a command with nothing
outstanding and all its bytes ends. -/
def Obligations.FabricCommandsRunAndEnd : Prop :=
  ∀ (s : State) (cid : Nat) (c : Cmd),
    let ended := fun (t : State) (st : Byte) => ∃ x, t.cmd? cid = some x ∧ x.st = .ended st
    let off := bodyBits c 0x08 41 0
    let len := bodyBits c 0x10 36 0
    let peer := bodyBits c 0x08 49 42
    (runnable s cid 0x10 = some c → c.running = false →
      (fabBad c true = true → ∃ t, exec (.fabWrite cid) s = .next t ∧ ended t 0x0F) ∧
      (fabBad c true = false → fabDue s c = false → exec (.fabWrite cid) s = .next (setCmd s cid { c with running := true })) ∧
      (fabBad c true = false → fabDue s c = true → exec (.fabWrite cid) s =
        .next (fabSignal (fabMove len (setCmd s cid { c with running := true }) cid) cid))) ∧
    (runnable s cid 0x11 = some c → c.running = false →
      (fabBad c false = true → ∃ t, exec (.fabRead cid) s = .next t ∧ ended t 0x0F) ∧
      (fabBad c false = false → fabDue s c = false → exec (.fabRead cid) s = .next (setCmd s cid { c with running := true })) ∧
      (fabBad c false = false → fabDue s c = true → c.progress = 0 → c.stopped = none →
        peerOk s peer (off + len - 1) = true → ∃ t x, exec (.fabRead cid) s = .next t ∧ SameMemory s t ∧
          t.cmd? cid = some x ∧ x.progress = len ∧ x.windowWrites = c.windowWrites + 1 ∧
          tget? t.fab.reads (s.fab.nextOp % 2 ^ 24) = some {
            peer := peer, flow := bodyBits c 0x08 52 50, offset := off, len := len, owner := .inr cid })) ∧
    (∀ time, s.cmd? cid = some c → c.running = true → c.kind = 0x11 → bodyBits c 0x08 53 53 = 1 →
      let u := setTime s time
      (bodyBits c 0x18 63 0 ≤ u.time.toNat → exec (.timedFabStart cid time) s =
        .next (fabAsk (setCmd u cid { c with due := true }) cid { c with due := true })) ∧
      (u.time.toNat < bodyBits c 0x18 63 0 → exec (.timedFabStart cid time) s = .next u)) ∧
    (s.cmd? cid = some c → c.st = .started → c.running = true → c.kind = 0x11 → c.windowWrites = 0 → c.progress = len →
      len ≠ 0 → ∃ t, exec (.fabCommandComplete cid) s = .next t ∧ ended t (c.stopped.getD 0))

/-- R390 to R396: collective sets and steps. A well-formed set is registered and a malformed one refused; a release with no
step in flight removes its set; a command of each operation that keeps the step rules is accepted, with its own shard or
partial as running value where it needs one, and is refused with 0x0F otherwise; announcements are kept until T is fixed. -/
def Obligations.CollectivesAreRegisteredAndAccepted : Prop :=
  ∀ (s : State) (cid : Nat) (c : Cmd),
    let ended := fun (t : State) (st : Byte) => ∃ x, t.cmd? cid = some x ∧ x.st = .ended st
    let f := bodyBits c
    (runnable s cid 0x12 = some c →
      (f 0 13 8 + 1 < 2 ∨ f 0x18 39 0 < 65536 ∨ (tget? s.fab.sets (f 0 7 0)).isSome →
        ∃ t, exec (.collSet cid) s = .next t ∧ ended t 0x0F ∧ t.fab = s.fab) ∧
      (∀ u b l, f 0 31 14 = 0 → f 0 63 51 = 0 → f 0x18 63 40 = 0 → 2 ≤ f 0 13 8 + 1 → f 8 1 0 = 0 → f 0x10 11 0 = 0 →
        f 0x18 11 0 = 0 → 65536 ≤ f 0x18 39 0 → tget? s.fab.sets (f 0 7 0) = none →
        engRead s 11 4 c.ctx false (BitVec.ofNat 64 (f 8 63 0)) (4 * (f 0 13 8 + 1)) = some (u, .inl b) →
        collMembers b (f 0 13 8 + 1) = some l → membersOk u l = true →
        ∃ e, exec (.collSet cid) s = .next (finishCmd (modFab u fun x => { x with sets := tset x.sets (f 0 7 0) e }) cid 0) ∧
          e.ctx = c.ctx ∧ e.members = l ∧ e.landBytes = f 0x18 39 0 ∧ e.lead = f 0x20 31 0 ∧ e.window = f 0x20 63 32 ∧
          e.grace = f 0x28 31 0 ∧ e.wait = f 0x28 63 32 ∧ e.steps = [])) ∧
    (∀ e, runnable s cid 0x13 = some c → c.running = false → f 0 63 8 = 0 → (∀ x ∈ c.body.drop 8, x = 0) →
      s.fab.sets = [(f 0 7 0, e)] → e.ctx = c.ctx → e.releasing = none → inFlightSteps s e = [] →
      ∃ t, exec (.collRelease cid) s = .next t ∧ ended t 0 ∧ tget? t.fab.sets (f 0 7 0) = none) ∧
    (∀ (time : W64) (e : CollSet), runnable s cid 0x14 = some c → c.running = false →
      let u := setTime s time
      let k := collCmd c
      let ok := e.ctx = c.ctx ∧ collFieldsOk c k e.members.length = true ∧ collStepOk u e k = true
      tget? s.fab.sets k.set = some e →
      (k.opc = 0 → (ok → exec (.collBarrier cid time) s = .next (collAccept u cid c k e [])) ∧
        (¬ ok → exec (.collBarrier cid time) s = .next (finishCmd u cid 0x0F))) ∧
      (k.opc = 1 → (ok → exec (.collBroadcast cid time) s = .next (collAccept u cid c k e [])) ∧
        (¬ ok → exec (.collBroadcast cid time) s = .next (finishCmd u cid 0x0F))) ∧
      (k.opc = 2 → (ok → exec (.collAllGather cid time) s = .next (collAccept u cid c k e [])) ∧
        (¬ ok → exec (.collAllGather cid time) s = .next (finishCmd u cid 0x0F))) ∧
      (∀ v b, k.opc = 3 → ok → k.brole = false → contribution u c k e.me = some (v, .inl b) →
        exec (.collReduceScatter cid time) s = .next (collAccept v cid c k e (words32 b))) ∧
      (∀ v b, k.opc = 4 → ok → k.brole = false → e.me = k.root → contribution u c k e.me = some (v, .inl b) →
        exec (.collMergePartials cid time) s = .next (collAccept v cid c k e (words32 b))) ∧
      (k.opc = 4 → ok → k.brole = false → e.me ≠ k.root →
        exec (.collMergePartials cid time) s = .next (collAccept u cid c k e []))) ∧
    (∀ (h : KftHdr) (a time : W64) (p : Nat) (e : CollSet),
      let u := setTime s time
      let y := (tget? e.steps h.opid.toNat).getD { step := BitVec.ofNat 32 h.opid.toNat }
      h.ptype = 0 → h.op = 4 → kftFrom u h (leBytes 8 a.toNat) true = .inr p → kftSeen (u.rx p h.flow.toNat) h.psn = false →
      tget? s.fab.sets h.set.toNat = some e → collFromOk e h = true → y.fixed = false → y.anns = [] → 2 ≤ e.members.length →
      (s.rx p h.flow.toNat).fresh < 15 → ∃ t z, exec (.kftReady h a time) s = .next t ∧ SameMemory s t ∧ SameRegs s t ∧
        stepAt t h.set.toNat h.opid.toNat = some z ∧ z.2.fixed = false ∧ z.2.anns = [⟨h.member.toNat, h.backup, a⟩])

/-- R392 to R395: the instants of a step and what they do. Before S nothing is sent; when WAIT expires T is fixed from the
announcements that have come; at D, members without a complete primary may be taken from backups; 10 ms later what is
missing is replaced by NaN; a piece that comes is kept with its contribution; a command ends once its contributions are
sent and every member it uses is resolved, with the first status of the list that applies and the counts of both. -/
def Obligations.CollectiveStepsResolveEveryMember : Prop :=
  ∀ (s : State) (set : BitVec 8) (step : W32) (time : W64) (e : CollSet) (x : CollStep),
    let n := set.toNat
    let key := step.toNat % 2 ^ 24
    let u := setTime s time
    let now := u.time.toNat
    stepAt s n key = some (e, x) →
    (∀ S, x.start = some S → now < S.toNat → exec (.collSendInstant set step time) s = .next u) ∧
    (∀ S, x.start = some S → S.toNat ≤ now → x.primary = none → x.backups = [] →
      exec (.collSendInstant set step time) s = .next u) ∧
    (∀ cid c S, x.start = some S → S.toNat ≤ now → x.primary = some cid → x.backups = [] → s.cmd? cid = some c →
      (collCmd c).opc = 0 → cmdOpen s cid = true → tget s.fab.marks cid [] = [] → x.absent = false → x.stoodIn = false →
      (collCmd c).brole = false →
      ∃ t y, exec (.collSendInstant set step time) s = .next t ∧ t.cmd? cid = some y ∧ y.st = .ended 0) ∧
    (∀ a0, x.anns = [a0] → x.fixed = false → now < a0.a.toNat + e.wait → exec (.collWaitExpiry set step time) s = .next u) ∧
    (∀ a0, x.anns = [a0] → x.fixed = false → a0.a.toNat + e.wait ≤ now → x.primary = none → x.backups = [] →
      a0.member < e.members.length → a0.backup = false →
      ∃ t z, exec (.collWaitExpiry set step time) s = .next t ∧ SameMemory s t ∧ stepAt t n key = some z ∧
        z.2.fixed = true ∧ z.2.start = some (BitVec.ofNat 64 (max now a0.a.toNat)) ∧
        z.2.absent = decide (1 < e.members.length)) ∧
    (∀ d, x.deadline e = some d → now < d → exec (.collDeadline set step time) s = .next u) ∧
    (∀ d, x.deadline e = some d → d ≤ now → x.late = false → x.primary = none →
      ∃ t z, exec (.collDeadline set step time) s = .next t ∧ SameMemory s t ∧ SameRegs s t ∧ stepAt t n key = some z ∧
        z.2 = { x with late := true }) ∧
    (∀ d cid c, x.deadline e = some d → x.late = true → x.primary = some cid → s.cmd? cid = some c →
      (now < d + 10000000 → exec (.collMissingTimeout set step time) s = .next u) ∧
      (d + 10000000 ≤ now → exec (.collMissingTimeout set step time) s = .next (setStep u n key
        (((sendersOf e (collCmd c)).filter fun m => (tget? x.taken m).isNone).foldl
          (fun x m => { combineMissing (collCmd c) m x with taken := tset x.taken m .missing }) x)))) ∧
    (∀ (h : KftHdr) (b : List Byte) (p : Nat) (v : State), h.ptype = 0 → h.op = 3 → h.len.toNat = b.length →
      h.set = set → h.opid.toNat = key → kftFrom u h b true = .inr p → kftSeen (u.rx p h.flow.toNat) h.psn = false →
      collFromOk e h = true → x.primary = none → x.start = none → x.first.isSome →
      (let ofs := Config.landPlace n key h.member.toNat h.backup h.offset.toNat % (e.landBytes / 4096) * 4096
       engWrite u 11 4 (2 ^ 64) e.ctx true (e.land + BitVec.ofNat 64 ofs) b = some (v, none)) → v.fab = u.fab →
      ∃ t z, exec (.kftCollData h b time) s = .next t ∧ stepAt t n key = some z ∧
        z.2 = landPiece x h.member.toNat h.backup h.offset.toNat b) ∧
    (∀ cid c, collOf s cid = some (n, key) → s.cmd? cid = some c → c.st = .started → (collCmd c).brole = true →
      cid ∈ x.sent → c.windowWrites = 0 → e.releasing = none →
      ∃ t y, exec (.collComplete cid) s = .next t ∧ t.cmd? cid = some y ∧ y.info = 0 ∧
        y.st = .ended (collStatus (tget s.fab.marks cid [])))

/-! ## Time (chapter 13), the Ridge network and the arbiters (chapter 14) -/

/-- R383 to R386, R508: Alpenglow time. A PTP message measures OFFSET and steps time forward when it is behind by more than
STEP_US, or before the first lock by anything; time never goes back; 16 s below 100 ns lock it; 4 s without a message after a
lock are holdover; an edge of 1PPS is the nearest whole second, and 2 s without one end its use. -/
def Obligations.AlpenglowTimeFollowsPtpAndOnePps : Prop :=
  ∀ (s : State), s.kernels = [] → s.qs.cmds = [] → s.fab.sets = [] → s.pwr.dies = [] →
    (∀ m : PtpMsg, ppsInUse s = false →
      let behind := m.ptp.toNat - s.time.toNat
      let stepped := decide (0 < behind) && (agState s == 0 || decide (fld s 0 R.HUB_AG_CFG_STEP_US * 1000 < behind))
      ∃ t, exec (.ptpMessage m) s = .next t ∧ SameMemory s t ∧ t.time = (if stepped then m.ptp else s.time) ∧
        agState t = (if m.steady ∧ (m.ptp.toInt - s.time.toInt).natAbs < 100 ∧ agState s ≠ 0 then 2 else 1) ∧
        fld t 0 R.HUB_AG_STATUS_PORT = m.port.toNat ∧ fld t 0 R.HUB_AG_STATUS_OFFSET = (s.time - m.ptp).toNat % 2 ^ 32 ∧
        (stepped = true → fld t 0 R.HUB_AG_STATUS_STEPPED = 1)) ∧
    (∀ w : W64,
      let now := if s.time ≤ w then w else s.time
      (agState s = 2 → ∃ t, exec (.agHoldoverTimeout w) s = .next t ∧ SameMemory s t ∧ t.time = now ∧ agState t = 3 ∧
        fld t 0 R.HUB_AG_STATUS_LOST = 1) ∧
      (agState s ≠ 2 → exec (.agHoldoverTimeout w) s = .next { s with time := now }) ∧
      (fld s 0 R.HUB_AG_CFG_PPS_EN = 0 → exec (.ppsEdge w) s = .next { s with time := now }) ∧
      (fld s 0 R.HUB_AG_CFG_PPS_EN = 1 → ∃ t, exec (.ppsEdge w) s = .next t ∧ SameMemory s t ∧ now ≤ t.time ∧
        agState t = agState s ∧ t.fab.ppsLast = some now ∧
        (s.fab.ppsLost = false → t.fab.ppsLost = false ∧
          (agState s ≠ 0 → fld t 0 R.HUB_AG_STATUS_OFFSET =
            (now - BitVec.ofNat 64 (nearestSecond now.toNat)).toNat % 2 ^ 32)) ∧
        (∀ l f, s.fab.ppsLost = true → s.fab.ppsLast = some l → s.fab.ppsFirst = some f →
          now.toNat < l.toNat + 2000000000 → f.toNat + 16000000000 ≤ now.toNat → t.fab.ppsLost = false)) ∧
      (∀ l, s.fab.ppsLast = some l → l.toNat + 2000000000 ≤ now.toNat →
        ∃ t, exec (.ppsLossTimeout w) s = .next t ∧ SameMemory s t ∧ SameRegs s t ∧ ppsInUse t = false ∧ t.time = now))

/-- R399 to R402, R405, R406, R410: a Ridge module accepts the frame that is next in its sequence and sends it on by its
stream's route, or delivers it at its last hop; it discards a bad frame and asks again from there; frames not acknowledged
are sent again in order, a frame sent again 8 times retrains the module, a third failed retrain in a row retires it, and a
retired module is out of service at both its ends. -/
def Obligations.RidgeModulesDeliverFramesInOrder : Prop :=
  ∀ (s : State) (d : Fin 32) (m : Fin 64), ridgeUp s d m = true →
    let x := s.rmod d m
    let k := ridgeKey d m
    (x.retraining = false → ∀ (f : FrameHdr) (b : BitVec 1920),
      let fr : RFrame := { stream := f.stream.toNat, cls := f.cls.toNat, hop := f.hop.toNat, first := f.first, last := f.last,
                           payload := b }
      (f.crcOk = true → f.cls.toNat < 6 → f.seq.toNat = (x.rxSeq + 1) % 1024 →
        ∃ t, exec (.ridgeFrameReceive d m f b) s = .next t ∧ SameMemory s t ∧ SameRegs s t ∧
          (t.rmod d m).rxSeq = f.seq.toNat ∧ (t.rmod d m).discard = false ∧ (t.rmod d m).ackDue = true ∧
          (∀ r, tget? s.ridge.routes f.stream.toNat = some r →
            (∀ n, r.mods[f.hop.toNat]? = some n → ∃ g, (t.rmod d n).outq = (s.rmod d n).outq ++ [g] ∧
              g = { fr with hop := f.hop.toNat + 1, origin := g.origin }) ∧
            (r.mods[f.hop.toNat]? = none →
              tget t.ridge.delivered f.stream.toNat [] = tget s.ridge.delivered f.stream.toNat [] ++ [fr]))) ∧
      (f.crcOk = false ∨ f.cls = 7 → exec (.ridgeFrameReceive d m f b) s =
        .next (modRmod s k fun y => { y with discard := true, nakDue := true })) ∧
      (f.crcOk = true → f.cls = 6 → exec (.ridgeFrameReceive d m f b) s = .next (modRmod s k fun y => ridgeAcks y f)) ∧
      (f.crcOk = true → f.cls.toNat < 6 → f.seq.toNat ≠ (x.rxSeq + 1) % 1024 → x.discard = true →
        exec (.ridgeFrameReceive d m f b) s = .next s)) ∧
    (x.retraining = false → ∀ a : BitVec 10,
      let kept := x.replay.filter fun r => !decide ((a.toNat + 1024 - r.seq) % 1024 < 512)
      ∃ t, exec (.ridgeNakResend d m a) s = .next t ∧ SameMemory s t ∧ SameRegs s t ∧
        (t.rmod d m).replay = kept.map (fun r => { r with resends := r.resends + 1 }) ∧
        ((t.rmod d m).wire.drop x.wire.length).map Prod.snd = kept.map (·.payload) ∧
        ((t.rmod d m).retraining = true ↔ ∃ r ∈ kept, 7 ≤ r.resends)) ∧
    (exec (.ridgeRetrain d m true) s = .next (modRmod s k fun y =>
      { y with retraining := false, fails := 0, replay := y.replay.map fun r => { r with resends := 0 } })) ∧
    (x.fails < 2 → exec (.ridgeRetrain d m false) s =
      .next (modRmod s k fun y => { y with retraining := true, fails := y.fails + 1 })) ∧
    (∀ e n, ridgeFar d m = some (e, n) → s.ridge.routes = [] → s.svc.tests = [] → s.svc.cairn = [] →
      fld s 0 R.HUB_REL_QUEUE_VALID = 0 →
      (∃ t, exec (.ridgeModuleRetire d m) s = .next t ∧ SameMemory s t ∧ ridgeUp t d m = false ∧ ridgeUp t e n = false ∧
        (∀ d' m', m' < 64 → (d', m') ≠ (d.val, m.val) → (d', m') ≠ (e, n) → ridgeUp t d' m' = ridgeUp s d' m')) ∧
      (2 ≤ x.fails → ∃ t, exec (.ridgeRetrain d m false) s = .next t ∧ SameMemory s t ∧ ridgeUp t d m = false ∧
        ridgeUp t e n = false))

/-- R410, R413 to R419: grant decisions. A free resource goes to the request that waits; a holder outside a locked sequence
loses it to a request of higher rank and keeps a record, a locked one keeps it; a module sends the frame that has a credit,
with the next sequence; the watchdog of a locked self-test ends the test. -/
def Obligations.ArbitersGrantAndPreemptByRank : Prop :=
  ∀ (s : State) (d : Fin 32), dieUp s d = true →
    (∀ (a : Nat) (w : ArbReq), 64 ≤ a → a ≠ 192 → (s.arb d a).queue = [w] → (s.arb d a).records = [] →
      ((s.arb d a).holder = none → ∃ t, exec (.arbGrant d a) s = .next t ∧ SameMemory s t ∧ SameRegs s t ∧
        (t.arb d a).holder = some w ∧ (t.arb d a).queue = [] ∧ (t.arb d a).last = w.input) ∧
      (∀ h, (s.arb d a).holder = some h → (s.arb d a).locked = true → exec (.arbGrant d a) s = .next s) ∧
      (∀ h, (s.arb d a).holder = some h → (s.arb d a).locked = false → effRank s d a h < effRank s d a w →
        0 < arbRecords d a → ∃ t, exec (.arbGrant d a) s = .next t ∧ SameMemory s t ∧ (t.arb d a).holder = some w ∧
          (t.arb d a).queue = [] ∧ (t.arb d a).records = [h])) ∧
    (∀ (m : Fin 64) (f : RFrame), ridgeUp s d m = true → (s.rmod d m).retraining = false → (s.arb d m).holder = none →
      (s.arb d m).queue = [] → (s.rmod d m).outq = [f] → f.origin = none → f.cls < 6 → ridgeCredit s d m f = true →
      (s.rmod d m).replay.length < 256 →
      ∃ t h, exec (.arbGrant d m) s = .next t ∧ SameMemory s t ∧ SameRegs s t ∧ (t.rmod d m).outq = [] ∧
        (t.rmod d m).wire = (s.rmod d m).wire ++ [(h, f.payload)] ∧ h.seq.toNat = ((s.rmod d m).txSeq + 1) % 1024 ∧
        (t.rmod d m).replay = (s.rmod d m).replay ++ [{ f with seq := ((s.rmod d m).txSeq + 1) % 1024 }]) ∧
    (∀ (a : Nat) (h : ArbReq) (i : Nat) (x : SelfTest), a ≠ 192 → (s.arb d a).holder = some h → testArb (numRid h.id) = some (d.val, a, i) →
      h.input = i → ridNum (numRid h.id) = h.id → s.svc.tests = [x] → x.rid = numRid h.id →
      fld s 0 R.HUB_REL_QUEUE_VALID = 0 →
      ∃ t, exec (.lockWatchdogExpiry d a) s = .next t ∧ SameMemory s t ∧ t.svc.tests = [] ∧ (t.arb d a).locked = false ∧
        fld t d R.ARB_ERR_WATCHDOG = min 0xFFFF (fld s d R.ARB_ERR_WATCHDOG + 1))

/-! ## The Col gate (chapter 14) -/

/-- R422 to R425, R427: requests of a guest. A request that no window allows, or with a cacheable or reserved operation, is
refused with 0x0A and recorded as a violation; one that a window allows is performed in that window's context, is answered
when its answer returns, and waits while its site's bucket holds too few tokens.

R426 to R429: requests to a guest. One of an admitted context is forwarded, one of another is refused with 0x0A; the gate
answers its own registers; the guest's answer goes to the requester, and one that does not come in time is answered with 0x0C;
a killed guest's site is out of service, what waits for it is answered, and its queues are empty. -/
def Obligations.ColGatePolicesGuests : Prop :=
  (
  ∀ (s : State) (g : Fin 2) (h : GuestHdr) (dat : Line), dieUp s (14 + g) = true → siteKilled s g = false →
    let refused := fun (t : State) => SameMemory s t ∧ (t.site g).answers = (s.site g).answers ++ [(h.tag, 0x0A, none)] ∧
      (t.site g).reqs = (s.site g).reqs ∧
      fldAt t 0 R.HUB_COL_CTL_VIOLATIONS g = min 0xFFFF (fldAt s 0 R.HUB_COL_CTL_VIOLATIONS g + 1) ∧
      (fldAt s 0 R.HUB_COL_VADDR_VALID g = 0 → fldAt t 0 R.HUB_COL_VADDR_VALID g = 1 ∧
        fldAt t 0 R.HUB_COL_VADDR_INBOUND g = 0 ∧ fldAt t 0 R.HUB_COL_VADDR_ADDR g = h.addr.toNat)
    let row := fun (c : Instr) (op : BitVec 4) (d : Line) =>
      (∀ n, guestCheck s g { h with op := op } = .inl n → ∃ t, exec c s = .next t ∧ refused t) ∧
      (∀ ctx u st a, guestCheck s g { h with op := op } = .inr ctx → fldAt s 0 R.HUB_COL_RATE_RATE g = 0 →
        (s.site g).reqs = [] →
        let r : GuestReq := { hdr := { h with op := op }, ctx := ctx, data := d }
        guestDo (fillSite (modSite s g fun x => { x with reqs := [r] }) g) g r = some (u, st, a) →
        exec c s = .next (modSite u g fun x => { x with reqs := [{ r with st := .done st a }] }))
    row (.guestRead g h) 1 0 ∧ row (.guestWriteLine g h dat) 2 dat ∧ row (.guestWritePart g h dat) 3 dat ∧
    (h.op = 0 ∨ 4 ≤ h.op.toNat → ∃ t, exec (.guestCacheableRequest g h) s = .next t ∧ refused t ∧
      (fldAt s 0 R.HUB_COL_VADDR_VALID g = 0 → fldAt t 0 R.HUB_COL_VADDR_CAUSE g = 0)) ∧
    (∀ (w : W64) (r : GuestReq),
      let now := if s.time ≤ w then w else s.time
      let c := s.site g
      let full := min (fldAt s 0 R.HUB_COL_RATE_BURST g * 4096)
        (c.bucket + (now.toNat - c.filled.toNat) * fldAt s 0 R.HUB_COL_RATE_RATE g)
      (c.reqs = [] → exec (.colRateRelease g w) s =
        .next (modSite { s with time := now } g fun x => { x with bucket := full, filled := now })) ∧
      (c.reqs = [r] → r.st = .waiting → fldAt s 0 R.HUB_COL_RATE_RATE g ≠ 0 → full < 256 →
        exec (.colRateRelease g w) s = .next (modSite { s with time := now } g fun x => { x with bucket := full, filled := now }))) ∧
    (∀ (r : GuestReq) (st : Byte) (a : Line), (s.site g).reqs = [r] → r.hdr.tag = h.tag → r.st = .done st a →
      ∃ t, exec (.colAnswerReturn g h.tag) s = .next t ∧ SameMemory s t ∧ SameRegs s t ∧ (t.site g).reqs = [] ∧
        (t.site g).answers = (s.site g).answers ++ [(h.tag, st, if r.hdr.op = 1 ∧ (st = 0 ∨ st = 0x06) then some a else none)])
  ) ∧
  (
  ∀ (s : State) (g : Fin 2), dieUp s (14 + g) = true →
    (∀ (ctx : BitVec 16) (off : BitVec 28) (w : Nat) (v : Option W64), gateAnswers off.toNat = false →
      (admitted s g ctx = true → ∃ t, exec (.colInboundRequest g ctx off w v) s = .next t ∧ SameMemory s t ∧ SameRegs s t ∧
        (t.site g).inbound = (s.site g).inbound ++ [⟨(s.site g).nextId, ctx, off.toNat, w, v⟩] ∧
        (t.site g).nextId = (s.site g).nextId + 1) ∧
      (admitted s g ctx = false → ∃ t, exec (.colInboundRequest g ctx off w v) s = .next t ∧ SameMemory s t ∧
        (t.site g).inbound = (s.site g).inbound ∧ (t.site g).replies = (s.site g).replies ++ [⟨off.toNat, none, 0x0A⟩] ∧
        fldAt t 0 R.HUB_COL_CTL_VIOLATIONS g = min 0xFFFF (fldAt s 0 R.HUB_COL_CTL_VIOLATIONS g + 1))) ∧
    (∀ (ctx : BitVec 16) (off : BitVec 28) (w : Nat), gateAnswers off.toNat = true →
      exec (.colInboundRequest g ctx off w none) s = .next (modSite s g fun c => { c with
        replies := c.replies ++ [⟨off.toNat, some (BitVec.ofNat 64 (regRead s (14 + g) off.toNat w)), 0⟩] }) ∧
      ∀ v : W64, let u := commitTrigger (regPut s (14 + g) off.toNat w v.toNat 0) (14 + g) off.toNat w v.toNat
        dieUp u (14 + g) = true → exec (.colInboundRequest g ctx off w (some v)) s =
          .next (modSite u g fun c => { c with replies := c.replies ++ [⟨off.toNat, none, 0⟩] })) ∧
    (∀ r : GuestIn, (s.site g).inbound = [r] →
      (∀ (d : W64) (st : BitVec 8), ∃ t, exec (.guestAnswer g r.id d st) s = .next t ∧ SameMemory s t ∧ SameRegs s t ∧
        (t.site g).inbound = [] ∧
        (t.site g).replies = (s.site g).replies ++ [⟨r.off, if r.write.isSome then none else some d, st⟩]) ∧
      (∃ t, exec (.colGuestTimeout g r.id) s = .next t ∧ SameMemory s t ∧ (t.site g).inbound = [] ∧
        (t.site g).replies = (s.site g).replies ++ [⟨r.off, none, 0x0C⟩])) ∧
    (siteKilled s g = true → exec (.colKill g) s = .next s ∧ exec (.guestLinkFault g) s = .next s) ∧
    (siteKilled s g = false → exec (.guestLinkFault g) s = exec (.colKill g) s ∧
      ∃ t, exec (.colKill g) s = .next t ∧ SameMemory s t ∧ siteKilled t g = true ∧ dieUp t (14 + g) = false ∧
        (∀ d, d ≠ 14 + g.val → d < 32 → dieUp t d = dieUp s d) ∧ (t.site g).reqs = [] ∧ (t.site g).inbound = [] ∧
        (t.site g).bucket = 0 ∧
        (t.site g).replies = (s.site g).replies ++ (s.site g).inbound.map fun r => ⟨r.off, none, 0x0B⟩)
  )

/-! ## Power (chapter 15) -/

/-- R430 to R433, R444 to R447: measurements. Above 60 V what follows is undefined, and the model stops; a sample is shown
in HUB_PWR_INPUT and enters the effective cap; outside 38.0 to 52.0 V the rails go off; a source whose samples stop is failed
and its die is in mode 2; a domain's sample that agrees moves g by a 64th of the difference, and the 50th in a row that does
not sets g and mode 1. -/
def Obligations.MeasurementsSetCapAndEstimator : Prop :=
  ∀ (s : State),
    (∀ (v i p : BitVec 16) (b : Bool), 6000 < v.toNat →
      exec (.inputSample v i p b) s = .fault .undefinedAfterOvervoltage ∧
      exec (.inputVoltageTrip v) s = .fault .undefinedAfterOvervoltage) ∧
    (∀ v i p : BitVec 16, s.boot.powered = true → v.toNat ≤ 6000 → i.toNat < 20000 →
      ∃ t, exec (.inputSample v i p false) s = .next t ∧ SameMemory s t ∧
        fld t 0 R.HUB_PWR_INPUT_VIN = v.toNat ∧ fld t 0 R.HUB_PWR_INPUT_IIN = i.toNat ∧ fld t 0 R.HUB_PWR_INPUT_PIN = p.toNat ∧
        fld t 0 R.HUB_PWR_STATE_EFF_CAP = (effCap t / 25).floor.toNat ∧
        t.pwr.hist.head? = some (railSum s, 4 * p.toNat, v.toNat) ∧
        (p = 0 ∨ 9000 < p.toNat → 40 ∈ t.pwr.failed ∧ fld t 0 R.HUB_PWR_STATE_TLM_FAIL = 1) ∧
        (p ≠ 0 → p.toNat ≤ 9000 → 40 ∉ t.pwr.failed)) ∧
    (∀ v : BitVec 16, s.boot.powered = true → v.toNat ≤ 6000 →
      (3800 ≤ v.toNat → v.toNat ≤ 5200 → exec (.inputVoltageTrip v) s = .next s) ∧
      (v.toNat < 3800 ∨ 5200 < v.toNat → ∃ t, exec (.inputVoltageTrip v) s = .next t ∧ t.boot.powered = false ∧
        t.boot.vin = false ∧ t.regs = [] ∧ t.mem = [] ∧ t.boot.fuses = s.boot.fuses)) ∧
    (∀ x : Fin 41, s.boot.powered = true → fld s 0 R.HUB_REL_QUEUE_VALID = 0 →
      (x.val = 40 ∨ dieUp s (groupDie x) = true) →
      ∃ t, exec (.telemetryTimeout x) s = .next t ∧ SameMemory s t ∧ x.val ∈ t.pwr.failed ∧
        fld t 0 R.HUB_PWR_STATE_TLM_FAIL = 1 ∧ (x.val ≠ 40 → fld t (groupDie x) R.PWR_STATUS_MODE = 2)) ∧
    (∀ (x : Fin 40) (m e : Nat), dieUp s (groupDie x) = true → 0 < m → m ≤ railMax x →
      let d := groupDie x
      let p := s.pwrDie d
      let q : Rat := p.g * (e : Rat)
      let off : Rat := if q < (m : Rat) then (m : Rat) - q else q - (m : Rat)
      ((∃ y ∈ domainOf d, y ≠ x.val ∧ y ∉ p.got) → exec (.railTelemetrySample x m e) s = .next (modPwr s d fun p =>
        { p with meas := tset p.meas x m, got := setAdd p.got x })) ∧
      (x.val < 16 → fld s d R.PWR_STATUS_MODE = 0 → 0 < e →
        (off ≤ (0.2 : Rat) * (m : Rat) → ∃ t, exec (.railTelemetrySample x m e) s = .next t ∧ SameMemory s t ∧ SameRegs s t ∧
          (t.pwrDie d).g = p.g + ((m : Rat) / (e : Rat) - p.g) / 64 ∧ (t.pwrDie d).dis = 0 ∧ (t.pwrDie d).got = []) ∧
        ((0.2 : Rat) * (m : Rat) < off → p.dis = 49 → fld s 0 R.HUB_REL_QUEUE_VALID = 0 →
          ∃ t, exec (.railTelemetrySample x m e) s = .next t ∧ SameMemory s t ∧
            (t.pwrDie d).g = ((p.disM + m : Nat) : Rat) / ((p.disE + e : Nat) : Rat) ∧
            fld t d R.PWR_STATUS_MODE = 1)))

/-- R437 to R442: budgets. A die reports its demand, 1.1 times its highest 10 µs or its CEIL when it was limited; the grants
computed once the hub's block is locked go to the dies' slots; a grant applies at its epoch, at once when that has begun, and
LIMIT is the grant with loans; a boundary without a grant sets STALE, and ends the loans of earlier epochs.

R442, R443, R446: lending and the control loop. A die tells its neighbours whether it was limited, and lends what it can
spare to one that was; a loan of this epoch raises the borrower's LIMIT, one of an earlier epoch is void; a tick above the
limit lowers the clock one step, and one at the top of the clock under the limit leaves it. -/
def Obligations.BudgetsAreGrantedLentAndHeld : Prop :=
  (
  ∀ (s : State) (d : Fin 32) (k : Nat),
    let p := s.pwrDie d
    (dieUp s d = true → ∃ t r, exec (.powerReport d k) s = .next t ∧ SameMemory s t ∧ SameRegs s t ∧
      tget? t.pwr.reports d = some r ∧ r.k = k ∧ r.measured = p.repM ∧ r.estimated = p.repE ∧
      ((∃ x ∈ p.ticks, x.2 = true) → r.demand = ((ceilOf s d : Nat) : Rat)) ∧
      ((∀ x ∈ p.ticks, x.2 = false) → r.demand = max ((floorOf s d : Nat) : Rat) ((1.1 : Rat) * ((p.high : Nat) : Rat) / 10))) ∧
    (dieUp s 0 = true → bitAt (fld s 0 R.LOCK_STATE_LOCKED) 0 = true →
      ∃ t, exec (.grantCompute k) s = .next t ∧ SameMemory s t ∧ SameRegs s t ∧
        ∀ e ∈ computeGrants s k, tget? t.pwr.grants e.1 = some (k, e.2.floor.toNat)) ∧
    (bitAt (fld s 0 R.LOCK_STATE_LOCKED) 0 = false → exec (.grantCompute k) s = .next s) ∧
    (∀ (w : W64) (v : Nat), dieUp s d = true → tget? s.pwr.grants d = some (k, v) → v + heldOf p < 65536 →
      let now := if s.time ≤ w then w else s.time
      ∃ t, exec (.grantReceive d w) s = .next t ∧ SameMemory s t ∧ t.time = now ∧ tget? t.pwr.grants d = none ∧
        fld t d R.PWR_STATUS_STALE = 0 ∧
        (100000 * k ≤ now.toNat → fld t d R.PWR_STATUS_GRANT = v ∧ fld t d R.PWR_STATUS_LIMIT = v + heldOf p - p.lent ∧
          (t.pwrDie d).gotFor = some k) ∧
        (now.toNat < 100000 * k → (t.pwrDie d).next = some (k, v) ∧
          fld t d R.PWR_STATUS_GRANT = fld s d R.PWR_STATUS_GRANT ∧ fld t d R.PWR_STATUS_LIMIT = fld s d R.PWR_STATUS_LIMIT)) ∧
    (dieUp s d = true → fld s d R.PWR_STATUS_GRANT + heldOf p < 65536 →
      ∃ t, exec (.epochBoundary d k) s = .next t ∧ SameMemory s t ∧ (t.pwrDie d).epoch = k ∧
        (p.epoch < k → (t.pwrDie d).lent = 0) ∧ (∀ l ∈ (t.pwrDie d).loans, k ≤ l.1) ∧
        (∀ l ∈ p.loans, k ≤ l.1 → l ∈ (t.pwrDie d).loans) ∧
        (∀ v, p.next = some (k, v) → v + heldOf p < 65536 → fld t d R.PWR_STATUS_GRANT = v ∧ (t.pwrDie d).gotFor = some k ∧
          fld t d R.PWR_STATUS_STALE = fld s d R.PWR_STATUS_STALE) ∧
        (p.next = none → fld t d R.PWR_STATUS_GRANT = fld s d R.PWR_STATUS_GRANT ∧
          (p.gotFor ≠ some k → fld t d R.PWR_STATUS_STALE = 1)))
  ) ∧
  (
  ∀ (s : State) (d : Fin 32), dieUp s d = true →
    let p := s.pwrDie d
    let last := p.ticks.take 10
    let limit := fld s d R.PWR_STATUS_LIMIT
    let near := (lendTo d).filter (dieUp s)
    (fld s d R.PWR_CFG_LEND_EN = 0 ∨ lendTo d = [] → exec (.lendStatusTick d) s = .next s) ∧
    (fld s d R.PWR_CFG_LEND_EN = 1 → lendTo d ≠ [] →
      ∃ t, exec (.lendStatusTick d) s = .next t ∧ SameMemory s t ∧
        (∀ n ∈ near, tget? (t.pwrDie n).status d = some (last.any Prod.snd)) ∧
        (last.length < 10 → SameRegs s t ∧ (t.pwrDie d).lent = p.lent) ∧
        (∀ n, (if p.turn then near.reverse else near).find? (fun x => tget p.status x false) = some n →
          last.length = 10 → (∀ x ∈ last, x.1 + 40 < limit) → fld s d R.PWR_STATUS_GRANT + heldOf p < 65536 →
          let top := (last.map Prod.fst).foldl max 0
          let amount := min (limit - heldOf p) ((((limit : Nat) : Rat) - (1.1 : Rat) * ((top : Nat) : Rat)).floor.toNat) / 4 * 4
          4 ≤ amount → (t.pwrDie d).lent = p.lent + amount ∧
            fld t d R.PWR_STATUS_LIMIT = fld s d R.PWR_STATUS_GRANT + heldOf p - (p.lent + amount) ∧
            tget? (t.pwrDie n).slots d = some (p.epoch, amount, false))) ∧
    (∀ (src k amount : Nat) (rest : Tbl (Nat × Nat × Bool)), p.slots = (src, k, amount, false) :: rest →
      (k < p.epoch → exec (.loanReceive d) s = .next (modPwr s d fun p => { p with slots := tdel p.slots src })) ∧
      (p.epoch ≤ k → amount ≤ ceilOf s d - limit → fld s d R.PWR_STATUS_GRANT + heldOf p + amount < 65536 →
        ∃ t, exec (.loanReceive d) s = .next t ∧ SameMemory s t ∧ (t.pwrDie d).loans = (k, amount) :: p.loans ∧
          (t.pwrDie d).slots = tdel p.slots src ∧
          fld t d R.PWR_STATUS_LIMIT = fld s d R.PWR_STATUS_GRANT + (heldOf p + amount) - p.lent)) ∧
    (∀ e : Nat, fld s d R.PWR_STATUS_MODE = 0 → fld s d R.PWR_STATUS_THROTTLE = 0 →
      let c := (p.g * ((e : Nat) : Rat)).floor.toNat
      (limit < c → ramping s d = false → p.step < maxSteps d → ∃ t, exec (.powerControlTick d e) s = .next t ∧
        SameMemory s t ∧ fld t d R.PWR_STATUS_PCTL = min 65535 c ∧ (t.pwrDie d).step = p.step + 1 ∧
        (t.pwrDie d).ticks.head? = some (c, true)) ∧
      (c ≤ limit → p.step = 0 → ∃ t, exec (.powerControlTick d e) s = .next t ∧
        SameMemory s t ∧ fld t d R.PWR_STATUS_PCTL = c ∧ (t.pwrDie d).step = 0 ∧ (t.pwrDie d).gaps = false ∧
        (t.pwrDie d).ticks.head? = some (c, false)))
  )

/-- R448, R449, R451 to R454: droop and heat. DROOP_N of a rail group stretches its die's clocks until it has been released
and the hold and the recovery have passed; 100 °C throttles a die, below 97 °C it runs freely again, and 110 °C in the hub, a
memory die or the tier die switches the rails off; coolant of 50 °C asserts FAULT_N and powers the module down. -/
def Obligations.DroopStretchesAndHeatThrottles : Prop :=
  ∀ (s : State),
    (∀ x : Fin 40, dieUp s (groupDie x) = true → x.val ∉ (s.pwrDie (groupDie x)).asserting →
      let d := groupDie x
      ∃ t, exec (.droopAssert x) s = .next t ∧ SameMemory s t ∧ (t.pwrDie d).asserting = x.val :: (s.pwrDie d).asserting ∧
        fld t d R.PWR_DROOPS_COUNT = (fld s d R.PWR_DROOPS_COUNT + 1) % 2 ^ 64 ∧
        (stretches x = true → (t.pwrDie d).droop = 1 ∧ fld t d R.PWR_STATUS_DROOP = 1) ∧
        (stretches x = false → (t.pwrDie d).droop = (s.pwrDie d).droop ∧
          fld t d R.PWR_STATUS_DROOP = fld s d R.PWR_STATUS_DROOP)) ∧
    (∀ x : Fin 40, (s.pwrDie (groupDie x)).asserting = [x.val] → (s.pwrDie (groupDie x)).droop = 1 →
      exec (.droopRelease x) s = .next (modPwr s (groupDie x) fun p => { p with asserting := [], droop := 2 })) ∧
    (∀ d : Fin 32,
      ((s.pwrDie d).droop = 2 → exec (.droopHoldEnd d) s = .next (modPwr s d fun p => { p with droop := 3 })) ∧
      ((s.pwrDie d).droop = 3 → ∃ t, exec (.droopRecoveryEnd d) s = .next t ∧ SameMemory s t ∧ (t.pwrDie d).droop = 0 ∧
        fld t d R.PWR_STATUS_DROOP = 0)) ∧
    (∀ (d : Fin 32) (l : List (BitVec 8)), dieUp s d = true → l ≠ [] →
      let tj := (l.map (·.toNat)).foldl max 0
      (tj < 100 → fld s d R.PWR_STATUS_THROTTLE = 0 → exec (.tjSample d l) s = .next (setFld s d R.PWR_STATUS_TJ tj)) ∧
      (tj < 97 → fld s d R.PWR_STATUS_THROTTLE = 1 → ∃ t, exec (.tjSample d l) s = .next t ∧ OnlyRegs s t ∧
        fld t d R.PWR_STATUS_TJ = tj ∧ fld t d R.PWR_STATUS_THROTTLE = 0) ∧
      (100 ≤ tj → tj < 110 → fld s d R.PWR_STATUS_THROTTLE = 0 → fld s 0 R.HUB_REL_QUEUE_VALID = 0 →
        ∃ t, exec (.tjSample d l) s = .next t ∧ SameMemory s t ∧ fld t d R.PWR_STATUS_TJ = tj ∧
          fld t d R.PWR_STATUS_THROTTLE = 1 ∧ (t.pwrDie d).step = min (maxSteps d) ((s.pwrDie d).step + 1) ∧
          fld t d R.PWR_ERR_THERMAL = min 0xFFFF (fld s d R.PWR_ERR_THERMAL + 1)) ∧
      (110 ≤ tj → d.val = 0 ∨ (5 ≤ d.val ∧ d.val ≤ 10) ∨ d.val = 13 → ∃ t, exec (.tjSample d l) s = .next t ∧
        t.boot.powered = false ∧ t.boot.faultN = true)) ∧
    (∀ c : BitVec 8, s.boot.powered = true → s.boot.down = false → fld s 0 R.HUB_REL_QUEUE_VALID = 0 →
      (c.toNat < 50 → ∃ t, exec (.coolantSample c) s = .next t ∧ OnlyRegs s t ∧ fld t 0 R.HUB_PWR_STATE_INLET = c.toNat ∧
        fld t 0 R.HUB_PWR_STATE_EFF_CAP = (effCap t / 25).floor.toNat) ∧
      (50 ≤ c.toNat → ∃ t, exec (.coolantSample c) s = .next t ∧ t.boot.faultN = true ∧
        (s.boot.state < 3 → t.boot.powered = false) ∧ (3 ≤ s.boot.state → t.boot.state = 6)))

/-! ## Power-on, boot, locks (chapter 16) -/

/-- R457 to R462, R467, R473, R502, R503, R510: start-up. Power brings the rails up; losing it, or an asserted RESET_N, loses
all but flash, fuses, pins and what a cold reset keeps; the survey waits for input and coolant, fails without a die that every
module needs, and otherwise puts the dies that pass into service; a valid image is chosen, and boot with every block locked
makes the module ready; each failure is STATE 5 with its cause. -/
def Obligations.StartUpSurveysChoosesAnImageAndBoots : Prop :=
  ∀ (s : State),
    (∀ x : BitVec 3, (s.boot.powered = true ∨ s.boot.vin = true → exec (.powerOn x) s = .next s) ∧
      (s.boot.powered = false → s.boot.vin = false → ∃ t, exec (.powerOn x) s = .next t ∧ SameMemory s t ∧
        t.boot.powered = true ∧ t.boot.vin = true ∧ t.boot.straps = x ∧ t.boot.state = 0)) ∧
    (∃ t, exec .powerLoss s = .next t ∧ t.boot.powered = false ∧ t.boot.vin = false ∧ t.boot.faultN = false ∧ t.regs = [] ∧
      t.mem = [] ∧ t.boot.fuses = s.boot.fuses ∧ t.pending = s.pending) ∧
    (s.boot.powered = true → ∃ t, exec .resetNAssert s = .next t ∧ t.boot.rstLow = true ∧ t.boot.state = 0 ∧ t.time = 0 ∧
      t.mem = s.mem ∧ t.poison = s.poison ∧ t.spurs = [] ∧ t.harts = [] ∧ t.boot.fuses = s.boot.fuses) ∧
    (s.boot.powered = true → ∃ t, exec .resetNRelease s = .next t ∧ SameMemory s t ∧ SameRegs s t ∧ t.boot.rstLow = false ∧
      t.boot.state = s.boot.state) ∧
    (s.boot.powered = false → s.boot.vin = true → ∃ t, exec .resetNRelease s = .next t ∧ t.boot.powered = true ∧
      t.boot.state = 0) ∧
    (s.boot.powered = true → s.boot.rstLow = false → s.boot.state = 0 →
      (∀ r : Survey, r.inputOk = false ∨ r.coolantOk = false → exec (.siteSurvey r) s = .next s) ∧
      (∀ (r : Survey) (d : Nat), r.inputOk = true → r.coolantOk = true → d ∈ [0, 5, 6, 7, 8, 9, 10, 13] →
        bitAt r.dies.toNat d = false → ∃ t, exec (.siteSurvey r) s = .next t ∧ SameMemory s t ∧ t.boot.state = 5 ∧
          fld t 0 R.HUB_SEC_STATUS_CAUSE = 2) ∧
      (∀ (r : Survey) (c : Nat), r.inputOk = true → r.coolantOk = true → r.guestBad = 0 → r.failed = [] → r.ridgeBad = [] →
        (∀ d ∈ [0, 5, 6, 7, 8, 9, 10, 13], bitAt r.dies.toNat d = true) → c ∈ [1, 2, 3, 4] → bitAt r.dies.toNat c = true →
        ∃ t, exec (.siteSurvey r) s = .next t ∧ SameMemory s t ∧ t.boot.state = 1 ∧ t.boot.pwrGood = true ∧
          fld t 0 R.HUB_DIE_MAP_IN_SERVICE = r.dies.toNat) ∧
      (∀ b : Bool, ∃ t, exec (.surveyTimeout b) s = .next t ∧ SameMemory s t ∧ t.boot.state = 5 ∧
        fld t 0 R.HUB_SEC_STATUS_CAUSE = if b then 4 else 1)) ∧
    (s.boot.state = 1 → ∃ t, exec .imageSelect s = .next t ∧ SameMemory s t ∧
      match chooseCopy s.boot.fuses s.boot.flash with
      | none => t.boot.state = 5 ∧ fld t 0 R.HUB_SEC_STATUS_CAUSE = 3
      | some (b, o) =>
        let c := if b then s.boot.flash.b else s.boot.flash.a
        t.boot.state = 2 ∧ t.boot.image = imgBytes c 0 (imgLength c) ∧ fld t 0 R.HUB_SEC_STATUS_COPY = b2n b ∧
          fld t 0 R.HUB_SEC_STATUS_OTHER_VALID = b2n o ∧ fld t 0 R.HUB_SEC_STATUS_VKEY = imgVkey c) ∧
    (s.boot.state = 2 →
      (bootChecked (bootSteps s) = false → ∃ t, exec .bootSequence s = .next t ∧ t.boot.state = 5 ∧
        fld t 0 R.HUB_SEC_STATUS_CAUSE = 5) ∧
      (bootChecked (bootSteps s) = true → ∃ t, exec .bootSequence s = .next t ∧ (t.boot.state = 3 ∨ t.boot.state = 4) ∧
        t.mem = (bootSteps s).mem ∧ t.boot.fuseDue = false ∧
        ∀ d, d < 32 → dieUp t d = true → fld t d R.LOCK_STATE_ALL = 1)) ∧
    (s.boot.powered = true → s.boot.rstLow = false → s.boot.state < 3 → ∃ t, exec .bootTimeout s = .next t ∧ SameMemory s t ∧
      t.boot.state = 5 ∧ fld t 0 R.HUB_SEC_STATUS_CAUSE = 6) ∧
    (s.boot.state = 3 → exec .fabricReadyTimeout s = .next (relEvent s 0x18 0 (body4 0 0 0 0))) ∧
    (s.boot.state ≠ 3 → exec .fabricReadyTimeout s = .next s) ∧
    (∀ (d : Fin 32) (b : BitVec 19), dieUp s d = true → ∃ t, exec (.lockSet d b) s = .next t ∧ SameMemory s t ∧
      fld t d R.LOCK_STATE_LOCKED = fld s d R.LOCK_STATE_LOCKED ||| b.toNat ∧
      fld t d R.LOCK_STATE_ALL = b2n ((rwlBlocks d).all (bitAt (fld s d R.LOCK_STATE_LOCKED ||| b.toNat))))

/-! ## Resets and the security processor (chapter 16) -/

/-- R230, R466, R470 to R475: reset commands and security requests. A cold reset keeps memory and fuses; a warm reset with a
good image goes on at boot step 1, without one it is a cold reset; a command of another context than 0, or for a die that none
may reset, is refused with 0x0F, and one while BUSY is 1 is dropped; a die reset ends when the die passes its self-test, or
leaves it out of service; a security request is taken when none is open and answered in its buffer. -/
def Obligations.ResetsAndSecurityRequestsRunAndEnd : Prop :=
  ∀ (s : State), s.boot.powered = true →
    (dieUp s 0 = true → ∃ t, exec (.resetCold 0) s = .next t ∧ t.boot.state = 0 ∧ t.time = 0 ∧ t.mem = s.mem ∧
      t.poison = s.poison ∧ t.spurs = [] ∧ t.harts = [] ∧ t.kernels = [] ∧ t.boot.fuses = s.boot.fuses ∧
      t.boot.flash = flashCut s ∧ t.pending = s.pending) ∧
    (dieUp s 0 = true → (s.boot.image = [] → exec (.resetWarm 0) s = exec (.resetCold 0) s) ∧
      (∀ u, recheck s = (u, true) → ∃ t, exec (.resetWarm 0) s = .next t ∧ t = warmRun u ∧ t.boot.state = 2)) ∧
    (∀ c : BitVec 16, c ≠ 0 → dieUp s 0 = true →
      exec (.resetCold c) s = .next (setFld s 0 R.HUB_RESET_STATUS_RESULT 0x0F) ∧
      exec (.resetWarm c) s = .next (setFld s 0 R.HUB_RESET_STATUS_RESULT 0x0F)) ∧
    (∀ (c : BitVec 16) (d : Fin 32),
      (fld s 0 R.HUB_RESET_STATUS_BUSY = 1 → exec (.resetDie c d) s = .next (setFld s 0 R.HUB_RESET_STATUS_DROPPED 1)) ∧
      (fld s 0 R.HUB_RESET_STATUS_BUSY = 0 → dieResetBad s c d = true →
        exec (.resetDie c d) s = .next (setFld s 0 R.HUB_RESET_STATUS_RESULT 0x0F)) ∧
      (fld s 0 R.HUB_RESET_STATUS_BUSY = 0 → dieResetBad s c d = false → ∃ t, exec (.resetDie c d) s = .next t ∧
        fld t 0 R.HUB_RESET_STATUS_BUSY = 1 ∧
        (dieUp s d = false → SameMemory s t ∧ ∃ e, tget? t.boot.resets d = some e ∧ e.cmd = true) ∧
        (dieUp s d = true → ∃ e, tget? t.boot.resets d = some e ∧ e.cmd = true ∧ e.out = false))) ∧
    (∀ (d : Fin 32) (e : DieReset), tget? s.boot.resets d = some e →
      (e.written = true → exec (.dieWritebackTimeout d) s = .next s) ∧
      (e.written = false → ∃ t, exec (.dieWritebackTimeout d) s = .next t ∧
        tget? t.boot.resets d = some { e with written := true }) ∧
      (e.trip = true → ∀ b, exec (.dieResetDone d b) s = .next s) ∧
      (e.trip = false → e.out = false → e.written = true →
        (fld s 0 R.HUB_REL_QUEUE_VALID = 0 → ∃ t, exec (.dieResetDone d false) s = .next t ∧ SameMemory s t ∧
          dieUp t d = dieUp s d ∧ tget? t.boot.resets d = some { written := true, out := true } ∧
          (e.cmd = true → fld t 0 R.HUB_RESET_STATUS_BUSY = 0)) ∧
        (∀ u, recheck s = (u, true) → exec (.dieResetDone d true) s = .next (dieResetOver (dieBack u d) e 1 d)))) ∧
    (∀ (c : BitVec 16) (a : BitVec 48) (n : BitVec 4),
      (fld s 0 R.HUB_SEC_STATUS_BUSY = 1 →
        exec (.secAttestReport c a n) s = .next (setFld s 0 R.HUB_SEC_STATUS_DROPPED 1) ∧
        exec (.secIdentityCerts c a n) s = .next (setFld s 0 R.HUB_SEC_STATUS_DROPPED 1) ∧
        exec (.secOwnerEnrol c a) s = .next (setFld s 0 R.HUB_SEC_STATUS_DROPPED 1)) ∧
      (fld s 0 R.HUB_SEC_STATUS_BUSY = 0 →
        let taken := fun (i : Instr) (k m : Nat) => ∃ t, exec i s = .next t ∧ SameMemory s t ∧
          t.boot.sec = some ⟨c, k, 16 * a.toNat, m⟩ ∧ fld t 0 R.HUB_SEC_STATUS_BUSY = 1
        taken (.secAttestReport c a n) 1 n.toNat ∧ taken (.secIdentityCerts c a n) 2 n.toNat ∧ taken (.secOwnerEnrol c a) 3 0)) ∧
    (s.boot.sec = none → exec .secRequestComplete s = .next s) ∧
    (∀ r : SecReq, s.boot.sec = some r →
      let n := secBlock s r
      let c := secCheck s r r.addr n false
      let d := cohRead c.1 r.addr n
      let buf := leNat ((d.1.drop 32).take 8)
      let ended := fun (u : State) (x : Nat) => exec .secRequestComplete s = .next (secEnd u x)
      (isMem r.addr = false → ended s 5) ∧
      (isMem r.addr = true → isMem (r.addr + n - 1) = true → rangeIdle s r.addr n = true → c.2 = false → ended c.1 4) ∧
      (isMem r.addr = true → isMem (r.addr + n - 1) = true → rangeIdle s r.addr n = true → c.2 = true → d.2 = false →
        (∀ b : List Byte, (r.kind = 1 ∧ b = attestReport c.1 (d.1.take 32)) ∨ (r.kind = 2 ∧ b = Config.identityCerts) →
          (r.bufk * 4096 < b.length → ended c.1 0x0F) ∧
          (b.length ≤ r.bufk * 4096 → buf + r.bufk * 4096 ≤ hbmEnd → rangeIdle c.1 buf b.length = true →
            let w := secCheck c.1 r buf b.length true
            if w.2 then ended (cohPut w.1 buf b false) 0 else ended w.1 4)) ∧
        (r.kind = 3 → ∃ t, exec .secRequestComplete s = .next t ∧ SameMemory s t ∧ fld t 0 R.HUB_SEC_STATUS_BUSY = 0 ∧
          fld t 0 R.HUB_SEC_STATUS_RESULT = (if enrolOk c.1 d.1 then 0 else 0x0F) ∧
          t.boot.fuses.owners = if enrolOk c.1 d.1 then
            s.boot.fuses.owners ++ [lineBytes (Config.sha512 (recordKeys (d.1.take recordBytes)))] else s.boot.fuses.owners)))

/-! ## Reliability (chapter 17) -/

/-- R476 to R481, R494: errors. A corrected error of a resource is counted within the window and reported at most once a
second; the count that reaches CORR_COUNT retires the resource, whose bit is cleared and whose capacity is lost; an uncorrected
error of a unit retires it at once and poisons the line it struck. -/
def Obligations.ErrorsAreCountedAndRetireTheResource : Prop :=
  ∀ (s : State) (w : W64) (r : Rid), ridUp s r = true → fld s 0 R.HUB_REL_QUEUE_VALID = 0 → s.svc.tests = [] → s.svc.cairn = [] →
    let now := if s.time ≤ w then w else s.time
    let k := ridNum r
    let recent := (tget s.svc.times k []).filter fun x => decide (now.toNat - x.toNat ≤ windowNs s)
    (∀ (c : Bool) (pa : BitVec 52) (x : BitVec 16), underThreshold r = true →
      recent.length + 1 < fld s 0 R.HUB_REL_THRESH_CORR_COUNT →
      ∃ t, exec (.correctedError r c pa x w) s = .next t ∧ SameMemory s t ∧ t.time = now ∧ ridUp t r = true ∧
        tget? t.svc.times k = some ((now :: recent).take (fld s 0 R.HUB_REL_THRESH_CORR_COUNT - 1)) ∧
        (tget? s.svc.posted k = none → tget? t.svc.posted k = some now) ∧
        (∀ p, tget? s.svc.posted k = some p → now.toNat < p.toNat + 1000000000 → p.toNat ≤ now.toNat →
          tget? t.svc.unposted k = some (sincePosted s r))) ∧
    (∀ (c : Bool) (pa : BitVec 52) (x : BitVec 16), r.kind = 8 → fld s 0 R.HUB_REL_THRESH_CORR_COUNT ≤ recent.length + 1 →
      ∃ t, exec (.correctedError r c pa x w) s = .next t ∧ SameMemory s t ∧ t.time = now ∧ ridUp t r = false ∧
        tget? t.svc.times k = none) ∧
    (∀ (pa : BitVec 52) (x : BitVec 16), r.kind = 8 →
      (pa = 0 → ∃ t, exec (.uncorrectedError r pa x w) s = .next t ∧ SameMemory s t ∧ ridUp t r = false) ∧
      (pa ≠ 0 → isMem pa.toNat = true → lineRetired s (pa.toNat / 64) = false →
        ∃ t, exec (.uncorrectedError r pa x w) s = .next t ∧ ridUp t r = false ∧ linePoison t (pa.toNat / 64) = true))

/-- R480, R483 to R488: the background services. A rebuild step rewrites a line and loses nothing, and the rebuild ends with
the stack out of priority service for it; Scree reads the next line of a stack or of the board tier, and marks a pass that its
period has overtaken; Cairn calibrates an item once its arbiter grants it, and an abandoned task is counted. -/
def Obligations.BackgroundServicesRunStepByStep : Prop :=
  ∀ (s : State) (m : Fin 6) (j : Fin 4),
    (rebuilding s m j = true → ∃ t, exec (.stackRebuildStep m j) s = .next t ∧ SameMemory s t ∧ SameRegs s t ∧
      tget t.svc.rebuilt (m.val * 4 + j.val) 0 = tget s.svc.rebuilt (m.val * 4 + j.val) 0 + 1) ∧
    (∃ t, exec (.stackRebuildDone m j) s = .next t ∧ SameMemory s t ∧ rebuilding t m j = false ∧
      (∀ i : Fin 4, i ≠ j → rebuilding t m i = rebuilding s m i) ∧ tget? t.svc.rebuilt (m.val * 4 + j.val) = none) ∧
    (∀ e e2 : List (Fin 72), fld s 0 R.HUB_SCREE_CFG_HBM_H ≠ 0 → (stacksUp s).contains (4 * m.val + j.val) = true →
      tget s.svc.hbmDone (4 * m.val + j.val) 0 < stackLines →
      let n := tget s.svc.hbmDone (4 * m.val + j.val) 0
      let c := readCodeword s m (stackLine s (4 * m.val + j.val) n) e e2
      s.svc.hbmOver = false →
      (c.2 = false → ∃ t, exec (.screeHbmStep m j e e2) s = .next t ∧ SameMemory s t ∧
        tget t.svc.hbmDone (4 * m.val + j.val) 0 = n + 1) ∧
      (c.2 = true → fld s 0 R.HUB_REL_QUEUE_VALID = 0 → ∃ t, exec (.screeHbmStep m j e e2) s = .next t ∧
        (∀ a, memByte t.mem a = memByte s.mem a) ∧ linePoison t (stackLine s (4 * m.val + j.val) n) = true ∧
        tget t.svc.hbmDone (4 * m.val + j.val) 0 = n + 1)) ∧
    (fld s 0 R.HUB_SCREE_CFG_BOARD_H ≠ 0 → dieUp s 13 = true → s.svc.boardDone + 1 < 2 ^ 35 →
      lineRetired s (boardBase / 64 + s.svc.boardDone) = false →
      (∃ t, exec (.screeBoardStep false) s = .next t ∧ SameMemory s t ∧ t.svc.boardDone = s.svc.boardDone + 1 ∧
        fld t 0 R.HUB_SCREE_STATUS_BOARD_DONE = (s.svc.boardDone + 1) * 100 / 2 ^ 35) ∧
      (linePoison s (boardBase / 64 + s.svc.boardDone) = false → fld s 0 R.HUB_REL_QUEUE_VALID = 0 →
        ∃ t, exec (.screeBoardStep true) s = .next t ∧ t.svc.boardDone = s.svc.boardDone + 1 ∧
          linePoison t (boardBase / 64 + s.svc.boardDone) = true ∧
          fld t 0 R.HUB_SCREE_STATUS_BOARD_POISONED = min 0xFFFF (fld s 0 R.HUB_SCREE_STATUS_BOARD_POISONED + 1))) ∧
    (fld s 0 R.HUB_SCREE_CFG_BOARD_H ≠ 0 → s.svc.boardDone < 2 ^ 35 → ∃ t, exec (.screePeriodEnd true) s = .next t ∧
      SameMemory s t ∧ fld t 0 R.HUB_SCREE_STATUS_BOARD_LAG = 1 ∧ t.svc.boardOver = true) ∧
    (fld s 0 R.HUB_SCREE_CFG_HBM_H ≠ 0 → ∀ n ∈ stacksUp s, tget s.svc.hbmDone n 0 < stackLines →
      ∃ t, exec (.screePeriodEnd false) s = .next t ∧ SameMemory s t ∧ fld t 0 R.HUB_SCREE_STATUS_HBM_LAG = 1 ∧
        t.svc.hbmOver = true) ∧
    (∀ (r : Rid) (d a i : Nat), ridUp s r = true → cairnPeriod s r ≠ 0 → s.svc.cairn = [] → cairnArb r = some (d, a, i) →
      ∃ t, exec (.cairnCalibration r) s = .next t ∧ SameMemory s t ∧ SameRegs s t ∧ t.svc.cairn = [ridNum r] ∧
        (t.arb d a).queue = (s.arb d a).queue ++ [{ input := i, id := ridNum r }]) ∧
    (∀ (r : Rid), s.svc.cairn = [ridNum r] →
      (∃ t, exec (.cairnTaskEnd r false) s = .next t ∧ SameMemory s t ∧ t.svc.cairn = [] ∧
        tget? t.svc.abandons (ridNum r) = none) ∧
      (fld s 0 R.HUB_REL_QUEUE_VALID = 0 → ∃ t, exec (.cairnTaskEnd r true) s = .next t ∧ SameMemory s t ∧ t.svc.cairn = [] ∧
        tget t.svc.abandons (ridNum r) 0 = min 255 (tget s.svc.abandons (ridNum r) 0 + 1)))

/-- R490 to R492, R497, R498: self-tests, telemetry and fatal errors. A request names a resource in service, is dropped while
another is open, and is refused from any context but 0; a test starts in its window, ends with its result, and a failed one
retires its resource; a telemetry record goes to its place in the ring; a fatal error stops the module with its cause. -/
def Obligations.SelfTestsTelemetryAndFatalErrors : Prop :=
  ∀ (s : State),
    (∀ (c : BitVec 16) (v : W64), dieUp s 0 = true →
      let r := numRid (v.toNat / 2 ^ 32)
      (fld s 0 R.HUB_SELFTEST_STATUS_BUSY = 1 →
        exec (.selftestRequest c v) s = .next (setFld s 0 R.HUB_SELFTEST_STATUS_DROPPED 1)) ∧
      (fld s 0 R.HUB_SELFTEST_STATUS_BUSY = 0 →
        (ridOk r = false ∨ c ≠ 0 → ∃ t, exec (.selftestRequest c v) s = .next t ∧ OnlyRegs s t ∧
          fld t 0 R.HUB_SELFTEST_STATUS_RESULT = 0x0F ∧ fld t 0 R.HUB_SELFTEST_STATUS_RID = ridNum r) ∧
        (c = 0 → ridOk r = true → ridUp s r = false → ∃ t, exec (.selftestRequest c v) s = .next t ∧ OnlyRegs s t ∧
          fld t 0 R.HUB_SELFTEST_STATUS_RESULT = 0x0B ∧ fld t 0 R.HUB_SELFTEST_STATUS_RID = ridNum r) ∧
        (c = 0 → ridUp s r = true → r.kind ≠ 9 → ∃ t, exec (.selftestRequest c v) s = .next t ∧ SameMemory s t ∧
          fld t 0 R.HUB_SELFTEST_STATUS_BUSY = 1 ∧ fld t 0 R.HUB_SELFTEST_STATUS_RID = ridNum r ∧
          t.svc.tests = s.svc.tests ++ [{ rid := r, now := bitAt v.toNat 31, cmd := true }]))) ∧
    (∀ x : SelfTest, s.svc.tests = [x] → x.running = false →
      (testMayStart s x = true → ∃ t, exec .selftestStart s = .next t ∧ SameMemory s t ∧
        t.svc.tests = [{ x with running := true }]) ∧
      (testMayStart s x = false → exec .selftestStart s = .next s) ∧
      (fld s 0 R.HUB_REL_QUEUE_VALID = 0 → ∃ t, exec .selftestStartTimeout s = .next t ∧ SameMemory s t ∧ t.svc.tests = [] ∧
        (x.cmd = true → fld t 0 R.HUB_SELFTEST_STATUS_BUSY = 0 ∧ fld t 0 R.HUB_SELFTEST_STATUS_RESULT = 0x0C))) ∧
    (∀ x : SelfTest, s.svc.tests = [x] → x.running = true → fld s 0 R.HUB_REL_QUEUE_VALID = 0 →
      (∃ t, exec (.selftestResult 0) s = .next t ∧ SameMemory s t ∧ t.svc.tests = [] ∧ ridUp t x.rid = ridUp s x.rid ∧
        (x.cmd = true → fld t 0 R.HUB_SELFTEST_STATUS_BUSY = 0 ∧ fld t 0 R.HUB_SELFTEST_STATUS_RESULT = 0)) ∧
      (x.rid.kind = 8 → s.svc.cairn = [] → ∃ t, exec (.selftestResult 1) s = .next t ∧ SameMemory s t ∧ t.svc.tests = [] ∧
        ridUp t x.rid = false)) ∧
    (∀ w : W64,
      let now := if s.time ≤ w then w else s.time
      let seq := (fld s 0 R.HUB_TEL_HEAD_SEQ + 1) % 2 ^ 32
      let pa := fld s 0 R.HUB_TEL_CFG_BASE * 4096 + 256 * (seq % 2 ^ (fld s 0 R.HUB_TEL_CFG_SIZE + 8))
      let u : State := { s with time := now }
      (fld s 0 R.HUB_TEL_CFG_PERIOD_MS = 0 → exec (.telemetryRecord w) s = .next u) ∧
      (fld s 0 R.HUB_TEL_CFG_PERIOD_MS ≠ 0 → pa < hbmEnd → rangeIdle u pa 256 = true →
        exec (.telemetryRecord w) s = .next (setFld (cohPut u pa (telBytes u seq) false) 0 R.HUB_TEL_HEAD_SEQ seq))) ∧
    (∀ (c : BitVec 3) (d : Fin 32), (c = 1 ∧ (d.val = 0 ∨ (5 ≤ d.val ∧ d.val ≤ 10) ∨ d.val = 13)) ∨ c = 2 →
      ∃ t, exec (.fatalError c d) s = .next t ∧ SameMemory s t ∧ t.boot.state = 5 ∧ fld t 0 R.HUB_REL_FATAL_VALID = 1 ∧
        fld t 0 R.HUB_REL_FATAL_CAUSE = c.toNat ∧ fld t 0 R.HUB_REL_FATAL_DIE = d.val ∧
        fld t 0 R.HUB_REL_FATAL_TIME_TIME = s.time.toNat)

/-! ## Power-down, the management endpoint and the test access port (chapter 18) -/

/-- R504 to R507, R509: an orderly power-down is STATE 6 until everything has drained or 3 s have passed, and switches the
rails off; the endpoint takes its addresses and answers while the hub has power and RESET_N is high; an update writes the copy
that HUB_SEC_STATUS.COPY does not name, and is checked when its last bytes have come; the test access port selects the
instruction that it is given, EXTEST and HIGHZ only while RESET_N is low. -/
def Obligations.ManagementAnswersAndPowersDown : Prop :=
  ∀ (s : State), s.boot.powered = true →
    let only := fun (c : Instr) (m : Mgmt) => exec c s = .next { s with mgmt := m }
    let m := s.mgmt
    (s.boot.down = true → exec .powerdownRequest s = .next s) ∧
    (s.boot.down = false → (s.boot.state < 3 → exec .powerdownRequest s = .next (railsOff s)) ∧
      (3 ≤ s.boot.state → ∃ t, exec .powerdownRequest s = .next t ∧ SameMemory s t ∧ SameRegs s t ∧ t.boot.state = 6 ∧
        t.boot.down = true)) ∧
    (s.boot.down = true → ∀ c : Instr, c = .powerdownDrainTimeout ∨ (c = .powerdownDrainDone ∧ drained s = true) →
      ∃ t, exec c s = .next t ∧ t.boot.powered = false ∧ t.boot.pwrGood = false ∧ t.regs = []) ∧
    (s.boot.down = true → drained s = false → exec .powerdownDrainDone s = .next s) ∧
    (s.boot.down = false → exec .powerdownDrainTimeout s = .next s ∧ exec .powerdownDrainDone s = .next s) ∧
    (s.boot.rstLow = true → ∀ (x : BitVec 8) (y : Fin 9) (a : BitVec 7) (b : Bool),
      exec (.mctpSetEid x) s = .next s ∧ exec (.i3cAddressAssign b a) s = .next s ∧ exec .alertRead s = .next s ∧
      exec .pldmDiscovery s = .next s ∧ exec (.pldmSensorRead y) s = .next s ∧ exec .pldmFruRead s = .next s ∧
      exec .pldmWarmReset s = .next s ∧ exec .pldmPowerdown s = .next s ∧ exec .firmwareUpdateVerify s = .next s) ∧
    (s.boot.rstLow = false →
      (∀ x : BitVec 8, only (.mctpSetEid x) { m with eid := some x }) ∧
      (∀ (b : Bool) (a : BitVec 7), s.boot.straps.getLsbD 0 = true → only (.i3cAddressAssign b a) { m with dyn := some a }) ∧
      (s.boot.straps.getLsbD 0 = false → only .alertRead { m with alert := false }) ∧
      only .pldmDiscovery { m with reply := some (.types [0, 2, 4, 5]) } ∧
      (∀ x : Fin 9, only (.pldmSensorRead x) { m with reply := some (.sensor (sensorValue s x)) }) ∧
      only .pldmFruRead { m with reply := some (fruReply s) } ∧
      exec .pldmWarmReset s = .next (warmReset s) ∧ exec .pldmPowerdown s = exec .powerdownRequest s ∧
      (∀ (o : Nat) (b : List Byte) (l : Bool), o + b.length ≤ updateLimit (spareIsB s) →
        let old := if m.updating then flashCopy s (spareIsB s) else []
        ∃ t, exec (.pldmFirmwareUpdate o b l) s = .next t ∧ SameMemory s t ∧ SameRegs s t ∧
          flashCopy t (spareIsB s) = flashPut old o b ∧ flashCopy t (!spareIsB s) = flashCopy s (!spareIsB s) ∧
          t.mgmt.updating = !l ∧ t.mgmt.verifyDue = l) ∧
      (m.verifyDue = true → only .firmwareUpdateVerify { m with
        verifyDue := false, reply := some (.verified (imgOk s.boot.fuses (flashCopy s (spareIsB s)))) })) ∧
    (∀ k : Nat, only (.jtagBypass k) { m with jtag := .bypass }) ∧
    only .jtagIdcode { m with jtag := .idcode } ∧
    (∀ l : List Bool, only (.jtagSamplePreload l) { m with jtag := .sample, boundary := l }) ∧
    only .jtagExtest { m with jtag := if s.boot.rstLow then .extest else .bypass } ∧
    only .jtagHighz { m with jtag := if s.boot.rstLow then .highz else .bypass }

/-! ## Registers of control space (chapters 01, 09, 10, 14, 15) -/

/-- R4, R5, R6, R8, R267: a write to a register table that starts nothing writes each field by its access type, where the
register is, at its width; a commit puts the shadow values of its registers into effect. -/
def Obligations.RegisterWritesAndCommitsTakeEffect : Prop :=
  ∀ (s : State),
    (∀ (d : Fin 32) (off : BitVec 28) (w : Nat) (v hw : W64), s.net = [] → (d.val < 14 ∨ 16 ≤ d.val) →
      let quiet := fun (u : State) => commitTrigger u d off.toNat w v.toNat = u ∧ portTrigger u d off.toNat w v.toNat = u ∧
        cmdTrigger u d off.toNat w v.toNat 0 = u
      (∀ u, quiet u) → targetCheckBy s 0 0 0 (windowBase + d * 2 ^ 28 + off.toNat) true = (s, true) →
      (dieUp s d = false ∨ regFind d off.toNat w = none → exec (.registerWrite d off w v hw 0) s = .next s) ∧
      (∀ r, dieUp s d = true → regFind d off.toNat w = some r → r.fields.any (fun f => f.acc == .shd) = false →
        ∃ t, exec (.registerWrite d off w v hw 0) s = .next t ∧ t = { s with regs := t.regs } ∧
          regRaw t d off.toNat r.cold = BitVec.ofNat 64 (clampReg r
            (r.fields.foldl (putField (lockedAt s d off.toNat) v.toNat hw.toNat) (regRaw s d off.toNat r.cold).toNat)) ∧
          (∀ k, k ≠ regKey d off.toNat → tget? t.regs k = tget? s.regs k))) ∧
    (∀ m : Fin 6, dieUp s (5 + m) = true → ∃ t, exec (.partCommit m) s = .next t ∧ SameMemory s t ∧ t.shadow = s.shadow ∧
      (∀ n, n < 64 → ∀ v, tget? s.shadow (regKey (5 + m) (0x1600100 + 4 * n)) = some v →
        bits (regRaw t (5 + m) (0x1600100 + 4 * n) 0x40).toNat 31 0 = bits v.toNat 31 0) ∧
      (∀ n, n < 64 → tget (tget t.tiers.hbm m.val {}).bucket n 0 ≤ bucketCap t m n)) ∧
    (dieUp s 13 = true → ∀ v, tget? s.shadow (regKey 13 0x1000100) = some v →
      let c := bits v.toNat R.TIER_QUOTA_CTX.hi R.TIER_QUOTA_CTX.lo
      ∃ t, exec .quotaCommit s = .next t ∧ SameMemory s t ∧ t.shadow = s.shadow ∧ regRaw t 13 0x1000100 0 = v ∧
        (c ≠ 0 → (tget? t.tiers.quotas c).isSome ∧ ∀ k, k ≠ c → tget? t.tiers.quotas k = tget? s.tiers.quotas k)) ∧
    (∀ d : Fin 32, dieUp s d = true → ∃ t, exec (.arbCommit d) s = .next t ∧ OnlyRegs s t ∧
      (∀ a v, tget? s.shadow (regKey d (R.ARB_RANK_RANK0.off + 4 * a)) = some v → a < 193 →
        ∀ i, i < 8 → inputRank t d a i = bits v.toNat (4 * i + 2) (4 * i))) ∧
    (dieUp s 0 = true → ∀ v, tget? s.shadow (regKey 0 0x100100) = some v →
      ∃ t, exec .treelineCommit s = .next t ∧ OnlyRegs s t ∧ fld t 0 R.HUB_TREELINE_CAP_CAP = bits v.toNat 8 0 ∧
        fld t 0 R.HUB_PWR_STATE_EFF_CAP = (effCap t / 25).floor.toNat)

/-! ## Registers and sequence numbers of every unit (chapter 01) -/

/-- R8: an access of another width than the register's, or of an offset where no register starts, has no effect when it
writes and returns 0 when it reads; no two register tables share an offset of a die, so the width decides. -/
def Obligations.RegistersAnswerOnlyAtTheirWidth : Prop :=
  ∀ (s : State) (die off w : Nat) (v hw : Nat),
    (∀ r ∈ regTable, r.dies.holds die = true → r.at off = true → r.width ≠ w →
      regRead s die off w = 0 ∧ regPut s die off w v hw = s) ∧
    ((∀ r ∈ regTable, r.dies.holds die = true → r.at off = false) → regRead s die off w = 0 ∧ regPut s die off w v hw = s)

/-- R5: a write-1-to-clear bit that hardware sets in the cycle in which a write clears it stays set; one that hardware does
not set is cleared by a 1 and kept by a 0, and no other bit of the register changes. -/
def Obligations.HardwareSetsWinOverWriteOneToClear : Prop :=
  ∀ (f : FieldSpec) (lock : Bool) (val hw v i : Nat), f.acc = .w1c → f.lo ≤ f.hi →
    (putField lock val hw v f).testBit i =
      if f.lo ≤ i ∧ i ≤ f.hi then (v.testBit i && !val.testBit i) || hw.testBit i else v.testBit i

/-- R13: comparison of sequence numbers. A target is reached when it equals the number or precedes it by 1 to 2^31 - 1
modulo 2^32; at a difference of exactly 2^31 neither is reached, and `arrive.wait` counts by this comparison. -/
def Obligations.SequenceNumbersCompareModulo : Prop :=
  ∀ a b : W32,
    (seqReached a b = true ↔ a = b ∨ (1 ≤ (b - a).toNat ∧ (b - a).toNat ≤ 2 ^ 31 - 1)) ∧
    ((b - a).toNat = 2 ^ 31 → seqReached a b = false ∧ seqReached b a = false)

/-! ## The whole machine -/

/-- A step runs the command at the front of the queue on the state with the rest of the queue; with no command waiting
Alpenglow time counts one nanosecond and nothing else changes (the model's choice, log 15). -/
def Obligations.StepRunsTheFrontCommand : Prop :=
  (∀ (c : Instr) (cs : List Instr) (s : State), s.pending = c :: cs → step s = exec c { s with pending := cs }) ∧
  (∀ s : State, s.pending = [] → step s = .next { s with time := s.time + 1 })

/-- Every command completes from every state, but for the two that report an input voltage above 60 V, after which the
manual leaves the module's behaviour undefined (R430). -/
def Obligations.EveryCommandCompletes : Prop :=
  ∀ (c : Instr) (s : State), (∀ v i p b, c = .inputSample v i p b → v.toNat ≤ 6000) →
    (∀ v, c = .inputVoltageTrip v → v.toNat ≤ 6000) → ∃ t, exec c s = .next t

/-- R27, R28, R435, R458, R473: what a cold reset leaves, as far as the manual states it: only the hub is in service, each
die's identification and default budget, the thresholds of the arbiters and of reliability, the caches' replacement seeds;
nothing is in any cache, queue, Spur or unit, and the module waits for its survey. -/
def Obligations.ColdResetLeavesTheStatedValues : Prop :=
  State.reset.pending = [] ∧ State.reset.boot.state = 0 ∧ State.reset.spurs = [] ∧ State.reset.harts = [] ∧
    State.reset.coh = {} ∧ State.reset.qs = {} ∧ State.reset.shadow = [] ∧ State.reset.net = [] ∧
    fld State.reset 0 R.HUB_DIE_MAP_IN_SERVICE = 1 ∧ dieUp State.reset 0 = true ∧ dieUp State.reset 16 = false ∧
    regRead State.reset 0 0 32 = 0x10000000 ∧
    fldAt State.reset 0 R.HUB_TEAM_CLASS_DEADLINE_US 7 = 200 ∧
    fld State.reset 16 R.TNS_L1_CFG_LFSR_SEED = 0xACE1 ∧ fld State.reset 5 R.MEM_HBM_LAYOUT_STRETCH_GIB = 64 ∧
    fldAt State.reset 5 R.MEM_PART_RATE_BURST 63 = 64 ∧ fld State.reset 0 R.HUB_TREELINE_CAP_CAP = 120 ∧
    fld State.reset 0 R.HUB_REL_THRESH_CORR_COUNT = 3 ∧ fld State.reset 0 R.HUB_REL_THRESH_WINDOW_H = 24 ∧
    fld State.reset 0 R.LOCK_STATE_LOCKED = 0 ∧ fld State.reset 0 R.HUB_AG_STATUS_STATE = 0

/-- The memory of the module after a cold reset lists nothing, which is the canonical form; a byte that nothing has written
reads 0 (the model's choice, log 11). -/
def Obligations.ResetMemoryIsCanonical : Prop :=
  memWf State.reset.mem = true ∧ ∀ a, memByte State.reset.mem a = 0

/-- Every step keeps memory in its canonical form: addresses strictly rise and no listed byte is one that an unlisted
address reads as. -/
def Obligations.EveryStepKeepsMemoryCanonical : Prop :=
  ∀ s t : State, memWf s.mem = true → step s = .next t → memWf t.mem = true
end

