-- ==== Sys2Proof/Laws/Bits.lean ====
section
/-! SUPPORT. Laws of bit fields of numbers: what a field reads as after a write of another or of itself. -/

namespace Sys2Proof.Machine

/-- A bit of a number whose field [hi:lo] was set. -/
theorem testBit_setBits (v hi lo x q : Nat) (h : lo ≤ hi) :
    (setBits v hi lo x).testBit q = if lo ≤ q ∧ q ≤ hi then x.testBit (q - lo) else v.testBit q := by
  unfold setBits
  have hx : x % 2 ^ (hi - lo + 1) * 2 ^ lo + v % 2 ^ lo < 2 ^ (hi + 1) := by
    have h1 : x % 2 ^ (hi - lo + 1) < 2 ^ (hi - lo + 1) := Nat.mod_lt _ (by positivity)
    have h2 : v % 2 ^ lo < 2 ^ lo := Nat.mod_lt _ (by positivity)
    have h3 : 2 ^ (hi + 1) = 2 ^ (hi - lo + 1) * 2 ^ lo := by rw [← Nat.pow_add]; congr 1; omega
    rw [h3]
    calc x % 2 ^ (hi - lo + 1) * 2 ^ lo + v % 2 ^ lo < x % 2 ^ (hi - lo + 1) * 2 ^ lo + 2 ^ lo := by omega
      _ = (x % 2 ^ (hi - lo + 1) + 1) * 2 ^ lo := by ring
      _ ≤ _ := Nat.mul_le_mul_right _ h1
  rw [Nat.add_assoc, Nat.mul_comm (v / _), Nat.testBit_two_pow_mul_add _ hx, Nat.mul_comm (x % _),
    Nat.testBit_two_pow_mul_add _ (Nat.mod_lt _ (by positivity))]
  by_cases h1 : q < hi + 1
  · by_cases h2 : q < lo
    · have : ¬ (lo ≤ q ∧ q ≤ hi) := by omega
      simp [h1, h2, this, Nat.testBit_mod_two_pow]
    · have : lo ≤ q ∧ q ≤ hi := by omega
      have h3 : q - lo < hi - lo + 1 := by omega
      simp [h1, h2, this, Nat.testBit_mod_two_pow, h3]
  · have : ¬ (lo ≤ q ∧ q ≤ hi) := by omega
    rw [if_neg h1, if_neg this, ← Nat.shiftRight_eq_div_pow, Nat.testBit_shiftRight]
    congr 1; omega

/-- A bit of a field. -/
theorem testBit_bits (v hi lo i : Nat) : (bits v hi lo).testBit i = (decide (i < hi - lo + 1) && v.testBit (lo + i)) := by
  unfold bits
  rw [Nat.testBit_mod_two_pow, ← Nat.shiftRight_eq_div_pow, Nat.testBit_shiftRight]

/-- A field that was set reads as what was written to it. -/
theorem bits_setBits_self (v hi lo x : Nat) (h : lo ≤ hi) : bits (setBits v hi lo x) hi lo = x % 2 ^ (hi - lo + 1) := by
  apply Nat.eq_of_testBit_eq
  intro i
  rw [testBit_bits, testBit_setBits _ _ _ _ _ h, Nat.testBit_mod_two_pow]
  by_cases hi' : i < hi - lo + 1
  · have : lo ≤ lo + i ∧ lo + i ≤ hi := by omega
    simp [hi', this]
  · simp [hi']

/-- Another field of the word is as before. -/
theorem bits_setBits_ne (v hi lo x hi' lo' : Nat) (h : lo ≤ hi) (h' : lo' ≤ hi') (hd : hi' < lo ∨ hi < lo') :
    bits (setBits v hi lo x) hi' lo' = bits v hi' lo' := by
  apply Nat.eq_of_testBit_eq
  intro i
  rw [testBit_bits, testBit_bits, testBit_setBits _ _ _ _ _ h]
  by_cases hin : i < hi' - lo' + 1
  · have : ¬ (lo ≤ lo' + i ∧ lo' + i ≤ hi) := by omega
    rw [if_neg this]
  · simp [hin]

/-- A word with a field set stays within its width. -/
theorem setBits_lt (v hi lo x n : Nat) (h : lo ≤ hi) (hn : hi < n) (hv : v < 2 ^ n) : setBits v hi lo x < 2 ^ n := by
  apply Nat.lt_pow_two_of_testBit
  intro i hi'
  rw [testBit_setBits _ _ _ _ _ h]
  have : ¬ (lo ≤ i ∧ i ≤ hi) := by omega
  rw [if_neg this]
  exact Nat.testBit_lt_two_pow (lt_of_lt_of_le hv (Nat.pow_le_pow_right (by omega) hi'))

end Sys2Proof.Machine
end

