-- ==== Sys2Proof/Laws/Tables.lean ====
section
/-! SUPPORT. Laws of the sparse tables: what a key reads as after a write, a removal or a change, and that writes keep
the keys rising. -/

namespace Sys2Proof.Machine

variable {α : Type}

@[simp] theorem tget?_nil (i : Nat) : tget? ([] : Tbl α) i = none := rfl
@[simp] theorem tget_nil (i : Nat) (d : α) : tget ([] : Tbl α) i d = d := rfl

/-- A key reads as what was written. -/
@[simp] theorem tget?_tset_self (t : Tbl α) (i : Nat) (v : α) : tget? (tset t i v) i = some v := by
  induction t with
  | nil => simp [tset, tget?]
  | cons e t ih =>
    obtain ⟨k, w⟩ := e
    simp only [tset]
    split
    · simp [tget?]
    · split <;> simp_all [tget?]

/-- Every other key reads as before. -/
@[simp] theorem tget?_tset_ne (t : Tbl α) {i j : Nat} (v : α) (h : j ≠ i) : tget? (tset t i v) j = tget? t j := by
  induction t with
  | nil => simp [tset, tget?, Ne.symm h]
  | cons e t ih =>
    obtain ⟨k, w⟩ := e
    simp only [tset]
    split
    · next hk => subst hk; simp [tget?, Ne.symm h]
    · split
      · simp [tget?, Ne.symm h]
      · simp [tget?, ih]

theorem tget?_tset (t : Tbl α) (i j : Nat) (v : α) : tget? (tset t i v) j = if j = i then some v else tget? t j := by
  split
  · next h => subst h; simp
  · next h => simp [h]

@[simp] theorem tget_tset_self (t : Tbl α) (i : Nat) (v d : α) : tget (tset t i v) i d = v := by simp [tget]

@[simp] theorem tget_tset_ne (t : Tbl α) {i j : Nat} (v d : α) (h : j ≠ i) : tget (tset t i v) j d = tget t j d := by
  simp [tget, h]

theorem tget_tset (t : Tbl α) (i j : Nat) (v d : α) : tget (tset t i v) j d = if j = i then v else tget t j d := by
  unfold tget; rw [tget?_tset]; split <;> simp

@[simp] theorem tget_tmod_self (t : Tbl α) (i : Nat) (d : α) (f : α → α) : tget (tmod t i d f) i d = f (tget t i d) := by
  simp [tmod]

@[simp] theorem tget_tmod_ne (t : Tbl α) {i j : Nat} (d e : α) (f : α → α) (h : j ≠ i) :
    tget (tmod t i d f) j e = tget t j e := by simp [tmod, h]

/-- A removed key is absent. -/
@[simp] theorem tget?_tdel_self (t : Tbl α) (i : Nat) : tget? (tdel t i) i = none := by
  induction t with
  | nil => rfl
  | cons e t ih =>
    obtain ⟨k, w⟩ := e
    by_cases h : k = i
    · subst h; simpa [tdel] using ih
    · have hk : (k != i) = true := by simpa using h
      simp only [tdel, List.filter_cons, hk, if_true, tget?, if_neg h] at ih ⊢
      exact ih

/-- Every other key reads as before. -/
@[simp] theorem tget?_tdel_ne (t : Tbl α) {i j : Nat} (h : j ≠ i) : tget? (tdel t i) j = tget? t j := by
  induction t with
  | nil => rfl
  | cons e t ih =>
    obtain ⟨k, w⟩ := e
    by_cases hk : k = i
    · subst hk
      simp only [tdel, List.filter_cons, bne_self_eq_false, tget?, if_neg (Ne.symm h)] at ih ⊢
      simpa using ih
    · have hk' : (k != i) = true := by simpa using hk
      simp only [tdel, List.filter_cons, hk', if_true, tget?] at ih ⊢
      split
      · rfl
      · exact ih

/-- Changing every entry changes the entry of each key. -/
theorem tget?_map {β : Type} (t : Tbl α) (f : Nat → α → β) (i : Nat) :
    tget? (t.map fun e => (e.1, f e.1 e.2)) i = (tget? t i).map (f i) := by
  induction t with
  | nil => rfl
  | cons e t ih =>
    obtain ⟨k, w⟩ := e
    by_cases h : k = i
    · subst h; simp [tget?]
    · simpa [tget?, h] using ih

/-- The keys of a table rise strictly. -/
def tableOk (t : Tbl α) : Prop := (t.map Prod.fst).Pairwise (· < ·)

theorem tset_keys (t : Tbl α) (i : Nat) (v : α) {k : Nat} : k ∈ (tset t i v).map Prod.fst ↔ k = i ∨ k ∈ t.map Prod.fst := by
  induction t with
  | nil => simp [tset]
  | cons e t ih =>
    obtain ⟨a, w⟩ := e
    simp only [tset]
    split
    · next h => subst h; simp
    · split
      · simp
      · simp only [List.map_cons, List.mem_cons, ih]; tauto

/-- A write keeps the keys rising. -/
theorem tableOk_tset (t : Tbl α) (i : Nat) (v : α) (h : tableOk t) : tableOk (tset t i v) := by
  induction t with
  | nil => simp [tset, tableOk]
  | cons e t ih =>
    obtain ⟨a, w⟩ := e
    have h' := List.pairwise_cons.mp h
    simp only [tset]
    split
    · next ha => subst ha; exact h
    · next hne =>
      split
      · next hlt =>
        refine List.pairwise_cons.mpr ⟨?_, h⟩
        intro b hb
        rcases List.mem_cons.mp hb with rfl | hb
        · exact hlt
        · exact lt_trans hlt (h'.1 b hb)
      · next hge =>
        refine List.pairwise_cons.mpr ⟨?_, ih h'.2⟩
        intro b hb
        rcases (tset_keys t i v).mp hb with rfl | hb
        · show a < b; omega
        · exact h'.1 b hb

/-- A removal keeps the keys rising. -/
theorem tableOk_tdel (t : Tbl α) (i : Nat) (h : tableOk t) : tableOk (tdel t i) :=
  h.sublist (List.Sublist.map _ List.filter_sublist)

end Sys2Proof.Machine
end

