-- ==== Sys2Proof/Laws/Groups.lean ====
section
/-! SUPPORT. Laws of thread groups: what writing lanes does, and what an instruction that issues does. -/

namespace Sys2Proof.Machine

@[simp] theorem Group.wr_pc (g : Group) (l n : Nat) (v : W32) : (g.wr l n v).pc = g.pc := by unfold Group.wr; split <;> rfl
@[simp] theorem Group.wr_preds (g : Group) (l n : Nat) (v : W32) : (g.wr l n v).preds = g.preds := by
  unfold Group.wr; split <;> rfl
@[simp] theorem Group.wr_latch (g : Group) (l n : Nat) (v : W32) : (g.wr l n v).latch = g.latch := by
  unfold Group.wr; split <;> rfl

/-- A write changes only the registers. -/
theorem Group.wr_eta (g : Group) (l n : Nat) (v : W32) : g.wr l n v = { g with regs := (g.wr l n v).regs } := by
  unfold Group.wr; split <;> rfl

/-- What a register reads as after a write of one. -/
theorem Group.rd_wr (g : Group) (l n : Nat) (v : W32) (k r : Nat) (hn : n < 256) (hr : r < 256) :
    (g.wr l n v).rd k r = if r = n ∧ n ≠ 255 ∧ k = l then v else g.rd k r := by
  unfold Group.wr Group.rd
  by_cases h : n = 255
  · simp [h]
  · by_cases h255 : r = 255
    · simp [h255, h, Ne.symm h]
    · simp only [if_neg h, if_neg h255, tget_tset]
      by_cases hk : k * 256 + r = l * 256 + n
      · have : k = l := by omega
        have : r = n := by omega
        simp [*]
      · rw [if_neg hk, if_neg]; rintro ⟨rfl, -, rfl⟩; exact hk rfl

/-- Writing lanes changes only the registers. -/
theorem Group.wrLanes_eta (g : Group) (n : Nat) (f : Nat → W32) (on : List Nat) :
    g.wrLanes n f on = { g with regs := (g.wrLanes n f on).regs } := by
  unfold Group.wrLanes
  induction on generalizing g with
  | nil => rfl
  | cons l on ih => simp only [List.foldl_cons]; rw [ih, Group.wr_eta]

/-- What a register reads as after the lanes of a list have been written. -/
theorem Group.rd_wrLanes (g : Group) (n : Nat) (f : Nat → W32) (on : List Nat) (k r : Nat) (hn : n < 256) (hr : r < 256) :
    (g.wrLanes n f on).rd k r = if r = n ∧ n ≠ 255 ∧ k ∈ on then f k else g.rd k r := by
  unfold Group.wrLanes
  induction on generalizing g with
  | nil => simp
  | cons l on ih =>
    simp only [List.foldl_cons, ih, Group.rd_wr _ _ _ _ _ _ hn hr, List.mem_cons]
    by_cases h1 : r = n ∧ n ≠ 255
    · by_cases h2 : k ∈ on
      · simp [h1, h2]
      · by_cases h3 : k = l
        · subst h3; simp [h1, h2]
        · simp [h1, h2, h3]
    · have a : ¬ (r = n ∧ n ≠ 255 ∧ k ∈ on) := fun h => h1 ⟨h.1, h.2.1⟩
      have b : ¬ (r = n ∧ n ≠ 255 ∧ k = l) := fun h => h1 ⟨h.1, h.2.1⟩
      have c : ¬ (r = n ∧ n ≠ 255 ∧ (k = l ∨ k ∈ on)) := fun h => h1 ⟨h.1, h.2.1⟩
      simp only [if_neg a, if_neg b, if_neg c]

theorem bitOfSetBits (b : Byte) (p q : Nat) (v : Bool) (hp : p < 8) (hq : q < 8) :
    (BitVec.ofNat 8 (setBits b.toNat p p (b2n v))).getLsbD q = if q = p then v else b.getLsbD q := by
  rw [BitVec.getLsbD_ofNat, testBit_setBits _ _ _ _ _ (le_refl p)]
  by_cases h : q = p
  · subst h; cases v <;> simp [hq, b2n]
  · have : ¬ (p ≤ q ∧ q ≤ p) := by omega
    simp [h, this, hq, BitVec.testBit_toNat]

@[simp] theorem Group.setPred_regs (g : Group) (l p : Nat) (v : Bool) : (g.setPred l p v).regs = g.regs := by
  unfold Group.setPred; split <;> rfl

/-- A write of a predicate changes only the predicates. -/
theorem Group.setPred_eta (g : Group) (l p : Nat) (v : Bool) : g.setPred l p v = { g with preds := (g.setPred l p v).preds } := by
  unfold Group.setPred; split <;> rfl

/-- What a predicate reads as after a write of one. -/
theorem Group.pred_setPred (g : Group) (l p : Nat) (v : Bool) (k q : Nat) (hp : p < 8) (hq : q < 8) :
    (g.setPred l p v).pred k q = if q = p ∧ p ≠ 7 ∧ k = l then v else g.pred k q := by
  unfold Group.setPred Group.pred
  by_cases h : p = 7
  · simp [h]
  · by_cases h7 : q = 7
    · simp [h7, h, Ne.symm h]
    · simp only [if_neg h, if_neg h7, tget_tset]
      by_cases hk : k = l
      · subst hk; rw [if_pos rfl, bitOfSetBits _ _ _ _ hp hq]; simp [h]
      · simp [hk]

/-- Writing a predicate in lanes changes only the predicates. -/
theorem Group.setPreds_eta (g : Group) (p : Nat) (f : Nat → Bool) (on : List Nat) :
    on.foldl (fun h l => h.setPred l p (f l)) g
      = { g with preds := (on.foldl (fun h l => Group.setPred h l p (f l)) g).preds } := by
  induction on generalizing g with
  | nil => rfl
  | cons l on ih => simp only [List.foldl_cons]; rw [ih, Group.setPred_eta]

/-- What a predicate reads as after the lanes of a list have been written. -/
theorem Group.pred_setPreds (g : Group) (p : Nat) (f : Nat → Bool) (on : List Nat) (k q : Nat) (hp : p < 8) (hq : q < 8) :
    (on.foldl (fun h l => Group.setPred h l p (f l)) g).pred k q = if q = p ∧ p ≠ 7 ∧ k ∈ on then f k else g.pred k q := by
  induction on generalizing g with
  | nil => simp
  | cons l on ih =>
    simp only [List.foldl_cons, ih, Group.pred_setPred _ _ _ _ _ _ hp hq, List.mem_cons]
    by_cases h1 : q = p ∧ p ≠ 7
    · by_cases h2 : k ∈ on
      · simp [h1, h2]
      · by_cases h3 : k = l
        · subst h3; simp [h1, h2]
        · simp [h1, h2, h3]
    · have a : ¬ (q = p ∧ p ≠ 7 ∧ k ∈ on) := fun h => h1 ⟨h.1, h.2.1⟩
      have b : ¬ (q = p ∧ p ≠ 7 ∧ k = l) := fun h => h1 ⟨h.1, h.2.1⟩
      have c : ¬ (q = p ∧ p ≠ 7 ∧ (k = l ∨ k ∈ on)) := fun h => h1 ⟨h.1, h.2.1⟩
      simp only [if_neg a, if_neg b, if_neg c]

/-! ## An instruction that issues -/

/-- What issuing does when nothing stands against it: the instruction's effect. -/
theorem issue_eq {s : State} {sp sl : Nat} {regs : List Nat} {g : Group} (h : Issues s sp sl regs g) (eff : Group → State) :
    issue s sp sl regs false eff = eff g := by
  unfold issue; rw [h.ready]; simp [h.inRange, h.noHit]

/-- The group that can issue is the one in the slot. -/
theorem Issues.groupAt {s : State} {sp sl : Nat} {regs : List Nat} {g : Group} (h : Issues s sp sl regs g) :
    groupAt s sp sl = some g := by
  have := h.ready
  unfold issuable at this
  split at this
  · cases this
  · next g' hg =>
    split at this
    · cases this
    · cases this; exact hg

/-- Replacing the group in a slot changes nothing else. -/
theorem onlyGroup_setGroup (s : State) (sp sl : Nat) (g : Group) : OnlyGroup s (setGroup s sp sl g) sp sl := by
  refine ⟨⟨rfl, fun k hk => ?_⟩, ?_, fun k hk => ?_⟩
  · simp [setGroup, modSpur, State.spur, hk]
  · simp [setGroup, modSpur, State.spur]
  · simp [setGroup, modSpur, State.spur, Machine.groupAt, hk]

@[simp] theorem groupAt_setGroup (s : State) (sp sl : Nat) (g : Group) : groupAt (setGroup s sp sl g) sp sl = some g := by
  simp [setGroup, modSpur, State.spur, groupAt]

theorem bits_lt (v hi lo : Nat) : bits v hi lo < 2 ^ (hi - lo + 1) := Nat.mod_lt _ (by positivity)

theorem fmtA_vd_lt (w : W64) : (fmtA w).vd < 256 := bits_lt _ _ _
theorem fmtI_vd_lt (w : W64) : (fmtI w).vd < 256 := bits_lt _ _ _

/-- What an instruction that writes a register in its enabled lanes does (R35, R36, R51). -/
theorem laneWrite_spec (s : State) (sp sl vd pred : Nat) (pneg : Bool) (f : Group → Nat → W32) (g : Group) (hv : vd < 256) :
    ∃ h, Advanced s (laneWrite s sp sl vd pred pneg f g) sp sl g h ∧ WritesReg g h vd (g.enabled pred pneg) (f g) := by
  refine ⟨(g.wrLanes vd (f g) (g.enabled pred pneg)).next, ⟨onlyGroup_setGroup _ _ _ _, groupAt_setGroup _ _ _ _, ?_⟩, ?_, ?_, ?_⟩
  · rw [Group.wrLanes_eta]; rfl
  · rw [Group.wrLanes_eta]; rfl
  · rw [Group.wrLanes_eta]; rfl
  · exact fun l r hr => Group.rd_wrLanes g vd (f g) _ l r hv hr

/-- What an instruction that writes a predicate in its enabled lanes does. -/
theorem predWrite_spec (s : State) (sp sl p pred : Nat) (pneg : Bool) (f : Group → Nat → Bool) (g : Group) (hp : p < 8) :
    ∃ h, Advanced s (predWrite s sp sl p pred pneg f g) sp sl g h ∧ WritesPred g h p (g.enabled pred pneg) (f g) := by
  refine ⟨((g.enabled pred pneg).foldl (fun h l => Group.setPred h l p (f g l)) g).next,
    ⟨onlyGroup_setGroup _ _ _ _, groupAt_setGroup _ _ _ _, ?_⟩, ?_, ?_, ?_⟩
  · rw [Group.setPreds_eta]; rfl
  · rw [Group.setPreds_eta]; rfl
  · rw [Group.setPreds_eta]; rfl
  · exact fun l r hr => Group.pred_setPreds g p (f g) _ l r hp hr

end Sys2Proof.Machine
end

