-- ==== Sys2Proof/Laws/Memory.lean ====
section
/-! SUPPORT. Laws of memory: what a byte reads as after a write, and that every memory operation keeps the canonical
form. -/

namespace Sys2Proof.Machine
open Host (Cell)

theorem memByte_memPut (m : List Cell) (a b : Nat) (v : Byte) :
    memByte (memPut m a v) b = if b = a then v else memByte m b := by
  induction m with
  | nil => simp only [memPut, memByte, eq_comm]
  | cons e m ih =>
    obtain ⟨k, w⟩ := e
    simp only [memPut]
    split
    · next h =>
      subst h
      by_cases hb : b = k
      · subst hb; simp [memByte]
      · simp [memByte, hb, Ne.symm hb]
    · next h =>
      by_cases hb : b = a
      · subst hb; split <;> simp [memByte, h, ih]
      · split <;> simp [memByte, hb, Ne.symm hb, ih]

theorem memByte_filter (m : List Cell) (a b : Nat) :
    memByte (m.filter fun c => c.1 != a) b = if b = a then 0 else memByte m b := by
  induction m with
  | nil => simp [memByte]
  | cons e m ih =>
    obtain ⟨k, w⟩ := e
    by_cases h : k = a
    · subst h
      simp only [List.filter_cons, bne_self_eq_false, memByte, Bool.false_eq_true, if_false, ih]
      by_cases hb : b = k
      · simp [hb]
      · simp [hb, Ne.symm hb]
    · have hk : (k != a) = true := by simpa using h
      simp only [List.filter_cons, hk, if_true, memByte, ih]
      by_cases hb : b = a
      · subst hb; simp [h]
      · simp [hb]

/-- A written byte reads back, and every other byte is as before. -/
theorem memByte_memSet (m : List Cell) (a b : Nat) (v : Byte) :
    memByte (memSet m a v) b = if b = a then v else memByte m b := by
  unfold memSet
  split
  · next h => rw [memByte_filter, h]
  · exact memByte_memPut m a b v

/-- A run of written bytes reads back, and every byte outside it is as before. -/
theorem memByte_memWrite (bs : List Byte) : ∀ (m : List Cell) (a b : Nat),
    memByte (memWrite m a bs) b = if a ≤ b ∧ b < a + bs.length then bs.getD (b - a) 0 else memByte m b := by
  induction bs with
  | nil => intro m a b; rw [if_neg (by simp)]; rfl
  | cons x bs ih =>
    intro m a b
    simp only [memWrite, ih, memByte_memSet, List.length_cons]
    by_cases h : b = a
    · subst h; simp
    · by_cases h1 : a + 1 ≤ b ∧ b < a + 1 + bs.length
      · have h2 : a ≤ b ∧ b < a + (bs.length + 1) := by omega
        have h3 : b - a = (b - (a + 1)) + 1 := by omega
        rw [if_pos h1, if_pos h2, h3]; simp
      · have h2 : ¬ (a ≤ b ∧ b < a + (bs.length + 1)) := by omega
        rw [if_neg h1, if_neg h2, if_neg h]

/-! ## Canonical form -/

/-- The canonical form as a property of the list: addresses strictly rising, no byte 0. -/
theorem memWf_iff (m : List Cell) :
    memWf m = true ↔ (m.map Prod.fst).Pairwise (· < ·) ∧ ∀ c ∈ m, c.2 ≠ 0 := by
  induction m with
  | nil => simp [memWf]
  | cons e m ih =>
    obtain ⟨k, v⟩ := e
    cases m with
    | nil => simp [memWf]
    | cons e' m =>
      obtain ⟨k', v'⟩ := e'
      simp only [memWf, Bool.and_eq_true, decide_eq_true_eq, bne_iff_ne, ih]
      constructor
      · rintro ⟨⟨hv, hk⟩, hp, hm⟩
        refine ⟨?_, ?_⟩
        · refine List.pairwise_cons.mpr ⟨?_, hp⟩
          intro b hb
          rcases List.mem_cons.mp hb with rfl | hb
          · exact hk
          · exact lt_trans hk ((List.pairwise_cons.mp hp).1 b hb)
        · intro c hc
          rcases List.mem_cons.mp hc with rfl | hc
          · exact hv
          · exact hm c hc
      · rintro ⟨hp, hm⟩
        have hp' := List.pairwise_cons.mp hp
        exact ⟨⟨hm (k, v) (by simp), hp'.1 k' (by simp)⟩, hp'.2, fun c hc => hm c (List.mem_cons_of_mem _ hc)⟩

theorem memPut_keys (m : List Cell) (a : Nat) (v : Byte) {k : Nat} :
    k ∈ (memPut m a v).map Prod.fst → k = a ∨ k ∈ m.map Prod.fst := by
  induction m with
  | nil => simp [memPut]
  | cons e m ih =>
    obtain ⟨b, w⟩ := e
    simp only [memPut]
    split
    · next h => subst h; simp
    · split
      · simp
      · simp only [List.map_cons, List.mem_cons]; tauto

/-- Keeping some bytes keeps the canonical form. -/
theorem memWf_filter (p : Cell → Bool) (m : List Cell) (h : memWf m = true) : memWf (m.filter p) = true := by
  rw [memWf_iff] at h ⊢
  exact ⟨h.1.sublist (List.Sublist.map _ List.filter_sublist), fun c hc => h.2 c (List.mem_filter.mp hc).1⟩

theorem memWf_memPut (m : List Cell) (a : Nat) (v : Byte) (hv : v ≠ 0) (h : memWf m = true) :
    memWf (memPut m a v) = true := by
  rw [memWf_iff] at h ⊢
  induction m with
  | nil => exact ⟨by simp [memPut], by simpa [memPut] using hv⟩
  | cons e m ih =>
    obtain ⟨k, w⟩ := e
    obtain ⟨hp, hn⟩ := h
    have hp' := List.pairwise_cons.mp hp
    have ih' := ih ⟨hp'.2, fun c hc => hn c (List.mem_cons_of_mem _ hc)⟩
    simp only [memPut]
    split
    · next hk =>
      subst hk
      refine ⟨hp, ?_⟩
      intro c hc
      rcases List.mem_cons.mp hc with rfl | hc
      · exact hv
      · exact hn c (List.mem_cons_of_mem _ hc)
    · next hne =>
      split
      · next hlt =>
        refine ⟨List.pairwise_cons.mpr ⟨?_, hp⟩, ?_⟩
        · intro b hb
          rcases List.mem_cons.mp hb with rfl | hb
          · exact hlt
          · exact lt_trans hlt (hp'.1 b hb)
        · intro c hc
          rcases List.mem_cons.mp hc with rfl | hc
          · exact hv
          · exact hn c hc
      · next hge =>
        refine ⟨List.pairwise_cons.mpr ⟨?_, ih'.1⟩, ?_⟩
        · intro b hb
          rcases memPut_keys m a v hb with rfl | hb
          · show k < b; omega
          · exact hp'.1 b hb
        · intro c hc
          rcases List.mem_cons.mp hc with rfl | hc
          · exact hn (k, w) (by simp)
          · exact ih'.2 c hc

/-- Writing a byte keeps the canonical form. -/
theorem memWf_memSet (m : List Cell) (a : Nat) (v : Byte) (h : memWf m = true) : memWf (memSet m a v) = true := by
  unfold memSet
  split
  · exact memWf_filter _ m h
  · next hv => exact memWf_memPut m a v hv h

/-- Writing a run of bytes keeps the canonical form. -/
theorem memWf_memWrite (bs : List Byte) : ∀ (m : List Cell) (a : Nat), memWf m = true → memWf (memWrite m a bs) = true := by
  induction bs with
  | nil => intro m a h; exact h
  | cons x bs ih => intro m a h; exact ih _ _ (memWf_memSet m a x h)

end Sys2Proof.Machine
end

