-- ==== Sys2Proof/Laws/Registers.lean ====
section
/-! SUPPORT. Laws of the registers of control space: what a field reads as after another was set, and what counting an event
changes. -/

namespace Sys2Proof.Machine

/-- A field is set by putting one entry into the register table. -/
theorem setFldAt_eq (s : State) (die : Nat) (f : FRef) (i x : Nat) :
    setFldAt s die f i x = { s with
      regs := tset s.regs (regKey die (f.off + f.stride * i))
        (BitVec.ofNat 64 (setBits (regRaw s die (f.off + f.stride * i) f.cold).toNat f.hi f.lo x)) } := rfl

/-- Value of a register, by its key: what is stored, or its cold value. -/
theorem regRaw_setFldAt (s : State) (die : Nat) (f : FRef) (i x d off cold : Nat) :
    regRaw (setFldAt s die f i x) d off cold =
      if regKey d off = regKey die (f.off + f.stride * i)
      then BitVec.ofNat 64 (setBits (regRaw s die (f.off + f.stride * i) f.cold).toNat f.hi f.lo x)
      else regRaw s d off cold := by
  rw [setFldAt_eq]
  generalize regRaw s die (f.off + f.stride * i) f.cold = w
  unfold regRaw
  generalize regKey die (f.off + f.stride * i) = k
  generalize regKey d off = k'
  by_cases h : k' = k
  · subst h
    simp only [tget?_tset_self, if_true]
  · simp only [tget?_tset_ne _ _ h, if_neg h]

/-- A field that was set reads as what was written, cut to its width. -/
theorem fldAt_setFldAt_self (s : State) (die : Nat) (f : FRef) (i x : Nat) (h : f.lo ≤ f.hi) (hh : f.hi < 64) :
    fldAt (setFldAt s die f i x) die f i = x % 2 ^ (f.hi - f.lo + 1) := by
  have hb : setBits (regRaw s die (f.off + f.stride * i) f.cold).toNat f.hi f.lo x < 2 ^ 64 :=
    setBits_lt _ _ _ _ _ h hh (BitVec.isLt _)
  rw [fldAt, regRaw_setFldAt, if_pos rfl, BitVec.toNat_ofNat, Nat.mod_eq_of_lt hb, bits_setBits_self _ _ _ _ h]

/-- A field of another register is as before. -/
theorem fldAt_setFldAt_reg (s : State) (die : Nat) (f : FRef) (i x d : Nat) (g : FRef) (j : Nat)
    (h : regKey d (g.off + g.stride * j) ≠ regKey die (f.off + f.stride * i)) :
    fldAt (setFldAt s die f i x) d g j = fldAt s d g j := by
  rw [fldAt, regRaw_setFldAt, if_neg h, fldAt]

/-- Another field of the same register is as before. -/
theorem fldAt_setFldAt_bits (s : State) (die : Nat) (f : FRef) (i x : Nat) (g : FRef) (j : Nat)
    (ho : g.off + g.stride * j = f.off + f.stride * i) (hc : g.cold = f.cold)
    (h : f.lo ≤ f.hi) (hh : f.hi < 64) (hg : g.lo ≤ g.hi) (hd : g.hi < f.lo ∨ f.hi < g.lo) :
    fldAt (setFldAt s die f i x) die g j = fldAt s die g j := by
  have hb : setBits (regRaw s die (f.off + f.stride * i) f.cold).toNat f.hi f.lo x < 2 ^ 64 :=
    setBits_lt _ _ _ _ _ h hh (BitVec.isLt _)
  rw [fldAt, regRaw_setFldAt, ho, if_pos rfl, BitVec.toNat_ofNat, Nat.mod_eq_of_lt hb, bits_setBits_ne _ _ _ _ _ _ h hg hd,
    fldAt, ho, hc]

/-- Registers of two dies have different keys. -/
theorem regKey_ne_die {d e off off' : Nat} (h : d ≠ e) (ho : off < 2 ^ 28) (ho' : off' < 2 ^ 28) :
    regKey d off ≠ regKey e off' := by
  intro hk
  simp only [regKey] at hk
  omega

/-- A key names its die and its offset. -/
theorem regKey_inj {d e off off' : Nat} (ho : off < 2 ^ 28) (ho' : off' < 2 ^ 28) (h : regKey d off = regKey e off') :
    d = e ∧ off = off' := by
  simp only [regKey] at h
  omega

/-- An error counter below 0xFFFF rises by one, and at 0xFFFF it stays (R11). -/
theorem fldAt_bumpErrAt (s : State) (die : Nat) (c : FRef) (i : Nat) (hl : c.lo ≤ c.hi) (hh : c.hi < 64)
    (hw : c.hi - c.lo + 1 = 16) :
    fldAt (bumpErrAt s die c i) die c i = min 0xFFFF (fldAt s die c i + 1) := by
  have hb : fldAt s die c i < 2 ^ 16 := by
    rw [← hw]
    exact Nat.mod_lt _ (by positivity)
  unfold bumpErrAt
  simp only
  split
  · rw [fldAt_setFldAt_self _ _ _ _ _ hl hh, hw]
    omega
  · omega

/-- STATE of the status window is what it was set to, and nothing but it and the alert changes. -/
theorem setBootState_eq (s : State) (n : Nat) :
    (setBootState s n).boot.state = n ∧
      setBootState s n = { s with boot := { s.boot with state := n }, mgmt := (setBootState s n).mgmt } := by
  unfold setBootState
  split
  · next h => exact ⟨h, by rw [← h]⟩
  · exact ⟨rfl, rfl⟩

end Sys2Proof.Machine
end

