-- ==== Sys2Proof/Laws/State.lean ====
section
/-! SUPPORT. Laws of the named updates of the state: what each field of the state is after each of them. Every lemma holds by
computation, so that no later proof unfolds a record update. -/

namespace Sys2Proof.Machine

/-! ### `modSpur` -/

@[simp] theorem modSpur_pending (s : State) (sp : Nat) (f : Spur → Spur) : (modSpur s sp f).pending = s.pending := rfl
@[simp] theorem modSpur_time (s : State) (sp : Nat) (f : Spur → Spur) : (modSpur s sp f).time = s.time := rfl
@[simp] theorem modSpur_free (s : State) (sp : Nat) (f : Spur → Spur) : (modSpur s sp f).free = s.free := rfl
@[simp] theorem modSpur_regs (s : State) (sp : Nat) (f : Spur → Spur) : (modSpur s sp f).regs = s.regs := rfl
@[simp] theorem modSpur_shadow (s : State) (sp : Nat) (f : Spur → Spur) : (modSpur s sp f).shadow = s.shadow := rfl
@[simp] theorem modSpur_mem (s : State) (sp : Nat) (f : Spur → Spur) : (modSpur s sp f).mem = s.mem := rfl
@[simp] theorem modSpur_poison (s : State) (sp : Nat) (f : Spur → Spur) : (modSpur s sp f).poison = s.poison := rfl
@[simp] theorem modSpur_net (s : State) (sp : Nat) (f : Spur → Spur) : (modSpur s sp f).net = s.net := rfl
@[simp] theorem modSpur_spurs (s : State) (sp : Nat) (f : Spur → Spur) :
    (modSpur s sp f).spurs = tmod s.spurs sp {} f := rfl
@[simp] theorem modSpur_tdies (s : State) (sp : Nat) (f : Spur → Spur) : (modSpur s sp f).tdies = s.tdies := rfl
@[simp] theorem modSpur_kernels (s : State) (sp : Nat) (f : Spur → Spur) : (modSpur s sp f).kernels = s.kernels := rfl
@[simp] theorem modSpur_harts (s : State) (sp : Nat) (f : Spur → Spur) : (modSpur s sp f).harts = s.harts := rfl
@[simp] theorem modSpur_coh (s : State) (sp : Nat) (f : Spur → Spur) : (modSpur s sp f).coh = s.coh := rfl
@[simp] theorem modSpur_xlt (s : State) (sp : Nat) (f : Spur → Spur) : (modSpur s sp f).xlt = s.xlt := rfl
@[simp] theorem modSpur_tiers (s : State) (sp : Nat) (f : Spur → Spur) : (modSpur s sp f).tiers = s.tiers := rfl
@[simp] theorem modSpur_qs (s : State) (sp : Nat) (f : Spur → Spur) : (modSpur s sp f).qs = s.qs := rfl
@[simp] theorem modSpur_former (s : State) (sp : Nat) (f : Spur → Spur) : (modSpur s sp f).former = s.former := rfl
@[simp] theorem modSpur_cl (s : State) (sp : Nat) (f : Spur → Spur) : (modSpur s sp f).cl = s.cl := rfl
@[simp] theorem modSpur_arbs (s : State) (sp : Nat) (f : Spur → Spur) : (modSpur s sp f).arbs = s.arbs := rfl
@[simp] theorem modSpur_ksl (s : State) (sp : Nat) (f : Spur → Spur) : (modSpur s sp f).ksl = s.ksl := rfl
@[simp] theorem modSpur_fab (s : State) (sp : Nat) (f : Spur → Spur) : (modSpur s sp f).fab = s.fab := rfl
@[simp] theorem modSpur_ridge (s : State) (sp : Nat) (f : Spur → Spur) : (modSpur s sp f).ridge = s.ridge := rfl
@[simp] theorem modSpur_col (s : State) (sp : Nat) (f : Spur → Spur) : (modSpur s sp f).col = s.col := rfl
@[simp] theorem modSpur_pwr (s : State) (sp : Nat) (f : Spur → Spur) : (modSpur s sp f).pwr = s.pwr := rfl
@[simp] theorem modSpur_boot (s : State) (sp : Nat) (f : Spur → Spur) : (modSpur s sp f).boot = s.boot := rfl
@[simp] theorem modSpur_svc (s : State) (sp : Nat) (f : Spur → Spur) : (modSpur s sp f).svc = s.svc := rfl
@[simp] theorem modSpur_mgmt (s : State) (sp : Nat) (f : Spur → Spur) : (modSpur s sp f).mgmt = s.mgmt := rfl

/-! ### `setGroup` -/

@[simp] theorem setGroup_pending (s : State) (sp sl : Nat) (g : Group) : (setGroup s sp sl g).pending = s.pending := rfl
@[simp] theorem setGroup_time (s : State) (sp sl : Nat) (g : Group) : (setGroup s sp sl g).time = s.time := rfl
@[simp] theorem setGroup_free (s : State) (sp sl : Nat) (g : Group) : (setGroup s sp sl g).free = s.free := rfl
@[simp] theorem setGroup_regs (s : State) (sp sl : Nat) (g : Group) : (setGroup s sp sl g).regs = s.regs := rfl
@[simp] theorem setGroup_shadow (s : State) (sp sl : Nat) (g : Group) : (setGroup s sp sl g).shadow = s.shadow := rfl
@[simp] theorem setGroup_mem (s : State) (sp sl : Nat) (g : Group) : (setGroup s sp sl g).mem = s.mem := rfl
@[simp] theorem setGroup_poison (s : State) (sp sl : Nat) (g : Group) : (setGroup s sp sl g).poison = s.poison := rfl
@[simp] theorem setGroup_net (s : State) (sp sl : Nat) (g : Group) : (setGroup s sp sl g).net = s.net := rfl
@[simp] theorem setGroup_tdies (s : State) (sp sl : Nat) (g : Group) : (setGroup s sp sl g).tdies = s.tdies := rfl
@[simp] theorem setGroup_kernels (s : State) (sp sl : Nat) (g : Group) : (setGroup s sp sl g).kernels = s.kernels := rfl
@[simp] theorem setGroup_harts (s : State) (sp sl : Nat) (g : Group) : (setGroup s sp sl g).harts = s.harts := rfl
@[simp] theorem setGroup_coh (s : State) (sp sl : Nat) (g : Group) : (setGroup s sp sl g).coh = s.coh := rfl
@[simp] theorem setGroup_xlt (s : State) (sp sl : Nat) (g : Group) : (setGroup s sp sl g).xlt = s.xlt := rfl
@[simp] theorem setGroup_tiers (s : State) (sp sl : Nat) (g : Group) : (setGroup s sp sl g).tiers = s.tiers := rfl
@[simp] theorem setGroup_qs (s : State) (sp sl : Nat) (g : Group) : (setGroup s sp sl g).qs = s.qs := rfl
@[simp] theorem setGroup_former (s : State) (sp sl : Nat) (g : Group) : (setGroup s sp sl g).former = s.former := rfl
@[simp] theorem setGroup_cl (s : State) (sp sl : Nat) (g : Group) : (setGroup s sp sl g).cl = s.cl := rfl
@[simp] theorem setGroup_arbs (s : State) (sp sl : Nat) (g : Group) : (setGroup s sp sl g).arbs = s.arbs := rfl
@[simp] theorem setGroup_ksl (s : State) (sp sl : Nat) (g : Group) : (setGroup s sp sl g).ksl = s.ksl := rfl
@[simp] theorem setGroup_fab (s : State) (sp sl : Nat) (g : Group) : (setGroup s sp sl g).fab = s.fab := rfl
@[simp] theorem setGroup_ridge (s : State) (sp sl : Nat) (g : Group) : (setGroup s sp sl g).ridge = s.ridge := rfl
@[simp] theorem setGroup_col (s : State) (sp sl : Nat) (g : Group) : (setGroup s sp sl g).col = s.col := rfl
@[simp] theorem setGroup_pwr (s : State) (sp sl : Nat) (g : Group) : (setGroup s sp sl g).pwr = s.pwr := rfl
@[simp] theorem setGroup_boot (s : State) (sp sl : Nat) (g : Group) : (setGroup s sp sl g).boot = s.boot := rfl
@[simp] theorem setGroup_svc (s : State) (sp sl : Nat) (g : Group) : (setGroup s sp sl g).svc = s.svc := rfl
@[simp] theorem setGroup_mgmt (s : State) (sp sl : Nat) (g : Group) : (setGroup s sp sl g).mgmt = s.mgmt := rfl

/-! ### `setBlock` -/

@[simp] theorem setBlock_pending (s : State) (sp b : Nat) (k : Block) : (setBlock s sp b k).pending = s.pending := rfl
@[simp] theorem setBlock_time (s : State) (sp b : Nat) (k : Block) : (setBlock s sp b k).time = s.time := rfl
@[simp] theorem setBlock_free (s : State) (sp b : Nat) (k : Block) : (setBlock s sp b k).free = s.free := rfl
@[simp] theorem setBlock_regs (s : State) (sp b : Nat) (k : Block) : (setBlock s sp b k).regs = s.regs := rfl
@[simp] theorem setBlock_shadow (s : State) (sp b : Nat) (k : Block) : (setBlock s sp b k).shadow = s.shadow := rfl
@[simp] theorem setBlock_mem (s : State) (sp b : Nat) (k : Block) : (setBlock s sp b k).mem = s.mem := rfl
@[simp] theorem setBlock_poison (s : State) (sp b : Nat) (k : Block) : (setBlock s sp b k).poison = s.poison := rfl
@[simp] theorem setBlock_net (s : State) (sp b : Nat) (k : Block) : (setBlock s sp b k).net = s.net := rfl
@[simp] theorem setBlock_tdies (s : State) (sp b : Nat) (k : Block) : (setBlock s sp b k).tdies = s.tdies := rfl
@[simp] theorem setBlock_kernels (s : State) (sp b : Nat) (k : Block) : (setBlock s sp b k).kernels = s.kernels := rfl
@[simp] theorem setBlock_harts (s : State) (sp b : Nat) (k : Block) : (setBlock s sp b k).harts = s.harts := rfl
@[simp] theorem setBlock_coh (s : State) (sp b : Nat) (k : Block) : (setBlock s sp b k).coh = s.coh := rfl
@[simp] theorem setBlock_xlt (s : State) (sp b : Nat) (k : Block) : (setBlock s sp b k).xlt = s.xlt := rfl
@[simp] theorem setBlock_tiers (s : State) (sp b : Nat) (k : Block) : (setBlock s sp b k).tiers = s.tiers := rfl
@[simp] theorem setBlock_qs (s : State) (sp b : Nat) (k : Block) : (setBlock s sp b k).qs = s.qs := rfl
@[simp] theorem setBlock_former (s : State) (sp b : Nat) (k : Block) : (setBlock s sp b k).former = s.former := rfl
@[simp] theorem setBlock_cl (s : State) (sp b : Nat) (k : Block) : (setBlock s sp b k).cl = s.cl := rfl
@[simp] theorem setBlock_arbs (s : State) (sp b : Nat) (k : Block) : (setBlock s sp b k).arbs = s.arbs := rfl
@[simp] theorem setBlock_ksl (s : State) (sp b : Nat) (k : Block) : (setBlock s sp b k).ksl = s.ksl := rfl
@[simp] theorem setBlock_fab (s : State) (sp b : Nat) (k : Block) : (setBlock s sp b k).fab = s.fab := rfl
@[simp] theorem setBlock_ridge (s : State) (sp b : Nat) (k : Block) : (setBlock s sp b k).ridge = s.ridge := rfl
@[simp] theorem setBlock_col (s : State) (sp b : Nat) (k : Block) : (setBlock s sp b k).col = s.col := rfl
@[simp] theorem setBlock_pwr (s : State) (sp b : Nat) (k : Block) : (setBlock s sp b k).pwr = s.pwr := rfl
@[simp] theorem setBlock_boot (s : State) (sp b : Nat) (k : Block) : (setBlock s sp b k).boot = s.boot := rfl
@[simp] theorem setBlock_svc (s : State) (sp b : Nat) (k : Block) : (setBlock s sp b k).svc = s.svc := rfl
@[simp] theorem setBlock_mgmt (s : State) (sp b : Nat) (k : Block) : (setBlock s sp b k).mgmt = s.mgmt := rfl

/-! ### `modTdie` -/

@[simp] theorem modTdie_pending (s : State) (td : Nat) (f : TensorDie → TensorDie) : (modTdie s td f).pending = s.pending := rfl
@[simp] theorem modTdie_time (s : State) (td : Nat) (f : TensorDie → TensorDie) : (modTdie s td f).time = s.time := rfl
@[simp] theorem modTdie_free (s : State) (td : Nat) (f : TensorDie → TensorDie) : (modTdie s td f).free = s.free := rfl
@[simp] theorem modTdie_regs (s : State) (td : Nat) (f : TensorDie → TensorDie) : (modTdie s td f).regs = s.regs := rfl
@[simp] theorem modTdie_shadow (s : State) (td : Nat) (f : TensorDie → TensorDie) : (modTdie s td f).shadow = s.shadow := rfl
@[simp] theorem modTdie_mem (s : State) (td : Nat) (f : TensorDie → TensorDie) : (modTdie s td f).mem = s.mem := rfl
@[simp] theorem modTdie_poison (s : State) (td : Nat) (f : TensorDie → TensorDie) : (modTdie s td f).poison = s.poison := rfl
@[simp] theorem modTdie_net (s : State) (td : Nat) (f : TensorDie → TensorDie) : (modTdie s td f).net = s.net := rfl
@[simp] theorem modTdie_spurs (s : State) (td : Nat) (f : TensorDie → TensorDie) : (modTdie s td f).spurs = s.spurs := rfl
@[simp] theorem modTdie_tdies (s : State) (td : Nat) (f : TensorDie → TensorDie) :
    (modTdie s td f).tdies = tmod s.tdies td {} f := rfl
@[simp] theorem modTdie_kernels (s : State) (td : Nat) (f : TensorDie → TensorDie) : (modTdie s td f).kernels = s.kernels := rfl
@[simp] theorem modTdie_harts (s : State) (td : Nat) (f : TensorDie → TensorDie) : (modTdie s td f).harts = s.harts := rfl
@[simp] theorem modTdie_coh (s : State) (td : Nat) (f : TensorDie → TensorDie) : (modTdie s td f).coh = s.coh := rfl
@[simp] theorem modTdie_xlt (s : State) (td : Nat) (f : TensorDie → TensorDie) : (modTdie s td f).xlt = s.xlt := rfl
@[simp] theorem modTdie_tiers (s : State) (td : Nat) (f : TensorDie → TensorDie) : (modTdie s td f).tiers = s.tiers := rfl
@[simp] theorem modTdie_qs (s : State) (td : Nat) (f : TensorDie → TensorDie) : (modTdie s td f).qs = s.qs := rfl
@[simp] theorem modTdie_former (s : State) (td : Nat) (f : TensorDie → TensorDie) : (modTdie s td f).former = s.former := rfl
@[simp] theorem modTdie_cl (s : State) (td : Nat) (f : TensorDie → TensorDie) : (modTdie s td f).cl = s.cl := rfl
@[simp] theorem modTdie_arbs (s : State) (td : Nat) (f : TensorDie → TensorDie) : (modTdie s td f).arbs = s.arbs := rfl
@[simp] theorem modTdie_ksl (s : State) (td : Nat) (f : TensorDie → TensorDie) : (modTdie s td f).ksl = s.ksl := rfl
@[simp] theorem modTdie_fab (s : State) (td : Nat) (f : TensorDie → TensorDie) : (modTdie s td f).fab = s.fab := rfl
@[simp] theorem modTdie_ridge (s : State) (td : Nat) (f : TensorDie → TensorDie) : (modTdie s td f).ridge = s.ridge := rfl
@[simp] theorem modTdie_col (s : State) (td : Nat) (f : TensorDie → TensorDie) : (modTdie s td f).col = s.col := rfl
@[simp] theorem modTdie_pwr (s : State) (td : Nat) (f : TensorDie → TensorDie) : (modTdie s td f).pwr = s.pwr := rfl
@[simp] theorem modTdie_boot (s : State) (td : Nat) (f : TensorDie → TensorDie) : (modTdie s td f).boot = s.boot := rfl
@[simp] theorem modTdie_svc (s : State) (td : Nat) (f : TensorDie → TensorDie) : (modTdie s td f).svc = s.svc := rfl
@[simp] theorem modTdie_mgmt (s : State) (td : Nat) (f : TensorDie → TensorDie) : (modTdie s td f).mgmt = s.mgmt := rfl

/-! ### `modHart` -/

@[simp] theorem modHart_pending (s : State) (h : Nat) (f : Hart → Hart) : (modHart s h f).pending = s.pending := rfl
@[simp] theorem modHart_time (s : State) (h : Nat) (f : Hart → Hart) : (modHart s h f).time = s.time := rfl
@[simp] theorem modHart_free (s : State) (h : Nat) (f : Hart → Hart) : (modHart s h f).free = s.free := rfl
@[simp] theorem modHart_regs (s : State) (h : Nat) (f : Hart → Hart) : (modHart s h f).regs = s.regs := rfl
@[simp] theorem modHart_shadow (s : State) (h : Nat) (f : Hart → Hart) : (modHart s h f).shadow = s.shadow := rfl
@[simp] theorem modHart_mem (s : State) (h : Nat) (f : Hart → Hart) : (modHart s h f).mem = s.mem := rfl
@[simp] theorem modHart_poison (s : State) (h : Nat) (f : Hart → Hart) : (modHart s h f).poison = s.poison := rfl
@[simp] theorem modHart_net (s : State) (h : Nat) (f : Hart → Hart) : (modHart s h f).net = s.net := rfl
@[simp] theorem modHart_spurs (s : State) (h : Nat) (f : Hart → Hart) : (modHart s h f).spurs = s.spurs := rfl
@[simp] theorem modHart_tdies (s : State) (h : Nat) (f : Hart → Hart) : (modHart s h f).tdies = s.tdies := rfl
@[simp] theorem modHart_kernels (s : State) (h : Nat) (f : Hart → Hart) : (modHart s h f).kernels = s.kernels := rfl
@[simp] theorem modHart_harts (s : State) (h : Nat) (f : Hart → Hart) :
    (modHart s h f).harts = tmod s.harts h {} f := rfl
@[simp] theorem modHart_coh (s : State) (h : Nat) (f : Hart → Hart) : (modHart s h f).coh = s.coh := rfl
@[simp] theorem modHart_xlt (s : State) (h : Nat) (f : Hart → Hart) : (modHart s h f).xlt = s.xlt := rfl
@[simp] theorem modHart_tiers (s : State) (h : Nat) (f : Hart → Hart) : (modHart s h f).tiers = s.tiers := rfl
@[simp] theorem modHart_qs (s : State) (h : Nat) (f : Hart → Hart) : (modHart s h f).qs = s.qs := rfl
@[simp] theorem modHart_former (s : State) (h : Nat) (f : Hart → Hart) : (modHart s h f).former = s.former := rfl
@[simp] theorem modHart_cl (s : State) (h : Nat) (f : Hart → Hart) : (modHart s h f).cl = s.cl := rfl
@[simp] theorem modHart_arbs (s : State) (h : Nat) (f : Hart → Hart) : (modHart s h f).arbs = s.arbs := rfl
@[simp] theorem modHart_ksl (s : State) (h : Nat) (f : Hart → Hart) : (modHart s h f).ksl = s.ksl := rfl
@[simp] theorem modHart_fab (s : State) (h : Nat) (f : Hart → Hart) : (modHart s h f).fab = s.fab := rfl
@[simp] theorem modHart_ridge (s : State) (h : Nat) (f : Hart → Hart) : (modHart s h f).ridge = s.ridge := rfl
@[simp] theorem modHart_col (s : State) (h : Nat) (f : Hart → Hart) : (modHart s h f).col = s.col := rfl
@[simp] theorem modHart_pwr (s : State) (h : Nat) (f : Hart → Hart) : (modHart s h f).pwr = s.pwr := rfl
@[simp] theorem modHart_boot (s : State) (h : Nat) (f : Hart → Hart) : (modHart s h f).boot = s.boot := rfl
@[simp] theorem modHart_svc (s : State) (h : Nat) (f : Hart → Hart) : (modHart s h f).svc = s.svc := rfl
@[simp] theorem modHart_mgmt (s : State) (h : Nat) (f : Hart → Hart) : (modHart s h f).mgmt = s.mgmt := rfl

/-! ### `modCoh` -/

@[simp] theorem modCoh_pending (s : State) (f : Coherence → Coherence) : (modCoh s f).pending = s.pending := rfl
@[simp] theorem modCoh_time (s : State) (f : Coherence → Coherence) : (modCoh s f).time = s.time := rfl
@[simp] theorem modCoh_free (s : State) (f : Coherence → Coherence) : (modCoh s f).free = s.free := rfl
@[simp] theorem modCoh_regs (s : State) (f : Coherence → Coherence) : (modCoh s f).regs = s.regs := rfl
@[simp] theorem modCoh_shadow (s : State) (f : Coherence → Coherence) : (modCoh s f).shadow = s.shadow := rfl
@[simp] theorem modCoh_mem (s : State) (f : Coherence → Coherence) : (modCoh s f).mem = s.mem := rfl
@[simp] theorem modCoh_poison (s : State) (f : Coherence → Coherence) : (modCoh s f).poison = s.poison := rfl
@[simp] theorem modCoh_net (s : State) (f : Coherence → Coherence) : (modCoh s f).net = s.net := rfl
@[simp] theorem modCoh_spurs (s : State) (f : Coherence → Coherence) : (modCoh s f).spurs = s.spurs := rfl
@[simp] theorem modCoh_tdies (s : State) (f : Coherence → Coherence) : (modCoh s f).tdies = s.tdies := rfl
@[simp] theorem modCoh_kernels (s : State) (f : Coherence → Coherence) : (modCoh s f).kernels = s.kernels := rfl
@[simp] theorem modCoh_harts (s : State) (f : Coherence → Coherence) : (modCoh s f).harts = s.harts := rfl
@[simp] theorem modCoh_coh (s : State) (f : Coherence → Coherence) :
    (modCoh s f).coh = f s.coh := rfl
@[simp] theorem modCoh_xlt (s : State) (f : Coherence → Coherence) : (modCoh s f).xlt = s.xlt := rfl
@[simp] theorem modCoh_tiers (s : State) (f : Coherence → Coherence) : (modCoh s f).tiers = s.tiers := rfl
@[simp] theorem modCoh_qs (s : State) (f : Coherence → Coherence) : (modCoh s f).qs = s.qs := rfl
@[simp] theorem modCoh_former (s : State) (f : Coherence → Coherence) : (modCoh s f).former = s.former := rfl
@[simp] theorem modCoh_cl (s : State) (f : Coherence → Coherence) : (modCoh s f).cl = s.cl := rfl
@[simp] theorem modCoh_arbs (s : State) (f : Coherence → Coherence) : (modCoh s f).arbs = s.arbs := rfl
@[simp] theorem modCoh_ksl (s : State) (f : Coherence → Coherence) : (modCoh s f).ksl = s.ksl := rfl
@[simp] theorem modCoh_fab (s : State) (f : Coherence → Coherence) : (modCoh s f).fab = s.fab := rfl
@[simp] theorem modCoh_ridge (s : State) (f : Coherence → Coherence) : (modCoh s f).ridge = s.ridge := rfl
@[simp] theorem modCoh_col (s : State) (f : Coherence → Coherence) : (modCoh s f).col = s.col := rfl
@[simp] theorem modCoh_pwr (s : State) (f : Coherence → Coherence) : (modCoh s f).pwr = s.pwr := rfl
@[simp] theorem modCoh_boot (s : State) (f : Coherence → Coherence) : (modCoh s f).boot = s.boot := rfl
@[simp] theorem modCoh_svc (s : State) (f : Coherence → Coherence) : (modCoh s f).svc = s.svc := rfl
@[simp] theorem modCoh_mgmt (s : State) (f : Coherence → Coherence) : (modCoh s f).mgmt = s.mgmt := rfl

/-! ### `modHome` -/

@[simp] theorem modHome_pending (s : State) (md : Nat) (f : Home → Home) : (modHome s md f).pending = s.pending := rfl
@[simp] theorem modHome_time (s : State) (md : Nat) (f : Home → Home) : (modHome s md f).time = s.time := rfl
@[simp] theorem modHome_free (s : State) (md : Nat) (f : Home → Home) : (modHome s md f).free = s.free := rfl
@[simp] theorem modHome_regs (s : State) (md : Nat) (f : Home → Home) : (modHome s md f).regs = s.regs := rfl
@[simp] theorem modHome_shadow (s : State) (md : Nat) (f : Home → Home) : (modHome s md f).shadow = s.shadow := rfl
@[simp] theorem modHome_mem (s : State) (md : Nat) (f : Home → Home) : (modHome s md f).mem = s.mem := rfl
@[simp] theorem modHome_poison (s : State) (md : Nat) (f : Home → Home) : (modHome s md f).poison = s.poison := rfl
@[simp] theorem modHome_net (s : State) (md : Nat) (f : Home → Home) : (modHome s md f).net = s.net := rfl
@[simp] theorem modHome_spurs (s : State) (md : Nat) (f : Home → Home) : (modHome s md f).spurs = s.spurs := rfl
@[simp] theorem modHome_tdies (s : State) (md : Nat) (f : Home → Home) : (modHome s md f).tdies = s.tdies := rfl
@[simp] theorem modHome_kernels (s : State) (md : Nat) (f : Home → Home) : (modHome s md f).kernels = s.kernels := rfl
@[simp] theorem modHome_harts (s : State) (md : Nat) (f : Home → Home) : (modHome s md f).harts = s.harts := rfl
@[simp] theorem modHome_coh (s : State) (md : Nat) (f : Home → Home) :
    (modHome s md f).coh = { s.coh with homes := tmod s.coh.homes md {} f } := rfl
@[simp] theorem modHome_xlt (s : State) (md : Nat) (f : Home → Home) : (modHome s md f).xlt = s.xlt := rfl
@[simp] theorem modHome_tiers (s : State) (md : Nat) (f : Home → Home) : (modHome s md f).tiers = s.tiers := rfl
@[simp] theorem modHome_qs (s : State) (md : Nat) (f : Home → Home) : (modHome s md f).qs = s.qs := rfl
@[simp] theorem modHome_former (s : State) (md : Nat) (f : Home → Home) : (modHome s md f).former = s.former := rfl
@[simp] theorem modHome_cl (s : State) (md : Nat) (f : Home → Home) : (modHome s md f).cl = s.cl := rfl
@[simp] theorem modHome_arbs (s : State) (md : Nat) (f : Home → Home) : (modHome s md f).arbs = s.arbs := rfl
@[simp] theorem modHome_ksl (s : State) (md : Nat) (f : Home → Home) : (modHome s md f).ksl = s.ksl := rfl
@[simp] theorem modHome_fab (s : State) (md : Nat) (f : Home → Home) : (modHome s md f).fab = s.fab := rfl
@[simp] theorem modHome_ridge (s : State) (md : Nat) (f : Home → Home) : (modHome s md f).ridge = s.ridge := rfl
@[simp] theorem modHome_col (s : State) (md : Nat) (f : Home → Home) : (modHome s md f).col = s.col := rfl
@[simp] theorem modHome_pwr (s : State) (md : Nat) (f : Home → Home) : (modHome s md f).pwr = s.pwr := rfl
@[simp] theorem modHome_boot (s : State) (md : Nat) (f : Home → Home) : (modHome s md f).boot = s.boot := rfl
@[simp] theorem modHome_svc (s : State) (md : Nat) (f : Home → Home) : (modHome s md f).svc = s.svc := rfl
@[simp] theorem modHome_mgmt (s : State) (md : Nat) (f : Home → Home) : (modHome s md f).mgmt = s.mgmt := rfl

/-! ### `setAgentLine` -/

@[simp] theorem setAgentLine_pending (s : State) (a ln : Nat) (l : AgentLine) : (setAgentLine s a ln l).pending = s.pending := rfl
@[simp] theorem setAgentLine_time (s : State) (a ln : Nat) (l : AgentLine) : (setAgentLine s a ln l).time = s.time := rfl
@[simp] theorem setAgentLine_free (s : State) (a ln : Nat) (l : AgentLine) : (setAgentLine s a ln l).free = s.free := rfl
@[simp] theorem setAgentLine_regs (s : State) (a ln : Nat) (l : AgentLine) : (setAgentLine s a ln l).regs = s.regs := rfl
@[simp] theorem setAgentLine_shadow (s : State) (a ln : Nat) (l : AgentLine) : (setAgentLine s a ln l).shadow = s.shadow := rfl
@[simp] theorem setAgentLine_mem (s : State) (a ln : Nat) (l : AgentLine) : (setAgentLine s a ln l).mem = s.mem := rfl
@[simp] theorem setAgentLine_poison (s : State) (a ln : Nat) (l : AgentLine) : (setAgentLine s a ln l).poison = s.poison := rfl
@[simp] theorem setAgentLine_net (s : State) (a ln : Nat) (l : AgentLine) : (setAgentLine s a ln l).net = s.net := rfl
@[simp] theorem setAgentLine_spurs (s : State) (a ln : Nat) (l : AgentLine) : (setAgentLine s a ln l).spurs = s.spurs := rfl
@[simp] theorem setAgentLine_tdies (s : State) (a ln : Nat) (l : AgentLine) : (setAgentLine s a ln l).tdies = s.tdies := rfl
@[simp] theorem setAgentLine_kernels (s : State) (a ln : Nat) (l : AgentLine) : (setAgentLine s a ln l).kernels = s.kernels := rfl
@[simp] theorem setAgentLine_harts (s : State) (a ln : Nat) (l : AgentLine) : (setAgentLine s a ln l).harts = s.harts := rfl
@[simp] theorem setAgentLine_xlt (s : State) (a ln : Nat) (l : AgentLine) : (setAgentLine s a ln l).xlt = s.xlt := rfl
@[simp] theorem setAgentLine_tiers (s : State) (a ln : Nat) (l : AgentLine) : (setAgentLine s a ln l).tiers = s.tiers := rfl
@[simp] theorem setAgentLine_qs (s : State) (a ln : Nat) (l : AgentLine) : (setAgentLine s a ln l).qs = s.qs := rfl
@[simp] theorem setAgentLine_former (s : State) (a ln : Nat) (l : AgentLine) : (setAgentLine s a ln l).former = s.former := rfl
@[simp] theorem setAgentLine_cl (s : State) (a ln : Nat) (l : AgentLine) : (setAgentLine s a ln l).cl = s.cl := rfl
@[simp] theorem setAgentLine_arbs (s : State) (a ln : Nat) (l : AgentLine) : (setAgentLine s a ln l).arbs = s.arbs := rfl
@[simp] theorem setAgentLine_ksl (s : State) (a ln : Nat) (l : AgentLine) : (setAgentLine s a ln l).ksl = s.ksl := rfl
@[simp] theorem setAgentLine_fab (s : State) (a ln : Nat) (l : AgentLine) : (setAgentLine s a ln l).fab = s.fab := rfl
@[simp] theorem setAgentLine_ridge (s : State) (a ln : Nat) (l : AgentLine) : (setAgentLine s a ln l).ridge = s.ridge := rfl
@[simp] theorem setAgentLine_col (s : State) (a ln : Nat) (l : AgentLine) : (setAgentLine s a ln l).col = s.col := rfl
@[simp] theorem setAgentLine_pwr (s : State) (a ln : Nat) (l : AgentLine) : (setAgentLine s a ln l).pwr = s.pwr := rfl
@[simp] theorem setAgentLine_boot (s : State) (a ln : Nat) (l : AgentLine) : (setAgentLine s a ln l).boot = s.boot := rfl
@[simp] theorem setAgentLine_svc (s : State) (a ln : Nat) (l : AgentLine) : (setAgentLine s a ln l).svc = s.svc := rfl
@[simp] theorem setAgentLine_mgmt (s : State) (a ln : Nat) (l : AgentLine) : (setAgentLine s a ln l).mgmt = s.mgmt := rfl

/-! ### `modXlt` -/

@[simp] theorem modXlt_pending (s : State) (f : Xlt → Xlt) : (modXlt s f).pending = s.pending := rfl
@[simp] theorem modXlt_time (s : State) (f : Xlt → Xlt) : (modXlt s f).time = s.time := rfl
@[simp] theorem modXlt_free (s : State) (f : Xlt → Xlt) : (modXlt s f).free = s.free := rfl
@[simp] theorem modXlt_regs (s : State) (f : Xlt → Xlt) : (modXlt s f).regs = s.regs := rfl
@[simp] theorem modXlt_shadow (s : State) (f : Xlt → Xlt) : (modXlt s f).shadow = s.shadow := rfl
@[simp] theorem modXlt_mem (s : State) (f : Xlt → Xlt) : (modXlt s f).mem = s.mem := rfl
@[simp] theorem modXlt_poison (s : State) (f : Xlt → Xlt) : (modXlt s f).poison = s.poison := rfl
@[simp] theorem modXlt_net (s : State) (f : Xlt → Xlt) : (modXlt s f).net = s.net := rfl
@[simp] theorem modXlt_spurs (s : State) (f : Xlt → Xlt) : (modXlt s f).spurs = s.spurs := rfl
@[simp] theorem modXlt_tdies (s : State) (f : Xlt → Xlt) : (modXlt s f).tdies = s.tdies := rfl
@[simp] theorem modXlt_kernels (s : State) (f : Xlt → Xlt) : (modXlt s f).kernels = s.kernels := rfl
@[simp] theorem modXlt_harts (s : State) (f : Xlt → Xlt) : (modXlt s f).harts = s.harts := rfl
@[simp] theorem modXlt_coh (s : State) (f : Xlt → Xlt) : (modXlt s f).coh = s.coh := rfl
@[simp] theorem modXlt_xlt (s : State) (f : Xlt → Xlt) :
    (modXlt s f).xlt = f s.xlt := rfl
@[simp] theorem modXlt_tiers (s : State) (f : Xlt → Xlt) : (modXlt s f).tiers = s.tiers := rfl
@[simp] theorem modXlt_qs (s : State) (f : Xlt → Xlt) : (modXlt s f).qs = s.qs := rfl
@[simp] theorem modXlt_former (s : State) (f : Xlt → Xlt) : (modXlt s f).former = s.former := rfl
@[simp] theorem modXlt_cl (s : State) (f : Xlt → Xlt) : (modXlt s f).cl = s.cl := rfl
@[simp] theorem modXlt_arbs (s : State) (f : Xlt → Xlt) : (modXlt s f).arbs = s.arbs := rfl
@[simp] theorem modXlt_ksl (s : State) (f : Xlt → Xlt) : (modXlt s f).ksl = s.ksl := rfl
@[simp] theorem modXlt_fab (s : State) (f : Xlt → Xlt) : (modXlt s f).fab = s.fab := rfl
@[simp] theorem modXlt_ridge (s : State) (f : Xlt → Xlt) : (modXlt s f).ridge = s.ridge := rfl
@[simp] theorem modXlt_col (s : State) (f : Xlt → Xlt) : (modXlt s f).col = s.col := rfl
@[simp] theorem modXlt_pwr (s : State) (f : Xlt → Xlt) : (modXlt s f).pwr = s.pwr := rfl
@[simp] theorem modXlt_boot (s : State) (f : Xlt → Xlt) : (modXlt s f).boot = s.boot := rfl
@[simp] theorem modXlt_svc (s : State) (f : Xlt → Xlt) : (modXlt s f).svc = s.svc := rfl
@[simp] theorem modXlt_mgmt (s : State) (f : Xlt → Xlt) : (modXlt s f).mgmt = s.mgmt := rfl

/-! ### `modHelper` -/

@[simp] theorem modHelper_pending (s : State) (md : Nat) (f : Helper → Helper) : (modHelper s md f).pending = s.pending := rfl
@[simp] theorem modHelper_time (s : State) (md : Nat) (f : Helper → Helper) : (modHelper s md f).time = s.time := rfl
@[simp] theorem modHelper_free (s : State) (md : Nat) (f : Helper → Helper) : (modHelper s md f).free = s.free := rfl
@[simp] theorem modHelper_regs (s : State) (md : Nat) (f : Helper → Helper) : (modHelper s md f).regs = s.regs := rfl
@[simp] theorem modHelper_shadow (s : State) (md : Nat) (f : Helper → Helper) : (modHelper s md f).shadow = s.shadow := rfl
@[simp] theorem modHelper_mem (s : State) (md : Nat) (f : Helper → Helper) : (modHelper s md f).mem = s.mem := rfl
@[simp] theorem modHelper_poison (s : State) (md : Nat) (f : Helper → Helper) : (modHelper s md f).poison = s.poison := rfl
@[simp] theorem modHelper_net (s : State) (md : Nat) (f : Helper → Helper) : (modHelper s md f).net = s.net := rfl
@[simp] theorem modHelper_spurs (s : State) (md : Nat) (f : Helper → Helper) : (modHelper s md f).spurs = s.spurs := rfl
@[simp] theorem modHelper_tdies (s : State) (md : Nat) (f : Helper → Helper) : (modHelper s md f).tdies = s.tdies := rfl
@[simp] theorem modHelper_kernels (s : State) (md : Nat) (f : Helper → Helper) : (modHelper s md f).kernels = s.kernels := rfl
@[simp] theorem modHelper_harts (s : State) (md : Nat) (f : Helper → Helper) : (modHelper s md f).harts = s.harts := rfl
@[simp] theorem modHelper_coh (s : State) (md : Nat) (f : Helper → Helper) : (modHelper s md f).coh = s.coh := rfl
@[simp] theorem modHelper_xlt (s : State) (md : Nat) (f : Helper → Helper) :
    (modHelper s md f).xlt = { s.xlt with helpers := tmod s.xlt.helpers md {} f } := rfl
@[simp] theorem modHelper_tiers (s : State) (md : Nat) (f : Helper → Helper) : (modHelper s md f).tiers = s.tiers := rfl
@[simp] theorem modHelper_qs (s : State) (md : Nat) (f : Helper → Helper) : (modHelper s md f).qs = s.qs := rfl
@[simp] theorem modHelper_former (s : State) (md : Nat) (f : Helper → Helper) : (modHelper s md f).former = s.former := rfl
@[simp] theorem modHelper_cl (s : State) (md : Nat) (f : Helper → Helper) : (modHelper s md f).cl = s.cl := rfl
@[simp] theorem modHelper_arbs (s : State) (md : Nat) (f : Helper → Helper) : (modHelper s md f).arbs = s.arbs := rfl
@[simp] theorem modHelper_ksl (s : State) (md : Nat) (f : Helper → Helper) : (modHelper s md f).ksl = s.ksl := rfl
@[simp] theorem modHelper_fab (s : State) (md : Nat) (f : Helper → Helper) : (modHelper s md f).fab = s.fab := rfl
@[simp] theorem modHelper_ridge (s : State) (md : Nat) (f : Helper → Helper) : (modHelper s md f).ridge = s.ridge := rfl
@[simp] theorem modHelper_col (s : State) (md : Nat) (f : Helper → Helper) : (modHelper s md f).col = s.col := rfl
@[simp] theorem modHelper_pwr (s : State) (md : Nat) (f : Helper → Helper) : (modHelper s md f).pwr = s.pwr := rfl
@[simp] theorem modHelper_boot (s : State) (md : Nat) (f : Helper → Helper) : (modHelper s md f).boot = s.boot := rfl
@[simp] theorem modHelper_svc (s : State) (md : Nat) (f : Helper → Helper) : (modHelper s md f).svc = s.svc := rfl
@[simp] theorem modHelper_mgmt (s : State) (md : Nat) (f : Helper → Helper) : (modHelper s md f).mgmt = s.mgmt := rfl

/-! ### `modTiers` -/

@[simp] theorem modTiers_pending (s : State) (f : Tiers → Tiers) : (modTiers s f).pending = s.pending := rfl
@[simp] theorem modTiers_time (s : State) (f : Tiers → Tiers) : (modTiers s f).time = s.time := rfl
@[simp] theorem modTiers_free (s : State) (f : Tiers → Tiers) : (modTiers s f).free = s.free := rfl
@[simp] theorem modTiers_regs (s : State) (f : Tiers → Tiers) : (modTiers s f).regs = s.regs := rfl
@[simp] theorem modTiers_shadow (s : State) (f : Tiers → Tiers) : (modTiers s f).shadow = s.shadow := rfl
@[simp] theorem modTiers_mem (s : State) (f : Tiers → Tiers) : (modTiers s f).mem = s.mem := rfl
@[simp] theorem modTiers_poison (s : State) (f : Tiers → Tiers) : (modTiers s f).poison = s.poison := rfl
@[simp] theorem modTiers_net (s : State) (f : Tiers → Tiers) : (modTiers s f).net = s.net := rfl
@[simp] theorem modTiers_spurs (s : State) (f : Tiers → Tiers) : (modTiers s f).spurs = s.spurs := rfl
@[simp] theorem modTiers_tdies (s : State) (f : Tiers → Tiers) : (modTiers s f).tdies = s.tdies := rfl
@[simp] theorem modTiers_kernels (s : State) (f : Tiers → Tiers) : (modTiers s f).kernels = s.kernels := rfl
@[simp] theorem modTiers_harts (s : State) (f : Tiers → Tiers) : (modTiers s f).harts = s.harts := rfl
@[simp] theorem modTiers_coh (s : State) (f : Tiers → Tiers) : (modTiers s f).coh = s.coh := rfl
@[simp] theorem modTiers_xlt (s : State) (f : Tiers → Tiers) : (modTiers s f).xlt = s.xlt := rfl
@[simp] theorem modTiers_tiers (s : State) (f : Tiers → Tiers) :
    (modTiers s f).tiers = f s.tiers := rfl
@[simp] theorem modTiers_qs (s : State) (f : Tiers → Tiers) : (modTiers s f).qs = s.qs := rfl
@[simp] theorem modTiers_former (s : State) (f : Tiers → Tiers) : (modTiers s f).former = s.former := rfl
@[simp] theorem modTiers_cl (s : State) (f : Tiers → Tiers) : (modTiers s f).cl = s.cl := rfl
@[simp] theorem modTiers_arbs (s : State) (f : Tiers → Tiers) : (modTiers s f).arbs = s.arbs := rfl
@[simp] theorem modTiers_ksl (s : State) (f : Tiers → Tiers) : (modTiers s f).ksl = s.ksl := rfl
@[simp] theorem modTiers_fab (s : State) (f : Tiers → Tiers) : (modTiers s f).fab = s.fab := rfl
@[simp] theorem modTiers_ridge (s : State) (f : Tiers → Tiers) : (modTiers s f).ridge = s.ridge := rfl
@[simp] theorem modTiers_col (s : State) (f : Tiers → Tiers) : (modTiers s f).col = s.col := rfl
@[simp] theorem modTiers_pwr (s : State) (f : Tiers → Tiers) : (modTiers s f).pwr = s.pwr := rfl
@[simp] theorem modTiers_boot (s : State) (f : Tiers → Tiers) : (modTiers s f).boot = s.boot := rfl
@[simp] theorem modTiers_svc (s : State) (f : Tiers → Tiers) : (modTiers s f).svc = s.svc := rfl
@[simp] theorem modTiers_mgmt (s : State) (f : Tiers → Tiers) : (modTiers s f).mgmt = s.mgmt := rfl

/-! ### `modQueue` -/

@[simp] theorem modQueue_pending (s : State) (q : Nat) (f : QueueSt → QueueSt) : (modQueue s q f).pending = s.pending := rfl
@[simp] theorem modQueue_time (s : State) (q : Nat) (f : QueueSt → QueueSt) : (modQueue s q f).time = s.time := rfl
@[simp] theorem modQueue_free (s : State) (q : Nat) (f : QueueSt → QueueSt) : (modQueue s q f).free = s.free := rfl
@[simp] theorem modQueue_regs (s : State) (q : Nat) (f : QueueSt → QueueSt) : (modQueue s q f).regs = s.regs := rfl
@[simp] theorem modQueue_shadow (s : State) (q : Nat) (f : QueueSt → QueueSt) : (modQueue s q f).shadow = s.shadow := rfl
@[simp] theorem modQueue_mem (s : State) (q : Nat) (f : QueueSt → QueueSt) : (modQueue s q f).mem = s.mem := rfl
@[simp] theorem modQueue_poison (s : State) (q : Nat) (f : QueueSt → QueueSt) : (modQueue s q f).poison = s.poison := rfl
@[simp] theorem modQueue_net (s : State) (q : Nat) (f : QueueSt → QueueSt) : (modQueue s q f).net = s.net := rfl
@[simp] theorem modQueue_spurs (s : State) (q : Nat) (f : QueueSt → QueueSt) : (modQueue s q f).spurs = s.spurs := rfl
@[simp] theorem modQueue_tdies (s : State) (q : Nat) (f : QueueSt → QueueSt) : (modQueue s q f).tdies = s.tdies := rfl
@[simp] theorem modQueue_kernels (s : State) (q : Nat) (f : QueueSt → QueueSt) : (modQueue s q f).kernels = s.kernels := rfl
@[simp] theorem modQueue_harts (s : State) (q : Nat) (f : QueueSt → QueueSt) : (modQueue s q f).harts = s.harts := rfl
@[simp] theorem modQueue_coh (s : State) (q : Nat) (f : QueueSt → QueueSt) : (modQueue s q f).coh = s.coh := rfl
@[simp] theorem modQueue_xlt (s : State) (q : Nat) (f : QueueSt → QueueSt) : (modQueue s q f).xlt = s.xlt := rfl
@[simp] theorem modQueue_tiers (s : State) (q : Nat) (f : QueueSt → QueueSt) : (modQueue s q f).tiers = s.tiers := rfl
@[simp] theorem modQueue_qs (s : State) (q : Nat) (f : QueueSt → QueueSt) :
    (modQueue s q f).qs = { s.qs with q := tmod s.qs.q q {} f } := rfl
@[simp] theorem modQueue_former (s : State) (q : Nat) (f : QueueSt → QueueSt) : (modQueue s q f).former = s.former := rfl
@[simp] theorem modQueue_cl (s : State) (q : Nat) (f : QueueSt → QueueSt) : (modQueue s q f).cl = s.cl := rfl
@[simp] theorem modQueue_arbs (s : State) (q : Nat) (f : QueueSt → QueueSt) : (modQueue s q f).arbs = s.arbs := rfl
@[simp] theorem modQueue_ksl (s : State) (q : Nat) (f : QueueSt → QueueSt) : (modQueue s q f).ksl = s.ksl := rfl
@[simp] theorem modQueue_fab (s : State) (q : Nat) (f : QueueSt → QueueSt) : (modQueue s q f).fab = s.fab := rfl
@[simp] theorem modQueue_ridge (s : State) (q : Nat) (f : QueueSt → QueueSt) : (modQueue s q f).ridge = s.ridge := rfl
@[simp] theorem modQueue_col (s : State) (q : Nat) (f : QueueSt → QueueSt) : (modQueue s q f).col = s.col := rfl
@[simp] theorem modQueue_pwr (s : State) (q : Nat) (f : QueueSt → QueueSt) : (modQueue s q f).pwr = s.pwr := rfl
@[simp] theorem modQueue_boot (s : State) (q : Nat) (f : QueueSt → QueueSt) : (modQueue s q f).boot = s.boot := rfl
@[simp] theorem modQueue_svc (s : State) (q : Nat) (f : QueueSt → QueueSt) : (modQueue s q f).svc = s.svc := rfl
@[simp] theorem modQueue_mgmt (s : State) (q : Nat) (f : QueueSt → QueueSt) : (modQueue s q f).mgmt = s.mgmt := rfl

/-! ### `setCmd` -/

@[simp] theorem setCmd_pending (s : State) (cid : Nat) (c : Cmd) : (setCmd s cid c).pending = s.pending := rfl
@[simp] theorem setCmd_time (s : State) (cid : Nat) (c : Cmd) : (setCmd s cid c).time = s.time := rfl
@[simp] theorem setCmd_free (s : State) (cid : Nat) (c : Cmd) : (setCmd s cid c).free = s.free := rfl
@[simp] theorem setCmd_regs (s : State) (cid : Nat) (c : Cmd) : (setCmd s cid c).regs = s.regs := rfl
@[simp] theorem setCmd_shadow (s : State) (cid : Nat) (c : Cmd) : (setCmd s cid c).shadow = s.shadow := rfl
@[simp] theorem setCmd_mem (s : State) (cid : Nat) (c : Cmd) : (setCmd s cid c).mem = s.mem := rfl
@[simp] theorem setCmd_poison (s : State) (cid : Nat) (c : Cmd) : (setCmd s cid c).poison = s.poison := rfl
@[simp] theorem setCmd_net (s : State) (cid : Nat) (c : Cmd) : (setCmd s cid c).net = s.net := rfl
@[simp] theorem setCmd_spurs (s : State) (cid : Nat) (c : Cmd) : (setCmd s cid c).spurs = s.spurs := rfl
@[simp] theorem setCmd_tdies (s : State) (cid : Nat) (c : Cmd) : (setCmd s cid c).tdies = s.tdies := rfl
@[simp] theorem setCmd_kernels (s : State) (cid : Nat) (c : Cmd) : (setCmd s cid c).kernels = s.kernels := rfl
@[simp] theorem setCmd_harts (s : State) (cid : Nat) (c : Cmd) : (setCmd s cid c).harts = s.harts := rfl
@[simp] theorem setCmd_coh (s : State) (cid : Nat) (c : Cmd) : (setCmd s cid c).coh = s.coh := rfl
@[simp] theorem setCmd_xlt (s : State) (cid : Nat) (c : Cmd) : (setCmd s cid c).xlt = s.xlt := rfl
@[simp] theorem setCmd_tiers (s : State) (cid : Nat) (c : Cmd) : (setCmd s cid c).tiers = s.tiers := rfl
@[simp] theorem setCmd_qs (s : State) (cid : Nat) (c : Cmd) :
    (setCmd s cid c).qs = { s.qs with cmds := tset s.qs.cmds cid c } := rfl
@[simp] theorem setCmd_former (s : State) (cid : Nat) (c : Cmd) : (setCmd s cid c).former = s.former := rfl
@[simp] theorem setCmd_cl (s : State) (cid : Nat) (c : Cmd) : (setCmd s cid c).cl = s.cl := rfl
@[simp] theorem setCmd_arbs (s : State) (cid : Nat) (c : Cmd) : (setCmd s cid c).arbs = s.arbs := rfl
@[simp] theorem setCmd_ksl (s : State) (cid : Nat) (c : Cmd) : (setCmd s cid c).ksl = s.ksl := rfl
@[simp] theorem setCmd_fab (s : State) (cid : Nat) (c : Cmd) : (setCmd s cid c).fab = s.fab := rfl
@[simp] theorem setCmd_ridge (s : State) (cid : Nat) (c : Cmd) : (setCmd s cid c).ridge = s.ridge := rfl
@[simp] theorem setCmd_col (s : State) (cid : Nat) (c : Cmd) : (setCmd s cid c).col = s.col := rfl
@[simp] theorem setCmd_pwr (s : State) (cid : Nat) (c : Cmd) : (setCmd s cid c).pwr = s.pwr := rfl
@[simp] theorem setCmd_boot (s : State) (cid : Nat) (c : Cmd) : (setCmd s cid c).boot = s.boot := rfl
@[simp] theorem setCmd_svc (s : State) (cid : Nat) (c : Cmd) : (setCmd s cid c).svc = s.svc := rfl
@[simp] theorem setCmd_mgmt (s : State) (cid : Nat) (c : Cmd) : (setCmd s cid c).mgmt = s.mgmt := rfl

/-! ### `setCl` -/

@[simp] theorem setCl_pending (s : State) (id : Nat) (c : ClCmd) : (setCl s id c).pending = s.pending := rfl
@[simp] theorem setCl_time (s : State) (id : Nat) (c : ClCmd) : (setCl s id c).time = s.time := rfl
@[simp] theorem setCl_free (s : State) (id : Nat) (c : ClCmd) : (setCl s id c).free = s.free := rfl
@[simp] theorem setCl_regs (s : State) (id : Nat) (c : ClCmd) : (setCl s id c).regs = s.regs := rfl
@[simp] theorem setCl_shadow (s : State) (id : Nat) (c : ClCmd) : (setCl s id c).shadow = s.shadow := rfl
@[simp] theorem setCl_mem (s : State) (id : Nat) (c : ClCmd) : (setCl s id c).mem = s.mem := rfl
@[simp] theorem setCl_poison (s : State) (id : Nat) (c : ClCmd) : (setCl s id c).poison = s.poison := rfl
@[simp] theorem setCl_net (s : State) (id : Nat) (c : ClCmd) : (setCl s id c).net = s.net := rfl
@[simp] theorem setCl_spurs (s : State) (id : Nat) (c : ClCmd) : (setCl s id c).spurs = s.spurs := rfl
@[simp] theorem setCl_tdies (s : State) (id : Nat) (c : ClCmd) : (setCl s id c).tdies = s.tdies := rfl
@[simp] theorem setCl_kernels (s : State) (id : Nat) (c : ClCmd) : (setCl s id c).kernels = s.kernels := rfl
@[simp] theorem setCl_harts (s : State) (id : Nat) (c : ClCmd) : (setCl s id c).harts = s.harts := rfl
@[simp] theorem setCl_coh (s : State) (id : Nat) (c : ClCmd) : (setCl s id c).coh = s.coh := rfl
@[simp] theorem setCl_xlt (s : State) (id : Nat) (c : ClCmd) : (setCl s id c).xlt = s.xlt := rfl
@[simp] theorem setCl_tiers (s : State) (id : Nat) (c : ClCmd) : (setCl s id c).tiers = s.tiers := rfl
@[simp] theorem setCl_qs (s : State) (id : Nat) (c : ClCmd) : (setCl s id c).qs = s.qs := rfl
@[simp] theorem setCl_former (s : State) (id : Nat) (c : ClCmd) : (setCl s id c).former = s.former := rfl
@[simp] theorem setCl_arbs (s : State) (id : Nat) (c : ClCmd) : (setCl s id c).arbs = s.arbs := rfl
@[simp] theorem setCl_ksl (s : State) (id : Nat) (c : ClCmd) : (setCl s id c).ksl = s.ksl := rfl
@[simp] theorem setCl_fab (s : State) (id : Nat) (c : ClCmd) : (setCl s id c).fab = s.fab := rfl
@[simp] theorem setCl_ridge (s : State) (id : Nat) (c : ClCmd) : (setCl s id c).ridge = s.ridge := rfl
@[simp] theorem setCl_col (s : State) (id : Nat) (c : ClCmd) : (setCl s id c).col = s.col := rfl
@[simp] theorem setCl_pwr (s : State) (id : Nat) (c : ClCmd) : (setCl s id c).pwr = s.pwr := rfl
@[simp] theorem setCl_boot (s : State) (id : Nat) (c : ClCmd) : (setCl s id c).boot = s.boot := rfl
@[simp] theorem setCl_svc (s : State) (id : Nat) (c : ClCmd) : (setCl s id c).svc = s.svc := rfl
@[simp] theorem setCl_mgmt (s : State) (id : Nat) (c : ClCmd) : (setCl s id c).mgmt = s.mgmt := rfl

/-! ### `setTime` -/

@[simp] theorem setTime_pending (s : State) (t : W64) : (setTime s t).pending = s.pending := rfl
@[simp] theorem setTime_time (s : State) (t : W64) :
    (setTime s t).time = if s.time ≤ t then t else s.time := rfl
@[simp] theorem setTime_free (s : State) (t : W64) : (setTime s t).free = s.free := rfl
@[simp] theorem setTime_regs (s : State) (t : W64) : (setTime s t).regs = s.regs := rfl
@[simp] theorem setTime_shadow (s : State) (t : W64) : (setTime s t).shadow = s.shadow := rfl
@[simp] theorem setTime_mem (s : State) (t : W64) : (setTime s t).mem = s.mem := rfl
@[simp] theorem setTime_poison (s : State) (t : W64) : (setTime s t).poison = s.poison := rfl
@[simp] theorem setTime_net (s : State) (t : W64) : (setTime s t).net = s.net := rfl
@[simp] theorem setTime_spurs (s : State) (t : W64) : (setTime s t).spurs = s.spurs := rfl
@[simp] theorem setTime_tdies (s : State) (t : W64) : (setTime s t).tdies = s.tdies := rfl
@[simp] theorem setTime_kernels (s : State) (t : W64) : (setTime s t).kernels = s.kernels := rfl
@[simp] theorem setTime_harts (s : State) (t : W64) : (setTime s t).harts = s.harts := rfl
@[simp] theorem setTime_coh (s : State) (t : W64) : (setTime s t).coh = s.coh := rfl
@[simp] theorem setTime_xlt (s : State) (t : W64) : (setTime s t).xlt = s.xlt := rfl
@[simp] theorem setTime_tiers (s : State) (t : W64) : (setTime s t).tiers = s.tiers := rfl
@[simp] theorem setTime_qs (s : State) (t : W64) : (setTime s t).qs = s.qs := rfl
@[simp] theorem setTime_former (s : State) (t : W64) : (setTime s t).former = s.former := rfl
@[simp] theorem setTime_cl (s : State) (t : W64) : (setTime s t).cl = s.cl := rfl
@[simp] theorem setTime_arbs (s : State) (t : W64) : (setTime s t).arbs = s.arbs := rfl
@[simp] theorem setTime_ksl (s : State) (t : W64) : (setTime s t).ksl = s.ksl := rfl
@[simp] theorem setTime_fab (s : State) (t : W64) : (setTime s t).fab = s.fab := rfl
@[simp] theorem setTime_ridge (s : State) (t : W64) : (setTime s t).ridge = s.ridge := rfl
@[simp] theorem setTime_col (s : State) (t : W64) : (setTime s t).col = s.col := rfl
@[simp] theorem setTime_pwr (s : State) (t : W64) : (setTime s t).pwr = s.pwr := rfl
@[simp] theorem setTime_boot (s : State) (t : W64) : (setTime s t).boot = s.boot := rfl
@[simp] theorem setTime_svc (s : State) (t : W64) : (setTime s t).svc = s.svc := rfl
@[simp] theorem setTime_mgmt (s : State) (t : W64) : (setTime s t).mgmt = s.mgmt := rfl

/-! ### `send` -/

@[simp] theorem send_pending (s : State) (m : Msg) : (send s m).pending = s.pending := rfl
@[simp] theorem send_time (s : State) (m : Msg) : (send s m).time = s.time := rfl
@[simp] theorem send_free (s : State) (m : Msg) : (send s m).free = s.free := rfl
@[simp] theorem send_regs (s : State) (m : Msg) : (send s m).regs = s.regs := rfl
@[simp] theorem send_shadow (s : State) (m : Msg) : (send s m).shadow = s.shadow := rfl
@[simp] theorem send_mem (s : State) (m : Msg) : (send s m).mem = s.mem := rfl
@[simp] theorem send_poison (s : State) (m : Msg) : (send s m).poison = s.poison := rfl
@[simp] theorem send_net (s : State) (m : Msg) :
    (send s m).net = s.net ++ [m] := rfl
@[simp] theorem send_spurs (s : State) (m : Msg) : (send s m).spurs = s.spurs := rfl
@[simp] theorem send_tdies (s : State) (m : Msg) : (send s m).tdies = s.tdies := rfl
@[simp] theorem send_kernels (s : State) (m : Msg) : (send s m).kernels = s.kernels := rfl
@[simp] theorem send_harts (s : State) (m : Msg) : (send s m).harts = s.harts := rfl
@[simp] theorem send_coh (s : State) (m : Msg) : (send s m).coh = s.coh := rfl
@[simp] theorem send_xlt (s : State) (m : Msg) : (send s m).xlt = s.xlt := rfl
@[simp] theorem send_tiers (s : State) (m : Msg) : (send s m).tiers = s.tiers := rfl
@[simp] theorem send_qs (s : State) (m : Msg) : (send s m).qs = s.qs := rfl
@[simp] theorem send_former (s : State) (m : Msg) : (send s m).former = s.former := rfl
@[simp] theorem send_cl (s : State) (m : Msg) : (send s m).cl = s.cl := rfl
@[simp] theorem send_arbs (s : State) (m : Msg) : (send s m).arbs = s.arbs := rfl
@[simp] theorem send_ksl (s : State) (m : Msg) : (send s m).ksl = s.ksl := rfl
@[simp] theorem send_fab (s : State) (m : Msg) : (send s m).fab = s.fab := rfl
@[simp] theorem send_ridge (s : State) (m : Msg) : (send s m).ridge = s.ridge := rfl
@[simp] theorem send_col (s : State) (m : Msg) : (send s m).col = s.col := rfl
@[simp] theorem send_pwr (s : State) (m : Msg) : (send s m).pwr = s.pwr := rfl
@[simp] theorem send_boot (s : State) (m : Msg) : (send s m).boot = s.boot := rfl
@[simp] theorem send_svc (s : State) (m : Msg) : (send s m).svc = s.svc := rfl
@[simp] theorem send_mgmt (s : State) (m : Msg) : (send s m).mgmt = s.mgmt := rfl

/-! ### `recv` -/

@[simp] theorem recv_pending (s : State) (m : Msg) : (recv s m).pending = s.pending := rfl
@[simp] theorem recv_time (s : State) (m : Msg) : (recv s m).time = s.time := rfl
@[simp] theorem recv_free (s : State) (m : Msg) : (recv s m).free = s.free := rfl
@[simp] theorem recv_regs (s : State) (m : Msg) : (recv s m).regs = s.regs := rfl
@[simp] theorem recv_shadow (s : State) (m : Msg) : (recv s m).shadow = s.shadow := rfl
@[simp] theorem recv_mem (s : State) (m : Msg) : (recv s m).mem = s.mem := rfl
@[simp] theorem recv_poison (s : State) (m : Msg) : (recv s m).poison = s.poison := rfl
@[simp] theorem recv_net (s : State) (m : Msg) :
    (recv s m).net = s.net.erase m := rfl
@[simp] theorem recv_spurs (s : State) (m : Msg) : (recv s m).spurs = s.spurs := rfl
@[simp] theorem recv_tdies (s : State) (m : Msg) : (recv s m).tdies = s.tdies := rfl
@[simp] theorem recv_kernels (s : State) (m : Msg) : (recv s m).kernels = s.kernels := rfl
@[simp] theorem recv_harts (s : State) (m : Msg) : (recv s m).harts = s.harts := rfl
@[simp] theorem recv_coh (s : State) (m : Msg) : (recv s m).coh = s.coh := rfl
@[simp] theorem recv_xlt (s : State) (m : Msg) : (recv s m).xlt = s.xlt := rfl
@[simp] theorem recv_tiers (s : State) (m : Msg) : (recv s m).tiers = s.tiers := rfl
@[simp] theorem recv_qs (s : State) (m : Msg) : (recv s m).qs = s.qs := rfl
@[simp] theorem recv_former (s : State) (m : Msg) : (recv s m).former = s.former := rfl
@[simp] theorem recv_cl (s : State) (m : Msg) : (recv s m).cl = s.cl := rfl
@[simp] theorem recv_arbs (s : State) (m : Msg) : (recv s m).arbs = s.arbs := rfl
@[simp] theorem recv_ksl (s : State) (m : Msg) : (recv s m).ksl = s.ksl := rfl
@[simp] theorem recv_fab (s : State) (m : Msg) : (recv s m).fab = s.fab := rfl
@[simp] theorem recv_ridge (s : State) (m : Msg) : (recv s m).ridge = s.ridge := rfl
@[simp] theorem recv_col (s : State) (m : Msg) : (recv s m).col = s.col := rfl
@[simp] theorem recv_pwr (s : State) (m : Msg) : (recv s m).pwr = s.pwr := rfl
@[simp] theorem recv_boot (s : State) (m : Msg) : (recv s m).boot = s.boot := rfl
@[simp] theorem recv_svc (s : State) (m : Msg) : (recv s m).svc = s.svc := rfl
@[simp] theorem recv_mgmt (s : State) (m : Msg) : (recv s m).mgmt = s.mgmt := rfl

/-! ### `setFldAt` -/

@[simp] theorem setFldAt_pending (s : State) (die : Nat) (f : FRef) (i x : Nat) : (setFldAt s die f i x).pending = s.pending := rfl
@[simp] theorem setFldAt_time (s : State) (die : Nat) (f : FRef) (i x : Nat) : (setFldAt s die f i x).time = s.time := rfl
@[simp] theorem setFldAt_free (s : State) (die : Nat) (f : FRef) (i x : Nat) : (setFldAt s die f i x).free = s.free := rfl
@[simp] theorem setFldAt_shadow (s : State) (die : Nat) (f : FRef) (i x : Nat) : (setFldAt s die f i x).shadow = s.shadow := rfl
@[simp] theorem setFldAt_mem (s : State) (die : Nat) (f : FRef) (i x : Nat) : (setFldAt s die f i x).mem = s.mem := rfl
@[simp] theorem setFldAt_poison (s : State) (die : Nat) (f : FRef) (i x : Nat) : (setFldAt s die f i x).poison = s.poison := rfl
@[simp] theorem setFldAt_net (s : State) (die : Nat) (f : FRef) (i x : Nat) : (setFldAt s die f i x).net = s.net := rfl
@[simp] theorem setFldAt_spurs (s : State) (die : Nat) (f : FRef) (i x : Nat) : (setFldAt s die f i x).spurs = s.spurs := rfl
@[simp] theorem setFldAt_tdies (s : State) (die : Nat) (f : FRef) (i x : Nat) : (setFldAt s die f i x).tdies = s.tdies := rfl
@[simp] theorem setFldAt_kernels (s : State) (die : Nat) (f : FRef) (i x : Nat) : (setFldAt s die f i x).kernels = s.kernels := rfl
@[simp] theorem setFldAt_harts (s : State) (die : Nat) (f : FRef) (i x : Nat) : (setFldAt s die f i x).harts = s.harts := rfl
@[simp] theorem setFldAt_coh (s : State) (die : Nat) (f : FRef) (i x : Nat) : (setFldAt s die f i x).coh = s.coh := rfl
@[simp] theorem setFldAt_xlt (s : State) (die : Nat) (f : FRef) (i x : Nat) : (setFldAt s die f i x).xlt = s.xlt := rfl
@[simp] theorem setFldAt_tiers (s : State) (die : Nat) (f : FRef) (i x : Nat) : (setFldAt s die f i x).tiers = s.tiers := rfl
@[simp] theorem setFldAt_qs (s : State) (die : Nat) (f : FRef) (i x : Nat) : (setFldAt s die f i x).qs = s.qs := rfl
@[simp] theorem setFldAt_former (s : State) (die : Nat) (f : FRef) (i x : Nat) : (setFldAt s die f i x).former = s.former := rfl
@[simp] theorem setFldAt_cl (s : State) (die : Nat) (f : FRef) (i x : Nat) : (setFldAt s die f i x).cl = s.cl := rfl
@[simp] theorem setFldAt_arbs (s : State) (die : Nat) (f : FRef) (i x : Nat) : (setFldAt s die f i x).arbs = s.arbs := rfl
@[simp] theorem setFldAt_ksl (s : State) (die : Nat) (f : FRef) (i x : Nat) : (setFldAt s die f i x).ksl = s.ksl := rfl
@[simp] theorem setFldAt_fab (s : State) (die : Nat) (f : FRef) (i x : Nat) : (setFldAt s die f i x).fab = s.fab := rfl
@[simp] theorem setFldAt_ridge (s : State) (die : Nat) (f : FRef) (i x : Nat) : (setFldAt s die f i x).ridge = s.ridge := rfl
@[simp] theorem setFldAt_col (s : State) (die : Nat) (f : FRef) (i x : Nat) : (setFldAt s die f i x).col = s.col := rfl
@[simp] theorem setFldAt_pwr (s : State) (die : Nat) (f : FRef) (i x : Nat) : (setFldAt s die f i x).pwr = s.pwr := rfl
@[simp] theorem setFldAt_boot (s : State) (die : Nat) (f : FRef) (i x : Nat) : (setFldAt s die f i x).boot = s.boot := rfl
@[simp] theorem setFldAt_svc (s : State) (die : Nat) (f : FRef) (i x : Nat) : (setFldAt s die f i x).svc = s.svc := rfl
@[simp] theorem setFldAt_mgmt (s : State) (die : Nat) (f : FRef) (i x : Nat) : (setFldAt s die f i x).mgmt = s.mgmt := rfl

/-! ### `setFld` -/

@[simp] theorem setFld_pending (s : State) (die : Nat) (f : FRef) (x : Nat) : (setFld s die f x).pending = s.pending := rfl
@[simp] theorem setFld_time (s : State) (die : Nat) (f : FRef) (x : Nat) : (setFld s die f x).time = s.time := rfl
@[simp] theorem setFld_free (s : State) (die : Nat) (f : FRef) (x : Nat) : (setFld s die f x).free = s.free := rfl
@[simp] theorem setFld_shadow (s : State) (die : Nat) (f : FRef) (x : Nat) : (setFld s die f x).shadow = s.shadow := rfl
@[simp] theorem setFld_mem (s : State) (die : Nat) (f : FRef) (x : Nat) : (setFld s die f x).mem = s.mem := rfl
@[simp] theorem setFld_poison (s : State) (die : Nat) (f : FRef) (x : Nat) : (setFld s die f x).poison = s.poison := rfl
@[simp] theorem setFld_net (s : State) (die : Nat) (f : FRef) (x : Nat) : (setFld s die f x).net = s.net := rfl
@[simp] theorem setFld_spurs (s : State) (die : Nat) (f : FRef) (x : Nat) : (setFld s die f x).spurs = s.spurs := rfl
@[simp] theorem setFld_tdies (s : State) (die : Nat) (f : FRef) (x : Nat) : (setFld s die f x).tdies = s.tdies := rfl
@[simp] theorem setFld_kernels (s : State) (die : Nat) (f : FRef) (x : Nat) : (setFld s die f x).kernels = s.kernels := rfl
@[simp] theorem setFld_harts (s : State) (die : Nat) (f : FRef) (x : Nat) : (setFld s die f x).harts = s.harts := rfl
@[simp] theorem setFld_coh (s : State) (die : Nat) (f : FRef) (x : Nat) : (setFld s die f x).coh = s.coh := rfl
@[simp] theorem setFld_xlt (s : State) (die : Nat) (f : FRef) (x : Nat) : (setFld s die f x).xlt = s.xlt := rfl
@[simp] theorem setFld_tiers (s : State) (die : Nat) (f : FRef) (x : Nat) : (setFld s die f x).tiers = s.tiers := rfl
@[simp] theorem setFld_qs (s : State) (die : Nat) (f : FRef) (x : Nat) : (setFld s die f x).qs = s.qs := rfl
@[simp] theorem setFld_former (s : State) (die : Nat) (f : FRef) (x : Nat) : (setFld s die f x).former = s.former := rfl
@[simp] theorem setFld_cl (s : State) (die : Nat) (f : FRef) (x : Nat) : (setFld s die f x).cl = s.cl := rfl
@[simp] theorem setFld_arbs (s : State) (die : Nat) (f : FRef) (x : Nat) : (setFld s die f x).arbs = s.arbs := rfl
@[simp] theorem setFld_ksl (s : State) (die : Nat) (f : FRef) (x : Nat) : (setFld s die f x).ksl = s.ksl := rfl
@[simp] theorem setFld_fab (s : State) (die : Nat) (f : FRef) (x : Nat) : (setFld s die f x).fab = s.fab := rfl
@[simp] theorem setFld_ridge (s : State) (die : Nat) (f : FRef) (x : Nat) : (setFld s die f x).ridge = s.ridge := rfl
@[simp] theorem setFld_col (s : State) (die : Nat) (f : FRef) (x : Nat) : (setFld s die f x).col = s.col := rfl
@[simp] theorem setFld_pwr (s : State) (die : Nat) (f : FRef) (x : Nat) : (setFld s die f x).pwr = s.pwr := rfl
@[simp] theorem setFld_boot (s : State) (die : Nat) (f : FRef) (x : Nat) : (setFld s die f x).boot = s.boot := rfl
@[simp] theorem setFld_svc (s : State) (die : Nat) (f : FRef) (x : Nat) : (setFld s die f x).svc = s.svc := rfl
@[simp] theorem setFld_mgmt (s : State) (die : Nat) (f : FRef) (x : Nat) : (setFld s die f x).mgmt = s.mgmt := rfl

/-! ### `modArb` -/

@[simp] theorem modArb_pending (s : State) (die a : Nat) (f : Arbiter → Arbiter) : (modArb s die a f).pending = s.pending := rfl
@[simp] theorem modArb_time (s : State) (die a : Nat) (f : Arbiter → Arbiter) : (modArb s die a f).time = s.time := rfl
@[simp] theorem modArb_free (s : State) (die a : Nat) (f : Arbiter → Arbiter) : (modArb s die a f).free = s.free := rfl
@[simp] theorem modArb_regs (s : State) (die a : Nat) (f : Arbiter → Arbiter) : (modArb s die a f).regs = s.regs := rfl
@[simp] theorem modArb_shadow (s : State) (die a : Nat) (f : Arbiter → Arbiter) : (modArb s die a f).shadow = s.shadow := rfl
@[simp] theorem modArb_mem (s : State) (die a : Nat) (f : Arbiter → Arbiter) : (modArb s die a f).mem = s.mem := rfl
@[simp] theorem modArb_poison (s : State) (die a : Nat) (f : Arbiter → Arbiter) : (modArb s die a f).poison = s.poison := rfl
@[simp] theorem modArb_net (s : State) (die a : Nat) (f : Arbiter → Arbiter) : (modArb s die a f).net = s.net := rfl
@[simp] theorem modArb_spurs (s : State) (die a : Nat) (f : Arbiter → Arbiter) : (modArb s die a f).spurs = s.spurs := rfl
@[simp] theorem modArb_tdies (s : State) (die a : Nat) (f : Arbiter → Arbiter) : (modArb s die a f).tdies = s.tdies := rfl
@[simp] theorem modArb_kernels (s : State) (die a : Nat) (f : Arbiter → Arbiter) : (modArb s die a f).kernels = s.kernels := rfl
@[simp] theorem modArb_harts (s : State) (die a : Nat) (f : Arbiter → Arbiter) : (modArb s die a f).harts = s.harts := rfl
@[simp] theorem modArb_coh (s : State) (die a : Nat) (f : Arbiter → Arbiter) : (modArb s die a f).coh = s.coh := rfl
@[simp] theorem modArb_xlt (s : State) (die a : Nat) (f : Arbiter → Arbiter) : (modArb s die a f).xlt = s.xlt := rfl
@[simp] theorem modArb_tiers (s : State) (die a : Nat) (f : Arbiter → Arbiter) : (modArb s die a f).tiers = s.tiers := rfl
@[simp] theorem modArb_qs (s : State) (die a : Nat) (f : Arbiter → Arbiter) : (modArb s die a f).qs = s.qs := rfl
@[simp] theorem modArb_former (s : State) (die a : Nat) (f : Arbiter → Arbiter) : (modArb s die a f).former = s.former := rfl
@[simp] theorem modArb_cl (s : State) (die a : Nat) (f : Arbiter → Arbiter) : (modArb s die a f).cl = s.cl := rfl
@[simp] theorem modArb_arbs (s : State) (die a : Nat) (f : Arbiter → Arbiter) :
    (modArb s die a f).arbs = tmod s.arbs (arbKey die a) {} f := rfl
@[simp] theorem modArb_ksl (s : State) (die a : Nat) (f : Arbiter → Arbiter) : (modArb s die a f).ksl = s.ksl := rfl
@[simp] theorem modArb_fab (s : State) (die a : Nat) (f : Arbiter → Arbiter) : (modArb s die a f).fab = s.fab := rfl
@[simp] theorem modArb_ridge (s : State) (die a : Nat) (f : Arbiter → Arbiter) : (modArb s die a f).ridge = s.ridge := rfl
@[simp] theorem modArb_col (s : State) (die a : Nat) (f : Arbiter → Arbiter) : (modArb s die a f).col = s.col := rfl
@[simp] theorem modArb_pwr (s : State) (die a : Nat) (f : Arbiter → Arbiter) : (modArb s die a f).pwr = s.pwr := rfl
@[simp] theorem modArb_boot (s : State) (die a : Nat) (f : Arbiter → Arbiter) : (modArb s die a f).boot = s.boot := rfl
@[simp] theorem modArb_svc (s : State) (die a : Nat) (f : Arbiter → Arbiter) : (modArb s die a f).svc = s.svc := rfl
@[simp] theorem modArb_mgmt (s : State) (die a : Nat) (f : Arbiter → Arbiter) : (modArb s die a f).mgmt = s.mgmt := rfl

/-! ### `modPort` -/

@[simp] theorem modPort_pending (s : State) (p : Nat) (f : KslPort → KslPort) : (modPort s p f).pending = s.pending := rfl
@[simp] theorem modPort_time (s : State) (p : Nat) (f : KslPort → KslPort) : (modPort s p f).time = s.time := rfl
@[simp] theorem modPort_free (s : State) (p : Nat) (f : KslPort → KslPort) : (modPort s p f).free = s.free := rfl
@[simp] theorem modPort_regs (s : State) (p : Nat) (f : KslPort → KslPort) : (modPort s p f).regs = s.regs := rfl
@[simp] theorem modPort_shadow (s : State) (p : Nat) (f : KslPort → KslPort) : (modPort s p f).shadow = s.shadow := rfl
@[simp] theorem modPort_mem (s : State) (p : Nat) (f : KslPort → KslPort) : (modPort s p f).mem = s.mem := rfl
@[simp] theorem modPort_poison (s : State) (p : Nat) (f : KslPort → KslPort) : (modPort s p f).poison = s.poison := rfl
@[simp] theorem modPort_net (s : State) (p : Nat) (f : KslPort → KslPort) : (modPort s p f).net = s.net := rfl
@[simp] theorem modPort_spurs (s : State) (p : Nat) (f : KslPort → KslPort) : (modPort s p f).spurs = s.spurs := rfl
@[simp] theorem modPort_tdies (s : State) (p : Nat) (f : KslPort → KslPort) : (modPort s p f).tdies = s.tdies := rfl
@[simp] theorem modPort_kernels (s : State) (p : Nat) (f : KslPort → KslPort) : (modPort s p f).kernels = s.kernels := rfl
@[simp] theorem modPort_harts (s : State) (p : Nat) (f : KslPort → KslPort) : (modPort s p f).harts = s.harts := rfl
@[simp] theorem modPort_coh (s : State) (p : Nat) (f : KslPort → KslPort) : (modPort s p f).coh = s.coh := rfl
@[simp] theorem modPort_xlt (s : State) (p : Nat) (f : KslPort → KslPort) : (modPort s p f).xlt = s.xlt := rfl
@[simp] theorem modPort_tiers (s : State) (p : Nat) (f : KslPort → KslPort) : (modPort s p f).tiers = s.tiers := rfl
@[simp] theorem modPort_qs (s : State) (p : Nat) (f : KslPort → KslPort) : (modPort s p f).qs = s.qs := rfl
@[simp] theorem modPort_former (s : State) (p : Nat) (f : KslPort → KslPort) : (modPort s p f).former = s.former := rfl
@[simp] theorem modPort_cl (s : State) (p : Nat) (f : KslPort → KslPort) : (modPort s p f).cl = s.cl := rfl
@[simp] theorem modPort_arbs (s : State) (p : Nat) (f : KslPort → KslPort) : (modPort s p f).arbs = s.arbs := rfl
@[simp] theorem modPort_ksl (s : State) (p : Nat) (f : KslPort → KslPort) :
    (modPort s p f).ksl = tmod s.ksl p {} f := rfl
@[simp] theorem modPort_fab (s : State) (p : Nat) (f : KslPort → KslPort) : (modPort s p f).fab = s.fab := rfl
@[simp] theorem modPort_ridge (s : State) (p : Nat) (f : KslPort → KslPort) : (modPort s p f).ridge = s.ridge := rfl
@[simp] theorem modPort_col (s : State) (p : Nat) (f : KslPort → KslPort) : (modPort s p f).col = s.col := rfl
@[simp] theorem modPort_pwr (s : State) (p : Nat) (f : KslPort → KslPort) : (modPort s p f).pwr = s.pwr := rfl
@[simp] theorem modPort_boot (s : State) (p : Nat) (f : KslPort → KslPort) : (modPort s p f).boot = s.boot := rfl
@[simp] theorem modPort_svc (s : State) (p : Nat) (f : KslPort → KslPort) : (modPort s p f).svc = s.svc := rfl
@[simp] theorem modPort_mgmt (s : State) (p : Nat) (f : KslPort → KslPort) : (modPort s p f).mgmt = s.mgmt := rfl

/-! ### `modFab` -/

@[simp] theorem modFab_pending (s : State) (f : Fabric → Fabric) : (modFab s f).pending = s.pending := rfl
@[simp] theorem modFab_time (s : State) (f : Fabric → Fabric) : (modFab s f).time = s.time := rfl
@[simp] theorem modFab_free (s : State) (f : Fabric → Fabric) : (modFab s f).free = s.free := rfl
@[simp] theorem modFab_regs (s : State) (f : Fabric → Fabric) : (modFab s f).regs = s.regs := rfl
@[simp] theorem modFab_shadow (s : State) (f : Fabric → Fabric) : (modFab s f).shadow = s.shadow := rfl
@[simp] theorem modFab_mem (s : State) (f : Fabric → Fabric) : (modFab s f).mem = s.mem := rfl
@[simp] theorem modFab_poison (s : State) (f : Fabric → Fabric) : (modFab s f).poison = s.poison := rfl
@[simp] theorem modFab_net (s : State) (f : Fabric → Fabric) : (modFab s f).net = s.net := rfl
@[simp] theorem modFab_spurs (s : State) (f : Fabric → Fabric) : (modFab s f).spurs = s.spurs := rfl
@[simp] theorem modFab_tdies (s : State) (f : Fabric → Fabric) : (modFab s f).tdies = s.tdies := rfl
@[simp] theorem modFab_kernels (s : State) (f : Fabric → Fabric) : (modFab s f).kernels = s.kernels := rfl
@[simp] theorem modFab_harts (s : State) (f : Fabric → Fabric) : (modFab s f).harts = s.harts := rfl
@[simp] theorem modFab_coh (s : State) (f : Fabric → Fabric) : (modFab s f).coh = s.coh := rfl
@[simp] theorem modFab_xlt (s : State) (f : Fabric → Fabric) : (modFab s f).xlt = s.xlt := rfl
@[simp] theorem modFab_tiers (s : State) (f : Fabric → Fabric) : (modFab s f).tiers = s.tiers := rfl
@[simp] theorem modFab_qs (s : State) (f : Fabric → Fabric) : (modFab s f).qs = s.qs := rfl
@[simp] theorem modFab_former (s : State) (f : Fabric → Fabric) : (modFab s f).former = s.former := rfl
@[simp] theorem modFab_cl (s : State) (f : Fabric → Fabric) : (modFab s f).cl = s.cl := rfl
@[simp] theorem modFab_arbs (s : State) (f : Fabric → Fabric) : (modFab s f).arbs = s.arbs := rfl
@[simp] theorem modFab_ksl (s : State) (f : Fabric → Fabric) : (modFab s f).ksl = s.ksl := rfl
@[simp] theorem modFab_fab (s : State) (f : Fabric → Fabric) :
    (modFab s f).fab = f s.fab := rfl
@[simp] theorem modFab_ridge (s : State) (f : Fabric → Fabric) : (modFab s f).ridge = s.ridge := rfl
@[simp] theorem modFab_col (s : State) (f : Fabric → Fabric) : (modFab s f).col = s.col := rfl
@[simp] theorem modFab_pwr (s : State) (f : Fabric → Fabric) : (modFab s f).pwr = s.pwr := rfl
@[simp] theorem modFab_boot (s : State) (f : Fabric → Fabric) : (modFab s f).boot = s.boot := rfl
@[simp] theorem modFab_svc (s : State) (f : Fabric → Fabric) : (modFab s f).svc = s.svc := rfl
@[simp] theorem modFab_mgmt (s : State) (f : Fabric → Fabric) : (modFab s f).mgmt = s.mgmt := rfl

/-! ### `modTx` -/

@[simp] theorem modTx_pending (s : State) (p f : Nat) (g : KftTx → KftTx) : (modTx s p f g).pending = s.pending := rfl
@[simp] theorem modTx_time (s : State) (p f : Nat) (g : KftTx → KftTx) : (modTx s p f g).time = s.time := rfl
@[simp] theorem modTx_free (s : State) (p f : Nat) (g : KftTx → KftTx) : (modTx s p f g).free = s.free := rfl
@[simp] theorem modTx_regs (s : State) (p f : Nat) (g : KftTx → KftTx) : (modTx s p f g).regs = s.regs := rfl
@[simp] theorem modTx_shadow (s : State) (p f : Nat) (g : KftTx → KftTx) : (modTx s p f g).shadow = s.shadow := rfl
@[simp] theorem modTx_mem (s : State) (p f : Nat) (g : KftTx → KftTx) : (modTx s p f g).mem = s.mem := rfl
@[simp] theorem modTx_poison (s : State) (p f : Nat) (g : KftTx → KftTx) : (modTx s p f g).poison = s.poison := rfl
@[simp] theorem modTx_net (s : State) (p f : Nat) (g : KftTx → KftTx) : (modTx s p f g).net = s.net := rfl
@[simp] theorem modTx_spurs (s : State) (p f : Nat) (g : KftTx → KftTx) : (modTx s p f g).spurs = s.spurs := rfl
@[simp] theorem modTx_tdies (s : State) (p f : Nat) (g : KftTx → KftTx) : (modTx s p f g).tdies = s.tdies := rfl
@[simp] theorem modTx_kernels (s : State) (p f : Nat) (g : KftTx → KftTx) : (modTx s p f g).kernels = s.kernels := rfl
@[simp] theorem modTx_harts (s : State) (p f : Nat) (g : KftTx → KftTx) : (modTx s p f g).harts = s.harts := rfl
@[simp] theorem modTx_coh (s : State) (p f : Nat) (g : KftTx → KftTx) : (modTx s p f g).coh = s.coh := rfl
@[simp] theorem modTx_xlt (s : State) (p f : Nat) (g : KftTx → KftTx) : (modTx s p f g).xlt = s.xlt := rfl
@[simp] theorem modTx_tiers (s : State) (p f : Nat) (g : KftTx → KftTx) : (modTx s p f g).tiers = s.tiers := rfl
@[simp] theorem modTx_qs (s : State) (p f : Nat) (g : KftTx → KftTx) : (modTx s p f g).qs = s.qs := rfl
@[simp] theorem modTx_former (s : State) (p f : Nat) (g : KftTx → KftTx) : (modTx s p f g).former = s.former := rfl
@[simp] theorem modTx_cl (s : State) (p f : Nat) (g : KftTx → KftTx) : (modTx s p f g).cl = s.cl := rfl
@[simp] theorem modTx_arbs (s : State) (p f : Nat) (g : KftTx → KftTx) : (modTx s p f g).arbs = s.arbs := rfl
@[simp] theorem modTx_ksl (s : State) (p f : Nat) (g : KftTx → KftTx) : (modTx s p f g).ksl = s.ksl := rfl
@[simp] theorem modTx_ridge (s : State) (p f : Nat) (g : KftTx → KftTx) : (modTx s p f g).ridge = s.ridge := rfl
@[simp] theorem modTx_col (s : State) (p f : Nat) (g : KftTx → KftTx) : (modTx s p f g).col = s.col := rfl
@[simp] theorem modTx_pwr (s : State) (p f : Nat) (g : KftTx → KftTx) : (modTx s p f g).pwr = s.pwr := rfl
@[simp] theorem modTx_boot (s : State) (p f : Nat) (g : KftTx → KftTx) : (modTx s p f g).boot = s.boot := rfl
@[simp] theorem modTx_svc (s : State) (p f : Nat) (g : KftTx → KftTx) : (modTx s p f g).svc = s.svc := rfl
@[simp] theorem modTx_mgmt (s : State) (p f : Nat) (g : KftTx → KftTx) : (modTx s p f g).mgmt = s.mgmt := rfl

/-! ### `modRx` -/

@[simp] theorem modRx_pending (s : State) (p f : Nat) (g : KftRx → KftRx) : (modRx s p f g).pending = s.pending := rfl
@[simp] theorem modRx_time (s : State) (p f : Nat) (g : KftRx → KftRx) : (modRx s p f g).time = s.time := rfl
@[simp] theorem modRx_free (s : State) (p f : Nat) (g : KftRx → KftRx) : (modRx s p f g).free = s.free := rfl
@[simp] theorem modRx_regs (s : State) (p f : Nat) (g : KftRx → KftRx) : (modRx s p f g).regs = s.regs := rfl
@[simp] theorem modRx_shadow (s : State) (p f : Nat) (g : KftRx → KftRx) : (modRx s p f g).shadow = s.shadow := rfl
@[simp] theorem modRx_mem (s : State) (p f : Nat) (g : KftRx → KftRx) : (modRx s p f g).mem = s.mem := rfl
@[simp] theorem modRx_poison (s : State) (p f : Nat) (g : KftRx → KftRx) : (modRx s p f g).poison = s.poison := rfl
@[simp] theorem modRx_net (s : State) (p f : Nat) (g : KftRx → KftRx) : (modRx s p f g).net = s.net := rfl
@[simp] theorem modRx_spurs (s : State) (p f : Nat) (g : KftRx → KftRx) : (modRx s p f g).spurs = s.spurs := rfl
@[simp] theorem modRx_tdies (s : State) (p f : Nat) (g : KftRx → KftRx) : (modRx s p f g).tdies = s.tdies := rfl
@[simp] theorem modRx_kernels (s : State) (p f : Nat) (g : KftRx → KftRx) : (modRx s p f g).kernels = s.kernels := rfl
@[simp] theorem modRx_harts (s : State) (p f : Nat) (g : KftRx → KftRx) : (modRx s p f g).harts = s.harts := rfl
@[simp] theorem modRx_coh (s : State) (p f : Nat) (g : KftRx → KftRx) : (modRx s p f g).coh = s.coh := rfl
@[simp] theorem modRx_xlt (s : State) (p f : Nat) (g : KftRx → KftRx) : (modRx s p f g).xlt = s.xlt := rfl
@[simp] theorem modRx_tiers (s : State) (p f : Nat) (g : KftRx → KftRx) : (modRx s p f g).tiers = s.tiers := rfl
@[simp] theorem modRx_qs (s : State) (p f : Nat) (g : KftRx → KftRx) : (modRx s p f g).qs = s.qs := rfl
@[simp] theorem modRx_former (s : State) (p f : Nat) (g : KftRx → KftRx) : (modRx s p f g).former = s.former := rfl
@[simp] theorem modRx_cl (s : State) (p f : Nat) (g : KftRx → KftRx) : (modRx s p f g).cl = s.cl := rfl
@[simp] theorem modRx_arbs (s : State) (p f : Nat) (g : KftRx → KftRx) : (modRx s p f g).arbs = s.arbs := rfl
@[simp] theorem modRx_ksl (s : State) (p f : Nat) (g : KftRx → KftRx) : (modRx s p f g).ksl = s.ksl := rfl
@[simp] theorem modRx_ridge (s : State) (p f : Nat) (g : KftRx → KftRx) : (modRx s p f g).ridge = s.ridge := rfl
@[simp] theorem modRx_col (s : State) (p f : Nat) (g : KftRx → KftRx) : (modRx s p f g).col = s.col := rfl
@[simp] theorem modRx_pwr (s : State) (p f : Nat) (g : KftRx → KftRx) : (modRx s p f g).pwr = s.pwr := rfl
@[simp] theorem modRx_boot (s : State) (p f : Nat) (g : KftRx → KftRx) : (modRx s p f g).boot = s.boot := rfl
@[simp] theorem modRx_svc (s : State) (p f : Nat) (g : KftRx → KftRx) : (modRx s p f g).svc = s.svc := rfl
@[simp] theorem modRx_mgmt (s : State) (p f : Nat) (g : KftRx → KftRx) : (modRx s p f g).mgmt = s.mgmt := rfl

/-! ### `putFrame` -/

@[simp] theorem putFrame_pending (s : State) (x : FabFrame) : (putFrame s x).pending = s.pending := rfl
@[simp] theorem putFrame_time (s : State) (x : FabFrame) : (putFrame s x).time = s.time := rfl
@[simp] theorem putFrame_free (s : State) (x : FabFrame) : (putFrame s x).free = s.free := rfl
@[simp] theorem putFrame_regs (s : State) (x : FabFrame) : (putFrame s x).regs = s.regs := rfl
@[simp] theorem putFrame_shadow (s : State) (x : FabFrame) : (putFrame s x).shadow = s.shadow := rfl
@[simp] theorem putFrame_mem (s : State) (x : FabFrame) : (putFrame s x).mem = s.mem := rfl
@[simp] theorem putFrame_poison (s : State) (x : FabFrame) : (putFrame s x).poison = s.poison := rfl
@[simp] theorem putFrame_net (s : State) (x : FabFrame) : (putFrame s x).net = s.net := rfl
@[simp] theorem putFrame_spurs (s : State) (x : FabFrame) : (putFrame s x).spurs = s.spurs := rfl
@[simp] theorem putFrame_tdies (s : State) (x : FabFrame) : (putFrame s x).tdies = s.tdies := rfl
@[simp] theorem putFrame_kernels (s : State) (x : FabFrame) : (putFrame s x).kernels = s.kernels := rfl
@[simp] theorem putFrame_harts (s : State) (x : FabFrame) : (putFrame s x).harts = s.harts := rfl
@[simp] theorem putFrame_coh (s : State) (x : FabFrame) : (putFrame s x).coh = s.coh := rfl
@[simp] theorem putFrame_xlt (s : State) (x : FabFrame) : (putFrame s x).xlt = s.xlt := rfl
@[simp] theorem putFrame_tiers (s : State) (x : FabFrame) : (putFrame s x).tiers = s.tiers := rfl
@[simp] theorem putFrame_qs (s : State) (x : FabFrame) : (putFrame s x).qs = s.qs := rfl
@[simp] theorem putFrame_former (s : State) (x : FabFrame) : (putFrame s x).former = s.former := rfl
@[simp] theorem putFrame_cl (s : State) (x : FabFrame) : (putFrame s x).cl = s.cl := rfl
@[simp] theorem putFrame_arbs (s : State) (x : FabFrame) : (putFrame s x).arbs = s.arbs := rfl
@[simp] theorem putFrame_ksl (s : State) (x : FabFrame) : (putFrame s x).ksl = s.ksl := rfl
@[simp] theorem putFrame_ridge (s : State) (x : FabFrame) : (putFrame s x).ridge = s.ridge := rfl
@[simp] theorem putFrame_col (s : State) (x : FabFrame) : (putFrame s x).col = s.col := rfl
@[simp] theorem putFrame_pwr (s : State) (x : FabFrame) : (putFrame s x).pwr = s.pwr := rfl
@[simp] theorem putFrame_boot (s : State) (x : FabFrame) : (putFrame s x).boot = s.boot := rfl
@[simp] theorem putFrame_svc (s : State) (x : FabFrame) : (putFrame s x).svc = s.svc := rfl
@[simp] theorem putFrame_mgmt (s : State) (x : FabFrame) : (putFrame s x).mgmt = s.mgmt := rfl

/-! ### `modSet` -/

@[simp] theorem modSet_pending (s : State) (n : Nat) (g : CollSet → CollSet) : (modSet s n g).pending = s.pending := rfl
@[simp] theorem modSet_time (s : State) (n : Nat) (g : CollSet → CollSet) : (modSet s n g).time = s.time := rfl
@[simp] theorem modSet_free (s : State) (n : Nat) (g : CollSet → CollSet) : (modSet s n g).free = s.free := rfl
@[simp] theorem modSet_regs (s : State) (n : Nat) (g : CollSet → CollSet) : (modSet s n g).regs = s.regs := rfl
@[simp] theorem modSet_shadow (s : State) (n : Nat) (g : CollSet → CollSet) : (modSet s n g).shadow = s.shadow := rfl
@[simp] theorem modSet_mem (s : State) (n : Nat) (g : CollSet → CollSet) : (modSet s n g).mem = s.mem := rfl
@[simp] theorem modSet_poison (s : State) (n : Nat) (g : CollSet → CollSet) : (modSet s n g).poison = s.poison := rfl
@[simp] theorem modSet_net (s : State) (n : Nat) (g : CollSet → CollSet) : (modSet s n g).net = s.net := rfl
@[simp] theorem modSet_spurs (s : State) (n : Nat) (g : CollSet → CollSet) : (modSet s n g).spurs = s.spurs := rfl
@[simp] theorem modSet_tdies (s : State) (n : Nat) (g : CollSet → CollSet) : (modSet s n g).tdies = s.tdies := rfl
@[simp] theorem modSet_kernels (s : State) (n : Nat) (g : CollSet → CollSet) : (modSet s n g).kernels = s.kernels := rfl
@[simp] theorem modSet_harts (s : State) (n : Nat) (g : CollSet → CollSet) : (modSet s n g).harts = s.harts := rfl
@[simp] theorem modSet_coh (s : State) (n : Nat) (g : CollSet → CollSet) : (modSet s n g).coh = s.coh := rfl
@[simp] theorem modSet_xlt (s : State) (n : Nat) (g : CollSet → CollSet) : (modSet s n g).xlt = s.xlt := rfl
@[simp] theorem modSet_tiers (s : State) (n : Nat) (g : CollSet → CollSet) : (modSet s n g).tiers = s.tiers := rfl
@[simp] theorem modSet_qs (s : State) (n : Nat) (g : CollSet → CollSet) : (modSet s n g).qs = s.qs := rfl
@[simp] theorem modSet_former (s : State) (n : Nat) (g : CollSet → CollSet) : (modSet s n g).former = s.former := rfl
@[simp] theorem modSet_cl (s : State) (n : Nat) (g : CollSet → CollSet) : (modSet s n g).cl = s.cl := rfl
@[simp] theorem modSet_arbs (s : State) (n : Nat) (g : CollSet → CollSet) : (modSet s n g).arbs = s.arbs := rfl
@[simp] theorem modSet_ksl (s : State) (n : Nat) (g : CollSet → CollSet) : (modSet s n g).ksl = s.ksl := rfl
@[simp] theorem modSet_ridge (s : State) (n : Nat) (g : CollSet → CollSet) : (modSet s n g).ridge = s.ridge := rfl
@[simp] theorem modSet_col (s : State) (n : Nat) (g : CollSet → CollSet) : (modSet s n g).col = s.col := rfl
@[simp] theorem modSet_pwr (s : State) (n : Nat) (g : CollSet → CollSet) : (modSet s n g).pwr = s.pwr := rfl
@[simp] theorem modSet_boot (s : State) (n : Nat) (g : CollSet → CollSet) : (modSet s n g).boot = s.boot := rfl
@[simp] theorem modSet_svc (s : State) (n : Nat) (g : CollSet → CollSet) : (modSet s n g).svc = s.svc := rfl
@[simp] theorem modSet_mgmt (s : State) (n : Nat) (g : CollSet → CollSet) : (modSet s n g).mgmt = s.mgmt := rfl

/-! ### `setStep` -/

@[simp] theorem setStep_pending (s : State) (n key : Nat) (x : CollStep) : (setStep s n key x).pending = s.pending := rfl
@[simp] theorem setStep_time (s : State) (n key : Nat) (x : CollStep) : (setStep s n key x).time = s.time := rfl
@[simp] theorem setStep_free (s : State) (n key : Nat) (x : CollStep) : (setStep s n key x).free = s.free := rfl
@[simp] theorem setStep_regs (s : State) (n key : Nat) (x : CollStep) : (setStep s n key x).regs = s.regs := rfl
@[simp] theorem setStep_shadow (s : State) (n key : Nat) (x : CollStep) : (setStep s n key x).shadow = s.shadow := rfl
@[simp] theorem setStep_mem (s : State) (n key : Nat) (x : CollStep) : (setStep s n key x).mem = s.mem := rfl
@[simp] theorem setStep_poison (s : State) (n key : Nat) (x : CollStep) : (setStep s n key x).poison = s.poison := rfl
@[simp] theorem setStep_net (s : State) (n key : Nat) (x : CollStep) : (setStep s n key x).net = s.net := rfl
@[simp] theorem setStep_spurs (s : State) (n key : Nat) (x : CollStep) : (setStep s n key x).spurs = s.spurs := rfl
@[simp] theorem setStep_tdies (s : State) (n key : Nat) (x : CollStep) : (setStep s n key x).tdies = s.tdies := rfl
@[simp] theorem setStep_kernels (s : State) (n key : Nat) (x : CollStep) : (setStep s n key x).kernels = s.kernels := rfl
@[simp] theorem setStep_harts (s : State) (n key : Nat) (x : CollStep) : (setStep s n key x).harts = s.harts := rfl
@[simp] theorem setStep_coh (s : State) (n key : Nat) (x : CollStep) : (setStep s n key x).coh = s.coh := rfl
@[simp] theorem setStep_xlt (s : State) (n key : Nat) (x : CollStep) : (setStep s n key x).xlt = s.xlt := rfl
@[simp] theorem setStep_tiers (s : State) (n key : Nat) (x : CollStep) : (setStep s n key x).tiers = s.tiers := rfl
@[simp] theorem setStep_qs (s : State) (n key : Nat) (x : CollStep) : (setStep s n key x).qs = s.qs := rfl
@[simp] theorem setStep_former (s : State) (n key : Nat) (x : CollStep) : (setStep s n key x).former = s.former := rfl
@[simp] theorem setStep_cl (s : State) (n key : Nat) (x : CollStep) : (setStep s n key x).cl = s.cl := rfl
@[simp] theorem setStep_arbs (s : State) (n key : Nat) (x : CollStep) : (setStep s n key x).arbs = s.arbs := rfl
@[simp] theorem setStep_ksl (s : State) (n key : Nat) (x : CollStep) : (setStep s n key x).ksl = s.ksl := rfl
@[simp] theorem setStep_ridge (s : State) (n key : Nat) (x : CollStep) : (setStep s n key x).ridge = s.ridge := rfl
@[simp] theorem setStep_col (s : State) (n key : Nat) (x : CollStep) : (setStep s n key x).col = s.col := rfl
@[simp] theorem setStep_pwr (s : State) (n key : Nat) (x : CollStep) : (setStep s n key x).pwr = s.pwr := rfl
@[simp] theorem setStep_boot (s : State) (n key : Nat) (x : CollStep) : (setStep s n key x).boot = s.boot := rfl
@[simp] theorem setStep_svc (s : State) (n key : Nat) (x : CollStep) : (setStep s n key x).svc = s.svc := rfl
@[simp] theorem setStep_mgmt (s : State) (n key : Nat) (x : CollStep) : (setStep s n key x).mgmt = s.mgmt := rfl

/-! ### `modRmod` -/

@[simp] theorem modRmod_pending (s : State) (k : Nat) (f : RidgeModule → RidgeModule) : (modRmod s k f).pending = s.pending := rfl
@[simp] theorem modRmod_time (s : State) (k : Nat) (f : RidgeModule → RidgeModule) : (modRmod s k f).time = s.time := rfl
@[simp] theorem modRmod_free (s : State) (k : Nat) (f : RidgeModule → RidgeModule) : (modRmod s k f).free = s.free := rfl
@[simp] theorem modRmod_regs (s : State) (k : Nat) (f : RidgeModule → RidgeModule) : (modRmod s k f).regs = s.regs := rfl
@[simp] theorem modRmod_shadow (s : State) (k : Nat) (f : RidgeModule → RidgeModule) : (modRmod s k f).shadow = s.shadow := rfl
@[simp] theorem modRmod_mem (s : State) (k : Nat) (f : RidgeModule → RidgeModule) : (modRmod s k f).mem = s.mem := rfl
@[simp] theorem modRmod_poison (s : State) (k : Nat) (f : RidgeModule → RidgeModule) : (modRmod s k f).poison = s.poison := rfl
@[simp] theorem modRmod_net (s : State) (k : Nat) (f : RidgeModule → RidgeModule) : (modRmod s k f).net = s.net := rfl
@[simp] theorem modRmod_spurs (s : State) (k : Nat) (f : RidgeModule → RidgeModule) : (modRmod s k f).spurs = s.spurs := rfl
@[simp] theorem modRmod_tdies (s : State) (k : Nat) (f : RidgeModule → RidgeModule) : (modRmod s k f).tdies = s.tdies := rfl
@[simp] theorem modRmod_kernels (s : State) (k : Nat) (f : RidgeModule → RidgeModule) : (modRmod s k f).kernels = s.kernels := rfl
@[simp] theorem modRmod_harts (s : State) (k : Nat) (f : RidgeModule → RidgeModule) : (modRmod s k f).harts = s.harts := rfl
@[simp] theorem modRmod_coh (s : State) (k : Nat) (f : RidgeModule → RidgeModule) : (modRmod s k f).coh = s.coh := rfl
@[simp] theorem modRmod_xlt (s : State) (k : Nat) (f : RidgeModule → RidgeModule) : (modRmod s k f).xlt = s.xlt := rfl
@[simp] theorem modRmod_tiers (s : State) (k : Nat) (f : RidgeModule → RidgeModule) : (modRmod s k f).tiers = s.tiers := rfl
@[simp] theorem modRmod_qs (s : State) (k : Nat) (f : RidgeModule → RidgeModule) : (modRmod s k f).qs = s.qs := rfl
@[simp] theorem modRmod_former (s : State) (k : Nat) (f : RidgeModule → RidgeModule) : (modRmod s k f).former = s.former := rfl
@[simp] theorem modRmod_cl (s : State) (k : Nat) (f : RidgeModule → RidgeModule) : (modRmod s k f).cl = s.cl := rfl
@[simp] theorem modRmod_arbs (s : State) (k : Nat) (f : RidgeModule → RidgeModule) : (modRmod s k f).arbs = s.arbs := rfl
@[simp] theorem modRmod_ksl (s : State) (k : Nat) (f : RidgeModule → RidgeModule) : (modRmod s k f).ksl = s.ksl := rfl
@[simp] theorem modRmod_fab (s : State) (k : Nat) (f : RidgeModule → RidgeModule) : (modRmod s k f).fab = s.fab := rfl
@[simp] theorem modRmod_col (s : State) (k : Nat) (f : RidgeModule → RidgeModule) : (modRmod s k f).col = s.col := rfl
@[simp] theorem modRmod_pwr (s : State) (k : Nat) (f : RidgeModule → RidgeModule) : (modRmod s k f).pwr = s.pwr := rfl
@[simp] theorem modRmod_boot (s : State) (k : Nat) (f : RidgeModule → RidgeModule) : (modRmod s k f).boot = s.boot := rfl
@[simp] theorem modRmod_svc (s : State) (k : Nat) (f : RidgeModule → RidgeModule) : (modRmod s k f).svc = s.svc := rfl
@[simp] theorem modRmod_mgmt (s : State) (k : Nat) (f : RidgeModule → RidgeModule) : (modRmod s k f).mgmt = s.mgmt := rfl

/-! ### `modSite` -/

@[simp] theorem modSite_pending (s : State) (g : Nat) (f : ColSite → ColSite) : (modSite s g f).pending = s.pending := rfl
@[simp] theorem modSite_time (s : State) (g : Nat) (f : ColSite → ColSite) : (modSite s g f).time = s.time := rfl
@[simp] theorem modSite_free (s : State) (g : Nat) (f : ColSite → ColSite) : (modSite s g f).free = s.free := rfl
@[simp] theorem modSite_regs (s : State) (g : Nat) (f : ColSite → ColSite) : (modSite s g f).regs = s.regs := rfl
@[simp] theorem modSite_shadow (s : State) (g : Nat) (f : ColSite → ColSite) : (modSite s g f).shadow = s.shadow := rfl
@[simp] theorem modSite_mem (s : State) (g : Nat) (f : ColSite → ColSite) : (modSite s g f).mem = s.mem := rfl
@[simp] theorem modSite_poison (s : State) (g : Nat) (f : ColSite → ColSite) : (modSite s g f).poison = s.poison := rfl
@[simp] theorem modSite_net (s : State) (g : Nat) (f : ColSite → ColSite) : (modSite s g f).net = s.net := rfl
@[simp] theorem modSite_spurs (s : State) (g : Nat) (f : ColSite → ColSite) : (modSite s g f).spurs = s.spurs := rfl
@[simp] theorem modSite_tdies (s : State) (g : Nat) (f : ColSite → ColSite) : (modSite s g f).tdies = s.tdies := rfl
@[simp] theorem modSite_kernels (s : State) (g : Nat) (f : ColSite → ColSite) : (modSite s g f).kernels = s.kernels := rfl
@[simp] theorem modSite_harts (s : State) (g : Nat) (f : ColSite → ColSite) : (modSite s g f).harts = s.harts := rfl
@[simp] theorem modSite_coh (s : State) (g : Nat) (f : ColSite → ColSite) : (modSite s g f).coh = s.coh := rfl
@[simp] theorem modSite_xlt (s : State) (g : Nat) (f : ColSite → ColSite) : (modSite s g f).xlt = s.xlt := rfl
@[simp] theorem modSite_tiers (s : State) (g : Nat) (f : ColSite → ColSite) : (modSite s g f).tiers = s.tiers := rfl
@[simp] theorem modSite_qs (s : State) (g : Nat) (f : ColSite → ColSite) : (modSite s g f).qs = s.qs := rfl
@[simp] theorem modSite_former (s : State) (g : Nat) (f : ColSite → ColSite) : (modSite s g f).former = s.former := rfl
@[simp] theorem modSite_cl (s : State) (g : Nat) (f : ColSite → ColSite) : (modSite s g f).cl = s.cl := rfl
@[simp] theorem modSite_arbs (s : State) (g : Nat) (f : ColSite → ColSite) : (modSite s g f).arbs = s.arbs := rfl
@[simp] theorem modSite_ksl (s : State) (g : Nat) (f : ColSite → ColSite) : (modSite s g f).ksl = s.ksl := rfl
@[simp] theorem modSite_fab (s : State) (g : Nat) (f : ColSite → ColSite) : (modSite s g f).fab = s.fab := rfl
@[simp] theorem modSite_ridge (s : State) (g : Nat) (f : ColSite → ColSite) : (modSite s g f).ridge = s.ridge := rfl
@[simp] theorem modSite_col (s : State) (g : Nat) (f : ColSite → ColSite) :
    (modSite s g f).col = tmod s.col g {} f := rfl
@[simp] theorem modSite_pwr (s : State) (g : Nat) (f : ColSite → ColSite) : (modSite s g f).pwr = s.pwr := rfl
@[simp] theorem modSite_boot (s : State) (g : Nat) (f : ColSite → ColSite) : (modSite s g f).boot = s.boot := rfl
@[simp] theorem modSite_svc (s : State) (g : Nat) (f : ColSite → ColSite) : (modSite s g f).svc = s.svc := rfl
@[simp] theorem modSite_mgmt (s : State) (g : Nat) (f : ColSite → ColSite) : (modSite s g f).mgmt = s.mgmt := rfl

/-! ### `modPwr` -/

@[simp] theorem modPwr_pending (s : State) (die : Nat) (f : PwrDie → PwrDie) : (modPwr s die f).pending = s.pending := rfl
@[simp] theorem modPwr_time (s : State) (die : Nat) (f : PwrDie → PwrDie) : (modPwr s die f).time = s.time := rfl
@[simp] theorem modPwr_free (s : State) (die : Nat) (f : PwrDie → PwrDie) : (modPwr s die f).free = s.free := rfl
@[simp] theorem modPwr_regs (s : State) (die : Nat) (f : PwrDie → PwrDie) : (modPwr s die f).regs = s.regs := rfl
@[simp] theorem modPwr_shadow (s : State) (die : Nat) (f : PwrDie → PwrDie) : (modPwr s die f).shadow = s.shadow := rfl
@[simp] theorem modPwr_mem (s : State) (die : Nat) (f : PwrDie → PwrDie) : (modPwr s die f).mem = s.mem := rfl
@[simp] theorem modPwr_poison (s : State) (die : Nat) (f : PwrDie → PwrDie) : (modPwr s die f).poison = s.poison := rfl
@[simp] theorem modPwr_net (s : State) (die : Nat) (f : PwrDie → PwrDie) : (modPwr s die f).net = s.net := rfl
@[simp] theorem modPwr_spurs (s : State) (die : Nat) (f : PwrDie → PwrDie) : (modPwr s die f).spurs = s.spurs := rfl
@[simp] theorem modPwr_tdies (s : State) (die : Nat) (f : PwrDie → PwrDie) : (modPwr s die f).tdies = s.tdies := rfl
@[simp] theorem modPwr_kernels (s : State) (die : Nat) (f : PwrDie → PwrDie) : (modPwr s die f).kernels = s.kernels := rfl
@[simp] theorem modPwr_harts (s : State) (die : Nat) (f : PwrDie → PwrDie) : (modPwr s die f).harts = s.harts := rfl
@[simp] theorem modPwr_coh (s : State) (die : Nat) (f : PwrDie → PwrDie) : (modPwr s die f).coh = s.coh := rfl
@[simp] theorem modPwr_xlt (s : State) (die : Nat) (f : PwrDie → PwrDie) : (modPwr s die f).xlt = s.xlt := rfl
@[simp] theorem modPwr_tiers (s : State) (die : Nat) (f : PwrDie → PwrDie) : (modPwr s die f).tiers = s.tiers := rfl
@[simp] theorem modPwr_qs (s : State) (die : Nat) (f : PwrDie → PwrDie) : (modPwr s die f).qs = s.qs := rfl
@[simp] theorem modPwr_former (s : State) (die : Nat) (f : PwrDie → PwrDie) : (modPwr s die f).former = s.former := rfl
@[simp] theorem modPwr_cl (s : State) (die : Nat) (f : PwrDie → PwrDie) : (modPwr s die f).cl = s.cl := rfl
@[simp] theorem modPwr_arbs (s : State) (die : Nat) (f : PwrDie → PwrDie) : (modPwr s die f).arbs = s.arbs := rfl
@[simp] theorem modPwr_ksl (s : State) (die : Nat) (f : PwrDie → PwrDie) : (modPwr s die f).ksl = s.ksl := rfl
@[simp] theorem modPwr_fab (s : State) (die : Nat) (f : PwrDie → PwrDie) : (modPwr s die f).fab = s.fab := rfl
@[simp] theorem modPwr_ridge (s : State) (die : Nat) (f : PwrDie → PwrDie) : (modPwr s die f).ridge = s.ridge := rfl
@[simp] theorem modPwr_col (s : State) (die : Nat) (f : PwrDie → PwrDie) : (modPwr s die f).col = s.col := rfl
@[simp] theorem modPwr_boot (s : State) (die : Nat) (f : PwrDie → PwrDie) : (modPwr s die f).boot = s.boot := rfl
@[simp] theorem modPwr_svc (s : State) (die : Nat) (f : PwrDie → PwrDie) : (modPwr s die f).svc = s.svc := rfl
@[simp] theorem modPwr_mgmt (s : State) (die : Nat) (f : PwrDie → PwrDie) : (modPwr s die f).mgmt = s.mgmt := rfl

/-! ### `modBoot` -/

@[simp] theorem modBoot_pending (s : State) (f : Boot → Boot) : (modBoot s f).pending = s.pending := rfl
@[simp] theorem modBoot_time (s : State) (f : Boot → Boot) : (modBoot s f).time = s.time := rfl
@[simp] theorem modBoot_free (s : State) (f : Boot → Boot) : (modBoot s f).free = s.free := rfl
@[simp] theorem modBoot_regs (s : State) (f : Boot → Boot) : (modBoot s f).regs = s.regs := rfl
@[simp] theorem modBoot_shadow (s : State) (f : Boot → Boot) : (modBoot s f).shadow = s.shadow := rfl
@[simp] theorem modBoot_mem (s : State) (f : Boot → Boot) : (modBoot s f).mem = s.mem := rfl
@[simp] theorem modBoot_poison (s : State) (f : Boot → Boot) : (modBoot s f).poison = s.poison := rfl
@[simp] theorem modBoot_net (s : State) (f : Boot → Boot) : (modBoot s f).net = s.net := rfl
@[simp] theorem modBoot_spurs (s : State) (f : Boot → Boot) : (modBoot s f).spurs = s.spurs := rfl
@[simp] theorem modBoot_tdies (s : State) (f : Boot → Boot) : (modBoot s f).tdies = s.tdies := rfl
@[simp] theorem modBoot_kernels (s : State) (f : Boot → Boot) : (modBoot s f).kernels = s.kernels := rfl
@[simp] theorem modBoot_harts (s : State) (f : Boot → Boot) : (modBoot s f).harts = s.harts := rfl
@[simp] theorem modBoot_coh (s : State) (f : Boot → Boot) : (modBoot s f).coh = s.coh := rfl
@[simp] theorem modBoot_xlt (s : State) (f : Boot → Boot) : (modBoot s f).xlt = s.xlt := rfl
@[simp] theorem modBoot_tiers (s : State) (f : Boot → Boot) : (modBoot s f).tiers = s.tiers := rfl
@[simp] theorem modBoot_qs (s : State) (f : Boot → Boot) : (modBoot s f).qs = s.qs := rfl
@[simp] theorem modBoot_former (s : State) (f : Boot → Boot) : (modBoot s f).former = s.former := rfl
@[simp] theorem modBoot_cl (s : State) (f : Boot → Boot) : (modBoot s f).cl = s.cl := rfl
@[simp] theorem modBoot_arbs (s : State) (f : Boot → Boot) : (modBoot s f).arbs = s.arbs := rfl
@[simp] theorem modBoot_ksl (s : State) (f : Boot → Boot) : (modBoot s f).ksl = s.ksl := rfl
@[simp] theorem modBoot_fab (s : State) (f : Boot → Boot) : (modBoot s f).fab = s.fab := rfl
@[simp] theorem modBoot_ridge (s : State) (f : Boot → Boot) : (modBoot s f).ridge = s.ridge := rfl
@[simp] theorem modBoot_col (s : State) (f : Boot → Boot) : (modBoot s f).col = s.col := rfl
@[simp] theorem modBoot_pwr (s : State) (f : Boot → Boot) : (modBoot s f).pwr = s.pwr := rfl
@[simp] theorem modBoot_boot (s : State) (f : Boot → Boot) :
    (modBoot s f).boot = f s.boot := rfl
@[simp] theorem modBoot_svc (s : State) (f : Boot → Boot) : (modBoot s f).svc = s.svc := rfl
@[simp] theorem modBoot_mgmt (s : State) (f : Boot → Boot) : (modBoot s f).mgmt = s.mgmt := rfl

/-! ### `modSvc` -/

@[simp] theorem modSvc_pending (s : State) (f : Service → Service) : (modSvc s f).pending = s.pending := rfl
@[simp] theorem modSvc_time (s : State) (f : Service → Service) : (modSvc s f).time = s.time := rfl
@[simp] theorem modSvc_free (s : State) (f : Service → Service) : (modSvc s f).free = s.free := rfl
@[simp] theorem modSvc_regs (s : State) (f : Service → Service) : (modSvc s f).regs = s.regs := rfl
@[simp] theorem modSvc_shadow (s : State) (f : Service → Service) : (modSvc s f).shadow = s.shadow := rfl
@[simp] theorem modSvc_mem (s : State) (f : Service → Service) : (modSvc s f).mem = s.mem := rfl
@[simp] theorem modSvc_poison (s : State) (f : Service → Service) : (modSvc s f).poison = s.poison := rfl
@[simp] theorem modSvc_net (s : State) (f : Service → Service) : (modSvc s f).net = s.net := rfl
@[simp] theorem modSvc_spurs (s : State) (f : Service → Service) : (modSvc s f).spurs = s.spurs := rfl
@[simp] theorem modSvc_tdies (s : State) (f : Service → Service) : (modSvc s f).tdies = s.tdies := rfl
@[simp] theorem modSvc_kernels (s : State) (f : Service → Service) : (modSvc s f).kernels = s.kernels := rfl
@[simp] theorem modSvc_harts (s : State) (f : Service → Service) : (modSvc s f).harts = s.harts := rfl
@[simp] theorem modSvc_coh (s : State) (f : Service → Service) : (modSvc s f).coh = s.coh := rfl
@[simp] theorem modSvc_xlt (s : State) (f : Service → Service) : (modSvc s f).xlt = s.xlt := rfl
@[simp] theorem modSvc_tiers (s : State) (f : Service → Service) : (modSvc s f).tiers = s.tiers := rfl
@[simp] theorem modSvc_qs (s : State) (f : Service → Service) : (modSvc s f).qs = s.qs := rfl
@[simp] theorem modSvc_former (s : State) (f : Service → Service) : (modSvc s f).former = s.former := rfl
@[simp] theorem modSvc_cl (s : State) (f : Service → Service) : (modSvc s f).cl = s.cl := rfl
@[simp] theorem modSvc_arbs (s : State) (f : Service → Service) : (modSvc s f).arbs = s.arbs := rfl
@[simp] theorem modSvc_ksl (s : State) (f : Service → Service) : (modSvc s f).ksl = s.ksl := rfl
@[simp] theorem modSvc_fab (s : State) (f : Service → Service) : (modSvc s f).fab = s.fab := rfl
@[simp] theorem modSvc_ridge (s : State) (f : Service → Service) : (modSvc s f).ridge = s.ridge := rfl
@[simp] theorem modSvc_col (s : State) (f : Service → Service) : (modSvc s f).col = s.col := rfl
@[simp] theorem modSvc_pwr (s : State) (f : Service → Service) : (modSvc s f).pwr = s.pwr := rfl
@[simp] theorem modSvc_boot (s : State) (f : Service → Service) : (modSvc s f).boot = s.boot := rfl
@[simp] theorem modSvc_svc (s : State) (f : Service → Service) :
    (modSvc s f).svc = f s.svc := rfl
@[simp] theorem modSvc_mgmt (s : State) (f : Service → Service) : (modSvc s f).mgmt = s.mgmt := rfl

/-! ### `modMgmt` -/

@[simp] theorem modMgmt_pending (s : State) (f : Mgmt → Mgmt) : (modMgmt s f).pending = s.pending := rfl
@[simp] theorem modMgmt_time (s : State) (f : Mgmt → Mgmt) : (modMgmt s f).time = s.time := rfl
@[simp] theorem modMgmt_free (s : State) (f : Mgmt → Mgmt) : (modMgmt s f).free = s.free := rfl
@[simp] theorem modMgmt_regs (s : State) (f : Mgmt → Mgmt) : (modMgmt s f).regs = s.regs := rfl
@[simp] theorem modMgmt_shadow (s : State) (f : Mgmt → Mgmt) : (modMgmt s f).shadow = s.shadow := rfl
@[simp] theorem modMgmt_mem (s : State) (f : Mgmt → Mgmt) : (modMgmt s f).mem = s.mem := rfl
@[simp] theorem modMgmt_poison (s : State) (f : Mgmt → Mgmt) : (modMgmt s f).poison = s.poison := rfl
@[simp] theorem modMgmt_net (s : State) (f : Mgmt → Mgmt) : (modMgmt s f).net = s.net := rfl
@[simp] theorem modMgmt_spurs (s : State) (f : Mgmt → Mgmt) : (modMgmt s f).spurs = s.spurs := rfl
@[simp] theorem modMgmt_tdies (s : State) (f : Mgmt → Mgmt) : (modMgmt s f).tdies = s.tdies := rfl
@[simp] theorem modMgmt_kernels (s : State) (f : Mgmt → Mgmt) : (modMgmt s f).kernels = s.kernels := rfl
@[simp] theorem modMgmt_harts (s : State) (f : Mgmt → Mgmt) : (modMgmt s f).harts = s.harts := rfl
@[simp] theorem modMgmt_coh (s : State) (f : Mgmt → Mgmt) : (modMgmt s f).coh = s.coh := rfl
@[simp] theorem modMgmt_xlt (s : State) (f : Mgmt → Mgmt) : (modMgmt s f).xlt = s.xlt := rfl
@[simp] theorem modMgmt_tiers (s : State) (f : Mgmt → Mgmt) : (modMgmt s f).tiers = s.tiers := rfl
@[simp] theorem modMgmt_qs (s : State) (f : Mgmt → Mgmt) : (modMgmt s f).qs = s.qs := rfl
@[simp] theorem modMgmt_former (s : State) (f : Mgmt → Mgmt) : (modMgmt s f).former = s.former := rfl
@[simp] theorem modMgmt_cl (s : State) (f : Mgmt → Mgmt) : (modMgmt s f).cl = s.cl := rfl
@[simp] theorem modMgmt_arbs (s : State) (f : Mgmt → Mgmt) : (modMgmt s f).arbs = s.arbs := rfl
@[simp] theorem modMgmt_ksl (s : State) (f : Mgmt → Mgmt) : (modMgmt s f).ksl = s.ksl := rfl
@[simp] theorem modMgmt_fab (s : State) (f : Mgmt → Mgmt) : (modMgmt s f).fab = s.fab := rfl
@[simp] theorem modMgmt_ridge (s : State) (f : Mgmt → Mgmt) : (modMgmt s f).ridge = s.ridge := rfl
@[simp] theorem modMgmt_col (s : State) (f : Mgmt → Mgmt) : (modMgmt s f).col = s.col := rfl
@[simp] theorem modMgmt_pwr (s : State) (f : Mgmt → Mgmt) : (modMgmt s f).pwr = s.pwr := rfl
@[simp] theorem modMgmt_boot (s : State) (f : Mgmt → Mgmt) : (modMgmt s f).boot = s.boot := rfl
@[simp] theorem modMgmt_svc (s : State) (f : Mgmt → Mgmt) : (modMgmt s f).svc = s.svc := rfl
@[simp] theorem modMgmt_mgmt (s : State) (f : Mgmt → Mgmt) :
    (modMgmt s f).mgmt = f s.mgmt := rfl

/-! ### `drawFree` -/

@[simp] theorem drawFree_pending (s : State) : (drawFree s).2.pending = s.pending := rfl
@[simp] theorem drawFree_time (s : State) : (drawFree s).2.time = s.time := rfl
@[simp] theorem drawFree_free (s : State) : (drawFree s).2.free = s.free + 1 := rfl
@[simp] theorem drawFree_regs (s : State) : (drawFree s).2.regs = s.regs := rfl
@[simp] theorem drawFree_shadow (s : State) : (drawFree s).2.shadow = s.shadow := rfl
@[simp] theorem drawFree_mem (s : State) : (drawFree s).2.mem = s.mem := rfl
@[simp] theorem drawFree_poison (s : State) : (drawFree s).2.poison = s.poison := rfl
@[simp] theorem drawFree_net (s : State) : (drawFree s).2.net = s.net := rfl
@[simp] theorem drawFree_spurs (s : State) : (drawFree s).2.spurs = s.spurs := rfl
@[simp] theorem drawFree_tdies (s : State) : (drawFree s).2.tdies = s.tdies := rfl
@[simp] theorem drawFree_kernels (s : State) : (drawFree s).2.kernels = s.kernels := rfl
@[simp] theorem drawFree_harts (s : State) : (drawFree s).2.harts = s.harts := rfl
@[simp] theorem drawFree_coh (s : State) : (drawFree s).2.coh = s.coh := rfl
@[simp] theorem drawFree_xlt (s : State) : (drawFree s).2.xlt = s.xlt := rfl
@[simp] theorem drawFree_tiers (s : State) : (drawFree s).2.tiers = s.tiers := rfl
@[simp] theorem drawFree_qs (s : State) : (drawFree s).2.qs = s.qs := rfl
@[simp] theorem drawFree_former (s : State) : (drawFree s).2.former = s.former := rfl
@[simp] theorem drawFree_cl (s : State) : (drawFree s).2.cl = s.cl := rfl
@[simp] theorem drawFree_arbs (s : State) : (drawFree s).2.arbs = s.arbs := rfl
@[simp] theorem drawFree_ksl (s : State) : (drawFree s).2.ksl = s.ksl := rfl
@[simp] theorem drawFree_fab (s : State) : (drawFree s).2.fab = s.fab := rfl
@[simp] theorem drawFree_ridge (s : State) : (drawFree s).2.ridge = s.ridge := rfl
@[simp] theorem drawFree_col (s : State) : (drawFree s).2.col = s.col := rfl
@[simp] theorem drawFree_pwr (s : State) : (drawFree s).2.pwr = s.pwr := rfl
@[simp] theorem drawFree_boot (s : State) : (drawFree s).2.boot = s.boot := rfl
@[simp] theorem drawFree_svc (s : State) : (drawFree s).2.svc = s.svc := rfl
@[simp] theorem drawFree_mgmt (s : State) : (drawFree s).2.mgmt = s.mgmt := rfl

/-! ### Counters: registers alone change -/

/-- `bumpErrAt` changes registers alone. -/
theorem bumpErrAt_onlyRegs (s : State) (die : Nat) (c : FRef) (i : Nat) : bumpErrAt s die c i = { s with regs := (bumpErrAt s die c i).regs } := by
  unfold bumpErrAt; simp only; split <;> rfl
@[simp] theorem bumpErrAt_mem (s : State) (die : Nat) (c : FRef) (i : Nat) : (bumpErrAt s die c i).mem = s.mem := by
  rw [bumpErrAt_onlyRegs]
@[simp] theorem bumpErrAt_poison (s : State) (die : Nat) (c : FRef) (i : Nat) : (bumpErrAt s die c i).poison = s.poison := by
  rw [bumpErrAt_onlyRegs]
@[simp] theorem bumpErrAt_time (s : State) (die : Nat) (c : FRef) (i : Nat) : (bumpErrAt s die c i).time = s.time := by
  rw [bumpErrAt_onlyRegs]
@[simp] theorem bumpErrAt_boot (s : State) (die : Nat) (c : FRef) (i : Nat) : (bumpErrAt s die c i).boot = s.boot := by
  rw [bumpErrAt_onlyRegs]
@[simp] theorem bumpErrAt_spurs (s : State) (die : Nat) (c : FRef) (i : Nat) : (bumpErrAt s die c i).spurs = s.spurs := by
  rw [bumpErrAt_onlyRegs]
@[simp] theorem bumpErrAt_qs (s : State) (die : Nat) (c : FRef) (i : Nat) : (bumpErrAt s die c i).qs = s.qs := by
  rw [bumpErrAt_onlyRegs]
@[simp] theorem bumpErrAt_xlt (s : State) (die : Nat) (c : FRef) (i : Nat) : (bumpErrAt s die c i).xlt = s.xlt := by
  rw [bumpErrAt_onlyRegs]
@[simp] theorem bumpErrAt_shadow (s : State) (die : Nat) (c : FRef) (i : Nat) : (bumpErrAt s die c i).shadow = s.shadow := by
  rw [bumpErrAt_onlyRegs]
/-- `bumpErr` changes registers alone. -/
theorem bumpErr_onlyRegs (s : State) (die : Nat) (c : FRef) : bumpErr s die c = { s with regs := (bumpErr s die c).regs } := by
  unfold bumpErr bumpErrAt; simp only; split <;> rfl
@[simp] theorem bumpErr_mem (s : State) (die : Nat) (c : FRef) : (bumpErr s die c).mem = s.mem := by
  rw [bumpErr_onlyRegs]
@[simp] theorem bumpErr_poison (s : State) (die : Nat) (c : FRef) : (bumpErr s die c).poison = s.poison := by
  rw [bumpErr_onlyRegs]
@[simp] theorem bumpErr_time (s : State) (die : Nat) (c : FRef) : (bumpErr s die c).time = s.time := by
  rw [bumpErr_onlyRegs]
@[simp] theorem bumpErr_boot (s : State) (die : Nat) (c : FRef) : (bumpErr s die c).boot = s.boot := by
  rw [bumpErr_onlyRegs]
@[simp] theorem bumpErr_spurs (s : State) (die : Nat) (c : FRef) : (bumpErr s die c).spurs = s.spurs := by
  rw [bumpErr_onlyRegs]
@[simp] theorem bumpErr_qs (s : State) (die : Nat) (c : FRef) : (bumpErr s die c).qs = s.qs := by
  rw [bumpErr_onlyRegs]
@[simp] theorem bumpErr_xlt (s : State) (die : Nat) (c : FRef) : (bumpErr s die c).xlt = s.xlt := by
  rw [bumpErr_onlyRegs]
@[simp] theorem bumpErr_shadow (s : State) (die : Nat) (c : FRef) : (bumpErr s die c).shadow = s.shadow := by
  rw [bumpErr_onlyRegs]
/-- `bumpEventAt` changes registers alone. -/
theorem bumpEventAt_onlyRegs (s : State) (die : Nat) (c : FRef) (i : Nat) (o : FRef) (b n : Nat) : bumpEventAt s die c i o b n = { s with regs := (bumpEventAt s die c i o b n).regs } := by
  unfold bumpEventAt; simp only; split <;> rfl
@[simp] theorem bumpEventAt_mem (s : State) (die : Nat) (c : FRef) (i : Nat) (o : FRef) (b n : Nat) : (bumpEventAt s die c i o b n).mem = s.mem := by
  rw [bumpEventAt_onlyRegs]
@[simp] theorem bumpEventAt_poison (s : State) (die : Nat) (c : FRef) (i : Nat) (o : FRef) (b n : Nat) : (bumpEventAt s die c i o b n).poison = s.poison := by
  rw [bumpEventAt_onlyRegs]
@[simp] theorem bumpEventAt_time (s : State) (die : Nat) (c : FRef) (i : Nat) (o : FRef) (b n : Nat) : (bumpEventAt s die c i o b n).time = s.time := by
  rw [bumpEventAt_onlyRegs]
@[simp] theorem bumpEventAt_boot (s : State) (die : Nat) (c : FRef) (i : Nat) (o : FRef) (b n : Nat) : (bumpEventAt s die c i o b n).boot = s.boot := by
  rw [bumpEventAt_onlyRegs]
@[simp] theorem bumpEventAt_spurs (s : State) (die : Nat) (c : FRef) (i : Nat) (o : FRef) (b n : Nat) : (bumpEventAt s die c i o b n).spurs = s.spurs := by
  rw [bumpEventAt_onlyRegs]
@[simp] theorem bumpEventAt_qs (s : State) (die : Nat) (c : FRef) (i : Nat) (o : FRef) (b n : Nat) : (bumpEventAt s die c i o b n).qs = s.qs := by
  rw [bumpEventAt_onlyRegs]
@[simp] theorem bumpEventAt_xlt (s : State) (die : Nat) (c : FRef) (i : Nat) (o : FRef) (b n : Nat) : (bumpEventAt s die c i o b n).xlt = s.xlt := by
  rw [bumpEventAt_onlyRegs]
@[simp] theorem bumpEventAt_shadow (s : State) (die : Nat) (c : FRef) (i : Nat) (o : FRef) (b n : Nat) : (bumpEventAt s die c i o b n).shadow = s.shadow := by
  rw [bumpEventAt_onlyRegs]
/-- `bumpEvent` changes registers alone. -/
theorem bumpEvent_onlyRegs (s : State) (die : Nat) (c o : FRef) : bumpEvent s die c o = { s with regs := (bumpEvent s die c o).regs } := by
  unfold bumpEvent bumpEventAt; simp only; split <;> rfl
@[simp] theorem bumpEvent_mem (s : State) (die : Nat) (c o : FRef) : (bumpEvent s die c o).mem = s.mem := by
  rw [bumpEvent_onlyRegs]
@[simp] theorem bumpEvent_poison (s : State) (die : Nat) (c o : FRef) : (bumpEvent s die c o).poison = s.poison := by
  rw [bumpEvent_onlyRegs]
@[simp] theorem bumpEvent_time (s : State) (die : Nat) (c o : FRef) : (bumpEvent s die c o).time = s.time := by
  rw [bumpEvent_onlyRegs]
@[simp] theorem bumpEvent_boot (s : State) (die : Nat) (c o : FRef) : (bumpEvent s die c o).boot = s.boot := by
  rw [bumpEvent_onlyRegs]
@[simp] theorem bumpEvent_spurs (s : State) (die : Nat) (c o : FRef) : (bumpEvent s die c o).spurs = s.spurs := by
  rw [bumpEvent_onlyRegs]
@[simp] theorem bumpEvent_qs (s : State) (die : Nat) (c o : FRef) : (bumpEvent s die c o).qs = s.qs := by
  rw [bumpEvent_onlyRegs]
@[simp] theorem bumpEvent_xlt (s : State) (die : Nat) (c o : FRef) : (bumpEvent s die c o).xlt = s.xlt := by
  rw [bumpEvent_onlyRegs]
@[simp] theorem bumpEvent_shadow (s : State) (die : Nat) (c o : FRef) : (bumpEvent s die c o).shadow = s.shadow := by
  rw [bumpEvent_onlyRegs]

/-! ### Reads of what was written -/

@[simp] theorem spur_modSpur_self (s : State) (sp : Nat) (f : Spur → Spur) : (modSpur s sp f).spur sp = f (s.spur sp) := by
  simp [State.spur]
theorem spur_modSpur_ne (s : State) {sp k : Nat} (f : Spur → Spur) (h : k ≠ sp) : (modSpur s sp f).spur k = s.spur k := by
  simp [State.spur, h]
@[simp] theorem hart_modHart_self (s : State) (n : Nat) (f : Hart → Hart) : (modHart s n f).hart n = f (s.hart n) := by
  simp [State.hart]
theorem hart_modHart_ne (s : State) {n k : Nat} (f : Hart → Hart) (h : k ≠ n) : (modHart s n f).hart k = s.hart k := by
  simp [State.hart, h]
@[simp] theorem home_modHome_self (s : State) (md : Nat) (f : Home → Home) : (modHome s md f).home md = f (s.home md) := by
  simp [State.home]
theorem home_modHome_ne (s : State) {md k : Nat} (f : Home → Home) (h : k ≠ md) : (modHome s md f).home k = s.home k := by
  simp [State.home, h]
@[simp] theorem helper_modHelper_self (s : State) (md : Nat) (f : Helper → Helper) :
    (modHelper s md f).helper md = f (s.helper md) := by simp [State.helper]
theorem helper_modHelper_ne (s : State) {md k : Nat} (f : Helper → Helper) (h : k ≠ md) :
    (modHelper s md f).helper k = s.helper k := by simp [State.helper, h]
@[simp] theorem queue_modQueue_self (s : State) (q : Nat) (f : QueueSt → QueueSt) : (modQueue s q f).queue q = f (s.queue q) := by
  simp [State.queue]
theorem queue_modQueue_ne (s : State) {q k : Nat} (f : QueueSt → QueueSt) (h : k ≠ q) : (modQueue s q f).queue k = s.queue k := by
  simp [State.queue, h]
@[simp] theorem cmd?_setCmd_self (s : State) (cid : Nat) (c : Cmd) : (setCmd s cid c).cmd? cid = some c := by simp [State.cmd?]
theorem cmd?_setCmd_ne (s : State) {cid k : Nat} (c : Cmd) (h : k ≠ cid) : (setCmd s cid c).cmd? k = s.cmd? k := by
  simp [State.cmd?, h]
@[simp] theorem port_modPort_self (s : State) (p : Nat) (f : KslPort → KslPort) : (modPort s p f).port p = f (s.port p) := by
  simp [State.port]
theorem port_modPort_ne (s : State) {p k : Nat} (f : KslPort → KslPort) (h : k ≠ p) : (modPort s p f).port k = s.port k := by
  simp [State.port, h]
@[simp] theorem pwrDie_modPwr_self (s : State) (d : Nat) (f : PwrDie → PwrDie) : (modPwr s d f).pwrDie d = f (s.pwrDie d) := by
  simp [State.pwrDie, modPwr]
theorem pwrDie_modPwr_ne (s : State) {d k : Nat} (f : PwrDie → PwrDie) (h : k ≠ d) : (modPwr s d f).pwrDie k = s.pwrDie k := by
  simp [State.pwrDie, modPwr, h]
@[simp] theorem site_modSite_self (s : State) (g : Nat) (f : ColSite → ColSite) : (modSite s g f).site g = f (s.site g) := by
  simp [State.site]
theorem site_modSite_ne (s : State) {g k : Nat} (f : ColSite → ColSite) (h : k ≠ g) : (modSite s g f).site k = s.site k := by
  simp [State.site, h]
@[simp] theorem arb_modArb_self (s : State) (d a : Nat) (f : Arbiter → Arbiter) : (modArb s d a f).arb d a = f (s.arb d a) := by
  simp [State.arb]
@[simp] theorem rmod_modRmod_self (s : State) (d m : Nat) (f : RidgeModule → RidgeModule) :
    (modRmod s (ridgeKey d m) f).rmod d m = f (s.rmod d m) := by simp [State.rmod, modRmod]

end Sys2Proof.Machine
end

