-- ==== Sys2Proof/Laws/Stores.lean ====
section
/-! SUPPORT. The operations that change memory, each with what it does to it: every one keeps the canonical form, and those
that store a line change that line alone. -/

namespace Sys2Proof.Machine
open Host (Cell)

/-- Marking a line poisoned, or clean, leaves every byte as it is. -/
@[simp] theorem setPoison_mem (s : State) (ln : Nat) (p : Bool) : (setPoison s ln p).mem = s.mem := by
  unfold setPoison
  repeat' split
  all_goals rfl

/-- A store of a line: nothing where the line's memory is retired, and otherwise its 64 bytes. -/
theorem storeLine_mem (s : State) (ln : Nat) (d : Line) (p : Bool) :
    (storeLine s ln d p).mem = if lineRetired s ln then s.mem else memWrite s.mem (ln * 64) (lineBytes d) := by
  unfold storeLine
  split
  · rfl
  · exact setPoison_mem _ _ _

theorem memWf_storeLine (s : State) (ln : Nat) (d : Line) (p : Bool) (h : memWf s.mem = true) :
    memWf (storeLine s ln d p).mem = true := by
  rw [storeLine_mem]
  split
  · exact h
  · exact memWf_memWrite _ _ _ h

/-- A list of operations that each keep the canonical form keeps it. -/
theorem memWf_foldl {α : Type} (f : State → α → State) (hf : ∀ s a, memWf s.mem = true → memWf (f s a).mem = true) :
    ∀ (l : List α) (s : State), memWf s.mem = true → memWf (l.foldl f s).mem = true
  | [], _, h => h
  | a :: l, s, h => memWf_foldl f hf l (f s a) (hf s a h)

/-- A list of operations that each leave memory alone leaves it alone. -/
theorem mem_foldl {α : Type} (f : State → α → State) (hf : ∀ s a, (f s a).mem = s.mem) :
    ∀ (l : List α) (s : State), (l.foldl f s).mem = s.mem
  | [], _ => rfl
  | a :: l, s => (mem_foldl f hf l (f s a)).trans (hf s a)

/-- A journal record is written to the journal and to its mirror. -/
theorem memWf_journalPut (s : State) (r : JRec) (h : memWf s.mem = true) : memWf (journalPut s r).mem = true := by
  unfold journalPut
  exact memWf_memWrite _ _ _ (memWf_memWrite _ _ _ h)

/-- The zeroing of extents removes bytes and adds none. -/
theorem memWf_zeroExtents (s : State) (first last : Nat) (h : memWf s.mem = true) :
    memWf (zeroExtents s first last).mem = true := memWf_filter _ _ h

/-- Bytes put one at a time. -/
theorem memWf_memSets {α : Type} (k : α → Nat) (v : α → Byte) :
    ∀ (l : List α) (m : List Cell), memWf m = true → memWf (l.foldl (fun m c => memSet m (k c) (v c)) m) = true
  | [], _, h => h
  | c :: l, m, h => memWf_memSets k v l _ (memWf_memSet m (k c) (v c) h)

theorem memWf_extCopy (s : State) (src dst : Nat) (h : memWf s.mem = true) : memWf (extCopy s src dst).mem = true := by
  unfold extCopy
  simp only
  rw [mem_foldl _ (fun s ln => setPoison_mem s _ true)]
  exact memWf_memSets (fun c => c.1 - extBase src + extBase dst) Prod.snd _ _ (memWf_zeroExtents s dst dst h)

theorem memWf_extLoad (s : State) (img : FlashImage) (dst : Nat) (h : memWf s.mem = true) :
    memWf (extLoad s img dst).mem = true :=
  memWf_foldl _ (fun s l hs => memWf_storeLine s _ l.2 false hs) _ _ (memWf_zeroExtents s dst dst h)

/-- A claim is put into the copy of its table on each memory die in service. -/
theorem memWf_putClaim (s : State) (e : Nat) (w : W32) (h : memWf s.mem = true) : memWf (putClaim s e w).mem = true := by
  have hw := memWf_foldl (fun (s : State) md => if dieUp s (5 + md) then
    { s with mem := memWrite s.mem (fld s (5 + md) R.MEM_CLAIM_BASE_BASE * 2 ^ 24 + 4 * e) (leBytes 4 w.toNat) } else s)
    (by
      intro s md hs
      split
      · exact memWf_memWrite _ _ _ hs
      · exact hs) (List.range 6) s h
  unfold putClaim
  simp only
  split
  · exact hw
  · exact hw

end Sys2Proof.Machine
end

