-- ==== Sys2Proof/WellFormed.lean ====
section
/-! DEFINITION. Which commands are well formed: a lane command carries a word of its class (R86), and numbers and lengths
lie in the ranges that the manual gives them. The meanings are total and do not rest on it. -/

namespace Sys2Proof

/-- The word that a lane command carries, with the major opcode of its class (R86, R114). -/
def Instr.laneWord : Instr → Option (Nat × W64)
  | .intReg _ _ w => some (0x01, w)
  | .intImm _ _ w => some (0x02, w)
  | .fpReg _ _ w => some (0x08, w)
  | .fpImm _ _ w => some (0x09, w)
  | .specialFunction _ _ w => some (0x0C, w)
  | .cvt _ _ w => some (0x10, w)
  | .ldG _ _ w => some (0x18, w)
  | .stG _ _ w => some (0x19, w)
  | .ldL _ _ w => some (0x1A, w)
  | .stL _ _ w => some (0x1B, w)
  | .atG _ _ w => some (0x1C, w)
  | .atL _ _ w => some (0x1D, w)
  | .haulLane _ _ w => some (0x20, w)
  | .haulBulk _ _ w => some (0x21, w)
  | .arriveGet _ _ w => some (0x22, w)
  | .arriveWait _ _ w => some (0x23, w)
  | .barSync _ _ w => some (0x28, w)
  | .barArrive _ _ w => some (0x29, w)
  | .fenceS _ _ w => some (0x2A, w)
  | .br _ _ w => some (0x30, w)
  | .brC _ _ w _ => some (0x31, w)
  | .exit _ _ w => some (0x32, w)
  | .nop _ _ w => some (0x33, w)
  | .movSp _ _ w => some (0x38, w)
  | .laneShfl _ _ w => some (0x39, w)
  | .laneVote _ _ w => some (0x3A, w)
  | .cmInvL1 _ _ w | .cmInvL1All _ _ w | .cmClean _ _ w | .cmFlush _ _ w | .cmZero _ _ w | .cmPfL2 _ _ w => some (0x3C, w)
  | .mxOpen _ _ w => some (0x40, w)
  | .mxClose _ _ w => some (0x41, w)
  | .mxLdw _ _ w => some (0x42, w)
  | .mxLdacc _ _ w => some (0x43, w)
  | .mxMma _ _ w => some (0x44, w)
  | .mxDrain _ _ w => some (0x45, w)
  | .mxWait _ _ w => some (0x46, w)
  | _ => none

/-- The line number that a command carries: physical addresses have 52 bits (R265). -/
def Instr.lineNumber : Instr → Option Nat
  | .homeReadShared _ _ _ ln | .homeReadUnique _ _ _ ln | .homeUpgrade _ _ _ ln | .homeZero _ _ _ ln
  | .homeClean _ _ _ ln | .homeFlush _ _ _ ln | .homeRdonce _ _ _ ln => some ln
  | .homeWrline _ _ _ ln _ | .homeWrpart _ _ _ ln _ _ => some ln
  | .homeWb _ _ ln _ _ | .homeOffer _ _ ln _ _ => some ln
  | .homeQueuedRequestStart _ ln | .homeReplyReceive _ _ ln _ => some ln
  | .fwdShared _ ln _ | .fwdUnique _ ln _ | .fwdOnce _ ln _ | .recall _ ln | .inval _ ln => some ln
  | .dataGrantReceive _ ln _ _ _ | .writebackAckReceive _ ln _ => some ln
  | .hbmAccess _ ln _ _ _ _ | .boardAccess ln _ _ _ => some ln
  | _ => none

/-- The source of a coherence request: a caching agent (R236), or a unit of a die. -/
def Instr.source : Instr → Option Nat
  | .homeReadShared _ a _ _ | .homeReadUnique _ a _ _ | .homeUpgrade _ a _ _ | .homeZero _ a _ _
  | .homeClean _ a _ _ | .homeFlush _ a _ _ | .homeRdonce _ a _ _ => some a
  | .homeWrline _ a _ _ _ | .homeWrpart _ a _ _ _ _ => some a
  | .fwdShared _ _ a | .fwdUnique _ _ a | .fwdOnce _ _ a => some a
  | _ => none

/-- Data beside the length that its header gives (R331, R378). -/
def Instr.dataLength : Instr → Option (Nat × Nat)
  | .kslWr _ h d => some (d.length, h.lenm1.toNat + 1)
  | .kftDataWrite h d | .kftReadResponse h d | .kftCollData h d _ => some (d.length, h.len.toNat)
  | _ => none

/-- A register access that R8 allows: a register's width, aligned to it. -/
def accessOk (off width : Nat) : Bool := (width == 32 || width == 64) && off % (width / 8) == 0

/-- Is a command well formed? -/
def Instr.wf (i : Instr) : Bool :=
  (match i.laneWord with | some (op, w) => (w >>> 56).toNat == op | none => true)
  && (match i.lineNumber with | some ln => decide (ln < 2 ^ 46) | none => true)
  && (match i.source with | some a => decide (a < 64 + 64 * 32) | none => true)
  && (match i.dataLength with | some (n, m) => n == m | none => true)
  && (match i with
    | .registerWrite _ off width _ _ _ => accessOk off.toNat width
    | .colInboundRequest _ _ off width _ => accessOk off.toNat width
    | .l1FillReturn _ blk _ _ => decide (blk < 2 ^ 44)
    | .arbGrant _ a | .lockWatchdogExpiry _ a => decide (a < 193)
    | .railTelemetrySample _ m e => decide (m < 65536 ∧ e < 65536)
    | .tjSample _ l => !l.isEmpty
    | .siteSurvey r => decide (r.ksl.length ≤ 2)
    | _ => true)

end Sys2Proof
end

