-- ==== Sys2Proof/Tests/Slice0.lean ====
section
/-! SUPPORT. Tests: ill-formed commands, a few results that the manual states, and for every statement states and operands
that meet its hypotheses. -/

open Sys2Proof Sys2Proof.Machine

namespace Sys2Proof.Tests

-- One theorem at a time: each of them makes the kernel evaluate the model, and all at once need too much memory.
set_option Elab.async false

/-- Every die in service, with every unit of dies 0 to 16 and every array of die 16. -/
def up : State :=
  let s := setFld State.reset 0 R.HUB_DIE_MAP_IN_SERVICE 0xFFFFFFFF
  let s := setFld s 16 R.TNS_ARRAY_MAP_IN_SERVICE 0xFFFFFFFF
  (List.range 17).foldl (fun s d => setFld s d R.UNIT_MAP_IN_SERVICE (2 ^ 64 - 1)) s

/-! ## Ill-formed commands, one for each check -/

theorem wf_refuses_word_of_another_class : (Instr.intReg 0 0 0x0200000000000000).wf = false := by decide +kernel
theorem wf_refuses_line_beyond_the_address_space : (Instr.recall 0 (2 ^ 46)).wf = false := by decide +kernel
theorem wf_refuses_source_that_no_die_has : (Instr.homeClean 0 (64 + 64 * 32) 0 0).wf = false := by decide +kernel
theorem wf_refuses_data_that_differs_from_its_length :
    (Instr.kslWr 0 ⟨2, false, 0, 3, 0, 0, 0, 0⟩ [0, 0, 0]).wf = false := by decide +kernel
theorem wf_refuses_misaligned_register_write : (Instr.registerWrite 0 2 32 0 0 0).wf = false := by decide +kernel
theorem wf_refuses_register_write_of_no_width : (Instr.registerWrite 0 0 16 0 0 0).wf = false := by decide +kernel
theorem wf_refuses_inbound_request_of_no_width : (Instr.colInboundRequest 0 0 0 8 none).wf = false := by decide +kernel
theorem wf_refuses_l1_block_beyond_the_address_space : (Instr.l1FillReturn 0 (2 ^ 44) 0 0).wf = false := by decide +kernel
theorem wf_refuses_arbiter_that_no_die_has : (Instr.arbGrant 0 193).wf = false := by decide +kernel
theorem wf_refuses_measurement_beyond_its_field : (Instr.railTelemetrySample 0 65536 0).wf = false := by decide +kernel
theorem wf_refuses_temperature_sample_of_no_sensor : (Instr.tjSample 0 []).wf = false := by decide +kernel
theorem wf_refuses_survey_of_three_ksl_ports :
    (Instr.siteSurvey ⟨true, true, 0, [], 0, 0, [(0, 0, 0), (0, 0, 0), (0, 0, 0)], []⟩).wf = false := by decide +kernel
theorem wf_accepts_int_add : (Instr.intReg 0 0 0x0100020001007000).wf = true := by decide +kernel

/-! ## A few results that the manual states -/

/-- R13: a difference of exactly 2^31 is not yet reached. -/
theorem test_r13_boundary : seqReached 0 0x7FFFFFFF = true ∧ seqReached 0 0x80000000 = false ∧ seqReached 5 5 = true := by
  decide +kernel
/-- R449 and R434: groups 38 and 39 hold the tier movers and stretch no clock. -/
theorem test_droop_of_movers : (stretches 38, stretches 39, groupDie 38) = (false, false, 13) := by decide +kernel
/-- R432: after reset the cap is 3,000 W. -/
theorem test_reset_cap : effCap State.reset = 3000 := by decide +kernel
/-- R15, R403: die 0 has 4 modules to each of dies 5 and 10, one to each of 11 and 12, two to 13, one to each of 14, 15. -/
theorem test_hub_modules : (ridgeLocals 0).length = 14 := by decide +kernel

/-! ## Lane instructions -/

/-- A group of 16 lanes, 8 registers. -/
def grp : Group := { blk := 0, idx := 0, nregs := 8, active := 0xFFFF }
/-- Its block: one counter, 64 KiB of local memory. -/
def blk : Block := { kid := 1, num := 0, ctx := 1, ctrs := 1, grans := 1 }
/-- A module with one Spur, holding that group in slot 0. -/
def spur1 (p : Spur) : State := { up with spurs := [(0, p)] }
/-- See `spur1`. -/
def lane1 (g : Group) : State := spur1 { groups := [(0, g)], blocks := [(0, blk)] }

theorem issues_of {s : State} {sp sl : Nat} {regs : List Nat} {g : Group}
    (h : issuable s sp sl regs = some g ∧ regsOk g regs = true ∧ (s.spur sp).mx.arrayHit = false) : Issues s sp sl regs g :=
  ⟨h.1, h.2.1, h.2.2⟩

theorem ready_group : ∀ regs ∈ ([[], [0, 1, 2], [0, 1], [0, 2], [2], [1], [0, 1, 3, 2], [255]] : List (List Nat)),
    Issues (lane1 grp) 0 0 regs grp := by
  intro regs h
  apply issues_of
  revert regs h
  decide +kernel

/-- `int.max`, `int.sel`, `int.setp`, and an immediate with FUNC[4] set, on `lane1 grp` (see `ready_group`). -/
theorem witness_integer_instructions :
    (let w : W64 := 0x010B020001007100; let a := fmtA w
      opOf w = 0x01 ∧ a.scope = 0 ∧ a.func = 11 ∧ a.typ = 1 ∧ a.md = 0 ∧ [a.va, a.vb, a.vd] = [0, 1, 2]) ∧
    (let w : W64 := 0x010C020001007000; let a := fmtA w
      opOf w = 0x01 ∧ a.scope = 0 ∧ a.func = 12 ∧ a.typ < 2 ∧ a.md = 0 ∧ [a.va, a.vb, a.vd] = [0, 1, 2]) ∧
    (let w : W64 := 0x010D020001007005; let a := fmtA w
      opOf w = 0x01 ∧ a.scope = 0 ∧ a.func = 13 ∧ a.typ < 2 ∧ a.md = 5 ∧ [a.va, a.vb] = [0, 1]) ∧
    (let w : W64 := 0x021B020000000005; let i := fmtI w
      opOf w = 0x02 ∧ i.zero = 0 ∧ i.func % 16 = 11 ∧ [i.va, i.vd] = [0, 2]) := by decide +kernel

theorem witness_floating_point_instructions :
    (let w : W64 := 0x0800020001037000; let a := fmtA w
      opOf w = 0x08 ∧ a.scope = 0 ∧ a.func = 0 ∧ a.typ < 3 ∧ a.md = 0 ∧ [a.va, a.vb, a.vc, a.vd] = [0, 1, 3, 2]) ∧
    (let w : W64 := 0x0804020001007200; let a := fmtA w
      opOf w = 0x08 ∧ a.scope = 0 ∧ a.func = 4 ∧ a.typ = 2 ∧ a.md = 0 ∧ [a.va, a.vb, a.vd] = [0, 1, 2]) ∧
    (let w : W64 := 0x0805020001007007; let a := fmtA w
      opOf w = 0x08 ∧ a.scope = 0 ∧ a.func = 5 ∧ a.typ = 0 ∧ a.md = 7 ∧ [a.va, a.vb] = [0, 1]) ∧
    (let w : W64 := 0x090402003F800000; let i := fmtI w
      opOf w = 0x09 ∧ i.zero = 0 ∧ i.func = 4 ∧ [i.va, i.vd] = [0, 2]) ∧
    (let w : W64 := 0x0C07020000007000; let a := fmtA w
      opOf w = 0x0C ∧ a.scope = 0 ∧ a.func = 7 ∧ a.typ = 0 ∧ a.md = 0 ∧ [a.va, a.vd] = [0, 2]) ∧
    (let w : W64 := 0x1002020000007000; let a := fmtA w
      opOf w = 0x10 ∧ a.scope = 0 ∧ a.md % 8 < 4 ∧ a.md < 16 ∧ (cvtOp a.typ a.func a.md 0).isSome ∧
        [a.va, a.vd] = [0, 2]) := by decide +kernel

theorem witness_lane_exchange_instructions : blockAt (lane1 grp) 0 0 = some blk ∧ grp.width ≠ 64 ∧
    (let w : W64 := 0x3800021000007000; let a := fmtA w
      opOf w = 0x38 ∧ a.scope = 0 ∧ a.typ = 0 ∧ a.md = 0 ∧ a.func = 0 ∧ a.vb = 0 ∧ a.vc = 0 ∧ a.va = 0x10 ∧ a.vd = 2) ∧
    (let w : W64 := 0x3900020001007000; let a := fmtA w
      opOf w = 0x39 ∧ a.scope = 0 ∧ a.typ = 0 ∧ a.md = 0 ∧ a.func = 0 ∧ a.vc = 0 ∧ [a.va, a.vb, a.vd] = [0, 1, 2]) ∧
    (let w : W64 := 0x3A01020700007000; let a := fmtA w
      opOf w = 0x3A ∧ a.scope = 0 ∧ a.typ = 0 ∧ a.md = 0 ∧ a.func = 1 ∧ a.vb = 0 ∧ a.vc = 0 ∧ a.va = 7 ∧ a.vd = 2) ∧
    (let w : W64 := 0x3A00020700007000; let a := fmtA w
      opOf w = 0x3A ∧ a.scope = 0 ∧ a.typ = 0 ∧ a.md = 0 ∧ a.func = 0 ∧ a.vb = 0 ∧ a.vc = 0 ∧ a.va = 7 ∧ a.vd = 2) ∧
    (let w : W64 := 0x3300000000007000; let j := fmtJ w
      opOf w = 0x33 ∧ j.res0 = 0 ∧ j.ofs = 0) := by decide +kernel

/-- A group whose lane 0 alone has p0 set; with a full stack. -/
def grpP : Group := { grp with preds := [(0, 1)] }
/-- See `grpP`. -/
def grpFull : Group := { grpP with stack := List.replicate 32 ⟨8, 0xFFFF, 1, 16, false⟩ }

theorem witness_branches :
    Issues (lane1 grpP) 0 0 [] grpP ∧ Issues (lane1 grpFull) 0 0 [] grpFull ∧ grpP.lanes ≠ [] ∧ grpP.active ≠ 0 ∧
    (let j := fmtJ 0x3000000000027000; j.res0 = 0 ∧ grpP.enabled j.pred j.pneg = grpP.lanes) ∧
    (let j := fmtJ 0x300000000002F000; j.res0 = 0 ∧ grpP.enabled j.pred j.pneg = []) ∧
    (let j := fmtJ 0x3100000000027000; j.res0 = 0 ∧ laneMask (grpP.enabled j.pred j.pneg) = grpP.active) ∧
    (let j := fmtJ 0x310000000002F000; j.res0 = 0 ∧ laneMask (grpP.enabled j.pred j.pneg) = 0) ∧
    (let j := fmtJ 0x3100000000020000; j.res0 = 0 ∧ laneMask (grpP.enabled j.pred j.pneg) = 1 ∧ grpP.stack.length < 32 ∧
      laneMask (grpFull.enabled j.pred j.pneg) = 1 ∧ grpFull.active ≠ 1 ∧ 32 ≤ grpFull.stack.length) ∧
    (let j := fmtJ 0x3200000000007000; opOf 0x3200000000007000 = 0x32 ∧ j.res0 = 0 ∧ j.ofs = 0) :=
  ⟨issues_of (by decide +kernel), issues_of (by decide +kernel), by decide +kernel⟩

theorem witness_reconvergence :
    (let e : JoinEntry := ⟨8, 3, 1, 16, false⟩; (0 : BitVec 64) = 0 ∧ e.onTaken = false ∧ e.taken ≠ 0 ∧ e.target ≠ e.join) ∧
    (let e : JoinEntry := ⟨8, 3, 1, 16, true⟩; e.full ≠ 0 ∧ e.onTaken = true ∧
      (∀ x ∈ ([⟨24, 3, 1, 16, true⟩] : List JoinEntry).head?, x.join ≠ e.join)) := by decide +kernel

/-- A group whose lane 0 holds `v` in v1. -/
def grpV (v : W32) : Group := { grp with regs := [(1, v)] }

theorem witness_counters_and_barriers :
    Issues (lane1 (grpV 1)) 0 0 [1] (grpV 1) ∧ Issues (lane1 (grpV 32)) 0 0 [1] (grpV 32) ∧
    Issues (lane1 (grpV 0)) 0 0 [1] (grpV 0) ∧
    (let w : W64 := 0x2200004000000000; opOf w = 0x22 ∧ badW w = false ∧ wf w 45 38 = 1 ∧ ctrIndex blk 0 (wf w 51 46) = some 0) ∧
    (let w : W64 := 0x2300004000000000; opOf w = 0x23 ∧ badW w = false ∧ wf w 45 38 = 1) ∧
    (((tget ((lane1 grp).spur 0).counters 0 {}).done - (grpV 1).rd ((grpV 1).lanes.headD 0) 1).toNat ≥ 2 ^ 31) ∧
    (((tget ((lane1 grp).spur 0).counters 0 {}).done - (grpV 0).rd ((grpV 0).lanes.headD 0) 1).toNat < 2 ^ 31) ∧
    (let w : W64 := 0x2800010000000000; opOf w = 0x28 ∧ wf w 55 52 = 0 ∧ wf w 39 0 = 0 ∧ wf w 47 40 = 1) ∧
    (let w : W64 := 0x2900010000000000; opOf w = 0x29 ∧ wf w 55 52 = 0 ∧ wf w 39 0 = 0 ∧ wf w 47 40 = 1) ∧
    settledAt ((lane1 (grpV 32)).spur 0) 0 1 = true ∧ tget blk.bars 0 0 + 16 < 32 ∧
    16 * liveGroups ((lane1 (grpV 0)).spur 0) 0 ≤ tget blk.bars 0 0 + 16 ∧
    (∀ e ∈ ((lane1 (grpV 32)).spur 0).groups, e.2.wait = none) :=
  ⟨issues_of (by decide +kernel), issues_of (by decide +kernel), issues_of (by decide +kernel), by decide +kernel⟩

theorem witness_stall_limit :
    let g : Group := { grp with wait := some (.arrive 0 1) }
    groupAt (lane1 g) 0 0 = some g ∧ g.wait = some (.arrive 0 1) ∧ blockAt (lane1 g) 0 0 = some blk ∧ blk.stall = 0 ∧
    (let s := setBlock (lane1 g) 0 0 { blk with stall := 1 };
      groupAt s 0 0 = some g ∧ blockAt s 0 0 = some { blk with stall := 1 }) := by decide +kernel

/-- A format M word: SCOPE, ORDER, SIZE, CACHE, VD, VA and the low 29 bits. -/
def wordM (op scope order size cache vd va low : Nat) : W64 :=
  BitVec.ofNat 64 (op * 2 ^ 56 + scope * 2 ^ 53 + order * 2 ^ 50 + size * 2 ^ 47 + cache * 2 ^ 45 + vd * 2 ^ 37 + va * 2 ^ 29 + low)
/-- A format T word under p7. -/
def wordT (op scope order aty aop vd va vb vc : Nat) : W64 :=
  BitVec.ofNat 64 (op * 2 ^ 56 + scope * 2 ^ 53 + order * 2 ^ 50 + aty * 2 ^ 47 + aop * 2 ^ 43 + vd * 2 ^ 35 + va * 2 ^ 27
    + vb * 2 ^ 19 + vc * 2 ^ 11 + 0x380)
/-- A format C word. -/
def wordC (op scope ctr size vg vl low : Nat) : W64 :=
  BitVec.ofNat 64 (op * 2 ^ 56 + scope * 2 ^ 53 + ctr * 2 ^ 46 + size * 2 ^ 44 + vg * 2 ^ 36 + vl * 2 ^ 28 + low)

/-- Context 1 maps every address to itself (one entry, a superpage with R, W, X, U, A and D), and may use the first 4 MiB. -/
def withCtx (s : State) : State := { s with
  mem := memWrite [] 4096 [0xDF]
  xlt := { ctxs := [(1, ⟨false, false, true, true, 9, 0, none, 1, 0⟩)]
           helpers := (List.range 6).map fun i => (i, { claims := [(0, 0x30000)] }) } }

/-- An access of the group of `grp` that its home has not answered: a load of v2 at 0x10000. -/
def openLoad : MemOp := { id := 0, gid := 0, slot := 0, blk := 0, pc := 0, ctx := 1, kind := .load 2, size := 4
                          lanes := [{ lane := 0, va := 0x10000, pa := 0x10000, typ := 1, st := .ready }] }

/-! ## Memory instructions of a Spur -/

/-- A lane load of v2 at v1 with acquire at block scope; a store of v2 with release. -/
theorem witness_local_accesses :
    (let m := fmtM (wordM 0x1A 1 1 2 0 2 1 0x7000); opOf (wordM 0x1A 1 1 2 0 2 1 0x7000) = 0x1A ∧ badM m [0, 1] false = false ∧
      m.va :: sizeRegs m.vd m.size = [1, 2] ∧ sizeBytes m.size = 4 ∧
      ∀ l ∈ grp.enabled m.pred m.pneg, (grp.rd l m.va + m.offset.setWidth 32).toNat = 0) ∧
    (let m := fmtM (wordM 0x1B 1 2 2 0 2 1 0x7000); opOf (wordM 0x1B 1 2 2 0 2 1 0x7000) = 0x1B ∧ badM m [0, 2] false = false ∧
      m.va :: sizeRegs m.vd m.size = [1, 2] ∧
      settledAt ((lane1 grp).spur 0) 0 (min (scopeExec (lane1 grp) blk.ctx (BitVec.ofNat 3 m.scope)).toNat 1) = true) ∧
    (0 + 4 ≤ blk.localSize) ∧ acquireHeld ((lane1 grp).spur 0) 0 = false ∧
    issuable (lane1 grp) 0 0 [1, 2] = some grp ∧ blockAt (lane1 grp) 0 0 = some blk ∧
    (let m := fmtM (wordM 0x1A 0 0 2 0 2 1 0x7000); m.order = 0 ∧ badM m [0, 1] false = false ∧ badM m [0, 2] false = false ∧
      (((grpV 1).enabled m.pred m.pneg).map fun l => ((grpV 1).rd l m.va + m.offset.setWidth 32).toNat).find?
        (fun a => a % 4 != 0) = some 1 ∧
      (∀ x ∈ ((grpV 65536).enabled m.pred m.pneg).map fun l => ((grpV 65536).rd l m.va + m.offset.setWidth 32).toNat,
        x % 4 = 0) ∧
      (((grpV 65536).enabled m.pred m.pneg).map fun l => ((grpV 65536).rd l m.va + m.offset.setWidth 32).toNat).find?
        (fun a => blk.localSize < a + 4) = some 65536) ∧
    (let t := fmtT (wordT 0x1D 0 0 0 0 2 1 3 0); opOf (wordT 0x1D 0 0 0 0 2 1 3 0) = 0x1D ∧ badT t false = false ∧
      regsT t 1 = [1, 2, 3] ∧ t.order < 2 ∧ grp.enabled t.pred t.pneg ≠ [] ∧
      (∀ l ∈ grp.enabled t.pred t.pneg, (grp.rd l t.va).toNat = 0)) ∧
    issuable (lane1 grp) 0 0 [1, 2, 3] = some grp := by decide +kernel

theorem witness_global_accesses :
    memHeld (lane1 grp) 0 0 grp = false ∧ (∀ l ∈ grp.lanes, grp.rd64 l 0 = 0) ∧ grp.enabled 7 false = grp.lanes ∧ grp.lanes ≠ [] ∧
    (let w := wordM 0x18 2 1 3 1 2 0 0x7000; let m := fmtM w; opOf w = 0x18 ∧ badM m [0, 1] true = false ∧
      m.pred = 7 ∧ m.pneg = false ∧ (0 + m.offset).toNat % sizeBytes m.size = 0 ∧
      issuable (lane1 grp) 0 0 (run m.va 2 ++ sizeRegs m.vd m.size) = some grp) ∧
    (let w := wordM 0x19 2 2 3 0 2 0 0x7000; let m := fmtM w; opOf w = 0x19 ∧ badM m [0, 2] true = false ∧
      m.pred = 7 ∧ m.pneg = false ∧ (0 + m.offset).toNat % sizeBytes m.size = 0 ∧
      issuable (lane1 grp) 0 0 (run m.va 2 ++ sizeRegs m.vd m.size) = some grp ∧
      settledAt ((lane1 grp).spur 0) 0 (scopeExec (lane1 grp) blk.ctx (BitVec.ofNat 3 m.scope)).toNat = true) ∧
    (let w := wordT 0x1C 2 3 2 7 2 0 4 6; let t := fmtT w; opOf w = 0x1C ∧ badT t true = false ∧ t.pred = 7 ∧ t.pneg = false ∧
      issuable (lane1 grp) 0 0 (regsT t 2) = some grp ∧ regsOk grp (regsT t 2) = true ∧
      settledAt ((lane1 grp).spur 0) 0 (scopeExec (lane1 grp) blk.ctx (BitVec.ofNat 3 t.scope)).toNat = true) ∧
    (∀ f ∈ [0, 2, 3, 4, 5], let w : W64 := BitVec.ofNat 64 (0x3C * 2 ^ 56 + f * 2 ^ 48 + 0x7000); let a := fmtA w
      opOf w = 0x3C ∧ a.func = f ∧ a.scope = 0 ∧ a.vd = 0 ∧ a.vb = 0 ∧ a.vc = 0 ∧ a.typ = 0 ∧ a.md = 0 ∧ a.va = 0 ∧
        a.pred = 7 ∧ a.pneg = false) ∧
    issuable (lane1 grp) 0 0 (run 0 2) = some grp := by decide +kernel

/-- `lane1 grp` with that access open, and a fence's word of each kind. -/
theorem witness_fences :
    let s := spur1 { groups := [(0, grp)], blocks := [(0, blk)], ops := [openLoad] }
    opOf 0x2A44000000000000 = 0x2A ∧ wf 0x2A44000000000000 55 53 = 2 ∧ wf 0x2A44000000000000 52 50 = 1 ∧
    wf 0x2A44000000000000 49 0 = 0 ∧ issuable s 0 0 [] = some grp ∧ issuable (lane1 grp) 0 0 [] = some grp ∧
    fenceReady (s.spur 0) 0 1 2 = false ∧ fenceReady ((lane1 grp).spur 0) 0 1 2 = true ∧
    scopeExec s blk.ctx 2 = 2 ∧ (∀ e ∈ (s.spur 0).groups, e.2.wait = none) := by decide +kernel

theorem witness_l1_fills_and_direct_loads :
    (let w : W64 := 0x3C01000000007000; let a := fmtA w
      opOf w = 0x3C ∧ a.func = 1 ∧ a.scope = 0 ∧ a.vd = 0 ∧ a.vb = 0 ∧ a.vc = 0 ∧ a.typ = 0 ∧ a.md = 0) ∧
    (let l : MemLane := { lane := 0, va := 0x10000, pa := 0x10000, st := .miss }
     let m : L1Miss := { blk := 0x100, ctx := 1, way := some 3, req := 1, waiters := [(0, 0)] }
     let s : State := { spur1 { groups := [(0, grp)], blocks := [(0, blk)], ops := [{ openLoad with lanes := [l] }]
                                l1miss := [m], l1 := [(3, { blk := 0x100, ctx := 1 })] } with
       coh := { lines := [(aKey (regionOf 0) 0x400, { st := .s, data := 7 })] } }
     (s.spur 0).l1miss = [m] ∧ m.req = BitVec.ofNat 4 (2 ^ (0 : Fin 4).val) ∧
       tget? (s.spur 0).l1 3 = some { blk := 0x100, ctx := 1 } ∧ (agentLine s (regionOf 0) (0x100 * 4 + 0)).isSome ∧
       (agentLine s (regionOf 0) (0x100 * 4 + 0)).map (·.poison) = some false ∧
       takeRefused s (regionOf 0) (0x100 * 4 + 0) = none ∧ l.pa / 64 = 0x100 * 4 ∧ groupAt s 0 0 = some grp ∧
       (∀ y ∈ (s.spur 0).groups, y.2.wait = none) ∧ (s.spur 0).teamBlock = none) ∧
    (let s := withCtx (spur1 { groups := [(0, grp)], blocks := [(0, blk)], ops := [openLoad] })
     isMem 0x10000 = true ∧ lineBlocked (s.spur 0) openLoad (0x10000 / 64) = false ∧ lineIdle s (0x10000 / 64) = true ∧
       (targetCheck s 0 1 0x10000 false).2 = true ∧
       (cohLine (targetCheck s 0 1 0x10000 false).1 (0x10000 / 64)).2 = false ∧ (s.spur 0).teamBlock = none) := by
  decide +kernel

theorem witness_hauls :
    (let s := lane1 grp
     let c := fmtC (wordC 0x20 1 0 2 0 2 0x7000)
     let w := wordC 0x20 1 0 2 0 2 0x7000
     opOf w = 0x20 ∧ blockAt s 0 0 = some blk ∧ ctrIndex blk 0 c.ctr = some 0 ∧ acquireHeld (s.spur 0) 0 = false ∧
       copyPlaces s 0 < 256 ∧ c.scope < 6 ∧ c.res0 = 0 ∧ c.vg = 0 ∧ c.size = 2 ∧ c.vl = 2 ∧
       issuable s 0 0 (run c.vg 2 ++ [c.vl]) = some grp ∧ grp.enabled c.pred c.pneg = grp.lanes ∧
       (∀ l ∈ grp.lanes, grp.rd64 l 0 = 0 ∧ grp.rd l 2 = 0)) ∧
    (let w := wordC 0x21 0 0 0 0 0 0x7000
     let c := fmtC w
     opOf w = 0x21 ∧ c.size = 0 ∧ c.vl = 0 ∧ c.res0 = 0 ∧ issuable (lane1 grp) 0 0 (run c.vg 5) = some grp ∧
       grp.lanes.head? = some 0 ∧ xor (grp.pred 0 c.pred) c.pneg = true ∧ bulkParts grp 0 c.vg = some [⟨0, 0, 16, 0, .xlt, [], false⟩]) ∧
    (let w := wordC 0x20 0 0 0 0 2 0
     let c := fmtC w
     opOf w = 0x20 ∧ c.res0 = 0 ∧ c.size < 3 ∧ grp.enabled c.pred c.pneg = []) ∧
    (let c : Counter := { issue := 2, fin := [2] }
     c.fin.length + 1 < 2 ^ 32 ∧ (2 : W32) ≠ c.done + 1 ∧ c.done + 1 ∉ c.fin) ∧
    (let p : CopyPart := ⟨0x10000, 0, 64, 0, .xlt, [], false⟩
     let j : CopyJob := ⟨0, 0, 0, 0, 0, 1, 0, 1, false, 0, [p], none⟩
     let s := withCtx (spur1 { groups := [(0, grp)], blocks := [(0, blk)], copies := [j] })
     (s.spur 0).copies.find? (fun c => c.id == j.id && c.row.isNone) = some j ∧ blockAt s 0 0 = some blk ∧
       p.va.toNat % 64 + p.len ≤ 64 ∧ xlate s 1 p.va false = .inl 0x10000 ∧ outside 0x10000 = false ∧
       isMem 0x10000 = true ∧ lineIdle s 0x400 = true ∧ (targetCheck s 0 1 0x10000 false).2 = true ∧
       (cohRead (targetCheck s 0 1 0x10000 false).1 0x10000 64).2 = false) := by decide +kernel


/-! ## Launches and the matrix unit -/

/-- Bits 8n + 7 to 8n of a body, n rising, from words of 8 bytes. -/
def body (n : Nat) (ws : List Nat) : List Byte := (ws.flatMap (leBytes 8)) ++ List.replicate (n - 8 * ws.length) 0
/-- A command of context 1 that has started; its record is acknowledged. -/
def started (kind : Nat) (b : List Byte) : Cmd :=
  { queue := 1, index := 0, stag := 0, kind := BitVec.ofNat 8 kind, tag := 0, prio := 0, ctx := 1, fence := false, body := b,
    st := .started, jseq := some 0 }
/-- `s` with that command, of number 0. -/
def withCmd (s : State) (c : Cmd) : State := { s with qs := { s.qs with cmds := [(0, c)] } }
/-- A descriptor: 2 x 1 x 1 blocks of 32 x 1 x 1 threads, 8 registers, one granule, on die 0 and every Spur. -/
def launchBody (timed : Nat) : List Byte :=
  body 96 [4096, 0, 0x1000100000002, 0x010800400801 + 31 + timed * 2 ^ 52, 0xFF0001, 0, 1000]
/-- A launch of it. -/
def aLaunch (timed : Nat) : State := withCmd (withCtx up) (started 2 (launchBody timed))
/-- The kernel that it makes. -/
def aKernel (timed : Nat) : Kernel := launchKernel (aLaunch timed) 0 (started 2 (launchBody timed))

theorem witness_launches :
    (∀ s ∈ [aLaunch 0, aLaunch 1, withCmd up (started 2 (launchBody 0))], runnable s 0 0x02 = s.cmd? 0) ∧
    (withCmd up (started 2 (launchBody 0))).ctx? 1 = none ∧ ((aLaunch 0).ctx? 1).isSome = true ∧
    (let s := withCmd (withCtx up) (started 2 (body 96 []))
     runnable s 0 0x02 = s.cmd? 0 ∧ launchOk (started 2 (body 96 [])) (launchKernel s 0 (started 2 (body 96 []))) = false) ∧
    launchOk (started 2 (launchBody 1)) (aKernel 1) = true ∧ (aKernel 1).timed = true ∧
    (aLaunch 1).time.toNat < (aKernel 1).startAt.toNat ∧
    launchOk (started 2 (launchBody 0)) (aKernel 0) = true ∧ (aKernel 0).timed = false ∧
    (∀ td ∈ (aKernel 0).dies, noSpur (aLaunch 0) (aKernel 0) td = false) ∧ (aKernel 0).dies = [0] := by decide +kernel

theorem witness_timed_launch_and_block_start :
    (let s := { aLaunch 1 with kernels := [(0, { aKernel 1 with left := [0] })] }
     let k := { aKernel 1 with left := [0] }
     tget? s.kernels 0 = some k ∧ k.timed = true ∧ k.startAt.toNat ≤ (setTime s 1000).time.toNat ∧ 0 ∈ k.dies ∧ k.stopped = false ∧
       0 ∈ k.left ∧ 0 ∉ (s.tdie 0).pend ∧ noSpur s k 0 = false ∧
       tget k.next 0 0 < shareCount k (k.dies.findIdx (· == 0)) k.dies.length) ∧
    (let k := { aKernel 0 with left := [0] }
     let s := { aLaunch 0 with kernels := [(0, k)], tdies := [(0, { pend := [0] })] }
     pendingOn s 0 = [k] ∧ pickSpur s k 0 = some 0 ∧ freeBlock (s.spur 0) = some 0 ∧ freeGrans (s.spur 0) k.grans = some 0) := by
  decide +kernel

/-- `lane1 g` with a matrix unit whose seat the group holds, after `f`. -/
def seated (g : Group) (f : MxUnit → MxUnit) : State :=
  spur1 { groups := [(0, g)], blocks := [(0, blk)], mx := f { seat := some 0, mask := 0xFFFF } }
/-- A queued load of accumulators. -/
def ldaccI : MxInstr := { id := 0, slot := 0, blk := 0, base := 0, op := .ldacc 1 1 0 0xB 0 512 }

theorem witness_matrix_seat :
    Issues (lane1 grp) 0 0 [] grp ∧ Issues (seated grp id) 0 0 [] grp ∧
    Issues (seated grp fun m => { m with queue := [ldaccI] }) 0 0 [] grp ∧
    (wf 0x4000000000000000 55 0 = 0 ∧ opOf 0x4000000000000000 = 0x40 ∧ opOf 0x4100000000000000 = 0x41 ∧
      wf 0x4100000000000000 55 0 = 0 ∧ opOf 0x4600000000000000 = 0x46 ∧ wf 0x4600000000000000 55 0 = 0 ∧
      hasSeat (lane1 grp) 0 0 = false ∧ grp.active = grp.live ∧ hasSeat (seated grp id) 0 0 = true ∧
      hasSeat (seated grp fun m => { m with queue := [ldaccI] }) 0 0 = true) ∧
    (let s := spur1 { groups := [(0, { grp with wait := some .mxOpen })], blocks := [(0, blk)], mx := { waiters := [0] } }
     (s.spur 0).mx.seat = none ∧ nextSeat (s.spur 0) = some 0 ∧ groupAt s 0 0 = some { grp with wait := some .mxOpen }) :=
  ⟨issues_of (by decide +kernel), issues_of (by decide +kernel), issues_of (by decide +kernel), by decide +kernel⟩

/-- A group whose lane 0 holds `v` from register 0 on. -/
def grpR (v : List W32) : Group := { grp with regs := v.zipIdx.map fun e => (e.2, e.1) }
/-- A word of the matrix unit that selects array 0. -/
def wordX (op low : Nat) : W64 := BitVec.ofNat 64 (op * 2 ^ 56 + 2 ^ 49 + low)

/-- The operands of a load of weights lie at a base of 0 with a stride of 128; one row for the others. -/
theorem witness_matrix_queue :
    (∀ j ∈ arraysOf 1, arrayUp (seated grp id) 0 j = true) ∧ blockAt (seated grp id) 0 0 = some blk ∧
    Issues (seated (grpR [0, 128, 0, 0]) id) 0 0 [0, 1, 2, 3] (grpR [0, 128, 0, 0]) ∧
    Issues (seated (grpR [0, 512]) id) 0 0 [0, 1] (grpR [0, 512]) ∧
    Issues (seated grp fun m => { m with issueBufs := [(0, some 0)] }) 0 0 [0, 1, 2] grp ∧
    Issues (seated grp id) 0 0 [0, 1, 2, 3, 4] grp ∧
    (let w := wordX 0x42 0
     let g := grpR [0, 128, 0, 0]
     opOf w = 0x42 ∧ wf w 55 53 = 0 ∧ amaskOf w = 1 ∧ wf w 36 0 = 0 ∧ wf w 48 45 = 0 ∧ wf w 44 37 = 0 ∧ mxRegs 0 4 = [0, 1, 2, 3] ∧
      badStride 128 (mxReg g 0 1) (rowBytes 0 128) = false ∧ badStride 1 (mxReg g 0 2) (rowBytes 0 128) = false ∧
      ∀ r ∈ (MxOp.ldw 1 0 (mxReg g 0 0) (mxReg g 0 1) (mxReg g 0 2) (mxReg g 0 3)).ranges, r.2.1 ≤ blk.localSize) ∧
    (let w := wordX 0x43 (0xB * 2 ^ 27)
     let g := grpR [0, 512]
     opOf w = 0x43 ∧ amaskOf w = 1 ∧ wf w 48 40 = 0 ∧ wf w 39 31 = 0 ∧ wf w 30 27 = 0xB ∧ wf w 26 19 = 0 ∧ wf w 18 0 = 0 ∧
      badStride 1 (mxReg g 0 1) 512 = false ∧
      ∀ r ∈ (MxOp.ldacc 1 1 0 0xB (mxReg g 0 0) (mxReg g 0 1)).ranges, r.2.1 ≤ blk.localSize) ∧
    (let w := wordX 0x44 0
     let s := seated grp fun m => { m with issueBufs := [(0, some 0)] }
     opOf w = 0x44 ∧ amaskOf w = 1 ∧ w.getLsbD 48 = false ∧ w.getLsbD 47 = false ∧ wf w 46 0 = 0 ∧ hasSeat s 0 0 = true ∧
      passTiles (s.spur 0).mx 1 false = [some 0] ∧ pairLegal 0 0 = true ∧
      kindsAll (s.spur 0).mx 1 0 1 (fun x => x == 0 || x == 1) = true ∧
      badStride 1 (mxReg grp 0 1) (rowBytes 0 128) = false ∧
      ∀ r ∈ (MxOp.mma 1 false false 0 128 1 0 0 0 0).ranges, r.2.1 ≤ blk.localSize) ∧
    (let w := wordX 0x45 (2 ^ 13)
     opOf w = 0x45 ∧ amaskOf w = 1 ∧ wf w 48 14 = 0 ∧ w.getLsbD 13 = true ∧ wf w 12 0 = 0 ∧
      (ctrIndex blk 0 0).isSome = true ∧ copyPlaces (seated grp id) 0 < 256 ∧ badStride 1 (mxReg grp 0 1) (rowBytes 0 128) = false ∧
      ∀ r ∈ (MxOp.drain 1 1 0 0 0 false false false false (some (0, 1)) 0 0 0 0 0).ranges, r.2.1 ≤ blk.localSize) :=
  ⟨by decide +kernel, by decide +kernel, issues_of (by decide +kernel), issues_of (by decide +kernel),
    issues_of (by decide +kernel), issues_of (by decide +kernel), by decide +kernel⟩

theorem witness_matrix_effects :
    (let p : Spur := { mx := { bufs := [(0, some ⟨0, [[1]], []⟩)] } }
     (0 : Nat) < 1 ∧ 0 ∈ arraysOf 1 ∧ (0 : Nat) < 128 ∧ tget p.mx.bufs 0 none = some ⟨0, [[1]], []⟩) ∧
    (let i : MxInstr := { ldaccI with op := .drain 1 1 0 0 0 false false false false (some (0, 1)) 0 0 0 0 0 }
     let s := seated grp fun m => { m with queue := [ldaccI, i] }
     let t := seated grp fun m => { m with queue := [i] }
     (mxRunning [] (s.spur 0).mx.queue).find? (fun x => x.id == 0) = some ldaccI ∧
       (mxRunning [] (t.spur 0).mx.queue).find? (fun x => x.id == 0) = some i ∧ mxClash (s.spur 0) ldaccI = false ∧
       mxClash (t.spur 0) i = false ∧ mxClash { s.spur 0 with lmem := [(5, 1)] } ldaccI = true) ∧
    (mxTouches ldaccI false 511 = true ∧ mxTouches ldaccI false 512 = false) := by decide +kernel

/-- The permission to climb needs a limit that exceeds every cost of a step. -/
theorem witness_ramps :
    (let s := seated grp fun m => { m with ramps := [(0, .up 3), (1, .full), (2, .down 8)] }
     tget (s.spur 0).mx.ramps 0 .off = .up 3 ∧ tget (s.spur 0).mx.ramps 1 .off = .full ∧ tget (s.spur 0).mx.ramps 2 .off = .down 8 ∧
       arrayBusy (s.spur 0).mx 0 = false ∧ arrayBusy (s.spur 0).mx 1 = false ∧
       rampAllowed (setFld s 16 R.PWR_STATUS_DROOP 1) 16 = false) ∧
    (let i : MxInstr := { ldaccI with op := .mma 1 false false 0 128 1 0 0 0 0 }
     arrayBusy ((seated grp fun m => { m with queue := [i], ramps := [(0, .up 3)] }).spur 0).mx 0 = true) := by decide +kernel

theorem witness_ramp_may_climb :
    rampAllowed (setFld (seated grp fun m => { m with ramps := [(0, .up 3)] }) 16 R.PWR_STATUS_LIMIT 65535) 16 = true := by
  have h : (Config.stepCost 0).toNat ≤ 65535 := by have := (Config.stepCost 0).isLt; omega
  have e : ∀ n, n ≤ 65535 → (0 + n ≤ (65535 : Nat)) = True := by simp
  have a : fld (setFld (seated grp fun m => { m with ramps := [(0, .up 3)] }) 16 R.PWR_STATUS_LIMIT 65535) 16 R.PWR_STATUS_LIMIT = 65535 := by
    decide +kernel
  have b : fld (setFld (seated grp fun m => { m with ramps := [(0, .up 3)] }) 16 R.PWR_STATUS_LIMIT 65535) 16 R.PWR_STATUS_PCTL = 0 := by
    decide +kernel
  have c : (fld (setFld (seated grp fun m => { m with ramps := [(0, .up 3)] }) 16 R.PWR_STATUS_LIMIT 65535) 16 R.PWR_STATUS_DROOP == 0 &&
    fld (setFld (seated grp fun m => { m with ramps := [(0, .up 3)] }) 16 R.PWR_STATUS_LIMIT 65535) 16 R.PWR_STATUS_THROTTLE == 0) = true := by
    decide +kernel
  rw [rampAllowed, a, b, c]
  simp; omega

/-! ## Roped teams and Couloir engines -/

/-- A residency on Spur 0, bound to queue 1, whose teams have one row. -/
def res0 : Residency :=
  { cid := 9, ctx := 1, queues := [(1, 0)], reserve := false, width := 16, regs := 8, groups := 1, fill := 1, cap := 0
    inflight := 1, stall := 0, schedule := [8], params := 0, spurs := [0], inBase := 0x2100, inStride := 16, inLen := 16
    outBase := 0x4000, outStride := 16, outLen := 16, outRank := 0, inOff := 0, inStep := 0, faultQueue := 0 }
/-- Context 1, with residency 5. -/
def withRes (r : Residency) (teams : Tbl Team) (cands : List Candidate) : State :=
  { withCtx up with former := { residencies := [(5, r)], teams := teams, cands := cands, nextTeam := 3 } }
/-- A TEAM_STEP of queue 1 that has been accepted. -/
def stepCmd (b : List Byte) : Cmd := { started 5 b with st := .accepted, acceptedAt := 100 }
/-- A candidate that step makes. -/
def cand0 : Candidate := ⟨0, 5, 1, 0, 100⟩
/-- A row, and a team of it that is out under sequence number 0. -/
def row0 : TeamRow := { cid := 0, queue := 1, cls := 0, inAddr := 0x10000, outAddr := 0x20000, seqPos := 0, tag := 0 }
/-- See `row0`. -/
def team0 : Team := { res := 5, rows := [row0], byDeadline := false, closeTime := 100, deadline := 100, seq := some 0 }

theorem witness_team_former :
    (let s := withCmd up (stepCmd (body 48 []))
     s.cmd? 0 = some (stepCmd (body 48 [])) ∧ fenceMet s 0 (stepCmd (body 48 [])) = true ∧ boundTo s 1 = none) ∧
    (let s := withCmd (withRes res0 [] []) (stepCmd (body 48 [1]))
     boundTo s 1 = some 5 ∧ tget? s.former.residencies 5 = some res0 ∧ stepOk (stepCmd (body 48 [1])) = false ∧
       fenceMet s 0 (stepCmd (body 48 [1])) = true) ∧
    (let r := { res0 with suspended := true }
     let s := withCmd (withRes r [] []) (stepCmd (body 48 []))
     boundTo s 1 = some 5 ∧ tget? s.former.residencies 5 = some r ∧ stepOk (stepCmd (body 48 [])) = true) ∧
    (let s := withCmd (withRes res0 [] []) (stepCmd (body 48 []))
     boundTo s 1 = some 5 ∧ res0.suspended = false ∧ s.cmd? 0 = some (stepCmd (body 48 []))) ∧
    (let s := withCmd (withRes res0 [] [cand0]) (stepCmd (body 48 []))
     (5 : BitVec 8).toNat = 5 ∧ res0.fill ≤ (eligible res0 (s.former.cands.filter fun x => x.res == 5)).length) ∧
    (let r := { res0 with fill := 2 }
     let s := withCmd (withRes r [] [cand0]) (stepCmd (body 48 []))
     (eligible r (s.former.cands.filter fun x => x.res == 5)).length < r.fill ∧
       ∀ x ∈ s.former.cands, (setTime s 0).time < x.deadline) ∧
    (let x := { team0 with seq := none }
     let r := { res0 with closed := [2] }
     let s := withRes r [(2, x)] []
     tget? s.former.teams 2 = some x ∧ tget? s.former.residencies x.res = some r ∧ inFlight s 5 < r.inflight) := by
  decide +kernel

/-- A block of team 2 in slot 0 of Spur 0, staged or not; its copy of launch unit for row 0. -/
def teamBlk (idle : Bool) : Block :=
  { kid := 5, team := some 2, num := 0, ctx := 1, gran0 := 120, grans := 8, ctrs := 4, idle := idle }
/-- See `teamBlk`. -/
def stageJob : CopyJob := ⟨0, 0, 0, 0, 0, 1, 0, 0, false, 4, [{ va := 0x10000, la := 0x2100, len := 16 }], some 0⟩

theorem witness_team_blocks :
    (let s := { withRes res0 [(2, team0)] [] with net := [.dispatch 0 0 2] }
     (s.tdie 0).early = [] ∧ (s.tdie 0).expect = 0 ∧ s.net.find? (fun m => match m with
       | .dispatch d q _ => d == 0 && q == 0 | _ => false) = some (.dispatch 0 0 2)) ∧
    (let s := { withRes res0 [(2, team0)] [] with net := [.dispatch 0 7 2] }
     (7 : W32) ≠ (s.tdie 0).expect ∧ s.net.find? (fun m => match m with
       | .dispatch d q _ => d == 0 && q == 7 | _ => false) = some (.dispatch 0 7 2)) ∧
    (let s := { withRes res0 [(2, team0)] [] with tdies := [(0, { teams := [2] })] }
     teamTurn s 0 = some 2 ∧ ((s.spur 0).holds.any fun h => h.res == 5) = false ∧ teamFits (s.spur 0) res0 = true ∧
       freeBlock (s.spur 0) = some 0) ∧
    (let s := { withRes res0 [(2, { team0 with started := [0] })] [] with
       spurs := [(0, { blocks := [(0, teamBlk false)], copies := [stageJob] })] }
     (s.spur 0).teamBlock = some (0, teamBlk false) ∧ slotsOf (s.spur 0) 0 = [] ∧
       (s.spur 0).copies.filter (fun j => j.row.isSome) = [stageJob] ∧ ∃ u, stageRow s 0 stageJob = some (u, none)) ∧
    (let s := { withRes res0 [(2, team0)] [] with net := [.entryDone 0 3 2 0] }
     s.net.find? (fun m => match m with | .entryDone a b c _ => a == 0 && b == 3 && c == 2 | _ => false)
       = some (.entryDone 0 3 2 0)) := by
  refine ⟨by decide +kernel, by decide +kernel, by decide +kernel, ?_, by decide +kernel⟩
  refine ⟨by decide +kernel, by decide +kernel, by decide +kernel, ?_⟩
  have h : ∀ o : Option (State × Option Byte), (o.map Prod.snd == some none) = true → ∃ u, o = some (u, none) := by
    rintro (_ | ⟨u, v⟩) h
    · simp at h
    · simp at h; exact ⟨u, by rw [h]⟩
  exact h _ (by decide +kernel)

/-- TEAM_REGISTER of residency 5 with one member and one Spur, its member list at 0x11000 and its schedule at 0x10000;
`rsv`: RESERVE. -/
def registerBody (rsv : Nat) : List Byte :=
  body 96 [5 + rsv * 2 ^ 8 + 8 * 2 ^ 11 + 2 ^ 19 + 2 ^ 25, 0x10000, 0, 0x11000, 1 + 2 ^ 16 + 2 ^ 32,
    0x2100 + 16 * 2 ^ 19 + 16 * 2 ^ 38, 0x4000 + 16 * 2 ^ 19 + 16 * 2 ^ 38, 0]
/-- A state with it, the lists in memory (the schedule's one entry is last), and queue 1 of kind `k`. -/
def registering (rsv k : Nat) : State :=
  let s := withCmd (withCtx up) (started 3 (registerBody rsv))
  { s with
    mem := memWrite (memWrite s.mem 0x11000 [1]) 0x10008 [1]
    qs := { s.qs with q := [(1, { state := 1, kind := k, ctx := 1 })] } }
/-- What the reads of the lists give. -/
def lists (s : State) : Option (Option Byte) :=
  match virtBytes s 1 0x11000 4 with
  | some (u, .inl mb) => match scheduleBytes u 1 0x10000 256 with
    | some (v, .inl sb) => match memberList 1 mb, scheduleList (sb.length / 16) sb with
      | some ms, some _ => some (membersBad v 1 ms)
      | _, _ => none
    | _ => none
  | _ => none

theorem witness_team_register :
    (let c := started 3 (registerBody 1)
     let s := registering 1 0
     runnable s 0 0x03 = some c ∧ isPanyx s 1 = false ∧ residencyOk s c (residencyOf 0 c) = true ∧ bodyBits c 0 7 0 = 5 ∧
       tget? s.former.residencies 5 = none ∧ bodyBits c 0x18 63 0 = 0x11000 ∧ bodyBits c 0x20 9 0 = 1 ∧
       bodyBits c 8 63 0 = 0x10000 ∧ lists s = some none) ∧
    lists (registering 0 0) = some none ∧ (residencyOf 0 (started 3 (registerBody 0))).reserve = false ∧
    lists (registering 0 1) = some (some 0x0F) := by decide +kernel

theorem witness_teams_scatter_and_release :
    (let r := { res0 with pending := true }
     let s := withRes r [] []
     tget? s.former.residencies (5 : BitVec 8).toNat = some r ∧ 0 ∈ r.spurs ∧
       ((s.spur 0).holds.any fun h => h.res == 5) = false ∧ teamFits (s.spur 0) r = true) ∧
    (let x := { team0 with dieEntry := [(0, 1)] }
     let s := { withRes res0 [(2, x)] [] with spurs := [(0, { blocks := [(0, teamBlk true)] })] }
     tget? s.former.teams 2 = some x ∧ lastDone s 2 x res0 = true ∧
       (s.spur (res0.spurs.getD res0.outRank 0)).teamBlock = some (0, teamBlk true)) ∧
    (let x := { team0 with rows := [row0, row0], scattering := true }
     let s := withCmd (withRes res0 [(2, x)] []) (started 5 (body 48 []))
     tget? s.former.teams 2 = some x ∧ x.rows[x.posted]? = some row0 ∧
       (s.spur (res0.spurs.getD res0.outRank 0)).copies.find? (fun j => j.row == some x.posted && j.toGlobal) = none ∧
       s.cmd? row0.cid = some (started 5 (body 48 [])) ∧ x.posted + 1 < x.rows.length) ∧
    (let c := started 4 (body 48 [5])
     let r := { res0 with closed := [1] }
     let s := withCmd (withRes r [(1, { team0 with seq := none })] [cand0]) c
     runnable s 0 0x04 = some c ∧ bodyBits c 0 63 8 = 0 ∧ (∀ x ∈ c.body.drop 8, x = 0) ∧ bodyBits c 0 7 0 = 5 ∧
       tget? s.former.residencies 5 = some r ∧ inFlight s 5 = 0) := by decide +kernel

/-- A Couloir command for memory die 0 with 32-bit fields as R178 lists them: BF16-like format 9, 64 dimensions, one block;
the query at 0, the result at 4096. -/
def clLine (ver : Nat) : Line :=
  BitVec.ofNat 512 (ver + 5 * 2 ^ 8 + 2 ^ 20 + 9 * 2 ^ 23 + 2 ^ 160 + 4096 * 2 ^ 344)
/-- Its parts 0 to 2 in the assembly buffer of slot 0. -/
def clBuf (c : Line) : ClBuf :=
  { parts := [(0, BitVec.ofNat 128 c.toNat), (1, BitVec.ofNat 128 (c.toNat / 2 ^ 128)), (2, BitVec.ofNat 128 (c.toNat / 2 ^ 256))] }
/-- The last part. -/
def clLast (c : Line) : BitVec 128 := BitVec.ofNat 128 (c.toNat / 2 ^ 384)
/-- A group with that buffer. -/
def clSpur (b : ClBuf) (g : Group) : State :=
  setFld (spur1 { groups := [(0, g)], blocks := [(0, blk)], clBufs := [(0, b)] }) 5 R.MEM_CL_MAP_IN_SERVICE 0xFFFF
/-- A command on its way to memory die 0, or in phase `p`. -/
def clCmd (p : ClPhase) (nblk : Nat) : ClCmd :=
  { sp := 0, blk := 0, ctx := 1, ctr := 0, num := 1, md := 0, prio := 0, heads := 1, dim := 64, fmt := 9, btable := 0x10000
    basePos := 0, nblk := nblk, lo0 := 0, hi0 := 1, lo1 := 0, hi1 := 0, raddr := 4096, scale := 0, tag := 0, phase := p }
/-- A module with that command. -/
def withCl (c : ClCmd) : State :=
  let s := setFld (lane1 grp) 5 R.MEM_CL_MAP_IN_SERVICE 0xFFFF
  { withCtx s with cl := { cmds := [(7, c)], next := 8 } }

/-- The same, with a stretch of 1 GiB on memory die 0, whose first page the block table at 0x10000 names. -/
def withPage (c : ClCmd) : State :=
  let s := setFld (withCl c) 5 R.MEM_HBM_LAYOUT_STRETCH_GIB 1
  { s with
    mem := memWrite s.mem 0x10000 (leBytes 8 (2 ^ 63 + 3066 * 65536) ++ leBytes 8 (3066 * 65536))
    xlt := { s.xlt with helpers := (List.range 6).map fun i => (i, { claims := [(0, 0x30000), (1569792, 0x30000)] }) } }

theorem witness_couloir_commands :
    (∀ v ∈ [0, 1], let s := clSpur (clBuf (clLine v)) grp
      groupAt s 0 0 = some grp ∧ blockAt s 0 grp.blk = some blk ∧ s.net = [] ∧
        clCommand (tget (s.spur 0).clBufs 0 {}) (clLast (clLine v)) = clLine v ∧
        ctrIndex blk 0 (clBits (clLine v) 0 32 27) = some 0 ∧ clValid (clLine v) = (v == 1) ∧
        clBits (clLine v) 0x28 23 0 + clHeads (clLine v) * 2 * clDim (clLine v) ≤ blk.localSize ∧
        clBits (clLine v) 0x28 47 24 + clResultSize (clHeads (clLine v)) (clDim (clLine v)) ≤ blk.localSize) ∧
    (let b : ClBuf := { held := some (clLine 1) }
     let s := clSpur b { grp with wait := some .clSubmit }
     tget? (s.spur 0).clBufs 0 = some b ∧ copyPlaces s 0 < 256 ∧ clDieUp s (clBits (clLine 1) 0 12 8 - 5) = true ∧
       tget s.cl.credits 0 0 < 32) ∧
    (let s := withCl (clCmd .sent 1)
     tget? s.cl.cmds 7 = some (clCmd .sent 1)) := by decide +kernel

theorem witness_couloir_scans :
    clEngineUp (withCl (clCmd (.running 0) 1)) 0 0 = true ∧
    (let s := withCl (clCmd (.running 0) 0)
     clRunning s 0 0 = some (7, clCmd (.running 0) 0) ∧ min 32 ((clCmd (.running 0) 0).total - 0) = 0) ∧
    (let c := clCmd (.running 0) 1
     let s := withCl c
     let t := withPage c
     clRunning s 0 0 = some (7, c) ∧ clRunning t 0 0 = some (7, c) ∧ min 32 (c.total - 0) = 1 ∧ c.total ≤ 32 ∧
       (clGather c [0] s []).map (·.2.2) = some (some 0x05) ∧ (clGather c [0] t []).map (·.2.2) = some none) ∧
    (let s := withCl (clCmd .result 1)
     tget? s.cl.cmds 7 = some (clCmd .result 1)) := by decide +kernel

/-! ## Scalar harts, homes and caching agents -/

/-- Hart 0 with `x`; its cluster's L2 has line 0x400 in state `st`, when one is given. -/
def withHart (x : Hart) (st : Option Moesi) : State :=
  { withCtx up with
    harts := [(0, x)]
    coh := { lines := match st with | some k => [(aKey 0 0x400, { st := k, data := 7 })] | none => [] } }

theorem idle_of {s : State} {h : Nat} (p : hartUp s h = true ∧ (s.hart h).storeBuf = [] ∧ (s.hart h).load = none ∧
    (s.hart h).ds = false ∧ (s.hart h).wrs = none ∧ (s.hart h).fenceWait = false ∧ (s.hart h).v = false ∧
    (s.hart h).mode = 3) : HartIdle s h :=
  ⟨p.1, p.2.1, p.2.2.1, p.2.2.2.1, p.2.2.2.2.1, p.2.2.2.2.2.1, p.2.2.2.2.2.2⟩

theorem witness_scalar_accesses :
    HartIdle (withHart { l1d := [(0x400, ⟨9, false, 0⟩)] } none) 0 ∧ HartIdle (withHart {} (some .e)) 0 ∧
    HartIdle (withHart {} none) 0 ∧
    (isMem 0x10000 = true ∧ 0x10000 % 2 ^ 3 = 0 ∧ clusterOf 0 = 0) ∧
    (let s := withHart { l1d := [(0x400, ⟨9, false, 0⟩)] } none
     tget? s.coh.misses (aKey 0 0x400) = none ∧ tget? (s.hart 0).l1d 0x400 = some ⟨9, false, 0⟩) ∧
    (let s := withHart {} (some .e)
     tget? s.coh.misses (aKey 0 0x400) = none ∧ tget? (s.hart 0).l1d 0x400 = none ∧ l1Dirty s 0 0x400 = none ∧
       agentLine s 0 0x400 = some { st := .e, data := 7 } ∧ hartQuiet s 0 = true ∧ ∀ k ∈ hartsOf 0, (s.hart k).storeBuf = []) ∧
    (let s := withHart {} none
     agentLine s 0 0x400 = none ∧ agentMissCount s 0 < 128 ∧ 0x10001 % 2 ^ 0 = 0 ∧ 0x10001 % 8 ≠ 0 ∧
       tget? s.coh.misses (aKey 0 0x400) = none) :=
  ⟨idle_of (by decide +kernel), idle_of (by decide +kernel), idle_of (by decide +kernel), by decide +kernel⟩

/-- With `withHart {} (some .e)` and `withHart {} none` (see above). -/
theorem witness_scalar_fences : lineIdle (withHart {} none) 0x400 = true ∧ ((5 : Nat) = 5 → (({} : Hart).stimecmp ≤ (withHart {} none).time)) := by
  decide +kernel

/-- Home 0 as `h` gives it. -/
def withHome (h : Home) : State := { withCtx up with coh := { homes := [(0, h)] } }

theorem free_of {s : State} {md ln : Nat} (p : isMem (ln * 64) = true ∧ homeOfLine s ln = md ∧
    tget? (s.home md).txns ln = none ∧ (s.home md).txns.length < 1024 ∧ ∀ q ∈ (s.home md).waiting, q.line ≠ ln) :
    HomeFree s md ln := ⟨p.1, p.2.1, p.2.2.1, p.2.2.2.1, p.2.2.2.2⟩

theorem witness_homes_grant :
    HomeFree (withHome {}) 0 0 ∧ HomeFree (withHome { l3 := [(0, ⟨5, true, false, 0⟩)] }) 0 0 ∧
    (∀ s ∈ [withHome {}, withHome { l3 := [(0, ⟨5, true, false, 0⟩)] }],
      tget? (s.home 0).dir 0 = none ∧ claimOk s 1 0 false = true ∧ claimOk s 1 0 true = true ∧
        dirRoom (s.home 0) (dirSeed s 0) 0 (wayOut s 5 1) = .way 0 ∧ agentLine s 7 0 = none ∧
        lineRetired s 0 = false) ∧
    ((l3Copy ((withHome {}).home 0) 0).map (·.dirty)).getD false = false ∧
    ((l3Copy ((withHome { l3 := [(0, ⟨5, true, false, 0⟩)] }).home 0) 0).map (·.dirty)).getD false = true :=
  ⟨free_of (by decide +kernel), free_of (by decide +kernel), by decide +kernel⟩

/-- Agent 3 owns line 0. -/
def owned : DirEntry := { dstate := 2, owner := 3 }
/-- A transaction for agent 7 on line 0. -/
def txnOf (k : ReqKind) (acks : List Nat) (o : Option Nat) : Txn := { req := ⟨k, 7, 1, 0⟩, acks := acks, owner := o }

theorem witness_homes_forward :
    HomeFree (withHome { dir := [(0, owned)] }) 0 0 ∧
    (let s := withHome { dir := [(0, owned)] }
     tget? (s.home 0).dir 0 = some owned ∧ claimOk s 1 0 false = true ∧ claimOk s 1 0 true = true) ∧
    (let s := withHome { dir := [(0, owned)], txns := [(0, txnOf .rs [] (some 3))] }
     isMem 0 = true ∧ homeOfLine s 0 = 0 ∧ tget? (s.home 0).txns 0 = some (txnOf .rs [] (some 3))) ∧
    (let s := withHome { dir := [(0, owned)], waiting := [⟨.rs, 7, 1, 0⟩] }
     (s.home 0).waiting.find? (fun q => q.line == 0) = some ⟨.rs, 7, 1, 0⟩ ∧ tget? (s.home 0).txns 0 = none) ∧
    (∀ x ∈ ([(txnOf .zero [9] none, 9, .ack), (txnOf .rs [] (some 3), 3, .forwarded true false),
        (txnOf .ru [] (some 3), 3, .forwarded true true)] : List (Txn × Nat × HomeReply)),
      let s := { withHome { dir := [(0, owned)], txns := [(0, x.1)] } with net := [.reply 0 x.2.1 0 x.2.2] }
      tget? (s.home 0).txns 0 = some x.1 ∧ x.1.evict = false ∧ Msg.reply 0 x.2.1 0 x.2.2 ∈ s.net) :=
  ⟨free_of (by decide +kernel), by decide +kernel⟩

theorem witness_agents :
    (∀ m ∈ [Msg.fwdShared 0 0x400 7, Msg.fwdUnique 0 0x400 7, Msg.fwdOnce 0 0x400 7, Msg.recall 0 0x400, Msg.inval 0 0x400],
      let s := { withHart {} (some .m) with net := [m] }
      agentLine s 0 0x400 = some { st := .m, data := 7 } ∧ l1Dirty s 0 0x400 = none ∧ m ∈ s.net) ∧
    HomeFree (withHome { dir := [(0, owned)] }) 0 0 ∧
    (let s := { withHome { dir := [(0, owned)] } with coh := { (withHome { dir := [(0, owned)] }).coh with
       lines := [(aKey 3 0, { st := .m, data := 7 })] } }
     agentLine s 3 0 = some { st := .m, data := 7 } ∧ l1Dirty s 3 0 = none ∧ tget? (s.home 0).dir 0 = some owned ∧
       (s.home 0).vq.length < 64 ∧ tget? s.coh.wbs (aKey 3 0) = none ∧ homeOfLine s 0 = 0 ∧ (s.home 0).txns = [] ∧
       (s.home 0).waiting = [] ∧ fld s 5 R.MEM_L3_CFG_DECLINE_THRESH = 48) ∧
    (let s := setFld (withHome { dir := [(0, owned)] }) 5 R.MEM_L3_CFG_DECLINE_THRESH 0
     fld s 5 R.MEM_L3_CFG_DECLINE_THRESH ≤ (s.home 0).vq.length ∧ fld s 5 R.MEM_L3_CFG_DECLINE_THRESH < 64) ∧
    (let s := withHome { vq := [⟨0, 5, true, false, true⟩] }
     (s.home 0).vq = [⟨0, 5, true, false, true⟩]) ∧
    (let s := withHome { vq := [⟨0, 5, true, false, false⟩] }
     (s.home 0).vq = [⟨0, 5, true, false, false⟩]) :=
  ⟨by decide +kernel, free_of (by decide +kernel), by decide +kernel⟩

theorem witness_grants_and_probes :
    (let s := { withHart {} none with net := [.grant 0 0x400 .e 7 false, .wbAck 0 0x400 false] }
     Msg.grant 0 0x400 .e 7 false ∈ s.net ∧ Msg.wbAck 0 0x400 false ∈ s.net ∧ agentLine s 0 0x400 = none ∧ agentRoom s 0 0x400 = true ∧
       waitingStore s 0 0x400 = none ∧ (∀ k ∈ hartsOf 0, (s.hart k).storeBuf = []) ∧
       ∀ sp ∈ spursOfAgent 0, (s.spur sp).ops = []) ∧
    (let s := withHome { dir := [(0, owned)], probe := some 0 }
     (s.home 0).probe = some 0 ∧ isMem 0 = true ∧ homeOfLine s 0 = 0 ∧ tget? (s.home 0).dir 0 = some owned) := by
  decide +kernel

/-! ## Contexts, translation and claims -/

/-- Context 1 with event queue 3, and a claim or context command in progress when `b` says so. -/
def ctxState (b : Nat) : State :=
  let s := withCtx up
  { setFld (setFld s 0 R.HUB_CTX_STATUS_BUSY b) 0 R.HUB_CLAIM_STATUS_BUSY b with
    mem := memWrite s.mem 128 [1, 9]
    xlt := { s.xlt with ctxs := [(1, ⟨false, false, true, true, 9, 0, some 3, 1, 0⟩)] }
    boot := { s.boot with powered := true } }

theorem witness_context_commands :
    fld (ctxState 1) 0 R.HUB_CTX_STATUS_BUSY = 1 ∧
    (let s := ctxState 0
     fld s 0 R.HUB_CTX_STATUS_BUSY = 0 ∧ (s.ctx? 1).isSome = true ∧ s.ctx? 2 = none ∧ s.ctx? 3 = none ∧
       readDescriptor s 3 = none ∧ (readDescriptor s 2).isSome = true ∧ s.boot.powered = true ∧
       fld s 0 R.HUB_RESET_STATUS_BUSY = 0) ∧
    (let i : XltInval := { ctx := 1, unload := true }
     let s := { ctxState 1 with xlt := { (ctxState 1).xlt with inval := some i } }
     s.xlt.inval = some i ∧ i.resetting = false ∧ ∀ w ∈ i.waits, w ∉ translatedOps s i.ctx) ∧
    (let s := { ctxState 0 with boot := { (ctxState 0).boot with ctxReset := some 1 } }
     s.boot.ctxReset = some 1 ∧ ctxQuiet s 1 = true ∧ s.xlt.inval = none) := by decide +kernel

/-- A miss of page 0 in context 1, not sent. -/
def miss0 : MissEntry := ⟨1, 0, false⟩
/-- A walk of it, at the root. -/
def walk0 (r : Option (Sum TlbEntry XltFault)) : Walk :=
  { src := .engine 64, ctx := 1, va := 0, level := 3, table := 1, result := r }
/-- `s` with helper 0 as `h` gives it. -/
def withHelper (s : State) (h : Helper) : State := { s with xlt := { s.xlt with helpers := [(0, h)] } }
/-- A leaf of hart 0 that waits for its claim query. -/
def fill0 : HartFill := ⟨{ e := ⟨0, 12, 0, 0, true, true, false, true, 0, false⟩, u := none }, 0, false⟩

theorem witness_misses_and_walks :
    (let s := { ctxState 0 with tdies := [(0, { streams := [(5, [miss0])] })] }
     missOf (tget (s.tdie 0).streams 5 []) 1 0 = some miss0 ∧ missDie s 0 0 = 0 ∧ dieUp s 5 = true ∧
       ((tget (s.tdie 0).streams 5 []).filter (·.sent)).length < 4) ∧
    (let q := missPut (tget (ctxState 0).xlt.engines (64 * 6) []) 1 0
     missOf q 1 0 = some miss0 ∧ engineMissDie (ctxState 0) 6 0 = 0 ∧ (q.filter (·.sent)).length < 4) ∧
    (let s := withHelper (ctxState 0) { queue := [(.engine 64, 1, 0)] }
     nextMiss (s.helper 0) true = some (.engine 64, 1, 0) ∧ fldAt s 5 R.UNIT_MAP_IN_SERVICE 0 % 256 ≠ 0 ∧
       (s.ctx? 1).isSome = true) ∧
    (∀ v ∈ [0, 0x401], let s := { withHelper (ctxState 0) { walks := [(2, walk0 none)] } with mem := memWrite [] 4096 (leBytes 2 v) }
      tget? (s.helper 0).walks 2 = some (walk0 none) ∧ isMem 4096 = true ∧ lineIdle s 64 = true ∧
      ∀ c ∈ s.ctx? 1, canonical c.mode 0 = true ∧ canonical c.mode (2 ^ 62) = false ∧ walkAddr s c (walk0 none) = some 4096 ∧
        walkStep s c 1 (cachedPte s 0 1) 0 3 1 = if v = 0 then .inr (.inr .translation) else .inl 1) ∧
    (let w := walk0 (some (.inr .translation))
     let s := withHelper (ctxState 0) { walks := [(2, w)] }
     tget? (s.helper 0).walks 2 = some w ∧ w.src = .engine 64) ∧
    (let s := { ctxState 0 with harts := [(0, { fill := some fill0 })] }
     (s.hart 0).fill = some fill0 ∧ fill0.t.e.ctx = 0 ∧ dieUp s (5 + (coreLinks 1).1) = true ∧ (coreLinks 1).1 = 0) ∧
    (let w : FaultWindow := ⟨5, some (2, [])⟩
     let s := { ctxState 0 with xlt := { (ctxState 0).xlt with windows := [(5 * 65536 + 1, w)] } }
     tget? s.xlt.windows (5 * 65536 + 1) = some w ∧ (s.ctx? 1).bind (·.evq) = some 3 ∧
       w.posted.toNat + 10000 ≤ (setTime s 20000).time.toNat ∧ (setTime s 100).time.toNat < w.posted.toNat + 10000) := by
  decide +kernel

/-- `ctxState b` with a range of claim extents in HUB_CLAIM_ARG. -/
def claimState (b first n : Nat) : State :=
  setFld (setFld (ctxState b) 0 R.HUB_CLAIM_ARG_FIRST first) 0 R.HUB_CLAIM_ARG_COUNT n

theorem witness_claim_changes :
    fld (claimState 1 3 2) 0 R.HUB_CLAIM_STATUS_BUSY = 1 ∧ fld (claimState 0 3 0) 0 R.HUB_CLAIM_STATUS_BUSY = 0 ∧
    fld (claimState 0 3 0) 0 R.HUB_CLAIM_ARG_COUNT = 0 ∧
    (let s := claimState 0 3 2
     fld s 0 R.HUB_CLAIM_STATUS_BUSY = 0 ∧ fld s 0 R.HUB_CLAIM_ARG_FIRST = 3 ∧ fld s 0 R.HUB_CLAIM_ARG_COUNT = 2 ∧
       s.xlt.reservedClaims = []) ∧
    (let s := claimState 0 windowExtent 1
     windowExtent ≤ fld s 0 R.HUB_CLAIM_ARG_FIRST + fld s 0 R.HUB_CLAIM_ARG_COUNT - 1) ∧
    (let s := { claimState 1 3 2 with xlt := { (claimState 1 3 2).xlt with change := some ⟨0, [1]⟩ } }
     s.xlt.change = some ⟨0, [1]⟩ ∧ lineIdle s 1 = true) := by decide +kernel

/-! ## Memory tiers -/

/-- Context 1 with quotas, a pool of two extents of HBM and two of the board tier, tier movers in service, and `t`'s changes. -/
def tierState (f : Tiers → Tiers) : State :=
  let s := [1, 2].foldl (fun s i => setFldAt s 13 R.UNIT_MAP_IN_SERVICE i (2 ^ 64 - 1)) (withCtx up)
  { s with tiers := f { ranges := [(10, 2), (1572864, 2)], quotas := [(1, ⟨8, 8, 8⟩)] } }
/-- A handle of context 1 in HBM. -/
def ent0 : PoolEnt := { ctx := 1, level := 0, extent := 10 }

theorem witness_stored_lines :
    (let s := withCtx up
     lineRetired s 0 = false ∧ homeOfLine s 0 = 0 ∧ 0 * 64 < hbmEnd ∧ decodes s 0 0 0 [0] = true ∧
       decodes s 0 0 0 [0, 1, 2, 3, 4] = false ∧ linePoison s 0 = false ∧ (hbmPlace s 0).1 % 4 = 0) ∧
    (let s := withCtx up
     lineRetired s (boardBase / 64) = false ∧ boardBase ≤ boardBase / 64 * 64 ∧ boardBase / 64 * 64 < boardEnd ∧
       s.tiers.boardPoison.length < 4096) ∧
    (let r : HbmReq := ⟨0, 1, 64, false, true⟩
     let s := tierState fun t => { t with hbm := [(0, { queue := [r] })] }
     (hbmNext (fillBuckets (setTime s 5) 0) 0 0).isSome = true ∧ hbmNext (fillBuckets (setTime up 5) 0) 0 0 = none) ∧
    (90 : BitVec 8).toNat < 105 ∧ fldAt up 5 R.MEM_HBM_STACK_REFRESH 0 = 0 := by decide +kernel

theorem witness_flash_and_pool :
    (let w : FlashWrite := ⟨7, [1]⟩
     let s := tierState fun t => { t with writes := [w] }
     s.tiers.writes.find? (fun x => x.page == 7) = some w) ∧
    tget? (tierState fun t => { t with pool := [(3, ent0)] }).tiers.pool 3 = some ent0 ∧
    (let s := setFld (tierState id) 13 R.TIER_POOL_WATER_HBM_LOW 0
     let u := setEvicting s false
     (u.tiers.evicting.1 || poolDemand u 0) = false) ∧
    (let s := setFld (tierState fun t => { t with pool := [(3, ent0)] }) 13 R.TIER_POOL_WATER_HBM_LOW 5
     let u := setEvicting s false
     (u.tiers.evicting.1 || poolDemand u 0) = true ∧ victims u.tiers 0 none = [3] ∧ tget? u.tiers.pool 3 = some ent0 ∧
       extIdle u ent0.extent = true ∧ (evictDst u 0 ent0).isSome = true) ∧
    (∀ lv ∈ [1, 2], let m : PoolMove := ⟨lv, 1572864, none, false⟩
      let s := tierState fun t => { t with pool := [(3, ent0)], moves := [(3, m)] }
      tget? s.tiers.moves (3 : BitVec 24).toNat = some m ∧ tget? s.tiers.pool (3 : BitVec 24).toNat = some ent0 ∧ streamDies s ≠ [] ∧
        ent0.level < 2 ∧ extIdle s ent0.extent = true ∧ s.tiers.waiting = [] ∧ moversHeld s = false) ∧
    (let m : PoolMove := ⟨0, 10, none, false⟩
     let s := tierState fun t => { t with pool := [(3, { ent0 with level := 2 })], moves := [(3, m)] }
     tget? s.tiers.moves (3 : BitVec 24).toNat = some m ∧ streamDies s ≠ []) := by decide +kernel

/-- A TIER command of context 1 with OP, LEVEL and HANDLE. -/
def tierBody (op lv h : Nat) : List Byte := body 48 [op + lv * 2 ^ 8 + h * 2 ^ 32]
/-- A state with that command and the pool entry `p` at handle 3. -/
def tiering (op lv : Nat) (p : PoolEnt) : State :=
  withCmd (tierState fun t => { t with pool := [(3, p)] }) (started 6 (tierBody op lv 3))

theorem witness_tier_commands :
    (∀ x ∈ [(1, 0), (2, 0), (3, 0), (4, 0), (5, 1)], ∀ p ∈ [ent0, { ent0 with hold := 2 }, { ent0 with ctx := 2 }],
      let s := tiering x.1 x.2 p
      let c := started 6 (tierBody x.1 x.2 3)
      runnable s 0 6 = some c ∧ (tierCmd c).op = x.1 ∧ (tierCmd c).level = x.2 ∧ (tierCmd c).handle = 3 ∧ (tierCmd c).bad = false ∧
        (tierCmd c).result = 0 ∧ s.tiers.waiting = [] ∧ s.tiers.moves = [] ∧ (moverOf s c).isSome = true ∧ extIdle s p.extent = true) ∧
    (let c := started 6 (tierBody 1 2 3)
     (tierCmd c).bad = true ∧ runnable (withCmd (tierState id) c) 0 6 = some c) ∧
    (let s := tiering 1 0 ent0
     poolRoom s 1 0 (some 0) = .inl (some 11) ∧ freeHandle s.tiers = some 0) ∧
    (let s := tiering 5 1 ent0
     poolRoom s 1 1 none = .inl (some 1572864) ∧ dataRetired s 3 ent0 = false ∧ extIdle s ent0.extent = true) := by
  decide +kernel

/-! ## KSL ports -/

/-- Port 0 as `x` gives it, in state `n`, with EPOCH 7 of its peer. -/
def withPort (x : KslPort) (n : Nat) : State :=
  let s := setFldAt (setFldAt (withCtx up) 0 R.HUB_KSL_STAT_STATE 0 n) 0 R.HUB_KSL_EPOCH_PEER_EPOCH 0 7
  { setFldAt s 0 R.HUB_KSL_CFG_CTX0_OK 0 1 with
    ksl := [(0, x)]
    boot := { s.boot with state := 3 } }

/-- The port comes up in state 0 with ENABLE of 1 when `cableMate` acts. -/
theorem witness_ksl_training :
    (∀ x ∈ [((1 : Nat), ({ step := 1 } : KslPort)), (1, { step := 2 }), (1, { step := 5 }), (1, { mated := true }), (2, { lost := false }),
        (3, {}), (3, { mated := true, retrainFails := 2 }), (0, {}), (3, { lost := false })],
      fldAt (withPort x.2 x.1) 0 R.HUB_KSL_STAT_STATE 0 = x.1 ∧ (withPort x.2 x.1).port 0 = x.2) ∧
    b2n false = fldAt (withPort { step := 5 } 1) 0 R.HUB_KSL_CFG_ROLE 0 ∧
    b2n true ≠ fldAt (withPort { step := 5 } 1) 0 R.HUB_KSL_CFG_ROLE 0 ∧
    (withPort { step := 5 } 1).qs.q = [] ∧ fldAt (withPort { step := 5 } 1) 0 R.HUB_KSL_EPOCH_PEER_EPOCH 0 = 7 ∧
    fldAt (setFldAt (withPort {} 0) 0 R.HUB_KSL_CFG_ENABLE 0 1) 0 R.HUB_KSL_CFG_ENABLE 0 = 1 ∧
    fldAt (setFldAt (withPort {} 0) 0 R.HUB_KSL_CFG_ENABLE 0 1) 0 R.HUB_KSL_STAT_STATE 0 = 0 := by decide +kernel

/-- A header of type `t` with an address and a length of 8. -/
def hdrOf (t addr : Nat) : KslHdr := ⟨BitVec.ofNat 4 t, false, 3, 7, 1, 0, BitVec.ofNat 64 addr, 0⟩
/-- A port that is up, with one transaction. -/
def withIn (h : KslHdr) (b : List Byte) : State := withPort { lost := false, inbox := [(h, b)] } 2

/-- A flit whose CRC alone is not 0. -/
theorem witness_ksl_bad_crc : (let flit : BitVec 2048 := BitVec.ofNat 2048 (2 ^ 2000)
    crc64 ((leBytes 256 flit.toNat).take 248) ≠ BitVec.ofNat 64 (leNat ((leBytes 256 flit.toNat).drop 248))) := by
  have z : ∀ n, crc64 (List.replicate n 0) = 0 := by
    intro n
    induction n with
    | zero => rfl
    | succ n ih =>
      have k : crcByte (0#64) (0#8) = 0#64 := by decide +kernel
      simpa [crc64, List.replicate_succ, k] using ih
  have e : (leBytes 256 (BitVec.ofNat 2048 (2 ^ 2000)).toNat).take 248 = List.replicate 248 0 := by decide +kernel
  simp only [e, z]
  decide +kernel

theorem witness_ksl_transactions :
    (portUp (withPort { lost := false } 2) 0 = true ∧
      (let s := withPort { lost := false, retry := [⟨1, [], 0⟩] } 2
       portUp s 0 = true ∧ ∀ f ∈ (s.port 0).retry, f.resends < 7)) ∧
    (∀ h ∈ [hdrOf 1 0x70300000000, hdrOf 1 0x30000000000, hdrOf 2 0x10000, hdrOf 3 0x70200000008],
      portUp (withIn h []) 0 = true ∧ (withIn h []).net = [] ∧ moduleReady (withIn h []) = true ∧ kslMalformed h = false ∧
        ctx0Refused (withIn h []) 0 h = false ∧ h.res0 = 0 ∧ h.lenm1 = 7 ∧ h.addr.toNat % 8 = 0) ∧
    inStatus 0x70300000000 = true ∧ inStatus 0x30000000000 = false ∧ kslDecode 0x30000000000 = none ∧
    moduleReady (let s := withIn (hdrOf 1 0) []; { s with boot := { s.boot with state := 2 } }) = false ∧
    inStatus 0x10000 = false ∧ kslDecode 0x10000 = some 0x10000 ∧ rangeIdle (withIn (hdrOf 2 0x10000) [1]) 0x10000 1 = true ∧
    (let s := withPort { lost := false, wacks := [⟨3, 0⟩] } 2
     (s.port 0).wacks.find? (fun w => w.tag.toNat == 3) = some ⟨3, 0⟩ ∧ portFlying s 0 (some 3) = false) ∧
    (let g : KslTag := ⟨⟨false, 0, 8, 1, [], .post⟩, []⟩
     let s := withPort { lost := false, inbox := [(hdrOf 4 0, leBytes 8 5)], rdTags := [(3, g)] } 2
     (s.port 0).inbox = [(hdrOf 4 0, leBytes 8 5)] ∧ tget? (s.port 0).rdTags (hdrOf 4 0).tag.toNat = some g ∧
       g.req.len ≤ g.got.length + (leBytes 8 5).length ∧ (hdrOf 4 0).status = 0) ∧
    (let g : KslTag := ⟨⟨false, 0, 16, 1, [], .post⟩, []⟩
     g.got.length + (leBytes 8 5).length < g.req.len) ∧
    (let g : KslTag := ⟨⟨true, 0, 8, 1, [], .post⟩, []⟩
     let s := withPort { lost := false, inbox := [(hdrOf 5 0, [])], wrTags := [(3, g)] } 2
     (s.port 0).inbox = [(hdrOf 5 0, [])] ∧ tget? (s.port 0).wrTags (hdrOf 5 0).tag.toNat = some g) ∧
    (let h := hdrOf 6 (1 + 9 * 2 ^ 32)
     (withIn h []).net = [] ∧ h.ttype = 6 ∧ h.addr.toNat % 256 = 1 ∧ bits h.addr.toNat 63 32 = 9 ∧ portFlying (withIn h []) 0 none = false) ∧
    (let h := hdrOf 6 (2 + 9 * 2 ^ 32)
     let s := setFldAt (withIn h []) 0 R.HUB_KSL_CFG_ROLE 0 1
     portUp s 0 = true ∧ h.addr.toNat % 256 = 2 ∧ bits h.addr.toNat 49 32 = 9 ∧ portFlying s 0 none = false ∧
       fldAt s 0 R.HUB_KSL_CFG_ROLE 0 = 1 ∧ moduleReady s = true) ∧
    (let a : HartPart := ⟨hostBase, 8, 1, leBytes 8 5, 0, false⟩
     let s := { withPort { lost := false } 2 with harts := [(0, { winStores := [a] })] }
     portUp s 0 = true ∧ portOf hostBase = 0 ∧ (s.hart 0).winStores = [a] ∧ leNat a.data = 5 ∧ hostBase < 2 ^ 52) := by
  decide +kernel

/-! ## Queues, commands and the Summit Book -/

/-- Context 1 with the queues of `q`, the descriptor of queue 4 (a completion queue with its ring at 0x20000) in memory, and
a command of one slot at 0x20000 when `w` is its first word. -/
def withQ (q : Tbl QueueSt) (w : Nat) : State :=
  let s := withCtx up
  { s with
    mem := memWrite (memWrite (memWrite s.mem 256 (leBytes 8 0x10011)) 264 (leBytes 8 0x20000)) 0x20000 (leBytes 8 w)
    qs := { s.qs with q := q } }
/-- A submission queue with completion queue 2. -/
def subQ : QueueSt := { state := 1, ctx := 1, link := 2, linkv := true, ring := 0x20000 }
/-- Of context 0, with a command at its fetch position. -/
def fetchQ : QueueSt := { subQ with ctx := 0, bell := 1 }

theorem witness_queue_commands :
    fld (setFld (withQ [(1, subQ)] 0) 0 R.HUB_QUEUE_STATUS_BUSY 1) 0 R.HUB_QUEUE_STATUS_BUSY = 1 ∧
    (∀ x ∈ [({} : QueueSt), subQ, { subQ with state := 2 }, { subQ with disabling := true }], let s := withQ [(1, x)] 0
      fld s 0 R.HUB_QUEUE_STATUS_BUSY = 0 ∧ s.queue 1 = x) ∧
    readQueue (withQ [] 0) 1 = none ∧ (readQueue (withQ [] 0) 4).isSome = true := by decide +kernel

/-- A slot fetched: a NOP. -/
def fetched0 : Fetched := ⟨leBytes 8 0x10001 ++ List.replicate 56 0, 1⟩

theorem witness_fetch_and_accept :
    (let s := { withQ [(1, subQ)] 0 with net := [.doorbell 1 1 1 0, .doorbell 1 1 (2 ^ 30) 0] }
     moduleStopped s = false ∧ bellBad subQ 1 = false ∧ bellBad subQ (2 ^ 30) = true ∧
       s.net.find? (fun m => match m with | .doorbell a b c _ => a == 1 && b == 1 && c == 1 | _ => false)
         = some (.doorbell 1 1 1 0)) ∧
    (∀ w ∈ [0x10001, 0x10002], let s := withQ [(1, { fetchQ with rereads := if w = 0x10001 then none else some 5 })] w
      fetchQ.gap fetchQ.pos fetchQ.bell ≠ 0 ∧ fetchQ.ring < hostBase ∧
        (cohRead (claimCacheFill s (slotAddr fetchQ 0)) (slotAddr fetchQ 0) 64).2 = false ∧
        fetchCheck fetchQ (cohRead (claimCacheFill s (slotAddr fetchQ 0)) (slotAddr fetchQ 0) 64).1 =
          if w = 0x10001 then .cmd 1 else .torn 1 2) ∧
    (let x := { subQ with fetched := some fetched0 }
     let s := withQ [(1, x), (2, { state := 1, kind := 1, ctx := 1 })] 0
     moduleStopped s = false ∧ acceptOk (setTime s 5) x fetched0 = true ∧ x.link.toNat ≠ 1 ∧
       cmdMalformed fetched0.bytes fetched0.slots = false ∧ boundTo s 1 = none) ∧
    (∀ x ∈ [1, 2], let c := { started 1 (body 48 []) with st := .accepted, ctx := BitVec.ofNat 16 x }
      let s := withCmd (withQ [(1, subQ)] 0) c
      nextHandoff s 1 = some (0, c) ∧ s.cmd? 0 = some c ∧ c.kind ≠ 5 ∧ journalAcked s c = true ∧ fenceMet s 0 c = true ∧
        (s.ctx? c.ctx).isSome = (x == 1)) := by decide +kernel

/-- A COPY of 64 B from 0x10000 to 0x20000. -/
def copyBody : List Byte := body 48 [0x10000, 0x20000, 64]

theorem witness_ends_and_posts :
    (let s := withCmd (withQ [(1, subQ)] 0) (started 1 (body 48 []))
     runnable s 0 1 = some (started 1 (body 48 []))) ∧
    (let c := started 7 copyBody
     let s := withCmd (withQ [(1, subQ)] 0) c
     let t := setFldAt s 0 R.UNIT_MAP_IN_SERVICE 0 0
     runnable s 0 7 = some c ∧ runnable t 0 7 = some c ∧ bodyBits c 16 63 38 = 0 ∧ (∀ b ∈ c.body.drop 24, b = 0) ∧
       bodyBits c 16 36 0 = 64 ∧ copyEngine s c = some 1 ∧ copyEngine t c = none) ∧
    (let c := { started 7 copyBody with running := true, progress := 64 }
     let s := withQ [(1, subQ)] 0
     let s := { s with qs := { s.qs with cmds := [(0, c)], engines := [(1, [0])] } }
     tget s.qs.engines 1 [] = [0] ∧ s.cmd? 0 = some c ∧ c.progress = bodyBits c 16 36 0) ∧
    (∀ st ∈ [0, 1], let c := { started 1 (body 48 []) with st := .ended 0 }
      let s := withCmd (withQ [(1, subQ), (2, { state := st, kind := 1, ring := 0x20000, opened := 1 })] 0) c
      let y := s.queue (s.queue c.queue.toNat).link.toNat
      s.cmd? 0 = some c ∧ journalAcked s c = true ∧ y.state = st ∧ y.armed = false ∧ y.ctx = 0 ∧ isMem (slotAddr y 0) = true) ∧
    (∀ p ∈ [0, 15], let e : EventRec := ⟨3, 1, 0, []⟩
      let y : QueueSt := { state := 1, kind := 2, ring := 0x20000, pos := p }
      let s := withQ [(3, y)] 0
      let s := { s with qs := { s.qs with events := [e] } }
      s.qs.events.find? (fun e => e.queue.toNat == 3) = some e ∧ s.queue 3 = y ∧ (y.size ≤ y.gap y.bell y.pos + 1 ↔ p = 15) ∧
        isMem (slotAddr y 0) = true) ∧
    (let s := withQ [] 0
     let s := { s with qs := { s.qs with jflight := [(4, false), (5, false)] } }
     s.qs.jflight = ((4 : W64).toNat, false) :: [(5, false)] ∧ s.qs.jwait = []) ∧
    (let y : QueueSt := { state := 1, kind := 2, hport := 1, window := true, due := true }
     let s := withQ [(3, y)] 0
     (s.queue 3).window = true ∧ portUp s (y.hport - 1) = false) := by decide +kernel

/-! ## The fabric -/

/-- Peers 0 (this module) and 1 (inbound context 1) on every port; logical port 0 is enabled and in state `st`. -/
def withPeers (s : State) (st : Nat) : State :=
  let e : Peer := ⟨true, false, true, false, false, 0, 0xFFFF, 0, 0, 0, 5, 0⟩
  let s := setLpState (setFldAt s 11 R.FAB_PORT_CFG_ENABLE_A 0 1) 0 st
  modFab s fun x => { x with peers := [(0, e), (1, { e with self := false, inbound := 1 })], sessions := [(1, 7)], theirs := [(1, 9)] }

theorem witness_ports_and_peers :
    (∀ st ∈ [0, 1, 2], let s := withPeers (withCtx up) st
      s.fab.tx = [] ∧ s.fab.reads = [] ∧ s.fab.sets = [] ∧ s.qs.cmds = [] ∧ fld s 11 R.FAB_PEER_STATUS_BUSY = 0 ∧
        lpExists s 0 = true ∧ lpEnabled s 0 = true ∧ lpState s 0 = st ∧ cagePresent s 0 = true ∧ lpUp s 0 = (st == 2) ∧
        selfPeer s = some 0 ∧ (s.peer? 0).map (·.addr) = some 5 ∧ (s.peer? 0).map (fun e => bitAt e.ports 0) = some true ∧
        readPeer s 2 = none) ∧
    (∀ n ∈ [1, 2], let s := withPeers (withCtx up) 2
      let s := { s with mem := memWrite s.mem (64 * n) (leBytes 8 0xFFFF0009) }
      readPeer s n = some ⟨false, false, true, false, false, 0, 0xFFFF, 0, 0, 0, 0, 0⟩ ∧
        (s.peer? n).isSome = (n == 1)) := by decide +kernel

/-- A packet from peer 1 on flow 0, of an OP and PSN 0, with `n` bytes of payload. -/
def kh (op : BitVec 3) (n : Nat) : KftHdr :=
  ⟨0, 1, 0, 0, false, op, 1, 0, 9, BitVec.ofNat 16 n, 0, 0, 0, 0x10000, 0, 0, false, 0, 0, 0, true, false⟩
/-- A packet of ours to peer 1 that is not acknowledged. -/
def sent0 : KftSent := { psn := 0, pkt := { op := 0, offset := 0x10000, data := [1] } }
/-- The fabric with one flow's two ends as given. -/
def withFlow (t : KftTx) (r : KftRx) : State :=
  modFab (withPeers (withCtx up) 2) fun x => { x with tx := [(16, t)], rx := [(16, r)] }
/-- A read that a host awaits. -/
def awaited : KftRead := {
  peer := 1, flow := 0, offset := 0x10000, len := 16
  owner := .inl { ctx := 1, pa := 0x10000, len := 16, write := false, data := [], owner := .cmd 0 0 } }

theorem witness_packets :
    (let s := withFlow {} {}
     ∀ op ∈ [0, 2], kftFrom s (kh op 8) (List.replicate 8 1) true = .inr 1 ∧ (kh op 8).len.toNat = 8 ∧
       kftSeen (s.rx 1 0) (kh op 8).psn = false) ∧
    (let s := withFlow {} {}
     (inboundCheck s 1 11 0x10000 8 true).map (·.2) = some 0 ∧ (inboundCheck s 1 11 (3 * tib) 8 true).map (·.2) = some 5) ∧
    (let s := modFab (withFlow {} {}) fun x => { x with reads := [(0, awaited)] }
     tget? s.fab.reads (kh 2 8).opid.toNat = some awaited ∧ awaited.got + 8 < awaited.len) ∧
    (let s := withFlow {} {}
     kftFrom s (kh 1 8) (leBytes 8 64) true = .inr 1 ∧ 64 ≤ kftMax s 1 ∧
       (inboundCheck s 1 11 0x10000 64 false).map (fun r => (r.2, (cohRead r.1 0x10000 64).2)) = some (0, false) ∧
       (inboundCheck s 1 11 (3 * tib) 64 false).map (·.2) = some 5) ∧
    kftFrom (withFlow {} {}) { kh 0 0 with ptype := 2 } [] false = .inr 1 ∧
    (let s := withFlow { unacked := [sent0] } {}
     let h := { kh 0 0 with ptype := 1, ackPsn := 1 }
     kftFrom s h [] true = .inr 1 ∧ (s.tx 1 0).queue = [] ∧
       (∀ k ∈ (s.tx 1 0).unacked, seqReached (k.psn + 1) h.ackPsn = true ∧ k.pkt.owner = .reply)) ∧
    (let s := withFlow { unacked := [sent0] } { pend := [(0, 0)], fresh := 1 }
     (s.rx 1 0).pend.find? (fun e => e.1 == 0) = some (0, 0) ∧ (s.rx 1 0).next = 0 ∧ (s.rx 1 0).got = [] ∧
       0 < (s.rx 1 0).fresh ∧ flowPort s 1 0 = some 0 ∧ (s.tx 1 0).unacked = [sent0] ∧
       sent0.resends + 1 < fld s (lpDie 0) R.FAB_KFT_CFG_RETRY_MAX) ∧
    (let s := withFlow {} {}
     (s.rx 1 0).fresh = 0 ∧ (s.tx 1 0).unacked = [] ∧ (s.tx 1 0).queue = []) := by decide +kernel

/-- A FAB_WRITE or FAB_READ of 64 B at 0x10000 with peer 1, on a flow, TIMED or not, at an instant. -/
def fabBody (flow timed t : Nat) : List Byte := body 48 [0x10000, 0x10000 + 2 ^ 42 + flow * 2 ^ 50 + timed * 2 ^ 53, 64, t]
/-- Such a command. -/
def fabbing (kind flow timed t : Nat) : State := withCmd (withFlow {} {}) (started kind (fabBody flow timed t))

theorem witness_fabric_commands :
    (∀ kind ∈ [0x10, 0x11], ∀ x ∈ [(0, 0), (1, 1), (1, 0)],
      let c := started kind (fabBody x.1 x.2 1000)
      let s := fabbing kind x.1 x.2 1000
      runnable s 0 kind = some c ∧ fabBad c (kind == 0x10) = (x.1 == 0) ∧ fabDue s c = (x.2 == 0) ∧ c.progress = 0 ∧
        peerOk s (bodyBits c 0x08 49 42) (bodyBits c 0x08 41 0 + 63) = true) ∧
    (let c := { started 0x11 (fabBody 1 1 1000) with running := true }
     bodyBits c 0x08 53 53 = 1 ∧ (setTime (withCmd up c) 1000).time.toNat = 1000 ∧ bodyBits c 0x18 63 0 = 1000) ∧
    (let c := { started 0x11 (fabBody 1 0 0) with running := true, progress := 64 }
     (withCmd up c).cmd? 0 = some c ∧ c.progress = bodyBits c 0x10 36 0) := by decide +kernel

/-- A set of this module and peer 1. -/
def set0 : CollSet := {
  ctx := 1, members := [⟨0, none⟩, ⟨1, some 0⟩], me := 0, land := 0x20000, landBytes := 4096, lead := 100, window := 1000, grace := 1000
  wait := 500, evq := none }
/-- The fabric with the set `e` as set 0. -/
def withSet (e : CollSet) : State := modFab (withFlow {} {}) fun x => { x with sets := [(0, e)] }
/-- A COLL of an OPC: step 1, source 0x10000, destination 0x30000. -/
def collBody (opc root count : Nat) : List Byte :=
  body 48 [opc * 2 ^ 8 + root * 2 ^ 18 + b2n (opc == 4) * 2 ^ 26, 1, 0x10000, 0x30000, count]
/-- Count of a COLL that keeps R391. -/
def collN (opc : Nat) : Nat := if opc = 0 ∨ opc = 4 then 0 else 16
/-- A COLL_SET of two members listed at 0x10000. -/
def setBody (land : Nat) : List Byte := body 48 [2 ^ 8, 0x10000, 0x20000, land]

theorem witness_collective_sets :
    (let c := started 0x12 (setBody 0)
     let s := withCmd (withFlow {} {}) c
     runnable s 0 0x12 = some c ∧ bodyBits c 0x18 39 0 < 65536) ∧
    (let c := started 0x12 (setBody 65536)
     let s := withCmd (withFlow {} {}) c
     let s := { s with mem := memWrite s.mem 0x10004 (leBytes 4 1) }
     runnable s 0 0x12 = some c ∧ bodyBits c 0 31 14 = 0 ∧ bodyBits c 0 63 51 = 0 ∧ bodyBits c 0x18 63 40 = 0 ∧ bodyBits c 0 13 8 + 1 = 2 ∧
       bodyBits c 8 1 0 = 0 ∧ bodyBits c 0x10 11 0 = 0 ∧ bodyBits c 0x18 11 0 = 0 ∧ 65536 ≤ bodyBits c 0x18 39 0 ∧
       (engRead s 11 4 c.ctx false (BitVec.ofNat 64 (bodyBits c 8 63 0)) 8).map (fun r => (r.2, membersOk r.1 [⟨0, none⟩, ⟨1, none⟩])) =
         some (.inl (leBytes 8 (2 ^ 32)), true) ∧ collMembers (leBytes 8 (2 ^ 32)) 2 = some [⟨0, none⟩, ⟨1, none⟩]) ∧
    (let c := started 0x13 (body 48 [])
     let s := withCmd (withSet set0) c
     runnable s 0 0x13 = some c ∧ bodyBits c 0 63 8 = 0 ∧ (∀ x ∈ c.body.drop 8, x = 0) ∧ s.fab.sets = [(bodyBits c 0 7 0, set0)] ∧
       set0.ctx = c.ctx ∧ set0.releasing = none ∧ inFlightSteps s set0 = []) := by decide +kernel

theorem witness_collective_commands :
    (∀ x ∈ [(0, 0), (1, 0), (2, 0), (3, 0), (4, 0), (4, 1)], let c := started 0x14 (collBody x.1 x.2 (collN x.1))
      let s := withCmd (withSet set0) c
      let u := setTime s 5
      let k := collCmd c
      runnable s 0 0x14 = some c ∧ tget? s.fab.sets k.set = some set0 ∧ k.opc = x.1 ∧ k.brole = false ∧ k.root = x.2 ∧
        set0.ctx = c.ctx ∧ collFieldsOk c k set0.members.length = true ∧ collStepOk u set0 k = true ∧
        (contribution u c k set0.me).map (fun r => r.2.isLeft) = some true) ∧
    (∀ opc ∈ [0, 1, 2], let c := started 0x14 (collBody opc 0 1)
      collFieldsOk c (collCmd c) set0.members.length = false) ∧
    (let h := { kh 4 8 with opid := 1, member := 1 }
     let s := withSet set0
     kftFrom s h (leBytes 8 50) true = .inr 1 ∧ kftSeen (s.rx 1 0) h.psn = false ∧ tget? s.fab.sets h.set.toNat = some set0 ∧
       collFromOk set0 h = true ∧ (tget? set0.steps 1) = none ∧ (s.rx 1 0).fresh < 15) := by decide +kernel

/-- That set with step 1 as `x`. -/
def setOf (x : CollStep) : CollSet := { set0 with steps := [(1, x)] }
/-- It, with the command `c`, at an instant. -/
def withStep (x : CollStep) (c : Cmd) (time : W64) : State := { withCmd (withSet (setOf x)) c with time := time }
/-- An accepted COLL. -/
def collRun (opc brole : Nat) : Cmd := { started 0x14 (body 48 [opc * 2 ^ 8 + brole * 2 ^ 11, 1, 0x10000, 0x30000, collN opc]) with
  running := true }

/-- Its landing space has one place. -/
theorem witness_landing_place (n : Nat) : n % (set0.landBytes / 4096) * 4096 = 0 := by
  show n % 1 * 4096 = 0
  simp [Nat.mod_one]

/-- A step whose S is 100. -/
def step1 (late : Bool) (p : Option Nat) : CollStep := { step := 1, start := some 100, late := late, primary := p }

theorem witness_collective_instants :
    ∀ y ∈ [((99 : W64), false, none, 1), (100, false, none, 1), (100, false, some 0, 0), (2099, false, none, 1), (2100, false, none, 1),
        (10002099, true, some 0, 1), (10002100, true, some 0, 1)],
      let t := y.1
      let opc := y.2.2.2
      let x := step1 y.2.1 y.2.2.1
      let s := withStep x (collRun opc 0) t
      stepAt s 0 1 = some (setOf x, x) ∧ (setTime s t).time = t ∧ x.deadline set0 = some 2100 ∧
        s.cmd? 0 = some (collRun opc 0) ∧ (collCmd (collRun opc 0)).opc = opc ∧ cmdOpen s 0 = true ∧ tget s.fab.marks 0 [] = [] ∧
        (collCmd (collRun opc 0)).brole = false := by decide +kernel

/-- A step with one announcement. -/
def annStep : CollStep := { step := 1, anns := [⟨1, false, 100⟩] }

theorem witness_collective_wait :
    (setTime (withStep annStep (collRun 0 0) 599) 599).time = 599 ∧ (setTime (withStep annStep (collRun 0 0) 600) 600).time = 600 ∧
    stepAt (withStep annStep (collRun 0 0) 599) 0 1 = some (setOf annStep, annStep) ∧ set0.wait = 500 ∧
    stepAt (withStep annStep (collRun 0 0) 600) 0 1 = some (setOf annStep, annStep) ∧ 1 < set0.members.length := by
  decide +kernel

/-- A step of which a piece has come before its own command. -/
def firstStep : CollStep := { step := 1, first := some 7 }
/-- A piece from peer 1. -/
def pieceHdr : KftHdr := { kh 3 4 with opid := 1, member := 1 }

theorem witness_collective_piece :
    let s := setTime (withStep firstStep (collRun 0 0) 5) 5
    stepAt s 0 1 = some (setOf firstStep, firstStep) ∧ kftFrom s pieceHdr [1, 2, 3, 4] true = .inr 1 ∧
      kftSeen (s.rx 1 0) pieceHdr.psn = false ∧ collFromOk set0 pieceHdr = true ∧
      (engWrite s 11 4 (2 ^ 64) 1 true (set0.land + BitVec.ofNat 64 0) [1, 2, 3, 4]).map
        (fun r => (r.2, decide (r.1.fab = s.fab))) = some (none, true) := by decide +kernel

/-- A step whose backup command has sent. -/
def backStep : CollStep := { step := 1, backups := [(1, 0)], sent := [0] }

theorem witness_collective_end :
    let c := collRun 1 1
    let s := withStep backStep c 5
    collOf s 0 = some (0, 1) ∧ s.cmd? 0 = some c ∧ c.st = .started ∧ (collCmd c).brole = true ∧ c.windowWrites = 0 ∧
      stepAt s 0 1 = some (setOf backStep, backStep) := by decide +kernel

/-! ## Time, Ridge and the arbiters -/

/-- Alpenglow time in STATE `st`, with 1PPS enabled or not. -/
def withTime (st pps : Nat) : State := setFld (setFld (withCtx up) 0 R.HUB_AG_STATUS_STATE st) 0 R.HUB_AG_CFG_PPS_EN pps
/-- 1PPS has come at `l`, in a row since `f`. -/
def withPps (lost : Bool) (f l : W64) : State :=
  modFab (withTime 1 1) fun x => { x with ppsFirst := some f, ppsLast := some l, ppsLost := lost }

theorem witness_time :
    (∀ st ∈ [0, 1, 2], ∀ pps ∈ [0, 1], let s := withTime st pps
      s.kernels = [] ∧ s.qs.cmds = [] ∧ s.fab.sets = [] ∧ s.pwr.dies = [] ∧ ppsInUse s = false ∧ agState s = st ∧
        fld s 0 R.HUB_AG_CFG_PPS_EN = pps ∧ s.fab.ppsLost = false) ∧
    (∀ lost ∈ [false, true], let s := withPps lost 0 15500000000
      s.fab.ppsLost = lost ∧ s.fab.ppsLast = some 15500000000 ∧ s.fab.ppsFirst = some 0 ∧ s.time = 0) ∧
    (16000000000 : W64).toNat < (15500000000 : W64).toNat + 2000000000 ∧ (0 : W64).toNat + 16000000000 ≤ (16000000000 : W64).toNat ∧
    (15500000000 : W64).toNat + 2000000000 ≤ (17500000000 : W64).toNat := by decide +kernel

/-- Modules of every die in service, stream 1 from die 0 through its module 0 to die 5 and on by its module 1. -/
def withRidge (x : RidgeModule) : State :=
  let s := (List.range 32).foldl (fun s d => setFld s d R.RIDGE_MAP_IN_SERVICE (2 ^ 64 - 1)) (withCtx up)
  { s with ridge := { mods := [(ridgeKey 5 0, x)], routes := [(1, ⟨0, 0, 6, 0, [0, 1], [0x3F, 0x3F], false⟩)] } }
/-- A frame of stream 1. -/
def frameOf (cls : BitVec 3) (hop : BitVec 3) (seq : BitVec 10) (ok : Bool) : FrameHdr :=
  ⟨1, cls, hop, seq, 0, false, true, true, 0, 0, 0, ok⟩
/-- A frame sent before with a sequence. -/
def sentFrame (seq n : Nat) : RFrame := { stream := 1, cls := 2, hop := 1, first := true, last := true, payload := 7, seq := seq, resends := n }

theorem witness_ridge :
    (∀ n ∈ [0, 7], let s := withRidge { replay := [sentFrame 4 n, sentFrame 5 0] }
      ridgeUp s 5 0 = true ∧ (s.rmod 5 0).retraining = false ∧
        (0 : BitVec 10).toNat = ((s.rmod 5 0).rxSeq + 1) % 1024 ∧ (s.rmod 5 0).fails < 2 ∧
        (tget? s.ridge.routes 1).map (fun r => (r.mods[1]?, r.mods[2]?)) = some (some 1, none) ∧
        (s.rmod 5 0).replay.filter (fun r => !decide (((4 : BitVec 10).toNat + 1024 - r.seq) % 1024 < 512)) = [sentFrame 5 0]) ∧
    (let s := withRidge { discard := true }
     (s.rmod 5 0).discard = true ∧ (3 : BitVec 10).toNat ≠ ((s.rmod 5 0).rxSeq + 1) % 1024) ∧
    (let s := withRidge { fails := 2 }
     let s := { s with ridge := { s.ridge with routes := [] } }
     ridgeFar 5 0 = some (0, 0) ∧ s.ridge.routes = [] ∧ s.svc.tests = [] ∧ s.svc.cairn = [] ∧
       fld s 0 R.HUB_REL_QUEUE_VALID = 0 ∧ 2 ≤ (s.rmod 5 0).fails) := by decide +kernel

/-- Arbiter `a` of a die as `x`. -/
def withArb (s : State) (d a : Nat) (x : Arbiter) : State := { s with arbs := [(arbKey d a, x)] }
/-- A request of input 0, and one of an input of a lower rank. -/
def askHigh : ArbReq := { input := 0, id := 1 }
/-- See there. -/
def askLow : ArbReq := { input := 1, id := 2 }

/-- A self-test of copy engine 2, which runs. -/
def testC : SelfTest := { rid := rid 0x0B 0 2, now := false, running := true, cmd := false }

theorem witness_arbiters :
    (∀ x ∈ [(none, false), (some askLow, true), (some askLow, false)],
      let s := withArb (withCtx up) 0 66 { queue := [askHigh], holder := x.1, locked := x.2 }
      dieUp s 0 = true ∧ (s.arb 0 66).queue = [askHigh] ∧ (s.arb 0 66).records = [] ∧ (s.arb 0 66).holder = x.1 ∧
        (s.arb 0 66).locked = x.2 ∧ effRank s 0 66 askLow < effRank s 0 66 askHigh ∧ 0 < arbRecords 0 66) ∧
    (let s := withRidge { outq := [sentFrame 0 0] }
     dieUp s 5 = true ∧ ridgeUp s 5 0 = true ∧ (s.rmod 5 0).retraining = false ∧ (s.arb 5 0).holder = none ∧ (s.arb 5 0).queue = [] ∧
       (s.rmod 5 0).outq = [sentFrame 0 0] ∧ ridgeCredit s 5 0 (sentFrame 0 0) = true ∧ (s.rmod 5 0).replay.length < 256) ∧
    (let h : ArbReq := { input := 1, id := ridNum testC.rid }
     let s := withArb (withCtx up) 0 66 { holder := some h, locked := true }
     let s := { s with svc := { s.svc with tests := [testC] } }
     (s.arb 0 66).holder = some h ∧ testArb (numRid h.id) = some (0, 66, 1) ∧ ridNum (numRid h.id) = h.id ∧
       s.svc.tests = [testC] ∧ testC.rid = numRid h.id ∧ fld s 0 R.HUB_REL_QUEUE_VALID = 0) := by decide +kernel

/-! ## The Col gate -/

/-- Both guest sites in service, with a window of context 1 at the addresses below 2^24 for the guest of site 14 (reads, and
writes when `w` is 1), a bucket of one line filled at `rate` quarter bytes a nanosecond, context 1 admitted, and the site's
gate as `c`. -/
def withGuest (w rate : Nat) (c : ColSite) : State :=
  let s := withCtx up
  let s := [(R.HUB_COL_WIN_SZ, 12), (R.HUB_COL_WIN_EN, 1), (R.HUB_COL_WIN_CTX, 1), (R.HUB_COL_WIN_R, 1), (R.HUB_COL_WIN_W, w),
    (R.HUB_COL_RATE_RATE, rate), (R.HUB_COL_RATE_BURST, 1), (R.HUB_COL_FILTER_CTX0, 1)].foldl (fun s x => setFldAt s 0 x.1 0 x.2) s
  { s with col := [(0, c)] }
/-- A guest's request for the line at 0x10000. -/
def gh (op : BitVec 4) : GuestHdr := ⟨op, false, false, 3, 0x10000, BitVec.allOnes 64, false⟩

theorem witness_guest_requests :
    (∀ op ∈ [1, 2, 3], let s := withGuest 1 0 {}
      let r : GuestReq := { hdr := gh op, ctx := 1, data := 0 }
      dieUp s 14 = true ∧ siteKilled s 0 = false ∧ guestCheck s 0 (gh op) = .inr 1 ∧ fldAt s 0 R.HUB_COL_RATE_RATE 0 = 0 ∧
        (s.site 0).reqs = [] ∧ fldAt s 0 R.HUB_COL_VADDR_VALID 0 = 0 ∧
        (guestDo (fillSite (modSite s 0 fun x => { x with reqs := [r] }) 0) 0 r).isSome = true) ∧
    (∀ op ∈ [1, 2, 3], guestCheck (withGuest 1 0 {}) 0 { gh op with addr := 2 ^ 24 } = .inl 1) ∧
    guestCheck (withGuest 0 0 {}) 0 (gh 2) = .inl 2 ∧ (gh 0).op = 0 ∧
    (let r : GuestReq := { hdr := gh 1, ctx := 1, data := 0 }
     let s := withGuest 1 4 { reqs := [r] }
     (s.site 0).reqs = [r] ∧ r.st = .waiting ∧ fldAt s 0 R.HUB_COL_RATE_RATE 0 = 4 ∧ fldAt s 0 R.HUB_COL_RATE_BURST 0 = 1 ∧
       (s.site 0).bucket + 63 * 4 < 256 ∧ (withGuest 1 4 {} |>.site 0).reqs = []) ∧
    (let r : GuestReq := { hdr := gh 1, ctx := 1, data := 0, st := .done 0 7 }
     ((withGuest 1 0 { reqs := [r] }).site 0).reqs = [r]) := by decide +kernel

theorem witness_requests_to_a_guest :
    (let s := withGuest 1 0 {}
     dieUp s 14 = true ∧ gateAnswers (0x200000 : BitVec 28).toNat = false ∧ admitted s 0 1 = true ∧ admitted s 0 2 = false ∧
       gateAnswers (0x400000 : BitVec 28).toNat = true ∧
       dieUp (commitTrigger (regPut s 14 0x400000 64 0 0) 14 0x400000 64 0) 14 = true ∧ siteKilled s 0 = false) ∧
    (let r : GuestIn := ⟨4, 1, 0x200000, 64, none⟩
     ((withGuest 1 0 { inbound := [r] }).site 0).inbound = [r]) ∧
    (let s := setFldAt (withGuest 1 0 {}) 0 R.HUB_COL_CTL_KILLED 0 1
     dieUp s 14 = true ∧ siteKilled s 0 = true) := by decide +kernel

/-! ## Power -/

/-- A module with power, and the power controller of die `d` as `p`. -/
def withPower (d : Nat) (p : PwrDie) : State :=
  let s := withCtx up
  { s with boot := { s.boot with powered := true }, pwr := { s.pwr with dies := [(d, p)] } }

theorem witness_measurements :
    (let s := withPower 16 { dis := 49 }
     s.boot.powered = true ∧ fld s 0 R.HUB_REL_QUEUE_VALID = 0 ∧ dieUp s (groupDie 0) = true ∧ dieUp s (groupDie 20) = true ∧
       (∃ y ∈ domainOf (groupDie 20), y ≠ 20 ∧ y ∉ (s.pwrDie (groupDie 20)).got) ∧ 400 ≤ railMax 0 ∧
       fld s (groupDie 0) R.PWR_STATUS_MODE = 0 ∧ (s.pwrDie 16).g = 1 ∧ (s.pwrDie 16).dis = 49) ∧
    (∀ e ∈ [(400 : Rat), 480], (if e < 400 then (400 : Rat) - e else e - 400) ≤ (0.2 : Rat) * 400) ∧
    (0.2 : Rat) * 400 < (481 : Rat) - 400 := by decide +kernel

/-- The hub's power block locked, and a grant for epoch 5 in the slot of die 16. -/
def withGrant (p : PwrDie) : State :=
  let s := setFld (withPower 16 p) 0 R.LOCK_STATE_LOCKED 1
  { s with pwr := { s.pwr with grants := [(16, (5, 800))] } }

theorem witness_grants :
    (∀ b ∈ [false, true], let s := withGrant { ticks := [(900, b)], next := if b then some (5, 800) else none, loans := [(4, 8)], epoch := 4 }
      dieUp s 16 = true ∧ dieUp s 0 = true ∧ bitAt (fld s 0 R.LOCK_STATE_LOCKED) 0 = true ∧ (s.pwrDie 16).ticks = [(900, b)] ∧
        tget? s.pwr.grants 16 = some (5, 800) ∧ 800 + heldOf (s.pwrDie 16) < 65536 ∧ (s.pwrDie 16).epoch < 5 ∧ (s.pwrDie 16).loans = [(4, 8)] ∧
        fld s 16 R.PWR_STATUS_GRANT + heldOf (s.pwrDie 16) < 65536 ∧ (s.pwrDie 16).gotFor ≠ some 5 ∧
        (s.pwrDie 16).next = (if b then some (5, 800) else none)) ∧
    bitAt (fld (withPower 16 {}) 0 R.LOCK_STATE_LOCKED) 0 = false := by decide +kernel

/-- A die of limit 800 that may lend, with a neighbour that was limited. -/
def withLimit (p : PwrDie) (lend : Nat) : State :=
  setFld (setFld (setFld (withPower 16 p) 16 R.PWR_STATUS_LIMIT 800) 16 R.PWR_CFG_LEND_EN lend) 16 R.PWR_CFG_CEIL 300

theorem witness_lending :
    (∀ lend ∈ [0, 1], let s := withLimit { ticks := List.replicate 10 (500, false), status := [(17, true)] } lend
      dieUp s 16 = true ∧ fld s 16 R.PWR_CFG_LEND_EN = lend ∧ lendTo 16 = [31, 17] ∧ (lendTo 16).filter (dieUp s) = [31, 17] ∧
        [31, 17].find? (fun x => tget (s.pwrDie 16).status x false) = some 17 ∧ ((s.pwrDie 16).ticks.take 10).length = 10 ∧
        (∀ x ∈ (s.pwrDie 16).ticks.take 10, x.1 + 40 < fld s 16 R.PWR_STATUS_LIMIT) ∧
        fld s 16 R.PWR_STATUS_GRANT + heldOf (s.pwrDie 16) < 65536 ∧
        4 ≤ min 800 ((800 - (1.1 : Rat) * 500).floor.toNat) / 4 * 4) ∧
    (∀ k ∈ [4, 5], let s := withLimit { slots := [(17, (k, 40, false))], epoch := 5 } 0
      (s.pwrDie 16).slots = [(17, (k, 40, false))] ∧ (s.pwrDie 16).epoch = 5 ∧ 40 ≤ ceilOf s 16 - fld s 16 R.PWR_STATUS_LIMIT ∧
        fld s 16 R.PWR_STATUS_GRANT + heldOf (s.pwrDie 16) + 40 < 65536) ∧
    (let s := withLimit {} 0
     fld s 16 R.PWR_STATUS_MODE = 0 ∧ fld s 16 R.PWR_STATUS_THROTTLE = 0 ∧ (s.pwrDie 16).g = 1 ∧ fld s 16 R.PWR_STATUS_LIMIT = 800 ∧
       ramping s 16 = false ∧ (s.pwrDie 16).step = 0 ∧ 0 < maxSteps 16) := by decide +kernel

theorem witness_droop_and_heat :
    (let s := withPower 16 {}
     dieUp s (groupDie 0) = true ∧ dieUp s (groupDie 38) = true ∧ (s.pwrDie (groupDie 0)).asserting = [] ∧
       (s.pwrDie (groupDie 38)).asserting = [] ∧ stretches 0 = true ∧ stretches 38 = false) ∧
    (let s := withPower 16 { asserting := [0], droop := 1 }
     (s.pwrDie (groupDie 0)).asserting = [0] ∧ (s.pwrDie (groupDie 0)).droop = 1) ∧
    (∀ n ∈ [2, 3], ((withPower 16 { droop := n }).pwrDie 16).droop = n) ∧
    (∀ d ∈ [0, 5, 13, 16], ∀ th ∈ [0, 1], let s := setFld (withPower 16 {}) d R.PWR_STATUS_THROTTLE th
      dieUp s d = true ∧ fld s d R.PWR_STATUS_THROTTLE = th ∧ fld s 0 R.HUB_REL_QUEUE_VALID = 0) ∧
    (([96, 99, 100, 109, 110] : List (BitVec 8)).map (fun x => ([x].map (·.toNat)).foldl max 0) = [96, 99, 100, 109, 110]) ∧
    (let s := withPower 16 {}
     s.boot.powered = true ∧ s.boot.down = false ∧ fld s 0 R.HUB_REL_QUEUE_VALID = 0 ∧ s.boot.state < 3) ∧
    3 ≤ (setBootState (withPower 16 {}) 3).boot.state := by decide +kernel

/-! ## Power-on, boot and resets -/

/-- A module whose boot state is `b`. -/
def booting (b : Boot → Boot) : State := { up with boot := b up.boot }
/-- Every die passes the survey. -/
def goodSurvey : Survey := ⟨true, true, 0xFFFFFFFF, [], 0, 0xFFFF, [], []⟩
/-- An image of one REGWRITE record: STRETCH_GIB of die 6. -/
def imageBytes : List Byte :=
  List.replicate 24 0 ++ leBytes 8 (0x120 + 2 ^ 32) ++ List.replicate 224 0 ++ leBytes 8 (1 + 0x110 * 2 ^ 32) ++ leBytes 8 16
    ++ leBytes 8 (6 + R.MEM_HBM_LAYOUT_STRETCH_GIB.off * 2 ^ 8) ++ leBytes 8 1

theorem witness_start_up :
    (let s := booting fun b => { b with powered := false, vin := false }
     s.boot.powered = false ∧ s.boot.vin = false) ∧
    (let s := booting fun b => { b with powered := false }
     s.boot.powered = false ∧ s.boot.vin = true) ∧
    (up.boot.powered = true ∧ up.boot.rstLow = false ∧ up.boot.state = 0 ∧ (0 : Nat) ∈ [0, 5, 6, 7, 8, 9, 10, 13] ∧
      bitAt (0xFFFFFFFE : W32).toNat 0 = false ∧ (∀ d ∈ [0, 5, 6, 7, 8, 9, 10, 13], bitAt goodSurvey.dies.toNat d = true) ∧
      bitAt goodSurvey.dies.toNat 1 = true ∧ goodSurvey.guestBad = 0) ∧
    (∀ n ∈ [1, 2, 3], (booting fun b => { b with state := n }).boot.state = n) ∧ dieUp up 31 = true := by decide +kernel

theorem witness_boot :
    (let s := booting fun b => { b with state := 2 }
     s.boot.state = 2 ∧ bootChecked (bootSteps s) = true) ∧
    (let s := booting fun b => { b with state := 2, image := imageBytes }
     s.boot.state = 2 ∧ bootChecked (bootSteps s) = false) := by decide +kernel

/-- Die 16 in a reset as `e`. -/
def resetting (e : DieReset) : State := booting fun b => { b with image := imageBytes, resets := [(16, e)] }

theorem witness_resets :
    up.boot.powered = true ∧ dieUp up 0 = true ∧ up.boot.image = [] ∧ (recheck (resetting {})).2 = true ∧
    (∀ n ∈ [0, 1], let s := setFld up 0 R.HUB_RESET_STATUS_BUSY n
      fld s 0 R.HUB_RESET_STATUS_BUSY = n ∧ dieResetBad s 0 5 = true ∧ dieResetBad s 0 16 = false ∧ dieUp s 16 = true) ∧
    (let s := setFld up 0 R.HUB_DIE_MAP_IN_SERVICE 0xFFFF
     dieResetBad s 0 16 = false ∧ dieUp s 16 = false) ∧
    (∀ e ∈ [({ written := true } : DieReset), {}, { trip := true }, { written := true, cmd := true }],
      tget? (resetting e).boot.resets 16 = some e) ∧
    fld (resetting {}) 0 R.HUB_REL_QUEUE_VALID = 0 := by decide +kernel

/-- A security request of a kind, with its block at `a`, and a buffer of `n` pages. -/
def asking (c : BitVec 16) (kind a n : Nat) : State := booting fun b => { b with sec := some ⟨c, kind, a, n⟩ }

/-- A request's block is idle memory that reads without an error. -/
def readsBlock (s : State) (r : SecReq) : Bool :=
  isMem r.addr && isMem (r.addr + secBlock s r - 1) && rangeIdle s r.addr (secBlock s r) &&
    !(cohRead (secCheck s r r.addr (secBlock s r) false).1 r.addr (secBlock s r)).2

theorem witness_security_block_0_1_1 :
    (asking 0 1 0x10000 1).boot.powered = true ∧ (asking 0 1 0x10000 1).boot.sec = some ⟨0, 1, 0x10000, 1⟩ ∧
    readsBlock (asking 0 1 0x10000 1) ⟨0, 1, 0x10000, 1⟩ = true ∧ (secCheck (asking 0 1 0x10000 1) ⟨0, 1, 0x10000, 1⟩ 0x10000 (secBlock (asking 0 1 0x10000 1) ⟨0, 1, 0x10000, 1⟩) false).2 = true := by decide +kernel

theorem witness_security_block_0_1_2 :
    (asking 0 1 0x10000 2).boot.powered = true ∧ (asking 0 1 0x10000 2).boot.sec = some ⟨0, 1, 0x10000, 2⟩ ∧
    readsBlock (asking 0 1 0x10000 2) ⟨0, 1, 0x10000, 2⟩ = true ∧ (secCheck (asking 0 1 0x10000 2) ⟨0, 1, 0x10000, 2⟩ 0x10000 (secBlock (asking 0 1 0x10000 2) ⟨0, 1, 0x10000, 2⟩) false).2 = true := by decide +kernel

theorem witness_security_block_0_3_0 :
    (asking 0 3 0x10000 0).boot.powered = true ∧ (asking 0 3 0x10000 0).boot.sec = some ⟨0, 3, 0x10000, 0⟩ ∧
    readsBlock (asking 0 3 0x10000 0) ⟨0, 3, 0x10000, 0⟩ = true ∧ (secCheck (asking 0 3 0x10000 0) ⟨0, 3, 0x10000, 0⟩ 0x10000 (secBlock (asking 0 3 0x10000 0) ⟨0, 3, 0x10000, 0⟩) false).2 = true := by decide +kernel

theorem witness_security_block_1_1_1 :
    (asking 1 1 0x10000 1).boot.powered = true ∧ (asking 1 1 0x10000 1).boot.sec = some ⟨1, 1, 0x10000, 1⟩ ∧
    readsBlock (asking 1 1 0x10000 1) ⟨1, 1, 0x10000, 1⟩ = true ∧ (secCheck (asking 1 1 0x10000 1) ⟨1, 1, 0x10000, 1⟩ 0x10000 (secBlock (asking 1 1 0x10000 1) ⟨1, 1, 0x10000, 1⟩) false).2 = false := by decide +kernel

theorem witness_security_block_1_1_2 :
    (asking 1 1 0x10000 2).boot.powered = true ∧ (asking 1 1 0x10000 2).boot.sec = some ⟨1, 1, 0x10000, 2⟩ ∧
    readsBlock (asking 1 1 0x10000 2) ⟨1, 1, 0x10000, 2⟩ = true ∧ (secCheck (asking 1 1 0x10000 2) ⟨1, 1, 0x10000, 2⟩ 0x10000 (secBlock (asking 1 1 0x10000 2) ⟨1, 1, 0x10000, 2⟩) false).2 = false := by decide +kernel

theorem witness_security_block_1_3_0 :
    (asking 1 3 0x10000 0).boot.powered = true ∧ (asking 1 3 0x10000 0).boot.sec = some ⟨1, 3, 0x10000, 0⟩ ∧
    readsBlock (asking 1 3 0x10000 0) ⟨1, 3, 0x10000, 0⟩ = true ∧ (secCheck (asking 1 3 0x10000 0) ⟨1, 3, 0x10000, 0⟩ 0x10000 (secBlock (asking 1 3 0x10000 0) ⟨1, 3, 0x10000, 0⟩) false).2 = false := by decide +kernel

theorem witness_security_requests :
    (∀ n ∈ [0, 1], fld (setFld up 0 R.HUB_SEC_STATUS_BUSY n) 0 R.HUB_SEC_STATUS_BUSY = n) ∧ up.boot.sec = none ∧
    isMem (asking 0 1 (2 ^ 50) 1 |>.boot.sec.map (·.addr) |>.getD 0) = false ∧
    rangeIdle (asking 0 1 0x10000 2) 0 6717 = true ∧ 2 * 4096 ≤ hbmEnd := by decide +kernel

theorem length_padTo (n : Nat) (b : List Byte) : (padTo n b).length = n := by
  simp only [padTo, List.length_append, List.length_take, List.length_replicate]
  omega

theorem length_leBytes : ∀ n v : Nat, (leBytes n v).length = n
  | 0, _ => rfl
  | n + 1, v => by simp only [leBytes, List.length_cons, length_leBytes n]

/-- The report of a module with an empty log is longer than one page and not longer than two. -/
theorem witness_report_length : (attestReport (asking 0 1 0x10000 1) []).length = 6717 := by
  have h : (asking 0 1 0x10000 1).boot.pcr.length = 64 ∧ (asking 0 1 0x10000 1).boot.log = [] := by decide +kernel
  simp only [attestReport, List.length_append, length_padTo, length_leBytes, h.1, h.2, List.length_flatten,
    List.map_nil, List.sum_nil, Nat.reduceAdd]

/-! ## Reliability -/

/-- The helper of die 5. -/
def ridH : Rid := rid 8 5 0
/-- The services as `f` leaves them, 2 s after the start. -/
def withSvc (f : Service → Service) : State := { withCtx up with svc := f {}, time := 2000000000 }

theorem witness_errors :
    (∀ x ∈ [[], [(1000000000 : W64)], [1000000000, 999999999]],
      let s := withSvc fun v => { v with times := [(ridNum ridH, x)], posted := if x = [] then [] else [(ridNum ridH, 1500000000)] }
      ridUp s ridH = true ∧ fld s 0 R.HUB_REL_QUEUE_VALID = 0 ∧ s.svc.tests = [] ∧ s.svc.cairn = [] ∧ underThreshold ridH = true ∧
        ((tget s.svc.times (ridNum ridH) []).filter fun x => decide (s.time.toNat - x.toNat ≤ windowNs s)) = x ∧
        fld s 0 R.HUB_REL_THRESH_CORR_COUNT = 3 ∧
        tget? s.svc.posted (ridNum ridH) = if x = [] then none else some 1500000000) ∧
    ridH.kind = 8 ∧ isMem (0x10000 : BitVec 52).toNat = true ∧ lineRetired (withSvc id) 1024 = false := by decide +kernel

/-- Scree and Cairn as configured, with the services as `f` leaves them. -/
def withScree (h b c : Nat) (f : Service → Service) : State :=
  setFld (setFld (setFld (withSvc f) 0 R.HUB_SCREE_CFG_HBM_H h) 0 R.HUB_SCREE_CFG_BOARD_H b) 0 R.HUB_CAIRN_CFG_HBM_MIN c
/-- A pseudo-channel. -/
def ridP : Rid := rid 1 5 3

theorem witness_services :
    rebuilding (modHbm (withSvc id) 0 fun h => { h with rebuilding := 2 }) 0 1 = true ∧
    (∀ e ∈ [[], [(0 : Fin 72), 1, 2, 3, 4, 5, 6, 7, 8, 9, 10, 11]], let s := withScree 24 24 10 id
      fld s 0 R.HUB_SCREE_CFG_HBM_H ≠ 0 ∧ (stacksUp s).contains 0 = true ∧ tget s.svc.hbmDone 0 0 < stackLines ∧
        s.svc.hbmOver = false ∧ (readCodeword s 0 (stackLine s 0 0) e e).2 = (e != []) ∧ fld s 0 R.HUB_REL_QUEUE_VALID = 0) ∧
    (let s := withScree 24 24 10 id
     fld s 0 R.HUB_SCREE_CFG_BOARD_H ≠ 0 ∧ dieUp s 13 = true ∧ s.svc.boardDone + 1 < 2 ^ 35 ∧
       lineRetired s (boardBase / 64 + s.svc.boardDone) = false ∧ linePoison s (boardBase / 64 + s.svc.boardDone) = false ∧
       0 ∈ stacksUp s ∧ ridUp s ridP = true ∧ cairnPeriod s ridP ≠ 0 ∧ s.svc.cairn = [] ∧ cairnArb ridP = some (5, 67, 2)) ∧
    (withScree 24 24 10 fun v => { v with cairn := [ridNum ridP] }).svc.cairn = [ridNum ridP] := by decide +kernel

/-- A value written to HUB_SELFTEST_CMD that names a resource. -/
def testWord (r : Rid) : W64 := BitVec.ofNat 64 (ridNum r * 2 ^ 32)
/-- A self-test of the helper of die 5. -/
def testH (run : Bool) : SelfTest := { rid := ridH, now := false, running := run, cmd := true }
/-- A self-test of a tier mover. -/
def testM : SelfTest := { rid := rid 0x0C 13 2, now := false, cmd := true }

theorem witness_tests :
    (∀ n ∈ [0, 1], fld (setFld (withSvc id) 0 R.HUB_SELFTEST_STATUS_BUSY n) 0 R.HUB_SELFTEST_STATUS_BUSY = n) ∧
    (let s := withSvc id
     dieUp s 0 = true ∧ ridOk (numRid ((testWord (rid 0 0 0)).toNat / 2 ^ 32)) = false ∧
       numRid ((testWord ridH).toNat / 2 ^ 32) = ridH ∧ ridOk ridH = true ∧ ridUp s ridH = true ∧ ridH.kind ≠ 9 ∧
       ridUp (setFldAt s 5 R.UNIT_MAP_IN_SERVICE 0 0) ridH = false) ∧
    (∀ x ∈ [testH false, testM], let s := withSvc fun v => { v with tests := [x] }
      s.svc.tests = [x] ∧ x.running = false ∧ testMayStart s x = (x == testH false) ∧ fld s 0 R.HUB_REL_QUEUE_VALID = 0) ∧
    (let s := withSvc fun v => { v with tests := [testH true] }
     s.svc.tests = [testH true] ∧ (testH true).running = true ∧ (testH true).rid.kind = 8 ∧ s.svc.cairn = []) ∧
    (∀ n ∈ [0, 100], let s := setFld (withSvc id) 0 R.HUB_TEL_CFG_PERIOD_MS n
      let pa := fld s 0 R.HUB_TEL_CFG_BASE * 4096 + 256 * (1 % 2 ^ (fld s 0 R.HUB_TEL_CFG_SIZE + 8))
      fld s 0 R.HUB_TEL_CFG_PERIOD_MS = n ∧ fld s 0 R.HUB_TEL_HEAD_SEQ = 0 ∧ pa < hbmEnd ∧ rangeIdle s pa 256 = true) := by
  decide +kernel

/-! ## Power-down, management, test access port -/

theorem witness_management :
    (∀ n ∈ [2, 6], ∀ b ∈ [false, true], let s := booting fun x => { x with state := n, down := b }
      s.boot.powered = true ∧ s.boot.down = b ∧ s.boot.state = n ∧ drained s = true) ∧
    drained (withCmd (booting fun x => { x with state := 6, down := true }) (started 1 [])) = false ∧
    (∀ b ∈ [false, true], ∀ x ∈ [(0 : BitVec 3), 1], let s := booting fun y => { y with rstLow := b, straps := x }
      s.boot.powered = true ∧ s.boot.rstLow = b ∧ s.boot.straps.getLsbD 0 = (x == 1)) ∧
    spareIsB up = true := by decide +kernel

theorem witness_firmware_update : 0 + [(1 : Byte), 2, 3].length ≤ updateLimit true := by
  show 3 ≤ Config.flashRoom + 65536
  omega

/-! ## Registers -/

theorem witness_register_write :
    (withCtx up).net = [] ∧ targetCheckBy (withCtx up) 0 0 0 (windowBase + 16 * 2 ^ 28 + 0x1000008) true = (withCtx up, true) ∧
    dieUp (withCtx up) 16 = true ∧ dieUp (setFld up 0 R.HUB_DIE_MAP_IN_SERVICE 0xFFFF) 16 = false ∧
    regFind 16 0x1000008 64 = none ∧ (regFind 16 0x1000008 32).map (fun r => r.fields.any fun f => f.acc == .shd) = some false := by
  decide +kernel

/-- Writes of a tensor die's register start nothing. -/
theorem witness_quiet_write (u : State) (w v : Nat) :
    commitTrigger u 16 0x1000008 w v = u ∧ portTrigger u 16 0x1000008 w v = u ∧ cmdTrigger u 16 0x1000008 w v 0 = u := by
  refine ⟨?_, ?_, ?_⟩
  · simp only [commitTrigger]
    repeat' split <;> simp_all
  · simp only [portTrigger]
    repeat' split <;> simp_all
  · simp only [cmdTrigger]
    repeat' split <;> simp_all

theorem witness_commits :
    (let s := { up with shadow := [(regKey 0 0x100100, 200), (regKey 5 0x1600100, 0x55), (regKey 13 0x1000100, 3 * 2 ^ 48), (regKey 16 0x410000, 0x77)] }
     dieUp s 5 = true ∧ dieUp s 13 = true ∧ dieUp s 16 = true ∧ dieUp s 0 = true ∧
       tget? s.shadow (regKey 5 (0x1600100 + 4 * 0)) = some 0x55 ∧ tget? s.shadow (regKey 13 0x1000100) = some (3 * 2 ^ 48) ∧
       bits (3 * 2 ^ 48 : W64).toNat R.TIER_QUOTA_CTX.hi R.TIER_QUOTA_CTX.lo ≠ 0 ∧
       tget? s.shadow (regKey 16 (R.ARB_RANK_RANK0.off + 4 * 0)) = some 0x77 ∧ tget? s.shadow (regKey 0 0x100100) = some 200) ∧
    (∃ r ∈ regTable, r.dies.holds 0 = true ∧ r.at 0 = true ∧ r.width ≠ 64) ∧
    (∀ r ∈ regTable, r.dies.holds 0 = true → r.at 1 = false) := by decide +kernel

theorem witness_reset_memory : memWf State.reset.mem = true ∧ State.reset.pending = [] := by decide +kernel

end Sys2Proof.Tests
end

section
/-! PROOF. The small statements of chapter 01: comparison of sequence numbers (R13), write-1-to-clear fields (R5), and memory
after a cold reset (log 11). -/

namespace Sys2Proof.Machine

/-! ## Sequence numbers (R13) -/

/-- a precedes or equals b exactly when b is less than 2^31 ahead of it. -/
theorem seqReached_iff (a b : W32) : seqReached a b = true ↔ (b - a).toNat < 2 ^ 31 := decide_eq_true_iff

/-- A difference of 2^31 is its own opposite modulo 2^32. -/
theorem toNat_sub_eq_half_comm {a b : W32} (h : (b - a).toNat = 2 ^ 31) : (a - b).toNat = 2 ^ 31 := by
  bv_omega

/-- Settles O55: a difference is 0 exactly for equal numbers, and one of 2^31 is 2^31 in both directions. -/
theorem sequenceNumbersCompareModulo : Obligations.SequenceNumbersCompareModulo := by
  intro a b
  refine ⟨?_, fun half => ⟨?_, ?_⟩⟩
  · have equal : a = b ↔ (b - a).toNat = 0 := by bv_omega
    rw [seqReached_iff, equal]
    omega
  · rw [← Bool.not_eq_true, seqReached_iff, half]
    omega
  · rw [← Bool.not_eq_true, seqReached_iff, toNat_sub_eq_half_comm half]
    omega

/-! ## Write-1-to-clear fields (R5) -/

/-- Subtracting a number of n bits from 2^n - 1 inverts its n bits. -/
theorem testBit_ones_sub {n x i : Nat} (hx : x < 2 ^ n) (hi : i < n) : (2 ^ n - 1 - x).testBit i = !x.testBit i := by
  rw [Nat.sub_sub, Nat.add_comm 1 x, Nat.testBit_two_pow_sub_succ hx]
  simp [hi]

/-- Settles O54: inside the field each bit is kept by a 0, cleared by a 1 and set by hardware; `setBits` leaves the others. -/
theorem hardwareSetsWinOverWriteOneToClear : Obligations.HardwareSetsWinOverWriteOneToClear := by
  intro f lock val hw v i hacc hle
  simp only [putField, hacc, testBit_setBits _ _ _ _ _ hle]
  split
  · next inside =>
    obtain ⟨hlo, hhi⟩ := inside
    have within : i - f.lo < f.hi - f.lo + 1 := by omega
    have back : f.lo + (i - f.lo) = i := by omega
    rw [Nat.testBit_or, Nat.testBit_and, testBit_ones_sub (bits_lt _ _ _) within]
    simp only [testBit_bits, within, back, decide_true, Bool.true_and]
  · rfl

/-! ## Memory at reset (log 11) -/

/-- Settles O59: no byte is listed after a cold reset, and an unlisted byte reads 0. -/
theorem resetMemoryIsCanonical : Obligations.ResetMemoryIsCanonical := by
  have empty : State.reset.mem = [] := rfl
  simp only [Obligations.ResetMemoryIsCanonical, empty, memWf, memByte, implies_true, and_self]

end Sys2Proof.Machine
end

section
/-! PROOF. The register tables of control space share no offset (R8): at most one table holds an offset of a die, so that
`regFind` finds the table there or, at another width, none. -/

namespace Sys2Proof.Machine

/-! ## Tables that share an offset -/

/-- A table holds the offsets of its entries alone. -/
theorem RegSpec.at_entry {r : RegSpec} {off : Nat} (h : r.at off = true) :
    ∃ k < r.count, off = r.off + r.stride * k := by
  unfold RegSpec.at at h
  split at h
  · next one => exact ⟨0, by omega, by simpa using h⟩
  · simp only [Bool.and_eq_true, decide_eq_true_eq, beq_iff_eq] at h
    obtain ⟨⟨above, aligned⟩, below⟩ := h
    have := Nat.div_add_mod (off - r.off) r.stride
    exact ⟨_, below, by omega⟩

/-- An entry of an array is at its offset. -/
theorem RegSpec.at_of_entry (r : RegSpec) {n : Nat} (hs : 0 < r.stride) (hc : r.count ≠ 1) (hn : n < r.count) :
    r.at (r.off + r.stride * n) = true := by
  simp [RegSpec.at, hc, Nat.mul_div_cancel_left _ hs, hn]

/-- Die 16 stands for every tensor die: no die set tells them apart. -/
theorem DieSet.holds_min (d : DieSet) (die : Nat) : d.holds (min die 16) = d.holds die := by
  rw [Bool.eq_iff_iff]
  cases d <;> simp only [DieSet.holds, Bool.and_eq_true, Bool.or_eq_true, decide_eq_true_eq, beq_iff_eq] <;> omega

/-- Do two tables share an offset of a die? Dies 0 to 16 stand for all. -/
def RegSpec.meets (r q : RegSpec) : Bool :=
  (List.range 17).any (fun d => r.dies.holds d && q.dies.holds d) &&
    (List.range r.count).any fun k => q.at (r.off + r.stride * k)

/-- Two tables that hold an offset of a die share it. -/
theorem RegSpec.meets_of_at {r q : RegSpec} {die off : Nat} (hr : r.dies.holds die = true) (ar : r.at off = true)
    (hq : q.dies.holds die = true) (aq : q.at off = true) : r.meets q = true := by
  obtain ⟨k, hk, rfl⟩ := RegSpec.at_entry ar
  simp only [RegSpec.meets, Bool.and_eq_true, List.any_eq_true, List.mem_range]
  exact ⟨⟨min die 16, by omega, by rwa [DieSet.holds_min], by rwa [DieSet.holds_min]⟩, k, hk, aq⟩

/-- No two register tables of the manual share an offset of a die. -/
theorem regTable_pairwise : regTable.Pairwise fun r q => r.meets q = false := by decide +kernel

/-- If both tables hold an offset of a die, they are one table. -/
def RegSpec.SameWhereBoth (die off : Nat) (r q : RegSpec) : Prop :=
  r.dies.holds die = true ∧ r.at off = true → q.dies.holds die = true ∧ q.at off = true → r = q

/-- Tables that share no offset do not both hold this one. -/
theorem RegSpec.sameWhereBoth_of_not_meets {r q : RegSpec} (die off : Nat) (h : r.meets q = false) :
    r.SameWhereBoth die off q := by
  intro ⟨hr, ar⟩ ⟨hq, aq⟩
  simp [RegSpec.meets_of_at hr ar hq aq] at h

/-- One table at most holds an offset of a die. -/
theorem regTable_unique {r q : RegSpec} {die off : Nat} (mr : r ∈ regTable) (hr : r.dies.holds die = true)
    (ar : r.at off = true) (mq : q ∈ regTable) (hq : q.dies.holds die = true) (aq : q.at off = true) : r = q := by
  have forward : regTable.Pairwise (RegSpec.SameWhereBoth die off) :=
    regTable_pairwise.imp fun h => RegSpec.sameWhereBoth_of_not_meets die off h
  have backward : regTable.Pairwise (flip (RegSpec.SameWhereBoth die off)) :=
    forward.imp fun h hq hr => (h hr hq).symm
  exact forward.forall_of_forall_of_flip (fun _ _ _ _ => rfl) backward mr mq ⟨hr, ar⟩ ⟨hq, aq⟩

/-! ## Finding a table -/

/-- What `regFind` finds is the table that holds the offset, at the width. -/
theorem regFind_some {die off w : Nat} {r : RegSpec} (h : regFind die off w = some r) :
    r ∈ regTable ∧ r.dies.holds die = true ∧ r.width = w ∧ r.at off = true := by
  have found := List.find?_some h
  simp only [Bool.and_eq_true, beq_iff_eq] at found
  obtain ⟨⟨holds, width⟩, here⟩ := found
  exact ⟨List.mem_of_find?_eq_some h, holds, width, here⟩

/-- A table is found at each of its offsets, at its width. -/
theorem regFind_of_mem {die off : Nat} {r : RegSpec} (hm : r ∈ regTable) (hd : r.dies.holds die = true)
    (ha : r.at off = true) : regFind die off r.width = some r := by
  cases found : regFind die off r.width with
  | none =>
    have := List.find?_eq_none.mp found r hm
    simp [hd, ha] at this
  | some q =>
    obtain ⟨mq, hq, -, aq⟩ := regFind_some found
    rw [regTable_unique hm hd ha mq hq aq]

/-- At another width than its table's an offset has no table. -/
theorem regFind_other_width {die off w : Nat} {r : RegSpec} (hm : r ∈ regTable) (hd : r.dies.holds die = true)
    (ha : r.at off = true) (hw : r.width ≠ w) : regFind die off w = none := by
  refine Option.eq_none_iff_forall_ne_some.mpr fun q found => ?_
  obtain ⟨mq, hq, wq, aq⟩ := regFind_some found
  exact hw (by rw [regTable_unique hm hd ha mq hq aq, wq])

/-- An offset that no table of the die holds has no table. -/
theorem regFind_no_table {die off : Nat} (w : Nat) (h : ∀ r ∈ regTable, r.dies.holds die = true → r.at off = false) :
    regFind die off w = none := by
  refine Option.eq_none_iff_forall_ne_some.mpr fun q found => ?_
  obtain ⟨mq, hq, -, aq⟩ := regFind_some found
  simp [h q mq hq] at aq

/-! ## Accesses that reach no register (R8) -/

/-- Where no table is found a read answers 0. -/
theorem regRead_of_none (s : State) {die off w : Nat} (h : regFind die off w = none) : regRead s die off w = 0 := by
  simp only [regRead, h, ite_self]

/-- Where no table is found, or on a die out of service, a write changes nothing. -/
theorem regPut_of_none (s : State) {die off w : Nat} (val hw : Nat) (h : dieUp s die = false ∨ regFind die off w = none) :
    regPut s die off w val hw = s := by
  rcases h with h | h <;> simp [regPut, h]

/-- Settles O53: no table is found at a width other than that of the one table there, nor where no table holds the
offset. -/
theorem registersAnswerOnlyAtTheirWidth : Obligations.RegistersAnswerOnlyAtTheirWidth := by
  intro s die off w v hw
  have silent (h : regFind die off w = none) : regRead s die off w = 0 ∧ regPut s die off w v hw = s :=
    ⟨regRead_of_none s h, regPut_of_none s v hw (.inr h)⟩
  exact ⟨fun _ mr hr ar width => silent (regFind_other_width mr hr ar width), fun absent => silent (regFind_no_table w absent)⟩

end Sys2Proof.Machine
end

section
/-! PROOF. Writes of registers by access type and commits of shadow values (R4 to R6, R8, R267, with R303, R317, R420 and
R441). -/

namespace Sys2Proof.Machine

/-! ## Frames -/

theorem OnlyRegs.refl (s : State) : OnlyRegs s s := rfl

theorem OnlyRegs.trans {s t u : State} (h : OnlyRegs s t) (h' : OnlyRegs t u) : OnlyRegs s u := by
  unfold OnlyRegs at *
  rw [h', h]

/-- A list of operations that each change registers alone changes registers alone. -/
theorem OnlyRegs.foldl {α : Type} (f : State → α → State) (hf : ∀ s a, OnlyRegs s (f s a)) :
    ∀ (l : List α) (s : State), OnlyRegs s (l.foldl f s)
  | [], s => .refl s
  | a :: l, s => (hf s a).trans (OnlyRegs.foldl f hf l (f s a))

theorem OnlyRegs.shadow {s t : State} (h : OnlyRegs s t) : t.shadow = s.shadow := by rw [h]

theorem OnlyRegs.sameMemory {s t : State} (h : OnlyRegs s t) : SameMemory s t := by
  rw [h]; exact ⟨fun _ => rfl, rfl⟩

/-! ## Values of registers -/

/-- A register that the table of registers lists reads as listed. -/
theorem regRaw_of_tget? {s : State} {die off : Nat} {v : W64} (cold : Nat) (h : tget? s.regs (regKey die off) = some v) :
    regRaw s die off cold = v := by simp only [regRaw, h]

/-- A register reads as before where its entry is as before. -/
theorem regRaw_congr {s t : State} {die off : Nat} (cold : Nat) (h : OnlyRegs s t)
    (hk : tget? t.regs (regKey die off) = tget? s.regs (regKey die off)) : regRaw t die off cold = regRaw s die off cold := by
  have hb : t.boot = s.boot := by rw [h]
  simp only [regRaw, hk, hb]

/-- A field of another register of the die is as before. -/
theorem fld_setFld_of_off_ne (s : State) (die x : Nat) {f g : FRef} (h : g.off ≠ f.off) :
    fld (setFld s die f x) die g = fld s die g :=
  fldAt_setFldAt_reg _ _ _ _ _ _ _ _ (by simpa [regKey] using h)

/-- A field in other bits of the same register is as before. -/
theorem fld_setFld_of_bits_apart (s : State) (die x : Nat) {f g : FRef}
    (h : g.off = f.off ∧ g.cold = f.cold ∧ f.lo ≤ f.hi ∧ f.hi < 64 ∧ g.lo ≤ g.hi ∧ (g.hi < f.lo ∨ f.hi < g.lo)) :
    fld (setFld s die f x) die g = fld s die g := by
  obtain ⟨off, cold, ordered, width, ordered', apart⟩ := h
  exact fldAt_setFldAt_bits _ _ _ _ _ _ _ (by simpa using off) cold ordered width ordered' apart

/-- Two words agree in a field whose bits agree. -/
theorem bits_congr {v w hi lo : Nat} (hle : lo ≤ hi) (h : ∀ i, lo ≤ i → i ≤ hi → v.testBit i = w.testBit i) :
    bits v hi lo = bits w hi lo := by
  refine Nat.eq_of_testBit_eq fun i => ?_
  rw [testBit_bits, testBit_bits]
  by_cases hi' : i < hi - lo + 1
  · rw [h (lo + i) (by omega) (by omega)]
  · simp [hi']

/-! ## Writes that start nothing (R4, R5, R8) -/

/-- A write to a register with no SHD field stores the fields by their access types, clamped, and nothing else. -/
theorem regPut_spec {s : State} {die off w : Nat} {r : RegSpec} (val hw : Nat) (hup : dieUp s die = true)
    (hf : regFind die off w = some r) (hshd : r.fields.any (fun f => f.acc == .shd) = false) :
    OnlyRegs s (regPut s die off w val hw) ∧
      regRaw (regPut s die off w val hw) die off r.cold = BitVec.ofNat 64 (clampReg r
        (r.fields.foldl (putField (lockedAt s die off) val hw) (regRaw s die off r.cold).toNat)) ∧
      ∀ k, k ≠ regKey die off → tget? (regPut s die off w val hw).regs k = tget? s.regs k := by
  simp only [regPut, hup, hf, hshd, if_true, Bool.false_eq_true, if_false]
  split
  · next same => exact ⟨.refl s, by rw [same, BitVec.ofNat_toNat, BitVec.setWidth_eq], fun _ _ => rfl⟩
  · exact ⟨rfl, regRaw_of_tget? _ (tget?_tset_self _ _ _), fun k hk => tget?_tset_ne _ _ hk⟩

/-- A write from inside the package that its target lets through, outside the guest sites, is performed with what it
starts. -/
theorem registerWrite_granted {s : State} {die off : Nat} (w : Nat) (v hw : W64) (hnet : s.net = [])
    (hdie : die < 14 ∨ 16 ≤ die) (hok : targetCheckBy s 0 0 0 (windowBase + die * 2 ^ 28 + off) true = (s, true)) :
    registerWrite s die off w v hw 0 =
      cmdTrigger (portTrigger (commitTrigger (regPut s die off w v.toNat hw.toNat) die off w v.toNat) die off w v.toNat)
        die off w v.toNat 0 := by
  have hsite : ¬ (die = 14 ∨ die = 15) := by omega
  have hsrc : writeSrc s die off w v 0 = none := by rw [writeSrc, hnet]; rfl
  simp only [registerWrite, hsrc, hok, if_true, regWriteFull, if_neg hsite]

/-! ## Commits (R6) -/

/-- Is the bit one of a SHD field? -/
def FieldSpec.shadows (f : FieldSpec) (i : Nat) : Bool := f.acc == .shd && decide (f.lo ≤ i ∧ i ≤ f.hi)

/-- Does a SHD field of the register hold the bit? -/
def RegSpec.shadows (r : RegSpec) (i : Nat) : Bool := r.fields.any (·.shadows i)

/-- What a commit does to one field. -/
def commitField (sh v : Nat) (f : FieldSpec) : Nat :=
  if f.acc == .shd then setBits v f.hi f.lo (bits sh f.hi f.lo) else v

theorem testBit_commitField (sh v i : Nat) (f : FieldSpec) (h : f.lo ≤ f.hi) :
    (commitField sh v f).testBit i = if f.shadows i then sh.testBit i else v.testBit i := by
  unfold commitField FieldSpec.shadows
  by_cases hs : (f.acc == .shd) = true
  · simp only [hs, if_true, testBit_setBits _ _ _ _ _ h, testBit_bits, Bool.true_and, decide_eq_true_eq]
    split
    · next hin =>
      have back : f.lo + (i - f.lo) = i := by omega
      have within : i - f.lo < f.hi - f.lo + 1 := by omega
      simp only [back, within, decide_true, Bool.true_and]
    · rfl
  · simp [hs]

/-- Over all fields a commit takes the bits of the SHD fields from the shadow value and keeps the others. -/
theorem testBit_foldl_commitField (sh i : Nat) (fs : List FieldSpec) (ordered : ∀ f ∈ fs, f.lo ≤ f.hi) : ∀ v : Nat,
    (fs.foldl (commitField sh) v).testBit i = if fs.any (·.shadows i) then sh.testBit i else v.testBit i := by
  induction fs with
  | nil => intro v; rfl
  | cons f fs ih =>
    intro v
    rw [List.foldl_cons, ih (fun g hg => ordered g (List.mem_cons_of_mem _ hg)),
      testBit_commitField _ _ _ _ (ordered f List.mem_cons_self), List.any_cons]
    cases f.shadows i <;> simp

/-- The bits of every field of the manual are given from the high to the low one. -/
theorem regTable_fields_ordered : ∀ r ∈ regTable, ∀ f ∈ r.fields, f.lo ≤ f.hi := by decide +kernel

/-- A commit puts one entry into the register table, or does nothing. -/
theorem commitReg_eq (s : State) (die off w : Nat) :
    commitReg s die off w = s ∨ ∃ v, commitReg s die off w = { s with regs := tset s.regs (regKey die off) v } := by
  unfold commitReg
  split
  · exact .inr ⟨_, rfl⟩
  · exact .inl rfl

theorem commitReg_onlyRegs (s : State) (die off w : Nat) : OnlyRegs s (commitReg s die off w) := by
  rcases commitReg_eq s die off w with h | ⟨v, h⟩ <;> rw [h] <;> rfl

/-- A commit of one register leaves every other one as it is. -/
theorem tget?_commitReg_ne (s : State) {die off k : Nat} (w : Nat) (h : k ≠ regKey die off) :
    tget? (commitReg s die off w).regs k = tget? s.regs k := by
  rcases commitReg_eq s die off w with e | ⟨v, e⟩ <;> rw [e]
  exact tget?_tset_ne _ _ h

/-- A register whose shadow value was written holds it once committed. -/
theorem tget?_commitReg_self {s : State} {die off w : Nat} {r : RegSpec} {sh : W64} (hf : regFind die off w = some r)
    (hs : tget? s.shadow (regKey die off) = some sh) :
    tget? (commitReg s die off w).regs (regKey die off) =
      some (BitVec.ofNat 64 (r.fields.foldl (commitField sh.toNat) (regRaw s die off r.cold).toNat)) := by
  simp only [commitReg, hf, hs, tget?_tset_self]
  rfl

/-- The shadow value of a register, where one was written, is in effect: its SHD fields read as the shadow does. -/
def InEffect (s : State) (die off : Nat) (r : RegSpec) : Prop :=
  ∀ sh, tget? s.shadow (regKey die off) = some sh → ∀ cold i, r.shadows i = true →
    (regRaw s die off cold).toNat.testBit i = sh.toNat.testBit i

theorem inEffect_commitReg_self {die off w : Nat} {r : RegSpec} (s : State) (hf : regFind die off w = some r) :
    InEffect (commitReg s die off w) die off r := by
  intro sh hs cold i hi
  rw [(commitReg_onlyRegs s die off w).shadow] at hs
  rw [RegSpec.shadows] at hi
  rw [regRaw_of_tget? cold (tget?_commitReg_self hf hs), BitVec.toNat_ofNat, Nat.testBit_mod_two_pow,
    testBit_foldl_commitField _ _ _ (regTable_fields_ordered r (regFind_some hf).1), if_pos hi]
  by_cases h64 : i < 64
  · simp [h64]
  · simp [h64, Nat.testBit_lt_two_pow (lt_of_lt_of_le sh.isLt (Nat.pow_le_pow_right (by omega) (not_lt.mp h64)))]

/-- A commit of any register of the die keeps what is in effect. -/
theorem inEffect_commitReg {s : State} {die off w : Nat} {r : RegSpec} (h : InEffect s die off r)
    (hf : regFind die off w = some r) (off' : Nat) : InEffect (commitReg s die off' w) die off r := by
  by_cases same : off' = off
  · rw [same]; exact inEffect_commitReg_self s hf
  · have hk : regKey die off ≠ regKey die off' := by simp only [regKey]; omega
    have only := commitReg_onlyRegs s die off' w
    intro sh hs cold i hi
    rw [only.shadow] at hs
    rw [regRaw_congr cold only (tget?_commitReg_ne s w hk)]
    exact h sh hs cold i hi

theorem InEffect.foldl_commitReg {α : Type} {die off w : Nat} {r : RegSpec} (hf : regFind die off w = some r) (g : α → Nat) :
    ∀ (l : List α) {s : State}, InEffect s die off r → InEffect (l.foldl (fun s a => commitReg s die (g a) w) s) die off r
  | [], _, h => h
  | a :: l, _, h => InEffect.foldl_commitReg hf g l (inEffect_commitReg h hf (g a))

/-- After commits of several registers of a die the shadow value of each is in effect. -/
theorem inEffect_foldl_commitReg {α : Type} {die w : Nat} {r : RegSpec} (g : α → Nat) (l : List α) (s : State) {a : α}
    (ha : a ∈ l) (hf : regFind die (g a) w = some r) :
    InEffect (l.foldl (fun s a => commitReg s die (g a) w) s) die (g a) r := by
  obtain ⟨before, after, rfl⟩ := List.append_of_mem ha
  rw [List.foldl_append, List.foldl_cons]
  exact InEffect.foldl_commitReg hf g after (inEffect_commitReg_self _ hf)

/-- A field that lies within SHD fields reads as the shadow value's. -/
theorem InEffect.bits_eq {s : State} {die off : Nat} {r : RegSpec} {sh : W64} (h : InEffect s die off r)
    (hs : tget? s.shadow (regKey die off) = some sh) (cold : Nat) {hi lo : Nat} (hle : lo ≤ hi)
    (within : ∀ i, lo ≤ i → i ≤ hi → r.shadows i = true) : bits (regRaw s die off cold).toNat hi lo = bits sh.toNat hi lo :=
  bits_congr hle fun i h1 h2 => h sh hs cold i (within i h1 h2)

/-! ## PART_COMMIT (R303) -/

/-- Table MEM_PART_RATE of chapter 10. -/
def partRateSpec : RegSpec :=
  ⟨"MEM_PART_RATE", .memory, 0x1600100, 4, 64, 32, 0x40, [⟨31, 31, .shd, true⟩, ⟨30, 16, .shd, true⟩, ⟨15, 0, .shd, true⟩]⟩

theorem regFind_partRate {die n : Nat} (hd : 5 ≤ die ∧ die ≤ 10) (hn : n < 64) :
    regFind die (0x1600100 + 4 * n) 32 = some partRateSpec :=
  regFind_of_mem (r := partRateSpec) (by decide +kernel) (by simpa [partRateSpec, DieSet.holds] using hd)
    (partRateSpec.at_of_entry (by decide) (by decide) hn)

theorem partRateSpec_shadows : ∀ i < 32, partRateSpec.shadows i = true := by decide

/-- The commits of a memory die's 64 partition rates. -/
def commitRates (s : State) (md : Nat) : State :=
  (List.range 64).foldl (fun s n => commitReg s (5 + md) (0x1600100 + 4 * n) 32) s

theorem partCommit_eq {s : State} {md : Nat} (hup : dieUp s (5 + md) = true) :
    partCommit s md = modTiers (commitRates (fillBuckets s md) md) fun t => { t with hbm := tmod t.hbm md {} fun h => { h with
      bucket := h.bucket.map fun b => (b.1, min b.2 (bucketCap (commitRates (fillBuckets s md) md) md b.1)) } } := by
  simp only [partCommit, hup, Bool.not_true, Bool.false_eq_true, if_false]
  rfl

theorem commitRates_onlyRegs (s : State) (md : Nat) : OnlyRegs s (commitRates s md) :=
  OnlyRegs.foldl _ (fun _ _ => commitReg_onlyRegs _ _ _ _) _ _

theorem inEffect_commitRates (s : State) {md n : Nat} (hmd : md < 6) (hn : n < 64) :
    InEffect (commitRates s md) (5 + md) (0x1600100 + 4 * n) partRateSpec :=
  inEffect_foldl_commitReg (fun n => 0x1600100 + 4 * n) (List.range 64) s (List.mem_range.mpr hn)
    (regFind_partRate (by omega) hn)

/-- PART_COMMIT puts every rate of the die into effect and cuts its buckets to their new BURST. -/
theorem partCommit_spec {s : State} {md : Nat} (hmd : md < 6) (hup : dieUp s (5 + md) = true) :
    SameMemory s (partCommit s md) ∧ (partCommit s md).shadow = s.shadow ∧
      (∀ n, n < 64 → ∀ v, tget? s.shadow (regKey (5 + md) (0x1600100 + 4 * n)) = some v →
        bits (regRaw (partCommit s md) (5 + md) (0x1600100 + 4 * n) 0x40).toNat 31 0 = bits v.toNat 31 0) ∧
      (∀ n, n < 64 → tget (tget (partCommit s md).tiers.hbm md {}).bucket n 0 ≤ bucketCap (partCommit s md) md n) := by
  have only := commitRates_onlyRegs (fillBuckets s md) md
  have shadow : (commitRates (fillBuckets s md) md).shadow = s.shadow := only.shadow
  rw [partCommit_eq hup]
  refine ⟨only.sameMemory, shadow, fun n hn v hv => ?_, fun n _ => ?_⟩
  · have effect := inEffect_commitRates (fillBuckets s md) hmd hn
    exact effect.bits_eq (by rwa [shadow]) 0x40 (by omega) fun i _ hi => partRateSpec_shadows i (by omega)
  · simp only [modTiers_tiers, tget_tmod_self]
    rw [tget, tget?_map _ fun k x => min x (bucketCap (commitRates (fillBuckets s md) md) md k)]
    cases tget? (tget (commitRates (fillBuckets s md) md).tiers.hbm md {}).bucket n with
    | none => exact Nat.zero_le _
    | some x => exact Nat.min_le_right _ _

/-! ## QUOTA_COMMIT (R317) -/

/-- Table TIER_QUOTA of chapter 10. -/
def tierQuotaSpec : RegSpec := ⟨"TIER_QUOTA", .tier, 0x1000100, 0, 1, 64, 0x0,
  [⟨63, 48, .shd, true⟩, ⟨47, 33, .shd, true⟩, ⟨32, 18, .shd, true⟩, ⟨17, 0, .shd, true⟩]⟩

theorem regFind_tierQuota : regFind 13 0x1000100 64 = some tierQuotaSpec := by decide +kernel

theorem tierQuotaSpec_shadows : ∀ i < 64, tierQuotaSpec.shadows i = true := by decide

/-- The quota register takes its whole shadow value. -/
theorem regRaw_commit_quota {s : State} {v : W64} (hv : tget? s.shadow (regKey 13 0x1000100) = some v) (cold : Nat) :
    regRaw (commitReg s 13 0x1000100 64) 13 0x1000100 cold = v := by
  have effect := inEffect_commitReg_self s regFind_tierQuota
  refine BitVec.eq_of_getLsbD_eq fun i hi => ?_
  exact effect v (by rwa [(commitReg_onlyRegs _ _ _ _).shadow]) cold i (tierQuotaSpec_shadows i hi)

/-- A context's quota is replaced; context 0 has none. -/
theorem quotaCommit_spec (s : State) :
    quotaCommit s = { s with tiers := (quotaCommit s).tiers } ∧
      (fld s 13 R.TIER_QUOTA_CTX ≠ 0 → (tget? (quotaCommit s).tiers.quotas (fld s 13 R.TIER_QUOTA_CTX)).isSome ∧
        ∀ k, k ≠ fld s 13 R.TIER_QUOTA_CTX → tget? (quotaCommit s).tiers.quotas k = tget? s.tiers.quotas k) := by
  simp only [quotaCommit]
  split
  · next zero => exact ⟨rfl, fun h => absurd zero h⟩
  · refine ⟨rfl, fun _ => ⟨?_, fun k hk => ?_⟩⟩
    · simp only [modTiers_tiers, tget?_tset_self, Option.isSome_some]
    · simp only [modTiers_tiers, tget?_tset_ne _ _ hk]

theorem quotaCommitWrite_spec {s : State} {v : W64} (hup : dieUp s 13 = true)
    (hv : tget? s.shadow (regKey 13 0x1000100) = some v) :
    SameMemory s (quotaCommitWrite s) ∧ (quotaCommitWrite s).shadow = s.shadow ∧
      regRaw (quotaCommitWrite s) 13 0x1000100 0 = v ∧
      (bits v.toNat R.TIER_QUOTA_CTX.hi R.TIER_QUOTA_CTX.lo ≠ 0 →
        (tget? (quotaCommitWrite s).tiers.quotas (bits v.toNat R.TIER_QUOTA_CTX.hi R.TIER_QUOTA_CTX.lo)).isSome ∧
        ∀ k, k ≠ bits v.toNat R.TIER_QUOTA_CTX.hi R.TIER_QUOTA_CTX.lo →
          tget? (quotaCommitWrite s).tiers.quotas k = tget? s.tiers.quotas k) := by
  have only := commitReg_onlyRegs s 13 0x1000100 64
  have tiers : (commitReg s 13 0x1000100 64).tiers = s.tiers := by rw [only]
  have ctx : fld (commitReg s 13 0x1000100 64) 13 R.TIER_QUOTA_CTX = bits v.toNat R.TIER_QUOTA_CTX.hi R.TIER_QUOTA_CTX.lo :=
    congrArg (fun w : W64 => bits w.toNat R.TIER_QUOTA_CTX.hi R.TIER_QUOTA_CTX.lo) (regRaw_commit_quota hv _)
  obtain ⟨frame, quotas⟩ := quotaCommit_spec (commitReg s 13 0x1000100 64)
  rw [ctx, tiers] at quotas
  rw [quotaCommitWrite, if_pos hup]
  refine ⟨?_, ?_, ?_, quotas⟩
  · rw [frame]; exact only.sameMemory
  · rw [frame]; exact only.shadow
  · rw [frame]; exact regRaw_commit_quota hv 0

/-! ## ARB_COMMIT (R420) -/

/-- Table ARB_RANK of chapter 14. -/
def arbRankSpec : RegSpec := ⟨"ARB_RANK", .every, 0x410000, 4, 193, 32, 0x0,
  [⟨2, 0, .shd, true⟩, ⟨6, 4, .shd, true⟩, ⟨10, 8, .shd, true⟩, ⟨14, 12, .shd, true⟩, ⟨18, 16, .shd, true⟩,
    ⟨22, 20, .shd, true⟩, ⟨26, 24, .shd, true⟩, ⟨30, 28, .shd, true⟩]⟩

theorem regFind_arbRank (die : Nat) {a : Nat} (ha : a < 193) : regFind die (0x410000 + 4 * a) 32 = some arbRankSpec :=
  regFind_of_mem (r := arbRankSpec) (by decide +kernel) rfl (arbRankSpec.at_of_entry (by decide) (by decide) ha)

/-- Each of the eight RANK fields is a SHD field. -/
theorem arbRankSpec_shadows : ∀ i < 8, ∀ j < 3, arbRankSpec.shadows (4 * i + j) = true := by decide

/-- The keys of a die's shadow ranks. -/
def rankKeys (s : State) (die : Nat) : List Nat :=
  (tkeys s.shadow).filter fun k => k / 2 ^ 28 == die && 0x410000 ≤ k % 2 ^ 28 && k % 2 ^ 28 < 0x410304

theorem arbCommit_eq {s : State} {die : Nat} (hup : dieUp s die = true) :
    arbCommit s die = (rankKeys s die).foldl (fun s k => commitReg s die (k % 2 ^ 28) 32) s := by
  rw [arbCommit, if_pos hup]; rfl

theorem mem_tkeys_of_tget? {α : Type} {t : Tbl α} {k : Nat} {v : α} (h : tget? t k = some v) : k ∈ tkeys t := by
  induction t with
  | nil => simp at h
  | cons e t ih =>
    obtain ⟨k', w⟩ := e
    by_cases hk : k' = k
    · simp [tkeys, hk]
    · simp only [tget?, if_neg hk] at h
      exact List.mem_cons_of_mem _ (ih h)

/-- The offset of a key. -/
theorem regKey_mod {die off : Nat} (h : off < 2 ^ 28) : regKey die off % 2 ^ 28 = off := by
  simp only [regKey]; omega

theorem mem_rankKeys {s : State} {die a : Nat} {v : W64} (ha : a < 193)
    (hv : tget? s.shadow (regKey die (0x410000 + 4 * a)) = some v) : regKey die (0x410000 + 4 * a) ∈ rankKeys s die := by
  have off := regKey_mod (die := die) (off := 0x410000 + 4 * a) (by omega)
  have hdie : regKey die (0x410000 + 4 * a) / 2 ^ 28 = die := by simp only [regKey]; omega
  refine List.mem_filter.mpr ⟨mem_tkeys_of_tget? hv, ?_⟩
  simp only [off, hdie, beq_self_eq_true, Bool.true_and, Bool.and_eq_true, decide_eq_true_eq]
  omega

theorem arbCommit_onlyRegs {s : State} {die : Nat} (hup : dieUp s die = true) : OnlyRegs s (arbCommit s die) := by
  rw [arbCommit_eq hup]
  exact OnlyRegs.foldl _ (fun _ _ => commitReg_onlyRegs _ _ _ _) _ _

/-- ARB_COMMIT: each arbiter's ranks are those of its shadow value. -/
theorem inputRank_arbCommit {s : State} {die a i : Nat} {v : W64} (hup : dieUp s die = true) (ha : a < 193) (hi : i < 8)
    (hv : tget? s.shadow (regKey die (R.ARB_RANK_RANK0.off + 4 * a)) = some v) :
    inputRank (arbCommit s die) die a i = bits v.toNat (4 * i + 2) (4 * i) := by
  have off := regKey_mod (die := die) (off := 0x410000 + 4 * a) (by omega)
  have effect : InEffect (arbCommit s die) die (0x410000 + 4 * a) arbRankSpec := by
    have := inEffect_foldl_commitReg (die := die) (w := 32) (r := arbRankSpec) (fun k => k % 2 ^ 28) (rankKeys s die) s
      (mem_rankKeys ha hv) (by rw [off]; exact regFind_arbRank die ha)
    rwa [off, ← arbCommit_eq hup] at this
  refine effect.bits_eq (by rwa [(arbCommit_onlyRegs hup).shadow]) _ (by omega) fun b hlo hhi => ?_
  have := arbRankSpec_shadows i hi (b - 4 * i) (by omega)
  rwa [Nat.add_sub_cancel' hlo] at this

/-! ## TREELINE_COMMIT (R441) -/

/-- Table HUB_TREELINE_CAP of chapter 15. -/
def treelineCapSpec : RegSpec := ⟨"HUB_TREELINE_CAP", .hub, 0x100100, 0, 1, 32, 0x78, [⟨8, 0, .shd, true⟩]⟩

theorem regFind_treelineCap : regFind 0 0x100100 32 = some treelineCapSpec := by decide +kernel

theorem treelineCapSpec_shadows : ∀ i ≤ 8, treelineCapSpec.shadows i = true := by decide

/-- The effective cap rests on CAP, INLET and what the rails measured. -/
theorem effCap_congr {s t : State} (hp : t.pwr = s.pwr) (hc : fld t 0 R.HUB_TREELINE_CAP_CAP = fld s 0 R.HUB_TREELINE_CAP_CAP)
    (hi : fld t 0 R.HUB_PWR_STATE_INLET = fld s 0 R.HUB_PWR_STATE_INLET) : effCap t = effCap s := by
  unfold effCap coolantLimit tlmFailed
  rw [hp, hc, hi]

/-- The effective cap is at most CAP, in units of 25 W, which EFF_CAP has bits for. -/
theorem effCap_units_lt (s : State) : (effCap s / 25).floor.toNat < 2 ^ 9 := by
  have cap : fld s 0 R.HUB_TREELINE_CAP_CAP < 2 ^ 9 := bits_lt _ _ _
  have below : effCap s ≤ (25 * fld s 0 R.HUB_TREELINE_CAP_CAP : Nat) := (min_le_left _ _).trans (min_le_left _ _)
  have units : effCap s / 25 < ((2 ^ 9 : Int) : Rat) := by
    have : (fld s 0 R.HUB_TREELINE_CAP_CAP : Rat) < 2 ^ 9 := by exact_mod_cast cap
    push_cast at below ⊢
    linarith
  have floor : ⌊effCap s / 25⌋ < 2 ^ 9 := Int.floor_lt.mpr units
  rw [show (effCap s / 25).floor = ⌊effCap s / 25⌋ from rfl]
  omega

/-- The report of the effective cap changes registers alone. -/
theorem setInput_onlyRegs (s : State) : OnlyRegs s (setInput s) := rfl

/-- CAP is in a register that the report does not set. -/
theorem fld_setInput_cap (s : State) : fld (setInput s) 0 R.HUB_TREELINE_CAP_CAP = fld s 0 R.HUB_TREELINE_CAP_CAP := by
  simp only [setInput]
  rw [fld_setFld_of_off_ne _ _ _ (by decide), fld_setFld_of_off_ne _ _ _ (by decide), fld_setFld_of_off_ne _ _ _ (by decide)]

/-- INLET is in the register of TLM_FAIL and EFF_CAP, in bits apart from both. -/
theorem fld_setInput_inlet (s : State) : fld (setInput s) 0 R.HUB_PWR_STATE_INLET = fld s 0 R.HUB_PWR_STATE_INLET := by
  simp only [setInput]
  rw [fld_setFld_of_off_ne _ _ _ (by decide), fld_setFld_of_bits_apart _ _ _ (by decide),
    fld_setFld_of_bits_apart _ _ _ (by decide)]

/-- The effective cap does not rest on the report of failed telemetry. -/
theorem effCap_setTlmFail (s : State) (x : Nat) : effCap (setFld s 0 R.HUB_PWR_STATE_TLM_FAIL x) = effCap s :=
  effCap_congr rfl (fld_setFld_of_off_ne _ _ _ (by decide)) (fld_setFld_of_bits_apart _ _ _ (by decide))

/-- EFF_CAP reports the effective cap in units of 25 W. -/
theorem fld_setInput_effCap (s : State) :
    fld (setInput s) 0 R.HUB_PWR_STATE_EFF_CAP = (effCap (setInput s) / 25).floor.toNat := by
  rw [effCap_congr (s := s) (t := setInput s) rfl (fld_setInput_cap s) (fld_setInput_inlet s)]
  simp only [setInput]
  rw [fld_setFld_of_off_ne _ _ _ (by decide), effCap_setTlmFail, fld, setFld, fldAt_setFldAt_self _ _ _ _ _ (by decide) (by decide)]
  exact Nat.mod_eq_of_lt (effCap_units_lt s)

theorem treelineCommit_spec {s : State} {v : W64} (hup : dieUp s 0 = true)
    (hv : tget? s.shadow (regKey 0 0x100100) = some v) :
    OnlyRegs s (treelineCommit s) ∧ fld (treelineCommit s) 0 R.HUB_TREELINE_CAP_CAP = bits v.toNat 8 0 ∧
      fld (treelineCommit s) 0 R.HUB_PWR_STATE_EFF_CAP = (effCap (treelineCommit s) / 25).floor.toNat := by
  have only := commitReg_onlyRegs s 0 0x100100 32
  have effect := inEffect_commitReg_self s regFind_treelineCap
  rw [treelineCommit, if_pos hup]
  refine ⟨only.trans (setInput_onlyRegs _), ?_, fld_setInput_effCap _⟩
  rw [fld_setInput_cap]
  exact effect.bits_eq (by rwa [only.shadow]) _ (by decide) fun i _ hi => treelineCapSpec_shadows i hi

/-! ## The obligation -/

/-- Settles O52: writes by `regPut_spec`, each commit by the lemma on it. -/
theorem registerWritesAndCommitsTakeEffect : Obligations.RegisterWritesAndCommitsTakeEffect := by
  intro s
  refine ⟨?_, fun m hup => ⟨_, rfl, partCommit_spec m.isLt hup⟩, fun hup v hv => ⟨_, rfl, quotaCommitWrite_spec hup hv⟩,
    fun d hup => ⟨_, rfl, arbCommit_onlyRegs hup, fun a v hv ha i hi => inputRank_arbCommit hup ha hi hv⟩,
    fun hup v hv => ⟨_, rfl, treelineCommit_spec hup hv⟩⟩
  intro d off w v hw hnet hdie quiet hquiet hok
  obtain ⟨noCommit, noPort, noCmd⟩ := hquiet (regPut s d off.toNat w v.toNat hw.toNat)
  have performed : exec (.registerWrite d off w v hw 0) s = .next (regPut s d off.toNat w v.toNat hw.toNat) := by
    show Host.Outcome.next (registerWrite s d off.toNat w v hw 0) = _
    rw [registerWrite_granted w v hw hnet hdie hok, noCommit, noPort, noCmd]
  rw [performed]
  refine ⟨fun h => by rw [regPut_of_none s _ _ h], fun r hup hf hshd => ⟨_, rfl, regPut_spec _ _ hup hf hshd⟩⟩

end Sys2Proof.Machine
end

section
/-! PROOF. The integer operations (R522): each is the 32-bit operation that its place in the order of the FUNC encodings names. -/

namespace Sys2Proof.Machine

/-- Bits 63 to 32 of a 64-bit word, as a number of 32 bits. -/
theorem setWidth_ushiftRight_32 (x : BitVec 64) : (x >>> 32).setWidth 32 = BitVec.ofNat 32 (x.toNat / 2 ^ 32) := by
  apply BitVec.eq_of_toNat_eq
  simp [Nat.shiftRight_eq_div_pow]

/-- The unsigned product of two 32-bit numbers fits 64 bits. -/
theorem intOp_mulHi_unsigned (a b : W32) :
    intOp 3 false a b = ((a.setWidth 64 * b.setWidth 64) >>> 32).setWidth 32 := by
  have fits : a.toNat * b.toNat < 2 ^ 64 := by
    calc a.toNat * b.toNat < 2 ^ 32 * 2 ^ 32 := Nat.mul_lt_mul'' a.isLt b.isLt
      _ = 2 ^ 64 := by norm_num
  have product : (a.setWidth 64 * b.setWidth 64).toNat = a.toNat * b.toNat := by
    rw [BitVec.toNat_mul, BitVec.toNat_setWidth_of_le (by decide), BitVec.toNat_setWidth_of_le (by decide), Nat.mod_eq_of_lt fits]
  rw [setWidth_ushiftRight_32, product]
  rfl

/-- The signed product modulo 2^64 differs from the product by a multiple of 2^64, which its high half modulo 2^32 does not
show. -/
theorem intOp_mulHi_signed (a b : W32) :
    intOp 3 true a b = ((a.signExtend 64 * b.signExtend 64) >>> 32).setWidth 32 := by
  have product : (a.signExtend 64 * b.signExtend 64) = BitVec.ofInt 64 (a.toInt * b.toInt) := by
    rw [BitVec.ofInt_mul, ← BitVec.toInt_signExtend_of_le (v := 64) (x := a) (by decide),
      ← BitVec.toInt_signExtend_of_le (v := 64) (x := b) (by decide), BitVec.ofInt_toInt, BitVec.ofInt_toInt]
  rw [setWidth_ushiftRight_32, product]
  apply BitVec.eq_of_toNat_eq
  simp only [intOp, if_true, BitVec.toNat_ofInt, BitVec.toNat_ofNat]
  omega

/-- The lesser of two numbers under an order, chosen by a strict comparison. -/
theorem intOp_min (signed : Bool) (a b : W32) : intOp 10 signed a b = if intCond signed 2 a b then a else b := rfl
/-- The greater of two numbers. -/
theorem intOp_max (signed : Bool) (a b : W32) : intOp 11 signed a b = if intCond signed 2 a b then b else a := rfl

theorem intCond_lt_unsigned (a b : W32) : intCond false 2 a b = decide (a.toNat < b.toNat) := rfl
theorem intCond_lt_signed (a b : W32) : intCond true 2 a b = decide (a.toInt < b.toInt) := rfl

/-- A comparison with equality is the strict one or equality. -/
theorem intCond_le (signed : Bool) (a b : W32) : intCond signed 3 a b = (intCond signed 2 a b || a == b) := rfl
/-- The comparisons greater than are those less than, turned. -/
theorem intCond_gt (signed : Bool) (a b : W32) : intCond signed 4 a b = intCond signed 2 b a := rfl
theorem intCond_ge (signed : Bool) (a b : W32) : intCond signed 5 a b = intCond signed 3 b a := by
  rw [intCond_le, Bool.beq_comm]; rfl

theorem intCond_le_unsigned (a b : W32) : intCond false 3 a b = decide (a.toNat ≤ b.toNat) := by
  rw [intCond_le, intCond_lt_unsigned, beq_eq_decide, ← Bool.decide_or]
  exact decide_eq_decide.2 (by rw [← BitVec.toNat_inj]; omega)

theorem intCond_le_signed (a b : W32) : intCond true 3 a b = decide (a.toInt ≤ b.toInt) := by
  rw [intCond_le, intCond_lt_signed, beq_eq_decide, ← Bool.decide_or]
  exact decide_eq_decide.2 (by rw [← BitVec.toInt_inj]; omega)

/-- A shift by less than 32. -/
theorem intOp_shift_of_lt (signed : Bool) {a b : W32} (h : b < 32) :
    intOp 7 signed a b = a <<< b ∧ intOp 8 signed a b = a >>> b ∧ intOp 9 signed a b = BitVec.sshiftRight' a b := by
  have small : b.toNat < 32 := h
  simp only [intOp, small, if_true]
  exact ⟨rfl, rfl, rfl⟩

/-- A shift by 32 or more has the model's free value. -/
theorem intOp_shift_of_not_lt (signed : Bool) {a b : W32} (h : ¬ b < 32) :
    intOp 7 signed a b = Config.shiftOver 7 a b ∧ intOp 8 signed a b = Config.shiftOver 8 a b ∧
      intOp 9 signed a b = Config.shiftOver 9 a b := by
  have large : ¬ b.toNat < 32 := h
  simp only [intOp, large, if_false, and_self]

/-- Settles O2: the products, comparisons and shifts by the lemmas above, the rest as `intOp` states it. -/
theorem integerOperationsAreInOrder : Obligations.IntegerOperationsAreInOrder := by
  intro a b signed
  refine ⟨rfl, rfl, rfl, intOp_mulHi_unsigned a b, intOp_mulHi_signed a b, rfl, rfl, rfl, intOp_shift_of_lt signed,
    intOp_shift_of_not_lt signed, ?_, ?_, ?_, ?_, rfl, rfl, intCond_lt_unsigned a b, intCond_lt_signed a b,
    intCond_le_unsigned a b, intCond_le_signed a b, (intCond_gt false a b).trans (intCond_lt_unsigned b a),
    (intCond_gt true a b).trans (intCond_lt_signed b a), ?_, ?_⟩
  · rw [intOp_min, intCond_lt_unsigned]; simp only [decide_eq_true_eq]; split <;> omega
  · rw [intOp_min, intCond_lt_signed]; simp only [decide_eq_true_eq]; split <;> omega
  · rw [intOp_max, intCond_lt_unsigned]; simp only [decide_eq_true_eq]; split <;> omega
  · rw [intOp_max, intCond_lt_signed]; simp only [decide_eq_true_eq]; split <;> omega
  · rw [intCond_ge, intCond_le_unsigned]
  · rw [intCond_ge, intCond_le_signed]

end Sys2Proof.Machine
end

section
/-! PROOF. Shared facts of the Spur's instructions: what a group, a block or a Spur reads as after an update, which updates
change one Spur alone, and what an instruction of its class does when it issues (R36, R86). -/

namespace Sys2Proof.Machine

/-! ## Reads after an update of a Spur -/

/-- The entry of a key is one of the table's. -/
theorem mem_of_tget? {α : Type} {t : Tbl α} {i : Nat} {v : α} (h : tget? t i = some v) : (i, v) ∈ t := by
  induction t with
  | nil => cases h
  | cons e t ih =>
    rw [tget?] at h
    split at h
    · next here => cases h; exact here ▸ List.mem_cons_self
    · exact List.mem_cons_of_mem _ (ih h)

/-- An entry of a table after one has been put is that one or an old one. -/
theorem eq_or_mem_of_mem_tset {α : Type} {t : Tbl α} {i : Nat} {v : α} {e : Nat × α} (h : e ∈ tset t i v) :
    e = (i, v) ∨ e ∈ t := by
  induction t with
  | nil => exact .inl (List.mem_singleton.1 h)
  | cons x t ih =>
    rw [tset] at h
    grind

@[simp] theorem groupAt_modSpur (s : State) (sp k : Nat) (f : Spur → Spur) :
    groupAt (modSpur s sp f) sp k = tget? (f (s.spur sp)).groups k := by rw [groupAt, spur_modSpur_self]

@[simp] theorem blockAt_modSpur (s : State) (sp k : Nat) (f : Spur → Spur) :
    blockAt (modSpur s sp f) sp k = tget? (f (s.spur sp)).blocks k := by rw [blockAt, spur_modSpur_self]

@[simp] theorem spur_setGroup_self (s : State) (sp sl : Nat) (g : Group) :
    (setGroup s sp sl g).spur sp = { s.spur sp with groups := tset (s.spur sp).groups sl g } := spur_modSpur_self ..

@[simp] theorem spur_setBlock_self (s : State) (sp b : Nat) (k : Block) :
    (setBlock s sp b k).spur sp = { s.spur sp with blocks := tset (s.spur sp).blocks b k } := spur_modSpur_self ..

theorem groupAt_setGroup_ne (s : State) (sp : Nat) {sl k : Nat} (g : Group) (h : k ≠ sl) :
    groupAt (setGroup s sp sl g) sp k = groupAt s sp k := by
  rw [setGroup, groupAt_modSpur, tget?_tset_ne _ _ h, groupAt]

@[simp] theorem blockAt_setGroup (s : State) (sp sl k : Nat) (g : Group) : blockAt (setGroup s sp sl g) sp k = blockAt s sp k := by
  rw [setGroup, blockAt_modSpur, blockAt]

/-! ## Updates of one Spur -/

theorem OnlySpur.trans {s t u : State} {sp : Nat} (h : OnlySpur s t sp) (h' : OnlySpur t u sp) : OnlySpur s u sp := by
  obtain ⟨frame, others⟩ := h
  obtain ⟨frame', others'⟩ := h'
  refine ⟨?_, fun k hk => (others' k hk).trans (others k hk)⟩
  rw [frame', frame]

theorem onlySpur_modSpur (s : State) (sp : Nat) (f : Spur → Spur) : OnlySpur s (modSpur s sp f) sp :=
  ⟨rfl, fun _ hk => spur_modSpur_ne s f hk⟩

theorem onlySpur_setGroup (s : State) (sp sl : Nat) (g : Group) : OnlySpur s (setGroup s sp sl g) sp := onlySpur_modSpur ..

/-- An update of one Spur changes neither memory nor a register of control space. -/
theorem OnlySpur.sameMemory_sameRegs {s t : State} {sp : Nat} (h : OnlySpur s t sp) : SameMemory s t ∧ SameRegs s t := by
  rw [h.1]
  exact ⟨⟨fun _ => rfl, rfl⟩, rfl, rfl⟩

/-! ## Issue -/

/-- A word of the command's class runs the command. -/
theorem ofClass_eq {s : State} {sp sl op : Nat} {w : W64} (h : opOf w = op) (eff : Unit → State) :
    ofClass s sp sl op w eff = eff () := if_pos h

/-- A well-encoded instruction of a group that can issue has its effect. -/
theorem issue_of_good {s : State} {sp sl : Nat} {regs : List Nat} {g : Group} {bad : Bool} (h : Issues s sp sl regs g)
    (good : bad = false) (eff : Group → State) : issue s sp sl regs bad eff = eff g := by rw [good, issue_eq h]

/-- An instruction of its class, well encoded, of a group that can issue has its effect. -/
theorem ofClass_issue {s : State} {sp sl op : Nat} {w : W64} {regs : List Nat} {g : Group} {bad : Bool} {eff : Group → State}
    (h : opOf w = op) (issues : Issues s sp sl regs g) (good : bad = false) :
    ofClass s sp sl op w (fun _ => issue s sp sl regs bad eff) = eff g := by
  rw [ofClass_eq h, issue_of_good issues good]

/-- A group that can issue waits for nothing, has not ended or stopped, and has an active lane. -/
theorem Issues.running {s : State} {sp sl : Nat} {regs : List Nat} {g : Group} (h : Issues s sp sl regs g) :
    g.done = false ∧ g.stop = false ∧ g.wait = none ∧ g.active ≠ 0 := by
  have ready := h.ready
  rw [issuable, h.groupAt] at ready
  simp only [ite_eq_right_iff, reduceCtorEq, imp_false, Bool.or_eq_true, not_or, Bool.not_eq_true,
    Option.isSome_eq_false_iff, Option.isNone_iff_eq_none, decide_eq_true_eq] at ready
  grind

/-- One register from n on is n. -/
@[simp] theorem run_one (n : Nat) : run n 1 = [n] := by
  unfold run
  split
  · next h => rw [h]
  · rfl

/-- Under p7 every active lane is enabled. -/
@[simp] theorem Group.enabled_p7 (g : Group) : g.enabled 7 false = g.lanes := by
  simp [Group.enabled, Group.pred]

end Sys2Proof.Machine
end

section
/-! PROOF. Integer instructions (R36, R86, R522), special values, lane exchange (R89, R90, R519, R520). -/

namespace Sys2Proof.Machine

/-- A command that writes a register in lanes of its group, which goes on. -/
theorem writesReg_of_wrLanes {c : Instr} {s u : State} {sp sl vd pred : Nat} {pneg : Bool} {f : Nat → W32} {g : Group}
    (hv : vd < 256) (runs : exec c s = .next u) (result : u = advance s sp sl (g.wrLanes vd f (g.enabled pred pneg))) :
    ∃ t h, exec c s = .next t ∧ Advanced s t sp sl g h ∧ WritesReg g h vd (g.enabled pred pneg) f :=
  have ⟨h, advanced, writes⟩ := laneWrite_spec s sp sl vd pred pneg (fun _ => f) g hv
  ⟨u, h, runs, result ▸ advanced, writes⟩

/-- A command that writes a predicate in lanes of its group, which goes on. -/
theorem writesPred_of_setPreds {c : Instr} {s u : State} {sp sl p pred : Nat} {pneg : Bool} {f : Nat → Bool} {g : Group}
    (hp : p < 8) (runs : exec c s = .next u)
    (result : u = advance s sp sl ((g.enabled pred pneg).foldl (fun h l => h.setPred l p (f l)) g)) :
    ∃ t h, exec c s = .next t ∧ Advanced s t sp sl g h ∧ WritesPred g h p (g.enabled pred pneg) f :=
  have ⟨h, advanced, writes⟩ := predWrite_spec s sp sl p pred pneg (fun _ => f) g hp
  ⟨u, h, runs, result ▸ advanced, writes⟩

/-! ## Integer instructions -/

/-- Settles O1: each form is well encoded and writes a register or a predicate of its enabled lanes. -/
theorem integerInstructionsWriteTheirResult : Obligations.IntegerInstructionsWriteTheirResult := by
  intro s sp sl w g
  refine ⟨?operation, ?select, ?compare, ?immediate⟩
  case operation =>
    intro op scope func typ md issues
    refine writesReg_of_wrLanes (fmtA_vd_lt w) rfl ?_
    have notSelect : (fmtA w).func ≠ 12 := by omega
    have notCompare : (fmtA w).func ≠ 13 := by omega
    rw [intReg, ofClass_eq op]
    simp only [if_neg notCompare]
    rw [issue_of_good issues (by simp [scope, md]; omega)]
    simp only [if_neg notSelect]
    rfl
  case select =>
    intro op scope func typ md issues
    refine writesReg_of_wrLanes (fmtA_vd_lt w) rfl ?_
    rw [intReg, ofClass_eq op]
    simp only [func, Nat.reduceEqDiff, if_false]
    rw [issue_of_good issues (by simp [scope, md]; omega)]
    simp only [if_true]
    rfl
  case compare =>
    intro op scope func typ md issues
    refine writesPred_of_setPreds (Nat.mod_lt _ (by decide)) rfl ?_
    rw [intReg, ofClass_eq op]
    simp only [func, if_true]
    rw [issue_of_good issues (by simp [scope]; omega)]
    rfl
  case immediate =>
    intro op zero func issues
    rw [← Group.enabled_p7 g]
    refine writesReg_of_wrLanes (fmtI_vd_lt w) rfl ?_
    exact ofClass_issue op issues (by simp [zero]; omega)

/-! ## Special values, shuffle and vote -/

/-- An entry of a table after a value has been put at every key of a list. -/
theorem tget?_foldl_tset {α : Type} (v : α) (on : List Nat) (t : Tbl α) (l : Nat) :
    tget? (on.foldl (fun t l => tset t l v) t) l = if l ∈ on then some v else tget? t l := by
  induction on generalizing t with
  | nil => simp
  | cons k on ih =>
    rw [List.foldl_cons, ih, tget?_tset]
    by_cases inRest : l ∈ on <;> by_cases isHead : l = k <;> simp [inRest, isHead]

/-- What `mov.sp` leaves its group: the special value in its enabled lanes and, for Alpenglow time's low half, the high half
latched there (R90). -/
def Group.movedSpecial (s : State) (sp : Nat) (g : Group) (b : Block) (vd idx : Nat) (on : List Nat) : Group :=
  let h := g.wrLanes vd (specialValue s sp g b idx) on
  { h with latch := if idx = 0x0E then on.foldl (fun t l => tset t l ((s.time >>> 32).setWidth 32)) h.latch else h.latch }

/-- A `mov.sp` that issues. -/
theorem movSp_eq {s : State} {sp sl : Nat} {w : W64} {g : Group} {b : Block} (op : opOf w = 0x38) (scope : (fmtA w).scope = 0)
    (typ : (fmtA w).typ = 0) (md : (fmtA w).md = 0) (func : (fmtA w).func = 0) (vb : (fmtA w).vb = 0) (vc : (fmtA w).vc = 0)
    (va : (fmtA w).va ≤ 0x10) (issues : Issues s sp sl [(fmtA w).vd] g) (block : blockAt s sp g.blk = some b) :
    movSp s sp sl w = setGroup s sp sl
      (g.movedSpecial s sp b (fmtA w).vd (fmtA w).va (g.enabled (fmtA w).pred (fmtA w).pneg)).next := by
  rw [movSp, ofClass_eq op]
  dsimp only
  rw [issue_of_good issues (by simp [scope, typ, md, func, vb, vc]; omega), block]
  by_cases low : (fmtA w).va = 0x0E <;> simp only [Group.movedSpecial, advance, low, if_true, if_false]

/-- Settles O4: `mov.sp` by what it leaves its group, `lane.shfl` and `lane.vote` as writes of one register. -/
theorem laneExchangeInstructionsWriteTheirResult : Obligations.LaneExchangeInstructionsWriteTheirResult := by
  intro s sp sl w g
  refine ⟨?special, ?shuffle, ?agree, ?mask, ?nop⟩
  case special =>
    intro op scope typ md func vb vc va issues b block
    refine ⟨_, _, congrArg Host.Outcome.next (movSp_eq op scope typ md func vb vc va issues block),
      ⟨onlyGroup_setGroup .., groupAt_setGroup .., ?frame⟩, ?preds, ?regs, ?latch⟩
    case frame => rw [Group.movedSpecial, Group.wrLanes_eta]; rfl
    case preds => rw [Group.movedSpecial, Group.wrLanes_eta]; rfl
    case regs => exact fun l r hr => Group.rd_wrLanes g _ _ _ l r (fmtA_vd_lt w) hr
    case latch =>
      intro l
      have kept : (g.wrLanes (fmtA w).vd (specialValue s sp g b (fmtA w).va)
          (g.enabled (fmtA w).pred (fmtA w).pneg)).latch = g.latch := by rw [Group.wrLanes_eta]
      show tget? (Group.movedSpecial ..).latch l = _
      rw [Group.movedSpecial]
      by_cases low : (fmtA w).va = 0x0E
      · rw [if_pos low, tget?_foldl_tset, kept]; simp only [low, true_and]
      · simp only [low, if_false, false_and, kept]
  case shuffle =>
    intro op scope typ md func vc issues
    refine writesReg_of_wrLanes (fmtA_vd_lt w) rfl ?_
    exact ofClass_issue op issues (by simp [scope, typ, md, func, vc])
  case agree =>
    intro op scope typ md func vb vc va issues
    refine writesReg_of_wrLanes (fmtA_vd_lt w) rfl ?_
    rw [laneVote, ofClass_eq op]
    simp only [func, Nat.one_ne_zero, false_and, if_false, run_one]
    rw [issue_of_good issues (by simp [scope, typ, md, vb, vc]; omega)]
    rfl
  case mask =>
    intro op scope typ md func vb vc va narrow issues
    refine writesReg_of_wrLanes (fmtA_vd_lt w) rfl ?_
    rw [laneVote, ofClass_eq op]
    simp only [issues.groupAt, Option.map_some, Option.getD_some, narrow, and_false, if_false, run_one]
    rw [issue_of_good issues (by simp [scope, typ, md, func, vb, vc]; omega)]
    simp only [func, Nat.zero_ne_one, if_false, narrow]
  case nop =>
    intro op res0 ofs issues
    exact congrArg Host.Outcome.next (ofClass_issue op issues (by simp [res0, ofs]))

end Sys2Proof.Machine
end

section
/-! PROOF. Branches, `exit` and the reconvergence stack (R50 to R53). -/

namespace Sys2Proof.Machine

/-! ## Reconvergence -/

/-- A group with lanes left that stands at no join address stays. -/
theorem settle_stay {e : JoinEntry} (st : List JoinEntry) {pc : W64} {act : BitVec 64} (live : act ≠ 0) (apart : pc ≠ e.join) :
    settle (e :: st) pc act = (e :: st, pc, act) := by rw [settle, if_pos ⟨live, apart⟩]

/-- A group that reaches the join address goes on with the taken lanes, where they have still to run. -/
theorem settle_taken {e : JoinEntry} (st : List JoinEntry) {pc : W64} {act : BitVec 64} (reached : act = 0 ∨ pc = e.join)
    (fallThrough : e.onTaken = false) (taken : e.taken ≠ 0) (apart : e.target ≠ e.join) :
    settle (e :: st) pc act = ({ e with onTaken := true } :: st, e.target, e.taken) := by
  rw [settle, if_neg (by tauto), if_pos ⟨by simp [fallThrough], taken, apart⟩]

/-- A group that reaches the join address pops the entry, where no taken lane has still to run. -/
theorem settle_pop {e : JoinEntry} (st : List JoinEntry) {pc : W64} {act : BitVec 64} (reached : act = 0 ∨ pc = e.join)
    (ran : e.onTaken = true ∨ e.taken = 0 ∨ e.target = e.join) : settle (e :: st) pc act = settle st e.join e.full := by
  rw [settle, if_neg (by tauto), if_neg]
  rcases ran with ran | ran | ran <;> simp [ran]

/-- A group with lanes left stays where the stack is empty or its top entry joins elsewhere. -/
theorem settle_of_head {st : List JoinEntry} {pc : W64} {act : BitVec 64} (live : act ≠ 0)
    (apart : ∀ x ∈ st.head?, x.join ≠ pc) :
    settle st pc act = (st, pc, act) := by
  cases st with
  | nil => rfl
  | cons x st => exact settle_stay st live (apart x rfl).symm

/-- Settles O5: each way a branch or `exit` leaves a group is one branch of its definition, and `settle` goes one of three ways. -/
theorem branchesAndReconvergenceFollowTheStack : Obligations.BranchesAndReconvergenceFollowTheStack := by
  refine ⟨fun s sp sl w w2 g issues => ?instructions, fun e st pc act => ?stack⟩
  case instructions =>
    obtain ⟨-, -, -, active⟩ := issues.running
    refine ⟨?all, ?none, ?agreeTaken, ?agreeNot, ?push, ?full, ?exit⟩
    case all =>
      intro op res0 agree
      exact congrArg Host.Outcome.next ((ofClass_issue op issues (by simp [res0])).trans (if_pos agree))
    case none =>
      intro op res0 agree lanes
      exact congrArg Host.Outcome.next ((ofClass_issue op issues (by simp [res0])).trans
        ((if_neg (agree ▸ lanes.symm)).trans (if_pos agree)))
    case agreeTaken =>
      intro op res0 agree
      exact congrArg Host.Outcome.next ((ofClass_issue op issues (by simp [res0])).trans (if_pos agree))
    case agreeNot =>
      intro op res0 agree _
      exact congrArg Host.Outcome.next ((ofClass_issue op issues (by simp [res0])).trans
        ((if_neg (agree ▸ active.symm)).trans (if_pos agree)))
    case push =>
      intro op res0 notAll notNone room
      exact congrArg Host.Outcome.next ((ofClass_issue op issues (by simp [res0])).trans
        ((if_neg notAll).trans ((if_neg notNone).trans (if_neg (Nat.not_le.2 room)))))
    case full =>
      intro op res0 notAll notNone full
      exact congrArg Host.Outcome.next ((ofClass_issue op issues (by simp [res0])).trans
        ((if_neg notAll).trans ((if_neg notNone).trans (if_pos full))))
    case exit =>
      intro op res0 ofs
      exact congrArg Host.Outcome.next (ofClass_issue op issues (by simp [res0, ofs]))
  case stack =>
    refine ⟨rfl, settle_stay st, settle_taken st, settle_pop st, fun live apart atJoin ran => ?_⟩
    rw [settle_pop st (.inr atJoin) (.inl ran), settle_of_head live apart]

end Sys2Proof.Machine
end

section
/-! PROOF. Arrival counters, barriers and the stall limit (R64, R67, R69, R70, R83). -/

namespace Sys2Proof.Machine

/-! ## Arrival counters -/

/-- The index names a counter of the group's block. -/
theorem badCtr_eq_false {s : State} {sp sl i n : Nat} {regs : List Nat} {g : Group} {b : Block} (issues : Issues s sp sl regs g)
    (block : blockAt s sp g.blk = some b) (counter : ctrIndex b g.blk n = some i) : badCtr s sp sl n = false := by
  simp [badCtr, issues.groupAt, block, counter]

/-- An `arrive.get` that issues writes ISSUE to every active lane. -/
theorem arriveGet_eq {s : State} {sp sl i : Nat} {w : W64} {g : Group} {b : Block} (op : opOf w = 0x22) (good : badW w = false)
    (issues : Issues s sp sl [wf w 45 38] g) (block : blockAt s sp g.blk = some b)
    (counter : ctrIndex b g.blk (wf w 51 46) = some i) :
    arriveGet s sp sl w = advance s sp sl
      (g.wrLanes (wf w 45 38) (fun _ => (tget (s.spur sp).counters i {}).issue) g.lanes) := by
  refine (ofClass_issue op issues (by rw [good, badCtr_eq_false issues block counter]; rfl)).trans ?_
  rw [block, Option.bind_some, counter]

/-- An `arrive.wait` that issues goes on when DONE has reached its target, and is held otherwise. -/
theorem arriveWait_eq {s : State} {sp sl i : Nat} {w : W64} {g : Group} {b : Block} (op : opOf w = 0x23) (good : badW w = false)
    (issues : Issues s sp sl [wf w 45 38] g) (block : blockAt s sp g.blk = some b)
    (counter : ctrIndex b g.blk (wf w 51 46) = some i) :
    arriveWait s sp sl w =
      if seqReached (g.rd (g.lanes.headD 0) (wf w 45 38)) (tget (s.spur sp).counters i {}).done then setGroup s sp sl g.next
      else setGroup s sp sl { g with wait := some (.arrive i (g.rd (g.lanes.headD 0) (wf w 45 38))) } := by
  refine (ofClass_issue op issues (by rw [good, badCtr_eq_false issues block counter]; rfl)).trans ?_
  rw [block, Option.bind_some, counter]
  rfl

/-! ## Barriers -/

/-- Does a group of block slot `blk` wait at barrier `bar` for at most `now` arrivals? -/
def Group.waitsAt (x : Group) (blk bar now : Nat) : Bool :=
  x.blk == blk && (match x.wait with
    | some (.bar k t) => k.toNat == bar && t ≤ now
    | _ => false)

theorem Group.waitsAt_iff (x : Group) (blk bar now : Nat) :
    x.waitsAt blk bar now = true ↔ x.blk = blk ∧ ∃ k n, x.wait = some (.bar k n) ∧ k.toNat = bar ∧ n ≤ now := by
  unfold Group.waitsAt
  rcases x.wait with _ | ⟨_ | _ | _ | _ | _ | _ | _⟩ <;> simp

/-- A group after an arrival: let go on, or kept. -/
def Group.released (x : Group) (blk bar now : Nat) : Group := if x.waitsAt blk bar now then x.resume else x

/-- The state after an arrival that brings a barrier of a block to `now` and leaves its count at `count`: the block's count
is stored and its waiting groups are released. -/
def barArrived (s : State) (sp blk : Nat) (b : Block) (bar now count : Nat) : State :=
  modSpur (setBlock s sp blk { b with bars := tset b.bars bar count }) sp fun p =>
    { p with groups := p.groups.map fun e => if e.2.waitsAt blk bar now then (e.1, e.2.resume) else e }

theorem onlySpur_barArrived (s : State) (sp blk : Nat) (b : Block) (bar now count : Nat) :
    OnlySpur s (barArrived s sp blk b bar now count) sp := (onlySpur_modSpur ..).trans (onlySpur_modSpur ..)

theorem blockAt_barArrived (s : State) (sp blk : Nat) (b : Block) (bar now count : Nat) :
    blockAt (barArrived s sp blk b bar now count) sp blk = some { b with bars := tset b.bars bar count } := by
  rw [barArrived, blockAt_modSpur, spur_setBlock_self, tget?_tset_self]

theorem groupAt_barArrived (s : State) (sp blk : Nat) (b : Block) (bar now count k : Nat) :
    groupAt (barArrived s sp blk b bar now count) sp k = (groupAt s sp k).map (·.released blk bar now) := by
  have each : ∀ e : Nat × Group, (if e.2.waitsAt blk bar now then (e.1, e.2.resume) else e) = (e.1, e.2.released blk bar now) :=
    fun e => by rw [Group.released]; split <;> rfl
  rw [barArrived, groupAt_modSpur, spur_setBlock_self, groupAt]
  simp only [each]
  exact tget?_map _ (fun _ (x : Group) => x.released blk bar now) k

/-- An arrival releases the groups that wait for at most the count reached, and no others. -/
theorem groupAt_barArrived_of_some {s : State} {sp blk : Nat} {b : Block} {bar now count k : Nat} {x : Group}
    (h : groupAt s sp k = some x) :
    (x.waitsAt blk bar now = true → groupAt (barArrived s sp blk b bar now count) sp k = some x.resume) ∧
      (¬ x.waitsAt blk bar now = true → groupAt (barArrived s sp blk b bar now count) sp k = some x) := by
  rw [groupAt_barArrived, h, Option.map_some, Group.released]
  exact ⟨fun waits => by rw [if_pos waits], fun stays => by rw [if_neg stays]⟩

/-- A barrier instruction that issues: it arrives, and then holds its group or lets it go on. -/
theorem barrier_eq {s : State} {sp sl op target now : Nat} {hold : Bool} {w : W64} {g : Group} {b : Block} (opcode : opOf w = op)
    (res0 : wf w 55 52 = 0) (res0' : wf w 39 0 = 0) (issues : Issues s sp sl [wf w 47 40] g) (block : blockAt s sp g.blk = some b)
    (whole : (g.rd (g.lanes.headD 0) (wf w 47 40)).toNat % g.width = 0) (settled : settledAt (s.spur sp) g.gid 1 = true)
    (htarget : target = if (g.rd (g.lanes.headD 0) (wf w 47 40)).toNat = 0 then g.width * liveGroups (s.spur sp) g.blk
      else (g.rd (g.lanes.headD 0) (wf w 47 40)).toNat) (hnow : now = tget b.bars (wf w 51 48) 0 + g.width) :
    let full := target ≤ now ∨ (s.spur sp).groups.any fun e => e.2.waitsAt g.blk (wf w 51 48) now
    let t := barArrived s sp g.blk b (wf w 51 48) now (if full then 0 else now)
    barrier s sp sl op hold w =
      if hold ∧ ¬ target ≤ now then setGroup t sp sl { g with wait := some (.bar (BitVec.ofNat 4 (wf w 51 48)) target) }
      else setGroup t sp sl g.next := by
  subst htarget hnow
  refine (ofClass_issue opcode issues (by simp [res0, res0'])).trans ?_
  refine (if_neg (not_not.2 whole)).trans ((if_neg (by simp [settled])).trans ?_)
  rw [block]
  exact if_congr (and_congr_right' (by simp)) rfl rfl

/-- Settles O6: a barrier instruction is an arrival that releases the waiting groups, followed by its own group's turn. -/
theorem countersAndBarriersHoldAndRelease : Obligations.CountersAndBarriersHoldAndRelease := by
  refine ⟨?counters, ?barriers, ?stall⟩
  case counters =>
    intro s sp sl w g b i good issues block counter
    refine ⟨fun op => ?_, fun op reached => ?_, fun op ahead => ?_⟩
    · rw [← Group.enabled_p7 g]
      refine writesReg_of_wrLanes (bits_lt _ _ _) rfl ?_
      rw [Group.enabled_p7]
      exact arriveGet_eq op good issues block counter
    · exact congrArg Host.Outcome.next ((arriveWait_eq op good issues block counter).trans (if_pos ((seqReached_iff _ _).2 reached)))
    · exact congrArg Host.Outcome.next ((arriveWait_eq op good issues block counter).trans
        (if_neg (by rw [seqReached_iff]; omega)))
  case barriers =>
    intro s sp sl w g b res0 res0' issues block whole settled count target now waits
    have waits_iff (x : Group) : waits x ↔ x.waitsAt g.blk (wf w 51 48) now = true := (x.waitsAt_iff ..).symm
    have others {u : State} {n k : Nat} {x h : Group} (hu : u = setGroup (barArrived s sp g.blk b (wf w 51 48) now n) sp sl h)
        (hk : k ≠ sl.val) (hx : groupAt s sp k = some x) :
        (waits x → groupAt u sp k = some x.resume) ∧ (¬ waits x → groupAt u sp k = some x) := by
      rw [hu, waits_iff, groupAt_setGroup_ne _ _ _ hk]
      exact groupAt_barArrived_of_some hx
    have frame (n : Nat) (h : Group) : OnlySpur s (setGroup (barArrived s sp g.blk b (wf w 51 48) now n) sp sl h) sp :=
      (onlySpur_barArrived ..).trans (onlySpur_setGroup ..)
    have bars (n : Nat) (h : Group) : blockAt (setGroup (barArrived s sp g.blk b (wf w 51 48) now n) sp sl h) sp g.blk =
        some { b with bars := tset b.bars (wf w 51 48) n } := by rw [blockAt_setGroup, blockAt_barArrived]
    have holds (op : opOf w = 0x28) :=
      barrier_eq (hold := true) op res0 res0' issues block whole settled (target := target) (now := now) rfl rfl
    have passes (op : opOf w = 0x29) :=
      barrier_eq (hold := false) op res0 res0' issues block whole settled (target := target) (now := now) rfl rfl
    refine ⟨fun op reached => ?sync, fun op short noWaiter => ?hold, fun op => ?arrive⟩
    case sync =>
      have performed := (holds op).trans (if_neg fun h => h.2 reached)
      rw [if_pos (Or.inl reached)] at performed
      exact ⟨_, congrArg Host.Outcome.next performed, frame .., bars .., groupAt_setGroup .., fun _ _ => others rfl⟩
    case hold =>
      have notFull : ¬ (target ≤ now ∨ (s.spur sp).groups.any fun e => e.2.waitsAt g.blk (wf w 51 48) now) := by
        rw [List.any_eq_true, not_or]
        exact ⟨Nat.not_le.2 short, fun ⟨e, he, waiting⟩ => noWaiter e he ((waits_iff e.2).2 waiting)⟩
      have performed := (holds op).trans (if_pos ⟨rfl, Nat.not_le.2 short⟩)
      rw [if_neg notFull] at performed
      refine ⟨_, congrArg Host.Outcome.next performed, frame .., bars .., groupAt_setGroup .., fun k hk => ?_⟩
      cases hx : groupAt s sp k with
      | none => rw [groupAt_setGroup_ne _ _ _ hk, groupAt_barArrived, hx, Option.map_none]
      | some x => exact (others rfl hk hx).2 (noWaiter (k, x) (mem_of_tget? hx))
    case arrive =>
      have performed := (passes op).trans (if_neg fun h => nomatch h.1)
      refine ⟨_, congrArg Host.Outcome.next performed, frame .., groupAt_setGroup .., fun reached => ?_, fun _ _ => others rfl⟩
      rw [bars, if_pos (Or.inl reached)]
  case stall =>
    intro s sp sl g b group block waiting
    have expiry : stallExpiry s sp sl = if b.stall = 0 then s else groupFault s sp sl 10 g.pc 0 := by
      rw [stallExpiry, group]
      rcases waiting with ⟨i, n, wait⟩ | ⟨i, n, wait⟩ <;> simp only [wait, block]
    exact ⟨fun limit => congrArg Host.Outcome.next (expiry.trans (if_neg limit)),
      fun none => congrArg _ (expiry.trans (if_pos none))⟩

end Sys2Proof.Machine
end

section
/-! PROOF. Local loads, stores and atomics (R54, R56, R58, R60, R61, R73, R88). -/

namespace Sys2Proof.Machine

/-! ## Registers written word by word -/

/-- Write words 0 to k - 1 of a value to the registers of a lane from `vd` on, low register first (R88). -/
def Group.wrWords (g : Group) (lane vd k : Nat) (f : Nat → W32) : Group :=
  (List.range k).foldl (fun h i => h.wr lane (vd + i) (f i)) g

/-- Writing words changes only the registers. -/
theorem Group.wrWords_eta (g : Group) (lane vd k : Nat) (f : Nat → W32) :
    g.wrWords lane vd k f = { g with regs := (g.wrWords lane vd k f).regs } := by
  unfold Group.wrWords
  induction List.range k generalizing g with
  | nil => rfl
  | cons i is ih => simp only [List.foldl_cons]; rw [ih, Group.wr_eta]

/-- What a register reads as after the words of a value have been written. -/
theorem Group.rd_wrWords (g : Group) (lane vd k : Nat) (f : Nat → W32) (l r : Nat) (hk : vd + k ≤ 256) (hr : r < 256) :
    (g.wrWords lane vd k f).rd l r = if vd ≤ r ∧ r < vd + k ∧ r ≠ 255 ∧ l = lane then f (r - vd) else g.rd l r := by
  unfold Group.wrWords
  induction k with
  | zero => rw [if_neg (by omega)]; rfl
  | succ k ih =>
    rw [List.range_succ, List.foldl_append, List.foldl_cons, List.foldl_nil, Group.rd_wr _ _ _ _ _ _ (by omega) hr,
      ih (by omega)]
    by_cases last : r = vd + k
    · subst last
      simp
    · rw [if_neg (fun h => last h.1)]
      exact if_congr (by omega) rfl rfl

/-- What a load leaves its group: in each lane of a list, the words of that lane's value; v255 discards. -/
def Group.loaded (g : Group) (vd k : Nat) (f : Nat → Nat → W32) (on : List Nat) : Group :=
  on.foldl (fun h l => if vd = 255 then h else h.wrWords l vd k (f l)) g

/-- A load changes only the registers. -/
theorem Group.loaded_eta (g : Group) (vd k : Nat) (f : Nat → Nat → W32) (on : List Nat) :
    g.loaded vd k f on = { g with regs := (g.loaded vd k f on).regs } := by
  unfold Group.loaded
  induction on generalizing g with
  | nil => rfl
  | cons l on ih =>
    simp only [List.foldl_cons]
    rw [ih]
    split
    · rfl
    · rw [Group.wrWords_eta]

/-- What a register reads as after a load. -/
theorem Group.rd_loaded (g : Group) (vd k : Nat) (f : Nat → Nat → W32) (on : List Nat) (l r : Nat) (hk : vd + k ≤ 256)
    (hr : r < 256) :
    (g.loaded vd k f on).rd l r =
      if vd ≠ 255 ∧ vd ≤ r ∧ r < vd + k ∧ r ≠ 255 ∧ l ∈ on then f l (r - vd) else g.rd l r := by
  unfold Group.loaded
  by_cases discard : vd = 255
  · simp [discard]
  · simp only [if_neg discard]
    induction on generalizing g with
    | nil => simp
    | cons head on ih =>
      rw [List.foldl_cons, ih, Group.rd_wrWords _ _ _ _ _ _ _ hk hr]
      by_cases isHead : l = head
      · subst isHead
        grind
      · simp [discard, isHead]

/-! ## Format M -/

theorem fmtM_vd_lt (w : W64) : (fmtM w).vd < 256 := bits_lt _ _ _

/-- What a well-encoded word of format M holds (R88). -/
theorem badM_eq_false {m : FmtM} {orders : List Nat} {wide : Bool} (h : badM m orders wide = false) :
    m.order ∈ orders ∧ m.size ≤ 4 ∧ badVd m.vd m.size = false := by
  simp only [badM, Bool.or_eq_false_iff, decide_eq_false_iff_not] at h
  obtain ⟨⟨⟨⟨⟨⟨-, order⟩, size⟩, -⟩, -⟩, aligned⟩, -⟩ := h
  exact ⟨by simpa using order, by omega, aligned⟩

/-- A load has no release ordering. -/
theorem badM_load_order {m : FmtM} {wide : Bool} (h : badM m [0, 1] wide = false) : ¬ 2 ≤ m.order := by
  obtain ⟨order, -, -⟩ := badM_eq_false h
  simp only [List.mem_cons, List.not_mem_nil, or_false] at order
  omega

/-- A store's ordering is none or release. -/
theorem badM_store_order {m : FmtM} {wide : Bool} (h : badM m [0, 2] wide = false) (ordered : 2 ≤ m.order) : m.order = 2 := by
  obtain ⟨order, -, -⟩ := badM_eq_false h
  simp only [List.mem_cons, List.not_mem_nil, or_false] at order
  omega

/-- The registers of an aligned operand end within the register file. -/
theorem vd_add_words_le {vd size : Nat} (hv : vd < 256) (hs : size ≤ 4) (aligned : badVd vd size = false) :
    vd + ceilDiv (sizeBytes size) 4 ≤ 256 := by
  simp only [badVd, Bool.or_eq_false_iff] at aligned
  interval_cases size <;> simp_all [ceilDiv, sizeBytes] <;> omega

/-! ## Checks of a local access -/

/-- Lanes that are aligned and within the allocation meet no cause. -/
theorem localCause_eq_none {b : Block} {n : Nat} {addrs : List Nat} (h : ∀ a ∈ addrs, a % n = 0 ∧ a + n ≤ b.localSize) :
    localCause b n addrs = none := by
  have aligned : addrs.find? (fun a => a % n != 0) = none := by simpa using fun a ha => (h a ha).1
  have within : addrs.find? (fun a => b.localSize < a + n) = none := by simpa using fun a ha => (h a ha).2
  rw [localCause, aligned, within]
  rfl

/-- The first lane that is not aligned gives cause 0x03. -/
theorem localCause_of_misaligned {b : Block} {n a : Nat} {addrs : List Nat} (h : addrs.find? (fun a => a % n != 0) = some a) :
    localCause b n addrs = some (3, a) := by
  rw [localCause, h]

/-- Where every lane is aligned, the first that reaches beyond the allocation gives cause 0x04. -/
theorem localCause_of_outside {b : Block} {n a : Nat} {addrs : List Nat} (aligned : ∀ x ∈ addrs, x % n = 0)
    (h : addrs.find? (fun a => b.localSize < a + n) = some a) : localCause b n addrs = some (4, a) := by
  have none : addrs.find? (fun a => a % n != 0) = none := by simpa using aligned
  rw [localCause, none, h]
  rfl

/-- The addresses of a local access's lanes. -/
theorem localLanes_addrs (g : Group) (pred : Nat) (pneg : Bool) (va : Nat) (ofs : W64) :
    (localLanes g pred pneg va ofs).map Prod.snd =
      (g.enabled pred pneg).map fun l => (g.rd l va + ofs.setWidth 32).toNat := by
  rw [localLanes, List.map_map]
  rfl

section
variable {s : State} {sp sl n order scope : Nat} {g : Group} {b : Block} {lanes : List (Nat × Nat)} {eff : Block → State}

/-- A local access that no acquire holds, and whose release has what it asks, meets the checks of its addresses. -/
theorem localIssue_eq (block : blockAt s sp g.blk = some b) (free : acquireHeld (s.spur sp) g.gid = false)
    (settled : 2 ≤ order → settledAt (s.spur sp) g.gid (min (scopeExec s b.ctx (BitVec.ofNat 3 scope)).toNat 1) = true) :
    localIssue s sp sl g n order scope lanes eff = match localCause b n (lanes.map Prod.snd) with
      | some (c, a) => groupFault s sp sl c g.pc (BitVec.ofNat 64 a)
      | none => eff b := by
  rw [localIssue, block]
  refine if_neg ?_
  rw [free, Bool.false_or, Bool.and_eq_true, decide_eq_true_eq, not_and]
  exact fun release => by rw [settled release]; decide
end

/-! ## Loads and stores -/

/-- An `ld.l` that issues and whose lanes pass the checks. -/
theorem ldLocal_eq {s : State} {sp sl : Nat} {w : W64} {g : Group} (op : opOf w = 0x1A)
    (good : badM (fmtM w) [0, 1] false = false) (issues : Issues s sp sl ((fmtM w).va :: sizeRegs (fmtM w).vd (fmtM w).size) g) :
    ldLocal s sp sl w = localIssue s sp sl g (sizeBytes (fmtM w).size) (fmtM w).order (fmtM w).scope
      (localLanes g (fmtM w).pred (fmtM w).pneg (fmtM w).va (fmtM w).offset) fun b =>
        setGroup (acquireL1 s sp b.ctx (fmtM w).order (fmtM w).scope) sp sl
          (g.loaded (fmtM w).vd (ceilDiv (sizeBytes (fmtM w).size) 4) (fun l i => BitVec.ofNat 32 ((s.spur sp).lread
              (b.base + (g.rd l (fmtM w).va + (fmtM w).offset.setWidth 32).toNat) (sizeBytes (fmtM w).size) / 2 ^ (32 * i)))
            (g.enabled (fmtM w).pred (fmtM w).pneg)).next := by
  refine (ofClass_issue op issues good).trans ?_
  simp only [localLanes, List.foldl_map]
  rfl

/-- Stores of a list of lanes, one after another, write local memory alone. -/
theorem foldl_lwrite {α : Type} (n : Nat) (addr val : α → Nat) (on : List α) (p : Spur) :
    on.foldl (fun p l => p.lwrite (addr l) n (val l)) p =
      { p with lmem := on.foldl (fun mem l => memWrite mem (addr l) (leBytes n (val l))) p.lmem } := by
  induction on generalizing p with
  | nil => rfl
  | cons l on ih => rw [List.foldl_cons, ih, List.foldl_cons]; rfl

/-- An `st.l` that issues. -/
theorem stLocal_eq {s : State} {sp sl : Nat} {w : W64} {g : Group} (op : opOf w = 0x1B)
    (good : badM (fmtM w) [0, 2] false = false) (issues : Issues s sp sl ((fmtM w).va :: sizeRegs (fmtM w).vd (fmtM w).size) g) :
    stLocal s sp sl w = localIssue s sp sl g (sizeBytes (fmtM w).size) (fmtM w).order (fmtM w).scope
      (localLanes g (fmtM w).pred (fmtM w).pneg (fmtM w).va (fmtM w).offset) fun b =>
        let stored := fun (p : Spur) => (g.enabled (fmtM w).pred (fmtM w).pneg).foldl
          (fun mem l => memWrite mem (b.base + (g.rd l (fmtM w).va + (fmtM w).offset.setWidth 32).toNat)
            (leBytes (sizeBytes (fmtM w).size) (g.rdSize l (fmtM w).vd (fmtM w).size).toNat)) p.lmem
        setGroup (modSpur s sp fun p => { p with lmem := stored p }) sp sl g.next := by
  refine (ofClass_issue op issues good).trans ?_
  simp only [localLanes, List.foldl_map, foldl_lwrite]
  rfl

/-! ## Atomics -/

/-- The distinct values of a list of one value. -/
theorem distinct_of_const {a : Nat} {l : List Nat} (some : l ≠ []) (h : ∀ x ∈ l, x = a) : distinct l = [a] := by
  have stays : ∀ l : List Nat, (∀ x ∈ l, x = a) →
      l.foldl (fun acc x => if acc.contains x then acc else acc ++ [x]) [a] = [a] := by
    intro l h
    induction l with
    | nil => rfl
    | cons x l ih =>
      rw [List.foldl_cons, h x List.mem_cons_self, if_pos (by simp)]
      exact ih fun y hy => h y (List.mem_cons_of_mem _ hy)
  cases l with
  | nil => exact absurd rfl some
  | cons x l =>
    rw [distinct, List.foldl_cons, h x List.mem_cons_self]
    exact stays l fun y hy => h y (List.mem_cons_of_mem _ hy)

/-- What an atomic leaves its group: each lane's result in its register, or pair of registers. -/
def Group.atomicResults (g : Group) (vd n : Nat) (results : List (Nat × W64)) : Group :=
  results.foldl (fun h x => if vd = 255 then h else if n = 8 then h.wr64 x.1 vd x.2 else h.wr x.1 vd (x.2.setWidth 32)) g

/-- An `at.l` that issues. -/
theorem atLocal_eq {s : State} {sp sl a : Nat} {w : W64} {g : Group} (op : opOf w = 0x1D) (good : badT (fmtT w) false = false)
    (issues : Issues s sp sl (regsT (fmtT w) 1) g) (some : g.enabled (fmtT w).pred (fmtT w).pneg ≠ [])
    (one : ∀ l ∈ g.enabled (fmtT w).pred (fmtT w).pneg, (g.rd l (fmtT w).va).toNat = a) :
    atLocal s sp sl w = localIssue s sp sl g (sizeBytes (atSize (fmtT w).aty)) (fmtT w).order (fmtT w).scope
      (localLanes g (fmtT w).pred (fmtT w).pneg (fmtT w).va 0) fun b =>
        let n := sizeBytes (atSize (fmtT w).aty)
        let on := g.enabled (fmtT w).pred (fmtT w).pneg
        let res := atomicLanes (fmtT w).aop (fmtT w).aty (BitVec.ofNat 64 ((s.spur sp).lread (b.base + a) n)) (on.map (g.atArgs (fmtT w)))
        setGroup (acquireL1 (modSpur s sp fun p => p.lwrite (b.base + a) n res.2.toNat) sp b.ctx (fmtT w).order (fmtT w).scope)
          sp sl (g.atomicResults (fmtT w).vd n (on.zip res.1)).next := by
  refine (ofClass_issue op issues good).trans ?_
  have lanes : localLanes g (fmtT w).pred (fmtT w).pneg (fmtT w).va 0 =
      (g.enabled (fmtT w).pred (fmtT w).pneg).map fun l => (l, a) :=
    List.map_congr_left fun l hl => by simp [one l hl]
  have snds : ((g.enabled (fmtT w).pred (fmtT w).pneg).map fun l => (l, a)).map Prod.snd =
      (g.enabled (fmtT w).pred (fmtT w).pneg).map fun _ => a := List.map_map ..
  have addrs : distinct ((g.enabled (fmtT w).pred (fmtT w).pneg).map fun _ => a) = [a] :=
    distinct_of_const (by simpa using some) (by simp)
  have all : (((g.enabled (fmtT w).pred (fmtT w).pneg).map fun l => (l, a)).filter fun l => l.2 == a).map Prod.fst =
      g.enabled (fmtT w).pred (fmtT w).pneg := by
    rw [List.filter_eq_self.2 (by simp), List.map_map]
    exact List.map_id _
  simp only [lanes, snds, addrs, all, List.foldl_cons, List.foldl_nil]
  rfl

/-- Settles O7: the equation of each instruction, with what the checks of its lanes find. -/
theorem localMemoryAccessesAreCheckedAndPerformed : Obligations.LocalMemoryAccessesAreCheckedAndPerformed := by
  refine ⟨?accesses, ?faults, ?atomics⟩
  case accesses =>
    intro s sp sl w g b m n on addr issues block free inside
    have noCause : localCause b n ((localLanes g m.pred m.pneg m.va m.offset).map Prod.snd) = none := by
      rw [localLanes_addrs]
      exact localCause_eq_none (List.forall_mem_map.2 inside)
    refine ⟨fun op good => ?load, fun op good release => ?store⟩
    case load =>
      obtain ⟨-, size, aligned⟩ := badM_eq_false good
      have performed := (ldLocal_eq op good issues).trans (localIssue_eq block free fun h => absurd h (badM_load_order good))
      rw [noCause] at performed
      refine ⟨_, congrArg Host.Outcome.next performed, ?frame, ?regs⟩
      case frame => rw [Group.loaded_eta]; rfl
      case regs => exact fun l r hr => Group.rd_loaded g _ _ _ _ l r (vd_add_words_le (fmtM_vd_lt w) size aligned) hr
    case store =>
      have performed := (stLocal_eq op good issues).trans
        (localIssue_eq block free fun h => release (badM_store_order good h))
      rw [noCause] at performed
      exact congrArg Host.Outcome.next performed
  case faults =>
    intro s sp sl w g b a m n addrs issues block free relaxed
    have plain (h : 2 ≤ m.order) :
        settledAt (s.spur sp) g.gid (min (scopeExec s b.ctx (BitVec.ofNat 3 m.scope)).toNat 1) = true := by
      omega
    have faulted {cause : Nat} (met : localCause b n addrs = some (cause, a)) :
        (opOf w = 0x1A → badM m [0, 1] false = false →
          exec (.ldL sp sl w) s = .next (groupFault s sp sl cause g.pc (BitVec.ofNat 64 a))) ∧
        (opOf w = 0x1B → badM m [0, 2] false = false →
          exec (.stL sp sl w) s = .next (groupFault s sp sl cause g.pc (BitVec.ofNat 64 a))) := by
      have met' : localCause b n ((localLanes g m.pred m.pneg m.va m.offset).map Prod.snd) = some (cause, a) := by
        rw [localLanes_addrs]; exact met
      refine ⟨fun op good => ?_, fun op good => ?_⟩
      · have performed := (ldLocal_eq op good issues).trans (localIssue_eq block free plain)
        rw [met'] at performed
        exact congrArg Host.Outcome.next performed
      · have performed := (stLocal_eq op good issues).trans (localIssue_eq block free plain)
        rw [met'] at performed
        exact congrArg Host.Outcome.next performed
    exact ⟨fun first => faulted (localCause_of_misaligned first),
      fun aligned first => faulted (localCause_of_outside aligned first)⟩
  case atomics =>
    intro s sp sl w g b a t n on args res op good issues block free release some one aligned inside
    have noCause : localCause b n ((localLanes g t.pred t.pneg t.va 0).map Prod.snd) = none := by
      rw [localLanes_addrs]
      refine localCause_eq_none (List.forall_mem_map.2 fun l hl => ?_)
      simpa [one l hl] using ⟨aligned, inside⟩
    have performed := (atLocal_eq op good issues some one).trans (localIssue_eq block free release)
    rw [noCause] at performed
    exact congrArg Host.Outcome.next performed

end Sys2Proof.Machine
end

section
/-! PROOF. Global accesses, cache maintenance and fences (R36, R57, R72, R73, R88, R213, R262, R516). -/

namespace Sys2Proof.Machine

/-! ## Global accesses -/

/-- A global access that nothing holds, and whose lanes are aligned, enters the operation list. -/
theorem globalIssue_eq {s : State} {sp sl size order scope : Nat} {g : Group} {b : Block} {kind : MemKind} {direct once : Bool}
    {lanes : List MemLane} (block : blockAt s sp g.blk = some b) (free : memHeld s sp sl g = false)
    (settled : 2 ≤ order → settledAt (s.spur sp) g.gid (scopeExec s b.ctx (BitVec.ofNat 3 scope)).toNat = true)
    (some : lanes ≠ []) (aligned : ∀ l ∈ lanes, l.va.toNat % size = 0) :
    globalIssue s sp sl g kind size order scope direct once lanes =
      opNew s sp sl g b kind size order scope direct once lanes := by
  have noFault : lanes.find? (fun l => l.va.toNat % size != 0) = none := by simpa using aligned
  rw [globalIssue, block]
  refine (if_neg ?_).trans ?_
  · rw [free, Bool.false_or, Bool.and_eq_true, decide_eq_true_eq, not_and]
    exact fun release => by rw [settled release]; decide
  · rw [noFault]
    exact if_neg some

/-- The fields that a word of cache maintenance holds at 0. -/
structure MaintWord (w : W64) : Prop where
  op : opOf w = 0x3C
  scope : (fmtA w).scope = 0
  vd : (fmtA w).vd = 0
  vb : (fmtA w).vb = 0
  vc : (fmtA w).vc = 0
  typ : (fmtA w).typ = 0
  md : (fmtA w).md = 0

/-- A cache maintenance instruction that issues and names an address enters the operation list. -/
theorem maintOp_eq {s : State} {sp sl func : Nat} {w : W64} {g : Group} {b : Block} (block : blockAt s sp g.blk = some b)
    (word : MaintWord w) (isFunc : (fmtA w).func = func) (names : func ≠ 1) (assigned : func ≤ 5)
    (even : (fmtA w).va % 2 = 0) (issues : Issues s sp sl (run (fmtA w).va 2) g) (free : memHeld s sp sl g = false)
    (some : g.enabled (fmtA w).pred (fmtA w).pneg ≠ []) :
    maintOp s sp sl w func = opNew s sp sl g b (.maint (BitVec.ofNat 5 func)) 1 0 0 true false
      ((g.enabled (fmtA w).pred (fmtA w).pneg).map fun l => { lane := l, va := g.rd64 l (fmtA w).va }) := by
  obtain ⟨op, scope, vd, vb, vc, typ, md⟩ := word
  rw [maintOp, ofClass_eq op]
  refine (if_neg fun h => h.1 isFunc).trans ?_
  rw [if_neg names]
  refine (issue_of_good issues (by simp [isFunc, scope, vd, vb, vc, typ, md, even, assigned]) _).trans ?_
  rw [if_neg names, block]
  exact (if_neg (by simp [free])).trans (if_neg some)

/-! ## Fences -/

/-- Is a fence of a group's kind and scope complete? False where it waits at no fence. -/
def fenceDone (p : Spur) (g : Group) : Bool :=
  match g.wait with
  | some (.fence k sc) => fenceReady p g.gid k.toNat sc.toNat
  | _ => false

/-- Does the end of a group's fence clear the L1 (R73)? -/
def fenceClears (g : Group) : Bool :=
  match g.wait with
  | some (.fence k sc) => k != 1 && sc != 0
  | _ => false

/-- A Spur after its fences have been looked at. -/
def Spur.fenced (p : Spur) : Spur :=
  let q := { p with groups := p.groups.map fun e => if fenceDone p e.2 then (e.1, e.2.resume) else e }
  if p.groups.any fun e => fenceDone p e.2 && fenceClears e.2 then q.clearL1 else q

theorem fenceCheck_eq (s : State) (sp : Nat) : fenceCheck s sp = modSpur s sp Spur.fenced := rfl

/-- Each group of a Spur after its fences have been looked at: one whose fence is complete goes on. -/
theorem tget?_fenced_groups (p : Spur) (k : Nat) :
    tget? p.fenced.groups k = (tget? p.groups k).map fun g => if fenceDone p g then g.resume else g := by
  have each : ∀ e : Nat × Group, (if fenceDone p e.2 then (e.1, e.2.resume) else e) =
      (e.1, if fenceDone p e.2 then e.2.resume else e.2) := fun e => by split <;> rfl
  have groups : p.fenced.groups = p.groups.map fun e => if fenceDone p e.2 then (e.1, e.2.resume) else e := by
    unfold Spur.fenced
    simp only
    split <;> rfl
  rw [groups]
  simp only [each]
  exact tget?_map _ (fun _ (g : Group) => if fenceDone p g then g.resume else g) k

/-- Where no fence is complete the Spur stays as it is. -/
theorem Spur.fenced_of_none {p : Spur} (h : ∀ e ∈ p.groups, fenceDone p e.2 = false) : p.fenced = p := by
  have groups : (p.groups.map fun e => if fenceDone p e.2 then (e.1, e.2.resume) else e) = p.groups :=
    (List.map_congr_left fun e he => by rw [h e he]; rfl).trans (List.map_id _)
  have noClear : ¬ (p.groups.any fun e => fenceDone p e.2 && fenceClears e.2) = true := by
    simp only [List.any_eq_true, not_exists, not_and]
    exact fun e he => by simp [h e he]
  rw [Spur.fenced, if_neg noClear, groups]

/-- A group that waits at no fence. -/
theorem fenceDone_of_ne {p : Spur} {g : Group} (h : ∀ k c, g.wait ≠ some (.fence k c)) : fenceDone p g = false := by
  unfold fenceDone
  split
  · next k c hw => exact absurd hw (h k c)
  · rfl

/-- A group that waits at a fence. -/
theorem fenceDone_of_fence {p : Spur} {g : Group} {k sc : BitVec 3} (h : g.wait = some (.fence k sc)) :
    fenceDone p g = fenceReady p g.gid k.toNat sc.toNat := by
  unfold fenceDone
  rw [h]

/-- A completed fence that is an acquire clears every valid bit of the L1. -/
theorem Spur.fenced_l1_of_clears {p : Spur} {e : Nat × Group} (he : e ∈ p.groups) (done : fenceDone p e.2 = true)
    (clears : fenceClears e.2 = true) : ∀ x ∈ p.fenced.l1, x.2.valid = 0 := by
  rw [Spur.fenced, if_pos (List.any_eq_true.2 ⟨e, he, by rw [done, clears]; rfl⟩)]
  exact List.forall_mem_map.2 fun _ _ => rfl

/-- Settles O8: each access enters by `globalIssue_eq` or `maintOp_eq`; a fence holds its group, and is then looked at. -/
theorem globalAccessesAndFences : Obligations.GlobalAccessesAndFences := by
  refine ⟨?accesses, ?fences⟩
  case accesses =>
    intro s sp sl w g b block id op entered free
    refine ⟨?load, ?store, ?atomic, ?maintenance⟩
    case load =>
      intro m on n once isLoad good issues free some aligned
      refine congrArg Host.Outcome.next ((ofClass_issue isLoad issues good).trans ?_)
      refine (globalIssue_eq block free (fun h => absurd h (badM_load_order good)) (by simpa using some)
        (List.forall_mem_map.2 aligned)).trans ?_
      exact congrArg (fun direct => entered (.load m.vd) n m.order m.scope direct once _) (Bool.decide_or _ _)
    case store =>
      intro m on n isStore good issues free some aligned release
      exact congrArg Host.Outcome.next ((ofClass_issue isStore issues good).trans
        (globalIssue_eq block free (fun h => release (badM_store_order good h)) (by simpa using some) (List.forall_mem_map.2 aligned)))
    case atomic =>
      intro t on n isAtomic good issues free some aligned release
      exact congrArg Host.Outcome.next ((ofClass_issue isAtomic issues good).trans
        (globalIssue_eq block free release (by simpa using some) (List.forall_mem_map.2 aligned)))
    case maintenance =>
      intro a on maint op scope vd vb vc typ md even issues free some
      have enters {f : Nat} (names : f ≠ 1) (assigned : f ≤ 5) (isFunc : a.func = f) : maintOp s sp sl w f = maint f :=
        maintOp_eq block ⟨op, scope, vd, vb, vc, typ, md⟩ isFunc names assigned even issues free some
      exact ⟨fun f => congrArg Host.Outcome.next (enters (by decide) (by decide) f),
        fun f => congrArg Host.Outcome.next (enters (by decide) (by decide) f),
        fun f => congrArg Host.Outcome.next (enters (by decide) (by decide) f),
        fun f => congrArg Host.Outcome.next (enters (by decide) (by decide) f),
        fun f => congrArg Host.Outcome.next (enters (by decide) (by decide) f)⟩
  case fences =>
    intro s sp sl w g b scope kind sc op hscope hkind res0 issues block noFence
    let g' : Group := { g with wait := some (.fence (BitVec.ofNat 3 kind) sc) }
    have performed : exec (.fenceS sp sl w) s = .next (modSpur (setGroup s sp sl g') sp Spur.fenced) := by
      refine congrArg Host.Outcome.next ((ofClass_issue op issues (by simp [res0]; omega)).trans ?_)
      rw [block]
      rfl
    have small : (BitVec.ofNat 3 kind).toNat = kind := by rw [BitVec.toNat_ofNat]; omega
    have frame : OnlySpur s (modSpur (setGroup s sp sl g') sp Spur.fenced) sp := (onlySpur_setGroup ..).trans (onlySpur_modSpur ..)
    have entry : tget? ((setGroup s sp sl g').spur sp).groups sl = some g' := groupAt_setGroup s sp sl g'
    have isDone : fenceDone ((setGroup s sp sl g').spur sp) g' = fenceReady (s.spur sp) g.gid kind sc.toNat := by
      rw [fenceDone_of_fence rfl, small, spur_setGroup_self]
      rfl
    have after : groupAt (modSpur (setGroup s sp sl g') sp Spur.fenced) sp sl =
        some (if fenceReady (s.spur sp) g.gid kind sc.toNat then g'.resume else g') := by
      rw [groupAt_modSpur, tget?_fenced_groups, entry, Option.map_some, isDone]
    refine ⟨fun ready => ⟨_, performed, frame, ?resumed, fun notRelease wide => ?cleared⟩,
      fun waiting => ⟨_, performed, frame, ?held, ?kept⟩⟩
    case resumed => rw [after, if_pos ready]
    case held => rw [after, waiting]; rfl
    case cleared =>
      rw [spur_modSpur_self]
      refine Spur.fenced_l1_of_clears (mem_of_tget? entry) (isDone.trans ready) ?_
      have acquire : BitVec.ofNat 3 kind ≠ 1 := fun h => notRelease (small.symm.trans (congrArg BitVec.toNat h))
      show (BitVec.ofNat 3 kind != 1 && sc != 0) = true
      rw [Bool.and_eq_true, bne_iff_ne, bne_iff_ne]
      exact ⟨acquire, wide⟩
    case kept =>
      have none : ∀ e ∈ ((setGroup s sp sl g').spur sp).groups, fenceDone ((setGroup s sp sl g').spur sp) e.2 = false := by
        intro e he
        rw [spur_setGroup_self] at he
        rcases eq_or_mem_of_mem_tset he with rfl | old
        · exact isDone.trans waiting
        · exact fenceDone_of_ne (noFence e old)
      rw [spur_modSpur_self, Spur.fenced_of_none none, spur_setGroup_self]

end Sys2Proof.Machine
end

section
/-! PROOF. The L1 of a Spur, fills that end loads, and loads served at their home (R57, R76, R77, R79, R200, R213, R261). -/

namespace Sys2Proof.Machine

/-! ## Invalidation -/

/-- An L1 without a valid bit answers no lookup. -/
theorem l1Hit_of_invalid {p : Spur} (h : ∀ e ∈ p.l1, e.2.valid = 0) (pa : Nat) (ctx : BitVec 16) : p.l1Hit pa ctx = none := by
  unfold Spur.l1Hit
  split
  · next e found =>
    rw [h e (List.mem_of_find?_eq_some found)]
    simp
  · rfl

/-- A `cm.inv.l1.all` that issues. -/
theorem maintOp_all_eq {s : State} {sp sl : Nat} {w : W64} {g : Group} (word : MaintWord w)
    (func : (fmtA w).func = 1) (issues : Issues s sp sl [] g) :
    maintOp s sp sl w 1 = setGroup (modSpur s sp Spur.clearL1) sp sl g.next := by
  obtain ⟨op, scope, vd, vb, vc, typ, md⟩ := word
  rw [maintOp, ofClass_eq op]
  refine (if_neg fun h => h.1 func).trans ?_
  rw [if_pos rfl]
  exact (issue_of_good issues (by simp [func, scope, vd, vb, vc, typ, md]) _).trans (if_pos rfl)

/-! ## The end of a load -/

/-- Writing a load's values back changes only the registers. -/
theorem writeBack_eta (g : Group) (o : MemOp) (vd : Nat) : writeBack g o vd = { g with regs := (writeBack g o vd).regs } := by
  unfold writeBack
  induction o.lanes generalizing g with
  | nil => rfl
  | cons l ls ih =>
    simp only [List.foldl_cons]
    rw [ih]
    split
    · rfl
    · rw [← Group.wrWords.eq_def _ _ _ _ (fun i => BitVec.ofNat 32 (l.data.toNat / 2 ^ (32 * i))), Group.wrWords_eta]

theorem writeBack_wait (g : Group) (o : MemOp) (vd : Nat) : (writeBack g o vd).wait = g.wait := by rw [writeBack_eta]

/-- A load that ends finds its group ready to take its values, and no fence or team block that its end could settle. -/
structure Receives (s : State) (sp : Nat) (o : MemOp) (g : Group) : Prop where
  group : groupAt s sp o.slot = some g
  gid : g.gid = o.gid
  notStopped : g.stop = false
  notDone : g.done = false
  noFence : ∀ y ∈ (s.spur sp).groups, ∀ a c, y.2.wait ≠ some (.fence a c)
  noTeam : (s.spur sp).teamBlock = none

/-- The same where the Spur's groups and blocks are the same. -/
theorem Receives.congr {s t : State} {sp : Nat} {o : MemOp} {g : Group} (h : Receives s sp o g)
    (groups : (t.spur sp).groups = (s.spur sp).groups) (blocks : (t.spur sp).blocks = (s.spur sp).blocks) : Receives t sp o g where
  group := by rw [groupAt, groups]; exact h.group
  gid := h.gid
  notStopped := h.notStopped
  notDone := h.notDone
  noFence := by rw [groups]; exact h.noFence
  noTeam := by rw [Spur.teamBlock, blocks]; exact h.noTeam

section
variable {s : State} {sp : Nat}

/-- Looking at the fences of a Spur whose groups wait at none leaves the Spur as it is. -/
theorem spur_fenceCheck_of_none (noFence : ∀ y ∈ (s.spur sp).groups, ∀ a c, y.2.wait ≠ some (.fence a c)) :
    (fenceCheck s sp).spur sp = s.spur sp := by
  rw [fenceCheck_eq, spur_modSpur_self, Spur.fenced_of_none fun e he => fenceDone_of_ne (noFence e he)]

/-- A Spur without a team block has none to look at. -/
theorem teamSettle_of_none (noTeam : (s.spur sp).teamBlock = none) : teamSettle s sp = s := by
  rw [teamSettle, noTeam]

variable {o : MemOp} {vd : Nat} {g : Group}

/-- The groups of a Spur wait at no fence after a load has been written back to one of them. -/
theorem Receives.noFence_writeBack (h : Receives s sp o g) (o' : MemOp) :
    ∀ y ∈ tset (s.spur sp).groups o.slot (writeBack g o' vd), ∀ a c, y.2.wait ≠ some (.fence a c) := by
  intro y hy
  rcases eq_or_mem_of_mem_tset hy with rfl | old
  · rw [writeBack_wait]
    exact h.noFence _ (mem_of_tget? h.group)
  · exact h.noFence y old

/-- A plain load that ends leaves the operation list and is written back to its group. -/
theorem opEnd_load (kind : o.kind = .load vd) (order : o.order = 0) (receives : Receives s sp o g) :
    OnlySpur s (opEnd s sp o) sp ∧
      (opEnd s sp o).spur sp = { s.spur sp with
        ops := (s.spur sp).ops.filter fun x => x.id != o.id
        groups := tset (s.spur sp).groups o.slot (writeBack g o vd) } := by
  have here : groupAt (delOp s sp o.id) sp o.slot = some g := by rw [delOp, groupAt_modSpur]; exact receives.group
  have ends : opEnd s sp o = teamSettle (fenceCheck (setGroup (delOp s sp o.id) sp o.slot (writeBack g o vd)) sp) sp := by
    simp only [opEnd, here, kind, order, receives.gid, receives.notStopped, receives.notDone]
    rfl
  have written : (setGroup (delOp s sp o.id) sp o.slot (writeBack g o vd)).spur sp = { s.spur sp with
        ops := (s.spur sp).ops.filter fun x => x.id != o.id
        groups := tset (s.spur sp).groups o.slot (writeBack g o vd) } := by
    rw [spur_setGroup_self, delOp, spur_modSpur_self]
  have checked : (fenceCheck (setGroup (delOp s sp o.id) sp o.slot (writeBack g o vd)) sp).spur sp = _ :=
    (spur_fenceCheck_of_none (by rw [written]; exact receives.noFence_writeBack o)).trans written
  rw [ends, teamSettle_of_none (by rw [checked]; exact receives.noTeam)]
  exact ⟨((onlySpur_modSpur ..).trans (onlySpur_setGroup ..)).trans (onlySpur_modSpur ..), checked⟩

/-- A load of one lane after the value of its line has come. -/
def MemOp.answered (o : MemOp) (l : MemLane) (d : Line) : MemOp :=
  { o with lanes := [{ l with st := .done, data := lineValue d (l.pa % 64) o.size }] }

/-- A plain load alone in the operation list whose answer has come ends. -/
theorem opCheck_answered {l : MemLane} {d : Line} (ops : (s.spur sp).ops = [o.answered l d]) (kind : o.kind = .load vd)
    (order : o.order = 0) (receives : Receives s sp o g) :
    OnlySpur s (opCheck s sp (o.answered l d)) sp ∧
      (opCheck s sp (o.answered l d)).spur sp = { s.spur sp with
        ops := [], groups := tset (s.spur sp).groups o.slot (writeBack g (o.answered l d) vd) } := by
  have found : opAt s sp (o.answered l d).id = some (o.answered l d) := by simp [opAt, ops]
  have isLoad : (o.answered l d).loads = true := by simp [MemOp.loads, MemOp.answered, kind]
  have ends : opCheck s sp (o.answered l d) = opEnd s sp (o.answered l d) := by
    rw [opCheck, found, Option.getD_some]
    exact if_pos (by rw [isLoad]; simp [MemOp.answered])
  obtain ⟨frame, spur⟩ := opEnd_load (o := o.answered l d) kind order
    ⟨receives.group, receives.gid, receives.notStopped, receives.notDone, receives.noFence, receives.noTeam⟩
  rw [ends]
  refine ⟨frame, spur.trans ?_⟩
  rw [ops, List.filter_cons_of_neg (by simp), List.filter_nil]
  rfl

/-- The one operation of a list replaced. -/
theorem spur_setOp_of_single (o' : MemOp) (ops : (s.spur sp).ops = [o]) (id : o'.id = o.id) :
    (setOp s sp o').spur sp = { s.spur sp with ops := [o'] } := by
  rw [setOp, spur_modSpur_self, ops]
  simp [id]
end

/-! ## Fills -/

theorem spurRetry_of_nil {s : State} {sp : Nat} (h : (s.spur sp).ops = []) : spurRetry s sp = s := by
  rw [spurRetry, h]
  rfl

/-- Updates that give one Spur the same value are the same. -/
theorem modSpur_congr {s : State} {sp : Nat} {f f' : Spur → Spur} (h : f (s.spur sp) = f' (s.spur sp)) :
    modSpur s sp f = modSpur s sp f' := congrArg (fun p => { s with spurs := tset s.spurs sp p }) h

/-- Bit n of 2 to the power n. -/
theorem bit_getLsbD (sec : Fin 4) : (BitVec.ofNat 4 (2 ^ sec.val)).getLsbD sec = true := by decide +revert

/-- A line of the L1 after a sector has been installed. -/
def L1Line.installed (e : L1Line) (sec : Nat) (d : Line) : L1Line :=
  { e with valid := e.valid ||| BitVec.ofNat 4 (2 ^ sec), sec := tset e.sec sec d }

/-- A Spur after a way has been filled and no miss is left. -/
def Spur.filledLast (p : Spur) (k : Nat) (e : L1Line) : Spur := { p with l1miss := [], l1 := tset p.l1 k e }

/-- Sector `sec` of a line is the one thing that the one miss register `m` of a Spur waits for, in way `k`, which still holds
the line `e`; the one load `o` waits for it, and region L2 holds it clean in `x` (R77). -/
structure LastFill (s : State) (sp blk k : Nat) (ctx : BitVec 16) (sec : Fin 4) (m : L1Miss) (e : L1Line) (x : AgentLine)
    (o : MemOp) (l : MemLane) : Prop where
  misses : (s.spur sp).l1miss = [m]
  missBlk : m.blk = blk
  missCtx : m.ctx = ctx
  req : m.req = BitVec.ofNat 4 (2 ^ sec.val)
  way : m.way = some k
  noLine : m.noLine = false
  noSec : m.noSec = 0
  waiters : m.waiters = [(o.id, sec.val)]
  line : tget? (s.spur sp).l1 k = some e
  lineBlk : e.blk = blk
  lineCtx : e.ctx = ctx
  held : agentLine s (regionOf sp) (blk * 4 + sec) = some x
  clean : x.poison = false
  notRefused : takeRefused s (regionOf sp) (blk * 4 + sec) = none
  ops : (s.spur sp).ops = [o]
  lanes : o.lanes = [l]
  miss : l.st = .miss
  pa : l.pa / 64 = blk * 4 + sec

/-- The last fill installs its sector, takes its miss register away and answers its load. -/
theorem l1Fill_eq {s : State} {sp blk k : Nat} {ctx : BitVec 16} {sec : Fin 4} {m : L1Miss} {e : L1Line} {x : AgentLine}
    {o : MemOp} {l : MemLane} (fill : LastFill s sp blk k ctx sec m e x o l) :
    l1Fill s sp blk ctx sec = spurRetry (opCheck
      (setOp (modSpur s sp (Spur.filledLast · k (e.installed sec x.data))) sp (o.answered l x.data)) sp (o.answered l x.data)) sp := by
  obtain ⟨misses, hblk, hctx, req, way, noLine, noSec, waiters, line, eblk, ectx, held, clean, notRefused, ops, lanes, miss, pa⟩ :=
    fill
  have asked : m.req.getLsbD sec = true := req ▸ bit_getLsbD sec
  have found : (s.spur sp).l1miss.find? (fun m => m.blk == blk && m.ctx == ctx && m.req.getLsbD sec) = some m := by
    simp [misses, hblk, hctx, asked]
  have mine : m.waiters.filter (fun w => w.2 == sec.val) = [(o.id, sec.val)] := by simp [waiters]
  have installs : (m.noLine || m.noSec.getLsbD sec) = false := by simp [noLine, noSec]
  have answered : m.req &&& ~~~BitVec.ofNat 4 (2 ^ sec.val) = 0 := by rw [req, BitVec.and_not_self]
  unfold l1Fill
  simp only [found, notRefused, held, Option.map_some, Option.bind_some, clean, way, mine, installs]
  rw [modSpur_congr (f' := (Spur.filledLast · k (e.installed sec x.data)))]
  · have waits : opAt (modSpur s sp (Spur.filledLast · k (e.installed sec x.data))) sp o.id = some o := by
      simp [opAt, Spur.filledLast, ops]
    simp only [List.foldl_cons, List.foldl_nil, waits, lanes, List.map_cons, List.map_nil, miss, pa]
    rfl
  · simpa [Spur.filledLast, L1Line.installed, misses, line, eblk, ectx] using answered

/-! ## Loads served at their home -/

/-- A claim cache that fills leaves the Spurs as they are. -/
theorem claimCacheFill_frame (s : State) (pa : Nat) :
    (claimCacheFill s pa).spurs = s.spurs ∧ (claimCacheFill s pa).mem = s.mem ∧ (claimCacheFill s pa).poison = s.poison ∧
      (claimCacheFill s pa).regs = s.regs ∧ (claimCacheFill s pa).shadow = s.shadow := by
  unfold claimCacheFill
  simp only
  split
  · split <;> exact ⟨rfl, rfl, rfl, rfl, rfl⟩
  · exact ⟨rfl, rfl, rfl, rfl, rfl⟩

/-- A claim cache fills alike whatever the Spurs hold. -/
theorem claimCacheFill_modSpur (s : State) (k : Nat) (f : Spur → Spur) (pa : Nat) :
    claimCacheFill (modSpur s k f) pa = modSpur (claimCacheFill s pa) k f := by
  symm
  unfold claimCacheFill
  by_cases mem : isMem pa = true
  · simp only [if_pos mem]
    by_cases miss : (tget? (s.helper (homeOf s pa)).claims (memExtent pa)).isNone ∧ (s.helper (homeOf s pa)).claims.length < 8192
    · exact (congrArg (modSpur · k f) (if_pos miss)).trans (if_pos miss).symm
    · exact (congrArg (modSpur · k f) (if_neg miss)).trans (if_neg miss).symm
  · simp only [if_neg mem]

/-- A check at a target that passes only fills a claim cache. -/
theorem targetCheck_of_pass {s : State} {sp pa : Nat} {ctx : BitVec 16} {write : Bool}
    (pass : (targetCheck s sp ctx pa write).2 = true) :
    claimOk (claimCacheFill s pa) ctx pa write = true ∧ targetCheck s sp ctx pa write = (claimCacheFill s pa, true) := by
  have h : targetCheck s sp ctx pa write = if claimOk (claimCacheFill s pa) ctx pa write then (claimCacheFill s pa, true) else _ := rfl
  rw [h] at pass ⊢
  split at pass
  · next ok => exact ⟨ok, if_pos ok⟩
  · cases pass

/-- A check at a target passes alike whatever the Spurs hold. -/
theorem targetCheck_modSpur {s : State} {sp pa : Nat} {ctx : BitVec 16} {write : Bool} (k : Nat) (f : Spur → Spur)
    (pass : (targetCheck s sp ctx pa write).2 = true) :
    targetCheck (modSpur s k f) sp ctx pa write = (modSpur (targetCheck s sp ctx pa write).1 k f, true) := by
  obtain ⟨ok, passes⟩ := targetCheck_of_pass pass
  have h : targetCheck (modSpur s k f) sp ctx pa write =
      if claimOk (claimCacheFill (modSpur s k f) pa) ctx pa write then (claimCacheFill (modSpur s k f) pa, true) else _ := rfl
  rw [h, claimCacheFill_modSpur, if_pos (show claimOk (modSpur (claimCacheFill s pa) k f) ctx pa write = true from ok), passes]

/-- A lane of a load of NU memory whose line is idle, whose check passes and whose data is clean. -/
theorem loadLane_nu {s c : State} {sp : Nat} {o : MemOp} {l : MemLane} (typ : l.typ = 1) (mem : isMem l.pa = true)
    (idle : lineIdle s (l.pa / 64) = true) (check : targetCheck s sp o.ctx l.pa false = (c, true))
    (clean : (cohLine c (l.pa / 64)).2 = false) :
    loadLane s sp o l = (touch c (l.pa / 64),
      .inl { l with st := .done, data := lineValue (cohLine c (l.pa / 64)).1 (l.pa % 64) o.size }) := by
  have inMem : region l.pa = .hbm ∨ region l.pa = .board := by
    simp only [isMem, Bool.or_eq_true, Bool.and_eq_true, decide_eq_true_eq] at mem
    unfold region
    by_cases low : l.pa < hbmEnd
    · exact .inl (if_pos low)
    · exact .inr ((if_neg low).trans (if_pos (mem.resolve_left low)))
  rcases inMem with place | place
  all_goals
    simp only [loadLane, place, typ, idle, check, clean]
    rfl

/-- Going through the one lane of an operation, which is ready and is served. -/
theorem eachLane_single {s s' : State} {sp : Nat} {o : MemOp} {l l' : MemLane} {want : MemLane → Bool}
    {f : State → MemOp → MemLane → State × Sum MemLane Nat} (lanes : o.lanes = [l]) (ready : l.st = .ready)
    (wanted : want l = true) (free : lineBlocked (s.spur sp) o (l.pa / 64) = false) (served : f s o l = (s', .inl l')) :
    eachLane s sp o want f = .inl (setOp s' sp (o.setLane l'), o.setLane l') := by
  simp [eachLane, lanes, ready, wanted, free, served]

/-- An operation that has sent nothing to a window is as it is. -/
theorem arrived_of_ready {s : State} {sp : Nat} {o : MemOp} {l : MemLane} (lanes : o.lanes = [l]) (ready : l.st = .ready) :
    arrived s sp o = o := by
  have same : o.lanes.map (fun l => if l.st = .sent && !l.gone then { l with st := .done } else l) = o.lanes := by
    simp [lanes, ready]
  unfold arrived
  simp only [same]
  exact ite_self _

/-- `o`, alone in the operation list of a Spur, is a direct load of NU memory by one lane `l`, and its home can serve it now:
no transaction is open on the line, the claim check passes and the data is clean. -/
structure ServableLoad (s : State) (sp : Nat) (o : MemOp) (l : MemLane) : Prop where
  ops : (s.spur sp).ops = [o]
  lanes : o.lanes = [l]
  ready : l.st = .ready
  typ : l.typ = 1
  mem : isMem l.pa = true
  direct : o.direct = true
  free : lineBlocked (s.spur sp) o (l.pa / 64) = false
  idle : lineIdle s (l.pa / 64) = true
  pass : (targetCheck s sp o.ctx l.pa false).2 = true
  clean : (cohLine (targetCheck s sp o.ctx l.pa false).1 (l.pa / 64)).2 = false

/-- A servable load is answered with the bytes that its line holds. -/
theorem directResponse_nu {s : State} {sp vd : Nat} {o : MemOp} {l : MemLane} (kind : o.kind = .load vd)
    (load : ServableLoad s sp o l) :
    let c := (targetCheck s sp o.ctx l.pa false).1
    let o' := o.answered l (cohLine c (l.pa / 64)).1
    directResponse s sp o.id = fenceCheck (opCheck (setOp (setOp (touch c (l.pa / 64)) sp o) sp o') sp o') sp := by
  obtain ⟨ops, lanes, ready, typ, mem, direct, free, idle, pass, clean⟩ := load
  intro c o'
  have found : opAt s sp o.id = some o := by simp [opAt, ops]
  have translated : o.translated = true := by simp [MemOp.translated, lanes, ready]
  have first : dsBlocked (s.spur sp) o = false := by simp [dsBlocked, ops]
  have put : (setOp s sp o).spur sp = s.spur sp := by rw [spur_setOp_of_single o ops rfl, ← ops]
  have check : targetCheck (setOp s sp o) sp o.ctx l.pa false = (setOp c sp o, true) := targetCheck_modSpur _ _ pass
  have served : loadLane (setOp s sp o) sp o l = (setOp (touch c (l.pa / 64)) sp o,
      .inl { l with st := .done, data := lineValue (cohLine c (l.pa / 64)).1 (l.pa % 64) o.size }) :=
    loadLane_nu (c := setOp c sp o) typ mem idle check clean
  have goes := eachLane_single (want := fun l => !o.l1Lane l && dsTurn o l) (f := fun s o l => loadLane s sp o l) lanes ready
    (by simp [MemOp.l1Lane, direct, dsTurn, typ]) (by rw [put]; exact free) served
  have set : o.setLane { l with st := .done, data := lineValue (cohLine c (l.pa / 64)).1 (l.pa % 64) o.size } = o' := by
    simp [MemOp.setLane, lanes, o', MemOp.answered]
  rw [set] at goes
  unfold directResponse
  simp only [found, translated, first, arrived_of_ready lanes ready, kind]
  exact congrArg (fun r => fenceCheck (opSettle sp r o) sp) goes

/-- Settles O9: a fill and a load served at its home both answer the one load of the list, which then ends. -/
theorem l1FillsInvalidationsAndDirectLoads : Obligations.L1FillsInvalidationsAndDirectLoads := by
  refine ⟨?invalidate, ?fill, ?direct⟩
  case invalidate =>
    intro s sp sl w g a op func scope vd vb vc typ md issues
    have spur : (setGroup (modSpur s sp Spur.clearL1) sp sl g.next).spur sp =
        { (s.spur sp).clearL1 with groups := tset (s.spur sp).groups sl g.next } := by
      rw [spur_setGroup_self, spur_modSpur_self]
      rfl
    have invalid : ∀ e ∈ (s.spur sp).clearL1.l1, e.2.valid = 0 := List.forall_mem_map.2 fun _ _ => rfl
    refine ⟨_, congrArg Host.Outcome.next (maintOp_all_eq ⟨op, scope, vd, vb, vc, typ, md⟩ func issues),
      (onlySpur_modSpur ..).trans (onlySpur_setGroup ..), groupAt_setGroup .., ?_⟩
    rw [spur]
    exact ⟨invalid, List.forall_mem_map.2 fun _ _ => rfl, l1Hit_of_invalid invalid, rfl⟩
  case fill =>
    intro s sp blk k vd ctx sec m e x o l g misses hblk hctx req way noLine noSec waiters line eblk ectx held clean notRefused
      ops kind order lanes miss pa group gid notStopped notDone noFence noTeam
    have filled := l1Fill_eq ⟨misses, hblk, hctx, req, way, noLine, noSec, waiters, line, eblk, ectx, held, clean, notRefused,
      ops, lanes, miss, pa⟩
    have receives : Receives s sp o g := ⟨group, gid, notStopped, notDone, noFence, noTeam⟩
    have start : (setOp (modSpur s sp (Spur.filledLast · k (e.installed sec x.data))) sp (o.answered l x.data)).spur sp =
        { (s.spur sp).filledLast k (e.installed sec x.data) with ops := [o.answered l x.data] } := by
      rw [spur_setOp_of_single (o := o) (o.answered l x.data) (by rw [spur_modSpur_self]; exact ops) rfl, spur_modSpur_self]
    obtain ⟨frame, ended⟩ := opCheck_answered (by rw [start]) kind order
      (receives.congr (by rw [start]; rfl) (by rw [start]; rfl))
    rw [start] at ended
    rw [spurRetry_of_nil (by rw [ended])] at filled
    refine ⟨_, congrArg Host.Outcome.next filled, ((onlySpur_modSpur ..).trans (onlySpur_modSpur ..)).trans frame, ?_⟩
    rw [groupAt, ended]
    exact ⟨rfl, rfl, tget?_tset_self .., tget?_tset_self ..⟩
  case direct =>
    intro s sp vd o l g ops kind order lanes ready typ mem direct free idle pass clean group gid notStopped notDone noFence noTeam
    let c := (targetCheck s sp o.ctx l.pa false).1
    let d := (cohLine c (l.pa / 64)).1
    have receives : Receives s sp o g := ⟨group, gid, notStopped, notDone, noFence, noTeam⟩
    have performed := directResponse_nu kind ⟨ops, lanes, ready, typ, mem, direct, free, idle, pass, clean⟩
    have filled : c = claimCacheFill s l.pa := congrArg Prod.fst (targetCheck_of_pass pass).2
    obtain ⟨spurs, mem', poison', regs', shadow'⟩ := filled ▸ claimCacheFill_frame s l.pa
    have sameSpur : (touch c (l.pa / 64)).spur sp = s.spur sp := congrArg (fun t : Tbl Spur => tget t sp.val {}) spurs
    have put : (setOp (touch c (l.pa / 64)) sp o).spur sp = s.spur sp := by
      rw [spur_setOp_of_single (o := o) o (by rw [sameSpur, ops]) rfl, sameSpur, ← ops]
    have start : (setOp (setOp (touch c (l.pa / 64)) sp o) sp (o.answered l d)).spur sp = { s.spur sp with ops := [o.answered l d] } := by
      rw [spur_setOp_of_single (o := o) (o.answered l d) (by rw [put, ops]) rfl, put]
    obtain ⟨frame, ended⟩ := opCheck_answered (by rw [start]) kind order (receives.congr (by rw [start]) (by rw [start]))
    rw [start] at ended
    have looked := spur_fenceCheck_of_none (sp := sp) (by
      rw [ended]
      exact receives.noFence_writeBack (vd := vd) (o.answered l d))
    have onlySpur := (((onlySpur_modSpur ..).trans (onlySpur_modSpur ..)).trans frame).trans (onlySpur_modSpur _ sp Spur.fenced)
    obtain ⟨memory, registers⟩ := onlySpur.sameMemory_sameRegs
    refine ⟨_, congrArg Host.Outcome.next performed, ⟨fun a => (memory.1 a).trans (congrArg (memByte · a) mem'),
      memory.2.trans poison'⟩,
      ⟨registers.1.trans regs', registers.2.trans shadow'⟩, ?_⟩
    rw [groupAt, looked, ended]
    exact ⟨rfl, tget?_tset_self ..⟩

end Sys2Proof.Machine
end

section
/-! PROOF. Hauls: their issue, the rows of a bulk descriptor, the order in which a counter's copies finish, and a copy from
global to local memory (R63, R65, R66, R68, R517, R521). -/

namespace Sys2Proof.Machine

/-! ## Counters -/

/-- Where the next number has not finished DONE stays. -/
theorem advanceDone_of_not_mem {c : Counter} (h : c.done + 1 ∉ c.fin) (n : Nat) : advanceDone n c = c := by
  cases n with
  | zero => rfl
  | succ n => rw [advanceDone, if_neg (by simpa using h)]

theorem advanceDone_issue (n : Nat) (c : Counter) : (advanceDone n c).issue = c.issue := by
  induction n generalizing c with
  | zero => rfl
  | succ n ih =>
    rw [advanceDone]
    split
    · rw [ih]
    · rfl

/-- With fuel for every finished number, DONE stops before one that has not finished. -/
theorem advanceDone_stops {n : Nat} {c : Counter} (h : c.fin.length ≤ n) :
    (advanceDone n c).done + 1 ∉ (advanceDone n c).fin := by
  induction n generalizing c with
  | zero =>
    rw [advanceDone, List.length_eq_zero_iff.1 (Nat.le_zero.1 h)]
    exact List.not_mem_nil
  | succ n ih =>
    rw [advanceDone]
    split
    · next there =>
      refine ih ?_
      rw [List.length_erase_of_mem (by simpa using there)]
      omega
    · next stuck => simpa using stuck

theorem add_ofNat_succ (d : W32) (k : Nat) : d + BitVec.ofNat 32 (k + 1) = d + 1 + BitVec.ofNat 32 k := by
  rw [Nat.add_comm k 1, BitVec.ofNat_add, ← add_assoc]
  rfl

/-- DONE passes as many numbers as there is fuel at most, each of them finished. -/
theorem advanceDone_passes (n : Nat) (c : Counter) :
    ∃ k ≤ n, (advanceDone n c).done = c.done + BitVec.ofNat 32 k ∧ ∀ j < k, c.done + 1 + BitVec.ofNat 32 j ∈ c.fin := by
  induction n generalizing c with
  | zero => exact ⟨0, le_refl 0, by simp [advanceDone], fun j hj => absurd hj (Nat.not_lt_zero j)⟩
  | succ n ih =>
    rw [advanceDone]
    split
    · next finished =>
      obtain ⟨k, hk, hdone, passed⟩ := ih { c with
        done := c.done + 1, fin := c.fin.erase (c.done + 1), zero := c.zero.erase (c.done + 1) }
      refine ⟨k + 1, by omega, ?_, fun j hj => ?_⟩
      · rw [hdone, add_ofNat_succ]
      · cases j with
        | zero => simpa using finished
        | succ j =>
          have there := List.mem_of_mem_erase (passed j (by omega))
          rwa [add_ofNat_succ]
    · exact ⟨0, Nat.zero_le _, by simp, fun j hj => absurd hj (Nat.not_lt_zero j)⟩

theorem Counter.finish_issue (c : Counter) (n : W32) : (c.finish n).issue = c.issue := advanceDone_issue _ _

/-- A copy that finishes out of order, where the next number has not finished, leaves DONE where it is. -/
theorem Counter.finish_done_of_not_next {c : Counter} {n : W32} (other : n ≠ c.done + 1) (notNext : c.done + 1 ∉ c.fin) :
    (c.finish n).done = c.done := by
  have stuck : c.done + 1 ∉ n :: c.fin := by simpa using ⟨other.symm, notNext⟩
  have same : c.finish n = { c with fin := n :: c.fin } := advanceDone_of_not_mem (c := { c with fin := n :: c.fin }) stuck _
  rw [same]

/-- Every number that DONE passes when a copy finishes is that copy's or had finished before. -/
theorem Counter.mem_of_finish_passes {c : Counter} {n m : W32} (room : c.fin.length + 1 < 2 ^ 32)
    (passed : (m - c.done - 1).toNat < ((c.finish n).done - c.done).toNat) : m ∈ n :: c.fin := by
  obtain ⟨k, hk, hdone, all⟩ := advanceDone_passes (c.fin.length + 1) { c with fin := n :: c.fin }
  have count : ((c.finish n).done - c.done).toNat = k := by
    have h : (c.finish n).done = c.done + BitVec.ofNat 32 k := hdone
    rw [h, add_sub_cancel_left, BitVec.toNat_ofNat, Nat.mod_eq_of_lt (by omega)]
  have there := all (m - c.done - 1).toNat (count ▸ passed)
  rwa [BitVec.ofNat_toNat, BitVec.setWidth_eq, show c.done + 1 + (m - c.done - 1) = m by ring] at there

/-! ## Bulk descriptors -/

/-- Row r of a bulk descriptor in a lane's registers. -/
def bulkRow (g : Group) (l vg r : Nat) : CopyPart :=
  let len := (bits (g.rd l (vg + 3)).toNat 27 12 + 1) * 16
  { va := g.rd64 l vg + BitVec.ofNat 64 (r * (g.rd l (vg + 4)).toNat)
    la := bits (g.rd l (vg + 2)).toNat 23 0 + r * len, len := len }

/-- The rows that a bulk descriptor names, and what its limits bound. -/
theorem bulkParts_rows {g : Group} {l vg : Nat} {parts : List CopyPart} (h : bulkParts g l vg = some parts) :
    let rows := bits (g.rd l (vg + 3)).toNat 11 0 + 1
    let len := (bits (g.rd l (vg + 3)).toNat 27 12 + 1) * 16
    len ≤ 65536 ∧ rows * len ≤ 2 ^ 20 ∧ parts = (List.range rows).map (bulkRow g l vg) := by
  simp only [bulkParts] at h
  split at h
  · cases h
  · next legal =>
    simp only [not_or, Nat.not_lt] at legal
    obtain ⟨-, -, -, -, -, short, small⟩ := legal
    exact ⟨short, small, (Option.some.inj h).symm⟩

/-! ## Issue -/

section
variable {s : State} {sp sl i scope : Nat} {g : Group} {b : Block} {toGlobal : Bool}

/-- The copy that a haul enters in the copy unit. -/
def copyJob (s : State) (sp sl : Nat) (g : Group) (b : Block) (i : Nat) (toGlobal : Bool) (scope : Nat) (parts : List CopyPart) :
    CopyJob :=
  { id := (s.spur sp).nextId, slot := sl, blk := g.blk, gidx := g.idx, pc := g.pc, ctx := b.ctx, ctr := i
    num := (tget (s.spur sp).counters i {}).issue + 1, toGlobal := toGlobal
    scope := scopeExec s b.ctx (BitVec.ofNat 3 scope), parts := parts }

/-- A haul with bytes to move takes the next number and enters the copy unit; its group goes on. -/
theorem copyIssue_of_parts {parts : List CopyPart} (free : acquireHeld (s.spur sp) g.gid = false) (places : copyPlaces s sp < 256)
    (some : parts ≠ []) : copyIssue s sp sl g b i toGlobal scope parts = setGroup (modSpur s sp fun p => { p with
      counters := tmod p.counters i {} fun c => { c with issue := (tget (s.spur sp).counters i {}).issue + 1 }
      nextId := p.nextId + 1
      copies := p.copies ++ [copyJob s sp sl g b i toGlobal scope parts] }) sp sl g.next := by
  refine (if_neg ?_).trans ?_
  · simp [free]; omega
  · simp only [if_neg some]
    rfl

/-- What a haul with bytes to move changes. -/
theorem copyIssue_frame {parts : List CopyPart} (free : acquireHeld (s.spur sp) g.gid = false) (places : copyPlaces s sp < 256)
    (some : parts ≠ []) :
    let t := copyIssue s sp sl g b i toGlobal scope parts
    OnlySpur s t sp ∧ groupAt t sp sl = Option.some g.next ∧ (t.spur sp).lmem = (s.spur sp).lmem ∧
      (tget (t.spur sp).counters i {}).issue = (tget (s.spur sp).counters i {}).issue + 1 ∧
      (tget (t.spur sp).counters i {}).done = (tget (s.spur sp).counters i {}).done ∧
      (t.spur sp).copies = (s.spur sp).copies ++ [copyJob s sp sl g b i toGlobal scope parts] := by
  intro t
  have issued : t = _ := copyIssue_of_parts free places some
  rw [issued]
  refine ⟨(onlySpur_modSpur ..).trans (onlySpur_setGroup ..), groupAt_setGroup .., ?_⟩
  simp only [spur_setGroup_self, spur_modSpur_self, tget_tmod_self, and_self]

/-- A haul without a byte to move takes a number that is finished at once. -/
theorem copyIssue_of_nil (free : acquireHeld (s.spur sp) g.gid = false) :
    copyIssue s sp sl g b i toGlobal scope [] = finishCount (setGroup (modSpur s sp fun p => { p with
      counters := tmod p.counters i {} fun c => { c with
        issue := (tget (s.spur sp).counters i {}).issue + 1, zero := ((tget (s.spur sp).counters i {}).issue + 1) :: c.zero }
      nextId := p.nextId + 1 }) sp sl g.next) sp i ((tget (s.spur sp).counters i {}).issue + 1) := by
  refine (if_neg ?_).trans ?_
  · simp [free]
  · simp only [if_true]
    rfl
end

section
variable {s : State} {sp sl i : Nat} {w : W64} {g : Group} {b : Block} {parts : List CopyPart}
  (block : blockAt s sp g.blk = some b) (counter : ctrIndex b g.blk (fmtC w).ctr = some i) (scope : (fmtC w).scope < 6)
  (res0 : (fmtC w).res0 = 0) (even : (fmtC w).vg % 2 = 0)
include block counter scope res0 even

/-- A `haul.lane` that issues, whose lanes are aligned and inside the allocation. -/
theorem haulLane_eq (op : opOf w = 0x20) (size : (fmtC w).size < 3) (issues : Issues s sp sl (run (fmtC w).vg 2 ++ [(fmtC w).vl]) g)
    (named : parts = (g.enabled (fmtC w).pred (fmtC w).pneg).map fun l =>
      { va := g.rd64 l (fmtC w).vg, la := (g.rd l (fmtC w).vl).toNat, len := 4 * 2 ^ (fmtC w).size })
    (fit : ∀ q ∈ parts, q.va.toNat % (4 * 2 ^ (fmtC w).size) = 0 ∧ q.la % (4 * 2 ^ (fmtC w).size) = 0 ∧
      q.la + 4 * 2 ^ (fmtC w).size ≤ b.localSize) :
    haulLane s sp sl w = copyIssue s sp sl g b i (fmtC w).toGlobal (fmtC w).scope parts := by
  have aligned : parts.find? (fun p => p.va.toNat % (4 * 2 ^ (fmtC w).size) != 0) = none := by simpa using fun q hq => (fit q hq).1
  have inside : localCause b (4 * 2 ^ (fmtC w).size) (parts.map (·.la)) = none :=
    localCause_eq_none (List.forall_mem_map.2 fun q hq => (fit q hq).2)
  refine (ofClass_issue op issues ?_).trans ?_
  · simp [badCtr_eq_false issues block counter, res0, even]
    omega
  · simp only [block, counter]
    rw [← named, aligned]
    simp only [inside]

/-- A `haul.bulk` that issues and whose lowest active lane is enabled, with a legal descriptor inside the allocation. -/
theorem haulBulk_eq {l : Nat} {rest : List Nat} (op : opOf w = 0x21) (size : (fmtC w).size = 0) (vl : (fmtC w).vl = 0)
    (issues : Issues s sp sl (run (fmtC w).vg 5) g) (lanes : g.lanes = l :: rest)
    (on : xor (g.pred l (fmtC w).pred) (fmtC w).pneg = true) (legal : bulkParts g l (fmtC w).vg = some parts)
    (fit : ∀ q ∈ parts, q.la + q.len ≤ b.localSize) :
    haulBulk s sp sl w = copyIssue s sp sl g b i (fmtC w).toGlobal (fmtC w).scope parts := by
  have inside : parts.find? (fun p => b.localSize < p.la + p.len) = none := by simpa using fit
  refine (ofClass_issue op issues ?_).trans ?_
  · simp [badCtr_eq_false issues block counter, res0, even, size, vl, scope]
  · simp only [block, lanes, List.head?_cons, counter, on, legal, inside, if_true]
end

/-! ## A copy from global to local memory -/

/-- A piece within a line is not cut. -/
theorem lines_of_within {p : CopyPart} (h : p.va.toNat % 64 + p.len ≤ 64) : p.lines = [p] := by
  rw [CopyPart.lines, cutPart]
  exact if_pos (by omega)

/-- A piece from memory whose line is idle, whose check passes and whose data is clean. -/
theorem pieceIn_mem {s c : State} {sp pa base : Nat} {j : CopyJob} {p : CopyPart} (unread : p.st ≠ .done)
    (translated : xlate s j.ctx p.va false = .inl pa) (inside : outside pa = false) (mem : isMem pa = true)
    (idle : lineIdle s (pa / 64) = true) (check : targetCheck s sp j.ctx pa false = (c, true))
    (clean : (cohRead c pa p.len).2 = false) :
    pieceIn s sp j base p = .done (modSpur (touch c (pa / 64)) sp fun q =>
      { q with lmem := memWrite q.lmem (base + p.la) (cohRead c pa p.len).1 }) := by
  simp only [pieceIn, if_neg unread, translated, inside, mem, idle, check, clean]
  rfl

/-- Settles O10: hauls by the copy that they enter, a counter by how far `advanceDone` goes, a copy by its one piece. -/
theorem haulsAreIssuedMovedAndCounted : Obligations.HaulsAreIssuedMovedAndCounted := by
  refine ⟨?issue, ?rows, ?order, ?moved⟩
  case issue =>
    intro s sp sl w g b i c p issued block counter free places scope res0 even
    refine ⟨?lane, ?bulk, ?empty⟩
    case lane =>
      intro n parts op size issues some fit
      exact ⟨_, congrArg Host.Outcome.next (haulLane_eq block counter scope res0 even op size issues rfl fit),
        copyIssue_frame free places some⟩
    case bulk =>
      intro op size vl issues l rest parts lanes on legal fit
      obtain ⟨-, -, rows⟩ := bulkParts_rows legal
      exact ⟨_, congrArg Host.Outcome.next (haulBulk_eq block counter scope res0 even op size vl issues lanes on legal fit),
        copyIssue_frame free places (by simp [rows])⟩
    case empty =>
      intro op size issues none
      have performed := (haulLane_eq block counter scope res0 even op size issues (parts := []) (by rw [none]; rfl) (by simp)).trans
        (copyIssue_of_nil free)
      refine ⟨_, congrArg Host.Outcome.next performed,
        ((onlySpur_modSpur ..).trans (onlySpur_setGroup ..)).trans (onlySpur_modSpur ..), ?_⟩
      simp only [finishCount, spur_modSpur_self, spur_setGroup_self, tget_tset_self, Counter.finish_issue, tget_tmod_self]
      exact ⟨rfl, rfl⟩
  case rows =>
    intro g l vg parts legal rows len
    obtain ⟨short, small, hparts⟩ := bulkParts_rows legal
    refine ⟨by rw [hparts, List.length_map, List.length_range], short, small, fun r hr => ⟨bulkRow g l vg r, ?_, rfl, rfl, rfl⟩⟩
    rw [hparts, List.getElem?_map, List.getElem?_range hr, Option.map_some]
  case order =>
    intro c n room
    exact ⟨c.finish_issue n, advanceDone_stops (le_refl _), fun m => Counter.mem_of_finish_passes room,
      Counter.finish_done_of_not_next⟩
  case moved =>
    intro s sp j p b pa found block inward parts unread within translated inside mem idle pass clean c bytes landed freed
    have piece : pieceIn s sp j b.base p = .done landed :=
      pieceIn_mem unread translated inside mem idle (Prod.ext rfl pass) clean
    refine congrArg Host.Outcome.next ?_
    rw [copyComplete, found]
    simp only [block, parts, List.flatMap_cons, List.flatMap_nil, List.append_nil, lines_of_within within, List.foldl_cons,
      List.foldl_nil, inward, piece]
    rfl

end Sys2Proof.Machine
end

section
/-! PROOF. Launches, timed launches and the start of a block (R38, R39, R42, R45, R46, R48, R271, R386). -/

namespace Sys2Proof.Machine

/-! ## The pending order of a die -/

/-- A tensor die after a kernel has entered its pending order. -/
def TensorDie.addPend (t : TensorDie) (cid : Nat) : TensorDie :=
  { t with pend := if t.pend.contains cid then t.pend else t.pend ++ [cid] }

theorem TensorDie.addPend_pend (t : TensorDie) (cid : Nat) :
    (t.addPend cid).pend = if cid ∉ t.pend then t.pend ++ [cid] else t.pend := by
  simp [TensorDie.addPend]

/-- A kernel enters a pending order once. -/
theorem TensorDie.addPend_addPend (t : TensorDie) (cid : Nat) : (t.addPend cid).addPend cid = t.addPend cid := by
  have there : (t.addPend cid).pend.contains cid = true := by
    rw [List.contains_iff_mem, TensorDie.addPend_pend]
    split
    · exact List.mem_append_right _ (List.mem_singleton_self cid)
    · next h => exact not_not.1 h
  rw [TensorDie.addPend, if_pos there]

@[simp] theorem tdie_modTdie_self (s : State) (td : Nat) (f : TensorDie → TensorDie) : (modTdie s td f).tdie td = f (s.tdie td) := by
  simp [State.tdie]

theorem tdie_modTdie_ne (s : State) {td d : Nat} (f : TensorDie → TensorDie) (h : d ≠ td) : (modTdie s td f).tdie d = s.tdie d := by
  simp [State.tdie, h]

/-- A kernel that has a Spur on a die enters its pending order. -/
theorem enterDie_eq {s : State} {cid td : Nat} {k : Kernel} (kernel : tget? s.kernels cid = some k) (spur : noSpur s k td = false) :
    enterDie s cid td = modTdie s td (·.addPend cid) := by
  rw [enterDie, kernel]
  exact if_neg (by rw [spur]; decide)

/-- A kernel enters the pending orders of a list of dies. -/
def enterAll (s : State) (cid : Nat) (dies : List Nat) : State := dies.foldl (fun s td => modTdie s td (·.addPend cid)) s

/-- Entering pending orders changes tensor dies alone. -/
theorem enterAll_frame (cid : Nat) (dies : List Nat) (s : State) :
    enterAll s cid dies = { s with tdies := (enterAll s cid dies).tdies } := by
  unfold enterAll
  induction dies generalizing s with
  | nil => rfl
  | cons td dies ih => rw [List.foldl_cons, ih]; rfl

theorem foldl_enterDie {cid : Nat} {k : Kernel} {dies : List Nat} {s : State} (kernel : tget? s.kernels cid = some k)
    (spurs : ∀ td ∈ dies, noSpur s k td = false) : dies.foldl (fun s td => enterDie s cid td) s = enterAll s cid dies := by
  unfold enterAll
  induction dies generalizing s with
  | nil => rfl
  | cons td dies ih =>
    rw [List.foldl_cons, List.foldl_cons, enterDie_eq kernel (spurs td List.mem_cons_self)]
    exact ih kernel fun d hd => spurs d (List.mem_cons_of_mem _ hd)

/-- Each die after a kernel has entered the pending orders of a list of dies. -/
theorem tdie_enterAll (cid : Nat) (dies : List Nat) (s : State) (td : Nat) :
    (enterAll s cid dies).tdie td = if td ∈ dies then (s.tdie td).addPend cid else s.tdie td := by
  unfold enterAll
  induction dies generalizing s with
  | nil => simp
  | cons d dies ih =>
    rw [List.foldl_cons, ih]
    by_cases isHead : td = d
    · subst isHead
      simp [TensorDie.addPend_addPend]
    · simp [tdie_modTdie_ne _ _ isHead, isHead]

/-! ## The kernel's share -/

/-- A die has not finished its share while blocks of it have not started. -/
theorem shareDone_eq_false {s : State} {kid td : Nat} {k : Kernel} (runs : k.stopped = false)
    (more : tget k.next td 0 < shareCount k (k.dies.findIdx (· == td)) k.dies.length) : shareDone s kid k td = false := by
  have notAll : ¬ shareCount k (k.dies.findIdx (· == td)) k.dies.length ≤ tget k.next td 0 := Nat.not_le.2 more
  simp [shareDone, runs, notAll]

/-- A kernel that a die has not finished stays. -/
theorem kernelCheck_of_left {s : State} {kid td : Nat} {k : Kernel} (kernel : tget? s.kernels kid = some k) (left : td ∈ k.left)
    (more : shareDone s kid k td = false) : kernelCheck s kid =
      { s with kernels := tset s.kernels kid { k with left := k.left.filter fun td => !shareDone s kid k td } } := by
  have some : k.left.filter (fun td => !shareDone s kid k td) ≠ [] :=
    List.ne_nil_of_mem (List.mem_filter.2 ⟨left, by rw [more]; rfl⟩)
  rw [kernelCheck, kernel]
  exact if_neg some

/-- A mask of dies that is not 0 selects one. -/
theorem Kernel.dies_ne_nil {k : Kernel} (h : k.dieMask ≠ 0) : k.dies ≠ [] := by
  intro none
  refine h (BitVec.eq_of_getLsbD_eq fun i hi => ?_)
  have unset := List.filter_eq_nil_iff.1 none i (List.mem_range.2 hi)
  simpa using unset

/-- The first selected die has a block of every grid. -/
theorem shareCount_head_pos {k : Kernel} {td : Nat} {rest : List Nat} (dies : k.dies = td :: rest) (blocks : 1 ≤ k.gx * k.gy * k.gz) :
    0 < shareCount k (k.dies.findIdx (· == td)) k.dies.length := by
  have first : k.dies.findIdx (· == td) = 0 := by rw [dies, List.findIdx_cons]; simp
  rw [first, shareCount]
  have len : 1 ≤ k.dies.length := by rw [dies]; simp
  exact Nat.div_pos (by omega) len

/-- What an accepted descriptor has (R40 to R44). -/
theorem launchOk_grid {c : Cmd} {k : Kernel} (h : launchOk c k = true) : 1 ≤ k.gx * k.gy * k.gz ∧ k.dieMask ≠ 0 := by
  simp only [launchOk, Bool.and_eq_true, decide_eq_true_eq, bne_iff_ne] at h
  have gx : 1 ≤ k.gx := by tauto
  have gy : 1 ≤ k.gy := by tauto
  have gz : 1 ≤ k.gz := by tauto
  exact ⟨Nat.mul_pos (Nat.mul_pos gx gy) gz, by tauto⟩

/-! ## Launches -/

section
variable {s : State} {cid : Nat} {c : Cmd}

/-- The state once the launch of a command is accepted, before its kernel is pending. -/
def launched (s : State) (cid : Nat) (c : Cmd) : State :=
  { setCmd s cid { c with running := true } with
    kernels := tset s.kernels cid { launchKernel s cid c with left := (launchKernel s cid c).dies } }

/-- What LAUNCH of a command that is not yet running does. -/
theorem launch_eq (runs : runnable s cid 0x02 = some c) (notYet : c.running = false) :
    launch s cid =
      if (s.ctx? c.ctx).isNone then finishCmd s cid 0x04
      else if !launchOk c (launchKernel s cid c) then finishCmd s cid 0x0F
      else if (launchKernel s cid c).timed ∧ s.time.toNat < (launchKernel s cid c).startAt.toNat then launched s cid c
      else kernelCheck ((launchKernel s cid c).dies.foldl (fun s td => enterDie s cid td) (launched s cid c)) cid := by
  rw [launch, runs]
  exact if_neg (by rw [notYet]; decide)

/-- A launch that need not wait for its instant, on dies that each have a Spur for it. -/
theorem launch_spec (accepted : launchOk c (launchKernel s cid c) = true)
    (spurs : ∀ td ∈ (launchKernel s cid c).dies, noSpur s (launchKernel s cid c) td = false) :
    let k := launchKernel s cid c
    let t := kernelCheck (k.dies.foldl (fun s td => enterDie s cid td) (launched s cid c)) cid
    SameMemory s t ∧ SameRegs s t ∧ t.cmd? cid = some { c with running := true } ∧
      (∀ td, (t.tdie td).pend = if td ∈ k.dies ∧ cid ∉ (s.tdie td).pend then (s.tdie td).pend ++ [cid] else (s.tdie td).pend) ∧
      ∃ k', tget? t.kernels cid = some k' ∧ k'.entry = k.entry ∧ k'.dies = k.dies ∧ k'.next = [] := by
  intro k t
  obtain ⟨blocks, selects⟩ := launchOk_grid accepted
  obtain ⟨first, rest, dies⟩ := List.exists_cons_of_ne_nil (Kernel.dies_ne_nil selects)
  let k₁ : Kernel := { k with left := k.dies }
  have kernel : tget? (launched s cid c).kernels cid = some k₁ := tget?_tset_self ..
  have entered : k.dies.foldl (fun s td => enterDie s cid td) (launched s cid c) = enterAll (launched s cid c) cid k.dies :=
    foldl_enterDie kernel spurs
  have frame := enterAll_frame cid k.dies (launched s cid c)
  have kernel' : tget? (enterAll (launched s cid c) cid k.dies).kernels cid = some k₁ := by rw [frame]; exact kernel
  have more : shareDone (enterAll (launched s cid c) cid k.dies) cid k₁ first = false :=
    shareDone_eq_false rfl (shareCount_head_pos (k := k₁) dies blocks)
  have ends : t = _ := (congrArg (kernelCheck · cid) entered).trans
    (kernelCheck_of_left kernel' (show first ∈ k.dies by rw [dies]; exact List.mem_cons_self) more)
  rw [ends]
  refine ⟨?_, ?_, ?_, fun td => ?_, _, tget?_tset_self .., rfl, rfl, rfl⟩
  · rw [frame]
    exact ⟨fun _ => rfl, rfl⟩
  · rw [frame]
    exact ⟨rfl, rfl⟩
  · rw [frame]
    exact cmd?_setCmd_self ..
  · show ((enterAll (launched s cid c) cid k.dies).tdie td).pend = _
    rw [tdie_enterAll]
    show (if td ∈ k.dies then (s.tdie td).addPend cid else s.tdie td).pend = _
    by_cases selected : td ∈ k.dies
    · rw [if_pos selected, TensorDie.addPend_pend]
      simp only [selected, true_and]
    · rw [if_neg selected, if_neg fun h => selected h.1]
end

/-! ## Placement of a block -/

/-- A free group slot holds no group. -/
theorem tget?_of_slotFree {p : Spur} {u sl : Nat} (h : slotFree p u = some sl) : tget? p.groups sl = none := by
  simpa using List.find?_some h

section
variable (blk big width regs threads : Nat) (entry : W64)

/-- Placing groups leaves the blocks of the Spur as they are. -/
theorem placeGroups_blocks (n i : Nat) (p : Spur) : (placeGroups p blk big width regs threads entry i n).blocks = p.blocks := by
  induction n generalizing i p with
  | zero => rfl
  | succ n ih =>
    rw [placeGroups]
    simp only
    split
    · rfl
    · rw [ih]

/-- Placing groups keeps every group that was there. -/
theorem placeGroups_keeps {sl : Nat} {g : Group} (n i : Nat) (p : Spur) (h : tget? p.groups sl = some g) :
    tget? (placeGroups p blk big width regs threads entry i n).groups sl = some g := by
  induction n generalizing i p with
  | zero => exact h
  | succ n ih =>
    rw [placeGroups]
    simp only
    split
    · exact h
    · next free found =>
      refine ih _ _ ?_
      have other : sl ≠ free := fun same => by
        rw [same, tget?_of_slotFree found] at h
        cases h
      rw [tget?_tset_ne _ _ other, h]

/-- A group that is placed starts at the kernel's entry with every register 0. -/
theorem placeGroups_places {sl : Nat} {g : Group} (n i : Nat) (p : Spur)
    (here : tget? (placeGroups p blk big width regs threads entry i n).groups sl = some g) (before : tget? p.groups sl = none) :
    g.blk = blk ∧ g.regs = [] ∧ g.preds = [] ∧ g.pc = entry ∧ g.width = width := by
  induction n generalizing i p with
  | zero => rw [placeGroups, before] at here; cases here
  | succ n ih =>
    rw [placeGroups] at here
    simp only at here
    split at here
    · rw [before] at here; cases here
    · next free found =>
      by_cases same : sl = free
      · subst same
        rw [placeGroups_keeps _ _ _ _ _ _ n _ _ (tget?_tset_self ..)] at here
        cases here
        exact ⟨rfl, rfl, rfl, rfl, rfl⟩
      · exact ih _ _ here (by rw [tget?_tset_ne _ _ same, before])
end

/-- The state after the next block of a kernel has been put on a Spur. -/
theorem startBlock_eq {s : State} {td sp slot g0 : Nat} {k : Kernel} (block : freeBlock (s.spur sp) = some slot)
    (grans : freeGrans (s.spur sp) k.grans = some g0) : startBlock s td sp k =
      { modSpur s sp (putBlock · (nextBlock k td g0) slot k.regs k.threads k.entry) with
        kernels := tset s.kernels k.cid { k with next := tset k.next td (tget k.next td 0 + 1) } } := by
  rw [startBlock, block, grans]
  rfl

/-- The oldest pending kernel of a die, which has a Spur, starts its next block. -/
theorem blockStart_eq {s : State} {td sp : Nat} {k : Kernel} {ks : List Kernel} (pending : pendingOn s td = k :: ks)
    (fits : pickSpur s k td = some sp) : blockStart s td = startBlock (modTdie s td fun t => { t with miss8 := 0 }) td sp k := by
  rw [blockStart, pending]
  simp only [fits]

/-- Settles O11: launches by the pending orders that the kernel enters, BLOCK_START by where `putBlock` places the groups. -/
theorem launchesReachTheirDiesAndBlocksStart : Obligations.LaunchesReachTheirDiesAndBlocksStart := by
  refine ⟨?launch, ?timed, ?start⟩
  case launch =>
    intro s cid c runs notYet k
    have performed := launch_eq runs notYet
    refine ⟨fun unloaded => ?_, fun loaded illegal => ?_, fun loaded accepted timed early => ?_, fun loaded accepted due spurs => ?_⟩
    · exact congrArg Host.Outcome.next (performed.trans (if_pos (by rw [unloaded]; rfl)))
    all_goals have known : ¬ (s.ctx? c.ctx).isNone = true := by simpa [Option.isSome_iff_ne_none] using loaded
    · exact congrArg Host.Outcome.next (performed.trans ((if_neg known).trans (if_pos (by rw [illegal]; rfl))))
    all_goals have legal : ¬ (!launchOk c k) = true := by rw [accepted]; decide
    · exact congrArg Host.Outcome.next
        (performed.trans ((if_neg known).trans ((if_neg legal).trans (if_pos ⟨timed, early⟩))))
    · exact ⟨_, congrArg Host.Outcome.next (performed.trans ((if_neg known).trans ((if_neg legal).trans
        (if_neg fun h => Nat.not_le.2 h.2 (due h.1))))), launch_spec accepted spurs⟩
  case timed =>
    intro s td cid time k kernel timed due selected runs left notYet spur more
    have entered : enterDie (setTime s time) cid td = modTdie (setTime s time) td (·.addPend cid) := enterDie_eq kernel spur
    have performed : timedLaunch s td cid time = kernelCheck (modTdie (setTime s time) td (·.addPend cid)) cid := by
      rw [← entered, timedLaunch, setTime_kernels, kernel]
      refine if_pos ?_
      have absent : (s.tdie td).pend.contains cid = false := by simpa using notYet
      have reached : k.startAt.toNat ≤ (setTime s time).time.toNat := due
      simp only [timed, reached, runs, List.contains_iff_mem.2 selected, List.contains_iff_mem.2 left, decide_true,
        show ((setTime s time).tdie td).pend.contains cid = false from absent]
      decide
    have ends := performed.trans (kernelCheck_of_left (k := k) kernel left (shareDone_eq_false runs more))
    refine ⟨_, congrArg Host.Outcome.next ends, rfl, ?_, fun d hd => ?_, ⟨fun _ => rfl, rfl⟩, ⟨rfl, rfl⟩, rfl⟩
    · show ((modTdie (setTime s time) td (·.addPend cid)).tdie td).pend = _
      rw [tdie_modTdie_self, TensorDie.addPend_pend]
      exact if_pos notYet
    · exact tdie_modTdie_ne (setTime s time) (·.addPend cid) hd
  case start =>
    intro s td k ks sp slot g0 pending fits block grans
    have performed := (blockStart_eq pending fits).trans (startBlock_eq (td := td) block grans)
    let placed := putBlock (s.spur sp) (nextBlock k td g0) slot k.regs k.threads k.entry
    let v := modTdie s td fun t => { t with miss8 := 0 }
    let put := (putBlock · (nextBlock k td g0) slot k.regs k.threads k.entry)
    let u := modSpur v sp put
    have spur : u.spur sp = placed := spur_modSpur_self ..
    refine ⟨_, congrArg Host.Outcome.next performed, ⟨fun _ => rfl, rfl⟩, ⟨rfl, rfl⟩, ?block, fun q hq => ?others, ?miss,
      ⟨_, tget?_tset_self .., tget_tset_self ..⟩, fun sl g here before => ?new, fun sl g before => ?old⟩
    case block =>
      show tget? (u.spur sp).blocks slot = _
      rw [spur]
      show tget? (placeGroups ..).blocks slot = _
      rw [placeGroups_blocks]
      exact tget?_tset_self ..
    case others => exact spur_modSpur_ne v put hq
    case miss => exact congrArg TensorDie.miss8 (tdie_modTdie_self s td fun t => { t with miss8 := 0 })
    case new =>
      have here' : tget? (u.spur sp).groups sl = some g := here
      rw [spur] at here'
      exact placeGroups_places _ _ _ _ _ _ _ _ _ here' before
    case old =>
      show tget? (u.spur sp).groups sl = some g
      rw [spur]
      exact placeGroups_keeps _ _ _ _ _ _ _ _ _ before

end Sys2Proof.Machine
end

section
/-! PROOF. The matrix seat and the matrix queue (R107, R108, R110, R113 to R119, R123, R130). -/

namespace Sys2Proof.Machine

/-! ## The seat -/

/-- The group that holds the seat, in a region that is not closing. -/
theorem hasSeat_iff (s : State) (sp sl : Nat) :
    hasSeat s sp sl = true ↔ (s.spur sp).mx.seat = some sl ∧ (s.spur sp).mx.closing = false := by
  simp [hasSeat]

/-- Is the wait of a group of slot `k` on the matrix queue over: `mx.wait` with nothing queued, `mx.close` with the seat given
up? -/
def Group.mxWaitOver (m : MxUnit) (k : Nat) (g : Group) : Bool :=
  decide (g.wait = some .mxWait ∧ m.queue = [] ∨ g.wait = some .mxClose ∧ m.seat ≠ some k)

/-- A group of slot `k` after the waits on the matrix queue have been looked at. -/
def Group.woken (m : MxUnit) (k : Nat) (g : Group) : Group := if g.mxWaitOver m k then g.resume else g

/-- A group at `mx.wait` goes on when nothing is queued. -/
theorem Group.woken_mxWait {m : MxUnit} {g : Group} (k : Nat) (waits : g.wait = some .mxWait) :
    g.woken m k = if m.queue = [] then g.resume else g :=
  if_congr (by simp [Group.mxWaitOver, waits]) rfl rfl

/-- A group at `mx.close` goes on when it has given up the seat. -/
theorem Group.woken_mxClose {m : MxUnit} {g : Group} {k : Nat} (waits : g.wait = some .mxClose) :
    g.woken m k = if m.seat = some k then g else g.resume := by
  rw [Group.woken, ← ite_not]
  exact if_congr (by simp [Group.mxWaitOver, waits]) rfl rfl

/-- Looking at the waits on the matrix queue leaves the matrix unit as it is. -/
@[simp] theorem mxWake_mx (p : Spur) : (mxWake p).mx = p.mx := rfl

/-- Each group of a Spur after the waits on the matrix queue have been looked at. -/
theorem tget?_mxWake_groups (p : Spur) (k : Nat) :
    tget? (mxWake p).groups k = (tget? p.groups k).map (Group.woken p.mx k) := by
  rw [← tget?_map]
  refine congrArg (tget? · k) (List.map_congr_left fun e _ => ?_)
  simp only [Group.woken, Group.mxWaitOver, decide_eq_true_eq]
  split
  · next waits => by_cases empty : p.mx.queue = [] <;> simp [waits, empty]
  · next waits => by_cases seated : p.mx.seat = some e.1 <;> simp [waits, seated]
  · next noWait noClose =>
    rw [if_neg]
    rintro (⟨waits, -⟩ | ⟨waits, -⟩)
    exacts [noWait waits, noClose waits]

/-- A region whose queue is empty closes: the seat is free. -/
theorem mxSettle_seat_of_empty {m : MxUnit} (closing : m.closing = true) (empty : m.queue = []) : (mxSettle m).seat = none := by
  rw [mxSettle, if_pos ⟨closing, empty⟩]
  rfl

/-- A region with an instruction in its queue stays open. -/
theorem mxSettle_of_queued {m : MxUnit} (queued : m.queue ≠ []) : mxSettle m = m := if_neg fun h => queued h.2

section
variable {s : State} {sp sl op : Nat} {w : W64} {g : Group}

/-- An `mx.open` that issues with every live lane active. -/
theorem mxOpen_eq (opcode : opOf w = 0x40) (res0 : wf w 55 0 = 0) (noSeat : hasSeat s sp sl = false) (issues : Issues s sp sl [] g)
    (whole : g.active = g.live) :
    mxOpen s sp sl w = modSpur s sp fun p => { p with
      groups := tset p.groups sl { g with wait := some .mxOpen }
      mx := { p.mx with waiters := p.mx.waiters ++ [sl] } } :=
  (ofClass_issue opcode issues (by simp [res0, noSeat])).trans (if_neg (not_not.2 whole))

/-- The next request takes a free seat. -/
theorem seatGrant_eq (free : (s.spur sp).mx.seat = none) (next : nextSeat (s.spur sp) = some sl)
    (group : groupAt s sp sl = some g) :
    (seatGrant s sp).spur sp = { s.spur sp with
      groups := tset (s.spur sp).groups sl g.resume
      mx := { (s.spur sp).mx with
        seat := some sl, mask := g.active, closing := false, arrayHit := false, sel := 0, queue := []
        waiters := (s.spur sp).mx.waiters.filter (· != sl), bufs := [], issueBufs := [], acc := []
        kinds := [], issueKinds := [] } } := by
  have group' : tget? (s.spur sp).groups sl = some g := group
  rw [seatGrant, spur_modSpur_self, free, next]
  simp only [group']
  rfl

/-- A Spur after `mx.close` or `mx.wait`: the group waits, a closing region is settled, and the waits are looked at. -/
def Spur.held (p : Spur) (sl : Nat) (g : Group) (close : Bool) : Spur :=
  let p := { p with groups := tset p.groups sl { g with wait := some (if close then .mxClose else .mxWait) } }
  mxWake (if close then { p with mx := mxSettle { p.mx with closing := true } } else p)

/-- An `mx.close` or `mx.wait` that issues under the region mask. -/
theorem mxHold_eq {close : Bool} (opcode : opOf w = op) (res0 : wf w 55 0 = 0) (seat : hasSeat s sp sl = true)
    (issues : Issues s sp sl [] g) (region : g.active = (s.spur sp).mx.mask) :
    mxHold s sp sl op w close = modSpur s sp (·.held sl g close) :=
  (ofClass_issue opcode issues (by simp [res0, seat])).trans (if_neg (not_not.2 region))

/-- The group of an `mx.close` or `mx.wait` once its wait has been looked at. -/
theorem tget?_held_groups (p : Spur) (close : Bool) :
    tget? (p.held sl g close).groups sl =
      some (Group.woken (p.held sl g close).mx sl { g with wait := some (if close then .mxClose else .mxWait) }) := by
  unfold Spur.held
  rw [tget?_mxWake_groups, mxWake_mx]
  cases close <;> exact congrArg (Option.map _) (tget?_tset_self ..)

/-- A command that is such an `mx.close` or `mx.wait`: what its Spur's matrix unit and its group are then. -/
theorem holds_group {c : Instr} {u : State} {close : Bool} (runs : exec c s = .next u)
    (result : u = modSpur s sp (·.held sl g close)) :
    ∃ t, exec c s = .next t ∧ OnlySpur s t sp ∧ (t.spur sp).mx = ((s.spur sp).held sl g close).mx ∧
      groupAt t sp sl = some (Group.woken ((s.spur sp).held sl g close).mx sl
        { g with wait := some (if close then .mxClose else .mxWait) }) := by
  refine ⟨u, runs, ?_⟩
  rw [result, groupAt_modSpur, spur_modSpur_self]
  exact ⟨onlySpur_modSpur .., rfl, tget?_held_groups ..⟩
end

/-- After an `mx.close` the matrix unit is closing, or has closed. -/
theorem held_close_mx (p : Spur) (sl : Nat) (g : Group) : (p.held sl g true).mx = mxSettle { p.mx with closing := true } := rfl

theorem held_wait_mx (p : Spur) (sl : Nat) (g : Group) : (p.held sl g false).mx = p.mx := rfl

/-! ## Joining the matrix queue -/

/-- No check of a matrix instruction's registers refuses its value. -/
theorem mxBadVals_eq_false {s : State} {sp sl va : Nat} {regs : List Nat} {g : Group} {checks : List (Nat × (Nat → Bool))}
    (issues : Issues s sp sl regs g) (pass : ∀ c ∈ checks, c.2 (mxReg g va c.1) = false) :
    mxBadVals s sp sl va checks = false := by
  rw [mxBadVals, issues.groupAt]
  exact List.any_eq_false.2 fun c hc => by rw [pass c hc, Bool.and_false]; decide

/-- What an instruction notes as it joins the queue: the formats and kinds that the queue will leave, nothing else. -/
def NotesIssue (note : MxUnit → MxUnit) : Prop :=
  ∀ m, note m = { m with issueBufs := (note m).issueBufs, issueKinds := (note m).issueKinds }

/-- The entry of the matrix queue of an instruction that issues. -/
def mxEntry (p : Spur) (sl : Nat) (g : Group) (b : Block) (op : MxOp) : MxInstr :=
  { id := p.nextId, slot := sl, blk := g.blk, base := b.base, op := op, old := p.lmem }

/-- The Spur after an instruction has joined the end of its matrix queue. -/
def Spur.joined (p : Spur) (i : MxInstr) (am : BitVec 4) (count : Option Nat) (note : MxUnit → MxUnit) : Spur :=
  { p with
    nextId := p.nextId + 1
    counters := match count with
      | some c => tmod p.counters c {} fun x => { x with issue := x.issue + 1 }
      | none => p.counters
    mx := mxEngage (note { p.mx with queue := p.mx.queue ++ [i], sel := p.mx.sel ||| am }) }

/-- What lets a legal instruction join the matrix queue: the region mask, operands in local memory, arrays in service, a
place in the queue and, for a counting drain, a copy place. -/
structure MxReady (s : State) (sp : Nat) (g : Group) (b : Block) (op : MxOp) (am : BitVec 4) (count : Option Nat) : Prop where
  block : blockAt s sp g.blk = some b
  region : g.active = (s.spur sp).mx.mask
  arrays : ∀ j ∈ arraysOf am, arrayUp s sp j = true
  room : (s.spur sp).mx.queue.length < 32
  places : count.isSome → copyPlaces s sp < 256
  fits : ∀ r ∈ op.ranges, r.2.1 ≤ b.localSize

section
variable {s : State} {sp sl : Nat} {g : Group} {b : Block} {op : MxOp} {am : BitVec 4} {count : Option Nat}

/-- An instruction that is ready joins the end of the queue, and its group goes on. -/
theorem MxReady.mxQueue_eq (ready : MxReady s sp g b op am count) (note : MxUnit → MxUnit) :
    mxQueue s sp sl g op am count note =
      setGroup (modSpur s sp fun p => p.joined (mxEntry p sl g b op) am count note) sp sl g.next := by
  obtain ⟨block, region, arrays, room, places, fits⟩ := ready
  have inside : op.ranges.find? (fun r => b.localSize < r.2.1) = none := by simpa using fits
  have up : ¬ ((arraysOf am).any fun j => !arrayUp s sp j) = true := by simpa using arrays
  have free : ¬ (decide (32 ≤ (s.spur sp).mx.queue.length) || (count.isSome && decide (256 ≤ copyPlaces s sp))) = true := by
    simpa using ⟨room, places⟩
  rw [mxQueue, block]
  simp only [inside]
  exact (if_neg (not_not.2 region)).trans ((if_neg up).trans (if_neg free))

/-- The Spur once an instruction has joined the queue. -/
theorem MxReady.spur_mxQueue (ready : MxReady s sp g b op am count) (note : MxUnit → MxUnit) :
    (mxQueue s sp sl g op am count note).spur sp =
      { (s.spur sp).joined (mxEntry (s.spur sp) sl g b op) am count note with groups := tset (s.spur sp).groups sl g.next } := by
  rw [ready.mxQueue_eq, spur_setGroup_self, spur_modSpur_self]
  rfl

/-- The matrix unit once an instruction has joined the queue. -/
theorem MxReady.mx_mxQueue (ready : MxReady s sp g b op am count) (note : MxUnit → MxUnit) :
    ((mxQueue s sp sl g op am count note).spur sp).mx = mxEngage (note { (s.spur sp).mx with
      queue := (s.spur sp).mx.queue ++ [mxEntry (s.spur sp) sl g b op], sel := (s.spur sp).mx.sel ||| am }) := by
  rw [ready.spur_mxQueue]
  rfl

/-- What an instruction changes as it joins the queue. -/
theorem MxReady.queued (ready : MxReady s sp g b op am count) {note : MxUnit → MxUnit} (notes : NotesIssue note) :
    let t := mxQueue s sp sl g op am count note
    OnlySpur s t sp ∧ groupAt t sp sl = some g.next ∧ (t.spur sp).lmem = (s.spur sp).lmem ∧
      (t.spur sp).mx.acc = (s.spur sp).mx.acc ∧ (t.spur sp).mx.bufs = (s.spur sp).mx.bufs ∧
      (t.spur sp).mx.queue = (s.spur sp).mx.queue ++ [mxEntry (s.spur sp) sl g b op] := by
  refine ⟨?frame, ?group, ?lmem, ?unit⟩
  case frame => exact ready.mxQueue_eq note ▸ (onlySpur_modSpur ..).trans (onlySpur_setGroup ..)
  case group => exact ready.mxQueue_eq note ▸ groupAt_setGroup ..
  case lmem => rw [ready.spur_mxQueue]; rfl
  case unit => rw [ready.mx_mxQueue, notes]; exact ⟨rfl, rfl, rfl⟩
end

/-! ## The instructions of the queue -/

/-- The operation that `mx.ldw` queues. -/
def ldwOp (g : Group) (w : W64) : MxOp :=
  .ldw (amaskOf w) (BitVec.ofNat 4 (wf w 48 45)) (mxReg g (wf w 44 37) 0) (mxReg g (wf w 44 37) 1) (mxReg g (wf w 44 37) 2)
    (mxReg g (wf w 44 37) 3)

/-- The operation that `mx.ldacc` queues. -/
def ldaccOp (g : Group) (w : W64) : MxOp :=
  .ldacc (amaskOf w) (wf w 48 40 + 1) (wf w 39 31) (BitVec.ofNat 4 (wf w 30 27)) (mxReg g (wf w 26 19) 0) (mxReg g (wf w 26 19) 1)

/-- Weight formats of the tiles that a pass will meet. -/
def passFmts (m : MxUnit) (w : W64) : List Nat := (passTiles m (amaskOf w) (w.getLsbD 48)).filterMap fun t => t.map (·.toNat)

/-- K of a pass. -/
def passK (m : MxUnit) (w : W64) : Nat := mxK ((passFmts m w).headD 0)

/-- The kind that a pass leaves its slices. -/
def passKind (afmt : Nat) : BitVec 2 := if afmt = 8 then 2 else 1

/-- The operation that `mx.mma` queues. -/
def mmaOp (m : MxUnit) (g : Group) (w : W64) : MxOp :=
  .mma (amaskOf w) (w.getLsbD 48) (w.getLsbD 47) (BitVec.ofNat 4 (wf w 46 43)) (passK m w) (wf w 42 34 + 1) (wf w 33 25)
    (mxReg g (wf w 24 17) 0) (mxReg g (wf w 24 17) 1) (mxReg g (wf w 24 17) 2)

/-- The counter of a drain that counts. -/
def drainCtr (b : Block) (g : Group) (w : W64) : Option Nat :=
  if w.getLsbD 13 then ctrIndex b g.blk (wf w 19 14) else none

/-- The counter of a drain that counts, with the number it takes. -/
def drainNum (p : Spur) (b : Block) (g : Group) (w : W64) : Option (Nat × W32) :=
  if w.getLsbD 13 then (ctrIndex b g.blk (wf w 19 14)).map fun c => (c, (tget p.counters c {}).issue + 1) else none

theorem drainNum_eq (p : Spur) (b : Block) (g : Group) (w : W64) :
    drainNum p b g w = (drainCtr b g w).map fun c => (c, (tget p.counters c {}).issue + 1) := by
  unfold drainNum drainCtr
  split <;> rfl

/-- A drain with a counter counts. -/
theorem counts_of_drainCtr {b : Block} {g : Group} {w : W64} (h : (drainCtr b g w).isSome) : w.getLsbD 13 = true := by
  unfold drainCtr at h
  split at h
  · assumption
  · cases h

/-- The operation that `mx.drain` queues. -/
def drainOp (p : Spur) (b : Block) (g : Group) (w : W64) : MxOp :=
  .drain (amaskOf w) (wf w 48 40 + 1) (wf w 39 31) (BitVec.ofNat 4 (wf w 30 27)) (BitVec.ofNat 3 (wf w 26 24)) (w.getLsbD 23)
    (w.getLsbD 22) (w.getLsbD 21) (w.getLsbD 20) (drainNum p b g w) (mxReg g (wf w 12 5) 0) (mxReg g (wf w 12 5) 1)
    (mxReg g (wf w 12 5) 2) (mxReg g (wf w 12 5) 3) (mxReg g (wf w 12 5) 4)

/-- What `mx.ldw` notes: the formats of its tiles. -/
def noteTiles (am : BitVec 4) (fmt : BitVec 4) (m : MxUnit) : MxUnit :=
  { m with issueBufs := (arraysOf am).foldl (fun t j => tset t (4 + j) (some fmt)) m.issueBufs }

/-- What `mx.mma` notes: the exchange of its buffers and the kinds that it leaves. -/
def notePass (w : W64) (m : MxUnit) : MxUnit :=
  let v := if w.getLsbD 48 then { m with issueBufs := swapBufs m.issueBufs (amaskOf w) } else m
  setIssueKinds v (amaskOf w) (wf w 33 25) (wf w 42 34 + 1) (passKind (wf w 46 43))

/-- What `mx.drain` notes: the slices that it clears. -/
def noteDrain (w : W64) (m : MxUnit) : MxUnit :=
  if w.getLsbD 20 then setIssueKinds m (amaskOf w) (wf w 39 31) (wf w 48 40 + 1) 0 else m

theorem notesIssue_tiles (am fmt : BitVec 4) : NotesIssue (noteTiles am fmt) := fun _ => rfl

theorem notesIssue_kinds (am : BitVec 4) (acc rows : Nat) (k : BitVec 2) : NotesIssue fun m => setIssueKinds m am acc rows k :=
  fun _ => rfl

theorem notesIssue_pass (w : W64) : NotesIssue (notePass w) := by
  intro m
  unfold notePass
  split <;> rfl

theorem notesIssue_drain (w : W64) : NotesIssue (noteDrain w) := by
  intro m
  unfold noteDrain
  split <;> rfl

/-- The tiles of every selected array are noted. -/
theorem noteTiles_issueBufs (am fmt : BitVec 4) (m : MxUnit) {j : Nat} (selected : j ∈ arraysOf am) :
    tget (noteTiles am fmt m).issueBufs (4 + j) none = some fmt := by
  have put : (noteTiles am fmt m).issueBufs = ((arraysOf am).map (4 + ·)).foldl (fun t l => tset t l (some fmt)) m.issueBufs :=
    (List.foldl_map (f := (4 + ·)) (g := fun t l => tset t l (some fmt))).symm
  rw [put, tget, tget?_foldl_tset, if_pos (List.mem_map_of_mem selected)]
  rfl

section
variable {s : State} {sp sl : Nat} {w : W64} {g : Group} {b : Block} (res0 : wf w 55 53 = 0) (selects : amaskOf w ≠ 0#4)
  (seat : hasSeat s sp sl = true)
include res0 selects seat

/-- A legal `mx.ldw` that issues. -/
theorem mxLdw_eq (opcode : opOf w = 0x42) (res0' : wf w 36 0 = 0) (format : wf w 48 45 ≤ 0xA)
    (issues : Issues s sp sl (mxRegs (wf w 44 37) 4) g) (base : mxReg g (wf w 44 37) 0 % 16 = 0)
    (stride : badStride 128 (mxReg g (wf w 44 37) 1) (rowBytes (wf w 48 45) 128) = false)
    (astride : badStride (arraysOf (amaskOf w)).length (mxReg g (wf w 44 37) 2) (rowBytes (wf w 48 45) 128) = false)
    (scales : mxScaled (wf w 48 45) = true → mxReg g (wf w 44 37) 3 % 4 = 0) :
    mxLdw s sp sl w = mxQueue s sp sl g (ldwOp g w) (amaskOf w) none (noteTiles (amaskOf w) (BitVec.ofNat 4 (wf w 48 45))) := by
  refine ofClass_issue opcode issues ?_
  rw [mxBadVals_eq_false issues (by simpa [base, stride, astride] using scales)]
  simpa [res0, res0', selects, seat] using format

/-- A legal `mx.ldacc` that issues. -/
theorem mxLdacc_eq (opcode : opOf w = 0x43) (res0' : wf w 18 0 = 0) (format : wf w 30 27 = 0xB ∨ wf w 30 27 = 0xC)
    (within : wf w 39 31 + (wf w 48 40 + 1) ≤ 512) (issues : Issues s sp sl (mxRegs (wf w 26 19) 2) g)
    (base : mxReg g (wf w 26 19) 0 % 16 = 0)
    (stride : badStride (wf w 48 40 + 1) (mxReg g (wf w 26 19) 1) (512 * (arraysOf (amaskOf w)).length) = false) :
    mxLdacc s sp sl w = mxQueue s sp sl g (ldaccOp g w) (amaskOf w) none fun m =>
      setIssueKinds m (amaskOf w) (wf w 39 31) (wf w 48 40 + 1) (if wf w 30 27 = 0xC then 2 else 1) := by
  refine ofClass_issue opcode issues ?_
  rw [mxBadVals_eq_false issues (by simp [base, stride])]
  have fits : ¬ 512 < wf w 39 31 + (wf w 48 40 + 1) := Nat.not_lt.2 within
  rcases format with format | format <;> simp [res0, res0', selects, seat, fits, format]

/-- A legal `mx.mma` that issues. -/
theorem mxMma_eq (opcode : opOf w = 0x44) (res0' : wf w 16 0 = 0) (format : wf w 46 43 ≤ 0xA)
    (within : wf w 33 25 + (wf w 42 34 + 1) ≤ 512)
    (tiles : ∀ t ∈ passTiles (s.spur sp).mx (amaskOf w) (w.getLsbD 48), t.isSome)
    (pairs : ∀ f ∈ passFmts (s.spur sp).mx w, pairLegal (wf w 46 43) f = true ∧ mxK f = passK (s.spur sp).mx w)
    (kinds : w.getLsbD 47 = true ∨ kindsAll (s.spur sp).mx (amaskOf w) (wf w 33 25) (wf w 42 34 + 1)
      (fun x => x == 0 || x == passKind (wf w 46 43)) = true)
    (issues : Issues s sp sl (mxRegs (wf w 24 17) 3) g) (base : mxReg g (wf w 24 17) 0 % 16 = 0)
    (stride : badStride (wf w 42 34 + 1) (mxReg g (wf w 24 17) 1) (rowBytes (wf w 46 43) (passK (s.spur sp).mx w)) = false)
    (scales : mxScaled (wf w 46 43) = true → mxReg g (wf w 24 17) 2 % 4 = 0) :
    mxMma s sp sl w = mxQueue s sp sl g (mmaOp (s.spur sp).mx g w) (amaskOf w) none (notePass w) := by
  have noTile : (passTiles (s.spur sp).mx (amaskOf w) (w.getLsbD 48)).any (·.isNone) = false :=
    List.any_eq_false.2 fun t ht => by simpa [Option.isSome_iff_ne_none] using tiles t ht
  have legal : (passFmts (s.spur sp).mx w).any
      (fun f => !pairLegal (wf w 46 43) f || mxK f != passK (s.spur sp).mx w) = false := by
    simpa using pairs
  have kept : (!w.getLsbD 47 && !kindsAll (s.spur sp).mx (amaskOf w) (wf w 33 25) (wf w 42 34 + 1)
      (fun x => x == 0 || x == passKind (wf w 46 43))) = false := by
    rcases kinds with kinds | kinds <;> rw [kinds] <;> simp
  have word : (wf w 55 53 != 0 || wf w 16 0 != 0 || amaskOf w == 0 || decide (0xA < wf w 46 43)
      || decide (512 < wf w 33 25 + (wf w 42 34 + 1)) || !hasSeat s sp sl) = false := by
    simpa [res0, res0', selects, seat] using ⟨format, within⟩
  refine ofClass_issue opcode issues ?_
  rw [mxBadVals_eq_false issues, Bool.or_false]
  · exact Bool.or_eq_false_iff.2 ⟨Bool.or_eq_false_iff.2 ⟨Bool.or_eq_false_iff.2 ⟨word, noTile⟩, legal⟩, kept⟩
  · simp only [List.forall_mem_cons]
    exact ⟨by simpa using base, stride, by simpa using scales, List.forall_mem_nil _⟩

/-- A legal `mx.drain` that issues. -/
theorem mxDrain_eq (block : blockAt s sp g.blk = some b) (opcode : opOf w = 0x45) (res0' : wf w 4 0 = 0)
    (format : wf w 30 27 ≤ 0xC) (act : wf w 26 24 ≤ 5) (within : wf w 39 31 + (wf w 48 40 + 1) ≤ 512)
    (rounding : w.getLsbD 21 = true → mxScaled (wf w 30 27) = true)
    (counts : w.getLsbD 13 = true → (ctrIndex b g.blk (wf w 19 14)).isSome)
    (raw : wf w 30 27 = 0xC → w.getLsbD 22 = false ∧ w.getLsbD 23 = false ∧ wf w 26 24 = 0 ∧
      kindsAll (s.spur sp).mx (amaskOf w) (wf w 39 31) (wf w 48 40 + 1) (· != 1) = true)
    (issues : Issues s sp sl (mxRegs (wf w 12 5) 5) g) (dest : mxReg g (wf w 12 5) 0 % 16 = 0)
    (stride : badStride (wf w 48 40 + 1) (mxReg g (wf w 12 5) 1)
      (rowBytes (wf w 30 27) (128 * (arraysOf (amaskOf w)).length)) = false)
    (bias : w.getLsbD 23 = true → mxReg g (wf w 12 5) 2 % 16 = 0) (scale : w.getLsbD 22 = true → mxReg g (wf w 12 5) 3 % 16 = 0)
    (scales : mxScaled (wf w 30 27) = true → mxReg g (wf w 12 5) 4 % 4 = 0) :
    mxDrain s sp sl w = mxQueue s sp sl g (drainOp (s.spur sp) b g w) (amaskOf w) (drainCtr b g w) (noteDrain w) := by
  have counter : ((groupAt s sp sl).bind fun g => (blockAt s sp g.blk).bind fun b => ctrIndex b g.blk (wf w 19 14)) =
      ctrIndex b g.blk (wf w 19 14) := by rw [issues.groupAt, Option.bind_some, block, Option.bind_some]
  have integers : (wf w 30 27 == 0xC && (w.getLsbD 22 || w.getLsbD 23 || wf w 26 24 != 0 ||
      !kindsAll (s.spur sp).mx (amaskOf w) (wf w 39 31) (wf w 48 40 + 1) fun x => x != 1)) = false := by
    by_cases is : wf w 30 27 = 0xC
    · obtain ⟨noScale, noBias, noAct, kinds⟩ := raw is
      rw [noScale, noBias, noAct, kinds]
      simp
    · simp [is]
  have counted : (w.getLsbD 13 && (ctrIndex b g.blk (wf w 19 14)).isNone) = false := by simpa using counts
  have rounded : (w.getLsbD 21 && !mxScaled (wf w 30 27)) = false := by simpa using rounding
  have word : (wf w 55 53 != 0 || wf w 4 0 != 0 || amaskOf w == 0 || decide (0xC < wf w 30 27) || decide (5 < wf w 26 24)
      || decide (512 < wf w 39 31 + (wf w 48 40 + 1)) || !hasSeat s sp sl) = false := by
    simpa [res0, res0', selects, seat, and_assoc] using ⟨format, act, within⟩
  rw [mxDrain]
  simp only [counter]
  refine (ofClass_issue opcode issues ?_).trans ?_
  · rw [mxBadVals_eq_false issues (by simpa [dest] using ⟨stride, bias, scale, scales⟩), Bool.or_false]
    exact Bool.or_eq_false_iff.2 ⟨Bool.or_eq_false_iff.2 ⟨Bool.or_eq_false_iff.2 ⟨word, rounded⟩, counted⟩, integers⟩
  · rw [drainOp, drainNum_eq]
    rfl
end

/-- An instruction that counts takes the next number of its counter. -/
theorem MxReady.counter {s : State} {sp sl c : Nat} {g : Group} {b : Block} {op : MxOp} {am : BitVec 4} {count : Option Nat}
    (ready : MxReady s sp g b op am count) (note : MxUnit → MxUnit) (counts : count = some c) :
    (tget ((mxQueue s sp sl g op am count note).spur sp).counters c {}).issue = (tget (s.spur sp).counters c {}).issue + 1 := by
  rw [ready.spur_mxQueue]
  simp only [Spur.joined, counts, tget_tmod_self]

/-- Settles O12: the seat by what each of its commands makes of the Spur, the queue by `MxReady.queued`. -/
theorem matrixSeatAndQueue : Obligations.MatrixSeatAndQueue := by
  refine ⟨fun s sp sl w g => ?seat, fun s sp sl w g b => ?queue⟩
  case seat =>
    intro p
    refine ⟨?openSeat, ?grant, ?close, ?closing, ?wait⟩
    case openSeat =>
      intro op res0 noSeat issues whole
      refine ⟨_, congrArg Host.Outcome.next (mxOpen_eq op res0 noSeat issues whole), onlySpur_modSpur .., ?_, ?_⟩
      · rw [groupAt_modSpur, tget?_tset_self]
      · rw [spur_modSpur_self]
    case grant =>
      intro free next group
      have spur := seatGrant_eq free next group
      refine ⟨_, rfl, onlySpur_modSpur .., ?_⟩
      rw [groupAt, spur]
      exact ⟨tget?_tset_self .., rfl, rfl, rfl, by simp, fun _ => rfl, fun _ _ => rfl⟩
    case close =>
      intro op res0 seat issues region empty
      obtain ⟨t, runs, frame, unit, group⟩ :=
        holds_group (c := .mxClose sp sl w) rfl (mxHold_eq (close := true) op res0 seat issues region)
      have free : ((s.spur sp).held sl g true).mx.seat = none :=
        (congrArg MxUnit.seat (held_close_mx ..)).trans (mxSettle_seat_of_empty rfl empty)
      refine ⟨t, runs, frame, (congrArg MxUnit.seat unit).trans free, group.trans (congrArg some ?_)⟩
      exact (Group.woken_mxClose rfl).trans (if_neg (by simp [free]))
    case closing =>
      intro op res0 seat issues region queued
      obtain ⟨t, runs, frame, unit, group⟩ :=
        holds_group (c := .mxClose sp sl w) rfl (mxHold_eq (close := true) op res0 seat issues region)
      have stays : ((s.spur sp).held sl g true).mx = { p.mx with closing := true } :=
        (held_close_mx ..).trans (mxSettle_of_queued queued)
      refine ⟨t, runs, frame, unit.trans stays, group.trans (congrArg some ?_)⟩
      exact (Group.woken_mxClose rfl).trans (if_pos (by rw [stays]; exact ((hasSeat_iff s sp sl).1 seat).1))
    case wait =>
      intro op res0 seat issues region
      obtain ⟨t, runs, frame, unit, group⟩ :=
        holds_group (c := .mxWait sp sl w) rfl (mxHold_eq (close := false) op res0 seat issues region)
      rw [held_wait_mx] at unit group
      exact ⟨t, runs, frame, unit, group.trans (congrArg some (Group.woken_mxWait sl rfl))⟩
  case queue =>
    intro p am queued fits block res0 selects seat region arrays room
    have ready {op : MxOp} (inside : fits op) : MxReady s sp g b op am none :=
      ⟨block, region, arrays, room, fun h => absurd h (by decide), inside⟩
    refine ⟨?ldw, ?ldacc, ?mma, ?drain⟩
    case ldw =>
      intro fmt va op opcode res0' format issues base stride astride scales inside
      have ready := ready (op := ldwOp g w) inside
      refine ⟨_, congrArg Host.Outcome.next (mxLdw_eq res0 selects seat opcode res0' format issues base stride astride scales),
        ready.queued (notesIssue_tiles _ _), fun j selected => ?_⟩
      rw [ready.mx_mxQueue]
      exact noteTiles_issueBufs _ _ _ selected
    case ldacc =>
      intro rows acc fmt va op opcode res0' format within issues base stride inside
      exact ⟨_, congrArg Host.Outcome.next (mxLdacc_eq res0 selects seat opcode res0' format within issues base stride),
        (ready inside).queued (notesIssue_kinds _ _ _ _)⟩
    case mma =>
      intro sw za afmt m acc va fmts k kind op opcode res0' format within tiles pairs kinds issues base stride scales inside
      exact ⟨_, congrArg Host.Outcome.next
          (mxMma_eq res0 selects seat opcode res0' format within tiles pairs kinds issues base stride scales),
        (ready inside).queued (notesIssue_pass w)⟩
    case drain =>
      intro rows acc fmt act va n ctr num op opcode res0' format hact within rounding counts raw issues dest stride bias scale
        scales inside
      have ready : MxReady s sp g b (drainOp p b g w) am (drainCtr b g w) :=
        ⟨block, region, arrays, room, fun h => (counts (counts_of_drainCtr h)).2, inside⟩
      refine ⟨_, congrArg Host.Outcome.next (mxDrain_eq res0 selects seat block opcode res0' format hact within rounding
          (fun h => (counts h).1) raw issues dest stride bias scale scales),
        ready.queued (notesIssue_drain w), fun c v takes => ?_⟩
      have takes' : drainNum p b g w = some (c, v) := takes
      rw [drainNum_eq, Option.map_eq_some_iff] at takes'
      obtain ⟨c', counter, number⟩ := takes'
      obtain ⟨rfl, rfl⟩ := Prod.mk.inj number
      exact ready.counter _ counter

end Sys2Proof.Machine
end

section
/-! PROOF. What a pass leaves in the accumulators, and the end of a matrix instruction (R92, R98 to R100, R118, R120, R122,
R123, R139, R141). -/

namespace Sys2Proof.Machine

/-! ## Folds that act on separate places -/

section
variable {σ α ρ : Type} {read : σ → ρ} {step : σ → α → σ} {l : List α}

/-- What no step of a fold changes is as before. -/
theorem foldl_read_of_keeps (keeps : ∀ a ∈ l, ∀ s, read (step s a) = read s) (s : σ) : read (l.foldl step s) = read s := by
  induction l generalizing s with
  | nil => rfl
  | cons a l ih =>
    rw [List.foldl_cons, ih fun b hb => keeps b (List.mem_cons_of_mem _ hb)]
    exact keeps a List.mem_cons_self s

/-- What one step of a fold changes, and no other, is changed once. -/
theorem foldl_read_of_acts {a : α} {act : ρ → ρ} (distinct : l.Nodup) (here : a ∈ l)
    (keeps : ∀ b ∈ l, b ≠ a → ∀ s, read (step s b) = read s) (acts : ∀ s, read (step s a) = act (read s)) (s : σ) :
    read (l.foldl step s) = act (read s) := by
  induction l generalizing s with
  | nil => cases here
  | cons b l ih =>
    obtain ⟨fresh, distinct⟩ := List.nodup_cons.1 distinct
    rw [List.foldl_cons]
    by_cases isHead : b = a
    · subst isHead
      rw [foldl_read_of_keeps fun c hc => keeps c (List.mem_cons_of_mem _ hc) (fun same => fresh (same ▸ hc)), acts]
    · rw [ih distinct ((List.mem_cons.1 here).resolve_left (Ne.symm isHead)) fun c hc => keeps c (List.mem_cons_of_mem _ hc),
        keeps b List.mem_cons_self isHead]
end

/-! ## Slices of the accumulators -/

theorem arraysOf_lt {am : BitVec 4} {j : Nat} (h : j ∈ arraysOf am) : j < 4 := List.mem_range.1 (List.mem_filter.1 h).1

theorem arraysOf_nodup (am : BitVec 4) : (arraysOf am).Nodup := List.nodup_range.filter _

/-- Write the cells of some columns of a slice. -/
def MxUnit.setCells (m : MxUnit) (row j : Nat) (f : Nat → W32) (columns : List Nat) : MxUnit :=
  columns.foldl (fun v n => v.setCell row (128 * j + n) (f n)) m

theorem MxUnit.setCells_kinds (m : MxUnit) (row j : Nat) (f : Nat → W32) (columns : List Nat) :
    (m.setCells row j f columns).kinds = m.kinds := 
  foldl_read_of_keeps (read := MxUnit.kinds) (step := fun v n => v.setCell row (128 * j + n) (f n)) (fun _ _ _ => rfl) m

theorem MxUnit.setCells_bufs (m : MxUnit) (row j : Nat) (f : Nat → W32) (columns : List Nat) :
    (m.setCells row j f columns).bufs = m.bufs := 
  foldl_read_of_keeps (read := MxUnit.bufs) (step := fun v n => v.setCell row (128 * j + n) (f n)) (fun _ _ _ => rfl) m

/-- Cells outside the columns written are as before. -/
theorem MxUnit.setCells_acc_ne (m : MxUnit) {row j k : Nat} (f : Nat → W32) {columns : List Nat}
    (apart : ∀ n ∈ columns, k ≠ row * 512 + (128 * j + n)) : tget (m.setCells row j f columns).acc k 0 = tget m.acc k 0 :=
  foldl_read_of_keeps (read := fun v : MxUnit => tget v.acc k 0) (fun n hn _ => tget_tset_ne _ _ _ (apart n hn)) m

/-- A cell of a column written holds what was written. -/
theorem MxUnit.setCells_acc_self (m : MxUnit) {row j n : Nat} (f : Nat → W32) {columns : List Nat} (distinct : columns.Nodup)
    (here : n ∈ columns) : tget (m.setCells row j f columns).acc (row * 512 + (128 * j + n)) 0 = f n :=
  foldl_read_of_acts (read := fun v : MxUnit => tget v.acc (row * 512 + (128 * j + n)) 0) (act := fun _ => f n) distinct here
    (fun _ _ other _ => tget_tset_ne _ _ _ (by omega)) (fun _ => tget_tset_self ..) m

/-- Write the 128 cells of a slice and its kind. -/
def MxUnit.setSlice (m : MxUnit) (row j : Nat) (kind : BitVec 2) (f : Nat → W32) : MxUnit :=
  (m.setCells row j f (List.range 128)).setKind row j kind

theorem MxUnit.setKind_acc (m : MxUnit) (row j : Nat) (kind : BitVec 2) : (m.setKind row j kind).acc = m.acc := rfl
theorem MxUnit.setKind_bufs (m : MxUnit) (row j : Nat) (kind : BitVec 2) : (m.setKind row j kind).bufs = m.bufs := rfl
theorem MxUnit.setKind_kinds (m : MxUnit) (row j : Nat) (kind : BitVec 2) :
    (m.setKind row j kind).kinds = tset m.kinds (row * 4 + j) kind := rfl

/-- A cell with the kind of its slice. -/
def MxUnit.kindCell (m : MxUnit) (row col : Nat) : BitVec 2 × W32 := (tget m.kinds (row * 4 + col / 128) 0, m.cell row col)

section
variable {row col r j n : Nat}

/-- The cells of another slice, and its kind, are as before. -/
theorem MxUnit.kindCell_setSlice_ne (m : MxUnit) (kind : BitVec 2) (f : Nat → W32) (array : j < 4) (column : col < 512)
    (apart : row ≠ r ∨ col / 128 ≠ j) : (m.setSlice r j kind f).kindCell row col = m.kindCell row col := by
  have otherCells : ∀ n ∈ List.range 128, row * 512 + col ≠ r * 512 + (128 * j + n) := fun n hn => by
    have := List.mem_range.1 hn
    omega
  rw [kindCell, kindCell, cell, cell, setSlice, setKind_kinds, setKind_acc, setCells_kinds, m.setCells_acc_ne f otherCells,
    tget_tset_ne _ _ _ (by omega)]

/-- A cell of a written slice holds what was written, under the kind written. -/
theorem MxUnit.kindCell_setSlice_self (m : MxUnit) {kind : BitVec 2} (f : Nat → W32) (isKind : kind ≠ 0) (column : n < 128) :
    (m.setSlice r j kind f).kindCell r (128 * j + n) = (kind, f n) := by
  have array : (128 * j + n) / 128 = j := by omega
  rw [kindCell, cell, setSlice, setKind_kinds, setKind_acc, array, tget_tset_self, if_neg isKind,
    m.setCells_acc_self f List.nodup_range (List.mem_range.2 column)]
end

/-! ## Passes -/

theorem passKind_ne_zero (afmt : Nat) : passKind afmt ≠ 0 := by
  unfold passKind
  split <;> decide

/-- What a pass leaves in a cell, by the kind of the slice and the cell's old value: the product alone where the slice was
zero or ZA is set, else the sum (R98, R99). -/
def passSum (za : Bool) (afmt : Nat) (x : W32) (old : BitVec 2 × W32) : W32 :=
  if za || old.1 == 0 then x else if afmt = 8 then old.2 + x else f32Add old.2 x

/-- Product of a row and a column of a tile. -/
def tileCell (t : Tile) (afmt k : Nat) (a : List Nat) (sa : List Byte) (n : Nat) : W32 :=
  passCell afmt t.fmt.toNat k a sa ((t.rows.map fun r => rowElems t.fmt.toNat 128 r).map fun r => r.getD n 0) t.scales n

theorem passSum_eq (za : Bool) (afmt : Nat) (x old : W32) (kind : BitVec 2) : passSum za afmt x (kind, old) =
    if za = true ∨ kind = 0 then x else if afmt = 8 then old + x else f32Add old x :=
  if_congr (by simp) rfl rfl

theorem tileCell_eq (t : Tile) (afmt k : Nat) (a : List Nat) (sa : List Byte) (n : Nat) : tileCell t afmt k a sa n =
    passCell afmt t.fmt.toNat k a sa (t.rows.map fun r => (rowElems t.fmt.toNat 128 r).getD n 0) t.scales n := by
  rw [tileCell, List.map_map]
  rfl

/-- One row of a pass in one array. -/
def passArray (bufs : Tbl (Option Tile)) (za : Bool) (afmt k row : Nat) (a : List Nat) (sa : List Byte) (u : MxUnit) (j : Nat) :
    MxUnit :=
  match tget bufs j none with
  | none => u
  | some t => u.setSlice row j (passKind afmt) fun n =>
      passSum za afmt (tileCell t afmt k a sa n) (tget u.kinds (row * 4 + j) 0, u.cell row (128 * j + n))

section
variable {bufs : Tbl (Option Tile)} {za : Bool} {afmt k r : Nat} {a : List Nat} {sa : List Byte}

/-- A row of a pass leaves the buffers. -/
theorem passArray_bufs (u : MxUnit) (j : Nat) : (passArray bufs za afmt k r a sa u j).bufs = u.bufs := by
  unfold passArray
  split
  · rfl
  · rw [MxUnit.setSlice, MxUnit.setKind_bufs, MxUnit.setCells_bufs]

/-- A row of a pass in one array leaves every cell of another row or array. -/
theorem kindCell_passArray_ne (u : MxUnit) {row col j : Nat} (array : j < 4) (column : col < 512)
    (apart : row ≠ r ∨ col / 128 ≠ j) : (passArray bufs za afmt k r a sa u j).kindCell row col = u.kindCell row col := by
  unfold passArray
  split
  · rfl
  · exact u.kindCell_setSlice_ne _ _ array column apart

/-- A row of a pass in an array with a tile. -/
theorem kindCell_passArray_self (u : MxUnit) {j n : Nat} {t : Tile} (tile : tget bufs j none = some t) (column : n < 128) :
    (passArray bufs za afmt k r a sa u j).kindCell r (128 * j + n) =
      (passKind afmt, passSum za afmt (tileCell t afmt k a sa n) (u.kindCell r (128 * j + n))) := by
  have array : (128 * j + n) / 128 = j := by omega
  rw [passArray, tile]
  simp only
  rw [u.kindCell_setSlice_self _ (passKind_ne_zero afmt) column, MxUnit.kindCell, array]
end

/-- The elements of a row of a pass and its scale bytes. -/
def passOperand (p : Spur) (base afmt k abase astride ascale i : Nat) : List Nat × List Byte :=
  (rowElems afmt k (memRead p.lmem (base + abase + i * astride) (rowBytes afmt k)),
    memRead p.lmem (base + ascale + i * (k / 32)) (k / 32))

/-- Product of row i of a pass and column n of a tile. -/
def passProduct (p : Spur) (base afmt k abase astride ascale : Nat) (t : Tile) (i n : Nat) : W32 :=
  let a := passOperand p base afmt k abase astride ascale i
  tileCell t afmt k a.1 a.2 n

section
variable (p : Spur) (base : Nat) (am : BitVec 4) (za : Bool) (afmt k acc abase astride ascale : Nat)

/-- One row of a pass. -/
def passRow (u : MxUnit) (i : Nat) : MxUnit :=
  let a := passOperand p base afmt k abase astride ascale i
  (arraysOf am).foldl (passArray p.mx.bufs za afmt k (acc + i) a.1 a.2) u

/-- A pass that does not exchange its buffers runs row by row. -/
theorem mmaRun_eq (m : Nat) : mmaRun p base am false za afmt k m acc abase astride ascale =
    { p with mx := (List.range m).foldl (passRow p base am za afmt k acc abase astride ascale) p.mx } := rfl

/-- A row of a pass leaves the buffers. -/
theorem passRow_bufs (u : MxUnit) (i : Nat) : (passRow p base am za afmt k acc abase astride ascale u i).bufs = u.bufs :=
  foldl_read_of_keeps (read := MxUnit.bufs) (fun j _ v => passArray_bufs v j) u

/-- A row of a pass leaves every cell of another row and of an array that is not selected. -/
theorem kindCell_passRow_ne (u : MxUnit) {i row col : Nat} (column : col < 512)
    (apart : row ≠ acc + i ∨ col / 128 ∉ arraysOf am) :
    (passRow p base am za afmt k acc abase astride ascale u i).kindCell row col = u.kindCell row col := by
  refine foldl_read_of_keeps (read := fun v => v.kindCell row col) (fun j selected v => ?_) u
  exact kindCell_passArray_ne v (arraysOf_lt selected) column (apart.imp_right fun out same => out (same ▸ selected))

/-- A row of a pass in a selected array with a tile. -/
theorem kindCell_passRow_self (u : MxUnit) {i j n : Nat} {t : Tile} (selected : j ∈ arraysOf am)
    (tile : tget p.mx.bufs j none = some t) (column : n < 128) :
    (passRow p base am za afmt k acc abase astride ascale u i).kindCell (acc + i) (128 * j + n) =
      (passKind afmt, passSum za afmt (passProduct p base afmt k abase astride ascale t i n)
        (u.kindCell (acc + i) (128 * j + n))) := by
  have array := arraysOf_lt selected
  refine foldl_read_of_acts (read := fun v => v.kindCell (acc + i) (128 * j + n))
    (act := fun old => (passKind afmt, passSum za afmt (passProduct p base afmt k abase astride ascale t i n) old))
    (arraysOf_nodup am) selected (fun j' selected' other v => ?_) (fun v => kindCell_passArray_self v tile column) u
  exact kindCell_passArray_ne v (arraysOf_lt selected') (by omega) (.inr (by omega))

/-- A cell of a row of the pass, in a selected array with a tile. -/
theorem kindCell_mmaRun_self {m i j n : Nat} {t : Tile} (row : i < m) (selected : j ∈ arraysOf am)
    (tile : tget p.mx.bufs j none = some t) (column : n < 128) :
    (mmaRun p base am false za afmt k m acc abase astride ascale).mx.kindCell (acc + i) (128 * j + n) =
      (passKind afmt, passSum za afmt (passProduct p base afmt k abase astride ascale t i n)
        (p.mx.kindCell (acc + i) (128 * j + n))) := by
  have array := arraysOf_lt selected
  rw [mmaRun_eq]
  refine foldl_read_of_acts (read := fun u : MxUnit => u.kindCell (acc + i) (128 * j + n))
    (act := fun old => (passKind afmt, passSum za afmt (passProduct p base afmt k abase astride ascale t i n) old))
    List.nodup_range (List.mem_range.2 row) (fun i' _ other u => ?_) (fun u => ?_) p.mx
  · exact kindCell_passRow_ne p base am za afmt k acc abase astride ascale u (by omega) (.inl (by omega))
  · exact kindCell_passRow_self p base am za afmt k acc abase astride ascale u selected tile column

/-- A cell of a row outside the pass, or of an array that is not selected. -/
theorem kindCell_mmaRun_ne {m row col : Nat} (column : col < 512)
    (apart : row < acc ∨ acc + m ≤ row ∨ col / 128 ∉ arraysOf am) :
    (mmaRun p base am false za afmt k m acc abase astride ascale).mx.kindCell row col = p.mx.kindCell row col := by
  rw [mmaRun_eq]
  refine foldl_read_of_keeps (read := fun u : MxUnit => u.kindCell row col) (fun i hi u => ?_) p.mx
  have := List.mem_range.1 hi
  refine kindCell_passRow_ne p base am za afmt k acc abase astride ascale u column ?_
  rcases apart with below | above | out
  · exact .inl (by omega)
  · exact .inl (by omega)
  · exact .inr out

/-- A pass leaves the buffers. -/
theorem mmaRun_bufs (m : Nat) : (mmaRun p base am false za afmt k m acc abase astride ascale).mx.bufs = p.mx.bufs := by
  rw [mmaRun_eq]
  exact foldl_read_of_keeps (read := MxUnit.bufs)
    (fun i _ u => passRow_bufs p base am za afmt k acc abase astride ascale u i) p.mx
end

/-! ## The end of a matrix instruction -/

/-- An instruction none of whose operands was written since its issue reads local memory as it stands. -/
theorem mxSeen_of_not_clash {d : Nat} {p : Spur} {i : MxInstr} (h : mxClash p i = false) : mxSeen d p i = p.lmem :=
  if_neg (by rw [h]; decide)

/-- The Spur after an instruction that reads `rd` has had its effect and left the queue, with the seat and the waiting groups
looked at. -/
def Spur.mxFinished (p : Spur) (rd : List (Nat × Byte)) (seed : W64) (i : MxInstr) : Spur :=
  let q := mxEffect p rd seed i
  let rest := (q.mx.queue.filter fun x => x.id != i.id).map (mxPatch i q.lmem)
  mxWake { q with mx := mxSettle (mxEngage { q.mx with queue := rest }) }

/-- The end of a counting drain finishes the number that it took. -/
def finishDrain (s : State) (sp : Nat) : MxOp → State
  | .drain _ _ _ _ _ _ _ _ _ (some (c, n)) .. => finishCount s sp c n
  | _ => s

/-- An instruction that does not count finishes no number. -/
theorem finishDrain_of_ne (s : State) (sp : Nat) {op : MxOp}
    (h : ∀ am rows acc f act bias sc sr clr c n d ds bv sv os,
      op ≠ .drain am rows acc f act bias sc sr clr (some (c, n)) d ds bv sv os) :
    finishDrain s sp op = s := by
  unfold finishDrain
  split
  · exact (h _ _ _ _ _ _ _ _ _ _ _ _ _ _ _ _ rfl).elim
  · rfl

/-- The end of an instruction that runs and whose operands nothing has written since its issue. -/
theorem mxComplete_eq {s : State} {sp : Nat} {i : MxInstr}
    (runs : (mxRunning [] (s.spur sp).mx.queue).find? (fun x => x.id == i.id) = some i) (steady : mxClash (s.spur sp) i = false) :
    mxComplete s sp i.id =
      blockEnd (finishDrain (modSpur s sp fun p => p.mxFinished p.lmem (srState s sp) i) sp i.op) sp i.blk := by
  have reads : modSpur s sp (fun p => p.mxFinished p.lmem (srState s sp) i) =
      modSpur s sp (·.mxFinished (s.spur sp).lmem (srState s sp) i) := modSpur_congr rfl
  rw [mxComplete, runs, reads]
  simp only [steady, mxSeen_of_not_clash steady, Bool.false_eq_true, if_false]
  rfl

/-! ## What an instruction reads -/

/-- What an instruction reads in a byte is the old value or the new one. -/
theorem memByte_mxSeen_or (d : Nat) (p : Spur) (i : MxInstr) (a : Nat) :
    memByte (mxSeen d p i) a = memByte p.lmem a ∨ memByte (mxSeen d p i) a = memByte i.old a := by
  unfold mxSeen
  split
  · refine List.foldlRecOn (motive := fun m => memByte m a = memByte p.lmem a ∨ memByte m a = memByte i.old a) _ _ (.inl rfl)
      fun m ih b _ => ?_
    split
    · rw [memByte_memSet]
      split
      · next same => rw [same]; exact .inr rfl
      · exact ih
    · exact ih
  · exact .inl rfl

/-- A byte that an instruction does not read as an operand is seen as it stands. -/
theorem memByte_mxSeen_of_not_touched (d : Nat) (p : Spur) {i : MxInstr} {a : Nat} (h : mxTouches i false a = false) :
    memByte (mxSeen d p i) a = memByte p.lmem a := by
  unfold mxSeen
  split
  · refine foldl_read_of_keeps (read := fun m => memByte m a) (fun b _ m => ?_) p.lmem
    split
    · next touched =>
      have other : a ≠ b := fun same => by simp [← same, h] at touched
      rw [memByte_memSet, if_neg other]
    · rfl
  · rfl

/-- Settles O13: a pass by the one row and array that reach a cell, the end of an instruction by `mxComplete_eq`. -/
theorem matrixInstructionsHaveTheirEffect : Obligations.MatrixInstructionsHaveTheirEffect := by
  refine ⟨?pass, ?finish, fun p d a i _ => ⟨memByte_mxSeen_of_not_touched d p, memByte_mxSeen_or d p i a⟩⟩
  case pass =>
    intro p base am za afmt k m acc abase astride ascale i j n t row selected column tile q x old
    have inArray : (128 * j + n) / 128 = j := by omega
    have cell := congrArg Prod.snd
      (kindCell_mmaRun_self p base am za afmt k acc abase astride ascale row selected tile column)
    refine ⟨cell.trans ?_, fun r c inUnit apart => ?_, rfl, mmaRun_bufs ..⟩
    · rw [MxUnit.kindCell, inArray, passProduct, tileCell_eq]
      exact passSum_eq ..
    · exact congrArg Prod.snd (kindCell_mmaRun_ne p base am za afmt k acc abase astride ascale inUnit apart)
  case finish =>
    intro s sp i runs steady done
    have performed := mxComplete_eq runs steady
    refine ⟨fun am rows acc f act bias sc sr clr c n d ds bv sv os counting => ?_, fun other => ?_⟩
    · rw [counting] at performed
      exact congrArg Host.Outcome.next performed
    · rw [finishDrain_of_ne _ _ other] at performed
      exact congrArg Host.Outcome.next performed

end Sys2Proof.Machine
end

section
/-! PROOF. The current ramp of a matrix array (R125 to R127, R450, R451). -/

namespace Sys2Proof.Machine

/-- A change of an array's ramp is one of its Spur, and the ramp is then as set. -/
theorem setRamp_spec (s : State) (sp j : Nat) (f : RampPhase) :
    OnlySpur s (setRamp s sp j f) sp ∧ tget ((setRamp s sp j f).spur sp).mx.ramps j .off = f := by
  refine ⟨onlySpur_modSpur .., ?_⟩
  rw [setRamp, spur_modSpur_self]
  exact tget_tset_self ..

/-- A command that only sets the ramp of an array. -/
theorem sets_ramp {c : Instr} {s u : State} {sp j : Nat} {f : RampPhase} (runs : exec c s = .next u)
    (result : u = setRamp s sp j f) :
    ∃ t, exec c s = .next t ∧ OnlySpur s t sp ∧ tget (t.spur sp).mx.ramps j .off = f :=
  ⟨u, runs, result ▸ setRamp_spec s sp j f⟩

section
variable {s : State} {sp j i : Nat}

/-- At the end of a ramp-up step a busy array climbs, where its power controller allows it. -/
theorem rampUp_of_up (phase : tget (s.spur sp).mx.ramps j .off = .up i) :
    rampUp s sp j = if arrayBusy (s.spur sp).mx j && rampAllowed s (16 + sp / 8)
      then setRamp s sp j (if i < 8 then .up (i + 1) else .full) else s := by
  rw [rampUp, phase]

/-- When the hold ends an idle array at full current turns down from the first release step. -/
theorem rampHold_of_full (phase : tget (s.spur sp).mx.ramps j .off = .full) (idle : arrayBusy (s.spur sp).mx j = false) :
    rampHold s sp j = setRamp s sp j (.down 1) := by
  rw [rampHold, if_neg (by rw [idle]; decide), phase]

/-- When the hold ends an idle array at a ramp-up step turns down from the release step of the same current. -/
theorem rampHold_of_up (phase : tget (s.spur sp).mx.ramps j .off = .up i) (idle : arrayBusy (s.spur sp).mx j = false) :
    rampHold s sp j = setRamp s sp j (.down (9 - i)) := by
  rw [rampHold, if_neg (by rw [idle]; decide), phase]

/-- At the end of a release step an array goes down, after the eighth to off. -/
theorem rampDown_of_down (phase : tget (s.spur sp).mx.ramps j .off = .down i) :
    rampDown s sp j = setRamp s sp j (if i < 8 then .down (i + 1) else .off) := by
  rw [rampDown, phase]
end

/-- Settles O14: each event sets the ramp by the phase it finds, or leaves the state. -/
theorem rampsClimbHoldAndRelease : Obligations.RampsClimbHoldAndRelease := by
  intro s sp j i ph
  refine ⟨fun up busy allowed => ?climb, fun up held => ?wait, fun full idle => ?fromFull, fun up idle => ?fromStep,
    fun down => ?release⟩
  case climb => exact sets_ramp rfl ((rampUp_of_up up).trans (if_pos (by rw [busy, allowed]; rfl)))
  case wait => exact congrArg Host.Outcome.next ((rampUp_of_up up).trans (if_neg (by simp [held])))
  case fromFull => exact sets_ramp rfl (rampHold_of_full full idle)
  case fromStep => exact sets_ramp rfl (rampHold_of_up up idle)
  case release => exact sets_ramp rfl (rampDown_of_down down)

end Sys2Proof.Machine
end

section
/-! PROOF. Floating-point, special-function and conversion instructions (R147 to R153, R86). -/

namespace Sys2Proof.Machine

/-- `fp.fma`, `fp.add`, `fp.mul`, `fp.min` and `fp.max` that issue write VD; `fp.fma` alone names VC. -/
theorem fpReg_eq_laneWrite {s : State} {sp sl : Nat} {w : W64} {g : Group} (op : opOf w = 0x08) (scope : (fmtA w).scope = 0)
    (func : (fmtA w).func < 5) (typ : (fmtA w).typ < 3) (md : (fmtA w).md = 0)
    (issues : Issues s sp sl (if (fmtA w).func = 0 then [(fmtA w).va, (fmtA w).vb, (fmtA w).vc, (fmtA w).vd]
      else [(fmtA w).va, (fmtA w).vb, (fmtA w).vd]) g) :
    fpReg s sp sl w = laneWrite s sp sl (fmtA w).vd (fmtA w).pred (fmtA w).pneg
      (fun g l => fpOp (fmtA w).typ (fmtA w).func (g.rd l (fmtA w).va) (g.rd l (fmtA w).vb) (g.rd l (fmtA w).vc)) g := by
  have notCompare : (fmtA w).func ≠ 5 := by omega
  rw [fpReg, ofClass_eq op]
  simp only [if_neg notCompare]
  exact issue_of_good issues (by simp [scope, md]; omega) _

/-- `fp.setp` that issues writes predicate VD mod 8. -/
theorem fpReg_eq_predWrite {s : State} {sp sl : Nat} {w : W64} {g : Group} (op : opOf w = 0x08) (scope : (fmtA w).scope = 0)
    (func : (fmtA w).func = 5) (typ : (fmtA w).typ = 0) (md : (fmtA w).md < 8)
    (issues : Issues s sp sl [(fmtA w).va, (fmtA w).vb] g) :
    fpReg s sp sl w = predWrite s sp sl ((fmtA w).vd % 8) (fmtA w).pred (fmtA w).pneg
      (fun g l => fpCond (fmtA w).md (g.rd l (fmtA w).va) (g.rd l (fmtA w).vb)) g := by
  rw [fpReg, ofClass_eq op]
  simp only [func, if_true]
  exact issue_of_good issues (by simp [scope, typ]; omega) _

/-- Settles O3: each form is well encoded and writes a register or, for `fp.setp`, a predicate of its enabled lanes. -/
theorem floatingPointInstructionsWriteTheirResult : Obligations.FloatingPointInstructionsWriteTheirResult := by
  intro s sp sl w g
  refine ⟨?fma, ?arithmetic, ?compare, ?immediate, ?special, ?convert⟩
  case fma =>
    intro op scope func typ md issues
    rw [← func]
    exact writesReg_of_wrLanes (fmtA_vd_lt w) rfl
      (fpReg_eq_laneWrite op scope (by omega) typ md (by rwa [if_pos func]))
  case arithmetic =>
    intro op scope notFma func typ md issues
    exact writesReg_of_wrLanes (fmtA_vd_lt w) rfl
      (fpReg_eq_laneWrite op scope func typ md (by rwa [if_neg (by omega)]))
  case compare =>
    intro op scope func typ md issues
    exact writesPred_of_setPreds (Nat.mod_lt _ (by decide)) rfl (fpReg_eq_predWrite op scope func typ md issues)
  case immediate =>
    intro op zero func issues
    rw [← Group.enabled_p7 g]
    refine writesReg_of_wrLanes (fmtI_vd_lt w) rfl ?_
    exact ofClass_issue op issues (by simp [zero]; omega)
  case special =>
    intro op scope func typ md issues
    refine writesReg_of_wrLanes (fmtA_vd_lt w) rfl ?_
    exact ofClass_issue op issues (by simp [scope, typ, md]; omega)
  case convert =>
    intro op scope mode md valid issues
    refine writesReg_of_wrLanes (fmtA_vd_lt w) rfl ?_
    have notReserved : (cvtOp (fmtA w).typ (fmtA w).func (fmtA w).md 0).isNone = false := by
      rwa [Option.isNone_eq_false_iff]
    exact ofClass_issue op issues (by simp only [scope, notReserved, bne_self_eq_false, Bool.or_false, Bool.false_or,
      Bool.or_eq_false_iff, decide_eq_false_iff_not]; omega)

end Sys2Proof.Machine
end

section
/-! PROOF. Records of the Summit Book: what a record, and the end of a command, leave unchanged (R357, R360, R367, R368). -/

namespace Sys2Proof.Machine

/-- A state without its memory, its queues and its registers: what no journal record and no counter changes. -/
def State.sansRecords (s : State) : State := { s with mem := [], qs := {}, regs := [] }

/-- States that differ in memory, queues and registers alone agree in all else. -/
theorem fields_of_sansRecords {s t : State} (h : s.sansRecords = t.sansRecords) :
    s.time = t.time ∧ s.net = t.net ∧ s.spurs = t.spurs ∧ s.former = t.former := by
  have time := congrArg State.time h
  have net := congrArg State.net h
  have spurs := congrArg State.spurs h
  have former := congrArg State.former h
  exact ⟨time, net, spurs, former⟩

theorem former_of_sansRecords {s t : State} (h : s.sansRecords = t.sansRecords) : s.former = t.former := by
  obtain ⟨-, -, -, former⟩ := fields_of_sansRecords h
  exact former

theorem journalCarry_sansRecords (s : State) : (journalCarry s).sansRecords = s.sansRecords := by
  unfold journalCarry
  simp only
  repeat' split
  all_goals rfl

theorem journalFlush_sansRecords (rs : List JRec) (s : State) : (journalFlush rs s).sansRecords = s.sansRecords := by
  induction rs generalizing s with
  | nil => rfl
  | cons r rs ih =>
    rw [journalFlush]
    split
    · exact (ih _).trans (journalCarry_sansRecords s)
    · rfl

/-- A record changes memory and the queues alone. -/
theorem journal_sansRecords (s : State) (cid : Nat) (event : BitVec 3) (status : Byte) :
    (journal s cid event status).sansRecords = s.sansRecords := by
  unfold journal
  split
  · rfl
  · exact journalFlush_sansRecords _ _

/-- The end of a command changes memory and the queues alone. -/
theorem endCmd_sansRecords (s : State) (cid : Nat) (event : BitVec 3) (status : Byte) :
    (endCmd s cid event status).sansRecords = s.sansRecords := by
  unfold endCmd
  repeat' split
  · rfl
  · rfl
  · exact journal_sansRecords _ _ _ _

/-- Counting an event changes registers alone. -/
theorem bumpEvent_sansRecords (s : State) (die : Nat) (c o : FRef) : (bumpEvent s die c o).sansRecords = s.sansRecords := by
  rw [bumpEvent_onlyRegs]
  rfl

@[simp] theorem endCmd_former (s : State) (cid : Nat) (event : BitVec 3) (status : Byte) :
    (endCmd s cid event status).former = s.former := former_of_sansRecords (endCmd_sansRecords s cid event status)

@[simp] theorem finishCmd_former (s : State) (cid : Nat) (status : Byte) : (finishCmd s cid status).former = s.former :=
  endCmd_former s cid 3 status

/-! ## Commands and their records -/

/-- A command without the sequence of its latest record. -/
def Cmd.sansRecord (c : Cmd) : Cmd := { c with jseq := none }

theorem cmd?_journalPut_sansRecord (s : State) (r : JRec) (k : Nat) :
    ((journalPut s r).cmd? k).map Cmd.sansRecord = (s.cmd? k).map Cmd.sansRecord := by
  unfold journalPut State.cmd?
  simp only
  split
  · next c command =>
    by_cases isOwner : k = r.cid
    · rw [isOwner, tget?_tset_self, command]
      rfl
    · rw [tget?_tset_ne _ _ isOwner]
  · rfl

theorem cmd?_journalCarry_sansRecord (s : State) (k : Nat) :
    ((journalCarry s).cmd? k).map Cmd.sansRecord = (s.cmd? k).map Cmd.sansRecord := by
  unfold journalCarry
  simp only
  split
  · rfl
  split
  · split
    · split
      · exact cmd?_journalPut_sansRecord _ _ _
      · exact cmd?_journalPut_sansRecord _ _ _
      · rfl
    · rfl
  · rfl

theorem cmd?_journalFlush_sansRecord (rs : List JRec) (s : State) (k : Nat) :
    ((journalFlush rs s).cmd? k).map Cmd.sansRecord = (s.cmd? k).map Cmd.sansRecord := by
  induction rs generalizing s with
  | nil => rfl
  | cons r rs ih =>
    rw [journalFlush]
    split
    · rw [ih, cmd?_journalPut_sansRecord, cmd?_journalCarry_sansRecord]
    · rfl

/-- A record changes of every command the sequence of its latest record alone. -/
theorem cmd?_journal_sansRecord (s : State) (cid : Nat) (event : BitVec 3) (status : Byte) (k : Nat) :
    ((journal s cid event status).cmd? k).map Cmd.sansRecord = (s.cmd? k).map Cmd.sansRecord := by
  unfold journal
  split
  · rfl
  · next c command =>
    rw [cmd?_journalFlush_sansRecord]
    by_cases isThis : k = cid
    · rw [isThis, cmd?_setCmd_self, command]
      rfl
    · rw [cmd?_setCmd_ne _ _ isThis]

/-- A command that had not ended and ends with a status. -/
theorem cmd?_endCmd_self {s : State} {cid : Nat} {c : Cmd} (event : BitVec 3) (status : Byte) (command : s.cmd? cid = some c)
    (runs : c.st = .started) : ∃ c', (endCmd s cid event status).cmd? cid = some c' ∧
      c'.sansRecord = { c.sansRecord with st := .ended status, running := false } := by
  have ends : ((endCmd s cid event status).cmd? cid).map Cmd.sansRecord =
      some { c.sansRecord with st := .ended status, running := false } := by
    rw [endCmd, command]
    simp only [runs]
    rw [cmd?_journal_sansRecord]
    exact congrArg (Option.map Cmd.sansRecord) (cmd?_setCmd_self s cid { c with st := .ended status, running := false })
  exact Option.map_eq_some_iff.1 ends

end Sys2Proof.Machine
end

section
/-! PROOF. The team former: steps, the close of a team and its dispatch (R159 to R165). -/

namespace Sys2Proof.Machine

/-! ## Residencies and candidates -/

/-- A change of a residency in place. -/
theorem modRes_eq {s : State} {res : Nat} {r : Residency} (f : Residency → Residency)
    (residency : tget? s.former.residencies res = some r) : modRes s res f =
      { s with former := { s.former with residencies := tset s.former.residencies res (f r) } } := by
  rw [modRes, residency]

/-- Eligible candidates are candidates. -/
theorem mem_of_mem_eligible {r : Residency} {l : List Candidate} {c : Candidate} (h : c ∈ eligible r l) : c ∈ l := by
  have each : ∀ (rest acc : List Candidate), c ∈ rest.foldl (fun acc c =>
      if r.cap = 0 ∨ (acc.filter fun x => x.queue == c.queue).length < r.cap then acc ++ [c] else acc) acc →
      c ∈ acc ∨ c ∈ rest := by
    intro rest
    induction rest with
    | nil => exact fun acc h => Or.inl h
    | cons x rest ih =>
      intro acc h
      rw [List.foldl_cons] at h
      rcases ih _ h with inAcc | inRest
      · split at inAcc
        · rcases List.mem_append.1 inAcc with old | new
          · exact Or.inl old
          · exact Or.inr (List.mem_singleton.1 new ▸ List.mem_cons_self)
        · exact Or.inl inAcc
      · exact Or.inr (List.mem_cons_of_mem _ inRest)
  exact (each l [] h).resolve_left List.not_mem_nil

/-- The earliest deadline is that of a candidate. -/
theorem exists_deadline_of_earliest {l : List Candidate} {d : W64} (h : earliest l = some d) : ∃ c ∈ l, c.deadline = d := by
  induction l generalizing d with
  | nil => cases h
  | cons x l ih =>
    have isHeadOr : x.deadline = d ∨ earliest l = some d := by
      rw [earliest] at h
      split at h
      · exact Or.inl (Option.some.inj h)
      · next e rest =>
        split at h
        · exact Or.inl (Option.some.inj h)
        · exact Or.inr (rest.trans h)
    rcases isHeadOr with head | rest
    · exact ⟨x, List.mem_cons_self, head⟩
    · obtain ⟨c, here, deadline⟩ := ih rest
      exact ⟨c, List.mem_cons_of_mem _ here, deadline⟩

/-! ## The close of a team (R162 to R164) -/

section
variable {s : State} {res : Nat} {r : Residency}

/-- A close puts the team under the next number, takes its rows' candidates away and enters it in its residency. -/
theorem closeTeam_spec (l : List Candidate) (byDeadline : Bool) (residency : tget? s.former.residencies res = some r) :
    let u := closeTeam s res r l byDeadline
    let take := (selection r l).take r.fill
    u.time = s.time ∧
      tget? u.former.teams s.former.nextTeam = some {
        res := res, rows := take.filterMap (rowOf s), byDeadline := byDeadline
        closeTime := s.time, deadline := (earliest take).getD 0 } ∧
      (∀ x, x ∈ u.former.cands ↔ x ∈ s.former.cands ∧ ∀ y ∈ take, y.cid ≠ x.cid) ∧
      tget? u.former.residencies res = some { r with favoured := [], closed := r.closed ++ [s.former.nextTeam] } := by
  intro u take
  have performed : u = _ := modRes_eq _ residency
  rw [performed]
  refine ⟨rfl, tget?_tset_self .., fun x => ?_, tget?_tset_self ..⟩
  simp [List.mem_filter, take]

/-- A residency with FILL eligible candidates closes a team of them. -/
theorem tryClose_of_full (residency : tget? s.former.residencies res = some r)
    (full : r.fill ≤ (eligible r (s.former.cands.filter fun x => x.res == res)).length) :
    tryClose s res = closeTeam s res r (eligible r (s.former.cands.filter fun x => x.res == res)) false := by
  rw [tryClose, residency]
  exact if_pos full

/-- A residency with fewer closes none while no deadline has come. -/
theorem tryClose_of_early (residency : tget? s.former.residencies res = some r)
    (few : (eligible r (s.former.cands.filter fun x => x.res == res)).length < r.fill)
    (early : ∀ x ∈ s.former.cands, s.time < x.deadline) : tryClose s res = s := by
  rw [tryClose, residency]
  simp only [if_neg (Nat.not_le.2 few)]
  split
  · next d found =>
    obtain ⟨c, here, deadline⟩ := exists_deadline_of_earliest found
    have candidate := List.mem_of_mem_filter (List.mem_of_mem_filter (mem_of_mem_eligible here))
    exact if_neg (BitVec.not_le.2 (deadline ▸ early c candidate))
  · rfl
end

/-! ## Steps (R159 to R161) -/

section
variable {s : State} {cid : Nat} {c : Cmd}

/-- A TEAM_STEP command that is accepted, whose fence is met and that the former has not taken. -/
structure StepDue (s : State) (cid : Nat) (c : Cmd) : Prop where
  command : s.cmd? cid = some c
  accepted : c.st = .accepted
  kind : c.kind = 0x05
  notYet : c.running = false
  fence : fenceMet s cid c = true

/-- Nothing holds a step that is due. -/
theorem StepDue.notHeld (due : StepDue s cid c) : ¬ (c.st ≠ .accepted ∨ c.kind ≠ 0x05 ∨ c.running ∨ !fenceMet s cid c) := by
  simp [due.accepted, due.kind, due.notYet, due.fence]

/-- A step of a queue that is bound to no residency. -/
theorem teamStep_of_unbound (due : StepDue s cid c) (unbound : boundTo s c.queue = none) :
    teamStep s cid = finishCmd s cid 0x0F := by
  rw [teamStep, due.command]
  simp only [if_neg due.notHeld, unbound]

/-- Deadline class of a queue in a residency (R157). -/
def Residency.classOf (r : Residency) (q : BitVec 18) : BitVec 3 := ((r.queues.find? fun x => x.1 == q).map Prod.snd).getD 0

/-- The class of a member queue is the one registered with it. -/
theorem Residency.classOf_mem (r : Residency) (q : BitVec 18) : (q, r.classOf q) ∈ r.queues ∨ ∀ x ∈ r.queues, x.1 ≠ q := by
  rw [Residency.classOf]
  cases found : r.queues.find? fun x => x.1 == q with
  | none => exact Or.inr fun x hx same => List.find?_eq_none.1 found x hx (beq_iff_eq.2 same)
  | some x =>
    have queue : x.1 = q := by simpa using List.find?_some found
    exact Or.inl (queue ▸ List.mem_of_find?_eq_some found)

/-- The state once a step has become the last candidate of the former. -/
def joined (s : State) (cid res : Nat) (c : Cmd) (cls : BitVec 3) : State :=
  let s := setCmd s cid { c with running := true, info := BitVec.ofNat 32 (bodyBits c 0x10 63 32) }
  { s with former := { s.former with cands := s.former.cands ++ [⟨cid, res, c.queue, cls,
      c.acceptedAt + BitVec.ofNat 64 (1000 * fldAt s 0 R.HUB_TEAM_CLASS_DEADLINE_US cls.toNat)⟩] } }

/-- A step of a queue that is bound to a residency. -/
theorem teamStep_of_bound {res : Nat} {r : Residency} (due : StepDue s cid c) (bound : boundTo s c.queue = some res)
    (residency : tget? s.former.residencies res = some r) :
    teamStep s cid = if !stepOk c then finishCmd s cid 0x0F else if r.suspended then finishCmd s cid 0x0B
      else tryClose (joined s cid res c (r.classOf c.queue)) res := by
  rw [teamStep, due.command]
  simp only [if_neg due.notHeld, bound, residency]
  rfl
end

/-! ## Dispatch (R164, R165) -/

/-- A state after messages have been put in flight. -/
def State.sent (s : State) (ms : List Msg) : State := { s with net := s.net ++ ms }

/-- Messages sent one after another join those in flight in that order. -/
theorem foldl_send {α : Type} (f : α → Msg) (l : List α) (s : State) :
    l.foldl (fun s a => send s (f a)) s = s.sent (l.map f) := by
  induction l generalizing s with
  | nil => simp [State.sent]
  | cons a l ih =>
    rw [List.foldl_cons, ih]
    simp [State.sent, send]

theorem sent_sansRecords {s t : State} (ms : List Msg) (h : s.sansRecords = t.sansRecords) :
    (s.sent ms).sansRecords = (t.sent ms).sansRecords := congrArg (State.sent · ms) h

/-- The team former after a team `x` of residency `r` has gone out under the next sequence number. -/
def dispatched (f : TeamFormer) (tm : Nat) (x : Team) (r : Residency) (late : Bool) (fault : Option Byte) : TeamFormer :=
  { f with
    nextSeq := f.nextSeq + 1
    teams := tset f.teams tm { x with seq := some f.nextSeq, late := late, fault := fault }
    residencies := tset f.residencies x.res { r with
      closed := r.closed.drop 1, favoured := if late then r.favoured ++ x.rows.map (·.queue) else r.favoured } }

theorem countLate_sansRecords (late : Bool) (s : State) :
    (if late then bumpEvent s 0 R.HUB_TEAM_LATE_COUNT R.HUB_TEAM_OVF_LATE_OVF else s).sansRecords = s.sansRecords := by
  split
  · exact bumpEvent_sansRecords ..
  · rfl

/-- The oldest closed team of a residency with room goes out to the 16 tensor dies; the rest is counters and the records of
its rows' commands. -/
theorem teamDispatch_sansRecords {s : State} {tm : Nat} {time : W64} {x : Team} {r : Residency} {rest : List Nat}
    (team : tget? s.former.teams tm = some x) (residency : tget? s.former.residencies x.res = some r) (notYet : x.seq = none)
    (oldest : r.closed = tm :: rest) (room : inFlight s x.res < r.inflight) :
    let now := (setTime s time).time
    let late := x.deadline < now && !(x.byDeadline && now == x.closeTime)
    (teamDispatch s tm time).sansRecords = State.sansRecords (State.sent { setTime s time with
        former := dispatched s.former tm x r late (if setRetired s r then x.fault.or (some 0x0B) else x.fault) }
      ((List.range 16).map fun td => Msg.dispatch td s.former.nextSeq tm)) := by
  intro now late
  have goes : ¬ (x.seq.isSome || r.closed.head? != some tm || r.inflight ≤ inFlight (setTime s time) x.res) = true := by
    have some : ¬ r.inflight ≤ inFlight (setTime s time) x.res := Nat.not_le.2 room
    simp [notYet, oldest, some]
  rw [teamDispatch]
  simp only [setTime_former, team, residency, if_neg goes]
  rw [foldl_send]
  refine sent_sansRecords _ ((foldl_read_of_keeps (read := State.sansRecords) (fun w _ u => ?row) _).trans ?counts)
  case row =>
    split
    · exact journal_sansRecords ..
    · rfl
  case counts =>
    refine (countLate_sansRecords late _).trans ?_
    rw [bumpEvent_sansRecords, modRes_eq (r := r)]
    · rfl
    · exact residency

/-- Settles O15: steps by `teamStep_of_bound`, closes by `closeTeam_spec`, a dispatch by what its records and counters leave. -/
theorem teamsAreFormedAndDispatched : Obligations.TeamsAreFormedAndDispatched := by
  refine ⟨?form, ?dispatch⟩
  case form =>
    intro s cid c command accepted kind notYet fence
    have due : StepDue s cid c := ⟨command, accepted, kind, notYet, fence⟩
    refine ⟨fun unbound => congrArg Host.Outcome.next (teamStep_of_unbound due unbound), fun res r residency => ?_⟩
    refine ⟨fun bound malformed => ?_, fun bound legal suspended => ?_, fun bound legal active => ?_, fun b t hb => ?close⟩
    case close =>
      subst hb
      refine ⟨fun full => ?_, fun few early => ?_⟩
      · exact ⟨_, congrArg Host.Outcome.next (tryClose_of_full (s := setTime s t) residency full),
          closeTeam_spec (s := setTime s t) _ _ residency⟩
      · exact congrArg Host.Outcome.next (tryClose_of_early (s := setTime s t) residency few early)
    all_goals have performed := teamStep_of_bound due bound residency
    · exact congrArg Host.Outcome.next (performed.trans (if_pos (by rw [malformed]; rfl)))
    all_goals rw [legal] at performed
    · exact congrArg Host.Outcome.next (performed.trans (if_pos suspended))
    · exact ⟨joined s cid res c (r.classOf c.queue), r.classOf c.queue,
        congrArg Host.Outcome.next (performed.trans (if_neg (Bool.eq_false_iff.1 active))), rfl, r.classOf_mem c.queue, rfl,
        ⟨fun _ => rfl, rfl⟩, rfl, rfl⟩
  case dispatch =>
    intro s tm time x r rest now late team residency notYet oldest room
    have performed := teamDispatch_sansRecords (time := time) team residency notYet oldest room
    obtain ⟨time, net, spurs, former⟩ := fields_of_sansRecords performed
    refine ⟨_, rfl, time, congrArg TeamFormer.nextSeq former, ?_, ?_, net, spurs⟩
    · rw [former]
      exact tget?_tset_self ..
    · rw [former]
      refine (tget?_tset_self ..).trans ?_
      rw [oldest]
      rfl

end Sys2Proof.Machine
end

section
/-! PROOF. Team blocks: dispatch messages at a tensor die, staging and the start of entries (R165 to R169). -/

namespace Sys2Proof.Machine

/-! ## Dispatch messages at a tensor die (R165) -/

section
variable {s : State} {td tm : Nat}

/-- A die whose next team has not come takes none. -/
theorem takeTeams_of_gap (n : Nat) (gap : tget? (s.tdie td).early (s.tdie td).expect.toNat = none) : takeTeams n s td = s := by
  cases n with
  | zero => rfl
  | succ n => rw [takeTeams, gap]

/-- Does a team that goes out concern a die: has its set a Spur there, and has nothing stopped the team? -/
def takesTeam (s : State) (td tm : Nat) : Bool :=
  ((tget? s.former.teams tm).bind fun t =>
    (tget? s.former.residencies t.res).map fun r => (diesOf r.spurs).contains td && t.fault.isNone).getD false

theorem takesTeam_eq {x : Team} {r : Residency} (team : tget? s.former.teams tm = some x)
    (residency : tget? s.former.residencies x.res = some r) (goodTeam : x.fault = none) :
    takesTeam s td tm = (diesOf r.spurs).contains td := by
  simp [takesTeam, team, residency, goodTeam]

/-- A tensor die after it has gone on to the next sequence number. -/
def TensorDie.goneOn (d : TensorDie) (tm : Nat) (mine : Bool) : TensorDie :=
  { d with
    early := tdel d.early d.expect.toNat
    expect := d.expect + 1
    teams := if mine then d.teams ++ [tm] else d.teams }

/-- A die takes the team that is next, and then those after it. -/
theorem takeTeams_of_next (n : Nat) (next : tget? (s.tdie td).early (s.tdie td).expect.toNat = some tm) :
    takeTeams (n + 1) s td = takeTeams n (modTdie s td (·.goneOn tm (takesTeam s td tm))) td := by
  rw [takeTeams, next]
  rfl

/-- What a die holds after a message has come. -/
def TensorDie.received (d : TensorDie) (seq : W32) (tm : Nat) : TensorDie := { d with early := tset d.early seq.toNat tm }

theorem TensorDie.received_early {d : TensorDie} (none : d.early = []) (seq : W32) (tm : Nat) :
    (d.received seq tm).early = [(seq.toNat, tm)] := by
  rw [TensorDie.received, none]
  rfl

/-- Is it the dispatch message of a sequence number to a tensor die? -/
def isDispatch (td : Nat) (seq : W32) : Msg → Bool
  | .dispatch d q _ => d == td && q == seq
  | _ => false

/-- The die keeps a message that has come and takes the teams that are next. -/
theorem dispatchReceive_eq {seq : W32} (found : s.net.find? (isDispatch td seq) = some (.dispatch td seq tm)) :
    dispatchReceive s td seq = takeTeams ((s.tdie td).received seq tm).early.length
      (modTdie (recv s (.dispatch td seq tm)) td (·.received seq tm)) td := by
  rw [dispatchReceive]
  split
  · next here =>
    cases here.symm.trans found
    simp only [tdie_modTdie_self]
    rfl
  · next other => exact absurd found (other _ _ _)

/-- A message under the number that a die expects, where the die holds none. -/
theorem dispatchReceive_of_expected (none : (s.tdie td).early = [])
    (found : s.net.find? (isDispatch td (s.tdie td).expect) = some (.dispatch td (s.tdie td).expect tm)) :
    dispatchReceive s td (s.tdie td).expect =
      modTdie (modTdie (recv s (.dispatch td (s.tdie td).expect tm)) td (·.received (s.tdie td).expect tm)) td
        (·.goneOn tm (takesTeam s td tm)) := by
  rw [dispatchReceive_eq found, TensorDie.received_early none]
  refine takeTeams_of_next 0 ?_
  rw [tdie_modTdie_self]
  exact tget?_tset_self ..

/-- A message under another number, where the die holds none. -/
theorem dispatchReceive_of_ahead {seq : W32} (none : (s.tdie td).early = []) (ahead : seq ≠ (s.tdie td).expect)
    (found : s.net.find? (isDispatch td seq) = some (.dispatch td seq tm)) :
    dispatchReceive s td seq = modTdie (recv s (.dispatch td seq tm)) td (·.received seq tm) := by
  rw [dispatchReceive_eq found]
  refine takeTeams_of_gap _ ?_
  rw [tdie_modTdie_self]
  refine (tget?_tset_ne _ _ fun same => ahead (BitVec.eq_of_toNat_eq same.symm)).trans ?_
  rw [show ((recv s (.dispatch td seq tm)).tdie td).early = [] from none]
  rfl
end

/-! ## The start of a team block (R166, R167) -/

/-- The block of team `tm` on Spur `sp` before its rows are staged. -/
def unstagedBlock (tm sp : Nat) (x : Team) (r : Residency) : Block :=
  { kid := x.res, team := some tm, num := r.spurs.findIdx (· == sp), ctx := r.ctx, groups := r.groups, width := r.width
    bx := r.groups * r.width, gx := r.spurs.length, params := r.params, gran0 := 120, grans := 8, ctrs := 4
    faultQueue := r.faultQueue, tag := x.seq.getD 0, stall := r.stall }

/-- The next team of a Spur that fits and is not held there: the Spur changes so that the lowest free slot has the team's
block, and the reads that stage its rows join the copies. -/
theorem teamBlockStart_spec {s : State} {sp tm slot : Nat} {x : Team} {r : Residency} (turn : teamTurn s sp = some tm)
    (team : tget? s.former.teams tm = some x) (residency : tget? s.former.residencies x.res = some r)
    (notHeld : ((s.spur sp).holds.any fun h => h.res == x.res) = false) (fits : teamFits (s.spur sp) r = true)
    (free : freeBlock (s.spur sp) = some slot) :
    ∃ f, teamBlockStart s sp = modSpur (setTeam s tm { x with started := x.started ++ [sp] }) sp f ∧
      tget? (f (s.spur sp)).blocks slot = some (unstagedBlock tm sp x r) ∧
      (f (s.spur sp)).copies = (s.spur sp).copies ++ stageJobs r x (r.spurs.findIdx (· == sp)) slot (s.spur sp).nextId := by
  have placed : (((s.spur sp).holds ++ [newHold (s.spur sp) x.res r]).find? fun h => h.res == x.res).map (·.slot) = some slot := by
    have others : (s.spur sp).holds.find? (fun h => h.res == x.res) = none := by
      simpa using notHeld
    rw [List.find?_append, others]
    simp [newHold, free]
  rw [teamBlockStart, turn]
  simp only [team, residency, notHeld, fits]
  refine ⟨_, rfl, ?block, ?copies⟩
  all_goals simp only [Bool.false_eq_true, if_false, placed, Option.getD_some]
  exact tget?_tset_self ..

/-! ## The end of staging and notices (R168, R169) -/

/-- A Spur whose one copy of the launch unit reads its row: the header, the row table and the zero rows are written, the block
is idle, and the die may start entry 0. -/
theorem stagingDone_eq {s u : State} {sp slot tm : Nat} {b : Block} {x : Team} {r : Residency} {j : CopyJob}
    (block : (s.spur sp).teamBlock = some (slot, b)) (teamOf : b.team = some tm) (unstaged : b.idle = false)
    (runs : b.stopping = false) (empty : slotsOf (s.spur sp) slot = []) (team : tget? s.former.teams tm = some x)
    (residency : tget? s.former.residencies x.res = some r) (first : tget x.dieEntry (sp / 8) 0 = 0)
    (one : (s.spur sp).copies.filter (fun j => j.row.isSome) = [j]) (staged : stageRow s sp j = some (u, none)) :
    stagingDone s sp = entryNext (modSpur (setTeam u tm { x with
        rows := x.rows.map fun w => { w with status := w.status.or none } }) sp fun p =>
          let p := stageWrite p r x (r.spurs.findIdx (· == sp)) []
          { p with copies := p.copies.filter (fun j => j.row.isNone)
                   blocks := tset p.blocks slot { b with idle := true } }) tm (sp / 8) := by
  have marks : (x.rows.mapIdx fun _ w => { w with status := w.status.or none }) =
      x.rows.map fun w => { w with status := w.status.or none } :=
    List.ext_getElem (by simp) (by simp)
  rw [stagingDone, block]
  simp only [teamOf, Option.getD_some, team, residency, unstaged, runs, empty, first, one, List.foldl_cons, List.foldl_nil, staged]
  rw [if_neg (by decide), ← marks]
  rfl

/-- Is it a notice from one tensor die to another about a team? -/
def isNotice (td src tm : Nat) : Msg → Bool
  | .entryDone a b c _ => a == td && b == src && c == tm
  | _ => false

/-- A notice that has come is remembered, and may let the die start its next entry. -/
theorem noticeReceive_eq {s : State} {td src tm e : Nat} {x : Team} (team : tget? s.former.teams tm = some x)
    (found : s.net.find? (isNotice td src tm) = some (.entryDone td src tm e)) :
    noticeReceive s td src tm = entryNext (setTeam (recv s (.entryDone td src tm e)) tm
      { x with notices := x.notices ++ [(td, src, e)] }) tm td := by
  rw [noticeReceive]
  split
  · next here =>
    cases here.symm.trans found
    simp only [recv_former, team]
  · next other => exact absurd found (other _ _ _ _)

/-- Settles O16: messages by the number that the die expects, staging by `stagingDone_eq`, notices by `noticeReceive_eq`. -/
theorem teamBlocksAreStagedAndRun : Obligations.TeamBlocksAreStagedAndRun := by
  intro s
  refine ⟨?receive, ?start, ?staged, ?notice⟩
  case receive =>
    intro td seq tm none found
    by_cases expected : seq = (s.tdie td).expect
    · subst expected
      have performed := dispatchReceive_of_expected none found
      refine ⟨_, congrArg Host.Outcome.next performed, rfl, fun _ => ?_, fun other => absurd rfl other⟩
      simp only [tdie_modTdie_self]
      refine ⟨rfl, ?_, fun x r team residency goodTeam => ?_⟩
      · exact (congrArg (tdel · (s.tdie td).expect.toNat) (TensorDie.received_early none _ tm)).trans (by simp [tdel])
      · refine (congrArg (fun mine => if mine then (s.tdie td).teams ++ [tm] else (s.tdie td).teams)
          (takesTeam_eq team residency goodTeam)).trans ?_
        simp only [List.contains_iff_mem]
    · have performed := dispatchReceive_of_ahead none expected found
      refine ⟨_, congrArg Host.Outcome.next performed, rfl, fun same => absurd same expected, fun _ => ?_⟩
      simp only [tdie_modTdie_self]
      exact ⟨rfl, TensorDie.received_early none seq tm, rfl⟩
  case start =>
    intro sp tm x r slot turn team residency notHeld fits free
    obtain ⟨f, performed, block, copies⟩ := teamBlockStart_spec turn team residency notHeld fits free
    refine ⟨_, unstagedBlock tm sp x r, congrArg Host.Outcome.next performed, fun q hq => spur_modSpur_ne _ f hq,
      ⟨fun _ => rfl, rfl⟩, ?_, rfl, rfl, rfl, rfl, rfl, rfl, rfl, tget?_tset_self .., ?_⟩
    · rw [blockAt_modSpur]
      exact block
    · rw [spur_modSpur_self]
      exact copies
  case staged =>
    intro sp slot tm b x r j u block teamOf unstaged runs empty team residency first one staged
    exact congrArg Host.Outcome.next (stagingDone_eq block teamOf unstaged runs empty team residency first one staged)
  case notice =>
    intro td src tm e x team found
    exact congrArg Host.Outcome.next (noticeReceive_eq team found)

end Sys2Proof.Machine
end

section
/-! PROOF. Residencies: registration, reservations, the scatter of outputs, the end of rows and release (R155 to R159, R167,
R170, R171, R175). -/

namespace Sys2Proof.Machine

/-! ## Registration and reservations (R155 to R159, R167) -/

/-- A residency that waits for its reservation on a Spur of its set, which it fits, takes it. -/
theorem reservationTake_eq {s : State} {res sp : Nat} {r : Residency} (residency : tget? s.former.residencies res = some r)
    (pending : r.pending = true) (member : sp ∈ r.spurs) (notHeld : ((s.spur sp).holds.any fun h => h.res == res) = false)
    (fits : teamFits (s.spur sp) r = true) :
    let u := modSpur s sp fun p => { p with holds := p.holds ++ [newHold p res r] }
    reservationTake s res sp = if r.spurs.all fun x => (u.spur x).holds.any fun h => h.res == res then
      finishCmd (modRes u res fun r => { r with pending := false }) r.cid 0 else u := by
  have takes : ¬ (!r.pending || !r.spurs.contains sp || (s.spur sp).holds.any (fun h => h.res == res) ||
      !teamFits (s.spur sp) r) = true := by
    simp [pending, member, notHeld, fits]
  rw [reservationTake, residency]
  exact if_neg takes

section
variable {s u v : State} {cid : Nat} {c : Cmd} {mb sb : List Byte} {ms : List (BitVec 18 × BitVec 3)} {sch : List W64}

/-- A registration whose descriptor is good and whose lists have been read: the member queues decide it. -/
theorem teamRegister_eq (runs : runnable s cid 0x03 = some c) (notYet : c.running = false) (plain : isPanyx s c.ctx = false)
    (good : residencyOk s c (residencyOf cid c) = true) (fresh : tget? s.former.residencies (bodyBits c 0 7 0) = none)
    (members : virtBytes s c.ctx (BitVec.ofNat 64 (bodyBits c 0x18 63 0)) (4 * bodyBits c 0x20 9 0) = some (u, .inl mb))
    (schedule : scheduleBytes u c.ctx (BitVec.ofNat 64 (bodyBits c 8 63 0)) 256 = some (v, .inl sb))
    (queues : memberList (bodyBits c 0x20 9 0) mb = some ms) (entries : scheduleList (sb.length / 16) sb = some sch) :
    (∀ st, membersBad v c.ctx ms = some st → teamRegister s cid = finishCmd v cid st) ∧
    (membersBad v c.ctx ms = none →
      let r := residencyOf cid c
      let r' := { r with queues := ms, schedule := sch, pending := r.reserve }
      let w := { v with former := { v.former with residencies := tset v.former.residencies (bodyBits c 0 7 0) r' } }
      teamRegister s cid = if r.reserve then setCmd w cid { c with running := true } else finishCmd w cid 0) := by
  have accepted : ¬ (isPanyx s c.ctx || !residencyOk s c (residencyOf cid c) ||
      (tget? s.former.residencies (bodyBits c 0 7 0)).isSome) = true := by
    simp [plain, good, fresh]
  rw [teamRegister, runs]
  simp only [notYet, Bool.false_eq_true, if_false, if_neg accepted, members, schedule, queues, entries]
  refine ⟨fun st bad => ?_, fun fine => ?_⟩
  · rw [bad]
  · rw [fine]
end

/-! ## The scatter of outputs and the end of a row (R170, R171) -/

/-- A team whose last entry is done adds the writes of its outputs to the copies of the Spur of OUT_RANK. -/
theorem teamScatter_eq {s : State} {tm slot : Nat} {x : Team} {r : Residency} {b : Block}
    (team : tget? s.former.teams tm = some x) (residency : tget? s.former.residencies x.res = some r)
    (notYet : x.scattering = false) (out : x.seq.isSome) (goodTeam : x.fault = none) (done : lastDone s tm x r = true)
    (block : (s.spur (r.spurs.getD r.outRank 0)).teamBlock = some (slot, b)) :
    teamScatter s tm = modSpur (setTeam s tm { x with scattering := true }) (r.spurs.getD r.outRank 0) fun p => { p with
      copies := p.copies ++ scatterJobs r x slot p.nextId, nextId := p.nextId + x.rows.length } := by
  have due : ¬ (x.scattering || x.seq.isNone) = true := by
    rw [notYet, Option.isNone_eq_false_iff.2 out]
    decide
  have runs : ¬ teamStopped x = true := by simp [teamStopped, goodTeam]
  have goes : ¬ (x.fault.isSome || !lastDone s tm x r) = true := by simp [goodTeam, done]
  have block' : ((setTeam s tm { x with scattering := true }).spur (r.spurs.getD r.outRank 0)).teamBlock = some (slot, b) := block
  rw [teamScatter, team]
  simp only [residency, if_neg due, if_neg runs, if_neg goes, block']

/-- A row that is not the last and whose output is written, or is not to be: its command ends, after the row before it. -/
theorem rowComplete_eq {s : State} {tm : Nat} {x : Team} {r : Residency} {w : TeamRow} {c : Cmd}
    (team : tget? s.former.teams tm = some x) (residency : tget? s.former.residencies x.res = some r)
    (scattering : x.scattering = true) (row : x.rows[x.posted]? = some w)
    (written : (s.spur (r.spurs.getD r.outRank 0)).copies.find? (fun j => j.row == some x.posted && j.toGlobal) = none)
    (command : s.cmd? w.cid = some c) (more : x.posted + 1 < x.rows.length) :
    ∃ f event, rowComplete s tm = setTeam (endCmd
      (setCmd (modSpur s (r.spurs.getD r.outRank 0) f) w.cid
        { c with after := if x.posted = 0 then none else (x.rows[x.posted - 1]?).map (·.cid) })
      w.cid event ((w.status.or x.fault).getD 0)) tm { x with posted := x.posted + 1 } := by
  rw [rowComplete, team]
  simp only [residency, scattering, row, written, Option.or_none]
  have command' (f : Spur → Spur) : (modSpur s (r.spurs.getD r.outRank 0) f).cmd? w.cid = some c := command
  simp only [command', if_neg more.ne]
  exact ⟨_, _, rfl⟩

/-! ## Release (R173, R175) -/

/-- A table whose keys were restricted. -/
theorem tget?_filter_key {α : Type} (t : Tbl α) (keep : Nat → Bool) (i : Nat) :
    tget? (t.filter fun e => keep e.1) i = if keep i then tget? t i else none := by
  induction t with
  | nil => simp
  | cons e t ih =>
    obtain ⟨k, v⟩ := e
    by_cases same : k = i
    · subst same
      cases kept : keep k <;> simp [kept, tget?, ih]
    · cases kept : keep k <;> simp [kept, tget?, ih, same]

/-- Removing a key that is absent. -/
theorem tdel_of_absent {α : Type} {t : Tbl α} {i : Nat} (absent : tget? t i = none) : tdel t i = t := by
  induction t with
  | nil => rfl
  | cons e t ih =>
    obtain ⟨k, v⟩ := e
    have other : k ≠ i := fun same => by simp [tget?, same] at absent
    have rest : tget? t i = none := by rwa [tget?, if_neg other] at absent
    exact (List.filter_cons_of_pos (by simpa using other)).trans (congrArg _ (ih rest))

/-- Removing keys one after another. -/
theorem foldl_tdel {α : Type} (keys : List Nat) (t : Tbl α) :
    keys.foldl tdel t = t.filter fun e => !keys.contains e.1 := by
  induction keys generalizing t with
  | nil => simp
  | cons k keys ih =>
    rw [List.foldl_cons, ih, tdel, List.filter_filter]
    simp [Bool.and_comm, bne, beq_eq_decide]

theorem noteRelease_former (s : State) (td : Nat) : (noteRelease s td).former = s.former := by
  unfold noteRelease
  split <;> rfl

/-- Ending candidates takes them out of the former. -/
theorem endCands_former (s : State) (status : Byte) (event : BitVec 3) (f : Candidate → Bool) :
    (endCands s status event f).former = { s.former with cands := s.former.cands.filter fun c => !f c } :=
  foldl_read_of_keeps (read := State.former) (fun c _ u => endCmd_former u c.cid event status) _

/-- The former without a team. -/
def TeamFormer.dropTeam (f : TeamFormer) (tm : Nat) : TeamFormer := { f with teams := tdel f.teams tm }

theorem TeamFormer.foldl_dropTeam (tms : List Nat) (f : TeamFormer) :
    tms.foldl TeamFormer.dropTeam f = { f with teams := f.teams.filter fun e => !tms.contains e.1 } := by
  rw [← foldl_tdel]
  induction tms generalizing f with
  | nil => rfl
  | cons tm tms ih => exact ih (f.dropTeam tm)

/-- Ending the closed teams of a residency takes them out of the former. -/
theorem endClosed_former {s : State} {res : Nat} {r : Residency} (status : Byte) (event : BitVec 3)
    (residency : tget? s.former.residencies res = some r) :
    (endClosed s res status event).former = { s.former with
      teams := s.former.teams.filter fun e => !r.closed.contains e.1
      residencies := tset s.former.residencies res { r with closed := [] } } := by
  rw [endClosed, residency]
  simp only
  generalize folded : List.foldl _ s r.closed = u
  have former : u.former = { s.former with teams := s.former.teams.filter fun e => !r.closed.contains e.1 } := by
    rw [← folded, ← TeamFormer.foldl_dropTeam]
    refine (List.foldl_hom State.former fun v tm => ?_).symm
    split
    · next t team =>
      exact (congrArg (TeamFormer.dropTeam · tm)
        (foldl_read_of_keeps (read := State.former) (fun w _ v => endCmd_former v w.cid event status) v)).symm
    · next absent => exact congrArg (fun teams => { v.former with teams := teams }) (tdel_of_absent absent)
  rw [modRes_eq (r := r) _ (by rw [former]; exact residency), former]

/-- A release whose last team has finished removes the residency. -/
theorem releaseCheck_former {s : State} {res cid : Nat} {r : Residency} (residency : tget? s.former.residencies res = some r)
    (releasing : r.releasing = some cid) : (releaseCheck s res).former =
      if inFlight s res = 0 then { s.former with residencies := tdel s.former.residencies res } else s.former := by
  rw [releaseCheck, residency]
  simp only [releasing, Option.isSome_some, Bool.true_or, Bool.true_and, beq_iff_eq]
  split
  · rw [finishCmd_former]
    refine foldl_read_of_keeps (read := State.former) (fun sp _ u => ?_) _
    rw [noteRelease_former, modSpur_former]
  · rfl

theorem releaseCheck_keeps {s : State} {res cid : Nat} {r : Residency} (residency : tget? s.former.residencies res = some r)
    (releasing : r.releasing = some cid) :
    (releaseCheck s res).former.cands = s.former.cands ∧ (releaseCheck s res).former.teams = s.former.teams := by
  rw [releaseCheck_former residency releasing]
  split
  · exact ⟨rfl, rfl⟩
  · exact ⟨rfl, rfl⟩

/-- The state once a residency takes no more steps: its candidates and closed teams are ended, its queues unbound, and the
release waits for the teams that are out. -/
def withdrawn (s : State) (cid : Nat) (c : Cmd) (res : Nat) : State :=
  modRes (endClosed (endCands (setCmd s cid { c with running := true }) 0x0F 3 fun x => x.res == res) res 0x0F 3) res
    fun r => { r with queues := [], releasing := some cid }

theorem withdrawn_former {s : State} {res : Nat} {r : Residency} (cid : Nat) (c : Cmd)
    (residency : tget? s.former.residencies res = some r) :
    let f := (withdrawn s cid c res).former
    f.cands = s.former.cands.filter (fun x => !(x.res == res)) ∧
      f.teams = s.former.teams.filter (fun e => !r.closed.contains e.1) ∧
      tget? f.residencies res = some { r with closed := [], queues := [], releasing := some cid } := by
  intro f
  have cands := endCands_former (setCmd s cid { c with running := true }) 0x0F 3 fun x => x.res == res
  have closed := endClosed_former 0x0F 3 (r := r)
    (s := endCands (setCmd s cid { c with running := true }) 0x0F 3 fun x => x.res == res) (by rw [cands]; exact residency)
  have former : f = _ := congrArg State.former (modRes_eq _ (by rw [closed]; exact tget?_tset_self ..))
  rw [former, closed, cands]
  exact ⟨rfl, rfl, tget?_tset_self ..⟩

/-- The teams of a residency that are out are not more once its closed teams are gone. -/
theorem inFlight_withdrawn {s : State} {res cid : Nat} {c : Cmd} {r : Residency}
    (residency : tget? s.former.residencies res = some r) (none : inFlight s res = 0) :
    inFlight (withdrawn s cid c res) res = 0 := by
  obtain ⟨-, teams, -⟩ := withdrawn_former cid c residency
  have fewer : inFlight (withdrawn s cid c res) res ≤ inFlight s res := by
    rw [inFlight, inFlight, teams]
    exact (List.filter_sublist.filter _).length_le
  omega

/-- A release that the residency can take: it is withdrawn, and goes with its last team. -/
theorem teamRelease_eq {s : State} {cid : Nat} {c : Cmd} {r : Residency} (runs : runnable s cid 0x04 = some c)
    (notYet : c.running = false) (high : bodyBits c 0 63 8 = 0) (rest : ∀ x ∈ c.body.drop 8, x = 0)
    (residency : tget? s.former.residencies (bodyBits c 0 7 0) = some r) (ctx : r.ctx = c.ctx) (placed : r.pending = false)
    (kept : r.releasing = none) :
    teamRelease s cid = releaseCheck (withdrawn s cid c (bodyBits c 0 7 0)) (bodyBits c 0 7 0) := by
  have wellFormed : ¬ (bodyBits c 0 63 8 != 0 || (c.body.drop 8).any (· != 0)) = true := by
    simpa [high] using rest
  have accepted : ¬ (r.ctx != c.ctx || r.pending || r.releasing.isSome) = true := by
    simp [ctx, placed, kept]
  rw [teamRelease, runs]
  simp only [notYet, Bool.false_eq_true, if_false, if_neg wellFormed, residency, if_neg accepted]
  rfl

/-- Settles O17: each command by its equation; a row's end by `cmd?_endCmd_self`, a release by what `withdrawn` leaves. -/
theorem teamsRegisterScatterAndRelease : Obligations.TeamsRegisterScatterAndRelease := by
  intro s
  refine ⟨?register, ?take, ?scatter, ?row, ?release⟩
  case register =>
    intro cid c u v mb sb ms sch r res runs notYet plain good fresh members schedule queues entries
    obtain ⟨refused, registered⟩ := teamRegister_eq runs notYet plain good fresh members schedule queues entries
    exact ⟨fun fine => congrArg Host.Outcome.next (registered fine), fun st bad => congrArg Host.Outcome.next (refused st bad)⟩
  case take =>
    intro res sp r residency pending member notHeld fits
    exact congrArg Host.Outcome.next (reservationTake_eq residency pending member notHeld fits)
  case scatter =>
    intro tm slot x r b team residency notYet out goodTeam done block
    refine ⟨_, congrArg Host.Outcome.next (teamScatter_eq team residency notYet out goodTeam done block), ⟨fun _ => rfl, rfl⟩,
      tget?_tset_self .., ?_⟩
    rw [spur_modSpur_self]
    rfl
  case row =>
    intro tm x r w c team residency scattering row written command started more
    obtain ⟨f, event, performed⟩ := rowComplete_eq team residency scattering row written command more
    obtain ⟨c', ended, same⟩ := cmd?_endCmd_self event ((w.status.or x.fault).getD 0)
      (cmd?_setCmd_self (modSpur s (r.spurs.getD r.outRank 0) f) w.cid
        { c with after := if x.posted = 0 then none else (x.rows[x.posted - 1]?).map (·.cid) }) started
    have status := congrArg Cmd.st same
    have after := congrArg Cmd.after same
    exact ⟨_, c', congrArg Host.Outcome.next performed, ended, status, after, tget?_tset_self ..⟩
  case release =>
    intro cid c r runs notYet res high rest residency ctx placed kept
    obtain ⟨cands, teams, waits⟩ := withdrawn_former cid c residency
    obtain ⟨sameCands, sameTeams⟩ := releaseCheck_keeps waits rfl
    refine ⟨_, congrArg Host.Outcome.next (teamRelease_eq runs notYet high rest residency ctx placed kept), fun x hx => ?_,
      fun none => ?_, fun tm closed => ?_⟩
    · rw [sameCands, cands] at hx
      simpa using List.of_mem_filter hx
    · rw [releaseCheck_former waits rfl, if_pos (inFlight_withdrawn residency none)]
      exact tget?_tdel_self ..
    · rw [sameTeams, teams, tget?_filter_key _ (fun k => !r.closed.contains k)]
      simp [closed]

end Sys2Proof.Machine
end

section
/-! PROOF. Couloir commands: their assembly and submission, the way to the memory die, the steps of a scan and the delivery
of its result (R177 to R185, R189, R191, R196). -/

namespace Sys2Proof.Machine

/-! ## A number that finishes on a counter -/

theorem finishCount_onlySpur (s : State) (sp i : Nat) (n : W32) : OnlySpur s (finishCount s sp i n) sp := onlySpur_modSpur ..

@[simp] theorem lmem_finishCount (s : State) (sp i : Nat) (n : W32) :
    ((finishCount s sp i n).spur sp).lmem = (s.spur sp).lmem := by
  rw [finishCount, spur_modSpur_self]

@[simp] theorem issue_finishCount (s : State) (sp i : Nat) (n : W32) :
    (tget ((finishCount s sp i n).spur sp).counters i {}).issue = (tget (s.spur sp).counters i {}).issue := by
  rw [finishCount, spur_modSpur_self, tget_tset_self, Counter.finish_issue]

/-- A command that is not sent takes a number, and its result goes to the block's local memory (R179, R196). -/
theorem clRefuse_frame (s : State) (sp : Nat) (b : Block) (ctr : Nat) (c : Line) (status : Byte) (place : Bool) :
    let t := clRefuse s sp b ctr c status place
    OnlySpur s t sp ∧ (tget (t.spur sp).counters ctr {}).issue = (tget (s.spur sp).counters ctr {}).issue + 1 ∧
      (t.spur sp).lmem = memWrite (s.spur sp).lmem (b.base + clBits c 0x28 47 24)
        (clResult status 0 (BitVec.ofNat 32 (clBits c 0x30 63 32)) (clHeads c) (clDim c) []) := by
  refine ⟨(onlySpur_modSpur ..).trans (finishCount_onlySpur ..), ?_, ?_⟩
  · simp only [clRefuse, issue_finishCount, spur_modSpur_self, tget_tmod_self]
  · simp only [clRefuse, lmem_finishCount, spur_modSpur_self]

/-! ## Assembly and submission (R177, R179) -/

section
variable {s : State} {sp sl : Nat} {g : Group} {b : Block} {data : BitVec 128}

/-- Is it the port store of a 16-byte part of a slot's command? -/
def isPortStore (sp sl n : Nat) (data : BitVec 128) : Msg → Bool
  | .clPort a k i d _ => a == sp && k == sl && i == n && d == data
  | _ => false

/-- Where no store of the part is on its way, none arrives. -/
theorem clArrive_of_none {n : Nat} (noStore : s.net.find? (isPortStore sp sl n data) = none) :
    clArrive s sp sl n data = s := by
  rw [clArrive]
  split
  · next found => cases found.symm.trans noStore
  · rfl

theorem clAssemble_eq {n : Nat} (noStore : s.net.find? (isPortStore sp sl n data) = none) (group : groupAt s sp sl = some g) :
    clAssemble s sp sl n data = clPut s sp sl n data := by
  simp only [clAssemble, clArrive_of_none noStore, group, Option.isSome_some, if_true]

/-- A Spur without the assembly buffer of slot `sl`. -/
def Spur.dropClBuf (p : Spur) (sl : Nat) : Spur := { p with clBufs := tdel p.clBufs sl }

/-- A Spur whose group in slot `sl` is held until its command `c` is sent. -/
def Spur.holdCommand (p : Spur) (sl : Nat) (g : Group) (c : Line) : Spur :=
  { p with
    groups := tset p.groups sl { g with wait := some .clSubmit }
    clBufs := tset p.clBufs sl { held := some c } }

/-- The fourth store of a running group, whose command names a counter of its block and ranges inside the allocation: a
valid command holds the group, another is refused. -/
theorem clSubmit_eq {ctr : Nat} {c : Line} (noStore : s.net.find? (isPortStore sp sl 3 data) = none)
    (group : groupAt s sp sl = some g) (block : blockAt s sp g.blk = some b) (notDone : g.done = false)
    (notStopped : g.stop = false) (notWaiting : g.wait = none)
    (command : clCommand (tget (s.spur sp).clBufs sl {}) data = c) (counter : ctrIndex b g.blk (clBits c 0 32 27) = some ctr)
    (query : clBits c 0x28 23 0 + clHeads c * 2 * clDim c ≤ b.localSize)
    (result : clBits c 0x28 47 24 + clResultSize (clHeads c) (clDim c) ≤ b.localSize) :
    let u := modSpur s sp (·.dropClBuf sl)
    clSubmit s sp sl data =
      if clValid c then modSpur u sp (·.holdCommand sl g c) else clRefuse u sp b ctr c 0x0F false := by
  have running : ¬ (g.done || g.stop || g.wait.isSome) = true := by simp [notDone, notStopped, notWaiting]
  simp only [clSubmit, clArrive_of_none noStore, group, block, if_neg running, command, counter,
    if_neg (Nat.not_lt.2 query), if_neg (Nat.not_lt.2 result)]
  cases clValid c <;> rfl

/-! ## The way to the memory die (R180, R181) -/

/-- The engines' state after command `x` has left for its memory die with a credit of pair `key`, of that die and the tensor
die that it leaves. -/
def Couloir.sent (cl : Couloir) (key : Nat) (x : ClCmd) : Couloir :=
  { cl with
    cmds := tset cl.cmds cl.next x
    next := cl.next + 1
    credits := tset cl.credits key (tget cl.credits key 0 + 1) }

/-- A Spur after number `n` of counter `ctr` has gone to a command that has left it: the group in slot `sl` goes on. -/
def Spur.sentCommand (p : Spur) (sl ctr : Nat) (n : W32) : Spur :=
  clGoOn { p with counters := tmod p.counters ctr {} fun y => { y with issue := n } } sl

theorem Spur.sentCommand_group (p : Spur) {sl : Nat} {g : Group} (ctr : Nat) (n : W32) (group : tget? p.groups sl = some g) :
    tget? (p.sentCommand sl ctr n).groups sl = some { g with wait := none } := by
  simp only [Spur.sentCommand, clGoOn, group, tget?_tset_self]

theorem Spur.sentCommand_issue (p : Spur) (sl ctr : Nat) (n : W32) :
    (tget (p.sentCommand sl ctr n).counters ctr {}).issue = n := by
  simp only [Spur.sentCommand, clGoOn, tget_tmod_self]

/-- A held command with a copy place and a credit free takes a number and leaves for its die, which serves. -/
theorem clSend_eq {ctr : Nat} {buf : ClBuf} {c : Line} (group : groupAt s sp sl = some g) (block : blockAt s sp g.blk = some b)
    (buffer : tget? (s.spur sp).clBufs sl = some buf) (held : buf.held = some c)
    (counter : ctrIndex b g.blk (clBits c 0 32 27) = some ctr) (place : copyPlaces s sp < 256)
    (up : clDieUp s (clBits c 0 12 8 - 5) = true) (credit : tget s.cl.credits ((clBits c 0 12 8 - 5) * 16 + sp / 8) 0 < 32) :
    let n := (tget (s.spur sp).counters ctr {}).issue + 1
    let x := clMake s sp b g.blk ctr n c
    clSend s sp sl = modSpur { s with cl := s.cl.sent ((clBits c 0 12 8 - 5) * 16 + sp / 8) x } sp (·.sentCommand sl ctr n) := by
  simp only [clSend, group, buffer, held, block, counter, if_neg (Nat.not_le.2 place), up, Bool.not_true, Bool.false_eq_true,
    if_false, if_neg (Nat.not_le.2 credit)]
  rfl
end

theorem clReceive_eq {s : State} {md id : Nat} {c : ClCmd} (command : tget? s.cl.cmds id = some c) (die : c.md = md)
    (phase : c.phase = .sent) :
    clReceive s md id = { s with cl := { s.cl with
      cmds := tset s.cl.cmds id { c with phase := .queued }
      queues := tmod s.cl.queues md [] fun q => q ++ [id] } } := by
  rw [clReceive, command]
  exact if_pos ⟨die, phase⟩

/-! ## A step of a scan (R189, R191) -/

section
variable {s u : State} {md e id : Nat} {c : ClCmd} {rows : List (List Byte)}

/-- The number of positions of a command's next step. -/
def ClCmd.due (c : ClCmd) : Nat := min 32 (c.total - 32 * c.step)

/-- What reading the positions of a command's next step gives. -/
def ClCmd.gather (c : ClCmd) (s : State) : Option (State × List (List Byte) × Option Byte) :=
  clGather c ((List.range c.due).map (32 * c.step + ·)) s []

/-- A command after a step that read `rows`: each head has taken their scores and values. -/
def ClCmd.scanned (c : ClCmd) (rows : List (List Byte)) : ClCmd :=
  let rs := rows.map clSplit
  { c with
    keys := c.keys + rows.length
    step := c.step + 1
    state := (List.range c.heads).map fun h => headStep (c.state.getD h ⟨f32NegInf, 0, []⟩)
      (List.zip (rs.map fun r => clScore c (clQuery c h) r.1) (rs.map fun r => clValues c r.2)) }

/-- An engine in service with a command makes one step of it. -/
theorem clScan_eq_clStep (up : clEngineUp s md e = true) (running : clRunning s md e = some (id, c)) :
    clScan s md e = clStep s md e := by
  simp only [clScan, up, running, Option.isSome_some, Bool.not_true, Bool.false_eq_true, if_false, if_true]

theorem clStep_of_none_due (running : clRunning s md e = some (id, c)) (none : c.due = 0) :
    clStep s md e = clFinish s id c 0 := by
  rw [clStep, running]
  exact if_pos none

theorem clStep_of_refused {st : Byte} (running : clRunning s md e = some (id, c)) (due : c.due ≠ 0)
    (refused : c.gather s = some (u, rows, some st)) :
    clStep s md e = clFinish u id { c with keys := c.keys + rows.length } st := by
  rw [clStep, running]
  refine (if_neg due).trans ?_
  rw [ClCmd.gather, ClCmd.due] at refused
  rw [refused]

/-- A step that reads its positions and leaves none ends its command. -/
theorem clStep_of_last (running : clRunning s md e = some (id, c)) (due : c.due ≠ 0)
    (gathered : c.gather s = some (u, rows, none)) (last : c.total ≤ 32 * c.step + 32) :
    clStep s md e = clFinish u id (c.scanned rows) 0 := by
  rw [clStep, running]
  refine (if_neg due).trans ?_
  rw [ClCmd.gather, ClCmd.due] at gathered
  rw [gathered]
  exact if_pos last
end

/-! ## The result (R181, R183 to R185) -/

/-- The engines' state after a result has been delivered: its command is gone and its credit is back. -/
def Couloir.delivered (cl : Couloir) (key id : Nat) : Couloir :=
  { cl with cmds := tdel cl.cmds id, credits := tset cl.credits key (tget cl.credits key 0 - 1) }

/-- The state after the result of command `c` has been written to its Spur's local memory. -/
def resultDelivered (s : State) (id : Nat) (c : ClCmd) : State :=
  modSpur { s with cl := s.cl.delivered (c.md * 16 + c.sp / 8) id } c.sp fun p => { p with
    lmem := memWrite p.lmem c.raddr (clResult c.status c.keys c.tag c.heads c.dim c.state) }

theorem clDeliver_eq {s : State} {md id : Nat} {c : ClCmd} (command : tget? s.cl.cmds id = some c) (die : c.md = md)
    (phase : c.phase = .result) :
    clDeliver s md id = blockEnd (finishCount (resultDelivered s id c) c.sp c.ctr c.num) c.sp c.blk := by
  subst die
  rw [clDeliver, command]
  exact if_neg (by simp [phase])

/-- Settles O18: each command by its equation; what it leaves is then read off the state that the equation names. -/
theorem couloirCommandsAreSentScannedAndAnswered : Obligations.CouloirCommandsAreSentScannedAndAnswered := by
  refine ⟨?submission, ?engine⟩
  case submission =>
    intro s sp sl g b data group block noStore buf
    refine ⟨?assemble, ?submit, ?send, ?receive⟩
    case assemble =>
      intro n quiet
      refine ⟨_, congrArg Host.Outcome.next (clAssemble_eq quiet group), onlySpur_modSpur .., ?_, fun i => ?_⟩
      · rw [clPut, groupAt_modSpur]
        exact group
      · simp only [clPut, spur_modSpur_self, tget_tmod_self, tget?_tset]
        rfl
    case submit =>
      intro ctr quiet notDone notStopped notWaiting c counter query result
      have submitted := clSubmit_eq (c := c) quiet group block notDone notStopped notWaiting rfl counter query result
      refine ⟨fun valid => ?_, fun invalid => ?_⟩
      · refine ⟨_, congrArg Host.Outcome.next (submitted.trans (if_pos valid)),
          (onlySpur_modSpur ..).trans (onlySpur_modSpur ..), ?_⟩
        simp only [groupAt_modSpur, spur_modSpur_self, Spur.holdCommand, Spur.dropClBuf, tget?_tset_self, tget_tset_self,
          and_self]
      · obtain ⟨frame, number, written⟩ := clRefuse_frame (modSpur s sp (·.dropClBuf sl)) sp b ctr c 0x0F false
        rw [spur_modSpur_self] at number written
        exact ⟨_, congrArg Host.Outcome.next (submitted.trans (if_neg (by simp [invalid]))),
          (onlySpur_modSpur ..).trans frame, number, written⟩
    case send =>
      intro c ctr held buffer counter md key place up credit
      refine ⟨_, congrArg Host.Outcome.next (clSend_eq group block buffer held counter place up credit), ?_,
        tget?_tset_self .., tget_tset_self .., ?_, fun _ => rfl, rfl⟩
      · rw [groupAt_modSpur]
        exact Spur.sentCommand_group _ _ _ group
      · rw [spur_modSpur_self]
        exact Spur.sentCommand_issue ..
    case receive =>
      intro md id c command die phase
      exact ⟨_, congrArg Host.Outcome.next (clReceive_eq command die phase), tget?_tset_self ..,
        tget_tmod_self s.cl.queues md [] (· ++ [id]), rfl, ⟨fun _ => rfl, rfl⟩, rfl, rfl⟩
  case engine =>
    intro s md e id c up
    refine ⟨fun running => ?scan, fun command die phase => ?deliver⟩
    case scan =>
      have step := clScan_eq_clStep up running
      refine ⟨fun none => ?_, fun u rows due gathered last => ?_, fun u rows st due refused => ?_⟩
      · exact congrArg Host.Outcome.next (step.trans (clStep_of_none_due running none))
      · exact congrArg Host.Outcome.next (step.trans (clStep_of_last running due gathered last))
      · exact congrArg Host.Outcome.next (step.trans (clStep_of_refused running due refused))
    case deliver =>
      refine ⟨_, congrArg Host.Outcome.next (clDeliver_eq command die phase), ?_, tget?_tdel_self .., ?_,
        fun q other => spur_modSpur_ne _ _ other, ⟨fun _ => rfl, rfl⟩, rfl, rfl⟩
      · rw [resultDelivered, spur_modSpur_self]
        rfl
      · rw [← die]
        exact tget_tset_self ..

end Sys2Proof.Machine
end

section
/-! PROOF. Resets and the requests of the security processor (R230, R466, R470 to R475). -/

namespace Sys2Proof.Machine

theorem SameMemory.trans {s t u : State} (h : SameMemory s t) (h' : SameMemory t u) : SameMemory s u :=
  ⟨fun a => (h'.1 a).trans (h.1 a), h'.2.trans h.2⟩

/-! ## Registers that a reset or a request sets -/

theorem setFld_onlyRegs (s : State) (die : Nat) (f : FRef) (x : Nat) : OnlyRegs s (setFld s die f x) := rfl

/-- A field that was set reads as what was written, cut to its width. -/
theorem fld_setFld_self (s : State) (die : Nat) (f : FRef) (x : Nat) (h : f.lo ≤ f.hi ∧ f.hi < 64) :
    fld (setFld s die f x) die f = x % 2 ^ (f.hi - f.lo + 1) := fldAt_setFldAt_self _ _ _ _ _ h.1 h.2

/-- A set register leaves what is in service, where it is not the map of dies. -/
theorem dieUp_setFld (s : State) (d x : Nat) {f : FRef} (h : R.HUB_DIE_MAP_IN_SERVICE.off ≠ f.off) :
    dieUp (setFld s 0 f x) d = dieUp s d := congrArg (bitAt · d) (fld_setFld_of_off_ne s 0 x h)

/-- An error that is counted leaves the fields of other registers. -/
theorem fld_bumpErr_of_off_ne (s : State) (die : Nat) {c g : FRef} (h : g.off ≠ c.off) :
    fld (bumpErr s die c) die g = fld s die g := by
  unfold bumpErr bumpErrAt
  simp only
  split
  · exact fld_setFld_of_off_ne s die _ h
  · rfl

/-- With no queue for reliability events, an event is counted as dropped. -/
theorem relEvent_of_no_queue {s : State} (none : fld s 0 R.HUB_REL_QUEUE_VALID = 0) (typ : Byte) (ctx : BitVec 16)
    (body : List Byte) : relEvent s typ ctx body = bumpErr s 0 R.HUB_REL_QUEUE_DROPPED := by
  rw [relEvent, none]
  exact if_neg fun h => absurd h.1 (by decide)

/-! ## Cold and warm resets (R230, R473, R474) -/

theorem keepCurrent_onlyRegs (old s : State) : OnlyRegs s (keepCurrent old s) := by
  unfold keepCurrent
  exact OnlyRegs.trans (t := setFld (setFld (setFld (setFld s _ _ _) _ _ _) _ _ _) _ _ _) rfl
    (OnlyRegs.foldl _ (fun s d => setFld_onlyRegs s d R.PWR_STATUS_TJ _) _ _)

/-- What a cold reset keeps of memory, fuses and flash, and what goes to its reset value. -/
theorem coldReset_spec (s : State) :
    let t := coldReset s
    t.boot.state = 0 ∧ t.time = 0 ∧ t.mem = s.mem ∧ t.poison = s.poison ∧ t.spurs = [] ∧ t.harts = [] ∧ t.kernels = [] ∧
      t.boot.fuses = s.boot.fuses ∧ t.boot.flash = flashCut s ∧ t.pending = s.pending := by
  rw [coldReset, keepCurrent_onlyRegs]
  exact ⟨rfl, rfl, rfl, rfl, rfl, rfl, rfl, rfl, rfl, rfl⟩

theorem warmRun_state (s : State) : (warmRun s).boot.state = 2 := (setBootState_eq _ _).1

/-- With no retained image, a warm reset is a cold one. -/
theorem warmReset_of_no_image {s : State} (none : s.boot.image = []) : warmReset s = coldReset s := by
  have failed : recheck s = (s, false) := if_pos none
  simp only [warmReset, failed, Bool.false_eq_true, if_false]

/-- With a retained image that passes its check, a warm reset runs. -/
theorem warmReset_of_good_image {s u : State} (good : recheck s = (u, true)) : warmReset s = warmRun u := by
  simp only [warmReset, good, if_true]

section
variable {s : State} (powered : s.boot.powered = true)
include powered

/-- A cold or warm reset that context 0 commands is performed. -/
theorem resetWhole_of_manager (up : dieUp s 0 = true) (act : State → State) : resetWhole s 0 act = act s := by
  simp [resetWhole, up, powered]

/-- One that another context commands is refused. -/
theorem resetWhole_of_other {c : BitVec 16} (other : c ≠ 0) (up : dieUp s 0 = true) (act : State → State) :
    resetWhole s c act = resetRefused s := by
  rw [resetWhole, up, powered]
  exact if_pos other

/-! ## Die resets (R475) -/

/-- A command that finds BUSY 1 is dropped. -/
theorem resetPart_of_busy (busy : fld s 0 R.HUB_RESET_STATUS_BUSY = 1) (refused : Bool) (act : State → State) :
    resetPart s refused act = setFld s 0 R.HUB_RESET_STATUS_DROPPED 1 := by
  simp only [resetPart, powered, busy, Bool.not_true, Bool.false_eq_true, if_false, if_true]

/-- A refused command gives RESULT 0x0F. -/
theorem resetPart_of_refused (free : fld s 0 R.HUB_RESET_STATUS_BUSY = 0) (act : State → State) :
    resetPart s true act = resetRefused s := by
  simp [resetPart, powered, free]

/-- Any other command begins, and BUSY is 1. -/
theorem resetPart_of_begun (free : fld s 0 R.HUB_RESET_STATUS_BUSY = 0) (act : State → State) :
    resetPart s false act = setFld (act (setFld s 0 R.HUB_RESET_STATUS_RESULT 0)) 0 R.HUB_RESET_STATUS_BUSY 1 := by
  simp [resetPart, powered, free]
end

/-- The reset of a die out of service waits for its self-test alone. -/
theorem dieResetBegin_of_down {s : State} {d : Nat} (down : dieUp s d = false) :
    dieResetBegin s d = modBoot s fun b => { b with
      resets := tmod b.resets d { written := true, out := true } fun e => { e with cmd := true } } := by
  rw [dieResetBegin, down]
  rfl

/-- The reset of a die in service is a command's, and the die comes back. -/
theorem dieResetBegin_of_up {s : State} {d : Nat} (up : dieUp s d = true) :
    ∃ e, tget? (dieResetBegin s d).boot.resets d = some e ∧ e.cmd = true ∧ e.out = false := by
  simp only [dieResetBegin, up, Bool.not_true, Bool.false_eq_true, if_false, modBoot_boot, tget?_tset_self]
  exact ⟨_, rfl, rfl, rfl⟩

/-- A die reset that is accepted holds BUSY and stands in the table of resets. -/
theorem resetDie_accepted {s : State} {c : BitVec 16} {d : Nat} (powered : s.boot.powered = true)
    (free : fld s 0 R.HUB_RESET_STATUS_BUSY = 0) (allowed : dieResetBad s c d = false) :
    let t := resetDie s c d
    fld t 0 R.HUB_RESET_STATUS_BUSY = 1 ∧
      (dieUp s d = false → SameMemory s t ∧ ∃ e, tget? t.boot.resets d = some e ∧ e.cmd = true) ∧
      (dieUp s d = true → ∃ e, tget? t.boot.resets d = some e ∧ e.cmd = true ∧ e.out = false) := by
  have noted : dieUp (setFld s 0 R.HUB_RESET_STATUS_RESULT 0) d = dieUp s d := dieUp_setFld s d 0 (by decide)
  rw [resetDie, allowed, resetPart_of_begun powered free]
  refine ⟨fld_setFld_self _ _ _ _ (by decide), fun down => ?_, fun up => ?_⟩
  · rw [dieResetBegin_of_down (noted.trans down)]
    exact ⟨⟨fun _ => rfl, rfl⟩, _, tget?_tset_self .., rfl⟩
  · exact dieResetBegin_of_up (noted.trans up)

/-- Capacity that goes or comes back is registers alone. -/
theorem dieCapacity_onlyRegs (s : State) (d : Nat) (back : Bool) : OnlyRegs s (dieCapacity s d back) := by
  unfold dieCapacity
  simp only
  split
  · rfl
  · split <;> rfl

/-- Capacity is counted in one register: the fields of every other one are kept. -/
theorem fld_dieCapacity (s : State) (d : Nat) (back : Bool) {g : FRef} (h : g.off ≠ R.HUB_CAPACITY0_SPURS.off) :
    fld (dieCapacity s d back) 0 g = fld s 0 g := by
  have spurs (t : State) (x : Nat) : fld (setFld t 0 R.HUB_CAPACITY0_SPURS x) 0 g = fld t 0 g := fld_setFld_of_off_ne t 0 x h
  have arrays (t : State) (x : Nat) : fld (setFld t 0 R.HUB_CAPACITY0_ARRAYS x) 0 g = fld t 0 g := fld_setFld_of_off_ne t 0 x h
  have cores (t : State) (x : Nat) : fld (setFld t 0 R.HUB_CAPACITY0_CORES x) 0 g = fld t 0 g := fld_setFld_of_off_ne t 0 x h
  simp only [dieCapacity]
  split
  · rw [arrays, spurs]
  · split
    · rw [cores]
    · rfl

/-- The state after a die has failed its self-test: its capacity is lost, and it stays out of service. -/
def dieStays (s : State) (d : Nat) : State :=
  modBoot (dieCapacity s d false) fun b => { b with resets := tset b.resets d { written := true, out := true } }

theorem fld_dieStays (s : State) (d : Nat) {g : FRef} (h : g.off ≠ R.HUB_CAPACITY0_SPURS.off) :
    fld (dieStays s d) 0 g = fld s 0 g := fld_dieCapacity s d false h

/-- The end of a die reset with no queue for events: it is counted as dropped, and BUSY falls when a command started it. -/
theorem dieResetOver_spec {s : State} {e : DieReset} {kind d : Nat} (none : fld s 0 R.HUB_REL_QUEUE_VALID = 0) :
    let t := dieResetOver s e kind d
    OnlyRegs s t ∧ (∀ k, dieUp t k = dieUp s k) ∧ (e.cmd = true → fld t 0 R.HUB_RESET_STATUS_BUSY = 0) := by
  have counted : OnlyRegs s (bumpErr s 0 R.HUB_REL_QUEUE_DROPPED) := bumpErr_onlyRegs ..
  have service (k : Nat) : dieUp (bumpErr s 0 R.HUB_REL_QUEUE_DROPPED) k = dieUp s k :=
    congrArg (bitAt · k) (fld_bumpErr_of_off_ne s 0 (by decide))
  simp only [dieResetOver, dieEvent, relEvent_of_no_queue none]
  split
  · exact ⟨counted.trans (setFld_onlyRegs ..), fun k => (dieUp_setFld _ k 0 (by decide)).trans (service k),
      fun _ => fld_setFld_self _ _ _ _ (by decide)⟩
  · next other => exact ⟨counted, service, fun cmd => absurd cmd other⟩

section
variable {s : State} {d : Nat} {e : DieReset} (waiting : tget? s.boot.resets d = some e)
include waiting

theorem writebackTimeout_of_written (written : e.written = true) : writebackTimeout s d = s := by
  simp only [writebackTimeout, waiting, written, if_true]

/-- The time for writing back runs out: the caches of the die count as written. -/
theorem writebackTimeout_of_not_written (left : e.written = false) :
    tget? (writebackTimeout s d).boot.resets d = some { e with written := true } := by
  simp only [writebackTimeout, waiting, left, Bool.false_eq_true, if_false, modBoot_boot, tget?_tset_self]

/-- A die that a trip holds takes no self-test. -/
theorem dieResetDone_of_trip (trip : e.trip = true) (pass : Bool) : dieResetDone s d pass = s := by
  simp only [dieResetDone, waiting, trip, Bool.true_or, if_true]

/-- A die that fails its self-test leaves service. -/
theorem dieResetDone_of_fail (free : e.trip = false) (back : e.out = false) (written : e.written = true) :
    dieResetDone s d false = dieResetOver (dieStays s d) e 2 d := by
  simp only [dieResetDone, waiting, free, back, written]
  rfl

/-- With no queue for events, such a die stays out of service: memory is as before, and a command's BUSY falls. -/
theorem dieResetDone_of_fail_spec (free : e.trip = false) (back : e.out = false) (written : e.written = true)
    (none : fld s 0 R.HUB_REL_QUEUE_VALID = 0) :
    let t := dieResetDone s d false
    SameMemory s t ∧ dieUp t d = dieUp s d ∧ tget? t.boot.resets d = some { written := true, out := true } ∧
      (e.cmd = true → fld t 0 R.HUB_RESET_STATUS_BUSY = 0) := by
  obtain ⟨only, service, busy⟩ := dieResetOver_spec (s := dieStays s d) (e := e) (kind := 2) (d := d)
    ((fld_dieStays s d (by decide)).trans none)
  have left : SameMemory s (dieStays s d) := (dieCapacity_onlyRegs s d false).sameMemory
  have boot : (dieResetOver (dieStays s d) e 2 d).boot = (dieStays s d).boot := by rw [only]
  rw [dieResetDone_of_fail waiting free back written]
  refine ⟨left.trans only.sameMemory, (service d).trans (congrArg (bitAt · d) (fld_dieStays s d (by decide))), ?_, busy⟩
  rw [boot]
  exact tget?_tset_self ..

/-- A die that passes its self-test comes back when the retained image passes its check. -/
theorem dieResetDone_of_pass {u : State} (free : e.trip = false) (back : e.out = false) (written : e.written = true)
    (good : recheck s = (u, true)) : dieResetDone s d true = dieResetOver (dieBack u d) e 1 d := by
  simp only [dieResetDone, waiting, free, back, written, if_true, good]
  rfl
end

/-! ## The security processor (R466, R470, R472) -/

section
variable {s : State} (powered : s.boot.powered = true)
include powered

/-- A request that finds another open is dropped. -/
theorem secRequest_of_busy (busy : fld s 0 R.HUB_SEC_STATUS_BUSY = 1) (ctx : BitVec 16) (kind addr bufk : Nat) :
    secRequest s ctx kind addr bufk = setFld s 0 R.HUB_SEC_STATUS_DROPPED 1 := by
  simp only [secRequest, powered, busy, Bool.not_true, Bool.false_eq_true, if_false, if_true]

/-- A request of a KIND that the manual gives is taken, and BUSY is 1. -/
theorem secRequest_taken (free : fld s 0 R.HUB_SEC_STATUS_BUSY = 0) (ctx : BitVec 16) {kind : Nat} (addr bufk : Nat)
    (known : 1 ≤ kind ∧ kind ≤ 3) :
    let t := secRequest s ctx kind addr bufk
    SameMemory s t ∧ t.boot.sec = some ⟨ctx, kind, addr, bufk⟩ ∧ fld t 0 R.HUB_SEC_STATUS_BUSY = 1 := by
  have legal : ¬ (kind = 0 ∨ 3 < kind) := by omega
  simp only [secRequest, powered, free, legal, Bool.not_true, Bool.false_eq_true, if_false, zero_ne_one]
  exact ⟨⟨fun _ => rfl, rfl⟩, rfl, fld_setFld_self _ _ _ _ (by decide)⟩
end

/-- `t` is `s` but for the state of translation, which holds the claim caches. -/
def OnlyXlt (s t : State) : Prop := t = { s with xlt := t.xlt }

theorem OnlyXlt.trans {s t u : State} (h : OnlyXlt s t) (h' : OnlyXlt t u) : OnlyXlt s u := by
  unfold OnlyXlt at *
  rw [h', h]

theorem OnlyXlt.sameMemory {s t : State} (h : OnlyXlt s t) : SameMemory s t := by
  rw [h]; exact ⟨fun _ => rfl, rfl⟩

theorem claimCacheFill_onlyXlt (s : State) (pa : Nat) : OnlyXlt s (claimCacheFill s pa) := by
  unfold claimCacheFill
  simp only
  split
  · split <;> rfl
  · rfl

/-- A check at a target that passes only fills a claim cache. -/
theorem targetCheckBy_onlyXlt {s : State} {die agent pa : Nat} {ctx : BitVec 16} {write : Bool}
    (pass : (targetCheckBy s die agent ctx pa write).2 = true) : OnlyXlt s (targetCheckBy s die agent ctx pa write).1 := by
  have h : targetCheckBy s die agent ctx pa write =
      if claimOk (claimCacheFill s pa) ctx pa write then (claimCacheFill s pa, true) else (_, false) := rfl
  rw [h] at pass ⊢
  split at pass
  · next ok =>
    rw [if_pos ok]
    exact claimCacheFill_onlyXlt s pa
  · cases pass

/-- The checks of a request's access to its block or its buffer only fill claim caches when they pass. -/
theorem secCheck_onlyXlt {s : State} {r : SecReq} {a n : Nat} {write : Bool} (pass : (secCheck s r a n write).2 = true) :
    OnlyXlt s (secCheck s r a n write).1 := by
  simp only [secCheck] at pass ⊢
  split at pass
  · next one =>
    rw [if_pos one]
    exact targetCheckBy_onlyXlt pass
  · next two =>
    rw [if_neg two]
    simp only [Bool.or_eq_true, Bool.not_eq_true', not_or, Bool.not_eq_false] at two
    exact (targetCheckBy_onlyXlt two.1).trans (targetCheckBy_onlyXlt pass)

/-- A request's end: BUSY falls with RESULT written, and the request is no longer open. -/
theorem secEnd_spec (s : State) {x : Nat} (short : x < 256) :
    let t := secEnd s x
    SameMemory s t ∧ fld t 0 R.HUB_SEC_STATUS_BUSY = 0 ∧ fld t 0 R.HUB_SEC_STATUS_RESULT = x ∧ t.boot.fuses = s.boot.fuses := by
  refine ⟨⟨fun _ => rfl, rfl⟩, fld_setFld_self _ _ _ _ (by decide), ?_, rfl⟩
  rw [secEnd, fld_setFld_of_bits_apart _ _ _ (by decide), fld_setFld_self _ _ _ _ (by decide)]
  exact Nat.mod_eq_of_lt short

section
variable {s : State} {r : SecReq}

/-- An answer that is longer than the buffer ends with RESULT 0x0F. -/
theorem secAnswer_of_long {b : List Byte} (buf : Nat) (long : r.bufk * 4096 < b.length) :
    secAnswer s r buf b = secEnd s 0x0F := if_pos long

/-- An answer that fits is written, where the claims of the buffer let it through. -/
theorem secAnswer_of_fit {b : List Byte} {buf : Nat} (fits : b.length ≤ r.bufk * 4096) (hbm : buf + r.bufk * 4096 ≤ hbmEnd)
    (idle : rangeIdle s buf b.length = true) :
    secAnswer s r buf b = if (secCheck s r buf b.length true).2 then secEnd (cohPut (secCheck s r buf b.length true).1 buf b false) 0
      else secEnd (secCheck s r buf b.length true).1 0x04 := by
  refine (if_neg (Nat.not_lt.2 fits)).trans ((if_neg (Nat.not_lt.2 hbm)).trans (if_neg ?_))
  simp [idle]

/-- The answer to a request for a report or for the certificates. -/
def IsAnswer (s : State) (r : SecReq) (nonce b : List Byte) : Prop :=
  (r.kind = 1 ∧ b = attestReport s nonce) ∨ (r.kind = 2 ∧ b = Config.identityCerts)

/-- A request whose block is clean is answered in the buffer that the block names. -/
theorem secServe_answer {b : List Byte} {d : List Byte × Bool} (block : cohRead s r.addr (secBlock s r) = d) (clean : d.2 = false)
    (answer : IsAnswer s r (d.1.take 32) b) : secServe s r = secAnswer s r (leNat ((d.1.drop 32).take 8)) b := by
  simp only [secServe, block, clean]
  rcases answer with ⟨kind, rfl⟩ | ⟨kind, rfl⟩ <;> simp [kind]

/-- The state after an enrolment: the fuses hold the key hash of the new pair, and the status shows them. -/
def enrolled (s : State) (block : List Byte) : State :=
  showFuses (modBoot s fun b => { b with fuses := { b.fuses with
    owners := b.fuses.owners ++ [lineBytes (Config.sha512 (recordKeys (block.take recordBytes)))] } })

/-- An enrolment that is granted writes the fuses; any other ends with RESULT 0x0F. -/
theorem secServe_enrol {d : List Byte × Bool} (block : cohRead s r.addr (secBlock s r) = d) (clean : d.2 = false)
    (kind : r.kind = 3) : secServe s r = if enrolOk s d.1 then secEnd (enrolled s d.1) 0 else secEnd s 0x0F := by
  simp only [secServe, block, clean, kind, Bool.false_eq_true, if_false, Nat.reduceEqDiff]
  cases enrolOk s d.1 <;> simp [enrolled]

/-- How an enrolment ends. -/
theorem secServe_enrol_spec {d : List Byte × Bool} (block : cohRead s r.addr (secBlock s r) = d) (clean : d.2 = false)
    (kind : r.kind = 3) :
    let t := secServe s r
    SameMemory s t ∧ fld t 0 R.HUB_SEC_STATUS_BUSY = 0 ∧
      fld t 0 R.HUB_SEC_STATUS_RESULT = (if enrolOk s d.1 then 0 else 0x0F) ∧
      t.boot.fuses.owners = if enrolOk s d.1 then
        s.boot.fuses.owners ++ [lineBytes (Config.sha512 (recordKeys (d.1.take recordBytes)))] else s.boot.fuses.owners := by
  rw [secServe_enrol block clean kind]
  split
  · obtain ⟨memory, busy, result, fuses⟩ := secEnd_spec (enrolled s d.1) (x := 0) (by decide)
    exact ⟨memory, busy, result, congrArg Fuses.owners fuses⟩
  · obtain ⟨memory, busy, result, fuses⟩ := secEnd_spec s (x := 0x0F) (by decide)
    exact ⟨memory, busy, result, congrArg Fuses.owners fuses⟩

variable (taken : s.boot.sec = some r)
include taken

theorem secComplete_of_outside (outside : isMem r.addr = false) : secComplete s = secEnd s 0x05 := by
  simp [secComplete, taken, outside]

/-- A request whose block lies in memory with no transaction open is served, where the claims of the block let it through. -/
theorem secComplete_eq (first : isMem r.addr = true) (last : isMem (r.addr + secBlock s r - 1) = true)
    (idle : rangeIdle s r.addr (secBlock s r) = true) :
    secComplete s = if (secCheck s r r.addr (secBlock s r) false).2 then secServe (secCheck s r r.addr (secBlock s r) false).1 r
      else secEnd (secCheck s r r.addr (secBlock s r) false).1 0x04 := by
  simp [secComplete, taken, first, last, idle]
end

/-- Settles O47: resets by the equation of each command, a security request by what its checks let through. -/
theorem resetsAndSecurityRequestsRunAndEnd : Obligations.ResetsAndSecurityRequestsRunAndEnd := by
  intro s powered
  refine ⟨?cold, ?warm, ?refused, ?die, ?dieEnd, ?taken, fun none => ?idle, ?served⟩
  case cold =>
    intro up
    exact ⟨_, congrArg Host.Outcome.next (resetWhole_of_manager powered up coldReset), coldReset_spec s⟩
  case warm =>
    intro up
    have cold : exec (.resetCold 0) s = .next (coldReset s) :=
      congrArg Host.Outcome.next (resetWhole_of_manager powered up coldReset)
    have warm : exec (.resetWarm 0) s = .next (warmReset s) :=
      congrArg Host.Outcome.next (resetWhole_of_manager powered up warmReset)
    refine ⟨fun none => ?_, fun u good => ⟨_, warm, warmReset_of_good_image good, ?_⟩⟩
    · rw [cold, warm, warmReset_of_no_image none]
    · rw [warmReset_of_good_image good]
      exact warmRun_state u
  case refused =>
    intro c other up
    exact ⟨congrArg Host.Outcome.next (resetWhole_of_other powered other up coldReset),
      congrArg Host.Outcome.next (resetWhole_of_other powered other up warmReset)⟩
  case die =>
    intro c d
    refine ⟨fun busy => congrArg Host.Outcome.next (resetPart_of_busy powered busy _ _), fun free bad => ?_,
      fun free allowed => ⟨_, rfl, resetDie_accepted powered free allowed⟩⟩
    refine congrArg Host.Outcome.next ?_
    rw [resetDie, bad]
    exact resetPart_of_refused powered free _
  case dieEnd =>
    intro d e waiting
    refine ⟨fun written => congrArg Host.Outcome.next (writebackTimeout_of_written waiting written), fun left => ?_,
      fun trip b => congrArg Host.Outcome.next (dieResetDone_of_trip waiting trip b), fun free back written => ⟨fun none => ?_,
      fun u good => congrArg Host.Outcome.next (dieResetDone_of_pass waiting free back written good)⟩⟩
    · exact ⟨_, rfl, writebackTimeout_of_not_written waiting left⟩
    · exact ⟨_, rfl, dieResetDone_of_fail_spec waiting free back written none⟩
  case taken =>
    intro c a n
    refine ⟨fun busy => ?_, fun free => ?_⟩
    · exact ⟨congrArg Host.Outcome.next (secRequest_of_busy powered busy ..),
        congrArg Host.Outcome.next (secRequest_of_busy powered busy ..),
        congrArg Host.Outcome.next (secRequest_of_busy powered busy ..)⟩
    · exact ⟨⟨_, rfl, secRequest_taken powered free c _ _ (by decide)⟩, ⟨_, rfl, secRequest_taken powered free c _ _ (by decide)⟩,
        ⟨_, rfl, secRequest_taken powered free c _ _ (by decide)⟩⟩
  case idle =>
    refine congrArg Host.Outcome.next ?_
    rw [secComplete, none]
  case served =>
    intro r taken n c d buf ended
    refine ⟨fun outside => congrArg Host.Outcome.next (secComplete_of_outside taken outside), fun first last idle refused => ?_,
      fun first last idle pass clean => ?_⟩
    · exact congrArg Host.Outcome.next ((secComplete_eq taken first last idle).trans (if_neg (by simpa using refused)))
    have only : OnlyXlt s c.1 := secCheck_onlyXlt pass
    have boot : c.1.boot = s.boot := by rw [only]
    have served : secComplete s = secServe c.1 r := (secComplete_eq taken first last idle).trans (if_pos pass)
    have block : cohRead c.1 r.addr (secBlock c.1 r) = d := by
      rw [secBlock, boot]
      rfl
    refine ⟨fun b answer => ⟨fun long => ?_, fun fits hbm bufIdle => ?_⟩, fun enrol => ?_⟩
    · exact congrArg Host.Outcome.next (served.trans ((secServe_answer block clean answer).trans (secAnswer_of_long buf long)))
    · have answered := served.trans ((secServe_answer block clean answer).trans (secAnswer_of_fit fits hbm bufIdle))
      intro w
      split
      · next ok => exact congrArg Host.Outcome.next (answered.trans (if_pos ok))
      · next ok => exact congrArg Host.Outcome.next (answered.trans (if_neg ok))
    · obtain ⟨memory, busy, result, owners⟩ := secServe_enrol_spec block clean enrol
      rw [boot] at owners
      exact ⟨_, congrArg Host.Outcome.next served, only.sameMemory.trans memory, busy, result, owners⟩

end Sys2Proof.Machine
end

section
/-! PROOF. Loads, stores and AMOs of the scalar harts in the core L1 and the cluster L2 (R208, R210, R237, R240). -/

namespace Sys2Proof.Machine

/-! ## Harts -/

theorem hart_modHart (s : State) (h k : Nat) (f : Hart → Hart) :
    (modHart s h f).hart k = if k = h then f (s.hart h) else s.hart k := by
  split
  · next same => rw [same, hart_modHart_self]
  · next other => exact hart_modHart_ne s f other

/-- A change of a hart is known by what it makes of that hart. -/
theorem modHart_congr {s : State} {h : Nat} {f g : Hart → Hart} (same : f (s.hart h) = g (s.hart h)) :
    modHart s h f = modHart s h g :=
  congrArg (fun x => { s with harts := tset s.harts h x }) same

theorem hart_modHart_id (s : State) (h k : Nat) : (modHart s h id).hart k = s.hart k := by
  rw [hart_modHart]
  split
  · next same => rw [same, id]
  · rfl

theorem onlyHart_modHart (s : State) (h : Nat) (f : Hart → Hart) : OnlyHart s (modHart s h f) h :=
  ⟨rfl, fun _ other => hart_modHart_ne s f other⟩

theorem OnlyHart.trans {s t u : State} {h : Nat} (a : OnlyHart s t h) (b : OnlyHart t u h) : OnlyHart s u h := by
  refine ⟨?_, fun k other => (b.2 k other).trans (a.2 k other)⟩
  rw [b.1, a.1]

theorem OnlyHart.sameMemory {s t : State} {h : Nat} (a : OnlyHart s t h) : SameMemory s t := by
  rw [a.1]; exact ⟨fun _ => rfl, rfl⟩

theorem OnlyHart.sameRegs {s t : State} {h : Nat} (a : OnlyHart s t h) : SameRegs s t := by
  rw [a.1]; exact ⟨rfl, rfl⟩

/-- x0 discards; any other register holds what was written (R208). -/
theorem tget_setX (s : State) (h rd : Nat) (v : W64) (r : Nat) :
    tget ((setX s h rd v).hart h).x r 0 = if r = rd ∧ rd ≠ 0 then v else tget (s.hart h).x r 0 := by
  rw [setX, hart_modHart_self]
  by_cases zero : rd = 0
  · simp [zero]
  · simp [zero, tget_tset]

theorem onlyHart_setX (s : State) (h rd : Nat) (v : W64) : OnlyHart s (setX s h rd v) h := onlyHart_modHart ..

/-- With no store in the buffer there is nothing to perform. -/
theorem hartDrain_of_empty {s : State} {h : Nat} (empty : (s.hart h).storeBuf = []) : hartDrain s h = s := by
  rw [hartDrain, empty]
  rfl

/-- Waits that do not run end without a change. -/
theorem Hart.end_waits {x : Hart} (ds : x.ds = false) (wrs : x.wrs = none) (fence : x.fenceWait = false) :
    { x with ds := false, wrs := none, fenceWait := false } = x := by
  cases x
  simp_all

/-- An idle hart's next command begins at once. -/
theorem HartIdle.hartDo {s : State} {h : Nat} (idle : HartIdle s h) (f : State → State) :
    hartDo s h f = f (modHart s h id) := by
  obtain ⟨up, stores, load, ds, wrs, fence, -⟩ := idle
  have ready : hartReady s h = some (modHart s h id) := by
    simp only [hartReady, up, load, ds, wrs, fence]
    exact congrArg some (modHart_congr (Hart.end_waits ds wrs fence))
  simp only [Machine.hartDo, hartDrain_of_empty stores, ready]

theorem HartIdle.ctx {s : State} {h : Nat} (idle : HartIdle s h) : (s.hart h).ctx = 0 := by
  simp [Hart.ctx, idle.bare.1, idle.bare.2]

/-! ## The bytes of an aligned access of memory (R208) -/

theorem leBytes_length (n v : Nat) : (leBytes n v).length = n := by
  induction n generalizing v with
  | zero => rfl
  | succ n ih => rw [leBytes, List.length_cons, ih]

theorem lineSlice_length {d : Line} {o n : Nat} (within : o + n ≤ 64) : (lineSlice d o n).length = n := by
  rw [lineSlice, List.length_take, List.length_drop, lineBytes, leBytes_length]
  omega

/-- An aligned access of at most 8 bytes lies within a line. -/
theorem aligned_within_line {a lg : Nat} (short : lg < 4) (aligned : a % 2 ^ lg = 0) : a % 64 + 2 ^ lg ≤ 64 := by
  interval_cases lg <;> omega

/-- Addresses of memory have 52 bits (R265). -/
theorem lt_of_isMem {a : Nat} (mem : isMem a = true) : a < 2 ^ 52 := by
  simp only [isMem, Bool.or_eq_true, Bool.and_eq_true, decide_eq_true_eq] at mem
  have hbm : hbmEnd = 3 * 2 ^ 40 := rfl
  have board : boardEnd = 2 ^ 44 + 2 ^ 41 := rfl
  omega

theorem region_of_isMem {a : Nat} (mem : isMem a = true) : region a = .hbm ∨ region a = .board := by
  simp only [isMem, Bool.or_eq_true, Bool.and_eq_true, decide_eq_true_eq] at mem
  unfold region
  by_cases hbm : a < hbmEnd
  · exact .inl (if_pos hbm)
  · exact .inr ((if_neg hbm).trans (if_pos (mem.resolve_left hbm)))

section
variable {s : State} {h : Nat} (bare : (s.hart h).v = false ∧ (s.hart h).mode = 3)
include bare

/-- A hart in machine mode names memory by its physical address. -/
theorem hartXlate_of_bare {va : W64} (mem : isMem va.toNat = true) (write : Bool) :
    hartXlate s h va write = (s, .ok va.toNat 0) := by
  have plain : (s.hart h).translates = false := by simp [Hart.translates, bare.1, bare.2]
  have typ : typeAt va.toNat 0 = 0 := if_pos mem
  simp only [hartXlate, plain, lt_of_isMem mem, typ, Bool.not_false, if_true]

/-- An aligned access has one part. -/
theorem hartPieces_of_bare {va : W64} {n : Nat} (mem : isMem va.toNat = true) (within : va.toNat % 64 + n ≤ 64) (write : Bool) :
    hartPieces s h va n write = (s, .inr (some [⟨va, va.toNat, n, 0⟩])) := by
  have one : hartCut va n = [(va, n)] := if_pos (by omega)
  simp only [hartPieces, one, List.foldl_cons, List.foldl_nil, hartXlate_of_bare bare mem, List.nil_append]
end

/-! ## What caches change -/

/-- `t` is `s` but for what caches hold, and for reservations and waits: memory, registers, what is in flight, and every
hart's x registers and buffered stores are the same. -/
structure OnlyCaches (s t : State) : Prop where
  frame : t = { s with harts := t.harts, coh := t.coh }
  x : ∀ k, (t.hart k).x = (s.hart k).x
  stores : ∀ k, (t.hart k).storeBuf = (s.hart k).storeBuf

theorem OnlyCaches.refl (s : State) : OnlyCaches s s := ⟨rfl, fun _ => rfl, fun _ => rfl⟩

theorem OnlyCaches.trans {s t u : State} (a : OnlyCaches s t) (b : OnlyCaches t u) : OnlyCaches s u := by
  refine ⟨?_, fun k => (b.x k).trans (a.x k), fun k => (b.stores k).trans (a.stores k)⟩
  rw [b.frame, a.frame]

theorem OnlyCaches.foldl {α : Type} (f : State → α → State) (hf : ∀ s a, OnlyCaches s (f s a)) :
    ∀ (l : List α) (s : State), OnlyCaches s (l.foldl f s)
  | [], s => .refl s
  | a :: l, s => (hf s a).trans (OnlyCaches.foldl f hf l (f s a))

theorem OnlyCaches.sameMemory {s t : State} (h : OnlyCaches s t) : SameMemory s t := by
  rw [h.frame]; exact ⟨fun _ => rfl, rfl⟩

theorem OnlyCaches.sameRegs {s t : State} (h : OnlyCaches s t) : SameRegs s t := by
  rw [h.frame]; exact ⟨rfl, rfl⟩

theorem onlyCaches_modHart {s : State} (h : Nat) {f : Hart → Hart} (x : (f (s.hart h)).x = (s.hart h).x)
    (stores : (f (s.hart h)).storeBuf = (s.hart h).storeBuf) : OnlyCaches s (modHart s h f) := by
  refine ⟨rfl, fun k => ?_, fun k => ?_⟩ <;> rw [hart_modHart] <;> split
  · next same => rw [x, same]
  · rfl
  · next same => rw [stores, same]
  · rfl

theorem onlyCaches_modCoh (s : State) (f : Coherence → Coherence) : OnlyCaches s (modCoh s f) := ⟨rfl, fun _ => rfl, fun _ => rfl⟩

theorem onlyCaches_setAgentLine (s : State) (a ln : Nat) (l : AgentLine) : OnlyCaches s (setAgentLine s a ln l) :=
  onlyCaches_modCoh ..

theorem agentLine_setAgentLine_self (s : State) (a ln : Nat) (l : AgentLine) : agentLine (setAgentLine s a ln l) a ln = some l :=
  tget?_tset_self ..

/-- Another line of the agent is as before. -/
theorem agentLine_setAgentLine_ne (s : State) (a : Nat) {ln k : Nat} (l : AgentLine) (other : k ≠ ln) :
    agentLine (setAgentLine s a ln l) a k = agentLine s a k :=
  tget?_tset_ne _ _ (by simpa [aKey] using other)

/-! ### A write that ends reservations (R211) -/

/-- A hart after a write to a line: a reservation of it is gone, and the wait for it is over. -/
def Hart.wake (x : Hart) (ln : Nat) : Hart := if x.resv = some ln then { x with resv := none, wrs := none } else x

theorem Hart.wake_keeps (x : Hart) (ln : Nat) : (x.wake ln).x = x.x ∧ (x.wake ln).storeBuf = x.storeBuf := by
  unfold Hart.wake
  split <;> exact ⟨rfl, rfl⟩

theorem hart_wakeResv (s : State) (ln k : Nat) : (wakeResv s ln).hart k = (s.hart k).wake ln := by
  have table : (wakeResv s ln).harts = s.harts.map fun e => (e.1, e.2.wake ln) := by
    refine List.map_congr_left fun e _ => ?_
    unfold Hart.wake
    split <;> rfl
  rw [State.hart, tget, table, tget?_map _ fun _ (x : Hart) => x.wake ln, State.hart, tget]
  cases tget? s.harts k <;> rfl

theorem onlyCaches_wakeResv (s : State) (ln : Nat) : OnlyCaches s (wakeResv s ln) := by
  refine ⟨rfl, fun k => ?_, fun k => ?_⟩ <;> rw [hart_wakeResv]
  · exact (Hart.wake_keeps _ _).1
  · exact (Hart.wake_keeps _ _).2

/-! ### Core L1 copies (R237, R255) -/

/-- With no dirty core L1 copy, merging takes nothing into the cluster L2. -/
theorem mergeL1_of_clean {s : State} {a ln : Nat} (clean : l1Dirty s a ln = none) :
    mergeL1 s a ln = (hartsOf a).foldl (fun s h => modHart s h fun x =>
      { x with l1d := tdel x.l1d ln, l1i := tdel x.l1i ln }) s := by
  simp only [mergeL1, clean]

theorem onlyCaches_mergeL1 {s : State} {a ln : Nat} (clean : l1Dirty s a ln = none) : OnlyCaches s (mergeL1 s a ln) := by
  rw [mergeL1_of_clean clean]
  exact OnlyCaches.foldl _ (fun s h => onlyCaches_modHart h rfl rfl) _ _

theorem coh_mergeL1 {s : State} {a ln : Nat} (clean : l1Dirty s a ln = none) : (mergeL1 s a ln).coh = s.coh := by
  rw [mergeL1_of_clean clean]
  refine foldl_read_of_keeps (read := State.coh) ?_ s
  intro k _ s
  rfl

/-- No hart of the cluster holds a dirty copy. -/
theorem l1Dirty_eq_none {s : State} {a ln : Nat} :
    l1Dirty s a ln = none ↔ ∀ k ∈ hartsOf a, ∀ l, tget? (s.hart k).l1d ln = some l → l.dirty = false := by
  simp only [l1Dirty, List.findSome?_eq_none_iff]
  refine forall₂_congr fun k _ => ?_
  cases tget? (s.hart k).l1d ln with
  | none => simp
  | some l => simp

/-- A core L1 copy of a line is evicted: dirty data goes to the cluster L2 (R253). -/
def coreEvict (h : Nat) (s : State) (e : Nat × CoreLine) : State :=
  let s := modHart s h fun x => { x with l1d := tdel x.l1d e.1 }
  match agentLine s (clusterOf h) e.1 with
  | some l => if e.2.dirty then setAgentLine s (clusterOf h) e.1 { l with st := .m, data := e.2.data } else s
  | none => s

/-- A core L1 eviction touches the copies of its hart alone, and at most its own line of the cluster L2. -/
theorem coreEvict_spec (h : Nat) (s : State) (e : Nat × CoreLine) :
    OnlyCaches s (coreEvict h s e) ∧ (∀ k, k ≠ h → (coreEvict h s e).hart k = s.hart k) ∧
      ∀ ln, ln ≠ e.1 → agentLine (coreEvict h s e) (clusterOf h) ln = agentLine s (clusterOf h) ln := by
  have dropped : OnlyCaches s (modHart s h fun x => { x with l1d := tdel x.l1d e.1 }) := onlyCaches_modHart h rfl rfl
  have others (k : Nat) (other : k ≠ h) : (modHart s h fun x => { x with l1d := tdel x.l1d e.1 }).hart k = s.hart k :=
    hart_modHart_ne s _ other
  unfold coreEvict
  simp only
  split
  · split
    · exact ⟨dropped.trans (onlyCaches_setAgentLine ..), others, fun ln other => agentLine_setAgentLine_ne _ _ _ other⟩
    · exact ⟨dropped, others, fun _ _ => rfl⟩
  · exact ⟨dropped, others, fun _ _ => rfl⟩

/-- What putting a line into a core L1 does: the hart's copy is the new one; other harts, and the cluster L2's copy of the
line, are as before. -/
structure CoreFilled (s t : State) (h ln : Nat) (d : Line) (dirty : Bool) : Prop where
  caches : OnlyCaches s t
  others : ∀ k, k ≠ h → t.hart k = s.hart k
  line : ∃ w, tget? (t.hart h).l1d ln = some ⟨d, dirty, w⟩
  below : agentLine t (clusterOf h) ln = agentLine s (clusterOf h) ln

/-- It is so once room has been made without touching the line. -/
theorem CoreFilled.put {s u : State} {h ln : Nat} (d : Line) (dirty : Bool) (w : Nat) (caches : OnlyCaches s u)
    (others : ∀ k, k ≠ h → u.hart k = s.hart k) (below : agentLine u (clusterOf h) ln = agentLine s (clusterOf h) ln) :
    CoreFilled s (modHart u h fun x => { x with l1d := tset x.l1d ln ⟨d, dirty, w⟩ }) h ln d dirty where
  caches := caches.trans (onlyCaches_modHart h rfl rfl)
  others k other := (hart_modHart_ne u _ other).trans (others k other)
  line := ⟨w, by rw [hart_modHart_self]; exact tget?_tset_self ..⟩
  below := below

/-- Room is made by evicting other lines. -/
theorem foldl_coreEvict (h ln : Nat) (victims : List (Nat × CoreLine)) (apart : ∀ e ∈ victims, ln ≠ e.1) (s : State) :
    OnlyCaches s (victims.foldl (coreEvict h) s) ∧ (∀ k, k ≠ h → (victims.foldl (coreEvict h) s).hart k = s.hart k) ∧
      agentLine (victims.foldl (coreEvict h) s) (clusterOf h) ln = agentLine s (clusterOf h) ln :=
  ⟨OnlyCaches.foldl _ (fun s e => (coreEvict_spec h s e).1) _ _,
    fun k other => foldl_read_of_keeps (read := (State.hart · k)) (fun e _ s => (coreEvict_spec h s e).2.1 k other) s,
    foldl_read_of_keeps (read := (agentLine · (clusterOf h) ln)) (fun e here s => (coreEvict_spec h s e).2.2 ln (apart e here)) s⟩

/-- An absent key is no entry's. -/
theorem ne_of_tget?_eq_none {α : Type} {t : Tbl α} {i : Nat} (absent : tget? t i = none) : ∀ e ∈ t, i ≠ e.1 := by
  rintro ⟨k, v⟩ here rfl
  induction t with
  | nil => cases here
  | cons e t ih =>
    rw [tget?] at absent
    split at absent
    · cases absent
    · next other =>
      rcases List.mem_cons.1 here with rfl | there
      · exact other rfl
      · exact ih absent there

theorem coreFill_spec (s : State) (h ln : Nat) (d : Line) (dirty : Bool) : CoreFilled s (coreFill s h ln d dirty) h ln d dirty := by
  unfold coreFill
  simp only
  split
  · exact .put d dirty _ (.refl s) (fun _ _ => rfl) rfl
  · next absent =>
    split
    · exact .put d dirty _ (.refl s) (fun _ _ => rfl) rfl
    · have apart (p q : Nat × CoreLine → Bool) : ∀ e ∈ ((s.hart h).l1d.filter p).filter q, ln ≠ e.1 := fun e here =>
        ne_of_tget?_eq_none absent e (List.mem_of_mem_filter (List.mem_of_mem_filter here))
      refine .put (u := List.foldl (coreEvict h) (modHart s h _) (List.filter _ (List.filter _ _))) d dirty _ ?_ ?_ ?_
      · exact (onlyCaches_modHart h rfl rfl).trans (foldl_coreEvict h ln _ (apart _ _) _).1
      · exact fun k other => ((foldl_coreEvict h ln _ (apart _ _) _).2.1 k other).trans (hart_modHart_ne s _ other)
      · exact (foldl_coreEvict h ln _ (apart _ _) _).2.2

/-! ## Loads (R208, R210, R237) -/

/-- A hart whose command has begun is idle as before. -/
theorem HartIdle.begun {s : State} {h : Nat} (idle : HartIdle s h) : HartIdle (modHart s h id) h := by
  obtain ⟨up, stores, load, ds, wrs, fence, bare⟩ := idle
  constructor
  · exact up
  all_goals rwa [hart_modHart_id]

/-- What is dirty rests on the core L1 copies. -/
theorem l1Dirty_congr {s t : State} (same : ∀ k, (t.hart k).l1d = (s.hart k).l1d) (a ln : Nat) :
    l1Dirty t a ln = l1Dirty s a ln := by
  simp only [l1Dirty, same]

theorem takeRefused_of_no_miss {s : State} {a ln : Nat} (none : tget? s.coh.misses (aKey a ln) = none) :
    takeRefused s a ln = Option.none := by
  rw [takeRefused, none]

theorem l1Dirty_modHart_id (s : State) (h a ln : Nat) : l1Dirty (modHart s h id) a ln = l1Dirty s a ln :=
  l1Dirty_congr (fun k => by rw [hart_modHart_id]) a ln

/-- A line that the core L1 holds is read there. -/
theorem hartLine_of_core {s : State} {h ln : Nat} {l : CoreLine} (copy : tget? (s.hart h).l1d ln = some l) :
    hartLine s h ln = (s, some l.data, false) := by
  simp only [hartLine, copy]

/-- Any other line that the cluster L2 holds is read there, and put into the core L1. -/
theorem hartLine_of_cluster {s : State} {h ln : Nat} {l : AgentLine} (absent : tget? (s.hart h).l1d ln = none)
    (noMiss : tget? s.coh.misses (aKey (clusterOf h) ln) = none) (clean : l1Dirty s (clusterOf h) ln = none)
    (copy : agentLine s (clusterOf h) ln = some l) (good : l.poison = false) :
    hartLine s h ln = (coreFill s h ln l.data false, some l.data, false) := by
  simp only [hartLine, absent, takeRefused_of_no_miss noMiss, clean, Option.isSome_none, Bool.false_eq_true, if_false, copy, good]

/-- With no store in the buffer, a load sees the bytes of the line. -/
theorem hartForward_of_empty {x : Hart} (empty : x.storeBuf = []) (pa : Nat) (b : List Byte) : hartForward x pa b = b := by
  rw [hartForward, empty]
  rfl

/-- A part of a load of memory whose line is at hand. -/
theorem hartLoadPiece_of_line {s t : State} {h pa n : Nat} {va : W64} {d : Line} {b : Bool} (mem : isMem pa = true)
    (empty : (s.hart h).storeBuf = []) (line : hartLine s h (pa / 64) = (t, some d, b)) :
    hartLoadPiece s h ⟨va, pa, n, 0⟩ = (t, .data (lineSlice d (pa % 64) n)) := by
  rcases region_of_isMem mem with place | place <;>
    simp only [hartLoadPiece, place, if_true, line, hartForward_of_empty empty]

/-- A load of one part that is at hand writes its register. -/
theorem hartLoadEnd_of_data (s : State) (h rd : Nat) (signed : Bool) (va : W64) (pa n : Nat) (ctx : BitVec 16) (b : List Byte) :
    hartLoadEnd s h ⟨rd, signed, va, [⟨pa, n, ctx, b, 2, false⟩]⟩ =
      setX (modHart s h fun x => { x with load := none }) h rd (extend b signed) := by
  simp [hartLoadEnd]

/-- An aligned load of memory whose line is at hand. -/
theorem hartLoad_eq {s t : State} {h lg : Nat} {va : W64} {d : Line} {b : Bool} (idle : HartIdle s h)
    (mem : isMem va.toNat = true) (within : va.toNat % 64 + 2 ^ lg ≤ 64)
    (line : hartLine (modHart s h id) h (va.toNat / 64) = (t, some d, b)) (rd : Nat) (signed : Bool) :
    hartLoad s h rd va lg signed = setX (modHart t h fun x => { x with load := none }) h rd
      (extend (lineSlice d (va.toNat % 64) (2 ^ lg)) signed) := by
  rw [hartLoad, idle.hartDo]
  simp only [hartPieces_of_bare idle.begun.bare mem within, List.foldl_cons, List.foldl_nil,
    hartLoadPiece_of_line mem idle.begun.stores line, Option.map_some, List.nil_append, Bool.false_eq_true, if_false,
    hartLoadEnd_of_data]

/-! ## Stores (R210, R240) -/

/-- A hart with a store entered in its buffer. -/
def buffered (s : State) (h : Nat) (x : HartStore) : State := modHart s h fun y => { y with storeBuf := y.storeBuf ++ [x] }

/-- An idle hart's buffer holds the store alone; the cluster's other buffers and all core L1 copies are as before. -/
theorem HartIdle.buffered_spec {s : State} {h : Nat} (idle : HartIdle s h) (x : HartStore) :
    ((buffered (modHart s h id) h x).hart h).storeBuf = [x] ∧
      (∀ k, k ≠ h → (buffered (modHart s h id) h x).hart k = s.hart k) ∧
      ∀ k, ((buffered (modHart s h id) h x).hart k).l1d = (s.hart k).l1d := by
  refine ⟨?_, fun k other => ?_, fun k => ?_⟩
  · rw [buffered, hart_modHart_self, idle.begun.stores]
    rfl
  · rw [buffered, hart_modHart_ne _ _ other, hart_modHart_id]
  · rw [buffered, hart_modHart]
    split
    · next same => rw [same, hart_modHart_id]
    · rw [hart_modHart_id]

/-- An aligned store of memory enters the buffer, which is then looked at. -/
theorem hartStore_eq {s : State} {h lg : Nat} {va : W64} (idle : HartIdle s h) (mem : isMem va.toNat = true)
    (within : va.toNat % 64 + 2 ^ lg ≤ 64) (data : W64) :
    hartStore s h va lg data =
      hartDrain (buffered (modHart s h id) h ⟨va.toNat, leBytes (2 ^ lg) data.toNat, 0, 0⟩) h := by
  have whole : (leBytes (2 ^ lg) data.toNat).take (2 ^ lg) = leBytes (2 ^ lg) data.toNat :=
    List.take_of_length_le (by rw [leBytes_length])
  have entered : hartStorePiece (modHart s h id) h ⟨va, va.toNat, 2 ^ lg, 0⟩ (leBytes (2 ^ lg) data.toNat) =
      buffered (modHart s h id) h ⟨va.toNat, leBytes (2 ^ lg) data.toNat, 0, 0⟩ := by
    rcases region_of_isMem mem with place | place <;>
      simp only [hartStorePiece, place, idle.begun.ctx] <;> rfl
  have ready : hartStoreReady (modHart s h id) h ⟨va, va.toNat, 2 ^ lg, 0⟩ = true := by simp [hartStoreReady]
  rw [hartStore, idle.hartDo]
  simp only [hartPieces_of_bare idle.begun.bare mem within, List.all_cons, List.all_nil, ready, List.foldl_cons, List.foldl_nil,
    whole, entered, Bool.and_self, Bool.not_true, Bool.false_eq_true, if_false]

/-- A single buffered store is performed where its cluster may write the line, which is otherwise asked for. -/
theorem hartDrain_of_one {s : State} {h : Nat} {x : HartStore} (one : (s.hart h).storeBuf = [x]) (typ : x.typ = 0) :
    hartDrain s h = if agentWritable s (clusterOf h) (x.pa / 64) then clusterStores s (clusterOf h) (x.pa / 64)
      else agentWantWrite s (clusterOf h) (x.pa / 64) x.ctx := by
  simp [hartDrain, one, typ]

theorem agentWritable_of_held {s : State} {a ln : Nat} {l : AgentLine} (copy : agentLine s a ln = some l)
    (may : l.st = .m ∨ l.st = .e) : agentWritable s a ln = true := by
  rw [agentWritable, copy]
  rcases may with m | e <;> simp [*]

/-- A cluster's buffered stores on a line, one hart's. -/
def clusterStep (a ln : Nat) (s : State) (h : Nat) : State :=
  let todo := (s.hart h).storeBuf.filter fun x => x.typ == 0 && x.pa / 64 == ln
  if todo = [] then s
  else
    let s := mergeL1 s a ln
    let s := todo.foldl (fun s x => agentStore s a ln (x.pa % 64) (x.bytes)) s
    modHart s h fun y => { y with storeBuf := y.storeBuf.filter fun x => !(x.typ == 0 && x.pa / 64 == ln) }

theorem clusterStores_eq {s : State} {a ln : Nat} (may : agentWritable s a ln = true) :
    clusterStores s a ln = (hartsOf a).foldl (clusterStep a ln) s := by
  rw [clusterStores, may]
  rfl

theorem clusterStep_of_empty {s : State} {h : Nat} (empty : (s.hart h).storeBuf = []) (a ln : Nat) : clusterStep a ln s h = s := by
  rw [clusterStep, empty]
  rfl

/-- A fold in which one element alone acts is that element's step. -/
theorem foldl_of_one_acts {σ α : Type} {f : σ → α → σ} {l : List α} {a : α} {s : σ} (distinct : l.Nodup) (here : a ∈ l)
    (before : ∀ b ∈ l, b ≠ a → f s b = s) (after : ∀ b ∈ l, b ≠ a → f (f s a) b = f s a) : l.foldl f s = f s a := by
  have stays (l : List α) (t : σ) (keeps : ∀ b ∈ l, f t b = t) : l.foldl f t = t := by
    induction l with
    | nil => rfl
    | cons b l ih =>
      rw [List.foldl_cons, keeps b List.mem_cons_self]
      exact ih fun c hc => keeps c (List.mem_cons_of_mem _ hc)
  obtain ⟨front, back, rfl⟩ := List.append_of_mem here
  rw [List.nodup_middle, List.nodup_cons, List.mem_append, not_or] at distinct
  obtain ⟨⟨notFront, notBack⟩, -⟩ := distinct
  rw [List.foldl_append, List.foldl_cons, stays front s, stays back]
  · exact fun b there => after b (by simp [there]) fun same => notBack (same ▸ there)
  · exact fun b there => before b (by simp [there]) fun same => notFront (same ▸ there)

theorem hartsOf_nodup (a : Nat) : (hartsOf a).Nodup := by
  unfold hartsOf
  split
  · exact (List.nodup_range).map fun _ _ => Nat.add_left_cancel
  · exact List.nodup_nil

theorem mem_hartsOf {h : Nat} (hart : h < 128) : h ∈ hartsOf (clusterOf h) := by
  have cluster : clusterOf h < 32 := by unfold clusterOf; omega
  rw [hartsOf, if_pos cluster, List.mem_map]
  exact ⟨h % 4, List.mem_range.2 (by omega), by unfold clusterOf; omega⟩

/-- The one store of a hart to a line without a dirty core L1 copy goes into the cluster L2's copy, which becomes M. -/
theorem clusterStep_of_one {s : State} {a h : Nat} {x : HartStore} {l : AgentLine} (one : (s.hart h).storeBuf = [x])
    (typ : x.typ = 0) (clean : l1Dirty s a (x.pa / 64) = none) (copy : agentLine s a (x.pa / 64) = some l) :
    ∃ u, clusterStep a (x.pa / 64) s h = modHart u h (fun y => { y with
        storeBuf := y.storeBuf.filter fun z => !(z.typ == 0 && z.pa / 64 == x.pa / 64) }) ∧
      OnlyCaches s u ∧ agentLine u a (x.pa / 64) = some { l with st := .m, data := putBytes l.data (x.pa % 64) x.bytes } := by
  have kept : agentLine (mergeL1 s a (x.pa / 64)) a (x.pa / 64) = some l := by rw [agentLine, coh_mergeL1 clean]; exact copy
  refine ⟨agentStore (mergeL1 s a (x.pa / 64)) a (x.pa / 64) (x.pa % 64) x.bytes, ?_, ?_⟩
  · simp [clusterStep, one, typ]
  · simp only [agentStore, kept]
    exact ⟨(onlyCaches_mergeL1 clean).trans ((onlyCaches_setAgentLine ..).trans (onlyCaches_wakeResv ..)),
      agentLine_setAgentLine_self ..⟩

/-- A store to a line that the cluster may write, with no other in the cluster's buffers, is performed. -/
theorem hartDrain_of_writable {s : State} {h : Nat} {x : HartStore} {l : AgentLine} (hart : h < 128)
    (one : (s.hart h).storeBuf = [x]) (typ : x.typ = 0) (clean : l1Dirty s (clusterOf h) (x.pa / 64) = none)
    (copy : agentLine s (clusterOf h) (x.pa / 64) = some l) (may : l.st = .m ∨ l.st = .e)
    (alone : ∀ k ∈ hartsOf (clusterOf h), k ≠ h → (s.hart k).storeBuf = []) :
    let t := hartDrain s h
    SameMemory s t ∧ SameRegs s t ∧ (t.hart h).storeBuf = [] ∧
      agentLine t (clusterOf h) (x.pa / 64) = some { l with st := .m, data := putBytes l.data (x.pa % 64) x.bytes } := by
  have writable := agentWritable_of_held copy may
  obtain ⟨u, performed, caches, written⟩ := clusterStep_of_one one typ clean copy
  have drained : hartDrain s h = clusterStep (clusterOf h) (x.pa / 64) s h := by
    rw [hartDrain_of_one one typ, if_pos writable, clusterStores_eq writable]
    refine foldl_of_one_acts (hartsOf_nodup _) (mem_hartsOf hart)
      (fun k mate other => clusterStep_of_empty (alone k mate other) ..) (fun k mate other => clusterStep_of_empty ?_ ..)
    rw [performed, hart_modHart_ne _ _ other, caches.stores, alone k mate other]
  rw [drained, performed]
  refine ⟨caches.sameMemory, caches.sameRegs, ?_, written⟩
  rw [hart_modHart_self, caches.stores, one]
  simp [typ]

/-- A store to a line that the cluster does not have stays in the buffer, and the line is asked for. -/
theorem hartDrain_of_absent {s : State} {h : Nat} {x : HartStore} (hart : h < 128) (one : (s.hart h).storeBuf = [x])
    (typ : x.typ = 0) (absent : agentLine s (clusterOf h) (x.pa / 64) = none)
    (noMiss : tget? s.coh.misses (aKey (clusterOf h) (x.pa / 64)) = none) (room : agentMissCount s (clusterOf h) < 128) :
    hartDrain s h = send (modCoh s fun c => { c with misses := tset c.misses (aKey (clusterOf h) (x.pa / 64)) ⟨.ru, false⟩ })
      (.home (homeOfLine s (x.pa / 64)) ⟨.ru, clusterOf h, x.ctx, x.pa / 64⟩) := by
  have cluster : clusterOf h < 32 := by unfold clusterOf; omega
  have notWritable : agentWritable s (clusterOf h) (x.pa / 64) = false := by rw [agentWritable, absent]
  rw [hartDrain_of_one one typ, notWritable, agentWantWrite, absent]
  refine (if_neg Bool.false_ne_true).trans (if_neg ?_)
  simp [noMiss, cluster, room]

/-! ## Atomics (R205, R240) -/

theorem amoResult_of_amo {op : AmoOp} (notLr : op ≠ .lr) (notSc : op ≠ .sc) (x : Hart) (ln : Nat) (cur : List Byte) (src : W64) :
    amoResult x op ln cur src = (extend cur true,
      some (leBytes cur.length (amoValue op cur.length (BitVec.ofNat 64 (leNat cur)) src).toNat)) := by
  cases op with
  | lr => exact absurd rfl notLr
  | sc => exact absurd rfl notSc
  | _ => rfl

/-- A misaligned LR or SC is an address-misaligned exception. -/
theorem hartAmo_of_misaligned {s : State} {h : Nat} {va : W64} {dbl : Bool} {op : AmoOp} (idle : HartIdle s h)
    (odd : va.toNat % (if dbl then 8 else 4) ≠ 0) (pair : op = .lr ∨ op = .sc) (rd : Nat) (rl : Bool) (data : W64) :
    hartAmo s h op rd va dbl rl data = hartTrap (modHart s h id) h (if op != .lr then 6 else 4) va := by
  rw [hartAmo, idle.hartDo]
  rcases pair with rfl | rfl <;> simp [odd]

/-- What an AMO puts into the caches: the line comes into the core L1, its cluster's copies are merged, and the new value
goes into the core L1 with the cluster's copy in M. -/
def amoWritten (s : State) (h ln : Nat) (l : AgentLine) (d : Line) : State :=
  coreFill (setAgentLine (wakeResv (mergeL1 (coreFill s h ln l.data false) (clusterOf h) ln) ln) (clusterOf h) ln
    { l with st := .m }) h ln d true

section
variable {s : State} {h ln : Nat} {l : AgentLine} (clean : l1Dirty s (clusterOf h) ln = none)
include clean

/-- A clean copy in the core L1 leaves the cluster with no dirty one. -/
theorem l1Dirty_coreFill (d : Line) : l1Dirty (coreFill s h ln d false) (clusterOf h) ln = none := by
  obtain ⟨-, others, ⟨w, line⟩, -⟩ := coreFill_spec s h ln d false
  rw [l1Dirty_eq_none] at clean ⊢
  intro k mate copy held
  by_cases same : k = h
  · rw [same, line] at held
    rw [← Option.some.inj held]
  · exact clean k mate copy (by rwa [others k same] at held)

theorem amoWritten_spec (d : Line) :
    OnlyCaches s (amoWritten s h ln l d) ∧ ∃ w, tget? ((amoWritten s h ln l d).hart h).l1d ln = some ⟨d, true, w⟩ := by
  have filled := (coreFill_spec s h ln l.data false).caches
  have merged := onlyCaches_mergeL1 (l1Dirty_coreFill clean l.data)
  obtain ⟨written, -, line, -⟩ := coreFill_spec (setAgentLine (wakeResv (mergeL1 (coreFill s h ln l.data false)
    (clusterOf h) ln) ln) (clusterOf h) ln { l with st := .m }) h ln d true
  exact ⟨filled.trans (merged.trans ((onlyCaches_wakeResv ..).trans ((onlyCaches_setAgentLine ..).trans written))), line⟩

/-- The cluster's copy of the line is there after the core L1's copies have been merged into it. -/
theorem agentLine_mergeL1_coreFill (copy : agentLine s (clusterOf h) ln = some l) (d : Line) :
    agentLine (wakeResv (mergeL1 (coreFill s h ln d false) (clusterOf h) ln) ln) (clusterOf h) ln = some l := by
  have kept := (coreFill_spec s h ln d false).below.trans copy
  show tget? (mergeL1 (coreFill s h ln d false) (clusterOf h) ln).coh.lines _ = _
  rw [coh_mergeL1 (l1Dirty_coreFill clean d)]
  exact kept
end

/-- Hart `h` performs an AMO on line `ln` at once: its writes are performed, and the line is `l` in the cluster L2, which may
write it, with no dirty copy in a core L1, none in the hart's own, and no request for it in flight. -/
structure AmoLine (s : State) (h ln : Nat) (l : AgentLine) : Prop where
  quiet : hartQuiet s h = true
  copy : agentLine s (clusterOf h) ln = some l
  may : l.st = .m ∨ l.st = .e
  good : l.poison = false
  clean : l1Dirty s (clusterOf h) ln = none
  absent : tget? (s.hart h).l1d ln = none
  noMiss : tget? s.coh.misses (aKey (clusterOf h) ln) = none

theorem AmoLine.begun {s : State} {h ln : Nat} {l : AgentLine} (line : AmoLine s h ln l) : AmoLine (modHart s h id) h ln l where
  quiet := by
    rw [hartQuiet, hart_modHart_id]
    exact line.quiet
  copy := line.copy
  may := line.may
  good := line.good
  clean := (l1Dirty_modHart_id ..).trans line.clean
  absent := by
    rw [hart_modHart_id]
    exact line.absent
  noMiss := line.noMiss

/-- An aligned AMO on such a line: the old value goes to the register, the new one into the caches. -/
theorem hartAmo_eq {s : State} {h : Nat} {va : W64} {dbl : Bool} {op : AmoOp} {l : AgentLine} {n : Nat}
    (size : (if dbl then 8 else 4) = n) (aligned : va.toNat % n = 0) (within : va.toNat % 64 + n ≤ 64)
    (idle : HartIdle s h) (mem : isMem va.toNat = true) (notLr : op ≠ .lr) (notSc : op ≠ .sc)
    (line : AmoLine s h (va.toNat / 64) l) (rd : Nat) (rl : Bool) (data : W64) :
    let old := lineSlice l.data (va.toNat % 64) n
    hartAmo s h op rd va dbl rl data = setX (amoResv (amoWritten (modHart s h id) h (va.toNat / 64) l
      (putBytes l.data (va.toNat % 64) (leBytes n (amoValue op n (BitVec.ofNat 64 (leNat old)) data).toNat))) h op
      (va.toNat / 64)) h rd (extend old true) := by
  intro old
  obtain ⟨quiet, copy, may, good, clean, absent, noMiss⟩ := line.begun
  have unbuffered : hartBuffered (modHart s h id) h (va.toNat / 64) = false := by
    rw [hartBuffered, idle.begun.stores]
    rfl
  have write : (op != .lr) = true := by simpa using notLr
  rw [hartAmo, idle.hartDo]
  simp only [size, aligned, quiet, hartPieces_of_bare idle.begun.bare mem within, mem, unbuffered, notSc, write,
    agentWritable_of_held copy may, takeRefused_of_no_miss noMiss, hartLine_of_cluster absent noMiss clean copy good,
    agentLine_mergeL1_coreFill clean copy, amoResult_of_amo notLr notSc, lineSlice_length within]
  simp [amoWritten, old]

/-- What the result register, and the end of a reservation, leave of an AMO's write. -/
theorem amo_end_spec (s : State) (h : Nat) (op : AmoOp) (ln rd : Nat) (v : W64) :
    let t := setX (amoResv s h op ln) h rd v
    OnlyHart s t h ∧ (t.hart h).l1d = (s.hart h).l1d ∧
      ∀ r, tget (t.hart h).x r 0 = if r = rd ∧ rd ≠ 0 then v else tget (s.hart h).x r 0 := by
  refine ⟨(onlyHart_modHart ..).trans (onlyHart_setX ..), ?_, fun r => ?_⟩
  · rw [setX, hart_modHart_self, amoResv, hart_modHart_self]
  · rw [tget_setX, amoResv, hart_modHart_self]

/-- Settles O19: a load by the line that it finds, a store by what draining its buffer does, an AMO by `hartAmo_eq`. -/
theorem scalarAccessesActInTheClusterCache : Obligations.ScalarAccessesActInTheClusterCache := by
  intro s h va lg idle mem aligned a ln o x noMiss
  have within : va.toNat % 64 + 2 ^ lg.val ≤ 64 := aligned_within_line lg.isLt aligned
  refine ⟨?core, ?cluster, ?store, ?miss, ?amo, ?misaligned⟩
  case core =>
    intro rd signed l copy
    have line := hartLine_of_core (s := modHart s h id) (l := l) (by rwa [hart_modHart_id])
    refine ⟨_, congrArg Host.Outcome.next (hartLoad_eq idle mem within line rd signed),
      ((onlyHart_modHart ..).trans (onlyHart_modHart ..)).trans (onlyHart_setX ..), fun r => ?_⟩
    rw [tget_setX, hart_modHart_self, hart_modHart_id]
  case cluster =>
    intro rd signed l absent clean copy good
    have line := hartLine_of_cluster (s := modHart s h id) (by rwa [hart_modHart_id]) noMiss
      ((l1Dirty_modHart_id ..).trans clean) copy good
    have filled := (coreFill_spec (modHart s h id) h ln l.data false).caches
    refine ⟨_, congrArg Host.Outcome.next (hartLoad_eq idle mem within line rd signed), filled.sameMemory, filled.sameRegs,
      fun r => ?_⟩
    rw [tget_setX, hart_modHart_self, filled.x, hart_modHart_id]
  case store =>
    intro data l copy may clean empty
    obtain ⟨one, others, copies⟩ := idle.buffered_spec ⟨va.toNat, leBytes (2 ^ lg.val) data.toNat, 0, 0⟩
    refine ⟨_, congrArg Host.Outcome.next (hartStore_eq idle mem within data), ?_⟩
    exact hartDrain_of_writable h.isLt one rfl ((l1Dirty_congr copies ..).trans clean) copy may fun k mate other => by
      rw [others k other, empty k mate]
  case miss =>
    intro data absent room
    obtain ⟨one, -, -⟩ := idle.buffered_spec ⟨va.toNat, leBytes (2 ^ lg.val) data.toNat, 0, 0⟩
    have asked := (hartStore_eq idle mem within data).trans (hartDrain_of_absent h.isLt one rfl absent noMiss room)
    exact ⟨_, congrArg Host.Outcome.next asked, ⟨fun _ => rfl, rfl⟩, ⟨rfl, rfl⟩, one, rfl⟩
  case amo =>
    intro op rd dbl aq rl data l size notLr notSc quiet copy may good clean absent old new
    have bytes : (if dbl then 8 else 4) = 2 ^ lg.val := by
      rw [size]
      cases dbl <;> rfl
    have performed := hartAmo_eq bytes aligned within idle mem notLr notSc ⟨quiet, copy, may, good, clean, absent, noMiss⟩
      rd rl data
    obtain ⟨caches, w, held⟩ := amoWritten_spec (l := l) (s := modHart s h id) ((l1Dirty_modHart_id s h a ln).trans clean)
      (putBytes l.data o (leBytes (2 ^ lg.val) new.toNat))
    obtain ⟨only, kept, result⟩ := amo_end_spec (amoWritten (modHart s h id) h ln l
      (putBytes l.data o (leBytes (2 ^ lg.val) new.toNat))) h op ln rd (extend old true)
    refine ⟨_, congrArg Host.Outcome.next performed, caches.sameMemory.trans only.sameMemory, ?_, fun r => ?_, _,
      (congrArg (tget? · ln) kept).trans held, rfl, rfl⟩
    · exact ⟨only.sameRegs.1.trans caches.sameRegs.1, only.sameRegs.2.trans caches.sameRegs.2⟩
    · exact (result r).trans (by rw [caches.x, hart_modHart_id])
  case misaligned =>
    intro op rd dbl aq rl data odd
    refine ⟨?_, ?_⟩ <;> rintro rfl
    · exact congrArg Host.Outcome.next (hartAmo_of_misaligned idle odd (.inl rfl) rd rl data)
    · exact congrArg Host.Outcome.next (hartAmo_of_misaligned idle odd (.inr rfl) rd rl data)

end Sys2Proof.Machine
end

section
/-! PROOF. What the units of the coherence protocol leave unchanged: what memory stores, and the homes' and agents' own
tables (R235, R243, R244). -/

namespace Sys2Proof.Machine

/-! ## What memory stores -/

/-- A state as far as it says where lines are stored and with which value: without what is in flight, what caches and homes
hold, claim caches, and the records of accesses of memory. -/
def State.stored (s : State) : State :=
  { s with net := [], harts := [], coh := {}, xlt := {}, tiers := { s.tiers with hbm := [], touched := [] } }

section
variable {s t : State} (same : t.stored = s.stored)
include same

/-- What does not rest on the fields that `State.stored` leaves out is the same. -/
theorem read_of_stored {α : Type} (read : State → α) (rests : ∀ u : State, read u.stored = read u) : read t = read s := by
  rw [← rests t, same, rests s]

theorem sameMemory_of_stored : SameMemory s t :=
  ⟨fun a => read_of_stored same (memByte ·.mem a) fun _ => rfl, read_of_stored same State.poison fun _ => rfl⟩

theorem sameRegs_of_stored : SameRegs s t :=
  ⟨read_of_stored same State.regs fun _ => rfl, read_of_stored same State.shadow fun _ => rfl⟩

theorem homeOfLine_of_stored (ln : Nat) : homeOfLine t ln = homeOfLine s ln :=
  read_of_stored same (homeOfLine · ln) fun _ => rfl

theorem lineRetired_of_stored (ln : Nat) : lineRetired t ln = lineRetired s ln :=
  read_of_stored same (lineRetired · ln) fun _ => rfl

/-- A line's value below its owner rests on what is stored and on its home's copy (R243). -/
theorem belowLine_of_stored {ln : Nat} (copy : l3Copy (t.home (homeOfLine s ln)) ln = l3Copy (s.home (homeOfLine s ln)) ln) :
    belowLine t ln = belowLine s ln := by
  have line : memLine t ln = memLine s ln := read_of_stored same (memLine · ln) fun _ => rfl
  have poison : linePoison t ln = linePoison s ln := read_of_stored same (linePoison · ln) fun _ => rfl
  simp only [belowLine, homeOfLine_of_stored same, copy, line, poison]
end

@[simp] theorem stored_send (s : State) (m : Msg) : (send s m).stored = s.stored := rfl
@[simp] theorem stored_recv (s : State) (m : Msg) : (recv s m).stored = s.stored := rfl
@[simp] theorem stored_modHome (s : State) (md : Nat) (f : Home → Home) : (modHome s md f).stored = s.stored := rfl
@[simp] theorem stored_setTxn (s : State) (md ln : Nat) (t : Txn) : (setTxn s md ln t).stored = s.stored := rfl
@[simp] theorem stored_endTxn (s : State) (md ln : Nat) : (endTxn s md ln).stored = s.stored := rfl
@[simp] theorem stored_setDir (s : State) (md ln : Nat) (e : DirEntry) : (setDir s md ln e).stored = s.stored := rfl
@[simp] theorem stored_setAgentLine (s : State) (a ln : Nat) (l : AgentLine) : (setAgentLine s a ln l).stored = s.stored := rfl
@[simp] theorem stored_dropAgentLine (s : State) (a ln : Nat) : (dropAgentLine s a ln).stored = s.stored := rfl
@[simp] theorem stored_staleWb (s : State) (a ln : Nat) : (staleWb s a ln).stored = s.stored := rfl
@[simp] theorem stored_wakeResv (s : State) (ln : Nat) : (wakeResv s ln).stored = s.stored := rfl
@[simp] theorem stored_touch (s : State) (ln : Nat) : (touch s ln).stored = s.stored := rfl

@[simp] theorem stored_claimCacheFill (s : State) (pa : Nat) : (claimCacheFill s pa).stored = s.stored := by
  rw [claimCacheFill_onlyXlt s pa]
  rfl

@[simp] theorem stored_hbmUse (s : State) (ln : Nat) (ctx : BitVec 16) (exempt read : Bool) :
    (hbmUse s ln ctx exempt read).stored = s.stored := by
  unfold hbmUse
  split <;> rfl

@[simp] theorem stored_answer (s : State) (r : HomeReq) (st : Moesi) (d : Line) (p : Bool) :
    (answer s r st d p).stored = s.stored := by
  unfold answer
  split <;> rfl

/-- A hart's core L1 copies of a line go. -/
def forgetL1 (ln : Nat) (s : State) (h : Nat) : State :=
  modHart s h fun x => { x with l1d := tdel x.l1d ln, l1i := tdel x.l1i ln }

/-- What neither a cluster's line nor its core L1 copies change is as before after these are merged (R255). -/
theorem read_mergeL1 {ρ : Type} (read : State → ρ) (s : State) (a ln : Nat)
    (line : ∀ l, read (setAgentLine s a ln l) = read s) (forget : ∀ u h, read (forgetL1 ln u h) = read u) :
    read (mergeL1 s a ln) = read s := by
  refine (foldl_read_of_keeps (step := forgetL1 ln) (read := read) (fun h _ u => forget u h) _).trans ?_
  split
  · exact line _
  · rfl

@[simp] theorem stored_mergeL1 (s : State) (a ln : Nat) : (mergeL1 s a ln).stored = s.stored :=
  read_mergeL1 State.stored s a ln (fun _ => rfl) fun _ _ => rfl

/-! ## The homes' tables -/

@[simp] theorem home_send (s : State) (m : Msg) (md : Nat) : (send s m).home md = s.home md := rfl
@[simp] theorem home_recv (s : State) (m : Msg) (md : Nat) : (recv s m).home md = s.home md := rfl
@[simp] theorem home_touch (s : State) (ln md : Nat) : (touch s ln).home md = s.home md := rfl
@[simp] theorem home_dropAgentLine (s : State) (a ln md : Nat) : (dropAgentLine s a ln).home md = s.home md := rfl
@[simp] theorem home_staleWb (s : State) (a ln md : Nat) : (staleWb s a ln).home md = s.home md := rfl
@[simp] theorem home_wakeResv (s : State) (ln md : Nat) : (wakeResv s ln).home md = s.home md := rfl

@[simp] theorem coh_claimCacheFill (s : State) (pa : Nat) : (claimCacheFill s pa).coh = s.coh := by
  rw [claimCacheFill_onlyXlt s pa]

@[simp] theorem home_claimCacheFill (s : State) (pa md : Nat) : (claimCacheFill s pa).home md = s.home md :=
  congrArg (fun c : Coherence => tget c.homes md {}) (coh_claimCacheFill s pa)

@[simp] theorem home_hbmUse (s : State) (ln : Nat) (ctx : BitVec 16) (exempt read : Bool) (md : Nat) :
    (hbmUse s ln ctx exempt read).home md = s.home md := by
  unfold hbmUse
  split <;> rfl

@[simp] theorem home_answer (s : State) (r : HomeReq) (st : Moesi) (d : Line) (p : Bool) (md : Nat) :
    (answer s r st d p).home md = s.home md := by
  unfold answer
  split <;> rfl

@[simp] theorem home_mergeL1 (s : State) (a ln md : Nat) : (mergeL1 s a ln).home md = s.home md :=
  read_mergeL1 (State.home · md) s a ln (fun _ => rfl) fun _ _ => rfl

@[simp] theorem home_setTxn (s : State) (md ln : Nat) (t : Txn) :
    (setTxn s md ln t).home md = { s.home md with txns := tset (s.home md).txns ln t } := home_modHome_self ..

@[simp] theorem home_endTxn (s : State) (md ln : Nat) :
    (endTxn s md ln).home md = { s.home md with txns := tdel (s.home md).txns ln } := home_modHome_self ..

theorem home_setDir (s : State) (md ln : Nat) (e : DirEntry) : (setDir s md ln e).home md =
    { s.home md with dir := if e.dstate = 0 then tdel (s.home md).dir ln else tset (s.home md).dir ln e } :=
  home_modHome_self ..

/-- An entry that lists somebody is put into the directory. -/
theorem home_setDir_of_listed (s : State) (md ln : Nat) {e : DirEntry} (listed : e.dstate ≠ 0) :
    (setDir s md ln e).home md = { s.home md with dir := tset (s.home md).dir ln e } := by
  rw [home_setDir, if_neg listed]

/-- An entry that lists nobody is freed. -/
theorem home_setDir_of_vacant (s : State) (md ln : Nat) {e : DirEntry} (vacant : e.dstate = 0) :
    (setDir s md ln e).home md = { s.home md with dir := tdel (s.home md).dir ln } := by
  rw [home_setDir, if_pos vacant]

/-! ## The L3's copy of a line -/

/-- A dropped copy is gone from the victim queue and from the array. -/
@[simp] theorem l3Copy_l3Drop (h : Home) (ln : Nat) : l3Copy (l3Drop h ln) ln = none := by
  have gone : (l3Drop h ln).vq.reverse.find? (fun v => v.line == ln) = none := by simp [l3Drop]
  rw [l3Copy, gone]
  exact tget?_tdel_self ..

/-- The newest entry of the victim queue for a line is the L3's copy. -/
theorem l3Copy_of_found {h : Home} {ln : Nat} {v : VictimEntry} (found : h.vq.reverse.find? (fun v => v.line == ln) = some v) :
    l3Copy h ln = some ⟨v.data, v.dirty, v.poison, 0⟩ := by
  rw [l3Copy, found]

/-- A victim queue entry after its line was overwritten. -/
def VictimEntry.overwritten (ln : Nat) (d : Line) (p : Bool) (v : VictimEntry) : VictimEntry :=
  if v.line = ln then { v with data := d, dirty := true, poison := p } else v

theorem VictimEntry.overwritten_line (ln : Nat) (d : Line) (p : Bool) (v : VictimEntry) :
    (v.overwritten ln d p).line = v.line := by
  unfold VictimEntry.overwritten
  split <;> rfl

/-- The L3's copy after a line was overwritten. -/
theorem l3Copy_l3Write (h : Home) (ln : Nat) (d : Line) (p : Bool) :
    ∃ w, l3Copy (l3Write h ln d p) ln = some ⟨d, true, p, w⟩ := by
  unfold l3Write
  split
  · next queued =>
    obtain ⟨v, found⟩ := Option.isSome_iff_exists.1
      (show (h.vq.reverse.find? fun v => v.line == ln).isSome by simpa using queued)
    have line : v.line = ln := by simpa using List.find?_some found
    have kept : (fun v : VictimEntry => v.line == ln) ∘ VictimEntry.overwritten ln d p = fun v => v.line == ln :=
      funext fun v => congrArg (· == ln) (v.overwritten_line ln d p)
    have copy : (h.vq.map (VictimEntry.overwritten ln d p)).reverse.find? (fun v => v.line == ln) =
        some (v.overwritten ln d p) := by
      rw [← List.map_reverse, List.find?_map, kept, found, Option.map_some]
    refine ⟨0, (l3Copy_of_found copy).trans ?_⟩
    rw [VictimEntry.overwritten, if_pos line]
  · next notQueued =>
    have absent : h.vq.reverse.find? (fun v => v.line == ln) = none := by simpa using notQueued
    refine ⟨(tget h.l3 ln ⟨d, true, p, 0⟩).way, ?_⟩
    rw [l3Copy, absent]
    exact tget?_tset_self ..

/-- The L3's copy rests on the victim queue and the array. -/
theorem l3Copy_congr {h k : Home} (vq : k.vq = h.vq) (l3 : k.l3 = h.l3) (ln : Nat) : l3Copy k ln = l3Copy h ln := by
  rw [l3Copy, vq, l3, l3Copy]

/-- What changes neither the victim queue nor the array of a home leaves every line's value below its owner. -/
theorem belowLine_modHome (s : State) (md : Nat) (f : Home → Home) (keeps : ∀ h, (f h).vq = h.vq ∧ (f h).l3 = h.l3) (ln : Nat) :
    belowLine (modHome s md f) ln = belowLine s ln := by
  refine belowLine_of_stored (stored_modHome s md f) ?_
  by_cases here : homeOfLine s ln = md
  · rw [here, home_modHome_self]
    exact l3Copy_congr (keeps _).1 (keeps _).2 ln
  · rw [home_modHome_ne _ _ here]

@[simp] theorem belowLine_endTxn (s : State) (md k ln : Nat) : belowLine (endTxn s md k) ln = belowLine s ln :=
  belowLine_modHome s md (fun h => { h with txns := tdel h.txns k }) (fun _ => ⟨rfl, rfl⟩) ln

@[simp] theorem belowLine_setDir (s : State) (md k : Nat) (e : DirEntry) (ln : Nat) :
    belowLine (setDir s md k e) ln = belowLine s ln :=
  belowLine_modHome s md (fun h => { h with dir := if e.dstate = 0 then tdel h.dir k else tset h.dir k e })
    (fun _ => ⟨rfl, rfl⟩) ln

/-! ## Stored lines -/

theorem leNat_leBytes (n v : Nat) : leNat (leBytes n v) = v % 256 ^ n := by
  induction n generalizing v with
  | zero => simp [leBytes, leNat, Nat.mod_one]
  | succ n ih => rw [leBytes, leNat, ih, pow_succ', Nat.mod_mul, BitVec.toNat_ofNat]

theorem bytesLine_lineBytes (d : Line) : bytesLine (lineBytes d) = d := by
  refine BitVec.eq_of_toNat_eq ?_
  have fits := d.isLt
  rw [bytesLine, BitVec.toNat_ofNat, lineBytes, leNat_leBytes]
  omega

theorem memRead_memWrite (m : List Host.Cell) (a : Nat) (bs : List Byte) : memRead (memWrite m a bs) a bs.length = bs := by
  induction bs generalizing m a with
  | nil => rfl
  | cons b bs ih =>
    have first : memByte (memWrite (memSet m a b) (a + 1) bs) a = b := by simp [memByte_memWrite, memByte_memSet]
    rw [memWrite, List.length_cons, memRead, first, ih]

/-- A store of a line changes memory and its poison alone. -/
theorem storeLine_frame (s : State) (ln : Nat) (d : Line) (p : Bool) : storeLine s ln d p =
    { s with mem := (storeLine s ln d p).mem, poison := (storeLine s ln d p).poison,
             tiers := (storeLine s ln d p).tiers } := by
  unfold storeLine setPoison
  repeat' split
  all_goals rfl

/-- A stored line reads back, where its memory is not retired. -/
theorem memLine_storeLine {s : State} {ln : Nat} (inUse : lineRetired s ln = false) (d : Line) (p : Bool) :
    memLine (storeLine s ln d p) ln = d := by
  have read := memRead_memWrite s.mem (ln * 64) (lineBytes d)
  rw [show (lineBytes d).length = 64 from leBytes_length ..] at read
  rw [memLine, storeLine_mem, inUse, if_neg Bool.false_ne_true, read, bytesLine_lineBytes]

/-- What is put below the caches is the line's value there (R244). -/
theorem belowLine_putBelow {s : State} {ln : Nat} (inUse : lineRetired s ln = false) (d : Line) (p : Bool) :
    (belowLine (putBelow s ln d p) ln).1 = d := by
  unfold putBelow
  simp only
  split
  · obtain ⟨w, copy⟩ := l3Copy_l3Write (s.home (homeOfLine s ln)) ln d p
    have home : homeOfLine (modHome s (homeOfLine s ln) fun h => l3Write h ln d p) ln = homeOfLine s ln := rfl
    rw [belowLine, home, home_modHome_self, copy]
  · next absent =>
    have none : l3Copy ((storeLine s ln d p).home (homeOfLine (storeLine s ln d p) ln)) ln = none := by
      rw [storeLine_frame]
      exact Option.not_isSome_iff_eq_none.1 absent
    simp only [belowLine, none]
    exact memLine_storeLine inUse d p

end Sys2Proof.Machine
end

section
/-! PROOF. Homes: how a request begins (R242, R243, R245, R252, R282, R286, R314). -/

namespace Sys2Proof.Machine

/-! ## A request begins (R242, R243) -/

theorem leNat_lt (b : List Byte) : leNat b < 256 ^ b.length := by
  induction b with
  | nil => exact Nat.one_pos
  | cons x b ih =>
    have byte := x.isLt
    rw [leNat, List.length_cons, pow_succ']
    omega

theorem length_memRead (m : List Host.Cell) (a n : Nat) : (memRead m a n).length = n := by
  induction n generalizing a with
  | zero => rfl
  | succ n ih => rw [memRead, List.length_cons, ih]

section
variable {s : State} {pa : Nat} (mem : isMem pa = true)
include mem

/-- The claim entry of memory is the one that its home's claim cache holds (R286). -/
theorem claimEntry_of_cached {w : W32} (cached : tget? (s.helper (homeOf s pa)).claims (memExtent pa) = some w) :
    claimEntry s pa = w.toNat := by
  rcases region_of_isMem mem with region | region <;> simp only [claimEntry, region, cached]

/-- Without one there, it is a word of the table in memory (R286). -/
theorem claimEntry_lt_of_uncached (uncached : tget? (s.helper (homeOf s pa)).claims (memExtent pa) = none) :
    claimEntry s pa < 2 ^ 32 := by
  have word (a : Nat) : leNat (memRead s.mem a 4) < 2 ^ 32 := (leNat_lt _).trans_eq (by rw [length_memRead]; rfl)
  rcases region_of_isMem mem with region | region
  · simpa only [claimEntry, region, uncached] using word _
  · simpa only [claimEntry, region, uncached] using word _

/-- A claim cache fills with the entry in force. -/
theorem claimEntry_claimCacheFill : claimEntry (claimCacheFill s pa) pa = claimEntry s pa := by
  unfold claimCacheFill
  rw [if_pos mem]
  simp only
  split
  · next miss =>
    have cached : tget? ((modHelper s (homeOf s pa) fun h => { h with
        claims := tset h.claims (memExtent pa) (BitVec.ofNat 32 (claimEntry s pa)) }).helper (homeOf s pa)).claims
          (memExtent pa) = some (BitVec.ofNat 32 (claimEntry s pa)) := by
      rw [helper_modHelper_self]
      exact tget?_tset_self ..
    refine (claimEntry_of_cached mem cached).trans ?_
    exact Nat.mod_eq_of_lt (claimEntry_lt_of_uncached mem (Option.isNone_iff_eq_none.1 miss.1))
  · rfl

theorem claimOk_claimCacheFill (ctx : BitVec 16) (write : Bool) :
    claimOk (claimCacheFill s pa) ctx pa write = claimOk s ctx pa write := by
  rw [claimOk, claimEntry_claimCacheFill mem, claimOk]
end

/-- The state in which a home acts on a request that begins: the message is taken, the claim entry cached and the use of the
line's extent noted; an eviction that the requester sent before no longer counts (R245, R286, R314). `e`: the line's entry. -/
def State.begun (s : State) (md : Nat) (r : HomeReq) (e : DirEntry) : State :=
  let u := touch (claimCacheFill (recv s (.home md r)) (r.line * 64)) r.line
  if reqEntry r.kind ∧ e.own ≠ some r.src then staleWb u r.src r.line else u

section
variable (s : State) (md : Nat) (r : HomeReq) (e : DirEntry)

@[simp] theorem stored_begun : (s.begun md r e).stored = s.stored := by
  unfold State.begun
  simp only
  split <;> simp

@[simp] theorem home_begun (k : Nat) : (s.begun md r e).home k = s.home k := by
  unfold State.begun
  simp only
  split <;> simp

@[simp] theorem agentLine_begun (a ln : Nat) : agentLine (s.begun md r e) a ln = agentLine s a ln := by
  have filled := congrArg Coherence.lines (coh_claimCacheFill (recv s (.home md r)) (r.line * 64))
  have lines : (s.begun md r e).coh.lines = s.coh.lines := by
    unfold State.begun
    simp only
    split <;> exact filled
  rw [agentLine, lines, agentLine]

@[simp] theorem belowLine_begun (ln : Nat) : belowLine (s.begun md r e) ln = belowLine s ln :=
  belowLine_of_stored (by simp) (by simp)

/-- An eviction begins with every writeback buffer as it was. -/
theorem wbs_begun_of_no_entry (noEntry : reqEntry r.kind = false) : (s.begun md r e).coh.wbs = s.coh.wbs := by
  unfold State.begun
  simp only [noEntry]
  exact congrArg Coherence.wbs (coh_claimCacheFill ..)
end

/-- What a home does about a request that begins, with the entry `e` of its line (R243). -/
def homeAct (s : State) (md : Nat) (r : HomeReq) (e : DirEntry) : State :=
  let ln := r.line
  let h := s.home md
  match r.kind with
  | .rs =>
    match e.own with
    | some _ => txnStep s md ln ⟨r, [], e.own, none, false, false⟩
    | none => grantRead s md r e
  | .ru => openInval (setDir s md ln e) md r e true
  | .upg => if homeKnows s e r.src ln then openInval s md r e false else openInval (setDir s md ln e) md r e true
  | .zero => openInval s md r e false
  | .clean => doClean s md r
  | .flush => openInval s md r e true
  | .rdonce => txnStep s md ln ⟨r, [], e.own, none, false, false⟩
  | .wrline _ => openInval s md r e false
  | .wrpart _ _ => openInval s md r e true
  | .wb d p => if 64 ≤ h.vq.length then homeWait s md r else doWriteback s md r d p true
  | .offer d p =>
    if 64 ≤ h.vq.length ∧ 64 ≤ fld s (5 + md) R.MEM_L3_CFG_DECLINE_THRESH ∧ (l3Copy h ln).isNone then homeWait s md r
    else doWriteback s md r d p false

/-- Where a request's line finds its entry: listed, or in a free way, where one is needed (R252). -/
def EntryAt (s : State) (md : Nat) (r : HomeReq) (e : DirEntry) : Prop :=
  ∃ w, (if reqEntry r.kind ∧ (tget? (s.home md).dir r.line).isNone
      then dirRoom (s.home md) (dirSeed s md) r.line (wayOut s (5 + md) 1) else .way 0) = .way w ∧
    e = tget (s.home md).dir r.line { way := w }

theorem entryAt_of_listed {s : State} {md : Nat} {r : HomeReq} {e : DirEntry} (listed : tget? (s.home md).dir r.line = some e) :
    EntryAt s md r e := ⟨0, by simp [listed], by simp [tget, listed]⟩

theorem entryAt_of_room {s : State} {md w : Nat} {r : HomeReq} (absent : tget? (s.home md).dir r.line = none)
    (room : reqEntry r.kind = true → dirRoom (s.home md) (dirSeed s md) r.line (wayOut s (5 + md) 1) = .way w)
    (noEntry : reqEntry r.kind = false → w = 0) : EntryAt s md r { way := w } := by
  refine ⟨w, ?_, by simp [tget, absent]⟩
  cases needs : reqEntry r.kind with
  | true => simp [absent, room needs]
  | false => simp [noEntry needs]

/-- The request's context may access its line, where its kind is checked (R282). -/
def ReqMay (s : State) (r : HomeReq) : Prop := ∀ w, reqWrite r.kind = some w → claimOk s r.ctx (r.line * 64) w = true

theorem reqMay_of_checked {s : State} {r : HomeReq} {w : Bool} (checked : reqWrite r.kind = some w)
    (may : claimOk s r.ctx (r.line * 64) w = true) : ReqMay s r := by
  intro v isChecked
  obtain rfl := Option.some.inj (checked.symm.trans isChecked)
  exact may

/-- A request whose line is free, whose context may access it and which has an entry is acted on at once. -/
theorem homeArrive_eq {s : State} {md : Nat} {r : HomeReq} {e : DirEntry} (free : HomeFree s md r.line) (may : ReqMay s r)
    (entry : EntryAt s md r e) : homeArrive s md r = homeAct (s.begun md r e) md r e := by
  obtain ⟨mem, home, noTxn, few, noWait⟩ := free
  obtain ⟨w, room, rfl⟩ := entry
  have noMate : (s.home md).waiting.any (fun q => q.line == r.line) = false := by simpa using noWait
  have begins : homeArrive s md r = homeBegin (recv s (.home md r)) md r := by
    simp [homeArrive, mem, home, noTxn, noMate, Nat.not_le.2 few]
  rw [begins]
  have seed : dirSeed (touch (claimCacheFill (recv s (.home md r)) (r.line * 64)) r.line) md = dirSeed s md :=
    read_of_stored (by simp) (dirSeed · md) fun _ => rfl
  have out : wayOut (touch (claimCacheFill (recv s (.home md r)) (r.line * 64)) r.line) (5 + md) 1 = wayOut s (5 + md) 1 :=
    read_of_stored (by simp) (wayOut · (5 + md) 1) fun _ => rfl
  have check (w : Bool) : claimOk (touch (claimCacheFill (recv s (.home md r)) (r.line * 64)) r.line) r.ctx (r.line * 64) w =
      claimOk s r.ctx (r.line * 64) w := claimOk_claimCacheFill mem ..
  have passes : ∀ w, reqWrite r.kind = some w → (!claimOk s r.ctx (r.line * 64) w) = false := by
    intro w kind
    rw [may w kind]
    rfl
  unfold homeBegin homeAct
  simp only [home_touch, home_claimCacheFill, home_recv, home_begun, seed, out, check, room]
  cases kind : reqWrite r.kind with
  | none => rfl
  | some w =>
    simp only [passes w kind]
    rfl

end Sys2Proof.Machine
end

section
/-! PROOF. Homes: what a home answers to a request for a line that nobody holds (R243, R244, R246, R248 to R252, R260). -/

namespace Sys2Proof.Machine

/-! ## Answers -/

/-- A caching agent is answered with a grant. -/
theorem grant_mem_answer {r : HomeReq} (caches : reqEntry r.kind = true) (s : State) (st : Moesi) (d : Line) (p : Bool) :
    Msg.grant r.src r.line st d p ∈ (answer s r st d p).net := by
  unfold answer
  split <;> simp_all [reqEntry]

/-- Any other request is answered with data or completion. -/
theorem once_mem_answer {r : HomeReq} (plain : reqEntry r.kind = false) (s : State) (st : Moesi) (d : Line) (p : Bool) :
    Msg.once r.src r.line d p (st == .i) ∈ (answer s r st d p).net := by
  unfold answer
  split <;> simp_all [reqEntry]

/-- A line has been granted in state `st`, with the requester as its owner in way `w` of the directory. -/
def LineGranted (t : State) (md src ln w : Nat) (st : Moesi) (d : Line) (p : Bool) : Prop :=
  Msg.grant src ln st d p ∈ t.net ∧
    ∃ e, tget? (t.home md).dir ln = some e ∧ e.dstate = 2 ∧ e.owner = src ∧ e.way = w ∧ e.sharers = []

/-- A grant of M drops the L3's copy and names the requester as owner (R243). -/
theorem home_grantM (s : State) (md : Nat) (r : HomeReq) (d : Line) (p : Bool) (w : Nat) : (grantM s md r d p w).home md =
    { l3Drop (s.home md) r.line with dir := tset (s.home md).dir r.line ⟨2, r.src, [none, none, none, none], w⟩ } := by
  rw [grantM, home_answer, home_setDir_of_listed _ _ _ (by decide : (2 : BitVec 3) ≠ 0), home_modHome_self]
  rfl

theorem grantM_spec (s : State) (md : Nat) {r : HomeReq} (caches : reqEntry r.kind = true) (d : Line) (p : Bool) (w : Nat) :
    let t := grantM s md r d p w
    t.stored = s.stored ∧ LineGranted t md r.src r.line w .m d p ∧ l3Copy (t.home md) r.line = none := by
  refine ⟨by simp [grantM], ⟨grant_mem_answer caches .., ⟨2, r.src, [none, none, none, none], w⟩, ?_, rfl, rfl, rfl, rfl⟩, ?_⟩
    <;> rw [home_grantM]
  · exact tget?_tset_self ..
  · exact l3Copy_l3Drop ..

/-- What a request leaves that ends in such a grant, having changed no stored line before. -/
theorem granted_of_grantM {s t : State} {md w : Nat} {r : HomeReq} {d : Line} {p : Bool} (caches : reqEntry r.kind = true)
    (ends : ∃ v : State, v.stored = s.stored ∧ t = grantM v md r d p w) :
    t.stored = s.stored ∧ LineGranted t md r.src r.line w .m d p ∧ l3Copy (t.home md) r.line = none := by
  obtain ⟨v, same, rfl⟩ := ends
  obtain ⟨kept, granted⟩ := grantM_spec v md caches d p w
  exact ⟨kept.trans same, granted⟩

/-- A read that finds no copy in the L3 is an access of the HBM (R300). -/
def readUse (s : State) (md ln : Nat) (ctx : BitVec 16) : State :=
  if (l3Copy (s.home md) ln).isNone then hbmUse s ln ctx false true else s

@[simp] theorem stored_readUse (s : State) (md ln : Nat) (ctx : BitVec 16) : (readUse s md ln ctx).stored = s.stored := by
  unfold readUse
  split <;> simp

@[simp] theorem home_readUse (s : State) (md ln : Nat) (ctx : BitVec 16) (k : Nat) : (readUse s md ln ctx).home k = s.home k := by
  unfold readUse
  split <;> simp

/-- A read of a line that nobody holds, which the L3 does not hold dirty, is granted E (R243). -/
theorem grantRead_of_clean {s : State} {md : Nat} {r : HomeReq} {e : DirEntry} (caches : reqEntry r.kind = true)
    (vacant : e.dstate = 0) (alone : e.sharers = [])
    (clean : ((l3Copy (s.home md) r.line).map (·.dirty)).getD false = false) :
    let t := grantRead s md r e
    t.stored = s.stored ∧ LineGranted t md r.src r.line e.way .e (belowLine s r.line).1 (belowLine s r.line).2 := by
  have run : grantRead s md r e = answer (setDir (readUse s md r.line r.ctx) md r.line { e with dstate := 2, owner := r.src })
      r .e (belowLine s r.line).1 (belowLine s r.line).2 := by
    simp only [grantRead, vacant, clean, if_true, Bool.false_eq_true, if_false]
    rfl
  rw [run]
  refine ⟨by simp, grant_mem_answer caches .., { e with dstate := 2, owner := r.src }, ?_, rfl, rfl, rfl, alone⟩
  rw [home_answer, home_setDir_of_listed _ _ _ (by decide : (2 : BitVec 3) ≠ 0)]
  exact tget?_tset_self ..

/-- One that the L3 holds dirty is granted M (R243). -/
theorem grantRead_of_dirty {s : State} {md : Nat} {r : HomeReq} {e : DirEntry} (vacant : e.dstate = 0)
    (dirty : ((l3Copy (s.home md) r.line).map (·.dirty)).getD false = true) :
    grantRead s md r e = grantM (readUse s md r.line r.ctx) md r (belowLine s r.line).1 (belowLine s r.line).2 e.way := by
  simp only [grantRead, vacant, dirty, if_true]
  rfl

/-! ## Transactions without Invals -/

/-- With nobody but a possible owner to ask, an invalidating request goes on to that owner at once (R250). -/
theorem openInval_of_alone {s : State} {md : Nat} {r : HomeReq} {e : DirEntry} {k : Bool} (few : e.avalanche = false)
    (alone : e.sharers = []) (asked : e.own = none ∨ k = true) :
    openInval s md r e k = txnStep s md r.line ⟨r, [], e.own, none, false, false⟩ := by
  have targets : invalTargets s e r.src = [] := by simp [invalTargets, few, alone]
  have count : countBcast s md e = s := by simp [countBcast, few]
  rcases asked with nobody | rfl
  · simp [openInval, targets, count, few, nobody, sendInvals]
  · cases owner : e.own <;> simp [openInval, targets, count, few, owner, sendInvals]

/-- The way that a new entry takes is the one found when the request began. -/
theorem newWay_eq {s t : State} {md ln w : Nat} (same : t.stored = s.stored) (home : t.home md = s.home md)
    (room : dirRoom (s.home md) (dirSeed s md) ln (wayOut s (5 + md) 1) = .way w) : newWay t md ln = w := by
  have seed : dirSeed t md = dirSeed s md := read_of_stored same (dirSeed · md) fun _ => rfl
  have out : wayOut t (5 + md) 1 = wayOut s (5 + md) 1 := read_of_stored same (wayOut · (5 + md) 1) fun _ => rfl
  rw [newWay, home, seed, out, room]

/-- A new entry is put into that way. -/
theorem entry_way_of_absent {s t : State} {md ln w : Nat} (same : t.stored = s.stored) (home : t.home md = s.home md)
    (absent : tget? (s.home md).dir ln = none)
    (room : dirRoom (s.home md) (dirSeed s md) ln (wayOut s (5 + md) 1) = .way w) :
    (tget (t.home md).dir ln { way := newWay t md ln }).way = w := by
  rw [newWay_eq same home room, home, tget, absent]
  rfl

/-- An absent entry that is freed leaves the home as it was. -/
theorem home_setDir_of_absent {s : State} {md ln : Nat} {e : DirEntry} (absent : tget? (s.home md).dir ln = none)
    (vacant : e.dstate = 0) : (setDir s md ln e).home md = s.home md := by
  rw [home_setDir_of_vacant _ _ _ vacant, tdel_of_absent absent]

section
variable (s : State) (md ln src : Nat) (ctx : BitVec 16)

theorem txnStep_ru : txnStep s md ln ⟨⟨.ru, src, ctx, ln⟩, [], none, none, false, false⟩ =
    grantM (readUse (endTxn s md ln) md ln ctx) md ⟨.ru, src, ctx, ln⟩ (belowLine (endTxn s md ln) ln).1
      (belowLine (endTxn s md ln) ln).2 (tget (s.home md).dir ln { way := newWay s md ln }).way := rfl

theorem txnStep_zero : txnStep s md ln ⟨⟨.zero, src, ctx, ln⟩, [], none, none, false, false⟩ =
    grantM (endTxn s md ln) md ⟨.zero, src, ctx, ln⟩ 0 false (tget (s.home md).dir ln { way := newWay s md ln }).way := rfl

theorem txnStep_upg (absent : agentLine s src ln = none) :
    txnStep s md ln ⟨⟨.upg, src, ctx, ln⟩, [], none, none, false, false⟩ =
      grantM (endTxn s md ln) md ⟨.upg, src, ctx, ln⟩ (belowLine (endTxn s md ln) ln).1 (belowLine (endTxn s md ln) ln).2
        (tget (s.home md).dir ln { way := newWay s md ln }).way := by
  have none : agentLine (endTxn s md ln) src ln = Option.none := absent
  simp [txnStep, none]

theorem txnStep_rdonce : txnStep s md ln ⟨⟨.rdonce, src, ctx, ln⟩, [], none, none, false, false⟩ =
    answer (readUse (endTxn s md ln) md ln ctx) ⟨.rdonce, src, ctx, ln⟩ .s (belowLine (endTxn s md ln) ln).1
      (belowLine (endTxn s md ln) ln).2 := rfl
end

/-- A UPG of an agent that the home does not know to hold the line is served as RU (R246). -/
theorem homeAct_upg_of_unknown {s : State} {md src ln : Nat} {ctx : BitVec 16} {e : DirEntry} (nobody : e.own = none)
    (few : e.avalanche = false) (alone : e.sharers = []) :
    homeAct s md ⟨.upg, src, ctx, ln⟩ e = openInval (setDir s md ln e) md ⟨.upg, src, ctx, ln⟩ e true := by
  simp [homeAct, homeKnows, nobody, few, alone]

/-! ## Requests for a line that nobody holds -/

section
variable {s : State} {md src ln w : Nat} {ctx : BitVec 16} (free : HomeFree s md ln) (absent : tget? (s.home md).dir ln = none)
include free absent

section
variable (may : claimOk s ctx (ln * 64) false = true)
include may

theorem homeReadShared_of_absent (room : dirRoom (s.home md) (dirSeed s md) ln (wayOut s (5 + md) 1) = .way w) :
    homeArrive s md ⟨.rs, src, ctx, ln⟩ =
      grantRead (s.begun md ⟨.rs, src, ctx, ln⟩ { way := w }) md ⟨.rs, src, ctx, ln⟩ { way := w } :=
  homeArrive_eq free (r := ⟨.rs, src, ctx, ln⟩) (reqMay_of_checked rfl may) (entryAt_of_room absent (fun _ => room) (by rintro ⟨⟩))

/-- RS of a line that the L3 does not hold dirty ends in a grant of E (R243). -/
theorem homeReadShared_of_clean (room : dirRoom (s.home md) (dirSeed s md) ln (wayOut s (5 + md) 1) = .way w)
    (clean : ((l3Copy (s.home md) ln).map (·.dirty)).getD false = false) :
    let t := homeArrive s md ⟨.rs, src, ctx, ln⟩
    t.stored = s.stored ∧ LineGranted t md src ln w .e (belowLine s ln).1 (belowLine s ln).2 := by
  rw [homeReadShared_of_absent free absent may room]
  have granted := grantRead_of_clean (s := s.begun md ⟨.rs, src, ctx, ln⟩ { way := w }) (md := md) (r := ⟨.rs, src, ctx, ln⟩)
    (e := { way := w }) rfl rfl rfl (by rwa [home_begun])
  simpa only [stored_begun, belowLine_begun] using granted

/-- RS of one that it holds dirty ends in a grant of M (R243). -/
theorem homeReadShared_of_dirty (room : dirRoom (s.home md) (dirSeed s md) ln (wayOut s (5 + md) 1) = .way w)
    (dirty : ((l3Copy (s.home md) ln).map (·.dirty)).getD false = true) :
    ∃ v : State, v.stored = s.stored ∧ homeArrive s md ⟨.rs, src, ctx, ln⟩ =
      grantM v md ⟨.rs, src, ctx, ln⟩ (belowLine s ln).1 (belowLine s ln).2 w := by
  have granted := grantRead_of_dirty (s := s.begun md ⟨.rs, src, ctx, ln⟩ { way := w }) (md := md) (r := ⟨.rs, src, ctx, ln⟩)
    (e := { way := w }) rfl (by rwa [home_begun])
  refine ⟨_, ?_, (homeReadShared_of_absent free absent may room).trans (granted.trans (by rw [belowLine_begun]))⟩
  rw [stored_readUse, stored_begun]

/-- RDONCE is answered with the line's value (R244). -/
theorem homeRdonce_of_absent : ∃ v : State, v.stored = s.stored ∧ homeArrive s md ⟨.rdonce, src, ctx, ln⟩ =
    answer v ⟨.rdonce, src, ctx, ln⟩ .s (belowLine s ln).1 (belowLine s ln).2 := by
  let u := s.begun md ⟨.rdonce, src, ctx, ln⟩ {}
  have begun := homeArrive_eq free (r := ⟨.rdonce, src, ctx, ln⟩) (reqMay_of_checked rfl may)
    (entryAt_of_room absent (by rintro ⟨⟩) fun _ => rfl)
  exact ⟨readUse (endTxn u md ln) md ln ctx, by simp [u], (begun.trans (txnStep_rdonce u md ln src ctx)).trans (by simp [u])⟩
end

section
variable (may : claimOk s ctx (ln * 64) true = true)
include may

/-- RU ends in a grant of M with the line's value (R243). -/
theorem homeReadUnique_of_absent (room : dirRoom (s.home md) (dirSeed s md) ln (wayOut s (5 + md) 1) = .way w) :
    ∃ v : State, v.stored = s.stored ∧ homeArrive s md ⟨.ru, src, ctx, ln⟩ =
      grantM v md ⟨.ru, src, ctx, ln⟩ (belowLine s ln).1 (belowLine s ln).2 w := by
  let u := setDir (s.begun md ⟨.ru, src, ctx, ln⟩ { way := w }) md ln { way := w }
  have begun := homeArrive_eq free (r := ⟨.ru, src, ctx, ln⟩) (reqMay_of_checked rfl may)
    (entryAt_of_room absent (fun _ => room) (by rintro ⟨⟩))
  have home : u.home md = s.home md :=
    (home_setDir_of_absent (by rw [home_begun, absent]) rfl).trans (home_begun ..)
  have act : homeAct (s.begun md ⟨.ru, src, ctx, ln⟩ { way := w }) md ⟨.ru, src, ctx, ln⟩ { way := w } =
      openInval u md ⟨.ru, src, ctx, ln⟩ { way := w } true := rfl
  have run := ((begun.trans act).trans (openInval_of_alone rfl rfl (.inl rfl))).trans (txnStep_ru u md ln src ctx)
  rw [entry_way_of_absent (t := u) (by simp [u]) home absent room] at run
  exact ⟨readUse (endTxn u md ln) md ln ctx, by simp [u], run.trans (by simp [u])⟩

/-- So does UPG of a requester that holds no copy (R246). -/
theorem homeUpgrade_of_absent (room : dirRoom (s.home md) (dirSeed s md) ln (wayOut s (5 + md) 1) = .way w)
    (noCopy : agentLine s src ln = none) :
    ∃ v : State, v.stored = s.stored ∧ homeArrive s md ⟨.upg, src, ctx, ln⟩ =
      grantM v md ⟨.upg, src, ctx, ln⟩ (belowLine s ln).1 (belowLine s ln).2 w := by
  let u := setDir (s.begun md ⟨.upg, src, ctx, ln⟩ { way := w }) md ln { way := w }
  have begun := homeArrive_eq free (r := ⟨.upg, src, ctx, ln⟩) (reqMay_of_checked rfl may)
    (entryAt_of_room absent (fun _ => room) (by rintro ⟨⟩))
  have home : u.home md = s.home md :=
    (home_setDir_of_absent (by rw [home_begun, absent]) rfl).trans (home_begun ..)
  have noLine : agentLine u src ln = none := (agentLine_begun ..).trans noCopy
  have act : homeAct (s.begun md ⟨.upg, src, ctx, ln⟩ { way := w }) md ⟨.upg, src, ctx, ln⟩ { way := w } =
      openInval u md ⟨.upg, src, ctx, ln⟩ { way := w } true := homeAct_upg_of_unknown rfl rfl rfl
  have run := ((begun.trans act).trans (openInval_of_alone rfl rfl (.inl rfl))).trans (txnStep_upg u md ln src ctx noLine)
  rw [entry_way_of_absent (t := u) (by simp [u]) home absent room] at run
  exact ⟨endTxn u md ln, by simp [u], run.trans (by simp [u])⟩

/-- ZERO ends in a grant of M with zeros (R243). -/
theorem homeZero_of_absent (room : dirRoom (s.home md) (dirSeed s md) ln (wayOut s (5 + md) 1) = .way w) :
    ∃ v : State, v.stored = s.stored ∧ homeArrive s md ⟨.zero, src, ctx, ln⟩ = grantM v md ⟨.zero, src, ctx, ln⟩ 0 false w := by
  let u := s.begun md ⟨.zero, src, ctx, ln⟩ { way := w }
  have begun := homeArrive_eq free (r := ⟨.zero, src, ctx, ln⟩) (reqMay_of_checked rfl may)
    (entryAt_of_room absent (fun _ => room) (by rintro ⟨⟩))
  have act : homeAct u md ⟨.zero, src, ctx, ln⟩ { way := w } = openInval u md ⟨.zero, src, ctx, ln⟩ { way := w } false := rfl
  have run := ((begun.trans act).trans (openInval_of_alone rfl rfl (.inl rfl))).trans (txnStep_zero u md ln src ctx)
  rw [entry_way_of_absent (t := u) (by simp [u]) (by simp [u]) absent room] at run
  exact ⟨endTxn u md ln, by simp [u], run⟩

/-- A request that writes or flushes finishes at once (R244, R260). -/
theorem homeFlushing_of_absent {kind : ReqKind}
    (flushes : kind = .flush ∨ (∃ d, kind = .wrline d) ∨ ∃ d m, kind = .wrpart d m) :
    homeArrive s md ⟨kind, src, ctx, ln⟩ =
      finishFlush (endTxn (s.begun md ⟨kind, src, ctx, ln⟩ {}) md ln) md ⟨kind, src, ctx, ln⟩ none := by
  have begun (plain : reqEntry kind = false) (write : reqWrite kind = some true) :=
    homeArrive_eq free (r := ⟨kind, src, ctx, ln⟩) (reqMay_of_checked write may)
      (entryAt_of_room absent (by simp [plain]) fun _ => rfl)
  rcases flushes with rfl | ⟨d, rfl⟩ | ⟨d, m, rfl⟩ <;>
    exact ((begun rfl rfl).trans (openInval_of_alone (e := {}) rfl rfl (.inl rfl))).trans rfl

/-- CLEAN is answered; with no owner, only the L3's copy is to be written (R260). -/
theorem homeClean_of_absent :
    ∃ v : State, homeArrive s md ⟨.clean, src, ctx, ln⟩ = answer v ⟨.clean, src, ctx, ln⟩ .s 0 false := by
  let u := s.begun md ⟨.clean, src, ctx, ln⟩ {}
  have begun := homeArrive_eq free (r := ⟨.clean, src, ctx, ln⟩) (reqMay_of_checked rfl may)
    (entryAt_of_room absent (by rintro ⟨⟩) fun _ => rfl)
  have nobody : ownerOf u ln = none := by
    have home : homeOfLine u ln = md := (homeOfLine_of_stored (by simp [u]) ln).trans free.home
    simp only [ownerOf, dirOf, home, u, home_begun, absent]
  rw [begun]
  show ∃ v, doClean u md ⟨.clean, src, ctx, ln⟩ = answer v ⟨.clean, src, ctx, ln⟩ .s 0 false
  simp only [doClean, nobody]
  exact ⟨_, rfl⟩
end
end

/-! ## The end of a write or a flush (R244, R251, R260) -/

/-- The state in which a write or a flush takes effect: the requester's own copy is gone, and the line's entry is freed. -/
def State.flushed (s : State) (md : Nat) (r : HomeReq) : State :=
  modHome (if r.src < 64 then dropAgentLine (mergeL1 (staleWb s r.src r.line) r.src r.line) r.src r.line else s) md
    fun h => { h with dir := tdel h.dir r.line }

@[simp] theorem stored_flushed (s : State) (md : Nat) (r : HomeReq) : (s.flushed md r).stored = s.stored := by
  rw [State.flushed, stored_modHome]
  split <;> simp

@[simp] theorem belowLine_flushed (s : State) (md : Nat) (r : HomeReq) (ln : Nat) :
    belowLine (s.flushed md r) ln = belowLine s ln := by
  rw [State.flushed, belowLine_modHome _ _ (fun h => { h with dir := tdel h.dir r.line }) fun _ => ⟨rfl, rfl⟩]
  split
  · exact belowLine_of_stored (by simp) (by simp)
  · rfl

/-- A flush drops the L3's copy and is answered. -/
theorem finishFlush_flush {s : State} {md src ln : Nat} {ctx : BitVec 16} :
    let t := finishFlush s md ⟨.flush, src, ctx, ln⟩ none
    Msg.once src ln 0 false false ∈ t.net ∧ l3Copy (t.home md) ln = none := by
  have run : finishFlush s md ⟨.flush, src, ctx, ln⟩ none =
      answer (modHome (cleanBelow (s.flushed md ⟨.flush, src, ctx, ln⟩) md ln none) md fun h => l3Drop h ln)
        ⟨.flush, src, ctx, ln⟩ .s 0 false := rfl
  rw [run]
  refine ⟨once_mem_answer (r := ⟨.flush, src, ctx, ln⟩) rfl _ .s 0 false, ?_⟩
  rw [home_answer, home_modHome_self]
  exact l3Copy_l3Drop ..

theorem finishFlush_wrline (s : State) (md src ln : Nat) (ctx : BitVec 16) (d : Line) :
    let r : HomeReq := ⟨.wrline d, src, ctx, ln⟩
    finishFlush s md r none = wakeResv (answer (touch (putBelow (s.flushed md r) ln d false) ln) r .s 0 false) ln := rfl

theorem finishFlush_wrpart (s : State) (md src ln : Nat) (ctx : BitVec 16) (d : Line) (m : W64) :
    let r : HomeReq := ⟨.wrpart d m, src, ctx, ln⟩
    finishFlush s md r none = wakeResv (answer (touch (putBelow (s.flushed md r) ln
      (mergeBytes (belowLine s ln).1 d m) (belowLine s ln).2) ln) r .s 0 false) ln := by
  intro r
  rw [← belowLine_flushed s md r ln]
  rfl

/-- A write puts its bytes below the caches and is answered. -/
theorem written_spec {s t u : State} {r : HomeReq} {d : Line} {p : Bool} (plain : reqEntry r.kind = false)
    (same : u.stored = s.stored)
    (run : t = wakeResv (answer (touch (putBelow u r.line d p) r.line) r .s 0 false) r.line) :
    Msg.once r.src r.line 0 false false ∈ t.net ∧ (lineRetired s r.line = false → (belowLine t r.line).1 = d) := by
  refine ⟨run ▸ once_mem_answer plain _ .s 0 false, fun inUse => ?_⟩
  have below : belowLine t r.line = belowLine (putBelow u r.line d p) r.line := by
    rw [run]
    exact belowLine_of_stored (by simp) (by simp)
  rw [below, belowLine_putBelow ((lineRetired_of_stored same _).trans inUse)]

section
variable {s : State} {md src ln : Nat} {ctx : BitVec 16} (free : HomeFree s md ln) (absent : tget? (s.home md).dir ln = none)
  (may : claimOk s ctx (ln * 64) true = true)
include free absent may

/-- WRLINE puts its line below (R244). -/
theorem homeWrline_of_absent (d : Line) :
    let t := homeArrive s md ⟨.wrline d, src, ctx, ln⟩
    Msg.once src ln 0 false false ∈ t.net ∧ (lineRetired s ln = false → (belowLine t ln).1 = d) := by
  have run := homeFlushing_of_absent (src := src) free absent may (.inr (.inl ⟨d, rfl⟩))
  exact written_spec (r := ⟨.wrline d, src, ctx, ln⟩) rfl (by simp) (run.trans (finishFlush_wrline ..))

/-- WRPART puts the line with its bytes merged in below (R244). -/
theorem homeWrpart_of_absent (d : Line) (m : W64) :
    let t := homeArrive s md ⟨.wrpart d m, src, ctx, ln⟩
    Msg.once src ln 0 false false ∈ t.net ∧
      (lineRetired s ln = false → (belowLine t ln).1 = mergeBytes (belowLine s ln).1 d m) := by
  have run := homeFlushing_of_absent (src := src) free absent may (.inr (.inr ⟨d, m, rfl⟩))
  rw [finishFlush_wrpart, belowLine_endTxn, belowLine_begun] at run
  exact written_spec (r := ⟨.wrpart d m, src, ctx, ln⟩) rfl (by simp) run

theorem homeFlush_of_absent :
    let t := homeArrive s md ⟨.flush, src, ctx, ln⟩
    Msg.once src ln 0 false false ∈ t.net ∧ l3Copy (t.home md) ln = none := by
  rw [homeFlushing_of_absent (src := src) free absent may (.inl rfl)]
  exact finishFlush_flush
end

end Sys2Proof.Machine
end

section
/-! PROOF. What a home asks of a line's owner, and the replies that end its transactions (R240, R242, R243, R245, R249). -/

namespace Sys2Proof.Machine

/-! ## Entries with an owner and no sharer -/

/-- An entry that names an owner and nobody else (R248). -/
structure OwnedAlone (e : DirEntry) (o : Nat) : Prop where
  dstate : e.dstate = 2
  owner : e.owner = o
  ptrs : e.ptrs = [none, none, none, none]

section
variable {e : DirEntry} {o : Nat} (owned : OwnedAlone e o)
include owned

theorem OwnedAlone.own : e.own = some o := by simp [DirEntry.own, owned.dstate, owned.owner]
theorem OwnedAlone.few : e.avalanche = false := by simp [DirEntry.avalanche, owned.dstate]
theorem OwnedAlone.alone : e.sharers = [] := by simp [DirEntry.sharers, owned.ptrs]
theorem OwnedAlone.listed : e.dstate ≠ 0 := by simp [owned.dstate]
end

/-! ## The owner is asked (R240, R243, R245) -/

/-- A home has sent `m` about line `ln` and holds transaction `x` open for the reply; its entry is `e` still. -/
def OwnerAsked (t : State) (md ln : Nat) (e : DirEntry) (x : Txn) (m : Msg) : Prop :=
  m ∈ t.net ∧ tget? (t.home md).txns ln = some x ∧ tget? (t.home md).dir ln = some e

/-- The transaction of a request that waits for nobody but owner `o`. -/
abbrev ownerTxn (kind : ReqKind) (src : Nat) (ctx : BitVec 16) (ln o : Nat) : Txn :=
  ⟨⟨kind, src, ctx, ln⟩, [], some o, none, false, false⟩

/-- A step of a transaction that sends a message to the owner. -/
theorem ownerAsked_of_send {s t u : State} {md ln : Nat} {e : DirEntry} {x : Txn} {m : Msg}
    (run : t = send (setTxn u md ln x) m) (same : u.stored = s.stored) (listed : tget? (u.home md).dir ln = some e) :
    t.stored = s.stored ∧ OwnerAsked t md ln e x m := by
  subst run
  refine ⟨same, List.mem_append_right _ List.mem_cons_self, ?_, ?_⟩ <;> rw [home_send, home_setTxn]
  · exact tget?_tset_self ..
  · exact listed

section
variable (s : State) (md ln src o : Nat) (ctx : BitVec 16)

theorem txnStep_rs_of_owner : txnStep s md ln (ownerTxn .rs src ctx ln o) =
    send (setTxn s md ln (ownerTxn .rs src ctx ln o)) (.fwdShared o ln src) := rfl
theorem txnStep_ru_of_owner : txnStep s md ln (ownerTxn .ru src ctx ln o) =
    send (setTxn s md ln (ownerTxn .ru src ctx ln o)) (.fwdUnique o ln src) := rfl
theorem txnStep_rdonce_of_owner : txnStep s md ln (ownerTxn .rdonce src ctx ln o) =
    send (setTxn s md ln (ownerTxn .rdonce src ctx ln o)) (.fwdOnce o ln src) := rfl
theorem txnStep_flush_of_owner : txnStep s md ln (ownerTxn .flush src ctx ln o) =
    send (setTxn s md ln (ownerTxn .flush src ctx ln o)) (.recall o ln) := rfl
end

section
variable {s : State} {md src ln o : Nat} {ctx : BitVec 16} {e : DirEntry} (free : HomeFree s md ln)
  (listed : tget? (s.home md).dir ln = some e) (owned : OwnedAlone e o)
include free listed owned

/-- A read of a line with an owner is forwarded to it. -/
theorem homeReadShared_of_owned (may : claimOk s ctx (ln * 64) false = true) :
    let t := homeArrive s md ⟨.rs, src, ctx, ln⟩
    t.stored = s.stored ∧ OwnerAsked t md ln e (ownerTxn .rs src ctx ln o) (.fwdShared o ln src) := by
  have begun := homeArrive_eq free (r := ⟨.rs, src, ctx, ln⟩) (reqMay_of_checked rfl may) (entryAt_of_listed listed)
  have act (u : State) : homeAct u md ⟨.rs, src, ctx, ln⟩ e = txnStep u md ln (ownerTxn .rs src ctx ln o) := by
    simp only [homeAct, owned.own]
  exact ownerAsked_of_send ((begun.trans (act _)).trans (txnStep_rs_of_owner ..)) (stored_begun ..) (by rw [home_begun, listed])

theorem homeRdonce_of_owned (may : claimOk s ctx (ln * 64) false = true) :
    let t := homeArrive s md ⟨.rdonce, src, ctx, ln⟩
    t.stored = s.stored ∧ OwnerAsked t md ln e (ownerTxn .rdonce src ctx ln o) (.fwdOnce o ln src) := by
  have begun := homeArrive_eq free (r := ⟨.rdonce, src, ctx, ln⟩) (reqMay_of_checked rfl may) (entryAt_of_listed listed)
  have act (u : State) : homeAct u md ⟨.rdonce, src, ctx, ln⟩ e = txnStep u md ln (ownerTxn .rdonce src ctx ln o) := by
    simp only [homeAct, owned.own]
  exact ownerAsked_of_send ((begun.trans (act _)).trans (txnStep_rdonce_of_owner ..)) (stored_begun ..)
    (by rw [home_begun, listed])

/-- Before a write the owner is asked for its copy. -/
theorem homeReadUnique_of_owned (may : claimOk s ctx (ln * 64) true = true) :
    let t := homeArrive s md ⟨.ru, src, ctx, ln⟩
    t.stored = s.stored ∧ OwnerAsked t md ln e (ownerTxn .ru src ctx ln o) (.fwdUnique o ln src) := by
  have begun := homeArrive_eq free (r := ⟨.ru, src, ctx, ln⟩) (reqMay_of_checked rfl may) (entryAt_of_listed listed)
  have act (u : State) : openInval u md ⟨.ru, src, ctx, ln⟩ e true = txnStep u md ln (ownerTxn .ru src ctx ln o) :=
    (openInval_of_alone owned.few owned.alone (.inr rfl)).trans (by rw [owned.own])
  refine ownerAsked_of_send ((begun.trans (act _)).trans (txnStep_ru_of_owner ..)) (stored_begun ..) ?_
  rw [home_setDir_of_listed _ _ _ owned.listed]
  exact tget?_tset_self ..

theorem homeFlush_of_owned (may : claimOk s ctx (ln * 64) true = true) :
    let t := homeArrive s md ⟨.flush, src, ctx, ln⟩
    t.stored = s.stored ∧ OwnerAsked t md ln e (ownerTxn .flush src ctx ln o) (.recall o ln) := by
  have begun := homeArrive_eq free (r := ⟨.flush, src, ctx, ln⟩) (reqMay_of_checked rfl may) (entryAt_of_listed listed)
  have act (u : State) : openInval u md ⟨.flush, src, ctx, ln⟩ e true = txnStep u md ln (ownerTxn .flush src ctx ln o) :=
    (openInval_of_alone owned.few owned.alone (.inr rfl)).trans (by rw [owned.own])
  exact ownerAsked_of_send ((begun.trans (act _)).trans (txnStep_flush_of_owner ..)) (stored_begun ..)
    (by rw [home_begun, listed])
end

/-! ## Requests that wait (R242, R243) -/

/-- A request behind a transaction waits. -/
theorem homeArrive_of_txn {s : State} {md : Nat} {r : HomeReq} {x : Txn} (mem : isMem (r.line * 64) = true)
    (home : homeOfLine s r.line = md) (opened : tget? (s.home md).txns r.line = some x) :
    homeArrive s md r = homeWait (recv s (.home md r)) md r := by
  simp [homeArrive, mem, home, opened]

/-- A waiting request begins when the line is free. -/
theorem homeQueued_eq {s : State} {md ln : Nat} {r : HomeReq} (oldest : (s.home md).waiting.find? (fun q => q.line == ln) = some r)
    (noTxn : tget? (s.home md).txns ln = none) (few : (s.home md).txns.length < 1024) :
    homeQueued s md ln = homeBegin (modHome s md fun h => { h with waiting := h.waiting.erase r }) md r := by
  simp [homeQueued, oldest, noTxn, Nat.not_le.2 few]

/-! ## Replies (R243, R245, R249) -/

theorem OwnedAlone.eq {e : DirEntry} {o : Nat} (owned : OwnedAlone e o) : e = ⟨2, o, [none, none, none, none], e.way⟩ := by
  obtain ⟨dstate, owner, ptrs⟩ := owned
  rw [← dstate, ← owner, ← ptrs]

/-- A reader that joins an owner takes the first pointer (R249). -/
theorem home_shareDir_of_owned (s : State) (md ln o src w : Nat) :
    (shareDir s md ln ⟨3, o, [none, none, none, none], w⟩ src).home md =
      { s.home md with dir := tset (s.home md).dir ln ⟨3, o, [some src, none, none, none], w⟩ } ∧
    (shareDir s md ln ⟨3, o, [none, none, none, none], w⟩ src).stored = s.stored := by
  have joined : DirEntry.addSharer ⟨3, o, [none, none, none, none], w⟩ src = ⟨3, o, [some src, none, none, none], w⟩ := by
    simp [DirEntry.addSharer, DirEntry.avalanche, DirEntry.sharers, DirEntry.own, putPtr]
  have run : shareDir s md ln ⟨3, o, [none, none, none, none], w⟩ src =
      setDir s md ln ⟨3, o, [some src, none, none, none], w⟩ := by
    rw [shareDir, joined]
    rfl
  rw [run]
  exact ⟨home_setDir_of_listed _ _ _ (by decide : (3 : BitVec 3) ≠ 0), stored_setDir ..⟩

section
variable {s : State} {md a ln : Nat} {x : Txn} (opened : tget? (s.home md).txns ln = some x)
include opened

/-- The last acknowledgement of a ZERO grants M. -/
theorem homeReply_of_last_ack (sent : Msg.reply md a ln .ack ∈ s.net) (install : x.evict = false) (last : x.acks = [a])
    (nobody : x.owner = none) (zero : x.req.kind = .zero) :
    let t := homeReply s md a ln .ack
    t.stored = s.stored ∧ tget? (t.home md).txns ln = none ∧ Msg.grant x.req.src x.req.line .m 0 false ∈ t.net := by
  let u := endTxn (recv s (.reply md a ln .ack)) md ln
  have run : ∃ w, homeReply s md a ln .ack = grantM u md x.req 0 false w := by
    simp [homeReply, sent, opened, last, txnStep, nobody, install, zero, u]
  obtain ⟨w, run⟩ := run
  obtain ⟨same, ⟨grant, -⟩, -⟩ := grantM_spec u md (r := x.req) (by rw [zero]; rfl) 0 false w
  rw [run]
  refine ⟨same, ?_, grant⟩
  rw [home_grantM, home_endTxn]
  exact tget?_tdel_self ..

/-- The owner has sent its dirty data to a reader: both hold the line, and the owner stays (R240). -/
theorem homeReply_of_shared {e : DirEntry} {o : Nat} (sent : Msg.reply md a ln (.forwarded true false) ∈ s.net)
    (asked : x.owner = some a) (read : x.req.kind = .rs) (listed : tget? (s.home md).dir ln = some e) (owned : OwnedAlone e o) :
    let t := homeReply s md a ln (.forwarded true false)
    t.stored = s.stored ∧ tget? (t.home md).txns ln = none ∧
      tget? (t.home md).dir ln = some ⟨3, o, [some x.req.src, none, none, none], e.way⟩ := by
  let u := endTxn (recv s (.reply md a ln (.forwarded true false))) md ln
  have run : homeReply s md a ln (.forwarded true false) = shareDir u md ln ⟨3, o, [none, none, none, none], e.way⟩ x.req.src := by
    have entry : tget (u.home md).dir ln {} = ⟨2, o, [none, none, none, none], e.way⟩ := by
      rw [tget, home_endTxn, home_recv, listed]
      exact owned.eq
    have shared : afterShared u md ln a x.req.src true false =
        shareDir u md ln ⟨3, o, [none, none, none, none], e.way⟩ x.req.src := by
      rw [afterShared, entry]
      rfl
    rw [← shared]
    simp [homeReply, sent, opened, asked, read, u]
  obtain ⟨home, same⟩ := home_shareDir_of_owned u md ln o x.req.src e.way
  rw [run]
  refine ⟨same, ?_, ?_⟩ <;> rw [home]
  · rw [home_endTxn]
    exact tget?_tdel_self ..
  · exact tget?_tset_self ..

/-- The owner has sent its data to a writer, which becomes the owner (R240, R245). -/
theorem homeReply_of_unique {e : DirEntry} (sent : Msg.reply md a ln (.forwarded true true) ∈ s.net)
    (asked : x.owner = some a) (write : x.req.kind = .ru) (listed : tget? (s.home md).dir ln = some e) :
    let t := homeReply s md a ln (.forwarded true true)
    t.stored = s.stored ∧ tget? (t.home md).txns ln = none ∧
      tget? (t.home md).dir ln = some ⟨2, x.req.src, [none, none, none, none], e.way⟩ := by
  let u := endTxn (recv s (.reply md a ln (.forwarded true true))) md ln
  have run : homeReply s md a ln (.forwarded true true) =
      modHome (setDir u md ln ⟨2, x.req.src, [none, none, none, none], e.way⟩) md fun h => l3Drop h ln := by
    have entry : tget (u.home md).dir ln {} = e := by
      rw [tget, home_endTxn, home_recv, listed]
      rfl
    simp [homeReply, sent, opened, asked, write, ← entry, u]
  rw [run]
  refine ⟨rfl, ?_, ?_⟩ <;> rw [home_modHome_self, home_setDir_of_listed _ _ _ (by decide : (2 : BitVec 3) ≠ 0), home_endTxn]
  · exact tget?_tdel_self ..
  · exact tget?_tset_self ..
end

/-! ## The obligation -/

/-- Settles O21: each request by the grant, the answer or the message to the owner in which it ends, replies by theirs. -/
theorem homesGrantLinesOrForwardToTheOwner : Obligations.HomesGrantLinesOrForwardToTheOwner := by
  refine ⟨?absent, ?owned⟩
  case absent =>
    intro s md src ctx ln w free h below dirty may room granted absent
    refine ⟨?readClean, ?readDirty, ?unique, ?upgrade, ?zero, ?once, ?line, ?part, ?clean, ?flush⟩
    case readClean =>
      intro reads fits clean
      obtain ⟨same, grant⟩ := homeReadShared_of_clean (src := src) free absent reads fits clean
      exact ⟨_, rfl, sameMemory_of_stored same, grant⟩
    case readDirty =>
      intro reads fits held
      obtain ⟨same, grant, dropped⟩ := granted_of_grantM rfl (homeReadShared_of_dirty (src := src) free absent reads fits held)
      exact ⟨_, rfl, sameMemory_of_stored same, grant, dropped⟩
    case unique =>
      intro writes fits
      obtain ⟨same, grant, dropped⟩ := granted_of_grantM rfl (homeReadUnique_of_absent (src := src) free absent writes fits)
      exact ⟨_, rfl, sameMemory_of_stored same, grant, dropped⟩
    case upgrade =>
      intro writes fits noCopy
      obtain ⟨same, grant, -⟩ := granted_of_grantM rfl (homeUpgrade_of_absent free absent writes fits noCopy)
      exact ⟨_, rfl, sameMemory_of_stored same, grant⟩
    case zero =>
      intro writes fits
      obtain ⟨same, grant, -⟩ := granted_of_grantM rfl (homeZero_of_absent (src := src) free absent writes fits)
      exact ⟨_, rfl, sameMemory_of_stored same, grant⟩
    case once =>
      intro reads
      obtain ⟨v, same, run⟩ := homeRdonce_of_absent (src := src) free absent reads
      exact ⟨_, congrArg Host.Outcome.next run, sameMemory_of_stored ((stored_answer ..).trans same),
        once_mem_answer rfl v .s _ _⟩
    case line =>
      intro writes d
      exact ⟨_, rfl, homeWrline_of_absent free absent writes d⟩
    case part =>
      intro writes d m
      exact ⟨_, rfl, homeWrpart_of_absent free absent writes d m⟩
    case clean =>
      intro writes
      obtain ⟨v, run⟩ := homeClean_of_absent (src := src) free absent writes
      exact ⟨_, congrArg Host.Outcome.next run, once_mem_answer rfl v .s 0 false⟩
    case flush =>
      intro writes
      exact ⟨_, rfl, homeFlush_of_absent free absent writes⟩
  case owned =>
    intro s md src ctx ln o e h may asked listed dstate owner ptrs other
    have owned : OwnedAlone e o := ⟨dstate, owner, ptrs⟩
    refine ⟨?ownShared, ?ownUnique, ?ownOnce, ?ownFlush, ?waits, ?starts, ?replies⟩
    case ownShared =>
      intro free reads
      obtain ⟨same, sent, opened, kept⟩ := homeReadShared_of_owned (src := src) free listed owned reads
      exact ⟨_, rfl, sameMemory_of_stored same, sent, _, opened, rfl, rfl, rfl, kept⟩
    case ownUnique =>
      intro free writes
      obtain ⟨same, sent, opened, kept⟩ := homeReadUnique_of_owned (src := src) free listed owned writes
      exact ⟨_, rfl, sameMemory_of_stored same, sent, _, opened, rfl, rfl, rfl, kept⟩
    case ownOnce =>
      intro free reads
      obtain ⟨same, sent, opened, kept⟩ := homeRdonce_of_owned (src := src) free listed owned reads
      exact ⟨_, rfl, sameMemory_of_stored same, sent, _, opened, rfl, rfl, rfl, kept⟩
    case ownFlush =>
      intro free writes
      obtain ⟨same, sent, opened, kept⟩ := homeFlush_of_owned (src := src) free listed owned writes
      exact ⟨_, rfl, sameMemory_of_stored same, sent, _, opened, rfl, rfl, rfl, kept⟩
    case waits =>
      intro x mem home opened
      have run := homeArrive_of_txn (r := ⟨.rs, src, ctx, ln⟩) mem home opened
      refine ⟨_, congrArg Host.Outcome.next run, ⟨fun _ => rfl, rfl⟩, ⟨rfl, rfl⟩, ?_, ?_⟩ <;>
        rw [homeWait, home_modHome_self, home_recv]
    case starts =>
      intro r oldest noTxn few
      exact congrArg Host.Outcome.next (homeQueued_eq oldest noTxn few)
    case replies =>
      intro a x opened install
      refine ⟨?ack, ?shared, ?taken⟩
      case ack =>
        intro sent last nobody zero
        obtain ⟨same, ended, grant⟩ := homeReply_of_last_ack opened sent install last nobody zero
        exact ⟨_, rfl, sameMemory_of_stored same, ended, grant⟩
      case shared =>
        intro sent asked read
        obtain ⟨same, ended, entry⟩ := homeReply_of_shared opened sent asked read listed owned
        exact ⟨_, _, rfl, sameMemory_of_stored same, ended, entry, rfl, rfl, rfl⟩
      case taken =>
        intro sent asked write
        obtain ⟨same, ended, entry⟩ := homeReply_of_unique opened sent asked write listed
        exact ⟨_, rfl, sameMemory_of_stored same, ended, entry⟩

end Sys2Proof.Machine
end

section
/-! PROOF. Caching agents: answers to forwards, recalls and Invals; evictions at the home and its victim queue (R239, R240,
R245, R253 to R255, R257). -/

namespace Sys2Proof.Machine

/-! ## An agent's line -/

@[simp] theorem agentLine_send (s : State) (m : Msg) (a ln : Nat) : agentLine (send s m) a ln = agentLine s a ln := rfl

theorem agentLine_dropAgentLine (s : State) (a ln : Nat) : agentLine (dropAgentLine s a ln) a ln = none := tget?_tdel_self ..

/-- Merging a cluster without a dirty core L1 copy of a line leaves the agent's line. -/
theorem agentLine_mergeL1 {s : State} {a ln : Nat} (clean : l1Dirty s a ln = none) (b k : Nat) :
    agentLine (mergeL1 s a ln) b k = agentLine s b k := by
  rw [agentLine, coh_mergeL1 clean, agentLine]

/-- It leaves no dirty core L1 copy. -/
theorem l1Dirty_mergeL1 {s : State} {a ln : Nat} (clean : l1Dirty s a ln = none) : l1Dirty (mergeL1 s a ln) a ln = none := by
  have forgets (u : State) (clean : l1Dirty u a ln = none) (h : Nat) : l1Dirty (forgetL1 ln u h) a ln = none := by
    rw [l1Dirty_eq_none] at clean ⊢
    intro k mate copy held
    rw [forgetL1, hart_modHart] at held
    split at held
    · exact absurd (held.symm.trans (tget?_tdel_self ..)) (Option.some_ne_none _)
    · exact clean k mate copy held
  rw [mergeL1_of_clean clean]
  exact List.foldlRecOn (motive := (l1Dirty · a ln = none)) (hartsOf a) (forgetL1 ln) clean fun u clean h _ => forgets u clean h

/-- What an agent answers with is its line, where no core L1 has a dirty copy (R245, R255). -/
theorem agentData_of_clean {s : State} {a ln : Nat} {l : AgentLine} (held : agentLine s a ln = some l)
    (clean : l1Dirty s a ln = none) : agentData s a ln = some (l.data, l.st == .m || l.st == .o, l.poison) := by
  simp [agentData, held, clean]

/-- The state of an agent that has given its line up: core L1 copies are merged, the line is I, and a writeback of it that
is in flight no longer counts (R245). -/
def State.gaveUp (s : State) (a ln : Nat) : State := staleWb (dropAgentLine (mergeL1 s a ln) a ln) a ln

@[simp] theorem stored_gaveUp (s : State) (a ln : Nat) : (s.gaveUp a ln).stored = s.stored := by simp [State.gaveUp]

@[simp] theorem agentLine_gaveUp (s : State) (a ln : Nat) : agentLine (s.gaveUp a ln) a ln = none := agentLine_dropAgentLine ..

/-! ## Answers (R240, R245, R255) -/

/-- An agent has replied to the home about its line, and memory and registers are as before. -/
def Replied (s t : State) (a ln : Nat) (rep : HomeReply) : Prop :=
  Msg.reply (homeOfLine s ln) a ln rep ∈ t.net ∧ SameMemory s t ∧ SameRegs s t

theorem replied_of_send {s t u : State} {a ln : Nat} {rep : HomeReply} (same : u.stored = s.stored)
    (run : t = send u (.reply (homeOfLine s ln) a ln rep)) : Replied s t a ln rep := by
  subst run
  have kept : (send u (.reply (homeOfLine s ln) a ln rep)).stored = s.stored := same
  exact ⟨List.mem_append_right _ List.mem_cons_self, sameMemory_of_stored kept, sameRegs_of_stored kept⟩

section
variable {s : State} {a ln : Nat} {l : AgentLine} (held : agentLine s a ln = some l) (clean : l1Dirty s a ln = none)
include held clean

/-- A shared forward: the requester is sent the data, and the line becomes O or S. -/
theorem doFwdShared_eq {req : Nat} (sent : Msg.fwdShared a ln req ∈ s.net) :
    let dirty := l.st == .m || l.st == .o
    doFwdShared s a ln req = send (send (setAgentLine (mergeL1 (recv s (.fwdShared a ln req)) a ln) a ln
      { l with st := if dirty then .o else .s }) (.grant req ln .s l.data l.poison))
        (.reply (homeOfLine s ln) a ln (.forwarded dirty false)) := by
  have line : agentLine (mergeL1 (recv s (.fwdShared a ln req)) a ln) a ln = some l := by
    rw [agentLine_mergeL1 (show l1Dirty (recv s _) a ln = none from clean)]
    exact held
  have home : homeOfLine (mergeL1 (recv s (.fwdShared a ln req)) a ln) ln = homeOfLine s ln :=
    homeOfLine_of_stored (by simp) ln
  simp [doFwdShared, sent, line, home]

/-- A unique forward: the requester is sent the data, and the line is given up. -/
theorem doFwdUnique_eq {req : Nat} (sent : Msg.fwdUnique a ln req ∈ s.net) :
    doFwdUnique s a ln req = send (send ((recv s (.fwdUnique a ln req)).gaveUp a ln) (.grant req ln .m l.data l.poison))
      (.reply (homeOfLine s ln) a ln (.forwarded (l.st == .m || l.st == .o) true)) := by
  have clean : l1Dirty (recv s (.fwdUnique a ln req)) a ln = none := clean
  have data := agentData_of_clean ((agentLine_mergeL1 clean a ln).trans held) (l1Dirty_mergeL1 clean)
  have home : homeOfLine (mergeL1 (recv s (.fwdUnique a ln req)) a ln) ln = homeOfLine s ln :=
    homeOfLine_of_stored (by simp) ln
  simp [doFwdUnique, sent, data, home]
  rfl

/-- A read without caching is sent the data. -/
theorem doFwdOnce_eq {req : Nat} (sent : Msg.fwdOnce a ln req ∈ s.net) :
    doFwdOnce s a ln req = send (send (recv s (.fwdOnce a ln req)) (.once req ln l.data l.poison false))
      (.reply (homeOfLine s ln) a ln (.forwarded (l.st == .m || l.st == .o) false)) := by
  have data := agentData_of_clean (s := recv s (.fwdOnce a ln req)) held clean
  have home : homeOfLine (recv s (.fwdOnce a ln req)) ln = homeOfLine s ln := rfl
  simp [doFwdOnce, sent, data, home]

/-- A recall takes the data to the home. -/
theorem doRecall_eq (sent : Msg.recall a ln ∈ s.net) :
    doRecall s a ln = send ((recv s (.recall a ln)).gaveUp a ln)
      (.reply (homeOfLine s ln) a ln (.recalled (l.st == .m || l.st == .o) l.poison l.data)) := by
  have clean : l1Dirty (recv s (.recall a ln)) a ln = none := clean
  have data := agentData_of_clean ((agentLine_mergeL1 clean a ln).trans held) (l1Dirty_mergeL1 clean)
  have home : homeOfLine ((recv s (.recall a ln)).gaveUp a ln) ln = homeOfLine s ln := homeOfLine_of_stored (by simp) ln
  rw [← home]
  simp [doRecall, sent, data]
  rfl
end

/-- An Inval takes the line without its data. -/
theorem doInval_eq {s : State} {a ln : Nat} (sent : Msg.inval a ln ∈ s.net) :
    doInval s a ln = send ((recv s (.inval a ln)).gaveUp a ln) (.reply (homeOfLine s ln) a ln .ack) := by
  have home : homeOfLine ((recv s (.inval a ln)).gaveUp a ln) ln = homeOfLine s ln := homeOfLine_of_stored (by simp) ln
  rw [← home]
  simp [doInval, sent]
  rfl

/-! ## Counters of a home -/

@[simp] theorem home_bumpEventAt (s : State) (die : Nat) (c : FRef) (i : Nat) (o : FRef) (b n md : Nat) :
    (bumpEventAt s die c i o b n).home md = s.home md := by
  rw [bumpEventAt_onlyRegs]
  rfl

theorem sameMemory_bumpEventAt (s : State) (die : Nat) (c : FRef) (i : Nat) (o : FRef) (b n : Nat) :
    SameMemory s (bumpEventAt s die c i o b n) :=
  OnlyRegs.sameMemory (bumpEventAt_onlyRegs ..)

/-! ## Evictions (R245, R254) -/

/-- An owner that gives up a line that nobody else shares frees its entry (R249, R254). -/
theorem DirEntry.leave_of_owner {e : DirEntry} {a : Nat} (owns : e.dstate = 2) (owner : e.owner = a) (alone : e.sharers = []) :
    e.leave a = { e with dstate := 0 } := by
  simp [DirEntry.leave, DirEntry.own, owns, owner, alone]

/-- The entry's owner, alone, gives the line up, and no forward has taken the data from its writeback buffer. -/
structure OwnerEvicts (s : State) (md a ln : Nat) (e : DirEntry) : Prop where
  listed : tget? (s.home md).dir ln = some e
  owns : e.dstate = 2
  owner : e.owner = a
  alone : e.sharers = []
  counts : ((tget? s.coh.wbs (aKey a ln)).map (·.gone)).getD false = false

section
variable {s : State} {md a ln : Nat} {e : DirEntry} (evicts : OwnerEvicts s md a ln e) {r : HomeReq} (src : r.src = a)
  (line : r.line = ln)
include evicts src line

/-- Dirty data goes into the victim queue (R254). -/
theorem doWriteback_of_dirty (d : Line) (p : Bool) : doWriteback s md r d p true =
    send (modHome (setDir s md ln { e with dstate := 0 }) md fun h =>
      { l3Drop h ln with vq := (l3Drop h ln).vq ++ [⟨ln, d, true, p, false⟩] }) (.wbAck a ln false) := by
  obtain ⟨listed, owns, owner, alone, counts⟩ := evicts
  have own : e.own = some a := by simp [DirEntry.own, owns, owner]
  simp [doWriteback, line, src, tget, listed, own, counts, DirEntry.leave_of_owner owns owner alone]

/-- A clean line is declined where the victim queue has reached its threshold (R254). -/
theorem doWriteback_of_declined (d : Line) (p : Bool)
    (long : fld s (5 + md) R.MEM_L3_CFG_DECLINE_THRESH ≤ (s.home md).vq.length)
    (declines : fld s (5 + md) R.MEM_L3_CFG_DECLINE_THRESH < 64) : doWriteback s md r d p false =
      send (bumpEventAt (setDir s md ln { e with dstate := 0 }) (5 + md) R.MEM_COH_EVT_COUNT 2 R.MEM_COH_OVF_OVF 2 1)
        (.wbAck a ln true) := by
  obtain ⟨listed, owns, owner, alone, counts⟩ := evicts
  have own : e.own = some a := by simp [DirEntry.own, owns, owner]
  simp [doWriteback, line, src, tget, listed, own, counts, long, declines, DirEntry.leave_of_owner owns owner alone]
end

/-- An eviction finds the agent as it was when it arrived. -/
theorem OwnerEvicts.begun {s : State} {md a ln : Nat} {e : DirEntry} (evicts : OwnerEvicts s md a ln e) {r : HomeReq}
    (noEntry : reqEntry r.kind = false) : OwnerEvicts (s.begun md r e) md a ln e where
  listed := by rw [home_begun, evicts.listed]
  owns := evicts.owns
  owner := evicts.owner
  alone := evicts.alone
  counts := by rw [wbs_begun_of_no_entry _ _ _ _ noEntry, evicts.counts]

section
variable {s : State} {md a ln : Nat} {e : DirEntry} (free : HomeFree s md ln) (evicts : OwnerEvicts s md a ln e)
  (few : (s.home md).vq.length < 64) (d : Line) (p : Bool)
include free evicts few

/-- A WB by the owner: its data enters the victim queue, its entry is freed, and it is acknowledged. -/
theorem homeWb_spec :
    let t := homeArrive s md ⟨.wb d p, a, 0, ln⟩
    SameMemory s t ∧ Msg.wbAck a ln false ∈ t.net ∧ tget? (t.home md).dir ln = none ∧
      l3Copy (t.home md) ln = some ⟨d, true, p, 0⟩ := by
  let r : HomeReq := ⟨.wb d p, a, 0, ln⟩
  have room : ¬ 64 ≤ ((s.begun md r e).home md).vq.length := by
    rw [home_begun]
    omega
  have begun : homeArrive s md r = doWriteback (s.begun md r e) md r d p true :=
    (homeArrive_eq free (by rintro _ ⟨⟩) (entryAt_of_listed evicts.listed)).trans (if_neg room)
  rw [begun, doWriteback_of_dirty (evicts.begun rfl) rfl rfl]
  refine ⟨sameMemory_of_stored (by simp), List.mem_append_right _ List.mem_cons_self, ?_, ?_⟩
  · rw [home_send, home_modHome_self, home_setDir_of_vacant _ _ _ rfl]
    exact tget?_tdel_self ..
  · rw [home_send, home_modHome_self]
    exact l3Copy_of_found (v := ⟨ln, d, true, p, false⟩) (by simp)

/-- An OFFER by the owner that is declined: nothing enters the victim queue. -/
theorem homeOffer_of_declined (long : fld s (5 + md) R.MEM_L3_CFG_DECLINE_THRESH ≤ (s.home md).vq.length)
    (declines : fld s (5 + md) R.MEM_L3_CFG_DECLINE_THRESH < 64) :
    let t := homeArrive s md ⟨.offer d p, a, 0, ln⟩
    SameMemory s t ∧ Msg.wbAck a ln true ∈ t.net ∧ tget? (t.home md).dir ln = none ∧ (t.home md).vq = (s.home md).vq := by
  let r : HomeReq := ⟨.offer d p, a, 0, ln⟩
  have room : ¬ 64 ≤ ((s.begun md r e).home md).vq.length := by
    rw [home_begun]
    omega
  have begun : homeArrive s md r = doWriteback (s.begun md r e) md r d p false :=
    (homeArrive_eq free (by rintro _ ⟨⟩) (entryAt_of_listed evicts.listed)).trans (if_neg fun full => room full.1)
  have thresh : fld (s.begun md r e) (5 + md) R.MEM_L3_CFG_DECLINE_THRESH = fld s (5 + md) R.MEM_L3_CFG_DECLINE_THRESH :=
    read_of_stored (stored_begun ..) (fld · (5 + md) _) fun _ => rfl
  rw [begun, doWriteback_of_declined (evicts.begun rfl) rfl rfl d p (by rwa [thresh, home_begun]) (by rwa [thresh])]
  refine ⟨?_, List.mem_append_right _ List.mem_cons_self, ?_, ?_⟩
  · exact (sameMemory_of_stored (by simp)).trans (sameMemory_bumpEventAt ..)
  · rw [home_send, home_bumpEventAt, home_setDir_of_vacant _ _ _ rfl]
    exact tget?_tdel_self ..
  · rw [home_send, home_bumpEventAt, home_setDir_of_vacant _ _ _ rfl, home_begun]
end

/-! ## The victim queue (R254, R257) -/

/-- The oldest entry is installed in the L3 when it is not an eviction of the L3 itself. -/
theorem victimDrain_of_install {s : State} {md : Nat} {v : VictimEntry} {rest : List VictimEntry}
    (oldest : (s.home md).vq = v :: rest) (install : v.toMem = false) :
    let t := victimDrain s md
    t.stored = s.stored ∧ ∃ w, tget? (t.home md).l3 v.line = some ⟨v.data, v.dirty, v.poison, w⟩ := by
  simp only [victimDrain, oldest, install, Bool.false_eq_true, if_false]
  exact ⟨by simp only [stored_modHome], _, (congrArg (tget? ·.l3 v.line) (home_modHome_self ..)).trans (tget?_tset_self ..)⟩

/-- One that is goes to memory. -/
theorem victimDrain_of_toMem {s : State} {md : Nat} {v : VictimEntry} {rest : List VictimEntry}
    (oldest : (s.home md).vq = v :: rest) (toMem : v.toMem = true) : victimDrain s md =
      hbmUse (storeLine (modHome s md fun h => { h with vq := rest }) v.line v.data v.poison) v.line 0 true false := by
  simp [victimDrain, oldest, toMem]

/-! ## The obligation -/

/-- Settles O22: each answer by its equation, evictions by `doWriteback`'s, the victim queue by what its oldest entry is. -/
theorem agentsAnswerAndEvict : Obligations.AgentsAnswerAndEvict := by
  intro s a ln l _ held clean dirty home said
  refine ⟨?shared, ?unique, ?once, ?recalled, ?inval, ?evict, ?drain⟩
  case shared =>
    intro req sent
    have run := doFwdShared_eq held clean sent
    refine ⟨_, congrArg Host.Outcome.next run, replied_of_send (by simp) rfl, ?_, ?_⟩
    · exact List.mem_append_left _ (List.mem_append_right _ List.mem_cons_self)
    · rw [agentLine_send, agentLine_send, agentLine_setAgentLine_self]
  case unique =>
    intro req sent
    have run := doFwdUnique_eq held clean sent
    refine ⟨_, congrArg Host.Outcome.next run, replied_of_send (by simp) rfl, ?_, ?_⟩
    · exact List.mem_append_left _ (List.mem_append_right _ List.mem_cons_self)
    · simp only [agentLine_send, agentLine_gaveUp]
  case once =>
    intro req sent
    have run := doFwdOnce_eq held clean sent
    refine ⟨_, congrArg Host.Outcome.next run, replied_of_send (by simp) rfl, ?_, held⟩
    exact List.mem_append_left _ (List.mem_append_right _ List.mem_cons_self)
  case recalled =>
    intro sent
    have run := doRecall_eq held clean sent
    exact ⟨_, congrArg Host.Outcome.next run, replied_of_send (by simp) rfl, by simp only [agentLine_send, agentLine_gaveUp]⟩
  case inval =>
    intro sent
    have run := doInval_eq sent
    exact ⟨_, congrArg Host.Outcome.next run, replied_of_send (by simp) rfl, by simp only [agentLine_send, agentLine_gaveUp]⟩
  case evict =>
    intro md e d p free listed owns owner alone few counts
    have evicts : OwnerEvicts s md a ln e := ⟨listed, owns, owner, alone, counts⟩
    refine ⟨?_, fun long declines => ?_⟩
    · exact ⟨_, rfl, homeWb_spec free evicts few d p⟩
    · exact ⟨_, rfl, homeOffer_of_declined free evicts few d p long declines⟩
  case drain =>
    intro md v rest oldest
    refine ⟨fun toMem => congrArg Host.Outcome.next (victimDrain_of_toMem oldest toMem), fun install _ => ?_⟩
    obtain ⟨same, w, installed⟩ := victimDrain_of_install oldest install
    exact ⟨_, rfl, sameMemory_of_stored same, _, installed, rfl, rfl, rfl⟩

end Sys2Proof.Machine
end

section
/-! PROOF. Grants that a caching agent installs, writeback acknowledgements, and directory probes (R242, R243, R245, R256 to
R258, R264). -/

namespace Sys2Proof.Machine

/-! ## Evictions of an agent (R253, R257) -/

/-- `t` is `s` but for lines that agents have given up or copied: what is stored, misses in flight and the harts' buffered
stores are the same. -/
structure OnlyEvicts (s t : State) : Prop where
  stored : t.stored = s.stored
  misses : t.coh.misses = s.coh.misses
  stores : ∀ k, (t.hart k).storeBuf = (s.hart k).storeBuf

theorem OnlyEvicts.refl (s : State) : OnlyEvicts s s := ⟨rfl, rfl, fun _ => rfl⟩

theorem OnlyEvicts.trans {s t u : State} (a : OnlyEvicts s t) (b : OnlyEvicts t u) : OnlyEvicts s u :=
  ⟨b.stored.trans a.stored, b.misses.trans a.misses, fun k => (b.stores k).trans (a.stores k)⟩

theorem onlyEvicts_mergeL1 (s : State) (a ln : Nat) : OnlyEvicts s (mergeL1 s a ln) where
  stored := stored_mergeL1 s a ln
  misses := read_mergeL1 (·.coh.misses) s a ln (fun _ => rfl) fun _ _ => rfl
  stores k := read_mergeL1 (fun u => (u.hart k).storeBuf) s a ln (fun _ => rfl) fun u h => by
    rw [forgetL1, hart_modHart]
    split
    · next same => rw [same]
    · rfl

theorem onlyEvicts_modCoh (s : State) {f : Coherence → Coherence} (keeps : (f s.coh).misses = s.coh.misses) :
    OnlyEvicts s (modCoh s f) := ⟨rfl, keeps, fun _ => rfl⟩

theorem onlyEvicts_setAgentLine (s : State) (a ln : Nat) (l : AgentLine) : OnlyEvicts s (setAgentLine s a ln l) :=
  onlyEvicts_modCoh s rfl

theorem onlyEvicts_send (s : State) (m : Msg) : OnlyEvicts s (send s m) := ⟨rfl, rfl, fun _ => rfl⟩

theorem onlyEvicts_agentEvict (s : State) (a ln : Nat) : OnlyEvicts s (agentEvict s a ln) := by
  have merged := onlyEvicts_mergeL1 s a ln
  unfold agentEvict
  simp only
  split
  · exact merged
  · exact merged.trans ((onlyEvicts_modCoh _ rfl).trans ((onlyEvicts_modCoh _ rfl).trans (onlyEvicts_send ..)))

/-- Finding a way for a line evicts what it holds, and changes nothing else but the LFSR. -/
theorem onlyEvicts_agentPlace (s : State) (a ln : Nat) : OnlyEvicts s (agentPlace s a ln).2 := by
  unfold agentPlace
  simp only
  split
  · exact .refl s
  · split
    · exact .refl s
    · exact List.foldlRecOn (motive := OnlyEvicts s) _ _ (onlyEvicts_modCoh s rfl) fun t kept m _ =>
        kept.trans (onlyEvicts_agentEvict t a m.1)

theorem agentInstall_spec (s : State) (a ln : Nat) (st : Moesi) (d : Line) (p : Bool) :
    OnlyEvicts s (agentInstall s a ln st d p) ∧ ∃ w, agentLine (agentInstall s a ln st d p) a ln = some ⟨st, d, p, w⟩ :=
  ⟨(onlyEvicts_agentPlace s a ln).trans (onlyEvicts_setAgentLine ..), _, agentLine_setAgentLine_self ..⟩

/-! ## Grants (R243, R258) -/

theorem foldl_of_fixed {σ α : Type} {f : σ → α → σ} {l : List α} {s : σ} (fixed : ∀ b ∈ l, f s b = s) : l.foldl f s = s :=
  List.foldlRecOn (motive := (· = s)) l f rfl fun _ same b here => (congrArg (f · b) same).trans (fixed b here)

/-- A region whose Spurs have no operation has no store to perform. -/
theorem regionStores_of_no_ops {s : State} {a : Nat} (idle : ∀ sp ∈ spursOfAgent a, (s.spur sp).ops = []) (ln : Nat) :
    regionStores s a ln = s := by
  refine foldl_of_fixed fun sp here => ?_
  have none : readyStores (s.spur sp) = [] := by rw [readyStores, idle sp here, List.filter_nil]
  rw [none, List.foldl_nil]

/-- A cluster whose harts' buffers are empty has no store to perform. -/
theorem clusterStores_of_empty {s : State} {a : Nat} (empty : ∀ k ∈ hartsOf a, (s.hart k).storeBuf = []) (ln : Nat) :
    clusterStores s a ln = s := by
  cases may : agentWritable s a ln with
  | true =>
    rw [clusterStores_eq may]
    exact foldl_of_fixed fun k here => clusterStep_of_empty (empty k here) a ln
  | false => simp [clusterStores, may]

/-- Which store waits for a line rests on the Spurs and the harts' buffers. -/
theorem waitingStore_congr {s t : State} (spurs : ∀ sp, t.spur sp = s.spur sp)
    (stores : ∀ k, (t.hart k).storeBuf = (s.hart k).storeBuf) (a ln : Nat) : waitingStore t a ln = waitingStore s a ln := by
  simp only [waitingStore, spurs, stores]

/-- A grant of a line that the agent does not hold and has room for is installed, ends the miss, and lets waiting stores
go. -/
theorem grantReceive_of_room {s : State} {a ln : Nat} {st : Moesi} {d : Line} {p : Bool}
    (sent : Msg.grant a ln st d p ∈ s.net) (granted : st ≠ .i) (absent : agentLine s a ln = none)
    (room : agentRoom s a ln = true) : grantReceive' s a ln st d p =
      let u := agentInstall (modCoh (recv s (.grant a ln st d p)) fun c =>
        { c with misses := tdel c.misses (aKey a ln) }) a ln st d p
      upgradeAfter (clusterStores (regionStores u a ln) a ln) a ln := by
  have noLine : agentLine (modCoh (recv s (.grant a ln st d p)) fun c =>
    { c with misses := tdel c.misses (aKey a ln) }) a ln = none := absent
  simp [grantReceive', sent, granted, room, noLine]

/-- Where no store waits for the line, that is all. -/
theorem grantReceive_spec {s : State} {a ln : Nat} {st : Moesi} {d : Line} {p : Bool}
    (sent : Msg.grant a ln st d p ∈ s.net) (granted : st ≠ .i) (absent : agentLine s a ln = none)
    (room : agentRoom s a ln = true) (noStore : waitingStore s a ln = none)
    (empty : ∀ k ∈ hartsOf a, (s.hart k).storeBuf = []) (idle : ∀ sp ∈ spursOfAgent a, (s.spur sp).ops = []) :
    let t := grantReceive' s a ln st d p
    t.stored = s.stored ∧ (∃ w, agentLine t a ln = some ⟨st, d, p, w⟩) ∧ tget? t.coh.misses (aKey a ln) = none := by
  let v := modCoh (recv s (.grant a ln st d p)) fun c => { c with misses := tdel c.misses (aKey a ln) }
  obtain ⟨⟨same, misses, stores⟩, line⟩ := agentInstall_spec v a ln st d p
  have spurs (sp : Nat) : (agentInstall v a ln st d p).spur sp = s.spur sp := read_of_stored same (State.spur · sp) fun _ => rfl
  have ended : tget? (agentInstall v a ln st d p).coh.misses (aKey a ln) = none := by
    rw [misses]
    exact tget?_tdel_self ..
  have noUpgrade : upgradeAfter (agentInstall v a ln st d p) a ln = agentInstall v a ln st d p := by
    rw [upgradeAfter, waitingStore_congr spurs stores, noStore]
  rw [grantReceive_of_room sent granted absent room]
  simp only
  rw [regionStores_of_no_ops fun sp here => (congrArg Spur.ops (spurs sp)).trans (idle sp here),
    clusterStores_of_empty fun k here => (stores k).trans (empty k here), noUpgrade]
  exact ⟨same, line, ended⟩

/-! ## Writeback acknowledgements (R242, R245) -/

theorem wbAckReceive_eq {s : State} {a ln : Nat} {b : Bool} (sent : Msg.wbAck a ln b ∈ s.net) :
    wbAckReceive s a ln b = modCoh (recv s (.wbAck a ln b)) fun c => { c with wbs := tdel c.wbs (aKey a ln) } := by
  simp [wbAckReceive, sent]

/-! ## Directory probes (R264) -/

theorem sameMemory_modHome (s : State) (md : Nat) (f : Home → Home) : SameMemory s (modHome s md f) := ⟨fun _ => rfl, rfl⟩

theorem fld_modHome (s : State) (md : Nat) (f : Home → Home) (die : Nat) (g : FRef) :
    fld (modHome s md f) die g = fld s die g := rfl

/-- A probe that begins names its line, and its register says that it is not done. -/
theorem dirProbe_spec (s : State) (md : Nat) (v : W64) :
    let t := dirProbe s md v
    SameMemory s t ∧ fld t (5 + md) R.MEM_DIR_PROBE_ADDR_LINE = bits v.toNat 51 6 ∧
      fld t (5 + md) R.MEM_DIR_PROBE_DATA_DONE = 0 ∧ (t.home md).probe = some (bits v.toNat 51 6) := by
  have small : bits v.toNat 51 6 < 2 ^ (51 - 6 + 1) := Nat.mod_lt _ (Nat.two_pow_pos _)
  simp only [dirProbe]
  refine ⟨?_, ?_, ?_, ?_⟩
  · exact ((setFld_onlyRegs ..).trans (setFld_onlyRegs ..)).sameMemory.trans (sameMemory_modHome ..)
  · rw [fld_modHome, fld_setFld_of_off_ne _ _ _ (by decide), fld_setFld_self _ _ _ _ (by decide), Nat.mod_eq_of_lt small]
  · exact (fld_modHome ..).trans ((fld_setFld_self _ _ _ _ (by decide)).trans (Nat.zero_mod _))
  · rw [home_modHome_self]

/-- A field of a die is set. -/
def setFldOf (die : Nat) (s : State) (x : FRef × Nat) : State := setFld s die x.1 x.2

/-- Fields of a die are set one after another. -/
def setFlds (die : Nat) (l : List (FRef × Nat)) (s : State) : State := l.foldl (setFldOf die) s

theorem sameMemory_setFlds (die : Nat) (l : List (FRef × Nat)) (s : State) : SameMemory s (setFlds die l s) :=
  OnlyRegs.sameMemory (OnlyRegs.foldl (setFldOf die) (fun s x => setFld_onlyRegs s die x.1 x.2) l s)

theorem home_setFlds (die : Nat) (l : List (FRef × Nat)) (s : State) (md : Nat) : (setFlds die l s).home md = s.home md :=
  foldl_read_of_keeps (step := setFldOf die) (read := (State.home · md)) (fun _ _ _ => rfl) s

/-- Two fields of one register that share no bit. -/
abbrev FRef.Apart (g f : FRef) : Prop :=
  g.off = f.off ∧ g.cold = f.cold ∧ f.lo ≤ f.hi ∧ f.hi < 64 ∧ g.lo ≤ g.hi ∧ (g.hi < f.lo ∨ f.hi < g.lo)

/-- Where no two of the fields share a bit, each reads as what was written to it. -/
theorem fld_setFlds_of_mem {f : FRef} {x : Nat} {l : List (FRef × Nat)} (apart : (l.map Prod.fst).Pairwise FRef.Apart)
    (here : (f, x) ∈ l) (fits : f.lo ≤ f.hi ∧ f.hi < 64 ∧ x < 2 ^ (f.hi - f.lo + 1)) (die : Nat) (s : State) :
    fld (setFlds die l s) die f = x := by
  obtain ⟨ordered, width, small⟩ := fits
  obtain ⟨before, after, rfl⟩ := List.append_of_mem here
  have later : ∀ y ∈ after, f.Apart y.1 := by
    intro y there
    have parts := List.pairwise_append.1 (List.map_append ▸ apart)
    exact (List.pairwise_cons.1 parts.2.1).1 y.1 (List.mem_map_of_mem there)
  have last : setFlds die (before ++ (f, x) :: after) s = setFlds die after (setFld (setFlds die before s) die f x) := by
    rw [setFlds, List.foldl_append]
    rfl
  rw [last]
  refine (foldl_read_of_keeps (step := setFldOf die) (read := (fld · die f))
    (fun y there s => fld_setFld_of_bits_apart s die y.2 (later y there)) _).trans ?_
  rw [fld_setFld_self _ _ _ _ ⟨ordered, width⟩, Nat.mod_eq_of_lt small]

/-- What the register of a probe says of a line that its home lists (R264). -/
def probeReport (h : Home) (ln : Nat) (e : DirEntry) : List (FRef × Nat) :=
  let ptr := fun (i : Nat) => ((e.ptrs.getD i none).getD 0)
  [(R.MEM_DIR_PROBE_DATA_HIT, 1),
   (R.MEM_DIR_PROBE_DATA_L3, match l3Copy h ln with | some l => if l.dirty then 2 else 1 | none => 0),
   (R.MEM_DIR_PROBE_DATA_FOREIGN, 0), (R.MEM_DIR_PROBE_DATA_DSTATE, e.dstate.toNat),
   (R.MEM_DIR_PROBE_DATA_OWNER, e.own.getD 0),
   (R.MEM_DIR_PROBE_DATA_PVALID, (List.range 4).foldl (fun n i => n + if (e.ptrs.getD i none).isSome then 2 ^ i else 0) 0),
   (R.MEM_DIR_PROBE_DATA_PTR3, ptr 3), (R.MEM_DIR_PROBE_DATA_PTR2, ptr 2), (R.MEM_DIR_PROBE_DATA_PTR1, ptr 1),
   (R.MEM_DIR_PROBE_DATA_PTR0, ptr 0), (R.MEM_DIR_PROBE_DATA_DONE, 1)]

theorem probeReport_apart (h : Home) (ln : Nat) (e : DirEntry) : ((probeReport h ln e).map Prod.fst).Pairwise FRef.Apart := by
  have fields : (probeReport h ln e).map Prod.fst = [R.MEM_DIR_PROBE_DATA_HIT, R.MEM_DIR_PROBE_DATA_L3,
    R.MEM_DIR_PROBE_DATA_FOREIGN, R.MEM_DIR_PROBE_DATA_DSTATE, R.MEM_DIR_PROBE_DATA_OWNER, R.MEM_DIR_PROBE_DATA_PVALID,
    R.MEM_DIR_PROBE_DATA_PTR3, R.MEM_DIR_PROBE_DATA_PTR2, R.MEM_DIR_PROBE_DATA_PTR1, R.MEM_DIR_PROBE_DATA_PTR0,
    R.MEM_DIR_PROBE_DATA_DONE] := rfl
  rw [fields]
  decide

theorem dirProbeDone_of_listed {s : State} {md ln : Nat} {e : DirEntry} (probe : (s.home md).probe = some ln)
    (mem : isMem (ln * 64) = true) (home : homeOfLine s ln = md) (listed : tget? (s.home md).dir ln = some e) :
    dirProbeDone s md = setFlds (5 + md) (probeReport { s.home md with probe := none } ln e)
      (modHome s md fun h => { h with probe := none }) := by
  have here : homeOfLine (modHome s md fun h => { h with probe := none }) ln = md := home
  simp only [dirProbeDone, probe, mem, here, home_modHome_self, listed, bne_self_eq_false, Bool.not_true, Bool.or_false,
    Bool.false_eq_true, if_false, Option.getD_some]
  rfl

/-! ## The obligation -/

/-- Settles O23: a grant by `grantReceive_spec`, an acknowledgement by what it empties, a probe by what it reports. -/
theorem grantsInstallAndProbesReport : Obligations.GrantsInstallAndProbesReport := by
  intro s a md
  refine ⟨?grant, ?ack, ?probe, ?done⟩
  case grant =>
    intro ln st d p sent granted _ absent room noStore empty idle
    obtain ⟨same, ⟨w, line⟩, ended⟩ := grantReceive_spec sent granted absent room noStore empty idle
    exact ⟨_, _, rfl, sameMemory_of_stored same, sameRegs_of_stored same, line, rfl, rfl, rfl, ended⟩
  case ack =>
    intro ln b sent
    exact ⟨_, congrArg Host.Outcome.next (wbAckReceive_eq sent), ⟨fun _ => rfl, rfl⟩, ⟨rfl, rfl⟩, tget?_tdel_self .., rfl, rfl⟩
  case probe =>
    intro v
    exact ⟨_, rfl, dirProbe_spec s md v⟩
  case done =>
    intro ln e probe mem home listed owner
    have run := dirProbeDone_of_listed probe mem home listed
    have state : e.dstate.toNat < 2 ^ 3 := e.dstate.isLt
    have own : e.own.getD 0 < 2 ^ 6 := by
      unfold DirEntry.own
      split
      · exact owner
      · exact Nat.two_pow_pos _
    refine ⟨_, congrArg Host.Outcome.next run, (sameMemory_modHome ..).trans (sameMemory_setFlds ..), ?_, ?_, ?_, ?_, ?_, ?_⟩
    · rw [home_setFlds, home_modHome_self]
    · exact fld_setFlds_of_mem (probeReport_apart ..) (by simp [probeReport]) (by decide) _ _
    · exact fld_setFlds_of_mem (probeReport_apart ..) (by simp [probeReport]) (by decide) _ _
    · exact fld_setFlds_of_mem (probeReport_apart ..) (by simp [probeReport]) (by decide) _ _
    · exact fld_setFlds_of_mem (probeReport_apart ..) (by simp [probeReport]) ⟨by decide, by decide, state⟩ _ _
    · exact fld_setFlds_of_mem (probeReport_apart ..) (by simp [probeReport]) ⟨by decide, by decide, own⟩ _ _

end Sys2Proof.Machine
end

section
/-! PROOF. The commands of HUB_CTX_CMD and the context reset of HUB_RESET_CMD (R269 to R271, R278, R279, R475, R504). -/

namespace Sys2Proof.Machine

/-! ## How a command of HUB_CTX_CMD arrives -/

/-- A command that finds BUSY 1 is dropped. -/
theorem ctxCmd_of_busy {s : State} (busy : fld s 0 R.HUB_CTX_STATUS_BUSY = 1) (ctx : BitVec 16) (refused : Bool)
    (act : State → State) : ctxCmd s ctx refused act = setFld s 0 R.HUB_CTX_STATUS_DROPPED 1 := if_pos busy

/-- The state with `ctx` and the result `x` in HUB_CTX_STATUS, in which a command's work begins. -/
def ctxNoted (s : State) (ctx : BitVec 16) (x : Nat) : State :=
  setFld (setFld s 0 R.HUB_CTX_STATUS_CTX ctx.toNat) 0 R.HUB_CTX_STATUS_RESULT x

/-- Where none is in progress, a command is refused or does its work. -/
theorem ctxCmd_of_free {s : State} (free : fld s 0 R.HUB_CTX_STATUS_BUSY = 0) (ctx : BitVec 16) (refused : Bool)
    (act : State → State) :
    ctxCmd s ctx refused act = if refused then ctxNoted s ctx 0x0F else act (ctxNoted s ctx 0) :=
  if_neg (by rw [free]; decide)

theorem fld_ctxNoted_ctx (s : State) (ctx : BitVec 16) (x : Nat) :
    fld (ctxNoted s ctx x) 0 R.HUB_CTX_STATUS_CTX = ctx.toNat := by
  rw [ctxNoted, fld_setFld_of_bits_apart _ _ _ (by decide), fld_setFld_self _ _ _ _ (by decide)]
  exact Nat.mod_eq_of_lt ctx.isLt

theorem fld_ctxNoted_result (s : State) (ctx : BitVec 16) {x : Nat} (short : x < 256) :
    fld (ctxNoted s ctx x) 0 R.HUB_CTX_STATUS_RESULT = x :=
  (fld_setFld_self _ _ _ _ (by decide)).trans (Nat.mod_eq_of_lt short)

theorem fld_ctxNoted_busy (s : State) (ctx : BitVec 16) (x : Nat) :
    fld (ctxNoted s ctx x) 0 R.HUB_CTX_STATUS_BUSY = fld s 0 R.HUB_CTX_STATUS_BUSY := by
  rw [ctxNoted, fld_setFld_of_bits_apart _ _ _ (by decide), fld_setFld_of_bits_apart _ _ _ (by decide)]

/-- A command has ended with RESULT 0x0F, and translation and memory are as before. -/
def CtxCmdRefused (s : State) (ctx : BitVec 16) (t : State) : Prop :=
  fld t 0 R.HUB_CTX_STATUS_RESULT = 0x0F ∧ fld t 0 R.HUB_CTX_STATUS_CTX = ctx.toNat ∧
    fld t 0 R.HUB_CTX_STATUS_BUSY = 0 ∧ t.xlt = s.xlt ∧ SameMemory s t

theorem ctxCmd_refused {s : State} {refused : Bool} (free : fld s 0 R.HUB_CTX_STATUS_BUSY = 0) (bad : refused = true)
    (ctx : BitVec 16) (act : State → State) : CtxCmdRefused s ctx (ctxCmd s ctx refused act) := by
  rw [ctxCmd_of_free free, if_pos bad]
  exact ⟨fld_ctxNoted_result s ctx (by decide), fld_ctxNoted_ctx .., (fld_ctxNoted_busy ..).trans free, rfl,
    ⟨fun _ => rfl, rfl⟩⟩

/-- An invalidate or an unload of a loaded context, which is not 0, is not refused (R271). -/
theorem ctxAccepted {s : State} {ctx : BitVec 16} {d : Ctx} (user : ctx ≠ 0) (loaded : s.ctx? ctx = some d) :
    ¬ (ctx == 0 || (s.ctx? ctx).isNone) = true := by simpa [loaded] using user

/-! ## Load (R269 to R271) -/

theorem ctxKey_ne {c ctx : BitVec 16} (other : c ≠ ctx) : c.toNat ≠ ctx.toNat := fun same => other (BitVec.eq_of_toNat_eq same)

/-- The state in which a context's descriptor is taken. -/
def withDescriptor (s : State) (ctx : BitVec 16) (d : Ctx) : State :=
  modXlt s fun x => { x with ctxs := tset x.ctxs ctx.toNat d }

theorem ctx?_withDescriptor_self (s : State) (ctx : BitVec 16) (d : Ctx) : (withDescriptor s ctx d).ctx? ctx = some d :=
  tget?_tset_self ..

theorem ctx?_withDescriptor_ne (s : State) {c ctx : BitVec 16} (d : Ctx) (other : c ≠ ctx) :
    (withDescriptor s ctx d).ctx? c = s.ctx? c := tget?_tset_ne _ _ (ctxKey_ne other)

theorem ctxLoad_of_loadable {s : State} {ctx : BitVec 16} {d : Ctx} (free : fld s 0 R.HUB_CTX_STATUS_BUSY = 0)
    (user : ctx ≠ 0) (unloaded : s.ctx? ctx = none) (loadable : readDescriptor s ctx = some d) :
    ctxLoad s ctx = withDescriptor (ctxNoted s ctx 0) ctx d := by
  have accepted : ¬ (ctx == 0 || (s.ctx? ctx).isSome || (some d).isNone) = true := by simpa [unloaded] using user
  rw [ctxLoad, loadable, ctxCmd_of_free free, if_neg accepted]
  rfl

/-! ## Invalidate (R270, R278, R279) -/

/-- A whole-context invalidation reads the tables of the context again, and changes nothing but translation. -/
theorem rereadTables_onlyXlt (s : State) (ctx : BitVec 16) : OnlyXlt s (rereadTables s ctx) := by
  unfold rereadTables
  split <;> rfl

theorem inval_rereadTables (s : State) (ctx : BitVec 16) : (rereadTables s ctx).xlt.inval = s.xlt.inval := by
  unfold rereadTables
  split <;> rfl

/-- Changing every entry changes what a key reads as, where the change keeps what an unlisted key reads as. -/
theorem tget_map_of_default {α : Type} (t : Tbl α) {f : α → α} (i : Nat) {d : α} (keeps : f d = d) :
    tget (t.map fun e => (e.1, f e.2)) i d = f (tget t i d) := by
  have entry := tget?_map t (fun _ => f) i
  rw [tget, entry, tget]
  cases tget? t i with
  | none => exact keeps.symm
  | some v => rfl

/-- No micro-TLB, die TLB or walk cache holds an entry of the context. -/
def NoEntries (s : State) (ctx : BitVec 16) : Prop :=
  (∀ sp, ∀ e ∈ (s.spur sp).utlb, e.ctx ≠ ctx) ∧ (∀ td, ∀ e ∈ (s.tdie td).tlb, e.ctx ≠ ctx) ∧
    ∀ md, ∀ e ∈ (s.helper md).cache, e.1 ≠ ctx

/-- A Spur whose micro-TLB has lost the entries of `ctx`. -/
def Spur.without (p : Spur) (ctx : BitVec 16) : Spur := { p with utlb := p.utlb.filter (·.ctx != ctx) }

/-- A tensor die whose TLB has lost the entries of `ctx`. -/
def TensorDie.without (d : TensorDie) (ctx : BitVec 16) : TensorDie := { d with tlb := d.tlb.filter (·.ctx != ctx) }

/-- Helper cores whose walk cache has lost the entries of `ctx`, and whose walks for it will not be installed. -/
def Helper.without (h : Helper) (ctx : BitVec 16) : Helper :=
  { h with
    cache := h.cache.filter (·.1 != ctx)
    walks := h.walks.map fun w => (w.1, if w.2.ctx = ctx then { w.2 with stale := true } else w.2) }

theorem spur_dropEntries (s : State) (ctx : BitVec 16) (sp : Nat) : (dropEntries s ctx).spur sp = (s.spur sp).without ctx :=
  tget_map_of_default (f := (·.without ctx)) s.spurs sp rfl

theorem tdie_dropEntries (s : State) (ctx : BitVec 16) (td : Nat) : (dropEntries s ctx).tdie td = (s.tdie td).without ctx :=
  tget_map_of_default (f := (·.without ctx)) s.tdies td rfl

theorem helper_dropEntries (s : State) (ctx : BitVec 16) (md : Nat) :
    (dropEntries s ctx).helper md = (s.helper md).without ctx :=
  tget_map_of_default (f := (·.without ctx)) s.xlt.helpers md rfl

theorem ne_of_mem_filter {α : Type} {f : α → BitVec 16} {ctx : BitVec 16} {l : List α} {e : α}
    (left : e ∈ l.filter (f · != ctx)) : f e ≠ ctx := bne_iff_ne.1 (List.mem_filter.1 left).2

theorem noEntries_dropEntries (s : State) (ctx : BitVec 16) : NoEntries (dropEntries s ctx) ctx := by
  refine ⟨fun sp e held => ?_, fun td e held => ?_, fun md e held => ?_⟩
  · rw [spur_dropEntries] at held
    exact ne_of_mem_filter held
  · rw [tdie_dropEntries] at held
    exact ne_of_mem_filter held
  · rw [helper_dropEntries] at held
    exact ne_of_mem_filter held

theorem sameMemory_dropEntries (s : State) (ctx : BitVec 16) : SameMemory s (dropEntries s ctx) := ⟨fun _ => rfl, rfl⟩

/-- An invalidate that is accepted holds BUSY, empties the context's entries, and waits for what was translated before. -/
theorem beginInval_spec (s : State) (ctx : BitVec 16) (unload : Bool) :
    let t := beginInval s ctx unload
    fld t 0 R.HUB_CTX_STATUS_BUSY = 1 ∧ SameMemory s t ∧
      t.xlt.inval = some { ctx := ctx, unload := unload, waits := translatedOps s ctx } ∧ NoEntries t ctx :=
  ⟨fld_setFld_self _ _ _ _ (by decide), (rereadTables_onlyXlt s ctx).sameMemory.trans (sameMemory_dropEntries _ ctx), rfl,
    noEntries_dropEntries (rereadTables s ctx) ctx⟩

theorem ctxInvalidate_of_loaded {s : State} {ctx : BitVec 16} {d : Ctx} (free : fld s 0 R.HUB_CTX_STATUS_BUSY = 0)
    (user : ctx ≠ 0) (loaded : s.ctx? ctx = some d) : ctxInvalidate s ctx = beginInval (ctxNoted s ctx 0) ctx false :=
  (ctxCmd_of_free free ..).trans (if_neg (ctxAccepted user loaded))

/-- The state after the invalidate or unload `i`. -/
def invalEnded (s : State) (i : XltInval) : State :=
  setFld (modXlt s fun x => { x with
    inval := none
    ctxs := if i.unload then tdel x.ctxs i.ctx.toNat else x.ctxs }) 0 R.HUB_CTX_STATUS_BUSY 0

/-- An invalidate ends when no access translated before it is left. -/
theorem ctxInvalidateDone_of_done {s : State} {i : XltInval} (begun : s.xlt.inval = some i) (reset : i.resetting = false)
    (done : ∀ w ∈ i.waits, w ∉ translatedOps s i.ctx) : ctxInvalidateDone s = invalEnded s i := by
  have final : ¬ (i.resetting || i.waits.any fun w => (translatedOps s i.ctx).contains w) = true := by
    simpa [reset] using done
  simp only [ctxInvalidateDone, begun]
  exact if_neg final

/-- An unload's end marks its context not loaded; other contexts stay as they are. -/
theorem ctx?_invalEnded (s : State) (i : XltInval) :
    (i.unload = true → (invalEnded s i).ctx? i.ctx = none) ∧ ∀ c, c ≠ i.ctx → (invalEnded s i).ctx? c = s.ctx? c := by
  have entry (c : BitVec 16) : (invalEnded s i).ctx? c =
      tget? (if i.unload then tdel s.xlt.ctxs i.ctx.toNat else s.xlt.ctxs) c.toNat := rfl
  refine ⟨fun unload => ?_, fun c other => ?_⟩
  · rw [entry, if_pos unload, tget?_tdel_self]
  · rw [entry]
    split
    · exact tget?_tdel_ne _ (ctxKey_ne other)
    · rfl

/-! ## Unload (R278) -/

/-- The state in which the context reset of an unload runs. -/
def unloadBegun (s : State) (ctx : BitVec 16) : State :=
  setFld (modXlt (contextStop s ctx) fun x => { x with inval := some { ctx := ctx, unload := true, resetting := true } }) 0
    R.HUB_CTX_STATUS_BUSY 1

theorem ctxUnload_of_loaded {s : State} {ctx : BitVec 16} {d : Ctx} (free : fld s 0 R.HUB_CTX_STATUS_BUSY = 0)
    (user : ctx ≠ 0) (loaded : s.ctx? ctx = some d) : ctxUnload s ctx = unloadBegun (ctxNoted s ctx 0) ctx :=
  (ctxCmd_of_free free ..).trans (if_neg (ctxAccepted user loaded))

/-! ## Context resets (R475, R504) -/

/-- The state in which the context reset of `ctx` runs. -/
def ctxResetBegun (s : State) (ctx : BitVec 16) : State :=
  setFld (modBoot (contextStop (setFld s 0 R.HUB_RESET_STATUS_RESULT 0) ctx) fun b => { b with ctxReset := some ctx }) 0
    R.HUB_RESET_STATUS_BUSY 1

/-- A context reset by context 0, or by the context itself, begins. -/
theorem resetContext_of_allowed {s : State} {ctx target : BitVec 16} (powered : s.boot.powered = true)
    (free : fld s 0 R.HUB_RESET_STATUS_BUSY = 0) (user : target ≠ 0) (loaded : (s.ctx? target).isSome)
    (own : ctx = 0 ∨ ctx = target) :
    resetContext s ctx target = ctxResetBegun s target := by
  have allowed : (target == 0 || (s.ctx? target).isNone || (ctx != 0 && ctx != target)) = false := by
    have known : (target == 0 || (s.ctx? target).isNone) = false := by simpa using ⟨user, loaded⟩
    have mine : (ctx != 0 && ctx != target) = false := by simpa [imp_iff_not_or] using own
    rw [known, mine, Bool.or_self]
  rw [resetContext, allowed, resetPart_of_begun powered free, ctxResetBegun]

/-- One of context 0, of a context that is not loaded, or by a third context is refused. -/
theorem resetContext_of_refused {s : State} {ctx target : BitVec 16} (powered : s.boot.powered = true)
    (free : fld s 0 R.HUB_RESET_STATUS_BUSY = 0) (bad : target = 0 ∨ s.ctx? target = none ∨ (ctx ≠ 0 ∧ ctx ≠ target)) :
    resetContext s ctx target = resetRefused s := by
  have refused : (target == 0 || (s.ctx? target).isNone || (ctx != 0 && ctx != target)) = true := by
    simpa [or_assoc] using bad
  rw [resetContext, refused, resetPart_of_refused powered free]

/-- The state after the context reset of `ctx`: the tables of the context are read again (R270). -/
def ctxResetEnded (s : State) (ctx : BitVec 16) : State :=
  setFld (modBoot (rereadTables s ctx) fun b => { b with ctxReset := none }) 0 R.HUB_RESET_STATUS_BUSY 0

/-- A context reset ends when the context is quiet; with no unload in progress, that is all. -/
theorem contextResetDone_of_quiet {s : State} {ctx : BitVec 16} (begun : s.boot.ctxReset = some ctx)
    (quiet : ctxQuiet s ctx = true) (idle : s.xlt.inval = none) : contextResetDone s = ctxResetEnded s ctx := by
  have ended : ctxResetEnd s = ctxResetEnded s ctx := by
    simp only [ctxResetEnd, begun, quiet, if_true]
    rfl
  have still : (ctxResetEnded s ctx).xlt.inval = none := (inval_rereadTables s ctx).trans idle
  simp only [contextResetDone, ended, still]

theorem ctxResetEnded_spec (s : State) (ctx : BitVec 16) :
    let t := ctxResetEnded s ctx
    t.boot.ctxReset = none ∧ fld t 0 R.HUB_RESET_STATUS_BUSY = 0 ∧ SameMemory s t :=
  ⟨rfl, fld_setFld_self _ _ _ _ (by decide), (rereadTables_onlyXlt s ctx).sameMemory.trans ⟨fun _ => rfl, rfl⟩⟩

/-! ## The obligation -/

/-- Settles O24: a command that is dropped or refused by `ctxCmd`, any other by the state it leaves. -/
theorem contextsAreLoadedInvalidatedAndUnloaded : Obligations.ContextsAreLoadedInvalidatedAndUnloaded := by
  intro s ctx
  refine ⟨fun busy => ?dropped, fun free bad => ?loadRefused, fun free bad => ?refused, fun d free user unloaded loadable => ?load,
    fun d free user loaded => ?begun, fun i begun reset done => ?invalidated, fun target powered free => ?reset,
    fun begun quiet idle => ?resetDone⟩
  case dropped =>
    refine ⟨congrArg Host.Outcome.next ?_, congrArg Host.Outcome.next ?_, congrArg Host.Outcome.next ?_⟩
    · rw [ctxLoad, ctxCmd_of_busy busy]
    · exact ctxCmd_of_busy busy ..
    · exact ctxCmd_of_busy busy ..
  case loadRefused =>
    exact ⟨_, rfl, ctxCmd_refused free (by simpa [or_assoc] using bad) ctx _⟩
  case refused =>
    have refused : (ctx == 0 || (s.ctx? ctx).isNone) = true := by simpa using bad
    exact ⟨⟨_, rfl, ctxCmd_refused free refused ctx _⟩, ⟨_, rfl, ctxCmd_refused free refused ctx _⟩⟩
  case load =>
    exact ⟨_, congrArg Host.Outcome.next (ctxLoad_of_loadable free user unloaded loadable), ctx?_withDescriptor_self ..,
      fun _ => ctx?_withDescriptor_ne _ d, fld_ctxNoted_result s ctx (by decide), fld_ctxNoted_ctx s ctx 0, ⟨fun _ => rfl, rfl⟩⟩
  case begun =>
    obtain ⟨busy, memory, inval, gone⟩ := beginInval_spec (ctxNoted s ctx 0) ctx false
    exact ⟨⟨_, _, congrArg Host.Outcome.next (ctxInvalidate_of_loaded free user loaded), busy, memory, inval, rfl, rfl, rfl, gone⟩,
      ⟨_, _, congrArg Host.Outcome.next (ctxUnload_of_loaded free user loaded), fld_setFld_self _ _ _ _ (by decide), rfl, rfl,
        rfl, rfl⟩⟩
  case invalidated =>
    exact ⟨_, congrArg Host.Outcome.next (ctxInvalidateDone_of_done begun reset done), rfl, fld_setFld_self _ _ _ _ (by decide),
      ⟨fun _ => rfl, rfl⟩, ctx?_invalEnded s i⟩
  case reset =>
    refine ⟨fun user loaded own => ?_, fun bad => ?_⟩
    · exact ⟨_, congrArg Host.Outcome.next (resetContext_of_allowed powered free user loaded own), rfl,
        fld_setFld_self _ _ _ _ (by decide)⟩
    · exact congrArg Host.Outcome.next (resetContext_of_refused powered free bad)
  case resetDone =>
    exact ⟨_, congrArg Host.Outcome.next (contextResetDone_of_quiet begun quiet idle), ctxResetEnded_spec s ctx⟩

end Sys2Proof.Machine
end

section
/-! PROOF. Stored poison (R296, R307), and what a change of claims or a copy of an extent leaves of the tier movers' tables
(R312, R316). -/

namespace Sys2Proof.Machine

/-! ## Poison of stored lines (R296, R307) -/

theorem contains_setAdd (l : List Nat) (x : Nat) : (setAdd l x).contains x = true := by
  unfold setAdd
  split
  · assumption
  · simp

/-- Poison of memory is kept in the list of HBM lines and in the tier die's tables. -/
theorem setPoison_frame (s : State) (ln : Nat) (p : Bool) : setPoison s ln p =
    { s with poison := (setPoison s ln p).poison, tiers := (setPoison s ln p).tiers } := by
  unfold setPoison
  repeat' split
  all_goals rfl

theorem sameRegs_setPoison (s : State) (ln : Nat) (p : Bool) : SameRegs s (setPoison s ln p) := by
  rw [setPoison_frame]
  exact ⟨rfl, rfl⟩

theorem lineRetired_setPoison (s : State) (ln : Nat) (p : Bool) (k : Nat) :
    lineRetired (setPoison s ln p) k = lineRetired s k := by
  rw [setPoison_frame]
  rfl

theorem linePoison_of_hbm {s : State} {ln : Nat} (hbm : ln * 64 < hbmEnd) :
    linePoison s ln = (lineRetired s ln || s.poison.contains ln) := by rw [linePoison, if_pos hbm]

theorem linePoison_of_board {s : State} {ln : Nat} (board : ¬ ln * 64 < hbmEnd) :
    linePoison s ln = (lineRetired s ln || (s.tiers.boardPoison.contains ln ||
      s.tiers.boardExtents.contains (memExtent (ln * 64)))) := by rw [linePoison, if_neg board]

/-- A line that was poisoned is poisoned: by its own entry, or by its extent's where the tier die's table is full. -/
theorem linePoison_setPoison (s : State) (ln : Nat) : linePoison (setPoison s ln true) ln = true := by
  by_cases hbm : ln * 64 < hbmEnd
  · have listed : (setPoison s ln true).poison = setAdd s.poison ln := by rw [setPoison, if_pos hbm]; rfl
    rw [linePoison_of_hbm hbm, listed, contains_setAdd, Bool.or_true]
  · rw [linePoison_of_board hbm, setPoison, if_neg hbm, if_pos rfl]
    split
    · next listed => rw [listed, Bool.true_or, Bool.or_true]
    · split
      · simp
      · rw [contains_setAdd, Bool.or_true, Bool.or_true]

/-- An HBM line whose poison is cleared, and whose stack is not retired, is not poisoned. -/
theorem linePoison_clearPoison {s : State} {ln : Nat} (hbm : ln * 64 < hbmEnd) (inUse : lineRetired s ln = false) :
    linePoison (setPoison s ln false) ln = false := by
  have cleared : (setPoison s ln false).poison = setDel s.poison ln := by rw [setPoison, if_pos hbm]; rfl
  rw [linePoison_of_hbm hbm, lineRetired_setPoison, inUse, cleared]
  simp [setDel]

/-! ## Stores of whole lines -/

section
variable {s : State} {ln : Nat} (inUse : lineRetired s ln = false)
include inUse

theorem storeLine_of_inUse (d : Line) (p : Bool) :
    storeLine s ln d p = setPoison { s with mem := memWrite s.mem (ln * 64) (lineBytes d) } ln p :=
  if_neg (by rw [inUse]; decide)

theorem linePoison_storeLine (d : Line) : linePoison (storeLine s ln d true) ln = true := by
  rw [storeLine_of_inUse inUse]
  exact linePoison_setPoison _ ln

theorem linePoison_storeLine_clean (hbm : ln * 64 < hbmEnd) (d : Line) : linePoison (storeLine s ln d false) ln = false := by
  rw [storeLine_of_inUse inUse]
  exact linePoison_clearPoison hbm inUse
end

theorem sameRegs_storeLine (s : State) (ln : Nat) (d : Line) (p : Bool) : SameRegs s (storeLine s ln d p) := by
  rw [storeLine_frame]
  exact ⟨rfl, rfl⟩

/-- A store of a line leaves the bytes of every other line. -/
theorem memByte_storeLine_of_other (s : State) {ln a : Nat} (d : Line) (p : Bool) (other : a / 64 ≠ ln) :
    memByte (storeLine s ln d p).mem a = memByte s.mem a := by
  have outside : ¬ (ln * 64 ≤ a ∧ a < ln * 64 + (lineBytes d).length) := by
    rw [show (lineBytes d).length = 64 from leBytes_length ..]
    omega
  rw [storeLine_mem]
  split
  · rfl
  · rw [memByte_memWrite, if_neg outside]

/-! ## What the coherence system leaves of the tier movers' tables -/

/-- The queues with their commands, and the tables of the tiers without those that say which lines are poisoned: what no
access of memory changes. -/
def State.moverTables (s : State) : Queues × Tiers := (s.qs, { s.tiers with boardPoison := [], boardExtents := [] })

section
variable {s t : State} (same : t.moverTables = s.moverTables)
include same

theorem cmd?_of_moverTables (cid : Nat) : t.cmd? cid = s.cmd? cid := 
  congrArg (fun x : Queues × Tiers => tget? x.1.cmds cid) same

theorem waiting_of_moverTables : t.tiers.waiting = s.tiers.waiting := 
  congrArg (fun x : Queues × Tiers => x.2.waiting) same
end

@[simp] theorem moverTables_modCoh (s : State) (f : Coherence → Coherence) :
    (modCoh s f).moverTables = s.moverTables := rfl

@[simp] theorem moverTables_modHome (s : State) (md : Nat) (f : Home → Home) :
    (modHome s md f).moverTables = s.moverTables := rfl

@[simp] theorem moverTables_dropAgentLine (s : State) (a ln : Nat) :
    (dropAgentLine s a ln).moverTables = s.moverTables := rfl

@[simp] theorem moverTables_setPoison (s : State) (ln : Nat) (p : Bool) :
    (setPoison s ln p).moverTables = s.moverTables := by
  unfold setPoison
  repeat' split
  all_goals rfl

@[simp] theorem moverTables_storeLine (s : State) (ln : Nat) (d : Line) (p : Bool) :
    (storeLine s ln d p).moverTables = s.moverTables := by
  unfold storeLine
  split
  · rfl
  · exact moverTables_setPoison _ ln p

@[simp] theorem moverTables_mergeL1 (s : State) (a ln : Nat) : (mergeL1 s a ln).moverTables = s.moverTables :=
  read_mergeL1 State.moverTables s a ln (fun _ => rfl) fun _ _ => rfl

@[simp] theorem moverTables_invalAll (s : State) (ln : Nat) : (invalAll s ln).moverTables = s.moverTables := by
  rw [invalAll, moverTables_modCoh]
  refine foldl_read_of_keeps (fun a _ u => ?_) s
  split
  · rw [moverTables_dropAgentLine, moverTables_mergeL1]
  · rfl

@[simp] theorem moverTables_cohFlush (s : State) (ln : Nat) : (cohFlush s ln).moverTables = s.moverTables := by
  unfold cohFlush
  simp only
  split
  · rw [moverTables_storeLine, moverTables_modHome, moverTables_invalAll]
  · rw [moverTables_modHome, moverTables_invalAll]

@[simp] theorem moverTables_putClaim (s : State) (e : Nat) (w : W32) : (putClaim s e w).moverTables = s.moverTables := by
  have copies := foldl_read_of_keeps (l := List.range 6) (read := State.moverTables)
    (step := fun s md => if dieUp s (5 + md) then
      { s with mem := memWrite s.mem (fld s (5 + md) R.MEM_CLAIM_BASE_BASE * 2 ^ 24 + 4 * e) (leBytes 4 w.toNat) } else s)
    (fun md _ u => by split <;> rfl) s
  unfold putClaim
  simp only
  split
  · exact copies
  · exact copies

@[simp] theorem moverTables_poolClaim (s : State) (e : Nat) (ctx : BitVec 16) (mode : Nat) :
    (poolClaim s e ctx mode).moverTables = s.moverTables :=
  (foldl_read_of_keeps (read := State.moverTables) (fun ln _ u => moverTables_cohFlush u ln) _).trans
    (moverTables_putClaim s e _)

@[simp] theorem moverTables_zeroExtents (s : State) (first last : Nat) :
    (zeroExtents s first last).moverTables = s.moverTables := rfl

@[simp] theorem moverTables_extCopy (s : State) (src dst : Nat) : (extCopy s src dst).moverTables = s.moverTables :=
  foldl_read_of_keeps (read := State.moverTables) (fun _ _ u => moverTables_setPoison u _ true) _

/-- An extent whose claim is given back, where the handle's data lies in memory. -/
theorem moverTables_poolClaim_if (s : State) (c : Prop) [Decidable c] (e : Nat) (ctx : BitVec 16) (mode : Nat) :
    (if c then poolClaim s e ctx mode else s).moverTables = s.moverTables := by
  split
  · exact moverTables_poolClaim ..
  · rfl

/-! ## Moves (R316) -/

theorem waiting_moveStart (s : State) (h lv e : Nat) (cid : Option Nat) :
    (moveStart s h lv e cid).tiers.waiting = s.tiers.waiting := by
  unfold moveStart
  split
  · rfl
  · next p _ =>
    have kept := waiting_of_moverTables (moverTables_poolClaim_if s (p.level < 2) p.extent 0 0)
    exact kept

/-- Where no command waits, none looks again. -/
theorem tierRetry_of_none {s : State} (none : s.tiers.waiting = []) : tierRetry s = s := by
  rw [tierRetry, none, List.foldl_nil]

end Sys2Proof.Machine
end

section
/-! PROOF. HBM and board tier, flash translation layer, pool and moves (R294 to R299, R301, R305 to R311, R314 to R316, R322,
R324, R489). -/

namespace Sys2Proof.Machine

/-! ## HBM and board lines (R294 to R296, R305 to R307) -/

section
variable {s : State} {ln : Nat} (inUse : lineRetired s ln = false)
include inUse

theorem readCodeword_eq (md : Nat) (e1 e2 : List (Fin 72)) : readCodeword s md ln e1 e2 =
    if linePoison s ln || decodes s md ((hbmPlace s (ln * 64)).1 % 4) ln e1 ||
        decodes s md ((hbmPlace s (ln * 64)).1 % 4) ln e2 then (s, false)
    else (setPoison s ln true, true) := by
  simp only [readCodeword, inUse, Bool.false_or]

section
variable (low : boardBase ≤ ln * 64) (high : ln * 64 < boardEnd) (poison linkErr : Bool)
include low high

theorem boardAccess_write (d : Line) : boardAccess s ln (some d) poison linkErr = storeLine s ln d (poison || linkErr) :=
  if_neg (not_or.2 ⟨not_lt.2 low, not_or.2 ⟨not_le.2 high, by rw [inUse]; decide⟩⟩)

theorem boardAccess_read : boardAccess s ln none poison linkErr = if linkErr then setPoison s ln true else s :=
  if_neg (not_or.2 ⟨not_lt.2 low, not_or.2 ⟨not_le.2 high, by rw [inUse]; decide⟩⟩)
end
end

section
variable {s : State} {ln md : Nat} (hbm : ln * 64 < hbmEnd) (home : homeOfLine s ln = md)
include hbm home

theorem hbmAccess_write (d : Line) (e1 e2 : List (Fin 72)) : hbmAccess s md ln (some d) e1 e2 = storeLine s ln d false :=
  if_neg (not_or.2 ⟨not_le.2 hbm, not_not.2 home⟩)

theorem hbmAccess_read (e1 e2 : List (Fin 72)) : hbmAccess s md ln none e1 e2 = (readCodeword s md ln e1 e2).1 :=
  if_neg (not_or.2 ⟨not_le.2 hbm, not_not.2 home⟩)
end

/-! ## The controller's grant and the refresh level (R298, R301) -/

section
variable {s : State} {md stack : Nat} {time : W64}

theorem hbmGrant_of_next {r : HbmReq} {h : HbmDie} (next : hbmNext (fillBuckets (setTime s time) md) md stack = some (r, h)) :
    hbmGrant s md stack time = modTiers (fillBuckets (setTime s time) md) fun x => { x with hbm := tset x.hbm md h } := by
  simp only [hbmGrant, next]

theorem hbmGrant_of_none (none : hbmNext (fillBuckets (setTime s time) md) md stack = none) :
    hbmGrant s md stack time = fillBuckets (setTime s time) md := by
  simp only [hbmGrant, none]
end

/-- Below 105 °C the refresh level rises to 2 at most. -/
theorem refreshNext_le {cur temp : Nat} (cool : temp < 105) : refreshNext cur temp ≤ max cur 2 := by
  have raw : (if 105 ≤ temp then 3 else if 95 ≤ temp then 2 else if 85 ≤ temp then 1 else 0) ≤ 2 := by
    rw [if_neg (not_le.2 cool)]
    split
    · exact le_rfl
    · split <;> decide
  simp only [refreshNext]
  generalize (if 105 ≤ temp then 3 else if 95 ≤ temp then 2 else if 85 ≤ temp then 1 else 0) = r at raw ⊢
  split
  · exact max_le_max le_rfl raw
  · refine max_le (raw.trans (le_max_right ..)) (le_trans ?_ (le_max_left ..))
    refine List.foldlRecOn (motive := (· ≤ cur)) _ _ (Nat.zero_le cur) fun n within m held => max_le within ?_
    obtain ⟨k, below, rfl⟩ := List.mem_map.1 (List.mem_filter.1 held).1
    exact List.mem_range.1 below

/-- From level 0 a sample raises the level at once. -/
theorem refreshNext_zero {temp : Nat} (cool : temp < 105) :
    refreshNext 0 temp = if 95 ≤ temp then 2 else if 85 ≤ temp then 1 else 0 := by
  simp only [refreshNext, if_neg (not_le.2 cool), Nat.zero_le, or_true, if_true, Nat.zero_max]

theorem fldAt_lt (s : State) (die : Nat) (f : FRef) (i : Nat) : fldAt s die f i < 2 ^ (f.hi - f.lo + 1) :=
  Nat.mod_lt _ (Nat.two_pow_pos _)

/-- A sample that does not raise the level to 3 sets its two fields (R298, R299). -/
theorem hbmTemp_of_cool {temp : Nat} (cool : temp < 105) (s : State) (md stack : Nat) : hbmTemp s md stack temp =
    setFldAt (setFldAt s (5 + md) R.MEM_HBM_STACK_TEMP stack temp) (5 + md) R.MEM_HBM_STACK_REFRESH stack
      (refreshNext (fldAt s (5 + md) R.MEM_HBM_STACK_REFRESH stack) temp) := by
  have width : fldAt s (5 + md) R.MEM_HBM_STACK_REFRESH stack < 4 := fldAt_lt ..
  have level := refreshNext_le (cur := fldAt s (5 + md) R.MEM_HBM_STACK_REFRESH stack) cool
  have stays : ¬ (refreshNext (fldAt s (5 + md) R.MEM_HBM_STACK_REFRESH stack) temp = 3 ∧
      fldAt s (5 + md) R.MEM_HBM_STACK_REFRESH stack ≠ 3) := by omega
  exact if_neg stays

theorem fldAt_hbmTemp {temp : Nat} (cool : temp < 105) (s : State) (md stack : Nat) :
    fldAt (hbmTemp s md stack temp) (5 + md) R.MEM_HBM_STACK_TEMP stack = temp ∧
      fldAt (hbmTemp s md stack temp) (5 + md) R.MEM_HBM_STACK_REFRESH stack =
        refreshNext (fldAt s (5 + md) R.MEM_HBM_STACK_REFRESH stack) temp := by
  have width : fldAt s (5 + md) R.MEM_HBM_STACK_REFRESH stack < 4 := fldAt_lt ..
  have level := refreshNext_le (cur := fldAt s (5 + md) R.MEM_HBM_STACK_REFRESH stack) cool
  rw [hbmTemp_of_cool cool]
  constructor
  · rw [fldAt_setFldAt_bits _ _ R.MEM_HBM_STACK_REFRESH stack _ R.MEM_HBM_STACK_TEMP stack rfl rfl (by decide) (by decide)
        (by decide) (by decide),
      fldAt_setFldAt_self _ _ _ _ _ (by decide) (by decide)]
    exact Nat.mod_eq_of_lt (lt_trans cool (by decide))
  · rw [fldAt_setFldAt_self _ _ _ _ _ (by decide) (by decide)]
    exact Nat.mod_eq_of_lt (show _ < 4 by omega)

/-! ## Flash (R308 to R310, R489) -/

/-- The tables of the translation layer once a page's program is complete (R309). -/
def Tiers.programmed (t : Tiers) (w : FlashWrite) : Tiers :=
  { t with
    writes := t.writes.erase w
    pages := tset (match tget? t.map w.page with | some old => tdel t.pages old | none => t.pages) (freshPage t none) w.data
    map := tset t.map w.page (freshPage t none)
    nextPage := freshPage t none + 1 }

theorem flashWriteDone_of_pending {s : State} {page : Nat} {w : FlashWrite}
    (pending : s.tiers.writes.find? (fun x => x.page == page) = some w) :
    flashWriteDone s page = modTiers s (·.programmed w) := by
  have here : w.page = page := beq_iff_eq.1 (List.find?_some pending :)
  subst here
  simp only [flashWriteDone, pending]
  rfl

/-- Moving a block's pages changes neither what blocks are bad nor how often each was erased. -/
theorem flashMove_blocks (t : Tiers) (block : Nat) :
    (flashMove t block).badBlocks = t.badBlocks ∧ (flashMove t block).erases = t.erases := by
  have kept := foldl_read_of_keeps (read := fun t : Tiers => (t.badBlocks, t.erases))
    (step := fun t (e : Nat × Nat) =>
      let p := freshPage t (some block)
      { t with pages := tset (tdel t.pages e.2) p (tget t.pages e.2 []), map := tset t.map e.1 p, nextPage := p + 1 })
    (l := t.map.filter fun e => Config.flashBlock e.2 == block) (fun _ _ _ => rfl) t
  exact Prod.mk.inj kept

/-- The translation layer once a block's pages have moved, and the block is erased or retired (R310). -/
def Tiers.relocated (t : Tiers) (block reason : Nat) : Tiers :=
  { flashMove t block with
    erases := if reason = 3 then (flashMove t block).erases
      else tset (flashMove t block).erases block (tget (flashMove t block).erases block 0 + 1)
    badBlocks := if reason = 3 then setAdd (flashMove t block).badBlocks block else (flashMove t block).badBlocks }

/-- The fields of TIER_FLASH_STATUS. -/
def flashStatus (wear spare : Nat) : List (FRef × Nat) :=
  [(R.TIER_FLASH_STATUS_WEAR_PCT, wear), (R.TIER_FLASH_STATUS_SPARE_PERMILLE, spare),
   (R.TIER_FLASH_STATUS_WRITES_STOPPED, b2n (spare < 20))]

/-- A relocation ends in a report of its status, and in an event where that says something new. -/
theorem flashRelocate_eq (s : State) (block reason wear spare : Nat) :
    ∃ report : Bool, flashRelocate s block reason wear spare =
      let t := setFlds 13 (flashStatus wear spare) (modTiers s (·.relocated block reason))
      if report then relEvent t 0x19 0 (body4 (wear + spare * 2 ^ 8 + b2n (spare < 20) * 2 ^ 18) 0 0 0) else t := ⟨_, rfl⟩

/-- What a reliability event leaves unchanged. -/
theorem relEvent_frame (s : State) (typ : Byte) (ctx : BitVec 16) (body : List Byte) :
    relEvent s typ ctx body = { s with regs := (relEvent s typ ctx body).regs, qs := (relEvent s typ ctx body).qs } := by
  unfold relEvent
  simp only
  split
  · rfl
  · rw [bumpErr_onlyRegs]

/-- A reliability event leaves the registers of every die but the hub. -/
theorem fld_relEvent {die : Nat} (other : die ≠ 0) {g : FRef} (window : g.off < 2 ^ 28) (s : State) (typ : Byte)
    (ctx : BitVec 16) (body : List Byte) : fld (relEvent s typ ctx body) die g = fld s die g := by
  unfold relEvent bumpErr bumpErrAt
  simp only
  split
  · rfl
  · split
    · exact fldAt_setFldAt_reg _ _ _ _ _ _ _ _ (regKey_ne_die other (by simpa using window) (by decide))
    · rfl

theorem fld_flashRelocate (s : State) (block reason wear spare : Nat) {f : FRef} {x : Nat}
    (here : (f, x) ∈ flashStatus wear spare) (fits : f.lo ≤ f.hi ∧ f.hi < 64 ∧ x < 2 ^ (f.hi - f.lo + 1))
    (window : f.off < 2 ^ 28) : fld (flashRelocate s block reason wear spare) 13 f = x := by
  have apart : ((flashStatus wear spare).map Prod.fst).Pairwise FRef.Apart := by
    rw [show (flashStatus wear spare).map Prod.fst = [R.TIER_FLASH_STATUS_WEAR_PCT, R.TIER_FLASH_STATUS_SPARE_PERMILLE,
      R.TIER_FLASH_STATUS_WRITES_STOPPED] from rfl]
    decide
  have set := fld_setFlds_of_mem apart here fits 13 (modTiers s (·.relocated block reason))
  obtain ⟨report, ends⟩ := flashRelocate_eq s block reason wear spare
  rw [ends]
  simp only
  split
  · exact (fld_relEvent (by decide) window ..).trans set
  · exact set

/-- Only registers and the queues' events change besides the translation layer. -/
theorem flashRelocate_tiers (s : State) (block reason wear spare : Nat) :
    SameMemory s (flashRelocate s block reason wear spare) ∧
      (flashRelocate s block reason wear spare).tiers = s.tiers.relocated block reason := by
  have stores := sameMemory_setFlds 13 (flashStatus wear spare) (modTiers s (·.relocated block reason))
  obtain ⟨report, ends⟩ := flashRelocate_eq s block reason wear spare
  rw [ends]
  simp only
  split
  · rw [relEvent_frame]
    exact ⟨stores, rfl⟩
  · exact ⟨stores, rfl⟩

/-! ## Ages and evictions (R314, R315) -/

/-- A handle after an age collection that finds the extents `touched`. -/
def PoolEnt.aged (touched : List Nat) (p : PoolEnt) : PoolEnt :=
  if p.level = 2 then p else { p with
    heldNow := false
    age := if p.extent ∈ touched ∨ p.hold ≠ 0 ∨ p.heldNow = true then 0 else min 255 (p.age + 1) }

theorem poolAge_pool (s : State) : (poolAge s).tiers.pool = s.tiers.pool.map fun e => (e.1, e.2.aged s.tiers.touched) := by
  refine List.map_congr_left fun e _ => ?_
  simp only [PoolEnt.aged, Bool.or_eq_true, List.contains_iff_mem, bne_iff_ne, or_assoc]
  split <;> rfl

theorem tget?_poolAge {s : State} {h : Nat} {p : PoolEnt} (found : tget? s.tiers.pool h = some p) :
    tget? (poolAge s).tiers.pool h = some (p.aged s.tiers.touched) := by
  rw [poolAge_pool, tget?_map s.tiers.pool (fun _ => PoolEnt.aged s.tiers.touched), found]
  rfl

/-- Does eviction from a level go on, or a command wait for an extent, or a context exceed its quota (R315, R317)? -/
def evictDue (u : State) (board : Bool) (q : Option (BitVec 16)) : Bool :=
  let level := if board then 1 else 0
  match q with
  | some c => quotaAt u.tiers c level < poolUse u.tiers c level || poolDemand u level
  | none => (if board then u.tiers.evicting.2 else u.tiers.evicting.1) || poolDemand u level

section
variable {s : State} {board : Bool} {q : Option (BitVec 16)}

theorem poolEvict_of_not_due (idle : evictDue (setEvicting s board) board q = false) :
    poolEvict s board q = setEvicting s board := if_pos (congrArg not idle)

/-- The oldest victim that may move, and has somewhere to go, moves. -/
theorem poolEvict_of_first {h lv e : Nat} {rest : List Nat} {p : PoolEnt} (due : evictDue (setEvicting s board) board q = true)
    (first : victims (setEvicting s board).tiers (if board then 1 else 0) q = h :: rest)
    (found : tget? (setEvicting s board).tiers.pool h = some p) (idle : extIdle (setEvicting s board) p.extent = true)
    (dst : evictDst (setEvicting s board) (if board then 1 else 0) p = some (lv, e)) :
    poolEvict s board q = moveStart (setEvicting s board) h lv e none := by
  refine (if_neg (ne_true_of_eq_false (congrArg not due))).trans ?_
  simp only [first, List.findSome?_cons, found, Option.bind_some, idle, if_true, dst, Option.map_some]
end

/-! ## Moves (R316, R322, R324) -/

theorem modTiers_modTiers (s : State) (f g : Tiers → Tiers) : modTiers (modTiers s f) g = modTiers s fun t => g (f t) := rfl

section
variable {s : State} {h : Nat} {m : PoolMove} {p : PoolEnt} (moving : tget? s.tiers.moves h = some m)
  (found : tget? s.tiers.pool h = some p)
include moving found

/-- A stream die seals the copy of a move to or from flash. -/
theorem streamTransfer_eq (unsealed : m.sealed_ = false) (served : streamDies s ≠ []) (flash : m.dstLevel = 2 ∨ p.level = 2) :
    streamTransfer s h = modTiers (if m.dstLevel = 2 then makeImage s h p true else s) fun t => { t with
      alternate := !t.alternate, moves := tset t.moves h { m with sealed_ := true } } := by
  have goes : ¬ (m.sealed_ || streamDies s == [] || (m.dstLevel != 2 && p.level != 2)) = true := by
    simpa [unsealed, served, or_iff_not_imp_left] using flash
  simp only [streamTransfer, moving, found, if_neg goes]

/-- The state once a move between HBM and board tier has ended. -/
def landed (s : State) (h : Nat) (p : PoolEnt) (m : PoolMove) : State :=
  modTiers (extCopy (poolClaim s m.dstExtent p.ctx 1) p.extent m.dstExtent) fun t => { t with
    pool := tset t.pool h { p with level := m.dstLevel, extent := m.dstExtent }
    images := tdel t.images h
    moves := tdel t.moves h }

variable (dst : m.dstLevel < 2) (src : p.level < 2) (own : m.cid = none)
include dst src own

omit moving found in
theorem moveFinish_of_memory : moveFinish s h p m = landed s h p m := by
  have inMemory : (p.level == 2) = false := beq_false_of_ne src.ne
  cases image : tget? s.tiers.images h with
  | none =>
    simp only [moveFinish, image, inMemory, Bool.false_and, Bool.false_eq_true, if_false, dst, if_true, own, dst.ne, Option.bind_none,
      modTiers_modTiers, landed]
  | some i =>
    simp only [moveFinish, image, inMemory, Bool.false_and, Bool.false_eq_true, if_false, dst, if_true, own, dst.ne, src.ne,
      Option.bind_none, modTiers_modTiers, landed]

theorem moveDone_of_memory (idle : extIdle s p.extent = true) (alone : s.tiers.waiting = []) (free : moversHeld s = false) :
    moveDone s h = landed s h p m := by
  have ready : moveReady s h p m = true := by simp [moveReady, idle, dst.ne, src.ne]
  have tables : (extCopy (poolClaim s m.dstExtent p.ctx 1) p.extent m.dstExtent).moverTables = s.moverTables :=
    (moverTables_extCopy ..).trans (moverTables_poolClaim ..)
  have run : moveDone s h = tierRetry (moveFinish s h p m) := by
    simp [moveDone, moving, found, dst.ne, free, ready]
  rw [run, moveFinish_of_memory dst src own]
  exact tierRetry_of_none ((waiting_of_moverTables tables).trans alone)
end

/-! ## The obligation -/

/-- Settles O27: lines by `storeLine` and `setPoison`, samples and flash by the fields and tables that they set, the pool by
the handle, the victim or the move that each event names. -/
theorem storedLinesFlashAndPool : Obligations.StoredLinesFlashAndPool := by
  constructor
  · intro s ln inUse
    refine ⟨fun md ctx e1 e2 hbm home => ⟨fun d => ?write, fun good => ?read, fun bad1 bad2 clean => ?poisons⟩,
      fun low high => ⟨fun d poison linkErr _ => ?boardWrite, fun poison => ?boardRead, fun poison _ => ?linkError⟩,
      fun md stack time => ⟨fun r h next => ?grant, fun none => ?noGrant⟩, fun md stack temp cool => ?temp⟩
    case write =>
      exact ⟨_, congrArg Host.Outcome.next (hbmAccess_write hbm home d e1 e2), memLine_storeLine inUse d false,
        linePoison_storeLine_clean inUse hbm d, sameRegs_storeLine .., fun a => memByte_storeLine_of_other s d false⟩
    case read =>
      refine congrArg Host.Outcome.next ((hbmAccess_read hbm home e1 e2).trans ?_)
      rw [readCodeword_eq inUse, if_pos (by simpa [or_assoc, or_comm, or_left_comm] using good)]
    case poisons =>
      have read : hbmAccess s md ln none e1 e2 = setPoison s ln true := by
        rw [hbmAccess_read hbm home, readCodeword_eq inUse, if_neg (by simp [bad1, bad2, clean])]
      exact ⟨_, congrArg Host.Outcome.next read, linePoison_setPoison s ln, setPoison_mem .., sameRegs_setPoison ..⟩
    case boardWrite =>
      refine ⟨_, congrArg Host.Outcome.next (boardAccess_write inUse low high ..), memLine_storeLine inUse ..,
        sameRegs_storeLine .., fun bad => ?_, fun a => memByte_storeLine_of_other s d _⟩
      rw [bad]
      exact linePoison_storeLine inUse d
    case boardRead => exact congrArg Host.Outcome.next (boardAccess_read inUse low high ..)
    case linkError =>
      exact ⟨_, congrArg Host.Outcome.next (boardAccess_read inUse low high ..), linePoison_setPoison s ln, setPoison_mem ..,
        sameRegs_setPoison ..⟩
    case grant => exact congrArg Host.Outcome.next (hbmGrant_of_next next)
    case noGrant => exact congrArg Host.Outcome.next (hbmGrant_of_none none)
    case temp =>
      obtain ⟨temperature, level⟩ := fldAt_hbmTemp cool s md stack
      refine ⟨_, rfl, ?_, temperature, level, fun zero => ?_⟩
      · rw [hbmTemp_of_cool cool]
        exact ⟨fun _ => rfl, rfl⟩
      · rw [level, zero, refreshNext_zero cool]
  · intro s
    refine ⟨fun page w pending => ?program, fun block reason wear spare => ?relocate, ?age,
      fun board q => ⟨fun idle => ?notDue, fun h rest p lv e due first found idle dst => ?evict⟩,
      fun h m p moving found => ⟨fun unsealed served dst => ?toFlash, fun unsealed served src dst => ?fromFlash,
        fun dst src own idle alone free => ?lands⟩⟩
    case program =>
      have here : w.page = page := beq_iff_eq.1 (List.find?_some pending :)
      refine ⟨_, freshPage s.tiers none, congrArg Host.Outcome.next (flashWriteDone_of_pending pending), ⟨fun _ => rfl, rfl⟩,
        ⟨rfl, rfl⟩, ?_, tget?_tset_self .., rfl⟩
      rw [← here]
      exact tget?_tset_self ..
    case relocate =>
      obtain ⟨memory, tiers⟩ := flashRelocate_tiers s block reason wear.toNat spare.toNat
      obtain ⟨bad, erases⟩ := flashMove_blocks s.tiers block
      have stopped : b2n (decide (spare.toNat < 20)) < 2 := by
        unfold b2n
        split <;> decide
      refine ⟨_, rfl, memory, ?_, ?_, ?_, fun retired => ?_, fun erased => ?_⟩
      · exact fld_flashRelocate _ _ _ _ _ (by simp [flashStatus]) ⟨by decide, by decide, wear.isLt⟩ (by decide)
      · exact fld_flashRelocate _ _ _ _ _ (by simp [flashStatus]) ⟨by decide, by decide, spare.isLt⟩ (by decide)
      · exact fld_flashRelocate _ _ _ _ _ (by simp [flashStatus]) ⟨by decide, by decide, stopped⟩ (by decide)
      · rw [tiers]
        have listed : (s.tiers.relocated block reason).badBlocks = setAdd (flashMove s.tiers block).badBlocks block :=
          if_pos (congrArg Fin.val retired)
        rw [listed]
        exact List.contains_iff_mem.1 (contains_setAdd ..)
      · rw [tiers]
        have counted : (s.tiers.relocated block reason).erases = tset s.tiers.erases block (tget s.tiers.erases block 0 + 1) := by
          rw [← erases]
          exact if_neg fun same => erased (Fin.ext same)
        rw [counted, tget_tset_self]
    case age => exact ⟨_, rfl, ⟨fun _ => rfl, rfl⟩, ⟨rfl, rfl⟩, fun h p found => tget?_poolAge found⟩
    case notDue => exact congrArg Host.Outcome.next (poolEvict_of_not_due idle)
    case evict => exact congrArg Host.Outcome.next (poolEvict_of_first due first found idle dst)
    case toFlash =>
      refine congrArg Host.Outcome.next ((streamTransfer_eq moving found unsealed served (.inl dst)).trans ?_)
      rw [if_pos dst]
    case fromFlash =>
      refine congrArg Host.Outcome.next ((streamTransfer_eq moving found unsealed served (.inr src)).trans ?_)
      rw [if_neg dst]
    case lands =>
      exact ⟨_, _, congrArg Host.Outcome.next (moveDone_of_memory moving found dst src own idle alone free),
        tget?_tdel_self .., tget?_tset_self .., rfl, rfl, rfl, rfl⟩

end Sys2Proof.Machine
end

section
/-! PROOF. The five TIER commands (R312, R317 to R321). -/

namespace Sys2Proof.Machine

/-! ## The end of a command -/

/-- A command has ended with a status. -/
def EndedWith (u : State) (cid : Nat) (status : Byte) : Prop := ∃ x, u.cmd? cid = some x ∧ x.st = .ended status

theorem tiers_finishCmd (s : State) (cid : Nat) (status : Byte) : (finishCmd s cid status).tiers = s.tiers := by
  have kept := congrArg State.tiers (endCmd_sansRecords s cid 3 status)
  exact kept

/-- What a unit may act on is a command that has started. -/
theorem started_of_runnable {s : State} {cid kind : Nat} {c : Cmd} (runs : runnable s cid kind = some c) :
    s.cmd? cid = some c ∧ c.st = .started := by
  unfold runnable at runs
  split at runs
  · next c' command =>
    split at runs
    · next ready =>
      obtain rfl := Option.some.inj runs
      exact ⟨command, ready.1⟩
    · cases runs
  · cases runs

section
variable {s : State} {cid : Nat} {c : Cmd} (command : s.cmd? cid = some c) (started : c.st = .started)
  (noRecord : (tierCmd c).result = 0)
include command started noRecord

/-- A TIER command with no result record ends, and no longer waits. -/
theorem tierEnd_spec (h : Nat) (status : Byte) :
    EndedWith (tierEnd s cid h status) cid status ∧
      (tierEnd s cid h status).tiers = { s.tiers with waiting := s.tiers.waiting.filter (· != cid) } := by
  have ends : tierEnd s cid h status =
      finishCmd (modTiers s fun t => { t with waiting := t.waiting.filter (· != cid) }) cid status := by
    rw [tierEnd, command]
    exact if_pos noRecord
  have command' : (modTiers s fun t => { t with waiting := t.waiting.filter (· != cid) }).cmd? cid = some c := command
  obtain ⟨x, here, ended⟩ := cmd?_endCmd_self 3 status command' started
  rw [ends]
  exact ⟨⟨x, here, congrArg Cmd.st ended⟩, tiers_finishCmd ..⟩

/-- Where no other one waits, the end of a command is all that its row does. -/
theorem tierRetry_tierEnd (alone : s.tiers.waiting = []) (h : Nat) (status : Byte) :
    EndedWith (tierRetry (tierEnd s cid h status)) cid status ∧ (tierRetry (tierEnd s cid h status)).tiers = s.tiers := by
  obtain ⟨ended, tiers⟩ := tierEnd_spec command started noRecord h status
  have same : (tierEnd s cid h status).tiers = s.tiers := by
    rw [tiers, alone, List.filter_nil, ← alone]
  rw [tierRetry_of_none ((congrArg Tiers.waiting same).trans alone)]
  exact ⟨ended, same⟩
end

/-! ## Which branch a command takes -/

theorem tierRow_eq {s : State} {cid op : Nat} {c : Cmd} (runs : runnable s cid 6 = some c) (isOp : (tierCmd c).op = op) :
    tierRow s cid op = tierRetry (tierRun s cid) := by
  simp only [tierRow, runs, isOp, decide_true, Bool.true_or, if_true]

theorem no_move_serves {s : State} {cid : Nat} (unmoved : ∀ m ∈ s.tiers.moves, m.2.cid ≠ some cid) :
    (s.tiers.moves.any fun m => m.2.cid == some cid) = false := by simpa using unmoved

section
variable {s : State} {cid : Nat} {c : Cmd} (runs : runnable s cid 6 = some c) (unmoved : ∀ m ∈ s.tiers.moves, m.2.cid ≠ some cid)
include runs unmoved

theorem tierRun_of_bad (bad : (tierCmd c).bad = true) : tierRun s cid = tierEnd s cid 0 0x0F := by
  have none := no_move_serves unmoved
  simp only [tierRun, runs, none, bad, Bool.false_eq_true, if_true, if_false]

variable (good : (tierCmd c).bad = false) (mover : (moverOf s c).isSome)
include good mover

theorem tierRun_of_alloc (alloc : (tierCmd c).op = 1) : tierRun s cid = tierAllocRun s cid c (tierCmd c) := by
  have none := no_move_serves unmoved
  have served : (moverOf s c).isNone = false := Option.isNone_eq_false_iff.2 mover
  simp only [tierRun, runs, none, good, served, alloc, Bool.false_eq_true, if_true, if_false]

variable (other : (tierCmd c).op ≠ 1)
include other

theorem tierRun_of_refused {st : Byte} (refused : handleOk s c (tierCmd c) = .inr st) :
    tierRun s cid = tierEnd s cid (tierCmd c).handle st := by
  have none := no_move_serves unmoved
  have served : (moverOf s c).isNone = false := Option.isNone_eq_false_iff.2 mover
  simp only [tierRun, runs, none, good, served, other, refused, Bool.false_eq_true, if_false]

/-- A command on a handle that passes its checks, and that no move holds. -/
theorem tierRun_of_accepted {p : PoolEnt} (accepted : handleOk s c (tierCmd c) = .inl p)
    (still : tget? s.tiers.moves (tierCmd c).handle = none) :
    tierRun s cid =
      if (tierCmd c).op = 2 then tierFreeRun s cid (tierCmd c) p
      else if (tierCmd c).op = 3 then tierHoldRun s cid c (tierCmd c) p
      else if (tierCmd c).op = 4 then
        tierEnd (modTiers s fun x => { x with pool := tset x.pool (tierCmd c).handle { p with hold := p.hold - 1 } }) cid
          (tierCmd c).handle 0
      else tierDemoteRun s cid c (tierCmd c) p := by
  have none := no_move_serves unmoved
  have served : (moverOf s c).isNone = false := Option.isNone_eq_false_iff.2 mover
  simp only [tierRun, runs, none, good, served, other, accepted, still, Option.isSome_none, Bool.false_eq_true, false_and,
    if_false]
end

/-! ## The checks on a handle (R321) -/

section
variable {s : State} {c : Cmd} {t : TierCmd} {p : PoolEnt} (found : tget? s.tiers.pool t.handle = some p)
include found

theorem handleOk_of_foreign (foreign : p.ctx ≠ c.ctx) : handleOk s c t = .inr 0x04 := by
  simp only [handleOk, found, foreign, ne_eq, not_false_eq_true, if_true]

theorem handleOk_of_fit (own : p.ctx = c.ctx) (unheld : t.op = 2 ∨ t.op = 5 → p.hold = 0) (held : t.op = 4 → p.hold ≠ 0)
    (down : t.op = 5 → p.level < t.level) (room : t.op = 3 → p.hold < 255) : handleOk s c t = .inl p := by
  have fit : ¬ (((t.op = 2 ∨ t.op = 5) ∧ p.hold ≠ 0) ∨ (t.op = 4 ∧ p.hold = 0) ∨ (t.op = 5 ∧ t.level ≤ p.level)
      ∨ (t.op = 3 ∧ 255 ≤ p.hold)) := by
    rintro (⟨op, h⟩ | ⟨op, h⟩ | ⟨op, h⟩ | ⟨op, h⟩)
    · exact h (unheld op)
    · exact held op h
    · exact absurd (down op) (not_lt.2 h)
    · exact absurd (room op) (not_lt.2 h)
  simp only [handleOk, found, own, ne_eq, not_true_eq_false, if_false, if_neg fit]
end

/-! ## What each command leaves -/

/-- The state in which ALLOC has given a context the extent `e` under handle `n` (R312). -/
def allotted (s : State) (c : Cmd) (e n : Nat) : State :=
  modTiers (zeroExtents (poolClaim s e c.ctx 1) e e) fun x => { x with
    pool := tset x.pool n { ctx := c.ctx, level := (tierCmd c).level, extent := e, place := (tierCmd c).place, hold := 1 } }

theorem allotted_keeps (s : State) (c : Cmd) (e n cid : Nat) :
    (allotted s c e n).cmd? cid = s.cmd? cid ∧ (allotted s c e n).tiers.waiting = s.tiers.waiting := by
  have tables := (moverTables_zeroExtents _ e e).trans (moverTables_poolClaim s e c.ctx 1)
  have command := cmd?_of_moverTables tables cid
  have waiting := waiting_of_moverTables tables
  exact ⟨command, waiting⟩

theorem tierAllocRun_of_room {s : State} {c : Cmd} {e n : Nat}
    (room : poolRoom s c.ctx (tierCmd c).level (if (tierCmd c).level = 0 then some (tierCmd c).place else none) = .inl (some e))
    (free : freeHandle s.tiers = some n) (cid : Nat) :
    tierAllocRun s cid c (tierCmd c) = tierEnd (allotted s c e n) cid n 0 := by
  simp only [tierAllocRun, room, free]
  rfl

/-- The state in which a handle with its extent and image is free (R318). -/
def freed (s : State) (h : Nat) (p : PoolEnt) : State :=
  modTiers (if p.level < 2 then poolClaim s p.extent 0 0 else s) fun x => { x with
    pool := tdel x.pool h
    map := (((tget? x.images h).map (·.lpages)).getD []).foldl tdel x.map
    images := tdel x.images h }

theorem freed_keeps (s : State) (h : Nat) (p : PoolEnt) (cid : Nat) :
    (freed s h p).cmd? cid = s.cmd? cid ∧ (freed s h p).tiers.waiting = s.tiers.waiting := by
  have tables := moverTables_poolClaim_if s (p.level < 2) p.extent 0 0
  have command := cmd?_of_moverTables tables cid
  have waiting := waiting_of_moverTables tables
  exact ⟨command, waiting⟩

theorem tierFreeRun_of_idle {s : State} {cid : Nat} {c : Cmd} {t : TierCmd} {p : PoolEnt} (command : s.cmd? cid = some c)
    (idle : p.level < 2 → extIdle s p.extent = true) :
    tierFreeRun s cid t p = tierEnd (freed s t.handle p) cid t.handle 0 := by
  have goes : ¬ (decide (p.level < 2) && !extIdle s p.extent) = true := by simpa using idle
  rw [tierFreeRun, if_neg goes]
  have command' := (freed_keeps s t.handle p cid).1.trans command
  unfold freed at command'
  simp only [command']
  rfl

theorem tierHoldRun_of_near {s : State} {cid : Nat} {c : Cmd} {t : TierCmd} {p : PoolEnt} (near : p.level ≤ t.level)
    (memory : p.level < 2) : tierHoldRun s cid c t p = tierEnd (modTiers s fun x => { x with
      pool := tset x.pool t.handle { p with hold := p.hold + 1, heldNow := true } }) cid t.handle 0 :=
  if_pos ⟨near, memory⟩

theorem tierDemoteRun_of_room {s : State} {cid e : Nat} {c : Cmd} {t : TierCmd} {p : PoolEnt}
    (room : poolRoom s c.ctx t.level none = .inl (some e)) (kept : dataRetired s t.handle p = false)
    (idle : extIdle s p.extent = true) : tierDemoteRun s cid c t p = moveStart s t.handle t.level e (some cid) := by
  simp only [tierDemoteRun, room, kept, idle, Bool.false_eq_true, if_true, if_false]

/-- A HOLD that is not malformed is to a level of memory. -/
theorem level_of_good_hold {t : TierCmd} (good : t.bad = false) (hold : t.op = 3) : t.level ≤ 1 := by
  simp only [TierCmd.bad, Bool.or_eq_false_iff, hold] at good
  simpa using good.1.2

/-- An ALLOC that has waited too long (R321). -/
theorem poolTimeout_of_alloc {s : State} {cid : Nat} {c : Cmd} (command : s.cmd? cid = some c) (waits : cid ∈ s.tiers.waiting)
    (alloc : (tierCmd c).op = 1) : poolTimeout s cid = tierEnd s cid 0 0x0C := by
  have listed : s.tiers.waiting.contains cid = true := List.contains_iff_mem.2 waits
  have ends : ¬ ((tierCmd c).op = 2 ∨ ((tierCmd c).op ≠ 1 ∧ (tget? s.tiers.moves (tierCmd c).handle).isSome)) := by
    simp [alloc]
  rw [poolTimeout, if_pos listed]
  simp only [command, if_neg ends, if_pos alloc]

/-! ## The obligation -/

/-- A TIER command whose turn it is: it may act, no move serves it and no command waits, and it names no result record. -/
structure TierTurn (s : State) (cid : Nat) (c : Cmd) : Prop where
  runs : runnable s cid 6 = some c
  alone : s.tiers.waiting = []
  unmoved : ∀ m ∈ s.tiers.moves, m.2.cid ≠ some cid
  noRecord : (tierCmd c).result = 0

section
variable {s u : State} {cid op h : Nat} {c : Cmd} {status : Byte} (turn : TierTurn s cid c) (isOp : (tierCmd c).op = op)
include turn isOp

/-- A command whose work ends it, from a state with the same commands and with none waiting. -/
theorem TierTurn.ends (run : tierRun s cid = tierEnd u cid h status) (same : u.cmd? cid = s.cmd? cid)
    (alone : u.tiers.waiting = s.tiers.waiting) :
    EndedWith (tierRow s cid op) cid status ∧ (tierRow s cid op).tiers = u.tiers := by
  obtain ⟨command, started⟩ := started_of_runnable turn.runs
  rw [tierRow_eq turn.runs isOp, run]
  exact tierRetry_tierEnd (same.trans command) started turn.noRecord (alone.trans turn.alone) h status

/-- Such a work leaves the tables of the tiers that it finds the end of the command in. -/
theorem TierTurn.ends_pool (run : tierRun s cid = tierEnd u cid h status) (same : u.cmd? cid = s.cmd? cid)
    (alone : u.tiers.waiting = s.tiers.waiting) :
    EndedWith (tierRow s cid op) cid status ∧ (tierRow s cid op).tiers.pool = u.tiers.pool :=
  (turn.ends isOp run same alone).imp_right (congrArg Tiers.pool)
end

/-- The row of an OP, as `exec` runs it. -/
theorem exec_tierRow (s : State) (cid : Nat) {op : Nat} (low : 1 ≤ op) (high : op ≤ 5) :
    exec (if op = 1 then Instr.tierAlloc cid else if op = 2 then .tierFree cid else if op = 3 then .tierHold cid
      else if op = 4 then .tierRelease cid else .tierDemote cid) s = .next (tierRow s cid op) := by
  obtain rfl | rfl | rfl | rfl | rfl : op = 1 ∨ op = 2 ∨ op = 3 ∨ op = 4 ∨ op = 5 := by omega
  all_goals rfl

/-- Settles O28: each command by the state in which it ends, a DEMOTE by the move that it starts. -/
theorem tierCommandsActOnHandles : Obligations.TierCommandsActOnHandles := by
  intro s cid c runs
  dsimp only
  intro alone unmoved noRecord low high
  have turn : TierTurn s cid c := ⟨runs, alone, unmoved, noRecord⟩
  obtain ⟨command, started⟩ := started_of_runnable runs
  refine ⟨fun bad => ?malformed, fun good mover => ⟨fun e n alloc room free => ?alloc, fun p found other foreign => ?foreign,
    fun p found own still => ⟨fun free unheld idle => ?free, fun hold few near => ?hold, fun release held => ?release,
      fun e demote unheld down room kept idle => ?demote⟩⟩, fun v waits alloc => ?timeout⟩
  case malformed =>
    obtain ⟨ends, pool⟩ := turn.ends_pool rfl (tierRun_of_bad runs unmoved bad) rfl rfl
    exact ⟨_, exec_tierRow s cid low high, ends, pool⟩
  case alloc =>
    obtain ⟨same, waiting⟩ := allotted_keeps s c e n cid
    have run := (tierRun_of_alloc runs unmoved good mover alloc).trans (tierAllocRun_of_room room free cid)
    obtain ⟨ends, pool⟩ := turn.ends_pool alloc run same waiting
    exact ⟨_, rfl, ends, by rw [pool]; exact tget?_tset_self ..⟩
  case foreign =>
    have run := tierRun_of_refused runs unmoved good mover other (handleOk_of_foreign found foreign)
    obtain ⟨ends, pool⟩ := turn.ends_pool rfl run rfl rfl
    exact ⟨_, exec_tierRow s cid low high, ends, pool⟩
  case free =>
    have accepted : handleOk s c (tierCmd c) = .inl p :=
      handleOk_of_fit found own (fun _ => unheld) (by omega) (by omega) (by omega)
    obtain ⟨same, waiting⟩ := freed_keeps s (tierCmd c).handle p cid
    have run := (tierRun_of_accepted runs unmoved good mover (by omega) accepted still).trans (if_pos free)
    obtain ⟨ends, pool⟩ := turn.ends_pool free (run.trans (tierFreeRun_of_idle command idle)) same waiting
    exact ⟨_, rfl, ends, by rw [pool]; exact tget?_tdel_self ..⟩
  case hold =>
    have memory : p.level < 2 := Nat.lt_succ_of_le (near.trans (level_of_good_hold good hold))
    have accepted : handleOk s c (tierCmd c) = .inl p :=
      handleOk_of_fit found own (by omega) (by omega) (by omega) (fun _ => few)
    have run := tierRun_of_accepted runs unmoved good mover (by omega) accepted still
    rw [if_neg (by omega), if_pos hold, tierHoldRun_of_near near memory] at run
    obtain ⟨ends, pool⟩ := turn.ends_pool hold run rfl rfl
    exact ⟨_, rfl, ends, by rw [pool]; exact tget?_tset_self ..⟩
  case release =>
    have accepted : handleOk s c (tierCmd c) = .inl p :=
      handleOk_of_fit found own (by omega) (fun _ => held) (by omega) (by omega)
    have run := tierRun_of_accepted runs unmoved good mover (by omega) accepted still
    rw [if_neg (by omega), if_neg (by omega), if_pos release] at run
    obtain ⟨ends, pool⟩ := turn.ends_pool release run rfl rfl
    exact ⟨_, rfl, ends, by rw [pool]; exact tget?_tset_self ..⟩
  case demote =>
    have accepted : handleOk s c (tierCmd c) = .inl p :=
      handleOk_of_fit found own (fun _ => unheld) (by omega) (fun _ => down) (by omega)
    have run := tierRun_of_accepted runs unmoved good mover (by omega) accepted still
    rw [if_neg (by omega), if_neg (by omega), if_neg (by omega), tierDemoteRun_of_room room kept idle] at run
    refine congrArg Host.Outcome.next ((tierRow_eq runs demote).trans ?_)
    rw [run, tierRetry_of_none ((waiting_moveStart ..).trans alone)]
  case timeout =>
    subst waits
    have command' : State.cmd? { s with tiers := { s.tiers with waiting := [cid] } } cid = some c := command
    obtain ⟨ends, tiers⟩ := tierEnd_spec command' started noRecord 0 0x0C
    refine ⟨_, congrArg Host.Outcome.next (poolTimeout_of_alloc command' List.mem_cons_self alloc), ends, ?_⟩
    rw [tiers]
    simp

end Sys2Proof.Machine
end

section
/-! PROOF. The life of a KSL port (R325 to R327, R330, R341 to R343, R510). -/

namespace Sys2Proof.Machine

/-! ## What sending on a port changes -/

/-- `t` is `s` but for the KSL ports. -/
def OnlyKsl (s t : State) : Prop := t = { s with ksl := t.ksl }

theorem OnlyKsl.trans {s t u : State} (h : OnlyKsl s t) (h' : OnlyKsl t u) : OnlyKsl s u := by
  unfold OnlyKsl at *
  rw [h', h]

theorem OnlyKsl.sameMemory {s t : State} (h : OnlyKsl s t) : SameMemory s t := by
  rw [h]; exact ⟨fun _ => rfl, rfl⟩

theorem OnlyKsl.sameRegs {s t : State} (h : OnlyKsl s t) : SameRegs s t := by
  rw [h]; exact ⟨rfl, rfl⟩

theorem OnlyKsl.fldAt {s t : State} (h : OnlyKsl s t) (die : Nat) (f : FRef) (i : Nat) : fldAt t die f i = fldAt s die f i := by
  rw [h]; rfl

theorem OnlyKsl.qs {s t : State} (h : OnlyKsl s t) : t.qs = s.qs := by rw [h]

theorem OnlyKsl.hart {s t : State} (h : OnlyKsl s t) (k : Nat) : t.hart k = s.hart k := by rw [h]; rfl

theorem OnlyRegs.port {s t : State} (h : OnlyRegs s t) (p : Nat) : t.port p = s.port p := by rw [h]; rfl

theorem modPort_onlyKsl (s : State) (p : Nat) (f : KslPort → KslPort) : OnlyKsl s (modPort s p f) := rfl

theorem kslRun_onlyKsl (s : State) (p : Nat) : OnlyKsl s (kslRun s p) := by
  unfold kslRun
  split
  · exact modPort_onlyKsl ..
  · rfl

theorem kslSend_onlyKsl (s : State) (p : Nat) (h : KslHdr) (b : List Byte) : OnlyKsl s (kslSend s p h b) :=
  (modPort_onlyKsl ..).trans (kslRun_onlyKsl ..)

/-- No transaction and no request waits to be sent. -/
structure KslPort.Quiet (x : KslPort) : Prop where
  txq : x.txq = []
  outq : x.outq = []

theorem kslTake_of_no_requests {x : KslPort} (outq : x.outq = []) : kslTake x = x := by
  simp only [kslTake, outq, List.foldl_nil]
  rw [← outq]

theorem kslPump_of_quiet {x : KslPort} (quiet : x.Quiet) : kslPump (kslTake x) = x := by
  simp only [kslTake_of_no_requests quiet.outq, kslPump, quiet.txq, List.foldl_nil]
  rw [← quiet.txq]

theorem port_kslRun_of_quiet {s : State} {p : Nat} (quiet : (s.port p).Quiet) : (kslRun s p).port p = s.port p := by
  unfold kslRun
  split
  · exact (port_modPort_self ..).trans (kslPump_of_quiet quiet)
  · rfl

/-- A message is its header slot, in a flit of its own (R331, log 19). -/
theorem kslFlits_header (h : KslHdr) : kslFlits 3 (kslHeader h ++ kslSlots []) = [kslHeader h] := by
  have length : (kslHeader h).length = 16 := by simp [kslHeader, leBytes_length]
  have whole : (kslHeader h).take 240 = kslHeader h := List.take_of_length_le (by omega)
  have rest : (kslHeader h).drop 240 = [] := List.drop_of_length_le (by omega)
  have nonempty : kslHeader h ≠ [] := List.ne_nil_of_length_pos (by omega)
  have slots : kslSlots [] = [] := rfl
  simp only [slots, List.append_nil, kslFlits, if_neg nonempty, whole, rest, if_true]

/-- A port after one message has gone: a flit more in the retry buffer, and one credit less (R330, R333). -/
def KslPort.sentMsg (x : KslPort) (h : KslHdr) : KslPort :=
  { x with txq := [], k3 := x.k3 - 1, txSeq := (x.txSeq + 1) % 4096
           retry := x.retry ++ [{ seq := (x.txSeq + 1) % 4096, slots := kslHeader h }] }

theorem kslPump_of_msg {x : KslPort} {h : KslHdr} (waits : x.txq = [(h, [])]) (msg : h.ttype = 6)
    (room : x.retry.length < 1024) (credit : 1 ≤ x.k3) : kslPump x = x.sentMsg h := by
  have cls : kslClass h.ttype = 3 := by rw [msg]; rfl
  have slots : ceilDiv (16 + 16 * ceilDiv ([] : List Byte).length 16) 240 = 1 := rfl
  have goes : x.retry.length + 1 ≤ 1024 := room
  simp only [kslPump, waits, List.foldl_cons, List.foldl_nil, cls, slots, goes, kslCredit, credit, kslEmit, kslFlits_header,
    List.contains_nil, Bool.not_false, decide_true, Bool.and_self, if_true, KslPort.sentMsg]

theorem port_kslSend_msg {s : State} {p : Nat} {h : KslHdr} (up : portUp s p = true) (quiet : (s.port p).Quiet)
    (msg : h.ttype = 6) (room : (s.port p).retry.length < 1024) (credit : 1 ≤ (s.port p).k3) :
    (kslSend s p h []).port p = (s.port p).sentMsg h := by
  have up' : portUp (modPort s p fun x => { x with txq := x.txq ++ [(h, [])] }) p = true := up
  have waits : (s.port p).txq ++ [(h, [])] = [(h, [])] := by rw [quiet.txq, List.nil_append]
  have noRequests : ({ s.port p with txq := (s.port p).txq ++ [(h, [])] } : KslPort).outq = [] := quiet.outq
  rw [kslSend, kslRun, if_pos up', port_modPort_self, port_modPort_self, kslTake_of_no_requests noRequests]
  exact kslPump_of_msg waits msg room credit

/-! ## Registers of a port -/

/-- Setting a field of a port's register leaves the port's other registers. -/
theorem fldAt_setFldAt_of_off_ne (s : State) (die i x : Nat) {f g : FRef} (h : g.stride = f.stride ∧ g.off ≠ f.off) :
    fldAt (setFldAt s die f i x) die g i = fldAt s die g i := by
  obtain ⟨stride, off⟩ := h
  refine fldAt_setFldAt_reg _ _ _ _ _ _ _ _ fun same => off ?_
  rw [stride] at same
  exact Nat.add_right_cancel (Nat.add_left_cancel same)

/-- Setting a field of a port's register leaves the register's other fields. -/
theorem fldAt_setFldAt_of_apart (s : State) (die i x : Nat) {f g : FRef} (h : g.stride = f.stride ∧ g.Apart f) :
    fldAt (setFldAt s die f i x) die g i = fldAt s die g i := by
  obtain ⟨stride, off, cold, ordered, width, ordered', apart⟩ := h
  exact fldAt_setFldAt_bits _ _ _ _ _ _ _ (by rw [stride, off]) cold ordered width ordered' apart

theorem fldAt_setFldAt_of_fits (s : State) (die i : Nat) {x : Nat} {f : FRef} (h : f.lo ≤ f.hi ∧ f.hi < 64)
    (fits : x < 2 ^ (f.hi - f.lo + 1)) : fldAt (setFldAt s die f i x) die f i = x :=
  (fldAt_setFldAt_self _ _ _ _ _ h.1 h.2).trans (Nat.mod_eq_of_lt fits)

theorem fldAt_bumpErrAt_of_off_ne (s : State) (die i : Nat) {c g : FRef} (h : g.stride = c.stride ∧ g.off ≠ c.off) :
    fldAt (bumpErrAt s die c i) die g i = fldAt s die g i := by
  unfold bumpErrAt
  simp only
  split
  · exact fldAt_setFldAt_of_off_ne s die i _ h
  · rfl

theorem state_setPortState (s : State) (p : Nat) {n : Nat} (small : n < 16) :
    fldAt (setPortState s p n) 0 R.HUB_KSL_STAT_STATE p = n :=
  fldAt_setFldAt_of_fits _ _ _ (by decide) small

theorem portUp_of_state {s : State} {p : Nat} (up : fldAt s 0 R.HUB_KSL_STAT_STATE p = 2) : portUp s p = true :=
  beq_iff_eq.2 up

theorem not_portUp_of_state {s : State} {p : Nat} (down : fldAt s 0 R.HUB_KSL_STAT_STATE p ≠ 2) : ¬ portUp s p = true :=
  fun up => down (beq_iff_eq.1 up)

/-! ## Where training starts and ends (R325, R326) -/

/-- Port `p` of `t` is at step 1 of training, with the memory of `s`. -/
def Trains (s t : State) (p : Nat) : Prop :=
  fldAt t 0 R.HUB_KSL_STAT_STATE p = 1 ∧ (t.port p).step = 1 ∧ SameMemory s t

theorem trainStart_of_mated {s : State} {p : Nat} (mated : (s.port p).mated = true) : trainStart s p =
    modPort (setPortState s p 1) p fun x => { x with step := 1, failed := 0, retrainFails := 0 } :=
  if_pos mated

theorem trains_trainStart {s : State} {p : Nat} (mated : (s.port p).mated = true) : Trains s (trainStart s p) p := by
  rw [trainStart_of_mated mated]
  exact ⟨state_setPortState s p (by decide), congrArg KslPort.step (port_modPort_self ..), fun _ => rfl, rfl⟩

theorem trainEnd_spec (s : State) (p : Nat) {n : Nat} (small : n < 16) :
    fldAt (trainEnd s p n) 0 R.HUB_KSL_STAT_STATE p = n ∧ (trainEnd s p n).port p = { s.port p with step := 0 } ∧
      SameMemory s (trainEnd s p n) :=
  ⟨state_setPortState s p small, port_modPort_self .., fun _ => rfl, rfl⟩

theorem portLost_of_lost {s : State} {p : Nat} (lost : (s.port p).lost = true) : portLost s p = s := if_pos lost

theorem portLost_trainEnd_of_lost {s : State} {p : Nat} (lost : (s.port p).lost = true) (n : Nat) :
    portLost (trainEnd s p n) p = trainEnd s p n :=
  portLost_of_lost ((congrArg KslPort.lost (port_modPort_self ..)).trans lost)

/-! ## The steps of training (R326) -/

/-- The state in which the cable that step 2 measured is recorded. -/
def cableNoted (s : State) (p cable len loss : Nat) : State :=
  setFldAt (setFldAt (setFldAt s 0 R.HUB_KSL_STAT_CABLE p cable) 0 R.HUB_KSL_STAT_LENGTH p len) 0 R.HUB_KSL_STAT_LOSS p loss

section
variable {s : State} {p : Nat} (training : fldAt s 0 R.HUB_KSL_STAT_STATE p = 1)
include training

theorem trainStep_detected (step : (s.port p).step = 1) :
    trainStep s p .done = modPort s p fun x => { x with step := 2 } := by
  unfold trainStep
  dsimp only
  rw [if_neg (not_not.2 training), step]
  rfl

theorem trainStep_measured (step : (s.port p).step = 2) (cable : BitVec 2) (len : BitVec 10) (loss : BitVec 8) :
    trainStep s p (.measured cable len loss) =
      if (cable = 1 ∧ 30 < len.toNat) ∨ (cable = 2 ∧ 150 < len.toNat) ∨ 112 < loss.toNat
      then trainEnd (cableNoted s p cable.toNat len.toNat loss.toNat) p 0
      else modPort (cableNoted s p cable.toNat len.toNat loss.toNat) p fun x => { x with step := 3 } := by
  unfold trainStep
  dsimp only
  rw [if_neg (not_not.2 training), step]
  rfl

theorem trainStep_linked (step : (s.port p).step = 5) (role : Bool) (epoch : W32) : trainStep s p (.linked role epoch) =
    if b2n role = fldAt s 0 R.HUB_KSL_CFG_ROLE p then trainEnd s p 4 else portComesUp s p epoch.toNat := by
  unfold trainStep
  dsimp only
  rw [if_neg (not_not.2 training), step]
  rfl
end

theorem fldAt_cableNoted (s : State) (p : Nat) {cable len loss : Nat} (hc : cable < 4) (hl : len < 1024) (ho : loss < 256) :
    fldAt (cableNoted s p cable len loss) 0 R.HUB_KSL_STAT_CABLE p = cable ∧
      fldAt (cableNoted s p cable len loss) 0 R.HUB_KSL_STAT_LENGTH p = len ∧
      fldAt (cableNoted s p cable len loss) 0 R.HUB_KSL_STAT_LOSS p = loss ∧
      fldAt (cableNoted s p cable len loss) 0 R.HUB_KSL_STAT_STATE p = fldAt s 0 R.HUB_KSL_STAT_STATE p := by
  refine ⟨?_, ?_, ?_, ?_⟩
  · rw [cableNoted, fldAt_setFldAt_of_apart _ _ _ _ (by decide), fldAt_setFldAt_of_apart _ _ _ _ (by decide)]
    exact fldAt_setFldAt_of_fits _ _ _ (by decide) hc
  · rw [cableNoted, fldAt_setFldAt_of_apart _ _ _ _ (by decide)]
    exact fldAt_setFldAt_of_fits _ _ _ (by decide) hl
  · exact fldAt_setFldAt_of_fits _ _ _ (by decide) ho
  · rw [cableNoted, fldAt_setFldAt_of_apart _ _ _ _ (by decide), fldAt_setFldAt_of_apart _ _ _ _ (by decide),
      fldAt_setFldAt_of_apart _ _ _ _ (by decide)]

/-- STATE shares its register with what step 2 records. -/
theorem fldAt_setPortState_of_apart (s : State) (p n : Nat) {g : FRef}
    (h : g.stride = R.HUB_KSL_STAT_STATE.stride ∧ g.Apart R.HUB_KSL_STAT_STATE) :
    fldAt (setPortState s p n) 0 g p = fldAt s 0 g p := fldAt_setFldAt_of_apart s 0 p n h

/-! ## Step 5: the port comes up (R325, R333, R343) -/

/-- A port as it comes up: fresh credits, and what the retry buffer holds numbered anew. -/
def KslPort.fresh (x : KslPort) : KslPort :=
  { x with
    step := 0, lost := false, nak := false, part := none, rxSeq := 0, k1 := 1024, k2 := 4096, k3 := 64
    txSeq := x.retry.length
    retry := (x.retry.zip (List.range x.retry.length)).map fun f => { f.1 with seq := f.2 + 1, resends := 0 } }

/-- The state in which a port has come up, before it sends its epoch. -/
def linkUp (s : State) (p : Nat) : State := modPort (setPortState s p 2) p KslPort.fresh

theorem takeEpoch_of_same {s : State} {p v : Nat} (same : fldAt s 0 R.HUB_KSL_EPOCH_PEER_EPOCH p = v) : takeEpoch s p v = s :=
  if_pos same

theorem kslEpoch_onlyKsl (s : State) (p : Nat) : OnlyKsl s (kslEpoch s p) := kslSend_onlyKsl ..

theorem sameMemory_linkUp (s : State) (p : Nat) : SameMemory s (linkUp s p) := ⟨fun _ => rfl, rfl⟩

/-- The queues of a port whose NOTIFY is held for it (R325). -/
def heldQueues (s : State) (p : Nat) : List Nat := (s.qs.q.filter fun q => q.2.held && q.2.hport == p + 1).map (·.1)

theorem heldQueues_of_none_held {s : State} (noneHeld : ∀ q ∈ s.qs.q, q.2.held = false) (p : Nat) : heldQueues s p = [] :=
  List.map_eq_nil_iff.2 (List.filter_eq_nil_iff.2 fun q there => by simp [noneHeld q there])

theorem portComesUp_eq (s : State) (p epoch : Nat) :
    let t := kslEpoch (takeEpoch (linkUp s p) p epoch) p
    portComesUp s p epoch = kslRun ((heldQueues t p).foldl notifySend t) p := rfl

theorem portComesUp_of_same_epoch {s : State} {p epoch : Nat} (same : fldAt s 0 R.HUB_KSL_EPOCH_PEER_EPOCH p = epoch)
    (noneHeld : ∀ q ∈ s.qs.q, q.2.held = false) : portComesUp s p epoch = kslRun (kslEpoch (linkUp s p) p) p := by
  have unchanged : fldAt (linkUp s p) 0 R.HUB_KSL_EPOCH_PEER_EPOCH p = epoch :=
    (fldAt_setFldAt_of_off_ne s 0 p 2 (by decide)).trans same
  have none : heldQueues (kslEpoch (linkUp s p) p) p = [] :=
    heldQueues_of_none_held (by rw [(kslEpoch_onlyKsl ..).qs]; exact noneHeld) p
  rw [portComesUp_eq, takeEpoch_of_same unchanged, none, List.foldl_nil]

/-- A port with nothing in its retry buffer comes up and sends its epoch, the first flit of the link. -/
theorem port_portComesUp {s : State} {p epoch : Nat} (same : fldAt s 0 R.HUB_KSL_EPOCH_PEER_EPOCH p = epoch)
    (noneHeld : ∀ q ∈ s.qs.q, q.2.held = false) (quiet : (s.port p).Quiet) (retry : (s.port p).retry = []) :
    ∃ h, (portComesUp s p epoch).port p = (s.port p).fresh.sentMsg h := by
  have fresh : (linkUp s p).port p = (s.port p).fresh := port_modPort_self ..
  have calm : ((linkUp s p).port p).Quiet := by rw [fresh]; exact ⟨quiet.txq, quiet.outq⟩
  have up : portUp (linkUp s p) p = true := portUp_of_state (state_setPortState s p (by decide))
  have room : ((linkUp s p).port p).retry.length < 1024 := by simp [fresh, KslPort.fresh, retry]
  have credit : 1 ≤ ((linkUp s p).port p).k3 := by simp [fresh, KslPort.fresh]
  have sent : (kslEpoch (linkUp s p) p).port p = _ := port_kslSend_msg up calm rfl room credit
  have calm' : ((kslEpoch (linkUp s p) p).port p).Quiet := by rw [sent]; exact ⟨rfl, calm.outq⟩
  rw [portComesUp_of_same_epoch same noneHeld, port_kslRun_of_quiet calm', sent, fresh]
  exact ⟨_, rfl⟩

theorem portComesUp_state {s : State} {p epoch : Nat} (same : fldAt s 0 R.HUB_KSL_EPOCH_PEER_EPOCH p = epoch)
    (noneHeld : ∀ q ∈ s.qs.q, q.2.held = false) :
    fldAt (portComesUp s p epoch) 0 R.HUB_KSL_STAT_STATE p = 2 ∧ SameMemory s (portComesUp s p epoch) := by
  have only : OnlyKsl (linkUp s p) (kslRun (kslEpoch (linkUp s p) p) p) := (kslEpoch_onlyKsl ..).trans (kslRun_onlyKsl ..)
  rw [portComesUp_of_same_epoch same noneHeld]
  exact ⟨(only.fldAt ..).trans (state_setPortState s p (by decide)), (sameMemory_linkUp s p).trans only.sameMemory⟩

/-! ## Retraining (R342) -/

theorem kslRetrain_of_up {s : State} {p : Nat} (up : fldAt s 0 R.HUB_KSL_STAT_STATE p = 2) :
    kslRetrain s p = bumpErrAt (setPortState s p 3) 0 R.HUB_KSL_ERR_RETRAINS p := if_pos (portUp_of_state up)

/-- The state in which a retrained port is up again, before it sends. -/
def retrained (s : State) (p ack : Nat) : State :=
  modPort (setPortState s p 2) p fun x => { x with
    retrainFails := 0, retry := (afterAck x.retry ack).map fun f => { f with resends := 0 } }

theorem port_retrained (s : State) (p ack : Nat) : (retrained s p ack).port p = { s.port p with
    retrainFails := 0, retry := (afterAck (s.port p).retry ack).map fun f => { f with resends := 0 } } := port_modPort_self ..

theorem retrainDone_of_ok {s : State} {p : Nat} (retrains : fldAt s 0 R.HUB_KSL_STAT_STATE p = 3) (ack : Nat) :
    retrainDone s p true ack = kslRun (retrained s p ack) p := by
  simp only [retrainDone, retrains, ne_eq, not_true_eq_false, if_false, if_true]
  rfl

theorem retrainDone_of_third_failure {s : State} {p : Nat} (retrains : fldAt s 0 R.HUB_KSL_STAT_STATE p = 3)
    (failures : 2 ≤ (s.port p).retrainFails) (ack : Nat) : retrainDone s p false ack = trainStart s p := by
  have third : 3 ≤ (s.port p).retrainFails + 1 := Nat.succ_le_succ failures
  simp only [retrainDone, retrains, ne_eq, not_true_eq_false, Bool.false_eq_true, if_false, third, if_true]

/-! ## The obligation -/

/-- Settles O29: each event by where `trainStart`, `trainEnd` and `portLost` leave the port; a link that comes up by the
one message that it sends. -/
theorem kslPortsTrainAndRecover : Obligations.KslPortsTrainAndRecover := by
  intro s p
  dsimp only
  refine ⟨fun mated => ?enable, fun lost => ?disable, fun training step => ?detected,
    fun cable len loss training step => ?measured, fun role epoch training step same => ?mismatch,
    fun role epoch training step differs txq outq retry noneHeld peer => ?comesUp, fun training mated => ?timeout,
    fun up => ?retrain, fun ack retrains txq outq => ?comesBack, fun ack retrains mated failures => ?trainsAnew,
    fun up => ?stays, fun down linked => ?lost, fun down enabled => ?mate, fun lost => ?unmate, fun idle => ?overcurrent,
    ?powerRetry⟩
  case enable =>
    have trains := trains_trainStart (s := setFldAt s 0 R.HUB_KSL_CFG_ENABLE p 1) mated
    refine ⟨_, rfl, trains, ?_⟩
    have started := trainStart_of_mated (s := setFldAt s 0 R.HUB_KSL_CFG_ENABLE p 1) mated
    refine (congrArg (fldAt · 0 R.HUB_KSL_CFG_ENABLE p) started).trans ?_
    exact (fldAt_setFldAt_of_off_ne _ 0 p 1 (by decide)).trans (fldAt_setFldAt_of_fits s 0 p (by decide) (by decide))
  case disable =>
    obtain ⟨state, port, memory⟩ := trainEnd_spec (setFldAt s 0 R.HUB_KSL_CFG_ENABLE p 0) p (n := 0) (by decide)
    have stays := portLost_trainEnd_of_lost (s := setFldAt s 0 R.HUB_KSL_CFG_ENABLE p 0) lost 0
    refine ⟨_, congrArg Host.Outcome.next stays, state, ?_, congrArg KslPort.step port, memory⟩
    exact (fldAt_setFldAt_of_off_ne _ 0 p 0 (by decide)).trans (fldAt_setFldAt_of_fits s 0 p (by decide) (by decide))
  case detected => exact congrArg Host.Outcome.next (trainStep_detected training step)
  case measured =>
    obtain ⟨cableIs, lenIs, lossIs, stateIs⟩ := fldAt_cableNoted s p cable.isLt len.isLt loss.isLt
    refine ⟨_, congrArg Host.Outcome.next (trainStep_measured training step cable len loss), ?_⟩
    split
    · obtain ⟨state, port, memory⟩ := trainEnd_spec (cableNoted s p cable.toNat len.toNat loss.toNat) p (n := 0) (by decide)
      exact ⟨memory, (fldAt_setPortState_of_apart _ p 0 (by decide)).trans cableIs,
        (fldAt_setPortState_of_apart _ p 0 (by decide)).trans lenIs,
        (fldAt_setPortState_of_apart _ p 0 (by decide)).trans lossIs, state, congrArg KslPort.step port⟩
    · exact ⟨⟨fun _ => rfl, rfl⟩, cableIs, lenIs, lossIs, stateIs.trans training,
        congrArg KslPort.step (port_modPort_self ..)⟩
  case mismatch =>
    obtain ⟨state, -, memory⟩ := trainEnd_spec s p (n := 4) (by decide)
    exact ⟨_, congrArg Host.Outcome.next ((trainStep_linked training step role epoch).trans (if_pos same)), state, memory⟩
  case comesUp =>
    have comes := (trainStep_linked training step role epoch).trans (if_neg differs)
    obtain ⟨state, memory⟩ := portComesUp_state peer noneHeld
    obtain ⟨h, port⟩ := port_portComesUp peer noneHeld ⟨txq, outq⟩ retry
    refine ⟨_, congrArg Host.Outcome.next comes, state, memory, ?_⟩
    simp [port, KslPort.sentMsg, KslPort.fresh, retry]
  case timeout =>
    exact ⟨_, congrArg Host.Outcome.next (if_pos training), trains_trainStart mated⟩
  case retrain =>
    refine ⟨_, congrArg Host.Outcome.next (kslRetrain_of_up up), ?_, OnlyRegs.sameMemory (bumpErrAt_onlyRegs ..)⟩
    exact (fldAt_bumpErrAt_of_off_ne _ 0 p (by decide)).trans (state_setPortState s p (by decide))
  case comesBack =>
    have only := kslRun_onlyKsl (retrained s p ack.toNat) p
    have quiet : ((retrained s p ack.toNat).port p).Quiet := by rw [port_retrained]; exact ⟨txq, outq⟩
    refine ⟨_, congrArg Host.Outcome.next (retrainDone_of_ok retrains _),
      (only.fldAt ..).trans (state_setPortState s p (by decide)), only.sameMemory, ?_⟩
    rw [port_kslRun_of_quiet quiet, port_retrained]
  case trainsAnew =>
    exact ⟨_, congrArg Host.Outcome.next (retrainDone_of_third_failure retrains failures _), trains_trainStart mated⟩
  case stays => exact congrArg Host.Outcome.next (if_pos (portUp_of_state up))
  case lost =>
    refine congrArg Host.Outcome.next ((if_neg (not_portUp_of_state down)).trans (if_neg ?_))
    rw [linked]
    decide
  case mate =>
    have mated : ((modPort s p fun x => { x with mated := true }).port p).mated = true :=
      congrArg KslPort.mated (port_modPort_self ..)
    have starts : cableMate s p = trainStart (modPort s p fun x => { x with mated := true }) p := if_pos ⟨enabled, .inl down⟩
    refine ⟨_, congrArg Host.Outcome.next starts, trains_trainStart mated, ?_⟩
    rw [trainStart_of_mated mated, port_modPort_self]
    exact mated
  case unmate =>
    have lost' : ((modPort s p fun x => { x with mated := false }).port p).lost = true :=
      (congrArg KslPort.lost (port_modPort_self ..)).trans lost
    obtain ⟨state, port, memory⟩ := trainEnd_spec (modPort s p fun x => { x with mated := false }) p (n := 0) (by decide)
    refine ⟨_, congrArg Host.Outcome.next (portLost_trainEnd_of_lost lost' 0), state, ?_, memory⟩
    rw [port, port_modPort_self]
  case overcurrent =>
    exact ⟨_, congrArg Host.Outcome.next (if_neg idle), port_modPort_self .., ⟨fun _ => rfl, rfl⟩, rfl, rfl⟩
  case powerRetry => exact ⟨_, rfl, port_modPort_self .., ⟨fun _ => rfl, rfl⟩, rfl, rfl⟩

end Sys2Proof.Machine
end

section
/-! PROOF. Transactions, messages and outbound requests of a KSL port (R328, R329, R331 to R344, R348, R515). -/

namespace Sys2Proof.Machine

/-! ## The inbox of a port -/

theorem port_inboxDrop (s : State) (p : Nat) (h : KslHdr) (b : List Byte) :
    (inboxDrop s p h b).port p = { s.port p with inbox := (s.port p).inbox.erase (h, b) } := port_modPort_self ..

theorem rdTags_inboxDrop (s : State) (p : Nat) (h : KslHdr) (b : List Byte) :
    ((inboxDrop s p h b).port p).rdTags = (s.port p).rdTags := by rw [port_inboxDrop]

theorem wrTags_inboxDrop (s : State) (p : Nat) (h : KslHdr) (b : List Byte) :
    ((inboxDrop s p h b).port p).wrTags = (s.port p).wrTags := by rw [port_inboxDrop]

theorem inboxDrop_onlyKsl (s : State) (p : Nat) (h : KslHdr) (b : List Byte) : OnlyKsl s (inboxDrop s p h b) := rfl

section
variable {s : State} {p : Nat} {h : KslHdr} {b : List Byte} (alone : (s.port p).inbox = [(h, b)])
include alone

/-- The one transaction of an inbox has none before it. -/
theorem inboxFind_of_alone : inboxFind s p h = some ([], b) := by
  simp [inboxFind, alone]

theorem port_inboxDrop_of_alone : (inboxDrop s p h b).port p = { s.port p with inbox := [] } := by
  rw [port_inboxDrop, alone, List.erase_cons_head]

/-! ## A read, a write or a doorbell that is alone in the inbox (R331 to R339, R344, R515) -/

section
variable (read : h.ttype = 1)
include read

theorem kslRd_of_status (clean : h.res0 = 0) (window : inStatus h.addr.toNat = true) (word : h.lenm1 = 7)
    (aligned : h.addr.toNat % 8 = 0) : kslRd s p h =
      kslCpl (inboxDrop s p h b) p h 0 (leBytes 8 (statusWord (inboxDrop s p h b) p (h.addr.toNat % 0x10000))) := by
  have eight : h.lenm1.toNat + 1 = 8 := by rw [word]; rfl
  simp only [kslRd, read, if_true, inboxFind_of_alone alone, List.any_nil, Bool.false_eq_true, if_false, window, clean,
    beq_self_eq_true, Bool.and_self, eight, aligned, and_self]

theorem kslRd_of_not_ready (window : inStatus h.addr.toNat = false) (unready : moduleReady s = false) :
    kslRd s p h = kslCpl (inboxDrop s p h b) p h 0x0F [] := by
  simp only [kslRd, read, if_true, inboxFind_of_alone alone, List.any_nil, Bool.false_eq_true, if_false, window, Bool.false_and,
    unready, Bool.not_false]

theorem kslRd_of_undecoded (window : inStatus h.addr.toNat = false) (ready : moduleReady s = true)
    (formed : kslMalformed h = false) (granted : ctx0Refused s p h = false) (undecoded : kslDecode h.addr.toNat = none) :
    kslRd s p h = kslCpl (inboxDrop s p h b) p h 0x05 [] := by
  simp only [kslRd, read, if_true, inboxFind_of_alone alone, List.any_nil, Bool.false_eq_true, if_false, window, Bool.false_and,
    ready, Bool.not_true, formed, granted, undecoded]
end

theorem kslWr_of_decoded {pa : Nat} (write : h.ttype = 2) (unordered : h.release = false)
    (window : inStatus h.addr.toNat = false) (ready : moduleReady s = true) (formed : kslMalformed h = false)
    (below : h.addr.toNat < 0x70200000000) (granted : ctx0Refused s p h = false) (decoded : kslDecode h.addr.toNat = some pa)
    (idle : isMem pa = true → rangeIdle s pa b.length = true) : kslWr s p h b =
      kslTaken (kslWriteAt (inboxDrop s p h b) p h pa b).1 p h (kslWriteAt (inboxDrop s p h b) p h pa b).2 := by
  have noBell : decide (0x70200000000 ≤ h.addr.toNat) = false := decide_eq_false (not_le.2 below)
  have goes : (isMem pa && !rangeIdle s pa b.length) = false := by
    cases mem : isMem pa with
    | false => rfl
    | true => rw [idle mem]; rfl
  simp only [kslWr, write, if_true, inboxFind_of_alone alone, ne_eq, not_true_eq_false, decide_false, List.any_nil, Bool.or_self,
    unordered, Bool.false_and, Bool.false_eq_true, if_false, ready, Bool.not_true, window, formed, noBell, granted, decoded, goes]
end

theorem port_kslTaken (s : State) (p : Nat) (h : KslHdr) (status : Byte) :
    (kslTaken s p h status).port p = { s.port p with wacks := (s.port p).wacks ++ [⟨h.tag, status⟩] } := port_modPort_self ..

theorem port_send (s : State) (m : Msg) (p : Nat) : (send s m).port p = s.port p := rfl

/-- A doorbell that is alone in the inbox goes to the hub (R335, R348). -/
theorem kslDb_of_bell {s : State} {p : Nat} {h : KslHdr} {val : W64} (alone : (s.port p).inbox = [(h, leBytes 8 val.toNat)])
    (bell : h.ttype = 3) (still : s.net = []) (ready : moduleReady s = true) (clean : h.res0 = 0) (word : h.lenm1 = 7)
    (aligned : h.addr.toNat % 8 = 0) (low : 0x70200000000 ≤ h.addr.toNat) (high : h.addr.toNat < 0x70200200000)
    (granted : ctx0Refused s p h = false) : kslDb s p h val =
      kslTaken (send (inboxDrop s p h (leBytes 8 val.toNat))
        (.doorbell (BitVec.ofNat 18 ((h.addr.toNat - 0x70200000000) / 8)) h.ctx val (kslKey p h.tag.toNat))) p h 0 := by
  have value : leNat (leBytes 8 val.toNat) = val.toNat := (leNat_leBytes ..).trans (Nat.mod_eq_of_lt val.isLt)
  simp [kslDb, bell, inboxFind_of_alone alone, value, still, ready, clean, word, aligned, low, high, granted]

/-! ## Completions and acknowledgements (R334, R337) -/

/-- A read's tag is free again (R333). -/
def KslPort.freeRd (x : KslPort) (tag : Nat) : KslPort := { x with rdTags := tdel x.rdTags tag }

/-- A write's tag is free again. -/
def KslPort.freeWr (x : KslPort) (tag : Nat) : KslPort := { x with wrTags := tdel x.wrTags tag }

/-- The state in which a port has taken a transaction from its inbox, changed by `f`, and sent what it could. -/
def answered (s : State) (p : Nat) (h : KslHdr) (b : List Byte) (f : KslPort → KslPort) : State :=
  kslRun (modPort (inboxDrop s p h b) p f) p

theorem answered_onlyKsl (s : State) (p : Nat) (h : KslHdr) (b : List Byte) (f : KslPort → KslPort) :
    OnlyKsl s (answered s p h b f) := (inboxDrop_onlyKsl ..).trans ((modPort_onlyKsl ..).trans (kslRun_onlyKsl ..))

section
variable {s : State} {p : Nat} {h : KslHdr} {b : List Byte} {g : KslTag} (alone : (s.port p).inbox = [(h, b)])
include alone

/-- Where nothing else is to be sent, the port keeps what `f` made of it. -/
theorem port_answered {f : KslPort → KslPort} (quiet : (f { s.port p with inbox := [] }).Quiet) :
    (answered s p h b f).port p = f { s.port p with inbox := [] } := by
  have port : (modPort (inboxDrop s p h b) p f).port p = f { s.port p with inbox := [] } := by
    rw [port_modPort_self, port_inboxDrop_of_alone alone]
  rw [answered, port_kslRun_of_quiet (by rwa [port]), port]

section
variable (completion : h.ttype = 4) (good : h.status = 0) (tag : tget? (s.port p).rdTags h.tag.toNat = some g)
include completion good tag

theorem kslCplIn_of_last (post : g.req.owner = .post) (all : g.req.len ≤ g.got.length + b.length) :
    kslCplIn s p h b = answered s p h b (·.freeRd h.tag.toNat) := by
  have all' : g.req.len ≤ (g.got ++ b).length := List.length_append ▸ all
  simp only [kslCplIn, completion, if_true, inboxFind_of_alone alone, ne_eq, not_true_eq_false, if_false, rdTags_inboxDrop, tag, good,
    all', outDone, post]
  rfl

theorem kslCplIn_of_part (more : g.got.length + b.length < g.req.len) : kslCplIn s p h b =
    modPort (inboxDrop s p h b) p fun x => { x with rdTags := tset x.rdTags h.tag.toNat { g with got := g.got ++ b } } := by
  have more' : ¬ g.req.len ≤ (g.got ++ b).length := by rw [List.length_append]; exact not_le.2 more
  simp only [kslCplIn, completion, if_true, inboxFind_of_alone alone, ne_eq, not_true_eq_false, if_false, rdTags_inboxDrop, tag, good,
    more']
end

theorem kslWackIn_of_post (ack : h.ttype = 5) (tag : tget? (s.port p).wrTags h.tag.toNat = some g)
    (post : g.req.owner = .post) : kslWackIn s p h = answered s p h b (·.freeWr h.tag.toNat) := by
  simp only [kslWackIn, ack, if_true, inboxFind_of_alone alone, wrTags_inboxDrop, tag, outDone, post]
  rfl

/-! ## Messages (R335, R336, R343) -/

theorem takeMsg_of_alone {want : KslHdr → Bool} (msg : h.ttype = 6) (wanted : want h = true)
    (still : portFlying s p none = false) (act : State → State) : takeMsg s p want act = act (inboxDrop s p h b) := by
  simp [takeMsg, alone, msg, wanted, still]

/-- The state in which the adapter end of a port has raised the interrupt of a queue (R336). -/
def notifyRaised (s : State) (p : Nat) (q : BitVec 18) : State :=
  modPort s p fun x => { x with interrupts := if x.interrupts.contains q then x.interrupts else x.interrupts ++ [q] }

theorem kslMsgNotify_of_alone {q : BitVec 18} (msg : h.ttype = 6) (isNotify : h.addr.toNat % 256 = 2)
    (queue : bits h.addr.toNat 49 32 = q.toNat) (still : portFlying s p none = false)
    (adapter : fldAt s 0 R.HUB_KSL_CFG_ROLE p = 1) (ready : moduleReady s = true) :
    kslMsgNotify s p q = notifyRaised (inboxDrop s p h b) p q :=
  (takeMsg_of_alone alone msg (by simp [isNotify, queue]) still _).trans (if_pos ⟨adapter, ready⟩)
end

theorem port_notifyRaised (s : State) (p : Nat) (q : BitVec 18) : (notifyRaised s p q).port p = { s.port p with
    interrupts := if (s.port p).interrupts.contains q then (s.port p).interrupts else (s.port p).interrupts ++ [q] } :=
  port_modPort_self ..

theorem mem_raised (q : BitVec 18) (l : List (BitVec 18)) : q ∈ if l.contains q then l else l ++ [q] := by
  split
  · next there => exact List.contains_iff_mem.1 there
  · exact List.mem_append_right _ List.mem_cons_self

/-! ## Resends (R329) -/

/-- The flits that a NAK has sent again. -/
def resent (l : List KslFlit) (ack : Nat) : List KslFlit := (afterAck l ack).map fun f => { f with resends := f.resends + 1 }

theorem resends_resent_le {l : List KslFlit} (few : ∀ f ∈ l, f.resends < 7) (ack : Nat) :
    ∀ f ∈ resent l ack, f.resends ≤ 7 := by
  intro f there
  obtain ⟨g, left, rfl⟩ := List.mem_map.1 there
  exact few g (List.mem_filter.1 left).1

/-- The state in which a port's flits are to be sent again and counted as replays, before it sends. -/
def nakTaken (s : State) (p ack : Nat) : State :=
  bumpEventAt (modPort s p fun x => { x with retry := resent x.retry ack }) 0 R.HUB_KSL_REPLAYS_COUNT p
    { R.HUB_KSL_STAT_REPLAYS_OVF with off := R.HUB_KSL_STAT_REPLAYS_OVF.off + 256 * p } 0 (resent (s.port p).retry ack).length

theorem nakTaken_onlyRegs (s : State) (p ack : Nat) :
    OnlyRegs (modPort s p fun x => { x with retry := resent x.retry ack }) (nakTaken s p ack) := bumpEventAt_onlyRegs ..

theorem port_nakTaken (s : State) (p ack : Nat) :
    (nakTaken s p ack).port p = { s.port p with retry := resent (s.port p).retry ack } :=
  ((nakTaken_onlyRegs s p ack).port p).trans (port_modPort_self ..)

theorem sameMemory_nakTaken (s : State) (p ack : Nat) : SameMemory s (nakTaken s p ack) :=
  (modPort_onlyKsl ..).sameMemory.trans (nakTaken_onlyRegs s p ack).sameMemory

theorem nakReceive_eq (s : State) (p ack : Nat) : nakReceive s p ack =
    if !portUp s p then s
    else if (resent (s.port p).retry ack).any fun f => 8 ≤ f.resends then kslRetrain (nakTaken s p ack) p
    else kslRun (nakTaken s p ack) p := rfl

theorem nakReceive_of_few {s : State} {p : Nat} (up : portUp s p = true) (few : ∀ f ∈ (s.port p).retry, f.resends < 7)
    (ack : Nat) : nakReceive s p ack = kslRun (nakTaken s p ack) p := by
  have stays : (resent (s.port p).retry ack).any (fun f => decide (8 ≤ f.resends)) = false :=
    List.any_eq_false.2 fun f there => by simpa using Nat.lt_succ_of_le (resends_resent_le few ack f there)
  simp only [nakReceive_eq, up, stays, Bool.not_true, Bool.false_eq_true, if_false]

/-! ## Outbound requests (R340) -/

theorem region_of_host {pa : Nat} (low : hostBase ≤ pa) (high : pa < 2 ^ 52) : region pa = .host (pa - hostBase) := by
  have beyond : ∀ a ≤ hostBase, ¬ pa < a := fun a below => not_lt.2 (below.trans low)
  have hbm : ¬ pa < hbmEnd := beyond _ (by decide)
  have board : ¬ (boardBase ≤ pa ∧ pa < boardEnd) := fun h => beyond _ (by decide) h.2
  have window : ¬ (windowBase ≤ pa ∧ pa < windowBase + 2 ^ 33) := fun h => beyond _ (by decide) h.2
  have bells : ¬ (doorbellBase ≤ pa ∧ pa < doorbellBase + 2 ^ 21) := fun h => beyond _ (by decide) h.2
  have peer : ¬ (peerBase ≤ pa ∧ pa < hostBase) := fun h => beyond _ le_rfl h.2
  rw [region, if_neg hbm, if_neg board, if_neg window, if_neg bells, if_neg peer, if_pos ⟨low, high⟩]

theorem outSend_of_host {s : State} {r : OutReq} (low : hostBase ≤ r.pa) (high : r.pa < 2 ^ 52)
    (linked : (s.port (portOf r.pa)).lost = false) :
    outSend s r = kslRun (modPort s (portOf r.pa) fun x => { x with outq := x.outq ++ [r] }) (portOf r.pa) := by
  simp only [outSend, region_of_host low high, linked, Bool.false_eq_true, if_false]

/-- The state in which a hart's one waiting store to a window is sent. -/
def windowStoreSent (s : State) (h : Nat) (a : HartPart) : State :=
  modHart s h fun x => { x with winStores := x.winStores.map fun q => if q = a then { a with st := 1 } else q }

theorem winStores_windowStoreSent {s : State} {h : Nat} {a : HartPart} (one : (s.hart h).winStores = [a]) :
    ((windowStoreSent s h a).hart h).winStores = [{ a with st := 1 }] := by
  rw [windowStoreSent, hart_modHart_self]
  simp [one]

/-- The write that a hart's store to a window asks for. -/
def storeReq (h : Nat) (a : HartPart) : OutReq := ⟨true, a.pa, a.n, a.ctx, a.data, .hart h⟩

theorem hartOutside_of_store {s : State} {h : Nat} {a : HartPart} {data : W64} (one : (s.hart h).winStores = [a])
    (waits : a.st = 0) (value : leNat a.data = data.toNat) : hartOutside s h true a.pa a.ctx data =
      outSend (windowStoreSent s h a) (storeReq h a) := by
  simp only [hartOutside, if_true, one, List.find?_cons, waits, value, beq_self_eq_true, Bool.and_self]
  rfl

/-- The state in which a hart's store to a host window has gone to its port (R340). -/
def storeAsked (s : State) (h : Nat) (a : HartPart) : State :=
  kslRun (modPort (windowStoreSent s h a) (portOf a.pa) fun x => { x with outq := x.outq ++ [storeReq h a] }) (portOf a.pa)

theorem hartOutside_of_host_store {s : State} {h : Nat} {a : HartPart} {data : W64} (one : (s.hart h).winStores = [a])
    (waits : a.st = 0) (value : leNat a.data = data.toNat) (low : hostBase ≤ a.pa) (high : a.pa < 2 ^ 52)
    (linked : (s.port (portOf a.pa)).lost = false) : hartOutside s h true a.pa a.ctx data = storeAsked s h a :=
  (hartOutside_of_store one waits value).trans (outSend_of_host (s := windowStoreSent s h a) low high linked)

theorem storeAsked_onlyKsl (s : State) (h : Nat) (a : HartPart) : OnlyKsl (windowStoreSent s h a) (storeAsked s h a) :=
  (modPort_onlyKsl ..).trans (kslRun_onlyKsl ..)

/-! ## The obligation -/

/-- Settles O30: what is alone in the inbox by the equation of its kind, the rest by what a port with nothing else to send
keeps. -/
theorem kslTransactionsAreAnswered : Obligations.KslTransactionsAreAnswered := by
  intro s p
  dsimp only
  intro up
  refine ⟨fun flit bad => ?badFlit, fun ack txq outq few => ?nak,
    fun h b read alone clean => ⟨fun window word aligned => ?status, fun window unready => ?notReady,
      fun window ready formed granted undecoded => ?undecoded⟩,
    fun h b pa write alone unordered window ready formed below granted decoded idle => ?write,
    fun h val bell alone still ready clean word aligned low high granted => ?doorbell,
    fun tag w waits still => ?performed,
    fun h b g completion good alone tag post txq outq => ⟨fun all => ?completes, fun more => ?grows⟩,
    fun h b g ack alone tag post txq outq => ?acknowledged, fun h b v msg alone isEpoch value still => ?epoch,
    fun h b q msg alone isNotify queue still adapter ready => ?notify,
    fun h pa ctx data a host port one waits here own value linked => ?outbound⟩
  case badFlit =>
    refine congrArg Host.Outcome.next ?_
    simp only [flitReceive, up, Bool.not_true, Bool.false_eq_true, if_false]
    exact if_pos (.inl bad)
  case nak =>
    have port := port_nakTaken s p ack.toNat
    have quiet : ((nakTaken s p ack.toNat).port p).Quiet := by rw [port]; exact ⟨txq, outq⟩
    refine ⟨_, congrArg Host.Outcome.next (nakReceive_of_few up few _),
      (sameMemory_nakTaken ..).trans (kslRun_onlyKsl ..).sameMemory, ?_⟩
    rw [port_kslRun_of_quiet quiet, port]
    rfl
  case status => exact congrArg Host.Outcome.next (kslRd_of_status alone read clean window word aligned)
  case notReady => exact congrArg Host.Outcome.next (kslRd_of_not_ready alone read window unready)
  case undecoded => exact congrArg Host.Outcome.next (kslRd_of_undecoded alone read window ready formed granted undecoded)
  case write =>
    exact congrArg Host.Outcome.next (kslWr_of_decoded alone write unordered window ready formed below granted decoded idle)
  case doorbell =>
    refine ⟨_, congrArg Host.Outcome.next (kslDb_of_bell alone bell still ready clean word aligned low high granted),
      ⟨⟨fun _ => rfl, rfl⟩, ?_⟩, ⟨rfl, rfl⟩, ?_, ?_⟩
    · rw [port_kslTaken, port_send, port_inboxDrop_of_alone alone]
    · exact (congrArg (· ++ _) still).trans (List.nil_append _)
    · rw [port_kslTaken, port_send, port_inboxDrop_of_alone alone]
  case performed =>
    refine congrArg Host.Outcome.next ?_
    simp only [inboundPerformed, waits, still, Bool.false_eq_true, if_false]
  case completes =>
    have port := port_answered (f := (·.freeRd h.tag.toNat)) alone ⟨txq, outq⟩
    refine ⟨_, congrArg Host.Outcome.next (kslCplIn_of_last alone completion good tag post all),
      ⟨(answered_onlyKsl ..).sameMemory, congrArg KslPort.inbox port⟩, ?_⟩
    rw [port]
    exact tget?_tdel_self ..
  case grows =>
    refine ⟨_, congrArg Host.Outcome.next (kslCplIn_of_part alone completion good tag more), ⟨⟨fun _ => rfl, rfl⟩, ?_⟩, ?_⟩
    all_goals rw [port_modPort_self, port_inboxDrop_of_alone alone]
    exact tget?_tset_self ..
  case acknowledged =>
    have port := port_answered (f := (·.freeWr h.tag.toNat)) alone ⟨txq, outq⟩
    refine ⟨_, congrArg Host.Outcome.next (kslWackIn_of_post alone ack tag post),
      ⟨(answered_onlyKsl ..).sameMemory, congrArg KslPort.inbox port⟩, ?_⟩
    rw [port]
    exact tget?_tdel_self ..
  case epoch =>
    exact congrArg Host.Outcome.next (takeMsg_of_alone alone msg (by simp [isEpoch, value]) still _)
  case notify =>
    refine ⟨_, congrArg Host.Outcome.next (kslMsgNotify_of_alone alone msg isNotify queue still adapter ready),
      ⟨⟨fun _ => rfl, rfl⟩, ?_⟩, ⟨rfl, rfl⟩, ?_⟩
    · rw [port_notifyRaised, port_inboxDrop_of_alone alone]
    · rw [port_notifyRaised]
      exact mem_raised ..
  case outbound =>
    subst own
    rw [← here] at host
    rw [← port, ← here] at linked
    have high : a.pa < 2 ^ 52 := here ▸ pa.isLt
    have sent := hartOutside_of_host_store one waits value host high linked
    have only := storeAsked_onlyKsl s h a
    refine ⟨_, congrArg Host.Outcome.next ?_, SameMemory.trans ⟨fun _ => rfl, rfl⟩ only.sameMemory,
      (congrArg Hart.winStores (only.hart h)).trans (winStores_windowStoreSent one)⟩
    rw [← sent, here]
    rfl

end Sys2Proof.Machine
end

section
/-! PROOF. Memory under the shared operations, arbiters and groups: a function leaves memory alone, or keeps it
canonical. -/

namespace Sys2Proof.Machine

@[simp] theorem setBootState_mem (s : State) (n : Nat) : (setBootState s n).mem = s.mem := by
  unfold setBootState
  split <;> rfl

@[simp] theorem raiseEvent_mem (s : State) (q : BitVec 18) (typ : Byte) (ctx : BitVec 16) (body : List Byte) :
    (raiseEvent s q typ ctx body).mem = s.mem := rfl

@[simp] theorem memWf_journalCarry (s : State) (h : memWf s.mem = true) :
    memWf (journalCarry s).mem = true := by
  simp only [journalCarry]
  repeat' split
  all_goals simp +contextual [memWf_journalPut, h]

@[simp] theorem memWf_journalFlush (rs : List JRec) (s : State) (h : memWf s.mem = true) :
    memWf (journalFlush rs s).mem = true := by
  induction rs generalizing s with
  | nil => exact h
  | cons r rs ih =>
    simp only [journalFlush]
    split
    · exact ih _ (memWf_journalPut _ _ (memWf_journalCarry s h))
    · exact h

@[simp] theorem memWf_journal (s : State) (cid : Nat) (event : BitVec 3) (status : Byte) (h : memWf s.mem = true) :
    memWf (journal s cid event status).mem = true := by
  unfold journal
  split <;> simp [h]

@[simp] theorem memWf_endCmd (s : State) (cid : Nat) (event : BitVec 3) (status : Byte) (h : memWf s.mem = true) :
    memWf (endCmd s cid event status).mem = true := by
  unfold endCmd
  repeat' split
  all_goals simp [h]

@[simp] theorem memWf_finishCmd (s : State) (cid : Nat) (status : Byte) (h : memWf s.mem = true) :
    memWf (finishCmd s cid status).mem = true := by
  simp [finishCmd, h]

@[simp] theorem arbAge_mem (s : State) (die a : Nat) (won : ArbReq) (waiting : List ArbReq) :
    (arbAge s die a won waiting).mem = s.mem := rfl

@[simp] theorem arbTaskEnd_mem (s : State) (die a i : Nat) : (arbTaskEnd s die a i).mem = s.mem := rfl

@[simp] theorem arbDecide_mem (s : State) (die a : Nat) : (arbDecide s die a).mem = s.mem := by
  simp only [arbDecide]
  repeat' split
  all_goals simp

@[simp] theorem arbAsk_mem (s : State) (die a : Nat) (r : ArbReq) : (arbAsk s die a r).mem = s.mem := rfl

@[simp] theorem arbRelease_mem (s : State) (die a : Nat) : (arbRelease s die a).mem = s.mem := by
  unfold arbRelease
  split <;> rfl

@[simp] theorem finishCount_mem (s : State) (sp i : Nat) (n : W32) : (finishCount s sp i n).mem = s.mem := rfl

end Sys2Proof.Machine
end

section
/-! PROOF. Memory under the accesses of memory itself: a function leaves memory alone, or keeps it canonical. -/

namespace Sys2Proof.Machine

@[simp] theorem hbmUse_mem (s : State) (ln : Nat) (ctx : BitVec 16) (exempt read : Bool) :
    (hbmUse s ln ctx exempt read).mem = s.mem := by
  unfold hbmUse
  split <;> rfl

@[simp] theorem touch_mem (s : State) (ln : Nat) : (touch s ln).mem = s.mem := rfl

@[simp] theorem dropAgentLine_mem (s : State) (agent ln : Nat) : (dropAgentLine s agent ln).mem = s.mem := rfl

@[simp] theorem mergeL1_mem (s : State) (agent ln : Nat) : (mergeL1 s agent ln).mem = s.mem := by
  unfold mergeL1
  refine (mem_foldl _ (fun s h => modHart_mem s h _) _ _).trans ?_
  split
  · exact setAgentLine_mem ..
  · rfl

@[simp] theorem wakeResv_mem (s : State) (ln : Nat) : (wakeResv s ln).mem = s.mem := rfl

@[simp] theorem invalAll_mem (s : State) (ln : Nat) : (invalAll s ln).mem = s.mem := by
  unfold invalAll
  all_goals simp [mem_foldl, apply_ite State.mem]

@[simp] theorem memWf_putBelow (s : State) (ln : Nat) (d : Line) (p : Bool) (h : memWf s.mem = true) :
    memWf (putBelow s ln d p).mem = true := by
  simp only [putBelow, modHome_mem, memWf_storeLine, apply_ite State.mem, apply_ite memWf, ite_self, h]

@[simp] theorem memWf_cohWrite (s : State) (ln : Nat) (d : Line) (p : Bool) (h : memWf s.mem = true) :
    memWf (cohWrite s ln d p).mem = true := by
  unfold cohWrite
  repeat' split
  all_goals simp [h]

@[simp] theorem memWf_cohWritePart (s : State) (ln : Nat) (d : Line) (mask : W64) (h : memWf s.mem = true) :
    memWf (cohWritePart s ln d mask).mem = true := by
  simp [cohWritePart, h]

@[simp] theorem memWf_cohPut (s : State) (pa : Nat) (b : List Byte) (p : Bool) (h : memWf s.mem = true) :
    memWf (cohPut s pa b p).mem = true := by
  unfold cohPut
  all_goals simp +contextual [memWf_foldl, h]

@[simp] theorem claimCacheFill_mem (s : State) (pa : Nat) : (claimCacheFill s pa).mem = s.mem := by
  unfold claimCacheFill
  split <;> simp [apply_ite State.mem]

@[simp] theorem countRefused_mem (s : State) (tgt : Nat) : (countRefused s tgt).mem = s.mem := by
  unfold countRefused
  split <;> simp

@[simp] theorem ctxFault_mem (s : State) (tgt die agent : Nat) (ctx : BitVec 16) (pa : Nat) (write : Bool) :
    (ctxFault s tgt die agent ctx pa write).mem = s.mem := by
  simp only [ctxFault]
  repeat' split
  all_goals simp

end Sys2Proof.Machine
end

section
/-! PROOF. Memory under the homes and the agents: a function leaves memory alone, or keeps it canonical. -/

namespace Sys2Proof.Machine

@[simp] theorem agentRequest_mem (s : State) (a ln : Nat) (kind : ReqKind) (ctx : BitVec 16) :
    (agentRequest s a ln kind ctx).mem = s.mem := by
  unfold agentRequest
  repeat' split
  all_goals rfl

@[simp] theorem agentWantRead_mem (s : State) (a ln : Nat) (ctx : BitVec 16) :
    (agentWantRead s a ln ctx).mem = s.mem := by
  unfold agentWantRead
  split <;> simp

@[simp] theorem agentWantWrite_mem (s : State) (a ln : Nat) (ctx : BitVec 16) :
    (agentWantWrite s a ln ctx).mem = s.mem := by
  unfold agentWantWrite
  repeat' split
  all_goals simp

@[simp] theorem agentStore_mem (s : State) (a ln o : Nat) (b : List Byte) : (agentStore s a ln o b).mem = s.mem := by
  unfold agentStore
  split <;> rfl

@[simp] theorem agentEvict_mem (s : State) (a ln : Nat) : (agentEvict s a ln).mem = s.mem := by
  simp only [agentEvict]
  split <;> simp

@[simp] theorem agentPlace_mem (s : State) (a ln : Nat) : (agentPlace s a ln).2.mem = s.mem := by
  simp only [agentPlace]
  repeat' split
  · rfl
  · rfl
  · exact mem_foldl _ (fun s m => agentEvict_mem ..) _ _

@[simp] theorem agentInstall_mem (s : State) (a ln : Nat) (st : Moesi) (d : Line) (p : Bool) :
    (agentInstall s a ln st d p).mem = s.mem := by
  simp [agentInstall]

@[simp] theorem setDir_mem (s : State) (md ln : Nat) (e : DirEntry) : (setDir s md ln e).mem = s.mem := rfl

@[simp] theorem shareDir_mem (s : State) (md ln : Nat) (e : DirEntry) (a : Nat) :
    (shareDir s md ln e a).mem = s.mem := by
  unfold shareDir
  all_goals simp [apply_ite State.mem]

@[simp] theorem setTxn_mem (s : State) (md ln : Nat) (t : Txn) : (setTxn s md ln t).mem = s.mem := rfl

@[simp] theorem endTxn_mem (s : State) (md ln : Nat) : (endTxn s md ln).mem = s.mem := rfl

@[simp] theorem sendInvals_mem (s : State) (ln : Nat) (l : List Nat) : (sendInvals s ln l).mem = s.mem :=
  mem_foldl _ (fun s _ => send_mem s _) _ _

@[simp] theorem answer_mem (s : State) (r : HomeReq) (st : Moesi) (d : Line) (p : Bool) :
    (answer s r st d p).mem = s.mem := by
  unfold answer
  split <;> rfl

@[simp] theorem staleWb_mem (s : State) (a ln : Nat) : (staleWb s a ln).mem = s.mem := rfl

@[simp] theorem grantM_mem (s : State) (md : Nat) (r : HomeReq) (d : Line) (p : Bool) (way : Nat) :
    (grantM s md r d p way).mem = s.mem := by
  simp [grantM]

@[simp] theorem grantRead_mem (s : State) (md : Nat) (r : HomeReq) (e : DirEntry) :
    (grantRead s md r e).mem = s.mem := by
  unfold grantRead
  split <;> simp [apply_ite State.mem]

@[simp] theorem memWf_cleanBelow (s : State) (md ln : Nat) (d : Option (Line × Bool)) (h : memWf s.mem = true) :
    memWf (cleanBelow s md ln d).mem = true := by
  unfold cleanBelow
  split
  all_goals simp only [hbmUse_mem, memWf_storeLine, apply_ite State.mem, apply_ite memWf, ite_self, h]

@[simp] theorem memWf_doClean (s : State) (md : Nat) (r : HomeReq) (h : memWf s.mem = true) :
    memWf (doClean s md r).mem = true := by
  simp only [doClean]
  repeat' split
  all_goals simp [h]

@[simp] theorem memWf_finishFlush (s : State) (md : Nat) (r : HomeReq) (got : Option (Line × Bool × Bool))
    (h : memWf s.mem = true) :
    memWf (finishFlush s md r got).mem = true := by
  unfold finishFlush
  repeat' split
  all_goals simp [h]

@[simp] theorem memWf_finishEvict (s : State) (md ln : Nat) (got : Option (Line × Bool × Bool))
    (h : memWf s.mem = true) :
    memWf (finishEvict s md ln got).mem = true := by
  unfold finishEvict
  split
  all_goals simp only [modHome_mem, memWf_storeLine, apply_ite State.mem, apply_ite memWf, ite_self, h]

@[simp] theorem memWf_txnStep (s : State) (md ln : Nat) (t : Txn) (h : memWf s.mem = true) :
    memWf (txnStep s md ln t).mem = true := by
  simp only [txnStep]
  repeat' split
  all_goals simp [h]

@[simp] theorem doWriteback_mem (s : State) (md : Nat) (r : HomeReq) (d : Line) (p dirty : Bool) :
    (doWriteback s md r d p dirty).mem = s.mem := by
  unfold doWriteback
  all_goals simp [apply_ite State.mem]

@[simp] theorem countBcast_mem (s : State) (md : Nat) (e : DirEntry) : (countBcast s md e).mem = s.mem := by
  unfold countBcast
  split <;> simp

@[simp] theorem memWf_openInval (s : State) (md : Nat) (r : HomeReq) (e : DirEntry) (keepOwner : Bool)
    (h : memWf s.mem = true) :
    memWf (openInval s md r e keepOwner).mem = true := by
  simp [openInval, h]

@[simp] theorem homeRefuse_mem (s : State) (md : Nat) (r : HomeReq) (write : Bool) :
    (homeRefuse s md r write).mem = s.mem := by
  simp [homeRefuse]

@[simp] theorem homeWait_mem (s : State) (md : Nat) (r : HomeReq) : (homeWait s md r).mem = s.mem := rfl

@[simp] theorem memWf_homeBegin (s : State) (md : Nat) (r : HomeReq) (h : memWf s.mem = true) :
    memWf (homeBegin s md r).mem = true := by
  simp only [homeBegin]
  repeat' split
  all_goals simp [h]

@[simp] theorem memWf_homeArrive (s : State) (md : Nat) (r : HomeReq) (h : memWf s.mem = true) :
    memWf (homeArrive s md r).mem = true := by
  simp only [homeArrive]
  repeat' split
  all_goals simp [h]

@[simp] theorem memWf_homeQueued (s : State) (md ln : Nat) (h : memWf s.mem = true) :
    memWf (homeQueued s md ln).mem = true := by
  simp only [homeQueued]
  repeat' split
  all_goals simp [h]

@[simp] theorem afterShared_mem (s : State) (md ln o src : Nat) (dirty passed : Bool) :
    (afterShared s md ln o src dirty passed).mem = s.mem := by
  unfold afterShared
  repeat' split
  all_goals simp

@[simp] theorem memWf_homeReply (s : State) (md agent ln : Nat) (rep : HomeReply) (h : memWf s.mem = true) :
    memWf (homeReply s md agent ln rep).mem = true := by
  simp only [homeReply]
  repeat' split
  all_goals simp [h]

@[simp] theorem doFwdShared_mem (s : State) (a ln req : Nat) : (doFwdShared s a ln req).mem = s.mem := by
  simp only [doFwdShared]
  repeat' split
  all_goals simp

@[simp] theorem doFwdUnique_mem (s : State) (a ln req : Nat) : (doFwdUnique s a ln req).mem = s.mem := by
  simp only [doFwdUnique]
  repeat' split
  all_goals simp

@[simp] theorem doFwdOnce_mem (s : State) (a ln req : Nat) : (doFwdOnce s a ln req).mem = s.mem := by
  simp only [doFwdOnce]
  repeat' split
  all_goals simp

@[simp] theorem doRecall_mem (s : State) (a ln : Nat) : (doRecall s a ln).mem = s.mem := by
  simp only [doRecall]
  repeat' split
  all_goals simp

@[simp] theorem doInval_mem (s : State) (a ln : Nat) : (doInval s a ln).mem = s.mem := by
  unfold doInval
  split <;> simp

@[simp] theorem storeLanes_mem (s : State) (sp a ln : Nat) (o : MemOp) : (storeLanes s sp a ln o).mem = s.mem := by
  unfold storeLanes
  all_goals simp [mem_foldl, apply_ite State.mem]

@[simp] theorem regionStores_mem (s : State) (a ln : Nat) : (regionStores s a ln).mem = s.mem := by
  unfold regionStores
  all_goals simp [mem_foldl, apply_ite State.mem]

@[simp] theorem clusterStores_mem (s : State) (a ln : Nat) : (clusterStores s a ln).mem = s.mem := by
  unfold clusterStores
  split <;> simp [mem_foldl, apply_ite State.mem]

@[simp] theorem dropStores_mem (s : State) (a ln : Nat) : (dropStores s a ln).mem = s.mem :=
  (mem_foldl _ (fun s h => modHart_mem s h _) _ _).trans (mem_foldl _ (fun s sp => modSpur_mem s sp _) _ _)

@[simp] theorem upgradeAfter_mem (s : State) (a ln : Nat) : (upgradeAfter s a ln).mem = s.mem := by
  unfold upgradeAfter
  repeat' split
  all_goals simp

@[simp] theorem grantReceive'_mem (s : State) (a ln : Nat) (st : Moesi) (d : Line) (p : Bool) :
    (grantReceive' s a ln st d p).mem = s.mem := by
  simp only [grantReceive']
  repeat' split
  all_goals simp

@[simp] theorem wbAckReceive_mem (s : State) (a ln : Nat) (declined : Bool) :
    (wbAckReceive s a ln declined).mem = s.mem := by
  unfold wbAckReceive
  split <;> rfl

@[simp] theorem memWf_victimDrain (s : State) (md : Nat) (h : memWf s.mem = true) :
    memWf (victimDrain s md).mem = true := by
  unfold victimDrain
  split
  all_goals simp only [hbmUse_mem, modHome_mem, memWf_storeLine, apply_ite State.mem, apply_ite memWf, ite_self, h]

@[simp] theorem dirProbe_mem (s : State) (md : Nat) (v : W64) : (dirProbe s md v).mem = s.mem := rfl

@[simp] theorem dirProbeDone_mem (s : State) (md : Nat) : (dirProbeDone s md).mem = s.mem := by
  unfold dirProbeDone
  split <;> simp

end Sys2Proof.Machine
end

section
/-! PROOF. Memory under blocks, registers and operands: a function leaves memory alone, or keeps it canonical. -/

namespace Sys2Proof.Machine

@[simp] theorem memWf_kernelCheck (s : State) (kid : Nat) (h : memWf s.mem = true) :
    memWf (kernelCheck s kid).mem = true := by
  simp only [kernelCheck]
  repeat' split
  all_goals simp [h]

@[simp] theorem noteRelease_mem (s : State) (td : Nat) : (noteRelease s td).mem = s.mem := by
  unfold noteRelease
  split <;> rfl

@[simp] theorem setTeam_mem (s : State) (tm : Nat) (t : Team) : (setTeam s tm t).mem = s.mem := rfl

@[simp] theorem entryStart_mem (s : State) (r : Residency) (entry sp : Nat) :
    (entryStart s r entry sp).mem = s.mem := rfl

@[simp] theorem entryNext_mem (s : State) (tm td : Nat) : (entryNext s tm td).mem = s.mem := by
  simp only [entryNext]
  repeat' split
  any_goals rfl
  exact mem_foldl _ (fun s sp => entryStart_mem ..) _ _

@[simp] theorem entryDone_mem (s : State) (tm td : Nat) : (entryDone s tm td).mem = s.mem := by
  have sent (l : List Nat) (e : Nat) (s : State) : (l.foldl (fun s d => send s (.entryDone d td tm e)) s).mem = s.mem :=
    mem_foldl _ (fun s d => send_mem ..) _ _
  simp only [entryDone]
  repeat' split
  all_goals simp only [entryNext_mem, sent, setTeam_mem]

@[simp] theorem memWf_blockEnd (s : State) (sp b : Nat) (h : memWf s.mem = true) :
    memWf (blockEnd s sp b).mem = true := by
  simp only [blockEnd]
  repeat' split
  all_goals simp [h]

@[simp] theorem dropCopies_mem (s : State) (sp b : Nat) : (dropCopies s sp b).mem = s.mem := by
  unfold dropCopies
  split <;> rfl

@[simp] theorem memWf_stopBlock (s : State) (sp b : Nat) (h : memWf s.mem = true) :
    memWf (stopBlock s sp b).mem = true := by
  simp [stopBlock, h]

@[simp] theorem memWf_stopKernel (s : State) (kid : Nat) (h : memWf s.mem = true) :
    memWf (stopKernel s kid).mem = true := by
  simp only [stopKernel]
  exact memWf_kernelCheck _ _
    (memWf_foldl _ (fun s sp hs => memWf_foldl _ (fun s e hs => memWf_stopBlock s sp e.1 hs) _ _ hs) _ _ h)

@[simp] theorem memWf_stopTeam (s : State) (tm : Nat) (status : Byte) (h : memWf s.mem = true) :
    memWf (stopTeam s tm status).mem = true := by
  simp only [stopTeam]
  split
  · exact h
  · refine memWf_foldl _ (fun s sp hs => ?_) _ _ (by simp [h])
    repeat' split
    all_goals simp [hs]

@[simp] theorem recordFault_mem (s : State) (sp slot : Nat) (b : Block) (gidx cause : Nat) (pc addr : W64) :
    (recordFault s sp slot b gidx cause pc addr).mem = s.mem := by
  unfold recordFault
  split <;> simp [apply_ite State.mem]

@[simp] theorem memWf_blockFault (s : State) (sp slot gidx cause : Nat) (pc addr : W64) (h : memWf s.mem = true) :
    memWf (blockFault s sp slot gidx cause pc addr).mem = true := by
  unfold blockFault
  repeat' split
  all_goals simp [h]

@[simp] theorem memWf_groupFault (s : State) (sp slot cause : Nat) (pc addr : W64) (h : memWf s.mem = true) :
    memWf (groupFault s sp slot cause pc addr).mem = true := by
  unfold groupFault
  split <;> simp [h]

@[simp] theorem memWf_issue (s : State) (sp slot : Nat) (regs : List Nat) (bad : Bool) (eff : Group → State)
    (heff : ∀ g, memWf (eff g).mem = true) (h : memWf s.mem = true) : memWf (issue s sp slot regs bad eff).mem = true := by
  simp only [issue]
  repeat' split
  all_goals simp [heff, h]

@[simp] theorem memWf_ofClass (s : State) (sp slot op : Nat) (w : W64) (eff : Unit → State)
    (heff : memWf (eff ()).mem = true) (h : memWf s.mem = true) : memWf (ofClass s sp slot op w eff).mem = true := by
  simp only [ofClass]
  repeat' split
  all_goals simp [heff, h]

@[simp] theorem advance_mem (s : State) (sp slot : Nat) (g : Group) : (advance s sp slot g).mem = s.mem := rfl

@[simp] theorem regWarm_mem (s : State) (die : Nat) : (regWarm s die).mem = s.mem := rfl

end Sys2Proof.Machine
end

section
/-! PROOF. Memory under a Spur's accesses: a function leaves memory alone, or keeps it canonical. -/

namespace Sys2Proof.Machine

@[simp] theorem setOp_mem (s : State) (sp : Nat) (o : MemOp) : (setOp s sp o).mem = s.mem := rfl

@[simp] theorem delOp_mem (s : State) (sp id : Nat) : (delOp s sp id).mem = s.mem := rfl

@[simp] theorem memWf_opFault (s : State) (sp : Nat) (o : MemOp) (cause : Nat) (addr : W64) (h : memWf s.mem = true) :
    memWf (opFault s sp o cause addr).mem = true := by
  simp only [opFault]
  repeat' split
  all_goals simp [h]

theorem opXlate_mem (s : State) (sp : Nat) (o : MemOp) : ∀ p, opXlate s sp o = .inl p → p.1.mem = s.mem := by
  refine List.foldlRecOn (motive := fun acc : Sum (State × MemOp) (Nat × W64) => ∀ p, acc = .inl p → p.1.mem = s.mem)
    _ _ (by simp) fun acc hacc l _ => ?_
  repeat' split
  all_goals simp_all

@[simp] theorem l1Load_mem (s : State) (sp : Nat) (o : MemOp) (l : MemLane) : (l1Load s sp o l).1.mem = s.mem := by
  simp only [l1Load]
  repeat' split
  all_goals simp

/-- The state that the lanes of an access leave, at its end or at a fault. -/
def laneState : Sum (State × MemOp) (State × Nat × W64) → State
  | .inl r => r.1
  | .inr r => r.1

theorem memWf_eachLane (s : State) (sp : Nat) (o : MemOp) (want : MemLane → Bool)
    (f : State → MemOp → MemLane → State × Sum MemLane Nat)
    (hf : ∀ s o l, memWf s.mem = true → memWf (f s o l).1.mem = true) (h : memWf s.mem = true) :
    memWf (laneState (eachLane s sp o want f)).mem = true := by
  refine List.foldlRecOn (motive := fun acc => memWf (laneState acc).mem = true) _ _ h fun acc hacc l _ => ?_
  split
  · exact hacc
  · next t o' =>
    split
    · next l' _ =>
      have step := hf t o' l' hacc
      split
      · split
        all_goals
          next e =>
          rw [e] at step
          exact step
      · exact hacc
    · exact hacc

@[simp] theorem fenceCheck_mem (s : State) (sp : Nat) : (fenceCheck s sp).mem = s.mem := rfl

@[simp] theorem memWf_teamSettle (s : State) (sp : Nat) (h : memWf s.mem = true) :
    memWf (teamSettle s sp).mem = true := by
  unfold teamSettle
  split <;> simp [h]

@[simp] theorem memWf_opEnd (s : State) (sp : Nat) (o : MemOp) (h : memWf s.mem = true) :
    memWf (opEnd s sp o).mem = true := by
  simp only [opEnd]
  repeat' split
  all_goals simp [h]

@[simp] theorem memWf_opCheck (s : State) (sp : Nat) (o : MemOp) (h : memWf s.mem = true) :
    memWf (opCheck s sp o).mem = true := by
  simp only [opCheck]
  split <;> simp [h]

@[simp] theorem memWf_opSettle (sp : Nat) (r : Sum (State × MemOp) (State × Nat × W64)) (o : MemOp)
    (h : memWf (laneState r).mem = true) : memWf (opSettle sp r o).mem = true := by
  unfold opSettle
  split
  · exact memWf_opCheck _ _ _ h
  · exact memWf_opFault _ _ _ _ _ h

@[simp] theorem memWf_spurRetry (s : State) (sp : Nat) (h : memWf s.mem = true) :
    memWf (spurRetry s sp).mem = true := by
  refine memWf_foldl _ (fun s o hs => ?_) _ _ h
  split
  · split
    · exact memWf_opSettle _ _ _ (memWf_eachLane _ _ _ _ _ (fun s o l hs => by simp [hs]) hs)
    · exact hs
  · exact hs

@[simp] theorem memWf_maintStart (s : State) (sp : Nat) (o : MemOp) (f : BitVec 5) (h : memWf s.mem = true) :
    memWf (maintStart s sp o f).mem = true := by
  unfold maintStart
  repeat' split
  all_goals simp [memWf_foldl, h]

@[simp] theorem memWf_opStart (s : State) (sp : Nat) (o : MemOp) (h : memWf s.mem = true) :
    memWf (opStart s sp o).mem = true := by
  unfold opStart
  repeat' split
  all_goals simp [memWf_foldl, apply_ite State.mem, h]

@[simp] theorem memWf_opTry (s : State) (sp id : Nat) (h : memWf s.mem = true) : memWf (opTry s sp id).mem = true := by
  simp only [opTry]
  split
  · exact h
  split
  · simp [h]
  · next e =>
    rw [← opXlate_mem _ _ _ _ e] at h
    split
    · exact memWf_opStart _ _ _ (by simpa using h)
    · simpa using h

@[simp] theorem memWf_opNew (s : State) (sp slot : Nat) (g : Group) (b : Block) (kind : MemKind)
    (size order scope : Nat) (direct once : Bool) (lanes : List MemLane) (h : memWf s.mem = true) :
    memWf (opNew s sp slot g b kind size order scope direct once lanes).mem = true := by
  simp [opNew, h]

@[simp] theorem memWf_globalIssue (s : State) (sp slot : Nat) (g : Group) (kind : MemKind) (size order scope : Nat)
    (direct once : Bool) (lanes : List MemLane) (h : memWf s.mem = true) :
    memWf (globalIssue s sp slot g kind size order scope direct once lanes).mem = true := by
  simp only [globalIssue]
  repeat' split
  all_goals simp [h]

/-- An instruction that issues keeps memory canonical when its effect does. -/
theorem memWf_classIssue {s : State} {sp slot op : Nat} {w : W64} {regs : List Nat} {bad : Bool} {eff : Group → State}
    (heff : ∀ g, memWf (eff g).mem = true) (h : memWf s.mem = true) :
    memWf (ofClass s sp slot op w fun _ => issue s sp slot regs bad eff).mem = true :=
  memWf_ofClass _ _ _ _ _ _ (memWf_issue _ _ _ _ _ _ heff h) h

@[simp] theorem memWf_ldGlobal (s : State) (sp slot : Nat) (w : W64) (h : memWf s.mem = true) :
    memWf (ldGlobal s sp slot w).mem = true :=
  memWf_classIssue (fun _ => memWf_globalIssue _ _ _ _ _ _ _ _ _ _ _ h) h

@[simp] theorem memWf_stGlobal (s : State) (sp slot : Nat) (w : W64) (h : memWf s.mem = true) :
    memWf (stGlobal s sp slot w).mem = true :=
  memWf_classIssue (fun _ => memWf_globalIssue _ _ _ _ _ _ _ _ _ _ _ h) h

@[simp] theorem memWf_atGlobal (s : State) (sp slot : Nat) (w : W64) (h : memWf s.mem = true) :
    memWf (atGlobal s sp slot w).mem = true :=
  memWf_classIssue (fun _ => memWf_globalIssue _ _ _ _ _ _ _ _ _ _ _ h) h

@[simp] theorem memWf_localIssue (s : State) (sp slot : Nat) (g : Group) (size order scope : Nat) (lanes : List
    (Nat × Nat))
    (eff : Block → State) (heff : ∀ b, memWf (eff b).mem = true) (h : memWf s.mem = true) :
    memWf (localIssue s sp slot g size order scope lanes eff).mem = true := by
  simp only [localIssue]
  repeat' split
  all_goals simp [heff, h]

@[simp] theorem acquireL1_mem (s : State) (sp : Nat) (ctx : BitVec 16) (order scope : Nat) :
    (acquireL1 s sp ctx order scope).mem = s.mem := by
  unfold acquireL1
  split <;> rfl

@[simp] theorem memWf_ldLocal (s : State) (sp slot : Nat) (w : W64) (h : memWf s.mem = true) :
    memWf (ldLocal s sp slot w).mem = true :=
  memWf_classIssue (fun g => memWf_localIssue _ _ _ _ _ _ _ _ _ (fun b => by simp [h]) h) h

@[simp] theorem memWf_stLocal (s : State) (sp slot : Nat) (w : W64) (h : memWf s.mem = true) :
    memWf (stLocal s sp slot w).mem = true :=
  memWf_classIssue (fun g => memWf_localIssue _ _ _ _ _ _ _ _ _ (fun b => by simp [h]) h) h

@[simp] theorem memWf_atLocal (s : State) (sp slot : Nat) (w : W64) (h : memWf s.mem = true) :
    memWf (atLocal s sp slot w).mem = true :=
  memWf_classIssue (fun g => memWf_localIssue _ _ _ _ _ _ _ _ _ (fun b => by simp [h]) h) h

@[simp] theorem memWf_cohClean (s : State) (ln : Nat) (h : memWf s.mem = true) :
    memWf (cohClean s ln).mem = true := by
  simp [cohClean, h]

@[simp] theorem memWf_cohFlush (s : State) (ln : Nat) (h : memWf s.mem = true) :
    memWf (cohFlush s ln).mem = true := by
  simp only [cohFlush, invalAll_mem, modHome_mem, memWf_storeLine, apply_ite State.mem, apply_ite memWf, ite_self, h]

@[simp] theorem targetCheckBy_mem (s : State) (die agent : Nat) (ctx : BitVec 16) (pa : Nat) (write : Bool) :
    (targetCheckBy s die agent ctx pa write).1.mem = s.mem := by
  simp only [targetCheckBy]
  split <;> simp

@[simp] theorem targetCheck_mem (s : State) (sp : Nat) (ctx : BitVec 16) (pa : Nat) (write : Bool) :
    (targetCheck s sp ctx pa write).1.mem = s.mem :=
  targetCheckBy_mem ..

theorem takeRefused_mem {s t : State} {a ln : Nat} (e : takeRefused s a ln = some t) : t.mem = s.mem := by
  unfold takeRefused at e
  repeat' split at e
  · cases e; rfl
  · cases e
  · cases e

@[simp] theorem loadLane_mem (s : State) (sp : Nat) (o : MemOp) (l : MemLane) : (loadLane s sp o l).1.mem = s.mem := by
  simp only [loadLane]
  repeat' split
  case h_1 e => exact takeRefused_mem e
  case h_1 e => exact takeRefused_mem e
  all_goals simp

@[simp] theorem memWf_storeLane (s : State) (sp : Nat) (o : MemOp) (l : MemLane) (h : memWf s.mem = true) :
    memWf (storeLane s sp o l).1.mem = true := by
  simp only [storeLane]
  repeat' split
  case h_1 e => rw [takeRefused_mem e]; exact h
  case h_1 e => rw [takeRefused_mem e]; exact h
  all_goals simp [h]

/-- The state that an atomic of the lanes of one address leaves. -/
def atomicState : Sum (State × MemOp) (State × Nat) → State
  | .inl p => p.1
  | .inr p => p.1

@[simp] theorem memWf_atomicAddr (s : State) (sp : Nat) (o : MemOp) (aop : BitVec 4) (aty : BitVec 3) (l : MemLane)
    (h : memWf s.mem = true) : memWf (atomicState (atomicAddr s sp o aop aty l)).mem = true := by
  simp only [atomicAddr]
  repeat' split
  case h_1 e => simp [atomicState, takeRefused_mem e, h]
  all_goals simp [atomicState, h]

@[simp] theorem memWf_atomicServe (s : State) (sp : Nat) (o : MemOp) (aop : BitVec 4) (aty : BitVec 3)
    (h : memWf s.mem = true) : memWf (atomicServe s sp o aop aty).mem = true := by
  refine memWf_opSettle _ _ _
    (List.foldlRecOn (motive := fun acc => memWf (laneState acc).mem = true) _ _ h fun acc hacc pa _ => ?_)
  split
  · exact hacc
  · next t o' =>
    split
    · exact hacc
    · next l _ =>
      split
      · exact hacc
      · have served := memWf_atomicAddr t sp o' aop aty l hacc
        split
        all_goals
          next e =>
          rw [e] at served
          exact served

@[simp] theorem memWf_maintLane (s : State) (sp : Nat) (o : MemOp) (f : BitVec 5) (l : MemLane)
    (h : memWf s.mem = true) :
    memWf (maintLane s sp o f l).1.mem = true := by
  simp only [maintLane]
  repeat' split
  case h_1 e => rw [takeRefused_mem e]; exact h
  all_goals simp [h]

@[simp] theorem memWf_directResponse (s : State) (sp id : Nat) (h : memWf s.mem = true) :
    memWf (directResponse s sp id).mem = true := by
  simp only [directResponse]
  split
  · exact h
  split
  · exact h
  next o _ _ =>
  have stores := memWf_eachLane (setOp s sp (arrived s sp o)) sp (arrived s sp o) (dsTurn (arrived s sp o))
    (fun s o l => storeLane s sp o l) (fun s o l hs => memWf_storeLane s sp o l hs) (by simpa using h)
  have maint := fun f => memWf_eachLane (setOp s sp (arrived s sp o)) sp (arrived s sp o) (fun _ => true)
    (fun s o l => maintLane s sp o f l) (fun s o l hs => memWf_maintLane s sp o f l hs) (by simpa using h)
  split
  · rw [fenceCheck_mem]
    exact memWf_opSettle _ _ _ (memWf_eachLane _ _ _ _ _ (fun s o l hs => by simp [hs]) (by simpa using h))
  · exact memWf_spurRetry _ _ (memWf_atomicServe _ _ _ _ _ (by simpa using h))
  · split
    · next e =>
      rw [e] at stores
      exact memWf_opFault _ _ _ _ _ stores
    · next e =>
      rw [e] at stores
      simp only [laneState] at stores
      repeat' split
      all_goals simp [stores]
  · split
    · next e =>
      have hm := maint ‹_›
      rw [e] at hm
      exact memWf_opFault _ _ _ _ _ hm
    · next e =>
      have hm := maint ‹_›
      rw [e] at hm
      simp only [laneState] at hm
      split
      all_goals simp [hm]

/-- The accesses that waited for a sector take it, or its fault. -/
theorem memWf_l1Wake (sp ln : Nat) (good : Option Line) (cause : Nat) (l : List (Nat × Nat)) {s : State}
    (hs : memWf s.mem = true) : memWf (l.foldl (fun s w =>
      match opAt s sp w.1 with
      | none => s
      | some o =>
        match good with
        | some d =>
          let o := { o with lanes := o.lanes.map fun l =>
            if l.st = .miss ∧ l.pa / 64 = ln then { l with st := .done, data := lineValue d (l.pa % 64) o.size } else l }
          opCheck (setOp s sp o) sp o
        | none =>
          let va := ((o.lanes.find? fun l => l.st == .miss && l.pa / 64 == ln).map (·.va)).getD 0
          opFault s sp o cause va) s).mem = true := by
  refine memWf_foldl _ (fun s w hs => ?_) _ _ hs
  dsimp only
  repeat' split
  all_goals simp [hs]

@[simp] theorem memWf_l1Fill (s : State) (sp blk : Nat) (ctx : BitVec 16) (sec : Nat) (h : memWf s.mem = true) :
    memWf (l1Fill s sp blk ctx sec).mem = true := by
  unfold l1Fill
  dsimp only
  split
  · exact h
  · split
    · rwa [agentWantRead_mem]
    · next t _ e =>
      have ht : memWf t.mem = true := by
        split at e
        · next e' => cases e; rw [takeRefused_mem e']; exact h
        · obtain ⟨y, -, hy⟩ := Option.map_eq_some_iff.mp e
          cases hy
          exact h
      exact memWf_spurRetry _ _ (memWf_l1Wake _ _ _ _ _ (by rwa [modSpur_mem]))

@[simp] theorem memWf_fenceS (s : State) (sp slot : Nat) (w : W64) (h : memWf s.mem = true) :
    memWf (fenceS s sp slot w).mem = true :=
  memWf_classIssue (fun g => by split <;> simp [h]) h

theorem memWf_ite {p : Prop} [Decidable p] {a b : State} (ha : memWf a.mem = true) (hb : memWf b.mem = true) :
    memWf (if p then a else b).mem = true := by
  split
  · exact ha
  · exact hb

@[simp] theorem memWf_maintOp (s : State) (sp slot : Nat) (w : W64) (func : Nat) (h : memWf s.mem = true) :
    memWf (maintOp s sp slot w func).mem = true := by
  refine memWf_ofClass _ _ _ _ _ _ (memWf_ite h (memWf_issue _ _ _ _ _ _ (fun g => memWf_ite (by simpa using h) ?_) h)) h
  split
  · exact h
  · exact memWf_ite h (memWf_ite (by simpa using h) (memWf_opNew _ _ _ _ _ _ _ _ _ _ _ _ h))

end Sys2Proof.Machine
end

section
/-! PROOF. Memory under Couloir: a function leaves memory alone, or keeps it canonical. -/

namespace Sys2Proof.Machine

@[simp] theorem clPut_mem (s : State) (sp slot n : Nat) (data : BitVec 128) :
    (clPut s sp slot n data).mem = s.mem := rfl

@[simp] theorem clArrive_mem (s : State) (sp slot n : Nat) (data : BitVec 128) :
    (clArrive s sp slot n data).mem = s.mem := by
  unfold clArrive
  split <;> rfl

@[simp] theorem clAssemble_mem (s : State) (sp slot n : Nat) (data : BitVec 128) :
    (clAssemble s sp slot n data).mem = s.mem := by
  unfold clAssemble
  all_goals simp [apply_ite State.mem]

@[simp] theorem clRefuse_mem (s : State) (sp : Nat) (b : Block) (ctr : Nat) (c : Line) (status : Byte) (place : Bool) :
    (clRefuse s sp b ctr c status place).mem = s.mem := rfl

@[simp] theorem memWf_clSubmit (s : State) (sp slot : Nat) (data : BitVec 128) (h : memWf s.mem = true) :
    memWf (clSubmit s sp slot data).mem = true := by
  simp only [clSubmit]
  repeat' split
  all_goals simp [h]

@[simp] theorem clSend_mem (s : State) (sp slot : Nat) : (clSend s sp slot).mem = s.mem := by
  unfold clSend
  repeat' split
  all_goals simp [apply_ite State.mem]

@[simp] theorem clReceive_mem (s : State) (md id : Nat) : (clReceive s md id).mem = s.mem := by
  unfold clReceive
  repeat' split
  all_goals rfl

/-- The state that a read of a scan leaves, where it leaves one, has the memory of `s`. -/
def ClRead.SameMem (s : State) : ClRead → Prop
  | .wait => True
  | .stop t _ => t.mem = s.mem
  | .data t _ => t.mem = s.mem

theorem clRead_sameMem (s : State) (c : ClCmd) (pa n : Nat) : (clRead s c pa n).SameMem s := by
  simp only [clRead]
  repeat' split
  all_goals simp [ClRead.SameMem, mem_foldl]

theorem clEntry_sameMem (s : State) (c : ClCmd) (i : Nat) : (clEntry s c i).SameMem s := by
  simp only [clEntry]
  repeat' split
  · rfl
  · exact clRead_sameMem ..
  all_goals rfl

/-- A read that follows a read keeps what the first one kept. -/
theorem ClRead.SameMem.trans {s t : State} {r : ClRead} (hr : r.SameMem t) (ht : t.mem = s.mem) : r.SameMem s := by
  cases r with
  | wait => trivial
  | stop u st => exact Eq.trans hr ht
  | data u b => exact Eq.trans hr ht

theorem clRow_sameMem (s : State) (c : ClCmd) (page j : Nat) : (clRow s c page j).SameMem s := by
  have first := clRead_sameMem s c (page + j * (c.dim * mxBits c.fmt / 8)) (c.dim * mxBits c.fmt / 8)
  simp only [clRow]
  split
  · next t e h =>
    rw [h] at first
    split
    · have second :=
        (clRead_sameMem t c (page + c.rows * (c.dim * mxBits c.fmt / 8) + j * (c.dim / 32)) (c.dim / 32)).trans first
      split
      · next h => rw [h] at second; exact second
      · exact second
    · exact first
  · exact first

theorem clPosition_sameMem (s : State) (c : ClCmd) (p : Nat) : (clPosition s c p).SameMem s := by
  have first := clEntry_sameMem s c ((p - c.basePos) / c.rows)
  simp only [clPosition]
  split
  · next t b h =>
    rw [h] at first
    split
    · exact first
    · next kp vp _ =>
      have second := (clRow_sameMem t c kp ((p - c.basePos) % c.rows)).trans first
      split
      · next u k h =>
        rw [h] at second
        have third := (clRow_sameMem u c vp ((p - c.basePos) % c.rows)).trans second
        split
        · next h => rw [h] at third; exact third
        · exact third
      · exact second
  · exact first

/-- What a scan gathers is read: memory stays. -/
theorem clGather_mem (c : ClCmd) (l : List Nat) (s : State) (acc : List (List Byte)) :
    ∀ p ∈ clGather c l s acc, p.1.mem = s.mem := by
  induction l generalizing s acc with
  | nil => simp [clGather]
  | cons i l ih =>
    have read := clPosition_sameMem s c (c.position i)
    simp only [clGather]
    split
    · simp
    · next e =>
      rw [e] at read
      intro p hp
      cases hp
      exact read
    · next t b e =>
      rw [e] at read
      intro p hp
      exact (ih _ _ p hp).trans read

@[simp] theorem clFinish_mem (s : State) (id : Nat) (c : ClCmd) (status : Byte) :
    (clFinish s id c status).mem = s.mem := by
  simp [clFinish]

@[simp] theorem clAssign_mem (s : State) (md e : Nat) (w : ArbReq) : (clAssign s md e w).mem = s.mem := by
  unfold clAssign
  split <;> rfl

@[simp] theorem clDecide_mem (s : State) (md e : Nat) : (clDecide s md e).mem = s.mem := by
  simp only [clDecide]
  repeat' split
  all_goals simp

@[simp] theorem clStep_mem (s : State) (md e : Nat) : (clStep s md e).mem = s.mem := by
  simp only [clStep]
  split
  · rfl
  · split
    · exact clFinish_mem ..
    · split
      · rfl
      · next e =>
        have hr := clGather_mem _ _ _ _ _ e
        repeat' split
        all_goals simpa using hr

@[simp] theorem clScan_mem (s : State) (md e : Nat) : (clScan s md e).mem = s.mem := by
  unfold clScan
  repeat' split
  all_goals simp

@[simp] theorem memWf_clDeliver (s : State) (md id : Nat) (h : memWf s.mem = true) :
    memWf (clDeliver s md id).mem = true := by
  unfold clDeliver
  repeat' split
  all_goals simp [h]

end Sys2Proof.Machine
end

section
/-! PROOF. Memory under copies and movers: a function leaves memory alone, or keeps it canonical. -/

namespace Sys2Proof.Machine

@[simp] theorem copyIssue_mem (s : State) (sp slot : Nat) (g : Group) (b : Block) (ctr : Nat) (toGlobal : Bool)
    (scope : Nat) (parts : List CopyPart) :
    (copyIssue s sp slot g b ctr toGlobal scope parts).mem = s.mem := by
  unfold copyIssue
  split <;> simp [apply_ite State.mem]

@[simp] theorem memWf_haulLane (s : State) (sp slot : Nat) (w : W64) (h : memWf s.mem = true) :
    memWf (haulLane s sp slot w).mem = true := by
  refine memWf_classIssue (fun g => ?_) h
  dsimp only
  repeat' split
  all_goals simp [h]

@[simp] theorem memWf_haulBulk (s : State) (sp slot : Nat) (w : W64) (h : memWf s.mem = true) :
    memWf (haulBulk s sp slot w).mem = true := by
  refine memWf_classIssue (fun g => ?_) h
  repeat' split
  all_goals simp [h]

/-- The state that a piece of a copy leaves, where it leaves one. -/
def PieceRes.state? : PieceRes → Option State
  | .wait => none
  | .fault s _ => some s
  | .done s => some s

/-- A piece copied out of local memory keeps memory canonical. -/
theorem memWf_pieceOut (s : State) (sp : Nat) (j : CopyJob) (base : Nat) (p : CopyPart) (h : memWf s.mem = true) :
    ∀ t ∈ (pieceOut s sp j base p).state?, memWf t.mem = true := by
  simp only [pieceOut]
  repeat' split
  all_goals simp [PieceRes.state?, h]

/-- A piece copied into local memory changes no memory. -/
theorem mem_pieceIn (s : State) (sp : Nat) (j : CopyJob) (base : Nat) (p : CopyPart) :
    ∀ t ∈ (pieceIn s sp j base p).state?, t.mem = s.mem := by
  simp only [pieceIn]
  repeat' split
  all_goals simp [PieceRes.state?]

/-- One piece of a copy, in or out. -/
theorem memWf_piece (s : State) (sp : Nat) (j : CopyJob) (base : Nat) (p : CopyPart) (h : memWf s.mem = true) :
    ∀ t ∈ (if j.toGlobal then pieceOut s sp j base p else pieceIn s sp j base p).state?, memWf t.mem = true := by
  split
  · exact memWf_pieceOut _ _ _ _ _ h
  · exact fun t ht => (congrArg memWf (mem_pieceIn _ _ _ _ _ t ht)).trans h

/-- The pieces of a copy, one after another. -/
theorem memWf_pieces (sp : Nat) (j : CopyJob) (base : Nat) (l : List CopyPart) (s : State) (h : memWf s.mem = true) :
    ∀ r ∈ l.foldl (fun (acc : Option (State × Option (Nat × W64))) p =>
        match acc with
        | none => none
        | some (s, f) =>
          match (if j.toGlobal then pieceOut s sp j base p else pieceIn s sp j base p) with
          | .wait => none
          | .done s => some (s, f)
          | .fault s c => some (s, f.or (some (c, p.va)))) (some (s, none)), memWf r.1.mem = true := by
  refine List.foldlRecOn (motive := fun acc : Option (State × Option (Nat × W64)) => ∀ r ∈ acc, memWf r.1.mem = true)
    _ _ (by simpa using h) fun acc hacc p _ => ?_
  split
  · simp
  · next t f =>
    have piece := memWf_piece t sp j base p (hacc _ rfl)
    split
    · simp
    all_goals
      next e =>
      rw [e] at piece
      simpa using piece _ rfl

@[simp] theorem memWf_copyComplete (s : State) (sp job : Nat) (h : memWf s.mem = true) :
    memWf (copyComplete s sp job).mem = true := by
  simp only [copyComplete]
  split
  · exact h
  · split
    · exact h
    · split
      · exact h
      · next e =>
        have done := memWf_pieces _ _ _ _ _ h _ e
        split <;> simp [done]

@[simp] theorem memWf_arriveGet (s : State) (sp slot : Nat) (w : W64) (h : memWf s.mem = true) :
    memWf (arriveGet s sp slot w).mem = true :=
  memWf_classIssue (fun g => by split <;> simp [h]) h

@[simp] theorem memWf_arriveWait (s : State) (sp slot : Nat) (w : W64) (h : memWf s.mem = true) :
    memWf (arriveWait s sp slot w).mem = true := by
  refine memWf_classIssue (fun g => ?_) h
  dsimp only
  repeat' split
  all_goals simp [h]

@[simp] theorem memWf_barrier (s : State) (sp slot op : Nat) (hold : Bool) (w : W64) (h : memWf s.mem = true) :
    memWf (barrier s sp slot op hold w).mem = true := by
  refine memWf_classIssue (fun g => ?_) h
  dsimp only
  repeat' split
  all_goals simp [h]

@[simp] theorem memWf_stallExpiry (s : State) (sp slot : Nat) (h : memWf s.mem = true) :
    memWf (stallExpiry s sp slot).mem = true := by
  unfold stallExpiry
  repeat' split
  all_goals simp [h]

end Sys2Proof.Machine
end

section
/-! PROOF. Memory under the scalar harts: a function leaves memory alone, or keeps it canonical. -/

namespace Sys2Proof.Machine

@[simp] theorem setX_mem (s : State) (h rd : Nat) (v : W64) : (setX s h rd v).mem = s.mem := rfl

@[simp] theorem hartTrap_mem (s : State) (h cause : Nat) (tval : W64) : (hartTrap s h cause tval).mem = s.mem := rfl

@[simp] theorem hartXlate_mem (s : State) (h : Nat) (va : W64) (write : Bool) :
    (hartXlate s h va write).1.mem = s.mem := by
  simp only [hartXlate]
  repeat' split
  all_goals simp

@[simp] theorem hartPieces_mem (s : State) (h : Nat) (va : W64) (n : Nat) (write : Bool) :
    (hartPieces s h va n write).1.mem = s.mem := by
  refine List.foldlRecOn (motive := fun acc : State × Sum (Nat × W64) (Option (List HartPiece)) => acc.1.mem = s.mem)
    _ _ rfl fun acc hacc p _ => ?_
  have walked := hartXlate_mem acc.1 h p.1 write
  repeat' split
  all_goals simp_all

@[simp] theorem memWf_hartPutNu (s : State) (hn : Nat) (x : HartStore) (h : memWf s.mem = true) :
    memWf (hartPutNu s hn x).mem = true := by
  simp only [hartPutNu]
  repeat' split
  all_goals simp [h]

@[simp] theorem memWf_hartDrain (s : State) (hn : Nat) (h : memWf s.mem = true) :
    memWf (hartDrain s hn).mem = true := by
  refine memWf_foldl _ (fun s x hs => ?_) _ _ h
  repeat' split
  all_goals simp [hs]

theorem hartReady_mem {s t : State} {h : Nat} (e : hartReady s h = some t) : t.mem = s.mem := by
  simp only [hartReady] at e
  split at e
  · cases e
  · cases e; rfl

@[simp] theorem memWf_hartDo (s : State) (hn : Nat) (f : State → State)
    (hf : ∀ s, memWf s.mem = true → memWf (f s).mem = true) (h : memWf s.mem = true) :
    memWf (hartDo s hn f).mem = true := by
  have drained : memWf (hartDrain s hn).mem = true := memWf_hartDrain s hn h
  simp only [hartDo]
  split
  · next e => exact hf _ (by rwa [hartReady_mem e])
  · exact drained

@[simp] theorem hartAwait_mem (s : State) (h ln : Nat) : (hartAwait s h ln).mem = s.mem := rfl

@[simp] theorem coreFill_mem (s : State) (h ln : Nat) (d : Line) (dirty : Bool) :
    (coreFill s h ln d dirty).mem = s.mem := by
  unfold coreFill
  simp only
  repeat' split
  · exact modHart_mem ..
  · exact modHart_mem ..
  · refine (modHart_mem ..).trans ((mem_foldl _ (fun s e => ?_) _ _).trans (modHart_mem ..))
    repeat' split
    all_goals simp

@[simp] theorem hartLine_mem (s : State) (h ln : Nat) : (hartLine s h ln).1.mem = s.mem := by
  simp only [hartLine]
  repeat' split
  all_goals simp
  all_goals next e => exact takeRefused_mem e

@[simp] theorem hartLoadPiece_mem (s : State) (h : Nat) (p : HartPiece) : (hartLoadPiece s h p).1.mem = s.mem := by
  have line := hartLine_mem s h (p.pa / 64)
  simp only [hartLoadPiece]
  repeat' split
  all_goals simp_all

@[simp] theorem hartLoadEnd_mem (s : State) (h : Nat) (l : HartLoad) : (hartLoadEnd s h l).mem = s.mem := by
  unfold hartLoadEnd
  repeat' split
  all_goals rfl

/-- Where the pieces of an access lie was looked up: memory stays. -/
theorem memWf_of_hartPieces {s t : State} {h n : Nat} {va : W64} {write : Bool} {r : Sum (Nat × W64) (Option
    (List HartPiece))}
    (e : hartPieces s h va n write = (t, r)) (hs : memWf s.mem = true) : memWf t.mem = true := by
  have pieces := hartPieces_mem s h va n write
  rw [e] at pieces
  exact (congrArg memWf pieces).trans hs

/-- The pieces of a load, one after another: memory stays. -/
theorem loadPieces_mem (hn : Nat) (ps : List HartPiece) (x : State × Option (List HartPart) × Bool) :
    (ps.foldl (fun (acc : State × Option (List HartPart) × Bool) p =>
      match hartLoadPiece acc.1 hn p with
      | (s, .data b) => (s, acc.2.1.map (· ++ [⟨p.pa, p.n, (s.hart hn).ctx, b, 2, false⟩]), acc.2.2)
      | (s, .window) => (s, acc.2.1.map (· ++ [⟨p.pa, p.n, (s.hart hn).ctx, [], 0, false⟩]), acc.2.2)
      | (s, .poison) => (s, acc.2.1, true)
      | (s, .wait) => (s, none, acc.2.2)) x).1.mem = x.1.mem := by
  refine List.foldlRecOn (motive := fun acc : State × Option (List HartPart) × Bool => acc.1.mem = x.1.mem)
    _ _ rfl fun acc hacc p _ => ?_
  have piece := (hartLoadPiece_mem acc.1 hn p).trans hacc
  split
  all_goals next e => rw [e] at piece; exact piece

@[simp] theorem memWf_hartLoad (s : State) (hn rd : Nat) (va : W64) (lg : Nat) (signed : Bool)
    (h : memWf s.mem = true) :
    memWf (hartLoad s hn rd va lg signed).mem = true := by
  refine memWf_hartDo _ _ _ (fun s hs => ?_) h
  split
  · next e =>
    rw [hartTrap_mem]
    exact memWf_of_hartPieces e hs
  · next e => exact memWf_of_hartPieces e hs
  · next t ps e =>
    have ht := (congrArg memWf (loadPieces_mem hn ps (t, some [], false))).trans (memWf_of_hartPieces e hs)
    simp only
    split
    · rw [hartTrap_mem]; exact ht
    · split
      · exact ht
      · rw [hartLoadEnd_mem]; exact ht

@[simp] theorem hartWindowDone_mem (s : State) (h pa : Nat) (write : Bool) (b : List Byte) (bad : Bool) :
    (hartWindowDone s h pa write b bad).mem = s.mem := by
  simp only [hartWindowDone]
  repeat' split
  all_goals simp

@[simp] theorem memWf_hartStorePiece (s : State) (hn : Nat) (p : HartPiece) (b : List Byte) (h : memWf s.mem = true) :
    memWf (hartStorePiece s hn p b).mem = true := by
  simp only [hartStorePiece]
  repeat' split
  all_goals simp [h]

/-- The pieces of a store, one after another. -/
theorem memWf_storePieces (hn : Nat) (ps : List HartPiece) (b : List Byte) {s : State} (hs : memWf s.mem = true) :
    memWf (ps.foldl (fun (acc : State × List Byte) p =>
      (hartStorePiece acc.1 hn p (acc.2.take p.n), acc.2.drop p.n)) (s, b)).1.mem = true :=
  List.foldlRecOn (motive := fun acc : State × List Byte => memWf acc.1.mem = true) _ _ hs
    fun acc hacc p _ => by simp [hacc]

@[simp] theorem memWf_hartStore (s : State) (hn : Nat) (va : W64) (lg : Nat) (data : W64) (h : memWf s.mem = true) :
    memWf (hartStore s hn va lg data).mem = true := by
  refine memWf_hartDo _ _ _ (fun s hs => ?_) h
  split
  · next e =>
    rw [hartTrap_mem]
    exact memWf_of_hartPieces e hs
  · next e => exact memWf_of_hartPieces e hs
  · next e =>
    split
    · exact memWf_of_hartPieces e hs
    · exact memWf_hartDrain _ _ (memWf_storePieces _ _ _ (memWf_of_hartPieces e hs))

@[simp] theorem amoResv_mem (s : State) (h : Nat) (op : AmoOp) (ln : Nat) : (amoResv s h op ln).mem = s.mem := rfl

/-- A line that a hart looked up: memory stays. -/
theorem memWf_of_hartLine {s t : State} {h ln : Nat} {d : Option Line} {b : Bool} (e : hartLine s h ln = (t, d, b))
    (hs : memWf s.mem = true) : memWf t.mem = true := by
  have line := hartLine_mem s h ln
  rw [e] at line
  exact (congrArg memWf line).trans hs

/-- What an atomic of a hart writes into its line, where its cluster owns it. -/
theorem amoStore_mem (s : State) (h ln : Nat) (b : Option (List Byte)) (o : Nat) :
    (match b with
      | some b =>
        match agentLine (wakeResv (mergeL1 s (clusterOf h) ln) ln) (clusterOf h) ln with
        | some l => coreFill (setAgentLine (wakeResv (mergeL1 s (clusterOf h) ln) ln) (clusterOf h) ln { l with st := .m })
            h ln (putBytes l.data o b) true
        | none => wakeResv (mergeL1 s (clusterOf h) ln) ln
      | none => s).mem = s.mem := by
  repeat' split
  · rw [coreFill_mem, setAgentLine_mem, wakeResv_mem, mergeL1_mem]
  · rw [wakeResv_mem, mergeL1_mem]
  · rfl

@[simp] theorem memWf_hartAmo (s : State) (hn : Nat) (op : AmoOp) (rd : Nat) (va : W64) (dbl rl : Bool) (src : W64)
    (h : memWf s.mem = true) : memWf (hartAmo s hn op rd va dbl rl src).mem = true := by
  refine memWf_hartDo _ _ _ (fun s hs => memWf_ite ((congrArg memWf (hartTrap_mem _ _ _ _)).trans hs) (memWf_ite hs ?_)) h
  split
  · next e => exact (congrArg memWf (hartTrap_mem _ _ _ _)).trans (memWf_of_hartPieces e hs)
  · next t p e =>
    have ht := memWf_of_hartPieces e hs
    refine memWf_ite ((congrArg memWf (hartTrap_mem _ _ _ _)).trans ht)
      (memWf_ite ht (memWf_ite ?_ (memWf_ite ?_ (memWf_ite ht ?_))))
    · rwa [setX_mem, amoResv_mem]
    · split
      · next e => exact (congrArg memWf ((hartTrap_mem _ _ _ _).trans (takeRefused_mem e))).trans ht
      · refine memWf_ite (by rwa [hartAwait_mem, agentWantWrite_mem]) ?_
        split
        · next e =>
          rw [setX_mem, amoResv_mem]
          exact (congrArg memWf (amoStore_mem _ hn _ _ _)).trans (memWf_of_hartLine e ht)
        · next e => rw [hartTrap_mem]; exact memWf_of_hartLine e ht
        · next e => exact memWf_of_hartLine e ht
    · have checked := fun a c p w => (congrArg memWf (targetCheckBy_mem t (agentDie a) a c p w)).trans ht
      refine memWf_ite ((congrArg memWf (hartTrap_mem _ _ _ _)).trans (checked _ _ _ _)) ?_
      rw [setX_mem, amoResv_mem]
      split
      · exact memWf_cohPut _ _ _ _ (checked _ _ _ _)
      · exact checked _ _ _ _
  · next e => exact memWf_of_hartPieces e hs

@[simp] theorem memWf_hartFence (s : State) (h : Nat) (pred succ : BitVec 4) (wf : memWf s.mem = true) :
    memWf (hartFence s h pred succ).mem = true := by
  unfold hartFence
  all_goals simp +contextual [wf]

@[simp] theorem memWf_hartFenceI (s : State) (h : Nat) (wf : memWf s.mem = true) :
    memWf (hartFenceI s h).mem = true := by
  unfold hartFenceI
  all_goals simp [apply_ite State.mem, wf]

@[simp] theorem memWf_hartWrs (s : State) (h : Nat) (sto : Bool) (wf : memWf s.mem = true) :
    memWf (hartWrs s h sto).mem = true := by
  unfold hartWrs
  all_goals simp +contextual [wf]

@[simp] theorem memWf_hartCbo (s : State) (hn : Nat) (va : W64) (op : Nat) (eff : State → HartPiece → State)
    (heff : ∀ s p, memWf s.mem = true → memWf (eff s p).mem = true) (h : memWf s.mem = true) :
    memWf (hartCbo s hn va op eff).mem = true := by
  refine memWf_hartDo _ _ _ (fun s hs => ?_) h
  have pieces := hartPieces_mem s hn (BitVec.ofNat 64 (va.toNat / 64 * 64)) 64 true
  simp only
  repeat' split
  all_goals simp_all

@[simp] theorem memWf_hartClean (s : State) (hn : Nat) (va : W64) (op : Nat) (act : State → Nat → State)
    (hact : ∀ s ln, memWf s.mem = true → memWf (act s ln).mem = true) (h : memWf s.mem = true) :
    memWf (hartClean s hn va op act).mem = true := by
  refine memWf_hartCbo _ _ _ _ _ (fun s p hs => ?_) h
  simp only
  repeat' split
  all_goals simp [hact, hs]

@[simp] theorem memWf_hartZero (s : State) (hn : Nat) (va : W64) (h : memWf s.mem = true) :
    memWf (hartZero s hn va).mem = true := by
  refine memWf_hartCbo _ _ _ _ _ (fun s p hs => ?_) h
  simp only
  repeat' split
  case h_1 e => rw [modHart_mem, takeRefused_mem e]; exact hs
  all_goals simp [hs]

@[simp] theorem memWf_hartPrefetch (s : State) (hn : Nat) (va : W64) (write : Bool) (h : memWf s.mem = true) :
    memWf (hartPrefetch s hn va write).mem = true := by
  refine memWf_hartDo _ _ _ (fun s hs => ?_) h
  have walked := hartXlate_mem s hn va false
  repeat' split
  all_goals simp_all

@[simp] theorem memWf_hartInterrupt (s : State) (h cause : Nat) (wf : memWf s.mem = true) :
    memWf (hartInterrupt s h cause).mem = true := by
  simp only [hartInterrupt]
  repeat' split
  all_goals simp [wf]

@[simp] theorem memWf_hartSfence (s : State) (h : Nat) (va : Option W64) (ctx : Option (BitVec 16))
    (wf : memWf s.mem = true) :
    memWf (hartSfence s h va ctx).mem = true := by
  unfold hartSfence
  repeat' split
  all_goals simp +contextual [wf]

end Sys2Proof.Machine
end

section
/-! PROOF. Memory under translation and claims: a function leaves memory alone, or keeps it canonical. -/

namespace Sys2Proof.Machine

@[simp] theorem memWf_ctxCmd (s : State) (ctx : BitVec 16) (refused : Bool) (act : State → State)
    (hact : ∀ s, memWf s.mem = true → memWf (act s).mem = true) (h : memWf s.mem = true) :
    memWf (ctxCmd s ctx refused act).mem = true := by
  unfold ctxCmd
  repeat' split
  all_goals simp [h, hact]

@[simp] theorem memWf_ctxLoad (s : State) (ctx : BitVec 16) (h : memWf s.mem = true) :
    memWf (ctxLoad s ctx).mem = true := by
  unfold ctxLoad
  generalize readDescriptor s ctx = d
  cases d with
  | none => exact memWf_ctxCmd _ _ _ _ (fun _ hs => hs) h
  | some c => exact memWf_ctxCmd _ _ _ _ (fun _ hs => hs) h

@[simp] theorem rereadTables_mem (s : State) (ctx : BitVec 16) : (rereadTables s ctx).mem = s.mem := by
  unfold rereadTables
  split <;> rfl

@[simp] theorem dropEntries_mem (s : State) (ctx : BitVec 16) : (dropEntries s ctx).mem = s.mem := rfl

@[simp] theorem beginInval_mem (s : State) (ctx : BitVec 16) (unload : Bool) :
    (beginInval s ctx unload).mem = s.mem := by
  simp [beginInval]

@[simp] theorem memWf_ctxInvalidate (s : State) (ctx : BitVec 16) (h : memWf s.mem = true) :
    memWf (ctxInvalidate s ctx).mem = true := by
  simp [ctxInvalidate, h]

@[simp] theorem ctxInvalidateDone_mem (s : State) : (ctxInvalidateDone s).mem = s.mem := by
  unfold ctxInvalidateDone
  repeat' split
  all_goals rfl

@[simp] theorem tlbMissRequest_mem (s : State) (md td stream : Nat) (ctx : BitVec 16) (va : W64) :
    (tlbMissRequest s md td stream ctx va).mem = s.mem := by
  simp only [tlbMissRequest]
  repeat' split
  all_goals simp

@[simp] theorem engineTlbMiss_mem (s : State) (md eng : Nat) (ctx : BitVec 16) (va : W64) :
    (engineTlbMiss s md eng ctx va).mem = s.mem := by
  simp only [engineTlbMiss]
  repeat' split
  all_goals simp

@[simp] theorem walkStart_mem (s : State) (md : Nat) (fromEngine : Bool) : (walkStart s md fromEngine).mem = s.mem := by
  simp only [walkStart]
  repeat' split
  all_goals simp

@[simp] theorem walkFinish_mem (s : State) (md id : Nat) (w : Walk) (r : TlbEntry ⊕ XltFault) :
    (walkFinish s md id w r).mem = s.mem := by
  unfold walkFinish
  split <;> simp

@[simp] theorem walkRead_mem (s : State) (md id : Nat) : (walkRead s md id).mem = s.mem := by
  unfold walkRead
  repeat' split
  all_goals simp [apply_ite State.mem]

@[simp] theorem memWf_replaySlot (s : State) (sp slot : Nat) (h : memWf s.mem = true) :
    memWf (replaySlot s sp slot).mem = true := by
  unfold replaySlot
  all_goals simp +contextual [memWf_foldl, h]

@[simp] theorem memWf_streamReply (s : State) (td stream : Nat) (w : Walk) (r : Sum TlbEntry XltFault)
    (h : memWf s.mem = true) : memWf (streamReply s td stream w r).mem = true := by
  refine memWf_ite (memWf_replaySlot _ _ _ h) (memWf_replaySlot _ _ _ (memWf_foldl _ (fun s o hs => ?_) _ _ ?_))
  · dsimp only
    split
    · exact memWf_ite (by simpa using hs) (memWf_opFault _ _ _ _ _ hs)
    · exact hs
  · cases r <;> exact h

@[simp] theorem memWf_walkReply (s : State) (md id : Nat) (h : memWf s.mem = true) :
    memWf (walkReply s md id).mem = true := by
  unfold walkReply
  repeat' split
  all_goals simp [h]

@[simp] theorem claimQuery_mem (s : State) (md h pa : Nat) : (claimQuery s md h pa).mem = s.mem := by
  unfold claimQuery
  split <;> simp [apply_ite State.mem]

@[simp] theorem faultTimer_mem (s : State) (tgt : Nat) (ctx : BitVec 16) (t : W64) :
    (faultTimer s tgt ctx t).mem = s.mem := by
  simp only [faultTimer]
  repeat' split
  all_goals simp

@[simp] theorem memWf_zeroLine (s : State) (ln : Nat) (h : memWf s.mem = true) :
    memWf (zeroLine s ln).mem = true := by
  simp only [zeroLine, memWf_storeLine, wakeResv_mem, h]

/-- Claims put into the entries of a range of extents. -/
theorem memWf_putClaims (l : List Nat) (w : W32) {s : State} (h : memWf s.mem = true) :
    memWf (l.foldl (fun s e => putClaim s e w) s).mem = true :=
  memWf_foldl _ (fun s e hs => memWf_putClaim s e w hs) _ _ h

/-- Lines flushed one after another. -/
theorem memWf_cohFlushes (l : List Nat) {s : State} (h : memWf s.mem = true) : memWf (l.foldl cohFlush s).mem = true :=
  memWf_foldl _ (fun s ln hs => memWf_cohFlush s ln hs) _ _ h

@[simp] theorem memWf_claimCmd (s : State) (ctx : BitVec 16) (mode : BitVec 2) (scrub : Nat) (h : memWf s.mem = true) :
    memWf (claimCmd s ctx mode scrub).mem = true := by
  unfold claimCmd
  split
  · rwa [setFld_mem]
  · extract_lets first n last inside open_ w put kept flushed zeroed changed
    split
    · rwa [setFld_mem]
    · have hkept : memWf kept.mem = true := memWf_putClaims _ _ h
      have hflushed : memWf flushed.mem = true := by
        unfold flushed
        split
        · exact hkept
        · exact memWf_cohFlushes _ hkept
      have hzeroed : memWf zeroed.mem = true := by
        unfold zeroed
        split
        · exact memWf_zeroExtents _ _ _ hflushed
        · exact hflushed
      rwa [setFld_mem, setFld_mem]

@[simp] theorem memWf_claimDone (s : State) (h : memWf s.mem = true) : memWf (claimDone s).mem = true := by
  have flushed (l : List Nat) {s : State} (hs : memWf s.mem = true) : memWf (l.foldl cohFlush s).mem = true :=
    memWf_foldl _ (fun s ln hs => memWf_cohFlush s ln hs) _ _ hs
  have zeroed (l : List Nat) {s : State} (hs : memWf s.mem = true) : memWf (l.foldl zeroLine s).mem = true :=
    memWf_foldl _ (fun s ln hs => memWf_zeroLine s ln hs) _ _ hs
  simp only [claimDone]
  repeat' split
  · exact h
  · exact h
  · exact zeroed _ h
  · exact zeroed _ (flushed _ h)
  · exact h
  · exact flushed _ h

end Sys2Proof.Machine
end

section
/-! PROOF. Memory under the shared operations of the fabric, of reports and of power: a function leaves memory alone,
or keeps it canonical. -/

namespace Sys2Proof.Machine

@[simp] theorem setLpState_mem (s : State) (lp n : Nat) : (setLpState s lp n).mem = s.mem := rfl

@[simp] theorem kftPut_mem (s : State) (lp p f : Nat) (k : KftSent) (wrap : Nat) :
    (kftPut s lp p f k wrap).mem = s.mem := rfl

@[simp] theorem kftGo_mem (n : Nat) (s : State) (p f : Nat) : (kftGo n s p f).mem = s.mem := by
  induction n generalizing s with
  | zero => rfl
  | succ n ih =>
    simp only [kftGo]
    repeat' split
    · rw [ih, kftPut_mem, modTx_mem]
    · rfl
    · rfl

@[simp] theorem kftPump_mem (s : State) (p f : Nat) : (kftPump s p f).mem = s.mem := by
  simp [kftPump]

@[simp] theorem kftSend_mem (s : State) (p f : Nat) (k : KftPkt) : (kftSend s p f k).mem = s.mem := by
  simp [kftSend]

@[simp] theorem peerSend_mem (s : State) (r : OutReq) : (peerSend s r).1.mem = s.mem := by
  unfold peerSend
  repeat' split
  all_goals simp

@[simp] theorem modCmd_mem (s : State) (cid : Nat) (f : Cmd → Cmd) : (modCmd s cid f).mem = s.mem := by
  unfold modCmd
  split <;> rfl

@[simp] theorem stopCmd_mem (s : State) (cid : Nat) (status : Byte) : (stopCmd s cid status).mem = s.mem := by
  simp [stopCmd]

@[simp] theorem outSettled_mem (s : State) (o : OutOwner) : (outSettled s o).mem = s.mem := by
  unfold outSettled
  split <;> simp

@[simp] theorem outAsk_mem (s : State) (r : OutReq) : (outAsk s r).mem = s.mem := by
  unfold outAsk
  repeat' split
  all_goals simp [apply_ite State.mem]

@[simp] theorem memWf_cmdPut (s : State) (die agent cid : Nat) (ctx : BitVec 16) (pa : Nat) (b : List Byte)
    (poison : Bool)
    (h : memWf s.mem = true) : memWf (cmdPut s die agent cid ctx pa b poison).1.mem = true := by
  simp only [cmdPut]
  repeat' split
  all_goals simp [h]

@[simp] theorem memWf_recordPut (s : State) (die agent cid : Nat) (ctx : BitVec 16) (va : W64) (b : List Byte)
    (h : memWf s.mem = true) : memWf (recordPut s die agent cid ctx va b).1.mem = true := by
  unfold recordPut
  split <;> simp [h]

@[simp] theorem relEvent_mem (s : State) (typ : Byte) (ctx : BitVec 16) (body : List Byte) :
    (relEvent s typ ctx body).mem = s.mem := by
  unfold relEvent
  all_goals simp [apply_ite State.mem]

@[simp] theorem retiredEvent_mem (s : State) (r : Rid) (lost : Nat) (info : Option ErrInfo) :
    (retiredEvent s r lost info).mem = s.mem := by
  unfold retiredEvent
  split <;> simp

@[simp] theorem loseCapacity_mem (s : State) (f : FRef) (n : Nat) : (loseCapacity s f n).mem = s.mem := rfl

@[simp] theorem modHbm_mem (s : State) (md : Nat) (f : HbmDie → HbmDie) : (modHbm s md f).mem = s.mem := by
  simp only [modHbm]
  split
  · exact mem_foldl _ (fun s j => setFldAt_mem s _ _ j _) _ _
  · exact mem_foldl _ (fun s j => setFldAt_mem s _ _ j _) _ _

@[simp] theorem arbDrop_mem (s : State) (where_ : Option (Nat × Nat × Nat)) (r : Rid) :
    (arbDrop s where_ r).mem = s.mem := by
  unfold arbDrop
  split <;> simp [apply_ite State.mem]

@[simp] theorem testEnd_mem (s : State) (t : SelfTest) (result : Byte) : (testEnd s t result).mem = s.mem := by
  unfold testEnd
  split <;> simp [apply_ite State.mem]

@[simp] theorem taskAbandoned_mem (s : State) (r : Rid) (cairn : Bool) : (taskAbandoned s r cairn).mem = s.mem := by
  simp [taskAbandoned]

@[simp] theorem cairnEnd_mem (s : State) (r : Rid) (abandoned : Bool) : (cairnEnd s r abandoned).mem = s.mem := by
  unfold cairnEnd
  repeat' split
  all_goals simp

@[simp] theorem tasksGone_mem (s : State) (r : Rid) : (tasksGone s r).mem = s.mem := by
  simp [tasksGone, mem_foldl]

@[simp] theorem retireStack_mem (s : State) (md j : Nat) (info : optParam (Option ErrInfo) none) :
    (retireStack s md j info).mem = s.mem := by
  unfold retireStack
  all_goals simp [mem_foldl, apply_ite State.mem]

@[simp] theorem setLimit_mem (s : State) (die : Nat) : (setLimit s die).mem = s.mem := rfl

@[simp] theorem applyGrant_mem (s : State) (die k v : Nat) : (applyGrant s die k v).mem = s.mem := rfl

@[simp] theorem stepGrants_mem (s : State) : (stepGrants s).mem = s.mem :=
  mem_foldl _ (fun s e => by repeat' split
                             all_goals simp) _ _

@[simp] theorem pwrReset_mem (s : State) (die : Nat) : (pwrReset s die).mem = s.mem := rfl

@[simp] theorem pwrWarm_mem (s : State) : (pwrWarm s).mem = s.mem := rfl

end Sys2Proof.Machine
end

section
/-! PROOF. Memory under the memory tiers: a function leaves memory alone, or keeps it canonical. -/

namespace Sys2Proof.Machine

@[simp] theorem readCodeword_mem (s : State) (md ln : Nat) (errs errs2 : List (Fin 72)) :
    (readCodeword s md ln errs errs2).1.mem = s.mem := by
  unfold readCodeword
  simp only
  split
  · rfl
  · exact setPoison_mem ..

@[simp] theorem memWf_hbmAccess (s : State) (md ln : Nat) (write : Option Line) (errs errs2 : List (Fin 72))
    (h : memWf s.mem = true) :
    memWf (hbmAccess s md ln write errs errs2).mem = true := by
  unfold hbmAccess
  repeat' split
  all_goals simp only [readCodeword_mem, memWf_storeLine, h]

@[simp] theorem fillBuckets_mem (s : State) (md : Nat) : (fillBuckets s md).mem = s.mem := rfl

@[simp] theorem hbmGrant_mem (s : State) (md stack : Nat) (t : W64) : (hbmGrant s md stack t).mem = s.mem := by
  simp only [hbmGrant]
  split <;> simp

@[simp] theorem hbmTemp_mem (s : State) (md stack temp : Nat) : (hbmTemp s md stack temp).mem = s.mem := by
  unfold hbmTemp
  all_goals simp [apply_ite State.mem]

@[simp] theorem memWf_boardAccess (s : State) (ln : Nat) (write : Option Line) (poison linkErr : Bool)
    (h : memWf s.mem = true) :
    memWf (boardAccess s ln write poison linkErr).mem = true := by
  unfold boardAccess
  repeat' split
  all_goals simp only [setPoison_mem, memWf_storeLine, h]

@[simp] theorem flashWriteDone_mem (s : State) (page : Nat) : (flashWriteDone s page).mem = s.mem := by
  unfold flashWriteDone
  split <;> rfl

@[simp] theorem flashRelocate_mem (s : State) (block reason wear spare : Nat) :
    (flashRelocate s block reason wear spare).mem = s.mem := by
  unfold flashRelocate
  split <;> simp [apply_ite State.mem]

@[simp] theorem memWf_poolClaim (s : State) (e : Nat) (ctx : BitVec 16) (mode : Nat) (h : memWf s.mem = true) :
    memWf (poolClaim s e ctx mode).mem = true := by
  unfold poolClaim
  all_goals simp +contextual [memWf_foldl, memWf_putClaim, h]

@[simp] theorem memWf_moveStart (s : State) (hd lv e : Nat) (cid : Option Nat) (h : memWf s.mem = true) :
    memWf (moveStart s hd lv e cid).mem = true := by
  unfold moveStart
  repeat' split
  all_goals simp [h]

@[simp] theorem setEvicting_mem (s : State) (board : Bool) : (setEvicting s board).mem = s.mem := rfl

@[simp] theorem memWf_poolEvict (s : State) (board : Bool) (of_ : Option (BitVec 16)) (h : memWf s.mem = true) :
    memWf (poolEvict s board of_).mem = true := by
  simp only [poolEvict]
  repeat' split
  all_goals simp [h]

@[simp] theorem poolAge_mem (s : State) : (poolAge s).mem = s.mem := rfl

@[simp] theorem makeImage_mem (s : State) (h : Nat) (p : PoolEnt) (compress : Bool) :
    (makeImage s h p compress).mem = s.mem := rfl

@[simp] theorem streamTransfer_mem (s : State) (h : Nat) : (streamTransfer s h).mem = s.mem := by
  unfold streamTransfer
  repeat' split
  all_goals rfl

@[simp] theorem memWf_tierEnd (s : State) (cid h : Nat) (status : Byte) (wf : memWf s.mem = true) :
    memWf (tierEnd s cid h status).mem = true := by
  simp only [tierEnd]
  repeat' split
  all_goals simp [wf]

@[simp] theorem tierWait_mem (s : State) (cid : Nat) : (tierWait s cid).mem = s.mem := rfl

@[simp] theorem memWf_tierAllocRun (s : State) (cid : Nat) (c : Cmd) (t : TierCmd) (h : memWf s.mem = true) :
    memWf (tierAllocRun s cid c t).mem = true := by
  unfold tierAllocRun
  split
  · simp [h]
  · refine memWf_tierEnd _ _ _ _ ?_
    rw [modTiers_mem]
    exact memWf_zeroExtents _ _ _ (memWf_poolClaim _ _ _ _ h)
  · simp [h]

@[simp] theorem memWf_tierFreeRun (s : State) (cid : Nat) (t : TierCmd) (p : PoolEnt) (h : memWf s.mem = true) :
    memWf (tierFreeRun s cid t p).mem = true := by
  simp only [tierFreeRun]
  repeat' split
  all_goals simp [h]

@[simp] theorem memWf_tierHoldRun (s : State) (cid : Nat) (c : Cmd) (t : TierCmd) (p : PoolEnt)
    (h : memWf s.mem = true) :
    memWf (tierHoldRun s cid c t p).mem = true := by
  unfold tierHoldRun
  repeat' split
  all_goals simp [h]

@[simp] theorem memWf_tierDemoteRun (s : State) (cid : Nat) (c : Cmd) (t : TierCmd) (p : PoolEnt)
    (h : memWf s.mem = true) :
    memWf (tierDemoteRun s cid c t p).mem = true := by
  unfold tierDemoteRun
  repeat' split
  all_goals simp [h]

@[simp] theorem memWf_tierRun (s : State) (cid : Nat) (h : memWf s.mem = true) :
    memWf (tierRun s cid).mem = true := by
  simp only [tierRun]
  repeat' split
  all_goals simp [h]

@[simp] theorem memWf_tierRetry (s : State) (h : memWf s.mem = true) :
    memWf (tierRetry s).mem = true := by
  unfold tierRetry
  all_goals simp +contextual [memWf_foldl, h]

@[simp] theorem memWf_tierRow (s : State) (cid op : Nat) (h : memWf s.mem = true) :
    memWf (tierRow s cid op).mem = true := by
  simp only [tierRow]
  repeat' split
  all_goals simp [h]

@[simp] theorem memWf_poolTimeout (s : State) (cid : Nat) (h : memWf s.mem = true) :
    memWf (poolTimeout s cid).mem = true := by
  simp only [poolTimeout]
  repeat' split
  all_goals simp [h]

/-- The extent that a move fills. -/
theorem memWf_moveCopy (img : Option FlashImage) (p : PoolEnt) (dst : Nat) {t : State} (ht : memWf t.mem = true) :
    memWf (match img with
      | some i => if p.level = 2 then extLoad t i dst else extCopy t p.extent dst
      | none => extCopy t p.extent dst).mem = true := by
  repeat' split
  · exact memWf_extLoad _ _ _ ht
  · exact memWf_extCopy _ _ _ ht
  · exact memWf_extCopy _ _ _ ht

@[simp] theorem memWf_moveFinish (s : State) (hd : Nat) (p : PoolEnt) (m : PoolMove) (h : memWf s.mem = true) :
    memWf (moveFinish s hd p m).mem = true := by
  unfold moveFinish
  refine memWf_ite ?_ ?_
  · dsimp only
    split
    · exact memWf_tierEnd _ _ _ _ h
    · exact h
  · have filled := memWf_ite (p := m.dstLevel < 2)
      (memWf_moveCopy (tget? s.tiers.images hd) p m.dstExtent (memWf_poolClaim s m.dstExtent p.ctx 1 h)) h
    generalize m.cid = cid
    cases cid
    · exact filled
    · exact memWf_tierEnd _ _ _ _ filled

@[simp] theorem memWf_moveDone (s : State) (h : Nat) (wf : memWf s.mem = true) :
    memWf (moveDone s h).mem = true := by
  simp only [moveDone]
  repeat' split
  all_goals simp [wf]

@[simp] theorem poolContextReset_mem (s : State) (ctx : BitVec 16) : (poolContextReset s ctx).mem = s.mem := rfl

@[simp] theorem memWf_poolUnload (s : State) (ctx : BitVec 16) (h : memWf s.mem = true) :
    memWf (poolUnload s ctx).mem = true := by
  simp only [poolUnload, modTiers_mem]
  refine memWf_foldl _ (fun s hd hs => ?_) _ _ h
  split
  · rw [modTiers_mem]
    split <;> simp [hs]
  · exact hs

@[simp] theorem quotaCommit_mem (s : State) : (quotaCommit s).mem = s.mem := by
  unfold quotaCommit
  all_goals simp [apply_ite State.mem]

@[simp] theorem kslRun_mem (s : State) (p : Nat) : (kslRun s p).mem = s.mem := by
  unfold kslRun
  split <;> rfl

@[simp] theorem kslSend_mem (s : State) (p : Nat) (h : KslHdr) (data : List Byte) :
    (kslSend s p h data).mem = s.mem := by
  simp [kslSend]

@[simp] theorem kslNotify_mem (s : State) (p q : Nat) : (kslNotify s p q).mem = s.mem := by
  simp [kslNotify]

@[simp] theorem kslEpoch_mem (s : State) (p : Nat) : (kslEpoch s p).mem = s.mem := by
  simp [kslEpoch]

end Sys2Proof.Machine
end

section
/-! PROOF. Memory under teams: a function leaves memory alone, or keeps it canonical. -/

namespace Sys2Proof.Machine

/-- Bytes drawn for what lies outside the module change no memory. -/
theorem drawBytes_mem {l : List Nat} (x : State × List Byte) :
    (l.foldl (fun x _ => ((drawFree x.1).2, x.2 ++ leBytes 8 (drawFree x.1).1.toNat)) x).1.mem = x.1.mem :=
  List.foldlRecOn (motive := fun y : State × List Byte => y.1.mem = x.1.mem) _ _ rfl fun y hy _ _ => by simp [hy]

theorem virtBytes_mem (s : State) (ctx : BitVec 16) (va : W64) (n : Nat) :
    ∀ p ∈ virtBytes s ctx va n, p.1.mem = s.mem := by
  refine List.foldlRecOn (motive := fun acc : Option (State × Sum (List Byte) Byte) => ∀ p ∈ acc, p.1.mem = s.mem)
    _ _ (by simp) fun acc hacc a _ => ?_
  simp only
  repeat' split
  all_goals simp_all [drawBytes_mem]

theorem scheduleBytes_mem (ctx : BitVec 16) (n : Nat) (s : State) (va : W64) :
    ∀ p ∈ scheduleBytes s ctx va n, p.1.mem = s.mem := by
  induction n generalizing s va with
  | zero => simp [scheduleBytes]
  | succ n ih =>
    simp only [scheduleBytes]
    split
    · next t b e =>
      have first := virtBytes_mem _ _ _ _ _ e
      split
      · exact fun p hp => by cases hp; exact first
      · split
        · next e => exact fun p hp => by cases hp; exact (ih _ _ _ e).trans first
        · exact fun p hp => (ih _ _ p hp).trans first
    · exact virtBytes_mem _ _ _ _

@[simp] theorem memWf_teamRegister (s : State) (cid : Nat) (h : memWf s.mem = true) :
    memWf (teamRegister s cid).mem = true := by
  simp only [teamRegister]
  split
  · exact h
  split
  · exact h
  split
  · simp [h]
  split
  · exact h
  · next e => exact memWf_finishCmd _ _ _ ((congrArg memWf (virtBytes_mem _ _ _ _ _ e)).trans h)
  · next e =>
    have ht := (congrArg memWf (virtBytes_mem _ _ _ _ _ e)).trans h
    split
    · exact ht
    · next e => exact memWf_finishCmd _ _ _ ((congrArg memWf (scheduleBytes_mem _ _ _ _ _ e)).trans ht)
    · next e =>
      have hu := (congrArg memWf (scheduleBytes_mem _ _ _ _ _ e)).trans ht
      simp only at hu
      repeat' split
      all_goals simp [hu]

@[simp] theorem modRes_mem (s : State) (res : Nat) (f : Residency → Residency) : (modRes s res f).mem = s.mem := by
  unfold modRes
  split <;> rfl

@[simp] theorem memWf_reservationTake (s : State) (res sp : Nat) (h : memWf s.mem = true) :
    memWf (reservationTake s res sp).mem = true := by
  simp only [reservationTake]
  repeat' split
  all_goals simp [h]

@[simp] theorem memWf_endCands (s : State) (status : Byte) (event : BitVec 3) (f : Candidate → Bool)
    (h : memWf s.mem = true) :
    memWf (endCands s status event f).mem = true := by
  unfold endCands
  all_goals simp +contextual [memWf_foldl, h]

@[simp] theorem closeTeam_mem (s : State) (res : Nat) (r : Residency) (l : List Candidate) (byDeadline : Bool) :
    (closeTeam s res r l byDeadline).mem = s.mem := by
  simp [closeTeam]

@[simp] theorem tryClose_mem (s : State) (res : Nat) : (tryClose s res).mem = s.mem := by
  simp only [tryClose]
  repeat' split
  all_goals simp

@[simp] theorem memWf_teamStep (s : State) (cid : Nat) (h : memWf s.mem = true) :
    memWf (teamStep s cid).mem = true := by
  unfold teamStep
  repeat' split
  all_goals simp [h]

@[simp] theorem deadlineCheck_mem (s : State) (res : Nat) (t : W64) : (deadlineCheck s res t).mem = s.mem := by
  simp [deadlineCheck]

/-- The commands of a team start, one after another. -/
theorem memWf_rowsStart (l : List TeamRow) {s : State} (h : memWf s.mem = true) :
    memWf (l.foldl (fun s w => match s.cmd? w.cid with
      | some c => journal (setCmd s w.cid { c with st := .started }) w.cid 2 0
      | none => s) s).mem = true := by
  refine memWf_foldl _ (fun s w hs => ?_) _ _ h
  split
  · exact memWf_journal _ _ _ _ hs
  · exact hs

@[simp] theorem memWf_teamDispatch (s : State) (tm : Nat) (t : W64) (h : memWf s.mem = true) :
    memWf (teamDispatch s tm t).mem = true := by
  simp only [teamDispatch]
  repeat' split
  · exact h
  · exact h
  · exact h
  all_goals
    rw [mem_foldl _ fun s td => send_mem ..]
    exact memWf_rowsStart _ (by simp [h])

@[simp] theorem takeTeams_mem (n : Nat) (s : State) (td : Nat) : (takeTeams n s td).mem = s.mem := by
  induction n generalizing s with
  | zero => rfl
  | succ n ih =>
    simp only [takeTeams]
    split
    · rfl
    · rw [ih, modTdie_mem]

@[simp] theorem dispatchReceive_mem (s : State) (td : Nat) (seq : W32) : (dispatchReceive s td seq).mem = s.mem := by
  unfold dispatchReceive
  split <;> simp

@[simp] theorem teamBlockStart_mem (s : State) (sp : Nat) : (teamBlockStart s sp).mem = s.mem := by
  unfold teamBlockStart
  repeat' split
  all_goals simp [apply_ite State.mem]

theorem stageRow_mem (s : State) (sp : Nat) (j : CopyJob) : ∀ p ∈ stageRow s sp j, p.1.mem = s.mem := by
  refine List.foldlRecOn (motive := fun acc : Option (State × Option Byte) => ∀ p ∈ acc, p.1.mem = s.mem)
    _ _ (by simp) fun acc hacc a _ => ?_
  split
  · exact hacc
  · exact hacc
  · next t =>
    have piece := mem_pieceIn t sp j stageBase a
    split
    · simp
    all_goals
      next e =>
      rw [e] at piece
      simpa using (piece _ rfl).trans (hacc _ rfl)

/-- The rows of a Spur are staged one after another: memory stays. -/
theorem stageRows_mem (sp : Nat) (l : List CopyJob) (s : State) :
    ∀ r ∈ l.foldl (fun (acc : Option (State × List (Nat × Byte))) j =>
      match acc with
      | none => none
      | some (s, bad) =>
        match stageRow s sp j with
        | none => none
        | some (s, none) => some (s, bad)
        | some (s, some st) => some (s, bad ++ [(j.row.getD 0, st)])) (some (s, [])), r.1.mem = s.mem := by
  refine List.foldlRecOn (motive := fun acc : Option (State × List (Nat × Byte)) => ∀ r ∈ acc, r.1.mem = s.mem)
    _ _ (by simp) fun acc hacc j _ => ?_
  split
  · simp
  · next t bad =>
    have row := stageRow_mem t sp j
    split
    · simp
    all_goals
      next e =>
      intro r hr
      cases hr
      exact (row _ e).trans (hacc _ rfl)

@[simp] theorem stagingDone_mem (s : State) (sp : Nat) : (stagingDone s sp).mem = s.mem := by
  simp only [stagingDone]
  split
  · rfl
  split
  · rfl
  split
  · rfl
  split
  · rfl
  split
  · rfl
  · next e =>
    rw [entryNext_mem, modSpur_mem, setTeam_mem]
    exact stageRows_mem _ _ _ _ e

@[simp] theorem noticeReceive_mem (s : State) (td src tm : Nat) : (noticeReceive s td src tm).mem = s.mem := by
  simp only [noticeReceive]
  repeat' split
  all_goals simp

@[simp] theorem teamScatter_mem (s : State) (tm : Nat) : (teamScatter s tm).mem = s.mem := by
  simp only [teamScatter]
  repeat' split
  all_goals simp

/-- The pieces of a row, written out one after another. -/
theorem memWf_rowPieces (sp : Nat) (j : CopyJob) (l : List CopyPart) {s : State} (h : memWf s.mem = true) :
    memWf (l.foldl (fun s p => match pieceOut s sp j stageBase p with
      | .done s => s
      | _ => s) s).mem = true := by
  refine memWf_foldl _ (fun s p hs => ?_) _ _ h
  have piece := memWf_pieceOut s sp j stageBase p hs
  split
  · next e =>
    rw [e] at piece
    exact piece _ rfl
  · exact hs

/-- The addresses of a row are checked before it is written: memory stays. -/
theorem rowCheck_mem (s : State) (sp : Nat) (j : CopyJob) (l : List CopyPart) :
    ∀ r ∈ l.foldl (fun (acc : Option (State × Option Byte)) p =>
      match acc with
      | some (s, none) =>
        if p.st = .done then some (s, none)
        else match xlate s j.ctx p.va true with
          | .inr st => some (s, some st)
          | .inl pa =>
            if outside pa || (isMem pa && !lineIdle s (pa / 64)) then none
            else some ((targetCheck s sp j.ctx pa true).1, if (targetCheck s sp j.ctx pa true).2 then none else some 0x04)
      | x => x) (some (s, none)), r.1.mem = s.mem := by
  refine List.foldlRecOn (motive := fun acc : Option (State × Option Byte) => ∀ r ∈ acc, r.1.mem = s.mem)
    _ _ (by simp) fun acc hacc p _ => ?_
  repeat' split
  all_goals simp_all

theorem memWf_rowOut (s : State) (sp : Nat) (j : CopyJob) (h : memWf s.mem = true) :
    ∀ r ∈ rowOut s sp j, memWf r.1.mem = true := by
  have check := rowCheck_mem s sp j (j.parts.flatMap CopyPart.lines)
  simp only [rowOut]
  split
  · next e =>
    intro r hr
    cases hr
    exact memWf_rowPieces _ _ _ ((congrArg memWf (check _ e)).trans h)
  · exact fun r hr => (congrArg memWf (check r hr)).trans h

@[simp] theorem freeTeamBlock_mem (s : State) (tm : Nat) (reserve : Bool) (sp : Nat) :
    (freeTeamBlock s tm reserve sp).mem = s.mem := by
  unfold freeTeamBlock
  repeat' split
  all_goals simp

@[simp] theorem memWf_releaseCheck (s : State) (res : Nat) (h : memWf s.mem = true) :
    memWf (releaseCheck s res).mem = true := by
  unfold releaseCheck
  repeat' split
  all_goals simp [memWf_foldl, h]

/-- The blocks of a team are freed: memory stays. -/
theorem freeTeamBlocks_mem (tm : Nat) (reserve : Bool) (l : List Nat) (s : State) :
    (l.foldl (fun s sp => freeTeamBlock s tm reserve sp) s).mem = s.mem :=
  mem_foldl _ (fun _ _ => freeTeamBlock_mem ..) _ _

@[simp] theorem memWf_teamFinish (s : State) (tm : Nat) (h : memWf s.mem = true) :
    memWf (teamFinish s tm).mem = true := by
  simp only [teamFinish]
  split
  · exact h
  · split
    · exact h
    · refine memWf_releaseCheck _ _ ?_
      rw [freeTeamBlocks_mem]
      exact h

@[simp] theorem memWf_rowComplete (s : State) (tm : Nat) (h : memWf s.mem = true) :
    memWf (rowComplete s tm).mem = true := by
  have out (sp : Nat) (job : Option CopyJob) :
      ∀ r ∈ (match job with | some j => rowOut s sp j | none => some (s, none) : Option (State × Option Byte)),
        memWf r.1.mem = true := by
    split
    · exact memWf_rowOut _ _ _ h
    · simpa using h
  simp only [rowComplete]
  split
  · exact h
  split
  · exact h
  split
  · exact h
  split
  · exact memWf_teamFinish _ _ h
  split
  · exact h
  · next e =>
    have ht := out _ _ _ e
    simp only at ht
    repeat' split
    all_goals simp [ht]

@[simp] theorem memWf_endClosed (s : State) (res : Nat) (status : Byte) (event : BitVec 3) (h : memWf s.mem = true) :
    memWf (endClosed s res status event).mem = true := by
  simp only [endClosed]
  split
  · exact h
  · rw [modRes_mem]
    refine memWf_foldl _ (fun s tm hs => ?_) _ _ h
    split
    · exact memWf_foldl _ (fun s w hs => memWf_endCmd s w.cid event status hs) _ _ hs
    · exact hs

@[simp] theorem memWf_teamRelease (s : State) (cid : Nat) (h : memWf s.mem = true) :
    memWf (teamRelease s cid).mem = true := by
  simp only [teamRelease]
  repeat' split
  all_goals simp [h]
  exact memWf_releaseCheck _ _ (by simp [h])

end Sys2Proof.Machine
end

section
/-! PROOF. Memory under the queues: a function leaves memory alone, or keeps it canonical. -/

namespace Sys2Proof.Machine

@[simp] theorem memWf_queueCmd (s : State) (refused : Bool) (act : State → State)
    (hact : ∀ s, memWf s.mem = true → memWf (act s).mem = true) (h : memWf s.mem = true) :
    memWf (queueCmd s refused act).mem = true := by
  unfold queueCmd
  repeat' split
  all_goals simp [h, hact]

@[simp] theorem memWf_queueEnable (s : State) (n : Nat) (h : memWf s.mem = true) :
    memWf (queueEnable s n).mem = true := by
  unfold queueEnable
  generalize readQueue s n = q
  cases q with
  | none => exact memWf_queueCmd _ _ _ (fun _ hs => hs) h
  | some q => exact memWf_queueCmd _ _ _ (fun _ hs => hs) h

@[simp] theorem dropRows_mem (s : State) (n : BitVec 18) : (dropRows s n).mem = s.mem := rfl

@[simp] theorem memWf_haltQueue (s : State) (n : Nat) (status : Byte) (tags : Nat × Nat) (h : memWf s.mem = true) :
    memWf (haltQueue s n status tags).mem = true := by
  have ended (l : List (Nat × Cmd)) (ev : BitVec 3) {s : State} (hs : memWf s.mem = true) :
      memWf (l.foldl (fun s c => endCmd s c.1 ev status) s).mem = true :=
    memWf_foldl _ (fun s c hs => memWf_endCmd s c.1 ev status hs) _ _ hs
  simp only [haltQueue]
  repeat' split
  · exact h
  · exact h
  all_goals simp [ended, h]

@[simp] theorem memWf_queueHalt (s : State) (n : Nat) (h : memWf s.mem = true) :
    memWf (queueHalt s n).mem = true := by
  unfold queueHalt
  all_goals simp +contextual [h]

@[simp] theorem postNotice_mem (s : State) (n : Nat) : (postNotice s n).mem = s.mem := by
  unfold postNotice
  all_goals simp [apply_ite State.mem]

@[simp] theorem consumerBell_mem (s : State) (n val : Nat) : (consumerBell s n val).mem = s.mem := by
  unfold consumerBell
  split <;> simp [apply_ite State.mem]

@[simp] theorem takeBell_mem (s : State) (n : Nat) (ctx : BitVec 16) (val src : Nat) :
    (takeBell s n ctx val src).1.mem = s.mem := by
  simp only [takeBell]
  repeat' split
  all_goals simp

@[simp] theorem doorbell_mem (s : State) (q : BitVec 18) (ctx : BitVec 16) (val : W64) :
    (doorbell s q ctx val).mem = s.mem := by
  simp only [doorbell]
  repeat' split
  all_goals simp

@[simp] theorem memWf_queueResume (s : State) (n : Nat) (h : memWf s.mem = true) :
    memWf (queueResume s n).mem = true := by
  refine memWf_queueCmd _ _ _ (fun s hs => ?_) h
  simp only
  repeat' split
  all_goals simp [hs]

@[simp] theorem memWf_queueDisable (s : State) (n : Nat) (h : memWf s.mem = true) :
    memWf (queueDisable s n).mem = true := by
  unfold queueDisable
  all_goals simp +contextual [h]

@[simp] theorem queueDisableDone_mem (s : State) (n : Nat) : (queueDisableDone s n).mem = s.mem := by
  unfold queueDisableDone
  all_goals simp [apply_ite State.mem]

@[simp] theorem memWf_queueQuery (s : State) (n : Nat) (h : memWf s.mem = true) :
    memWf (queueQuery s n).mem = true := by
  unfold queueQuery
  all_goals simp +contextual [h]

@[simp] theorem memWf_fetchTorn (s : State) (n : Nat) (tags : Nat × Nat) (h : memWf s.mem = true) :
    memWf (fetchTorn s n tags).mem = true := by
  unfold fetchTorn
  repeat' split
  all_goals simp [h]

@[simp] theorem ringRead_mem (s : State) (q : QueueSt) (i : Nat) : (ringRead s q i).1.mem = s.mem := by
  simp only [ringRead]
  split <;> simp

@[simp] theorem ringAsk_mem (s : State) (n : Nat) (q : QueueSt) (i : Nat) : (ringAsk s n q i).mem = s.mem := by
  simp [ringAsk]

@[simp] theorem memWf_fetchGo (s : State) (n : Nat) (b : List Byte) (h : memWf s.mem = true) :
    memWf (fetchGo s n b).mem = true := by
  simp only [fetchGo]
  split
  · simp [h]
  · simp [h]
  · split
    · simp [h]
    · split
      · simp [h]
      · have hr : memWf (ringRead s (s.queue n) 1).1.mem = true := by simp [h]
        repeat' split
        all_goals next e => simp_all

@[simp] theorem memWf_fetchStart (s : State) (n : Nat) (h : memWf s.mem = true) :
    memWf (fetchStart s n).mem = true := by
  have hr : memWf (ringRead s (s.queue n) 0).1.mem = true := by simp [h]
  simp only [fetchStart]
  repeat' split
  all_goals simp_all

@[simp] theorem memWf_ringData (s : State) (n : Nat) (b : List Byte) (bad : Bool) (h : memWf s.mem = true) :
    memWf (ringData s n b bad).mem = true := by
  simp only [ringData]
  repeat' split
  all_goals simp [h]

@[simp] theorem memWf_queueFetch (s : State) (n : Nat) (h : memWf s.mem = true) :
    memWf (queueFetch s n).mem = true := by
  simp only [queueFetch]
  split <;> simp [h]

@[simp] theorem memWf_tornReread (s : State) (n : Nat) (h : memWf s.mem = true) :
    memWf (tornReread s n).mem = true := by
  simp only [tornReread]
  split <;> simp [h]

@[simp] theorem memWf_commandAccept (s : State) (n : Nat) (t : W64) (h : memWf s.mem = true) :
    memWf (commandAccept s n t).mem = true := by
  simp only [commandAccept]
  repeat' split
  all_goals simp [h]

@[simp] theorem memWf_commandHandoff (s : State) (n : Nat) (t : W64) (h : memWf s.mem = true) :
    memWf (commandHandoff s n t).mem = true := by
  simp only [commandHandoff]
  repeat' split
  all_goals simp [h]

@[simp] theorem memWf_nopCommand (s : State) (cid : Nat) (h : memWf s.mem = true) :
    memWf (nopCommand s cid).mem = true := by
  unfold nopCommand
  split <;> simp [h]

@[simp] theorem memWf_postBytes (s : State) (ctx : BitVec 16) (pa : Nat) (b : List Byte) (h : memWf s.mem = true) :
    memWf (postBytes s ctx pa b).mem = true := by
  simp only [postBytes]
  repeat' split
  all_goals simp [h]

@[simp] theorem memWf_completionPost (s : State) (cid : Nat) (t : W64) (h : memWf s.mem = true) :
    memWf (completionPost s cid t).mem = true := by
  simp only [completionPost]
  repeat' split
  all_goals simp [h]

@[simp] theorem memWf_journalAck (s : State) (n : Nat) (h : memWf s.mem = true) :
    memWf (journalAck s n).mem = true := by
  simp only [journalAck]
  split <;> simp [h]

@[simp] theorem notifySend_mem (s : State) (n : Nat) : (notifySend s n).mem = s.mem := by
  unfold notifySend
  all_goals simp [apply_ite State.mem]

@[simp] theorem memWf_eventPost (s : State) (n : Nat) (t : W64) (h : memWf s.mem = true) :
    memWf (eventPost s n t).mem = true := by
  simp only [eventPost]
  repeat' split
  all_goals simp [h]

@[simp] theorem notifyWindow_mem (s : State) (n : Nat) : (notifyWindow s n).mem = s.mem := by
  unfold notifyWindow
  all_goals simp [apply_ite State.mem]

@[simp] theorem memWf_copyStart (s : State) (cid : Nat) (h : memWf s.mem = true) :
    memWf (copyStart s cid).mem = true := by
  simp only [copyStart]
  repeat' split
  all_goals simp [h]

@[simp] theorem memWf_copyLand (s : State) (e cid : Nat) (c : Cmd) (ofs : Nat) (b : List Byte) (poison : Bool)
    (h : memWf s.mem = true) : memWf (copyLand s e cid c ofs b poison).1.mem = true := by
  simp only [copyLand]
  repeat' split
  all_goals simp [h]

/-- A chunk of a copy lands. -/
theorem memWf_landed {t : State} (e cid : Nat) (c : Cmd) (ofs n : Nat) (b : List Byte) (poison : Bool)
    (ht : memWf t.mem = true) : ∀ p ∈ (match copyLand t e cid c ofs b poison with
      | (s, none) => some (s, .inl n)
      | (s, some st) => some (s, .inr st) : Option (State × Sum Nat Byte)), memWf p.1.mem = true := by
  have land := memWf_copyLand t e cid c ofs b poison ht
  split
  all_goals
    next e =>
    rw [e] at land
    intro p hp
    cases hp
    exact land

theorem memWf_copyStep (s : State) (e cid : Nat) (c : Cmd) (ofs : Nat) (h : memWf s.mem = true) :
    ∀ p ∈ copyStep s e cid c ofs, memWf p.1.mem = true := by
  simp only [copyStep]
  split
  · simpa using h
  · simpa using h
  · split
    · simp
    split
    · simpa using h
    split
    · split
      · simp [h]
      · exact memWf_landed _ _ _ _ _ _ _ (by split <;> simp [h])
    · split
      · simpa using h
      · simpa using h
      · split
        · simp [h]
        · exact memWf_landed _ _ _ _ _ _ _ (by simp [h])
      · exact memWf_landed _ _ _ _ _ _ _ h

@[simp] theorem memWf_copyMove (k : Nat) (s : State) (e cid : Nat) (h : memWf s.mem = true) :
    memWf (copyMove k s e cid).mem = true := by
  induction k generalizing s with
  | zero => exact h
  | succ k ih =>
    simp only [copyMove]
    split
    · exact h
    split
    · exact h
    split
    · exact h
    · next x => exact ih _ ((congrArg memWf (modCmd_mem ..)).trans (memWf_copyStep _ _ _ _ _ h _ x))
    · next x => rw [stopCmd_mem]; exact memWf_copyStep _ _ _ _ _ h _ x

@[simp] theorem memWf_copyArrive (s : State) (cid ofs : Nat) (b : List Byte) (bad : Bool) (h : memWf s.mem = true) :
    memWf (copyArrive s cid ofs b bad).mem = true := by
  simp only [copyArrive]
  split
  · exact h
  · next c _ =>
    generalize ht : (if bad then modCmd s cid fun c => { c with poisoned := true } else s) = t
    have hm : memWf t.mem = true := by
      rw [← ht]
      split <;> simp [h]
    have land := memWf_copyLand t ((copyEngine t c).getD 0) cid c ofs b bad hm
    split
    · next e => rw [e] at land; exact land
    · next e => rw [e] at land; rw [stopCmd_mem]; exact land

@[simp] theorem memWf_copyEngineComplete (s : State) (e : Nat) (h : memWf s.mem = true) :
    memWf (copyEngineComplete s e).mem = true := by
  simp only [copyEngineComplete]
  repeat' split
  all_goals simp [h]

end Sys2Proof.Machine
end

section
/-! PROOF. Memory under the KSL ports: a function leaves memory alone, or keeps it canonical. -/

namespace Sys2Proof.Machine

@[simp] theorem memWf_laneDone (s : State) (sp op lane : Nat) (b : List Byte) (bad : Bool) (h : memWf s.mem = true) :
    memWf (laneDone s sp op lane b bad).mem = true := by
  simp only [laneDone]
  repeat' split
  all_goals simp [h]

@[simp] theorem copyPieceDone_mem (s : State) (sp job : Nat) (va : W64) (b : List Byte) (bad : Bool) :
    (copyPieceDone s sp job va b bad).mem = s.mem := rfl

@[simp] theorem memWf_outDone (s : State) (r : OutReq) (b : List Byte) (bad : Bool) (h : memWf s.mem = true) :
    memWf (outDone s r b bad).mem = true := by
  unfold outDone
  repeat' split
  all_goals simp [h]

@[simp] theorem memWf_outSend (s : State) (r : OutReq) (h : memWf s.mem = true) :
    memWf (outSend s r).mem = true := by
  simp only [outSend]
  repeat' split
  all_goals simp [h]

@[simp] theorem memWf_threadOut (s : State) (sp id : Nat) (h : memWf s.mem = true) :
    memWf (threadOut s sp id).mem = true := by
  have sent (l : List MemLane) (o : MemOp) {s : State} (hs : memWf s.mem = true) :
      memWf (l.foldl (fun s l => outSend s
        ⟨!o.loads, l.pa, o.size, o.ctx, if o.loads then [] else l.bytes o.size, .lane sp o.id l.lane⟩) s).mem = true :=
    memWf_foldl _ (fun s l hs => memWf_outSend _ _ hs) _ _ hs
  simp only [threadOut]
  split
  · exact h
  split
  · exact h
  split
  · split
    · refine memWf_teamSettle _ _ ?_
      rw [fenceCheck_mem, setOp_mem]
      exact sent _ _ h
    · exact sent _ _ h
  · exact sent _ _ h

@[simp] theorem memWf_copyOut (s : State) (sp job : Nat) (h : memWf s.mem = true) :
    memWf (copyOut s sp job).mem = true := by
  unfold copyOut
  repeat' split
  all_goals simp +contextual [memWf_foldl, apply_ite State.mem, apply_ite memWf, ite_self, h]

@[simp] theorem memWf_hartOutside (s : State) (h : Nat) (write : Bool) (pa : Nat) (ctx : BitVec 16) (data : W64)
    (wf : memWf s.mem = true) :
    memWf (hartOutside s h write pa ctx data).mem = true := by
  simp only [hartOutside]
  repeat' split
  all_goals simp [wf]

@[simp] theorem memWf_outboundRequest (s : State) (x1 : OutSrc) (h : memWf s.mem = true) :
    memWf (outboundRequest s x1).mem = true := by
  unfold outboundRequest
  repeat' split
  all_goals simp [h]

@[simp] theorem memWf_hostReset (s : State) (p : Nat) (h : memWf s.mem = true) : memWf (hostReset s p).mem = true := by
  simp only [hostReset]
  refine memWf_foldl _ (fun s q hs => memWf_haltQueue s q.1 0x02 (0, 0) hs) _ _
    (memWf_foldl _ (fun s r hs => memWf_outDone s r [] true hs) _ _ ?_)
  rw [modPort_mem, mem_foldl _ fun s cid => stopCmd_mem ..]
  exact h

@[simp] theorem memWf_portLost (s : State) (p : Nat) (h : memWf s.mem = true) :
    memWf (portLost s p).mem = true := by
  unfold portLost
  split <;> simp [h]

@[simp] theorem memWf_portTimeout (s : State) (p : Nat) (h : memWf s.mem = true) :
    memWf (portTimeout s p).mem = true := by
  unfold portTimeout
  split <;> simp [h]

@[simp] theorem setPortState_mem (s : State) (p n : Nat) : (setPortState s p n).mem = s.mem := rfl

@[simp] theorem trainStart_mem (s : State) (p : Nat) : (trainStart s p).mem = s.mem := by
  unfold trainStart
  split <;> rfl

@[simp] theorem trainEnd_mem (s : State) (p st : Nat) : (trainEnd s p st).mem = s.mem := rfl

@[simp] theorem memWf_kslEnable (s : State) (p : Nat) (enable : Bool) (h : memWf s.mem = true) :
    memWf (kslEnable s p enable).mem = true := by
  unfold kslEnable
  split <;> simp [h]

@[simp] theorem memWf_takeEpoch (s : State) (p v : Nat) (h : memWf s.mem = true) :
    memWf (takeEpoch s p v).mem = true := by
  unfold takeEpoch
  split <;> simp [h]

@[simp] theorem memWf_portComesUp (s : State) (p epoch : Nat) (h : memWf s.mem = true) :
    memWf (portComesUp s p epoch).mem = true := by
  simp [portComesUp, memWf_foldl, h]

@[simp] theorem lanesDone_mem (s : State) (p : Nat) (failed : BitVec 16) : (lanesDone s p failed).mem = s.mem := by
  unfold lanesDone
  all_goals simp [apply_ite State.mem]

@[simp] theorem memWf_trainStep (s : State) (p : Nat) (r : TrainEnd) (h : memWf s.mem = true) :
    memWf (trainStep s p r).mem = true := by
  unfold trainStep
  refine memWf_ite h ?_
  generalize (s.port p).step = k
  match k, r with
  | 1, .done => exact h
  | 1, .noDetect => exact (congrArg memWf (trainStart_mem s p)).trans h
  | 2, .measured c l o => 
    refine memWf_ite ?_ ?_
    · simpa only [trainEnd_mem, setFldAt_mem] using h
    · simpa only [modPort_mem, setFldAt_mem] using h
  | 3, .lanes _ | 3, .done | 4, .lanes _ | 4, .done =>
    exact (congrArg memWf (lanesDone_mem s p _)).trans h
  | 5, .linked _ _ => exact memWf_ite (by rwa [trainEnd_mem]) (memWf_portComesUp _ _ _ h)
  | 0, r | k + 6, r => cases r <;> exact h
  | 1, .lanes _ | 1, .measured .. | 1, .linked .. => exact h
  | 2, .lanes _ | 2, .done | 2, .noDetect | 2, .linked .. => exact h
  | 3, .noDetect | 3, .measured .. | 3, .linked .. => exact h
  | 4, .noDetect | 4, .measured .. | 4, .linked .. => exact h
  | 5, .noDetect | 5, .measured .. | 5, .done | 5, .lanes _ => exact h

@[simp] theorem trainTimeout_mem (s : State) (p : Nat) : (trainTimeout s p).mem = s.mem := by
  unfold trainTimeout
  split <;> simp

@[simp] theorem kslRetrain_mem (s : State) (p : Nat) : (kslRetrain s p).mem = s.mem := by
  unfold kslRetrain
  split <;> simp

@[simp] theorem retrainDone_mem (s : State) (p : Nat) (ok : Bool) (ack : Nat) :
    (retrainDone s p ok ack).mem = s.mem := by
  unfold retrainDone
  split <;> simp [apply_ite State.mem]

@[simp] theorem cableMate_mem (s : State) (p : Nat) : (cableMate s p).mem = s.mem := by
  unfold cableMate
  all_goals simp [apply_ite State.mem]

@[simp] theorem memWf_cableUnmate (s : State) (p : Nat) (h : memWf s.mem = true) :
    memWf (cableUnmate s p).mem = true := by
  simp [cableUnmate, h]

@[simp] theorem cblOver_mem (s : State) (p : Nat) : (cblOver s p).mem = s.mem := by
  unfold cblOver
  all_goals simp [apply_ite State.mem]

@[simp] theorem nakReceive_mem (s : State) (p ack : Nat) : (nakReceive s p ack).mem = s.mem := by
  unfold nakReceive
  split <;> simp [apply_ite State.mem]

@[simp] theorem flitReceive_mem (s : State) (p : Nat) (flit : BitVec 2048) : (flitReceive s p flit).mem = s.mem := by
  unfold flitReceive
  split <;> simp [mem_foldl, apply_ite State.mem]

@[simp] theorem inboxDrop_mem (s : State) (p : Nat) (h : KslHdr) (b : List Byte) :
    (inboxDrop s p h b).mem = s.mem := rfl

@[simp] theorem kslCpl_mem (s : State) (p : Nat) (h : KslHdr) (status : Nat) (b : List Byte) :
    (kslCpl s p h status b).mem = s.mem := by
  simp [kslCpl]

@[simp] theorem countMalformed_mem (s : State) (p : Nat) : (countMalformed s p).mem = s.mem := by
  simp [countMalformed]

@[simp] theorem kslReadAt_mem (s : State) (h : KslHdr) (pa n : Nat) : (kslReadAt s h pa n).1.mem = s.mem := by
  have check (l : List Nat) : (l.foldl (fun (acc : State × Bool) ln =>
      ((targetCheckBy acc.1 0 0 h.ctx (ln * 64) false).1, acc.2 && (targetCheckBy acc.1 0 0 h.ctx (ln * 64) false).2))
        (s, true)).1.mem = s.mem :=
    List.foldlRecOn (motive := fun acc : State × Bool => acc.1.mem = s.mem) _ _ rfl fun acc hacc ln _ => by simp [hacc]
  have touched (l : List Nat) (s : State) : (l.foldl touch s).mem = s.mem := mem_foldl _ touch_mem _ _
  simp only [kslReadAt]
  repeat' split
  all_goals simp only [touched, check, targetCheckBy_mem]

@[simp] theorem kslRd_mem (s : State) (p : Nat) (h : KslHdr) : (kslRd s p h).mem = s.mem := by
  simp only [kslRd]
  repeat' split
  all_goals simp

@[simp] theorem kslTaken_mem (s : State) (p : Nat) (h : KslHdr) (status : Byte) :
    (kslTaken s p h status).mem = s.mem := rfl

@[simp] theorem memWf_kslWriteAt (s : State) (p : Nat) (h : KslHdr) (pa : Nat) (b : List Byte)
    (hs : memWf s.mem = true) :
    memWf (kslWriteAt s p h pa b).1.mem = true := by
  have put : memWf ((lineCuts pa b).foldl (fun (acc : State × Byte) x =>
      let k := targetCheckBy acc.1 0 0 h.ctx x.1 true
      if k.2 then (cohPut k.1 x.1 x.2 false, acc.2) else (k.1, 0x04)) (s, 0)).1.mem = true := by
    refine List.foldlRecOn (motive := fun acc : State × Byte => memWf acc.1.mem = true) _ _ hs fun acc hacc x _ => ?_
    simp only
    split <;> simp [hacc]
  simp only [kslWriteAt]
  repeat' split
  · exact put
  · exact put
  all_goals simp [hs]

@[simp] theorem memWf_kslWr (s : State) (p : Nat) (h : KslHdr) (data : List Byte) (wf : memWf s.mem = true) :
    memWf (kslWr s p h data).mem = true := by
  simp only [kslWr]
  repeat' split
  all_goals simp [wf]

@[simp] theorem kslDb_mem (s : State) (p : Nat) (h : KslHdr) (val : W64) : (kslDb s p h val).mem = s.mem := by
  unfold kslDb
  split <;> simp [apply_ite State.mem]

@[simp] theorem inboundPerformed_mem (s : State) (p tag : Nat) : (inboundPerformed s p tag).mem = s.mem := by
  unfold inboundPerformed
  repeat' split
  all_goals simp

@[simp] theorem memWf_kslCplIn (s : State) (p : Nat) (h : KslHdr) (data : List Byte) (wf : memWf s.mem = true) :
    memWf (kslCplIn s p h data).mem = true := by
  simp only [kslCplIn]
  repeat' split
  all_goals simp [wf]

@[simp] theorem memWf_kslWackIn (s : State) (p : Nat) (h : KslHdr) (wf : memWf s.mem = true) :
    memWf (kslWackIn s p h).mem = true := by
  simp only [kslWackIn]
  repeat' split
  all_goals simp [wf]

@[simp] theorem memWf_takeMsg (s : State) (p : Nat) (want : KslHdr → Bool) (act : State → State)
    (hact : ∀ s, memWf s.mem = true → memWf (act s).mem = true) (h : memWf s.mem = true) :
    memWf (takeMsg s p want act).mem = true := by
  unfold takeMsg
  simp only
  repeat' split
  all_goals simp [h, hact]

@[simp] theorem memWf_kslMsgEpoch (s : State) (p v : Nat) (h : memWf s.mem = true) :
    memWf (kslMsgEpoch s p v).mem = true := by
  unfold kslMsgEpoch
  all_goals simp +contextual [h]

@[simp] theorem memWf_kslMsgNotify (s : State) (p : Nat) (q : BitVec 18) (h : memWf s.mem = true) :
    memWf (kslMsgNotify s p q).mem = true := by
  unfold kslMsgNotify
  all_goals simp [apply_ite State.mem, h]

end Sys2Proof.Machine
end

section
/-! PROOF. Memory under the fabric and its transport: a function leaves memory alone, or keeps it canonical. -/

namespace Sys2Proof.Machine

/-- A read by an engine changes no memory. -/
theorem engRead_mem (s : State) (die unit : Nat) (ctx : BitVec 16) (retired : Bool) (va : W64) (n : Nat) :
    ∀ p ∈ engRead s die unit ctx retired va n, p.1.mem = s.mem := by
  refine List.foldlRecOn (motive := fun acc : Option (State × Sum (List Byte) Byte) => ∀ p ∈ acc, p.1.mem = s.mem)
    _ _ (by simp) fun acc hacc a _ => ?_
  simp only
  repeat' split
  all_goals simp_all [drawBytes_mem]

/-- A write by an engine keeps memory canonical. -/
theorem memWf_engWrite (s : State) (die unit cid : Nat) (ctx : BitVec 16) (retired : Bool) (va : W64) (b : List Byte)
    (h : memWf s.mem = true) : ∀ p ∈ engWrite s die unit cid ctx retired va b, memWf p.1.mem = true := by
  simp only [engWrite]
  split
  · simp
  · intro p hp
    cases hp
    refine List.foldlRecOn (motive := fun acc : State × Option Byte => memWf acc.1.mem = true) _ _ h fun acc hacc p _ => ?_
    repeat' split
    all_goals simp_all

@[simp] theorem remapFlows_mem (old s : State) : (remapFlows old s).mem = s.mem := by
  refine mem_foldl _ (fun s e => ?_) _ _
  simp only
  repeat' split
  · rfl
  · rw [kftPump_mem, bumpEventAt_mem]
    exact mem_foldl _ (fun s k => kftPut_mem ..) _ _
  · rfl

@[simp] theorem fabEnable_mem (s : State) (p : Nat) (b enable : Bool) : (fabEnable s p b enable).mem = s.mem := by
  unfold fabEnable
  split <;> simp [apply_ite State.mem]

@[simp] theorem fabReady_mem (s : State) : (fabReady s).mem = s.mem := by
  unfold fabReady
  split <;> simp

@[simp] theorem fabLink_mem (s : State) (lp : Nat) (up : Bool) : (fabLink s lp up).mem = s.mem := by
  unfold fabLink
  repeat' split
  all_goals simp

@[simp] theorem fabPause_mem (s : State) (p : Nat) : (fabPause s p).mem = s.mem := by
  simp [fabPause]

@[simp] theorem fabArp_mem (s : State) (lp : Nat) (addr : BitVec 128) : (fabArp s lp addr).mem = s.mem := by
  unfold fabArp
  repeat' split
  all_goals rfl

@[simp] theorem fabPresent_mem (s : State) (p : Nat) : (fabPresent s p).mem = s.mem := by
  unfold fabPresent
  all_goals simp [apply_ite State.mem]

@[simp] theorem memWf_readEnd (s : State) (id : Nat) (status : Byte) (h : memWf s.mem = true) :
    memWf (readEnd s id status).mem = true := by
  unfold readEnd
  repeat' split
  all_goals simp [h]

@[simp] theorem collMark_mem (s : State) (cid : Nat) (status : Byte) : (collMark s cid status).mem = s.mem := rfl

@[simp] theorem fabCondition_mem (s : State) (cid : Nat) (status : Byte) : (fabCondition s cid status).mem = s.mem := by
  unfold fabCondition
  repeat' split
  all_goals simp

@[simp] theorem memWf_packetDone (s : State) (k : KftPkt) (status : Byte) (h : memWf s.mem = true) :
    memWf (packetDone s k status).mem = true := by
  unfold packetDone
  repeat' split
  all_goals simp [h]

@[simp] theorem memWf_packetLost (s : State) (k : KftPkt) (status : Byte) (h : memWf s.mem = true) :
    memWf (packetLost s k status).mem = true := by
  unfold packetLost
  split <;> simp [h]

@[simp] theorem cmdOut_mem (s : State) (cid : Nat) : (cmdOut s cid).mem = s.mem := by
  simp [cmdOut]

@[simp] theorem fabMove_mem (n : Nat) (s : State) (cid : Nat) : (fabMove n s cid).mem = s.mem := by
  induction n generalizing s with
  | zero => rfl
  | succ n ih =>
    simp only [fabMove]
    repeat' split
    all_goals try exact rfl
    · exact stopCmd_mem ..
    · next e => rw [stopCmd_mem]; exact engRead_mem _ _ _ _ _ _ _ _ e
    · next e => rw [ih, kftSend_mem, modCmd_mem, cmdOut_mem]; exact engRead_mem _ _ _ _ _ _ _ _ e

@[simp] theorem fabSignal_mem (s : State) (cid : Nat) : (fabSignal s cid).mem = s.mem := by
  unfold fabSignal
  split <;> simp [apply_ite State.mem]

@[simp] theorem fabAsk_mem (s : State) (cid : Nat) (c : Cmd) : (fabAsk s cid c).mem = s.mem := by
  unfold fabAsk
  split <;> simp [apply_ite State.mem]

@[simp] theorem fabGo_mem (s : State) (cid : Nat) : (fabGo s cid).mem = s.mem := by
  unfold fabGo
  repeat' split
  all_goals simp

@[simp] theorem memWf_fabStart (s : State) (cid kind : Nat) (h : memWf s.mem = true) :
    memWf (fabStart s cid kind).mem = true := by
  unfold fabStart
  repeat' split
  all_goals simp [h]

@[simp] theorem timedFab_mem (s : State) (cid : Nat) (t : W64) : (timedFab s cid t).mem = s.mem := by
  simp only [timedFab]
  repeat' split
  all_goals simp

@[simp] theorem memWf_fabComplete (s : State) (cid : Nat) (h : memWf s.mem = true) :
    memWf (fabComplete s cid).mem = true := by
  simp only [fabComplete]
  repeat' split
  all_goals simp [h]

@[simp] theorem memWf_peerCmd (s : State) (result : Nat) (act : State → State)
    (hact : ∀ s, memWf s.mem = true → memWf (act s).mem = true) (h : memWf s.mem = true) :
    memWf (peerCmd s result act).mem = true := by
  unfold peerCmd
  simp only
  repeat' split
  all_goals simp [h, hact]

@[simp] theorem memWf_peerLoad (s : State) (p : Nat) (h : memWf s.mem = true) : memWf (peerLoad s p).mem = true := by
  simp only [peerLoad]
  split
  · exact memWf_peerCmd _ _ _ (fun _ hs => hs) h
  · refine memWf_peerCmd _ _ _ (fun s hs => ?_) h
    split
    all_goals simp [hs]

/-- Packets and reads of a peer that are lost, one after another. -/
theorem memWf_packetsLost (l : List KftPkt) (st : Byte) {s : State} (hs : memWf s.mem = true) :
    memWf (l.foldl (fun s k => packetLost s k st) s).mem = true :=
  memWf_foldl _ (fun s k hs => by simp [hs]) _ _ hs

theorem memWf_readsEnd (l : List (Nat × KftRead)) (st : Byte) {s : State} (hs : memWf s.mem = true) :
    memWf (l.foldl (fun s r => readEnd s r.1 st) s).mem = true :=
  memWf_foldl _ (fun s r hs => by simp [hs]) _ _ hs

@[simp] theorem memWf_peerUnload (s : State) (p : Nat) (h : memWf s.mem = true) :
    memWf (peerUnload s p).mem = true := by
  refine memWf_peerCmd _ _ _ (fun s hs => ?_) h
  refine memWf_foldl _ (fun s cid hs => memWf_endCmd s cid 5 0x0F hs) _ _ (memWf_readsEnd _ _ (memWf_packetsLost _ _ ?_))
  rw [modFab_mem, mem_foldl _ fun s cid => stopCmd_mem ..]
  exact hs

@[simp] theorem kftRelay_mem (s : State) (h : KftHdr) (b : List Byte) : (kftRelay s h b).mem = s.mem := by
  unfold kftRelay
  split <;> simp [apply_ite State.mem]

theorem kftFrom_mem {s t : State} {h : KftHdr} {b : List Byte} {session : Bool} (e : kftFrom s h b session = .inl t) :
    t.mem = s.mem := by
  simp only [kftFrom] at e
  repeat' split at e
  all_goals simp_all
  all_goals simp [← e]

@[simp] theorem kftAckSend_mem (s : State) (p f : Nat) (refused : Option (W32 × Byte)) :
    (kftAckSend s p f refused).mem = s.mem := by
  unfold kftAckSend
  split <;> rfl

@[simp] theorem rxCount_mem (s : State) (p f : Nat) (ce : Bool) : (rxCount s p f ce).mem = s.mem := by
  unfold rxCount
  all_goals simp [apply_ite State.mem]

theorem memWf_kftData (s : State) (h : KftHdr) (b : List Byte) (op : Nat) (act : State → Nat → Option (State × Byte))
    (hact : ∀ p, ∀ x ∈ act s p, memWf x.1.mem = true) (hs : memWf s.mem = true) :
    memWf (kftData s h b op act).mem = true := by
  simp only [kftData]
  repeat' split
  · exact hs
  · next e => rw [kftFrom_mem e]; exact hs
  · exact hs
  · simp [hs]
  · exact hs
  · next e => simpa using hact _ _ e

@[simp] theorem kftPerformed_mem (s : State) (p f : Nat) (psn : W32) : (kftPerformed s p f psn).mem = s.mem := by
  unfold kftPerformed
  repeat' split
  all_goals simp

@[simp] theorem kftAckTimer_mem (s : State) (p f : Nat) : (kftAckTimer s p f).mem = s.mem := by
  unfold kftAckTimer
  split <;> simp

theorem inboundCheck_mem (s : State) (p die pa n : Nat) (write : Bool) :
    ∀ x ∈ inboundCheck s p die pa n write, x.1.mem = s.mem := by
  simp only [inboundCheck]
  repeat' split
  · simp
  · simp
  · simp
  all_goals
    simp only [Option.mem_def, Option.some.injEq, forall_eq']
    exact List.foldlRecOn (motive := fun acc : State × Byte => acc.1.mem = s.mem) _ _ rfl fun acc hacc i _ => by simp [hacc]

@[simp] theorem memWf_kftWrite (s : State) (h : KftHdr) (b : List Byte) (wf : memWf s.mem = true) :
    memWf (kftWrite s h b).mem = true := by
  simp only [kftWrite]
  split
  · exact wf
  · refine memWf_kftData _ _ _ _ _ (fun p => ?_) wf
    split
    · simp
    · next t st e =>
      have ht : t.mem = s.mem := inboundCheck_mem _ _ _ _ _ _ _ e
      repeat' split
      all_goals simp [ht, wf]

@[simp] theorem memWf_kftReadReq (s : State) (h : KftHdr) (len : Nat) (wf : memWf s.mem = true) :
    memWf (kftReadReq s h len).mem = true := by
  simp only [kftReadReq]
  refine memWf_kftData _ _ _ _ _ (fun p => ?_) wf
  split
  · simp
  · next t st e =>
    have ht : t.mem = s.mem := inboundCheck_mem _ _ _ _ _ _ _ e
    repeat' split
    all_goals simp [mem_foldl, ht, wf]

@[simp] theorem memWf_kftReadRsp (s : State) (h : KftHdr) (b : List Byte) (wf : memWf s.mem = true) :
    memWf (kftReadRsp s h b).mem = true := by
  simp only [kftReadRsp]
  split
  · exact wf
  · refine memWf_kftData _ _ _ _ _ (fun p => ?_) wf
    split
    · simp [wf]
    split
    · simp [wf]
    split
    · simp [wf]
    · rintro x hx
      split at hx
      · cases hx
      · next t _ e =>
        have ht : memWf t.mem = true := by
          repeat' split at e
          · cases e; exact wf
          · cases e; exact wf
          · exact memWf_engWrite _ _ _ _ _ _ _ _ wf _ e
          · cases e; exact wf
        cases hx
        repeat' split
        all_goals simp [ht]

@[simp] theorem kftSession_mem (s : State) (h : KftHdr) : (kftSession s h).mem = s.mem := by
  simp only [kftSession]
  repeat' split
  · rfl
  · next e => exact kftFrom_mem e
  · rfl

@[simp] theorem memWf_flowAbandon (s : State) (p f : Nat) (h : memWf s.mem = true) :
    memWf (flowAbandon s p f).mem = true := by
  simp only [flowAbandon]
  refine (congrArg memWf (mem_foldl _ (fun s c => ?_) _ _)).trans
    (memWf_readsEnd _ _ (memWf_packetsLost _ _ (by simpa using h)))
  split <;> rfl

@[simp] theorem memWf_kftAbandon (s : State) (p f : Nat) (h : memWf s.mem = true) :
    memWf (kftAbandon s p f).mem = true := by
  simp only [kftAbandon]
  split <;> simp [h]

@[simp] theorem memWf_kftResend (s : State) (p f : Nat) (which : KftSent → Bool) (h : memWf s.mem = true) :
    memWf (kftResend s p f which).mem = true := by
  unfold kftResend
  repeat' split
  all_goals simp +contextual [memWf_foldl, apply_ite State.mem, apply_ite memWf, ite_self, h]

@[simp] theorem memWf_kftRto (s : State) (p f : Nat) (psn : W32) (h : memWf s.mem = true) :
    memWf (kftRto s p f psn).mem = true := by
  unfold kftRto
  split <;> simp [h]

@[simp] theorem memWf_kftAck (s : State) (h : KftHdr) (wf : memWf s.mem = true) : memWf (kftAck s h).mem = true := by
  unfold kftAck
  refine memWf_ite wf ?_
  cases e : kftFrom s h [] true with
  | inl t => exact (congrArg memWf (kftFrom_mem e)).trans wf
  | inr p =>
    refine memWf_foldl _ (fun s cid hs => by simpa using hs) _ _ ?_
    rw [kftPump_mem]
    refine memWf_ite (memWf_kftResend _ _ _ _ ?_) ?_
    · refine memWf_foldl _ (fun s k hs => memWf_packetDone _ _ _ hs) _ _ ?_
      rw [modTx_mem]
      exact memWf_ite (by simpa using wf) wf
    · refine memWf_foldl _ (fun s k hs => memWf_packetDone _ _ _ hs) _ _ ?_
      rw [modTx_mem]
      exact memWf_ite (by simpa using wf) wf

end Sys2Proof.Machine
end

section
/-! PROOF. Memory under collectives and launches: a function leaves memory alone, or keeps it canonical. -/

namespace Sys2Proof.Machine

@[simp] theorem memWf_collSetCmd (s : State) (cid : Nat) (h : memWf s.mem = true) :
    memWf (collSetCmd s cid).mem = true := by
  simp only [collSetCmd]
  split
  · exact h
  · split
    · simp [h]
    · split
      · exact h
      all_goals
        next e =>
        have hr := engRead_mem _ _ _ _ _ _ _ _ e
        simp only at hr
        repeat' split
        all_goals simp [hr, h]

@[simp] theorem memWf_collReleaseCheck (s : State) (n : Nat) (h : memWf s.mem = true) :
    memWf (collReleaseCheck s n).mem = true := by
  unfold collReleaseCheck
  repeat' split
  all_goals simp [h]

@[simp] theorem memWf_collRelease (s : State) (cid : Nat) (h : memWf s.mem = true) :
    memWf (collRelease s cid).mem = true := by
  simp only [collRelease]
  repeat' split
  all_goals simp [h]

theorem contribution_mem (s : State) (c : Cmd) (k : CollCmd) (j : Nat) :
    ∀ p ∈ contribution s c k j, p.1.mem = s.mem := by
  intro p hp
  obtain ⟨r, hr, rfl⟩ := Option.mem_map.mp hp
  exact engRead_mem _ _ _ _ _ _ _ r hr

@[simp] theorem collSettle_mem (s : State) (n key die : Nat) : (collSettle s n key die).mem = s.mem := by
  unfold collSettle
  repeat' split
  all_goals simp

@[simp] theorem collPacket_mem (s : State) (cid n : Nat) (e : CollSet) (j : Nat) (k : KftPkt) :
    (collPacket s cid n e j k).mem = s.mem := by
  unfold collPacket
  all_goals simp [apply_ite State.mem]

theorem collGather_mem (s : State) (c : Cmd) (k : CollCmd) (l : List Nat) :
    ∀ p ∈ collGather s c k l, p.1.mem = s.mem := by
  induction l with
  | nil => simp [collGather]
  | cons j l ih =>
    simp only [collGather]
    split
    · simp
    · next e => exact fun p hp => by cases hp; exact ih _ e
    · next e =>
      have rest := ih _ e
      split
      · simp
      all_goals
        next e =>
        intro p hp
        cases hp
        exact (contribution_mem _ _ _ _ _ e).trans rest

/-- Pieces of one step sent to one member. -/
theorem collPackets_mem (cid n j : Nat) (e : CollSet) (pkt : List Byte × Nat → KftPkt) (l : List (List Byte × Nat))
    (s : State) :
    (l.foldl (fun s x => collPacket s cid n e j (pkt x)) s).mem = s.mem :=
  mem_foldl _ (fun _ _ => collPacket_mem ..) _ _

@[simp] theorem collSendCmd_mem (s : State) (n key cid : Nat) : (collSendCmd s n key cid).mem = s.mem := by
  simp only [collSendCmd]
  split
  · split
    · rfl
    · split
      · rfl
      · next e =>
        rw [collMark_mem, setStep_mem]
        exact collGather_mem _ _ _ _ _ e
      · next e =>
        refine (mem_foldl _ (fun s d => ?_) _ _).trans ((setStep_mem ..).trans (collGather_mem _ _ _ _ _ e))
        split
        · rfl
        · exact collPackets_mem cid n _ _
            (fun x => { op := 3, offset := _ * x.2, member := _, backup := _, opid := key, data := x.1 }) _ _
  · rfl

@[simp] theorem memWf_collEnd (s : State) (cid : Nat) (status : Byte) (info : Nat) (h : memWf s.mem = true) :
    memWf (collEnd s cid status info).mem = true := by
  simp [collEnd, h]

@[simp] theorem memWf_collAtS (s : State) (n key : Nat) (h : memWf s.mem = true) :
    memWf (collAtS s n key).mem = true := by
  have sent (l : List Nat) (s : State) : (l.foldl (fun s cid => collSendCmd s n key cid) s).mem = s.mem :=
    mem_foldl _ (fun s cid => collSendCmd_mem ..) _ _
  simp only [collAtS]
  repeat' split
  all_goals simp [sent, h]

@[simp] theorem fixStep_mem (s : State) (n key : Nat) (t : CollStep) (as : List W64) (stoodIn absent : Bool) :
    (fixStep s n key t as stoodIn absent).mem = s.mem := rfl

@[simp] theorem tryFix_mem (s : State) (n key : Nat) : (tryFix s n key).mem = s.mem := by
  unfold tryFix
  split <;> simp [apply_ite State.mem]

/-- The step that a command of a set enters, and the set's last step, with the command's status marked. -/
theorem collEnter_mem (s : State) (cid n key : Nat) (step : W32) (b : Bool) (t : CollStep) (st : Option Byte) :
    (match st with
      | some st => if b then (if b then setStep s n key t else modSet (setStep s n key t) n fun e => { e with last := step })
        else collMark (if b then setStep s n key t else modSet (setStep s n key t) n fun e => { e with last := step }) cid st
      | none => if b then setStep s n key t else modSet (setStep s n key t) n fun e => { e with last := step }).mem
      = s.mem := by
  repeat' split
  all_goals rfl

@[simp] theorem memWf_collAccept (s : State) (cid : Nat) (c : Cmd) (k : CollCmd) (e : CollSet) (run : List W32)
    (h : memWf s.mem = true) : memWf (collAccept s cid c k e run).mem = true := by
  unfold collAccept
  refine (congrArg memWf (collSettle_mem _ _ _ _)).trans (memWf_collAtS _ _ _
    (memWf_ite ((congrArg memWf (collSendCmd_mem _ _ _ _)).trans ?_) ?_)) <;>
  exact (congrArg memWf (tryFix_mem _ _ _)).trans (memWf_foldl _ (fun s j hs => by rwa [collPacket_mem]) _ _
    ((congrArg memWf (collEnter_mem (setCmd s cid { c with running := true }) _ _ _ _ _ _ _)).trans h))

@[simp] theorem memWf_collRow (s : State) (cid opc : Nat) (t : W64) (h : memWf s.mem = true) :
    memWf (collRow s cid opc t).mem = true := by
  have ht : memWf (setTime s t).mem = true := by rwa [setTime_mem]
  have accept : ∀ (s : State) c k e b, memWf s.mem = true → memWf (collAccept s cid c k e b).mem = true :=
    fun s c k e b hs => memWf_collAccept s cid c k e b hs
  unfold collRow
  dsimp only
  split
  · exact ht
  refine memWf_ite ht (memWf_ite (memWf_finishCmd _ _ _ ht) (memWf_ite ht ?_))
  split
  · exact memWf_finishCmd _ _ _ ht
  refine memWf_ite (memWf_finishCmd _ _ _ ht) (memWf_ite ?_ (accept _ _ _ _ _ ht))
  split
  · exact ht
  · next e => exact accept _ _ _ _ _ ((congrArg memWf (contribution_mem _ _ _ _ _ e)).trans ht)
  · next e =>
    rw [collMark_mem]
    exact accept _ _ _ _ _ ((congrArg memWf (contribution_mem _ _ _ _ _ e)).trans ht)

@[simp] theorem memWf_kftReady (s : State) (h : KftHdr) (a t : W64) (wf : memWf s.mem = true) :
    memWf (kftReady s h a t).mem = true := by
  simp only [kftReady]
  refine memWf_kftData _ _ _ _ _ (fun p => ?_) (by simpa using wf)
  repeat' split
  all_goals simp [wf]

@[simp] theorem deadlinePass_mem (s : State) (n key die : Nat) : (deadlinePass s n key die).mem = s.mem := by
  unfold deadlinePass
  repeat' split
  all_goals simp

@[simp] theorem collDeadline_mem (s : State) (n : Nat) (step : W32) (t : W64) :
    (collDeadline s n step t).mem = s.mem := by
  simp [collDeadline]

@[simp] theorem memWf_kftColl (s : State) (h : KftHdr) (b : List Byte) (t : W64) (wf : memWf s.mem = true) :
    memWf (kftColl s h b t).mem = true := by
  simp only [kftColl]
  split
  · simpa using wf
  · refine memWf_kftData _ _ _ _ _ (fun p => ?_) (by simpa using wf)
    split
    · simp [wf]
    · split
      · simp [wf]
      · split
        · simp
        · next e =>
          have hu := memWf_engWrite _ _ _ _ _ _ _ _ (by simpa using wf) _ e
          simp only at hu
          repeat' split
          all_goals simp [hu]

@[simp] theorem memWf_collSendInstant (s : State) (n : Nat) (step : W32) (t : W64) (h : memWf s.mem = true) :
    memWf (collSendInstant s n step t).mem = true := by
  simp [collSendInstant, h]

@[simp] theorem memWf_collWait (s : State) (n : Nat) (step : W32) (t : W64) (h : memWf s.mem = true) :
    memWf (collWait s n step t).mem = true := by
  simp only [collWait]
  repeat' split
  all_goals simp [h]

@[simp] theorem collMissing_mem (s : State) (n : Nat) (step : W32) (t : W64) :
    (collMissing s n step t).mem = s.mem := by
  simp only [collMissing]
  repeat' split
  all_goals simp

theorem memWf_collWrite (s : State) (cid : Nat) (c : Cmd) (k : CollCmd) (l : Tbl (List Byte)) (h : memWf s.mem = true) :
    ∀ p ∈ collWrite s cid c k l, memWf p.1.mem = true := by
  induction l with
  | nil => simpa [collWrite] using h
  | cons e l ih =>
    simp only [collWrite]
    split
    · simp
    · next e => exact fun p hp => by cases hp; exact ih _ e
    · next e => exact memWf_engWrite _ _ _ _ _ _ _ _ (ih _ e)

@[simp] theorem memWf_collComplete (s : State) (cid : Nat) (h : memWf s.mem = true) :
    memWf (collComplete s cid).mem = true := by
  simp only [collComplete]
  split
  · exact h
  · split
    · next n key _ e x c _ _ =>
      split
      · exact h
      · generalize hw : (if ((collCmd c).brole || x.written) = true then some (s, none)
          else collWrite s cid c (collCmd c) (collResult (collCmd c) e.me x)) = w
        have written : ∀ p ∈ w, memWf p.1.mem = true := by
          rw [← hw]
          split
          · simpa using h
          · exact memWf_collWrite _ _ _ _ _ h
        split
        · exact h
        · have ht := written _ rfl
          simp only at ht
          repeat' split
          all_goals simp [ht]
    · exact h

@[simp] theorem memWf_fabContextReset (s : State) (ctx : BitVec 16) (h : memWf s.mem = true) :
    memWf (fabContextReset s ctx).mem = true := by
  unfold fabContextReset
  all_goals simp +contextual [memWf_foldl, mem_foldl, h]

@[simp] theorem fabWarmReset_mem (s : State) : (fabWarmReset s).mem = s.mem := rfl

@[simp] theorem memWf_fabDieReset (s : State) (die : Nat) (h : memWf s.mem = true) :
    memWf (fabDieReset s die).mem = true := by
  unfold fabDieReset
  all_goals simp +contextual [memWf_foldl, h]

@[simp] theorem enterDie_mem (s : State) (cid td : Nat) : (enterDie s cid td).mem = s.mem := by
  unfold enterDie
  repeat' split
  all_goals rfl

@[simp] theorem memWf_launch (s : State) (cid : Nat) (h : memWf s.mem = true) : memWf (launch s cid).mem = true := by
  have entered (l : List Nat) (s : State) : (l.foldl (fun s td => enterDie s cid td) s).mem = s.mem :=
    mem_foldl _ (fun s td => enterDie_mem ..) _ _
  simp only [launch]
  repeat' split
  all_goals simp [entered, h]

@[simp] theorem memWf_timedLaunch (s : State) (td cid : Nat) (t : W64) (h : memWf s.mem = true) :
    memWf (timedLaunch s td cid t).mem = true := by
  simp only [timedLaunch]
  repeat' split
  all_goals simp [h]

@[simp] theorem startBlock_mem (s : State) (td sp : Nat) (k : Kernel) : (startBlock s td sp k).mem = s.mem := by
  unfold startBlock
  split <;> rfl

@[simp] theorem blockStart_mem (s : State) (td : Nat) : (blockStart s td).mem = s.mem := by
  unfold blockStart
  repeat' split
  all_goals simp

end Sys2Proof.Machine
end

section
/-! PROOF. Memory under Alpenglow time: a function leaves memory alone, or keeps it canonical. -/

namespace Sys2Proof.Machine

@[simp] theorem agEvent_mem (s : State) (stepped : Bool) : (agEvent s stepped).mem = s.mem :=
  mem_foldl _ (fun s e => by split <;> simp) _ _

@[simp] theorem agChange_mem (s : State) (st : Nat) (stepped : Bool) : (agChange s st stepped).mem = s.mem := by
  unfold agChange
  split <;> simp [apply_ite State.mem]

@[simp] theorem memWf_timedStarts (s : State) (h : memWf s.mem = true) : memWf (timedStarts s).mem = true :=
  memWf_foldl _ (fun s x hs => memWf_collAtS _ _ _ hs) _ _
    (memWf_foldl _ (fun s cid hs => by simpa using hs) _ _
      (memWf_foldl _ (fun s cid hs => memWf_foldl _ (fun s td ht => memWf_timedLaunch _ _ _ _ ht) _ _ hs) _ _
        (by simpa using h)))

@[simp] theorem agMeasure_mem (s : State) (ptp : W64) : (agMeasure s ptp).1.mem = s.mem := by
  simp only [agMeasure]
  split <;> simp

@[simp] theorem memWf_ptpMessage (s : State) (m : PtpMsg) (h : memWf s.mem = true) :
    memWf (ptpMessage s m).mem = true := by
  have measured : ∀ (p : Prop) [Decidable p] (u : State) (a : W64), u.mem = s.mem →
      (if p then (u, false) else agMeasure u a).1.mem = s.mem := by
    intro p _ u a hu
    split
    · exact hu
    · rwa [agMeasure_mem]
  unfold ptpMessage
  refine memWf_ite (memWf_timedStarts _ ?_) ?_ <;>
  exact (congrArg memWf ((fabReady_mem _).trans ((agChange_mem _ _ _).trans (measured _ _ _ (setFld_mem ..))))).trans h

@[simp] theorem agHoldover_mem (s : State) (t : W64) : (agHoldover s t).mem = s.mem := by
  unfold agHoldover
  all_goals simp [apply_ite State.mem]

@[simp] theorem memWf_ppsEdge (s : State) (t : W64) (h : memWf s.mem = true) :
    memWf (ppsEdge s t).mem = true := by
  simp only [ppsEdge]
  repeat' split
  all_goals simp [h]

@[simp] theorem ppsLoss_mem (s : State) (t : W64) : (ppsLoss s t).mem = s.mem := by
  simp only [ppsLoss]
  repeat' split
  all_goals simp

end Sys2Proof.Machine
end

section
/-! PROOF. Memory under the matrix arrays: a function leaves memory alone, or keeps it canonical. -/

namespace Sys2Proof.Machine

@[simp] theorem memWf_mxComplete (s : State) (sp id : Nat) (h : memWf s.mem = true) :
    memWf (mxComplete s sp id).mem = true := by
  unfold mxComplete
  repeat' split
  all_goals simp [h]

@[simp] theorem seatGrant_mem (s : State) (sp : Nat) : (seatGrant s sp).mem = s.mem := rfl

@[simp] theorem memWf_mxOpen (s : State) (sp slot : Nat) (w : W64) (h : memWf s.mem = true) :
    memWf (mxOpen s sp slot w).mem = true :=
  memWf_classIssue (fun g => by split <;> simp [h]) h

@[simp] theorem memWf_mxHold (s : State) (sp slot op : Nat) (w : W64) (close : Bool) (h : memWf s.mem = true) :
    memWf (mxHold s sp slot op w close).mem = true :=
  memWf_classIssue (fun g => by split <;> simp [h]) h

@[simp] theorem memWf_mxQueue (s : State) (sp slot : Nat) (g : Group) (op : MxOp) (am : BitVec 4)
    (count : Option Nat) (note : MxUnit → MxUnit) (h : memWf s.mem = true) :
    memWf (mxQueue s sp slot g op am count note).mem = true := by
  simp only [mxQueue]
  repeat' split
  all_goals simp [h]

@[simp] theorem memWf_mxLdw (s : State) (sp slot : Nat) (w : W64) (h : memWf s.mem = true) :
    memWf (mxLdw s sp slot w).mem = true :=
  memWf_classIssue (fun g => by simp [h]) h

@[simp] theorem memWf_mxLdacc (s : State) (sp slot : Nat) (w : W64) (h : memWf s.mem = true) :
    memWf (mxLdacc s sp slot w).mem = true :=
  memWf_classIssue (fun g => by simp [h]) h

@[simp] theorem memWf_mxMma (s : State) (sp slot : Nat) (w : W64) (h : memWf s.mem = true) :
    memWf (mxMma s sp slot w).mem = true :=
  memWf_classIssue (fun g => by simp [h]) h

@[simp] theorem memWf_mxDrain (s : State) (sp slot : Nat) (w : W64) (h : memWf s.mem = true) :
    memWf (mxDrain s sp slot w).mem = true :=
  memWf_classIssue (fun g => by simp [h]) h

@[simp] theorem setRamp_mem (s : State) (sp j : Nat) (f : RampPhase) : (setRamp s sp j f).mem = s.mem := rfl

@[simp] theorem rampUp_mem (s : State) (sp j : Nat) : (rampUp s sp j).mem = s.mem := by
  unfold rampUp
  repeat' split
  all_goals rfl

@[simp] theorem rampHold_mem (s : State) (sp j : Nat) : (rampHold s sp j).mem = s.mem := by
  unfold rampHold
  repeat' split
  all_goals rfl

@[simp] theorem rampDown_mem (s : State) (sp j : Nat) : (rampDown s sp j).mem = s.mem := by
  unfold rampDown
  split <;> rfl

end Sys2Proof.Machine
end

section
/-! PROOF. Memory under the life of blocks, kernels and dies: a function leaves memory alone, or keeps it canonical.
-/

namespace Sys2Proof.Machine

@[simp] theorem regionStop_mem (s : State) (sp : Nat) (ctx : BitVec 16) : (regionStop s sp ctx).mem = s.mem := by
  simp only [regionStop]
  repeat' split
  all_goals simp

@[simp] theorem couloirStop_mem (s : State) (out : ClCmd → Bool) : (couloirStop s out).mem = s.mem := rfl

@[simp] theorem clearShared_mem (s : State) (sp : Nat) : (clearShared s sp).mem = s.mem := rfl

@[simp] theorem memWf_resReset (s : State) (ctx : BitVec 16) (h : memWf s.mem = true) :
    memWf (resReset s ctx).mem = true := by
  have stopped (l : List Nat) {s : State} (hs : memWf s.mem = true) :
      memWf (l.foldl (fun s tm => stopTeam s tm 0x0F) s).mem = true :=
    memWf_foldl _ (fun s tm hs => memWf_stopTeam s tm 0x0F hs) _ _ hs
  refine memWf_foldl _ (fun s res hs => ?_) _ _ h
  have closed : memWf (endClosed (endCands s 0x0F 5 fun x => x.res == res) res 0x0F 5).mem = true := by simp [hs]
  simp only
  refine memWf_releaseCheck _ _ ?_
  rw [modRes_mem]
  repeat' split
  · exact memWf_endCmd _ _ _ _ (stopped _ closed)
  · exact stopped _ closed
  · exact stopped _ closed

@[simp] theorem memWf_cmdsReset (s : State) (ctx : BitVec 16) (h : memWf s.mem = true) :
    memWf (cmdsReset s ctx).mem = true := by
  unfold cmdsReset
  all_goals simp +contextual [memWf_foldl, h]

@[simp] theorem memWf_contextStop (s : State) (ctx : BitVec 16) (h : memWf s.mem = true) :
    memWf (contextStop s ctx).mem = true := by
  have regions (l : List Nat) (s : State) : (l.foldl (fun s sp => regionStop s sp ctx) s).mem = s.mem :=
    mem_foldl _ (fun s sp => regionStop_mem s sp ctx) _ _
  have kernels (l : List Nat) {s : State} (hs : memWf s.mem = true) : memWf (l.foldl stopKernel s).mem = true :=
    memWf_foldl _ memWf_stopKernel _ _ hs
  have halted (l : List Nat) {s : State} (hs : memWf s.mem = true) :
      memWf (l.foldl (fun s n => haltQueue s n 0x0F (0, 0)) s).mem = true :=
    memWf_foldl _ (fun s n hs => memWf_haltQueue s n 0x0F (0, 0) hs) _ _ hs
  simp only [contextStop]
  refine memWf_cmdsReset _ _ (halted _ ?_)
  rw [poolContextReset_mem]
  refine memWf_fabContextReset _ _ (memWf_resReset _ _ ?_)
  rw [mem_foldl _ clearShared_mem]
  refine kernels _ ?_
  rw [regions, couloirStop_mem]
  exact h

@[simp] theorem memWf_shareLost (s : State) (td : Nat) (h : memWf s.mem = true) :
    memWf (shareLost s td).mem = true := by
  refine memWf_foldl _ (fun s cid hs => ?_) _ _ h
  simp only
  repeat' split
  all_goals simp [hs]

@[simp] theorem memWf_spurStop (s : State) (sp : Nat) (retired : Bool) (h : memWf s.mem = true) :
    memWf (spurStop s sp retired).mem = true := by
  have stopped (l : List Nat) {s : State} (hs : memWf s.mem = true) :
      memWf (l.foldl (fun s tm => stopTeam s tm 0x0B) s).mem = true :=
    memWf_foldl _ (fun s tm hs => memWf_stopTeam s tm 0x0B hs) _ _ hs
  simp only [spurStop]
  refine memWf_shareLost _ _ (memWf_foldl _ (fun s b hs => memWf_blockFault s sp b 0 11 0 0 hs) _ _
    (memWf_foldl _ (fun s res hs => ?_) _ _ h))
  split
  · exact stopped _ (memWf_endCands _ _ _ _ (by rwa [modRes_mem]))
  · exact stopped _ hs

@[simp] theorem agentForget_mem (s : State) (a ln : Nat) : (agentForget s a ln).mem = s.mem :=
  mem_foldl _ (fun s h => modHart_mem s h _) _ _

@[simp] theorem agentUnlist_mem (s : State) (a ln : Nat) : (agentUnlist s a ln).mem = s.mem := by
  simp only [agentUnlist]
  split <;> simp

@[simp] theorem memWf_dieWriteback (s : State) (die : Nat) (h : memWf s.mem = true) :
    memWf (dieWriteback s die).mem = true := by
  refine memWf_foldl _ (fun s x hs => ?_) _ _ h
  simp only
  split
  · exact hs
  · rw [agentUnlist_mem, agentForget_mem]
    split
    · exact memWf_putBelow _ _ _ _ hs
    · exact hs

/-- A line that an agent of the die held is written below, poisoned where its copy was dirty. -/
theorem memWf_lineLost (s : State) (x : Nat × Nat) (h : memWf s.mem = true) :
    memWf (agentForget (match agentData s x.1 x.2 with
      | some (_, true, _) => putBelow s x.2 (belowLine s x.2).1 true
      | _ => s) x.1 x.2).mem = true := by
  rw [agentForget_mem]
  split
  · exact memWf_putBelow _ _ _ _ h
  · exact h

/-- The agents of a die leave the directory of a home. -/
theorem dirUnlist_mem (s : State) (md : Nat) (agents lines : List Nat) :
    (lines.foldl (fun s ln => agents.foldl (fun s a =>
      match tget? (s.home md).dir ln with
      | some e => if e.own = some a ∨ e.sharers.contains a then agentUnlist s a ln else s
      | none => s) s) s).mem = s.mem := by
  refine mem_foldl _ (fun s ln => mem_foldl _ (fun s a => ?_) _ _) _ _
  repeat' split
  · exact agentUnlist_mem ..
  · rfl
  · rfl

@[simp] theorem memWf_dieWritten (s : State) (die : Nat) (h : memWf s.mem = true) :
    memWf (dieWritten s die).mem = true := by
  simp only [dieWritten]
  refine memWf_foldl _ (fun s md hs => memWf_foldl _ (fun s t ht => ?_) _ _ ?_) _ _ ?_
  · repeat' split
    all_goals simp [ht]
  · exact (congrArg memWf (dirUnlist_mem s md (agentsOf die) (tkeys (s.home md).dir))).trans hs
  · exact memWf_foldl _ (fun s x hs => memWf_lineLost s x hs) _ _ h

/-- The dirty copies of one home are stored. -/
theorem memWf_homeFlush (s : State) (x : Home) (h : memWf s.mem = true) :
    memWf (x.vq.foldl (fun s v => if v.dirty then storeLine s v.line v.data v.poison else s)
      (x.l3.foldl (fun s e => if e.2.dirty then storeLine s e.1 e.2.data e.2.poison else s) s)).mem = true := by
  refine memWf_foldl _ (fun s v hv => ?_) _ _ (memWf_foldl _ (fun s e he => ?_) _ _ h)
  · split
    · exact memWf_storeLine _ _ _ _ hv
    · exact hv
  · split
    · exact memWf_storeLine _ _ _ _ he
    · exact he

@[simp] theorem memWf_cachesFlush (s : State) (h : memWf s.mem = true) : memWf (cachesFlush s).mem = true := by
  simp only [cachesFlush]
  refine memWf_foldl _ (fun s k hs => ?_) _ _ (memWf_foldl _ (fun s md hs => memWf_homeFlush s _ hs) _ _ h)
  split
  · exact memWf_storeLine _ _ _ _ hs
  · exact hs

@[simp] theorem memWf_tensorStop (s : State) (td : Nat) (retired : Bool) (h : memWf s.mem = true) :
    memWf (tensorStop s td retired).mem = true := by
  have ended (l : List Nat) {s : State} (hs : memWf s.mem = true) :
      memWf (l.foldl (fun s sp => spurStop s sp retired) s).mem = true :=
    memWf_foldl _ (fun s sp hs => memWf_spurStop s sp retired hs) _ _ hs
  simp only [tensorStop]
  refine (congrArg memWf (mem_foldl _ (fun s i => modSpur_mem s (td * 8 + i) _) _ _)).trans ?_
  refine memWf_foldl _ (fun s sp hs => ?_) _ _ ?_
  · rw [modSpur_mem]
    exact memWf_foldl _ (fun s b hs => memWf_blockEnd _ _ _ (memWf_stopBlock _ _ _ hs)) _ _ hs
  · rw [couloirStop_mem]
    exact ended _ h

/-- The harts of a retired compute die are as new. -/
theorem hartsReset_mem (s : State) (die : Nat) : (if 1 ≤ die ∧ die ≤ 4 then
      (List.range 32).foldl (fun s i => modHart s (32 * (die - 1) + i) fun x => { l1d := x.l1d, l1i := x.l1i }) s
    else s).mem = s.mem := by
  split
  · exact mem_foldl _ (fun s i => modHart_mem _ _ _) _ _
  · rfl

@[simp] theorem memWf_dieStop (s : State) (die : Nat) (retired : Bool) (h : memWf s.mem = true) :
    memWf (dieStop s die retired).mem = true := by
  have harts : memWf (if 1 ≤ die ∧ die ≤ 4 then
      (List.range 32).foldl (fun s i => modHart s (32 * (die - 1) + i) fun x => { l1d := x.l1d, l1i := x.l1i })
        (if 16 ≤ die then tensorStop s (die - 16) retired else s)
    else if 16 ≤ die then tensorStop s (die - 16) retired else s).mem = true :=
    (congrArg memWf (hartsReset_mem _ die)).trans (memWf_ite (memWf_tensorStop _ _ _ h) h)
  have fab := memWf_ite (p := die = 11 ∨ die = 12) (memWf_fabDieReset _ die harts) harts
  refine memWf_ite (memWf_dieWritten _ _ ?_) ?_ <;> exact memWf_dieWriteback _ _ fab

@[simp] theorem dieCapacity_mem (s : State) (die : Nat) (back : Bool) : (dieCapacity s die back).mem = s.mem := by
  unfold dieCapacity
  repeat' split
  all_goals rfl

@[simp] theorem memWf_dieOut (s : State) (die : Nat) (trip : Bool) (h : memWf s.mem = true) :
    memWf (dieOut s die trip).mem = true := by
  unfold dieOut
  split <;> simp [h]

@[simp] theorem fatal_mem (s : State) (cause die : Nat) : (fatal s cause die).mem = s.mem := by
  simp [fatal]

@[simp] theorem bootFail_mem (s : State) (cause : Nat) : (bootFail s cause).mem = s.mem := by
  simp [bootFail]

@[simp] theorem memWf_railsOff (s : State) (_h : memWf s.mem = true) : memWf (railsOff s).mem = true := rfl

end Sys2Proof.Machine
end

section
/-! PROOF. Memory under the Col gate: a function leaves memory alone, or keeps it canonical. -/

namespace Sys2Proof.Machine

@[simp] theorem violation_mem (s : State) (g : Nat) (inbound : Bool) (cause addr : Nat) :
    (violation s g inbound cause addr).mem = s.mem := by
  unfold violation
  all_goals simp [apply_ite State.mem]

@[simp] theorem guestTell_mem (s : State) (g : Nat) (tag : BitVec 10) (status : Byte) (d : Option Line) :
    (guestTell s g tag status d).mem = s.mem := rfl

@[simp] theorem fillSite_mem (s : State) (g : Nat) : (fillSite s g).mem = s.mem := rfl

theorem memWf_guestDo (s : State) (g : Nat) (r : GuestReq) (h : memWf s.mem = true) :
    ∀ p ∈ guestDo s g r, memWf p.1.mem = true := by
  simp only [guestDo]
  repeat' split
  all_goals simp [h]

@[simp] theorem memWf_guestPump (n : Nat) (s : State) (g : Nat) (h : memWf s.mem = true) :
    memWf (guestPump n s g).mem = true := by
  induction n generalizing s with
  | zero => exact h
  | succ n ih =>
    simp only [guestPump]
    split
    · exact h
    · split
      · exact h
      · split
        · exact h
        · next e => exact ih _ ((congrArg memWf (modSite_mem ..)).trans (memWf_guestDo _ _ _ h _ e))

@[simp] theorem memWf_guestRun (s : State) (g : Nat) (h : memWf s.mem = true) :
    memWf (guestRun s g).mem = true := by
  simp [guestRun, h]

@[simp] theorem memWf_guestRequest (s : State) (g : Nat) (h : GuestHdr) (d : Line) (wf : memWf s.mem = true) :
    memWf (guestRequest s g h d).mem = true := by
  unfold guestRequest
  repeat' split
  all_goals simp [wf]

@[simp] theorem memWf_rateRelease (s : State) (g : Nat) (t : W64) (h : memWf s.mem = true) :
    memWf (rateRelease s g t).mem = true := by
  simp [rateRelease, h]

@[simp] theorem memWf_answerReturn (s : State) (g : Nat) (tag : BitVec 10) (h : memWf s.mem = true) :
    memWf (answerReturn s g tag).mem = true := by
  unfold answerReturn
  repeat' split
  all_goals simp [h]

@[simp] theorem replyIn_mem (s : State) (g off : Nat) (d : Option W64) (status : Byte) :
    (replyIn s g off d status).mem = s.mem := rfl

@[simp] theorem colInbound_mem (s : State) (g : Nat) (ctx : BitVec 16) (off width : Nat) (write : Option W64) :
    (colInbound s g ctx off width write).mem = s.mem := by
  unfold colInbound
  repeat' split
  all_goals simp

@[simp] theorem memWf_takeIn (s : State) (g id : Nat) (f : State → GuestIn → State)
    (hf : ∀ s r, memWf s.mem = true → memWf (f s r).mem = true) (h : memWf s.mem = true) :
    memWf (takeIn s g id f).mem = true := by
  unfold takeIn
  split
  · exact h
  · exact hf _ _ h

@[simp] theorem memWf_guestAnswer (s : State) (g id : Nat) (d : W64) (status : Byte) (h : memWf s.mem = true) :
    memWf (guestAnswer s g id d status).mem = true := by
  unfold guestAnswer
  all_goals simp +contextual [h]

@[simp] theorem memWf_guestTimeout (s : State) (g id : Nat) (h : memWf s.mem = true) :
    memWf (guestTimeout s g id).mem = true := by
  simp [guestTimeout, h]

@[simp] theorem siteEmpty_mem (s : State) (g : Nat) : (siteEmpty s g).mem = s.mem := by
  rw [siteEmpty, modSite_mem]
  exact mem_foldl _ (fun s r => replyIn_mem ..) _ _

@[simp] theorem colKill_mem (s : State) (g : Nat) : (colKill s g).mem = s.mem := by
  unfold colKill
  split <;> simp

end Sys2Proof.Machine
end

section
/-! PROOF. Memory under the Ridge: a function leaves memory alone, or keeps it canonical. -/

namespace Sys2Proof.Machine

@[simp] theorem ridgeOwe_mem (s : State) (origin : Option (Nat × Nat)) : (ridgeOwe s origin).mem = s.mem := by
  unfold ridgeOwe
  split <;> rfl

@[simp] theorem ridgeGrant_mem (s : State) (die m : Nat) : (ridgeGrant s die m).mem = s.mem := by
  simp only [ridgeGrant]
  repeat' split
  all_goals simp

@[simp] theorem arbGrant_mem (s : State) (die a : Nat) : (arbGrant s die a).mem = s.mem := by
  unfold arbGrant
  split <;> simp [mem_foldl, apply_ite State.mem]

@[simp] theorem moveFrames_mem (s : State) (die m : Nat) : (moveFrames s die m).mem = s.mem := by
  refine (mem_foldl _ (fun s f => ?_) _ _).trans ((mem_foldl _ (fun s f => ?_) _ _).trans (modRmod_mem ..))
  · split
    · exact modRmod_mem ..
    · exact ridgeOwe_mem ..
  · split
    · exact modRmod_mem ..
    · rfl

@[simp] theorem memWf_streamLost (s : State) (r : Route) (h : memWf s.mem = true) :
    memWf (streamLost s r).mem = true := by
  unfold streamLost
  all_goals simp +contextual [memWf_foldl, mem_foldl, apply_ite State.mem, apply_ite memWf, ite_self, h]

@[simp] theorem clearRidge_mem (s : State) (die m : Nat) : (clearRidge s die m).mem = s.mem := rfl

@[simp] theorem memWf_ridgeRetire (s : State) (die m : Nat) (info : optParam (Option ErrInfo) none)
    (h : memWf s.mem = true) :
    memWf (ridgeRetire s die m info).mem = true := by
  unfold ridgeRetire
  repeat' split
  all_goals simp +contextual [memWf_foldl, h]

@[simp] theorem memWf_ridgeModuleRetire (s : State) (die m : Nat) (h : memWf s.mem = true) :
    memWf (ridgeModuleRetire s die m).mem = true := by
  simp [ridgeModuleRetire, h]

@[simp] theorem memWf_laneRepair (s : State) (die m : Nat) (recv : Bool) (h : memWf s.mem = true) :
    memWf (laneRepair s die m recv).mem = true := by
  simp only [laneRepair]
  repeat' split
  all_goals simp [h]

@[simp] theorem ridgeDeliver_mem (s : State) (die m : Nat) (f : RFrame) : (ridgeDeliver s die m f).mem = s.mem := by
  unfold ridgeDeliver
  repeat' split
  all_goals rfl

@[simp] theorem ridgeReceive_mem (s : State) (die m : Nat) (f : FrameHdr) (payload : BitVec 1920) :
    (ridgeReceive s die m f payload).mem = s.mem := by
  unfold ridgeReceive
  split <;> simp [apply_ite State.mem]

@[simp] theorem ridgeResend_mem (s : State) (die m ack : Nat) : (ridgeResend s die m ack).mem = s.mem := by
  unfold ridgeResend
  split <;> rfl

@[simp] theorem memWf_ridgeRetrain (s : State) (die m : Nat) (ok : Bool) (h : memWf s.mem = true) :
    memWf (ridgeRetrain s die m ok).mem = true := by
  simp only [ridgeRetrain]
  repeat' split
  all_goals simp [h]

end Sys2Proof.Machine
end

section
/-! PROOF. Memory under errors and the background services: a function leaves memory alone, or keeps it canonical. -/

namespace Sys2Proof.Machine

@[simp] theorem clearBit_mem (s : State) (die : Nat) (f : FRef) (i b : Nat) : (clearBit s die f i b).mem = s.mem := rfl

@[simp] theorem retirePch_mem (s : State) (r : Rid) (info : Option ErrInfo) : (retirePch s r info).mem = s.mem := by
  unfold retirePch
  all_goals simp [apply_ite State.mem]

@[simp] theorem memWf_retireSpur (s : State) (r : Rid) (h : memWf s.mem = true) :
    memWf (retireSpur s r).mem = true := by
  simp [retireSpur, memWf_foldl, h]

@[simp] theorem retireArray_mem (s : State) (r : Rid) : (retireArray s r).mem = s.mem := rfl

@[simp] theorem clRestart_mem (s : State) (id : Nat) (c : ClCmd) : (clRestart s id c).mem = s.mem := rfl

@[simp] theorem retireCouloir_mem (s : State) (r : Rid) : (retireCouloir s r).mem = s.mem := by
  have restarted (l : List (Nat × ClCmd)) (s : State) : (l.foldl (fun s x => clRestart s x.1 x.2) s).mem = s.mem :=
    mem_foldl _ (fun s x => clRestart_mem ..) _ _
  have finished (l : List (Nat × ClCmd)) (s : State) : (l.foldl (fun s x => clFinish s x.1 x.2 0x0B) s).mem = s.mem :=
    mem_foldl _ (fun s x => clFinish_mem ..) _ _
  simp only [retireCouloir]
  split
  · rw [restarted, loseCapacity_mem, clearBit_mem]
  · rw [finished, restarted, loseCapacity_mem, clearBit_mem]

@[simp] theorem retireCore_mem (s : State) (r : Rid) : (retireCore s r).mem = s.mem := by
  refine (mem_foldl _ (fun s l => ?_) _ _).trans ?_
  · repeat' split
    · exact setAgentLine_mem ..
    · rfl
    · rfl
  · rw [loseCapacity_mem, clearBit_mem]

@[simp] theorem memWf_retireDirWay (s : State) (md w : Nat) (h : memWf s.mem = true) :
    memWf (retireDirWay s md w).mem = true := by
  unfold retireDirWay
  all_goals simp +contextual [memWf_foldl, apply_ite State.mem, apply_ite memWf, ite_self, h]

@[simp] theorem memWf_retireWay (s : State) (r : Rid) (h : memWf s.mem = true) :
    memWf (retireWay s r).mem = true := by
  unfold retireWay
  all_goals simp +contextual [memWf_foldl, mem_foldl, memWf_storeLine, apply_ite State.mem, apply_ite memWf, ite_self, h]

@[simp] theorem memWf_retireCopy (s : State) (r : Rid) (h : memWf s.mem = true) :
    memWf (retireCopy s r).mem = true := by
  simp only [retireCopy]
  split
  · simp [h]
  · refine memWf_foldl _ (fun s c hs => ?_) _ _ (by simp [h])
    split
    · exact hs
    · exact memWf_finishCmd s c 0x0B hs

@[simp] theorem memWf_retireMover (s : State) (r : Rid) (h : memWf s.mem = true) : memWf (retireMover s r).mem = true :=
  memWf_tierRetry _ (memWf_foldl _ (fun s x hs => memWf_tierEnd _ _ _ _ (by simpa using hs)) _ _ (by simpa using h))

@[simp] theorem retireFlash_mem (s : State) (r : Rid) : (retireFlash s r).mem = s.mem := rfl

@[simp] theorem memWf_retireRid (s : State) (r : Rid) (info : Option ErrInfo) (h : memWf s.mem = true) :
    memWf (retireRid s r info).mem = true := by
  unfold retireRid
  repeat' split
  all_goals simp [apply_ite State.mem, h]

@[simp] theorem correctedEvent_mem (s : State) (r : Rid) (i : ErrInfo) : (correctedEvent s r i).mem = s.mem := by
  unfold correctedEvent
  all_goals simp [apply_ite State.mem]

@[simp] theorem memWf_correctedError (s : State) (r : Rid) (cls : Bool) (pa detail : Nat) (t : W64)
    (h : memWf s.mem = true) :
    memWf (correctedError s r cls pa detail t).mem = true := by
  simp only [correctedError]
  repeat' split
  all_goals simp [h]

@[simp] theorem testQueue_mem (s : State) (t : SelfTest) : (testQueue s t).mem = s.mem := by
  unfold testQueue
  split <;> rfl

@[simp] theorem codewordLost_mem (s : State) (ln detail : Nat) : (codewordLost s ln detail).mem = s.mem := by
  simp [codewordLost, mem_foldl]

@[simp] theorem memWf_uncorrectedError (s : State) (r : Rid) (pa detail : Nat) (t : W64) (h : memWf s.mem = true) :
    memWf (uncorrectedError s r pa detail t).mem = true := by
  simp only [uncorrectedError]
  repeat' split
  all_goals simp [h]

@[simp] theorem rebuildStep_mem (s : State) (md j : Nat) : (rebuildStep s md j).mem = s.mem := by
  unfold rebuildStep
  split <;> rfl

@[simp] theorem rebuildDone_mem (s : State) (md j : Nat) : (rebuildDone s md j).mem = s.mem := by
  simp [rebuildDone]

@[simp] theorem screeProgress_mem (s : State) (board : Bool) : (screeProgress s board).mem = s.mem := by
  unfold screeProgress
  split <;> simp [apply_ite State.mem]

@[simp] theorem screeHbm_mem (s : State) (md j : Nat) (errs errs2 : List (Fin 72)) :
    (screeHbm s md j errs errs2).mem = s.mem := by
  simp only [screeHbm]
  split
  · rfl
  · rw [screeProgress_mem, modSvc_mem]
    split
    · rw [codewordLost_mem, bumpErr_mem, readCodeword_mem]
    · exact readCodeword_mem ..

@[simp] theorem screeBoard_mem (s : State) (linkErr : Bool) : (screeBoard s linkErr).mem = s.mem := by
  simp only [screeBoard]
  repeat' split
  all_goals simp

@[simp] theorem screePeriod_mem (s : State) (board : Bool) : (screePeriod s board).mem = s.mem := by
  unfold screePeriod
  repeat' split
  all_goals simp

@[simp] theorem cairnStart_mem (s : State) (r : Rid) : (cairnStart s r).mem = s.mem := by
  unfold cairnStart
  repeat' split
  all_goals rfl

@[simp] theorem selftestRequest_mem (s : State) (ctx : BitVec 16) (val : Nat) :
    (selftestRequest s ctx val).mem = s.mem := by
  unfold selftestRequest
  split <;> simp [apply_ite State.mem]

@[simp] theorem selftestStart_mem (s : State) : (selftestStart s).mem = s.mem := by
  simp only [selftestStart]
  repeat' split
  all_goals simp

@[simp] theorem selftestTimeout_mem (s : State) : (selftestTimeout s).mem = s.mem := by
  unfold selftestTimeout
  split <;> simp

@[simp] theorem memWf_selftestResult (s : State) (res : Nat) (h : memWf s.mem = true) :
    memWf (selftestResult s res).mem = true := by
  unfold selftestResult
  repeat' split
  all_goals simp [h]

@[simp] theorem lockWatchdog_mem (s : State) (die a : Nat) : (lockWatchdog s die a).mem = s.mem := by
  simp only [lockWatchdog]
  repeat' split
  all_goals simp

@[simp] theorem memWf_telemetryRecord (s : State) (t : W64) (h : memWf s.mem = true) :
    memWf (telemetryRecord s t).mem = true := by
  simp only [telemetryRecord]
  repeat' split
  all_goals simp [h]

@[simp] theorem fatalError_mem (s : State) (cause die : Nat) : (fatalError s cause die).mem = s.mem := by
  unfold fatalError
  split <;> simp

end Sys2Proof.Machine
end

section
/-! PROOF. Memory under power and heat: a function leaves memory alone, or keeps it canonical. -/

namespace Sys2Proof.Machine

@[simp] theorem memWf_orderlyDown (s : State) (h : memWf s.mem = true) :
    memWf (orderlyDown s).mem = true := by
  unfold orderlyDown
  repeat' split
  all_goals simp [h]

@[simp] theorem faultOut_mem (s : State) : (faultOut s).mem = s.mem := rfl

@[simp] theorem setInput_mem (s : State) : (setInput s).mem = s.mem := rfl

@[simp] theorem droopAssert_mem (s : State) (g : Nat) : (droopAssert s g).mem = s.mem := by
  unfold droopAssert
  split <;> simp [apply_ite State.mem]

@[simp] theorem droopRelease_mem (s : State) (g : Nat) : (droopRelease s g).mem = s.mem := by
  unfold droopRelease
  all_goals simp [apply_ite State.mem]

@[simp] theorem droopHold_mem (s : State) (die : Nat) : (droopHold s die).mem = s.mem := rfl

@[simp] theorem droopDone_mem (s : State) (die : Nat) : (droopDone s die).mem = s.mem := by
  unfold droopDone
  split <;> rfl

@[simp] theorem memWf_inputSample (s : State) (v i p : Nat) (overLong : Bool) (h : memWf s.mem = true) :
    memWf (inputSample s v i p overLong).mem = true := by
  unfold inputSample
  repeat' split
  all_goals simp [memWf_foldl, h]

@[simp] theorem setMode_mem (s : State) (die mode : Nat) : (setMode s die mode).mem = s.mem := by
  simp [setMode]

@[simp] theorem controlLoop_mem (s : State) (die : Nat) : (controlLoop s die).1.mem = s.mem := by
  simp only [controlLoop]
  repeat' split
  all_goals simp

@[simp] theorem quotient_mem (s : State) (a b : Nat) : (quotient s a b).2.mem = s.mem := by
  unfold quotient
  split <;> rfl

@[simp] theorem domainSample_mem (s : State) (die m e : Nat) (ok : Bool) : (domainSample s die m e ok).mem = s.mem := by
  simp only [domainSample]
  repeat' split
  all_goals simp

@[simp] theorem groupFailed_mem (s : State) (g : Nat) : (groupFailed s g).mem = s.mem := by
  unfold groupFailed
  all_goals simp [apply_ite State.mem]

@[simp] theorem railSample_mem (s : State) (g m e : Nat) : (railSample s g m e).mem = s.mem := by
  unfold railSample
  split <;> simp [apply_ite State.mem]

@[simp] theorem telemetryTimeout_mem (s : State) (src : Nat) : (telemetryTimeout s src).mem = s.mem := by
  unfold telemetryTimeout
  repeat' split
  all_goals simp

@[simp] theorem powerReport_mem (s : State) (die k : Nat) : (powerReport s die k).mem = s.mem := by
  unfold powerReport
  split <;> rfl

@[simp] theorem grantCompute_mem (s : State) (k : Nat) : (grantCompute s k).mem = s.mem := by
  unfold grantCompute
  split <;> simp [mem_foldl]

@[simp] theorem grantReceive_mem (s : State) (die : Nat) (t : W64) : (grantReceive s die t).mem = s.mem := by
  simp only [grantReceive]
  repeat' split
  all_goals simp

@[simp] theorem epochBoundary_mem (s : State) (die k : Nat) : (epochBoundary s die k).mem = s.mem := by
  simp only [epochBoundary]
  repeat' split
  all_goals simp

@[simp] theorem sendLoan_mem (s : State) (src dst k amount : Nat) (back : Bool) :
    (sendLoan s src dst k amount back).mem = s.mem := rfl

@[simp] theorem lendTick_mem (s : State) (die : Nat) : (lendTick s die).mem = s.mem := by
  have told (l : List Nat) (s : State) (b : Bool) :
      (l.foldl (fun s d => modPwr s d fun q => { q with status := tset q.status die b }) s).mem = s.mem :=
    mem_foldl _ (fun s d => modPwr_mem s d _) _ _
  simp only [lendTick]
  repeat' split
  any_goals rfl
  · exact told _ _ _
  · exact told _ _ _
  · rw [sendLoan_mem, setLimit_mem, modPwr_mem, told]

@[simp] theorem loanReceive_mem (s : State) (die : Nat) : (loanReceive s die).mem = s.mem := by
  unfold loanReceive
  split <;> simp [apply_ite State.mem]

@[simp] theorem controlTick_mem (s : State) (die e : Nat) : (controlTick s die e).mem = s.mem := by
  simp only [controlTick]
  repeat' split
  all_goals simp

@[simp] theorem thermalEvent_mem (s : State) (die kind temp : Nat) : (thermalEvent s die kind temp).mem = s.mem := by
  simp [thermalEvent]

@[simp] theorem memWf_trip (s : State) (die temp : Nat) (h : memWf s.mem = true) :
    memWf (trip s die temp).mem = true := by
  unfold trip
  split <;> simp [h]

@[simp] theorem memWf_tjSample (s : State) (die : Nat) (temps : List (BitVec 8)) (h : memWf s.mem = true) :
    memWf (tjSample s die temps).mem = true := by
  simp only [tjSample]
  repeat' split
  all_goals simp [h]

@[simp] theorem memWf_coolantSample (s : State) (temp : Nat) (h : memWf s.mem = true) :
    memWf (coolantSample s temp).mem = true := by
  unfold coolantSample
  split <;> simp [apply_ite State.mem, h]

@[simp] theorem memWf_powered (s : State) (f : State → State)
    (hf : ∀ s, memWf s.mem = true → memWf (f s).mem = true) (h : memWf s.mem = true) :
    memWf (powered s f).mem = true := by
  unfold powered
  split
  · exact hf s h
  · exact h

end Sys2Proof.Machine
end

section
/-! PROOF. Memory under the registers of the hub and the boot image: a function leaves memory alone, or keeps it
canonical. -/

namespace Sys2Proof.Machine

@[simp] theorem lockSet_mem (s : State) (die bs : Nat) : (lockSet s die bs).mem = s.mem := by
  unfold lockSet
  split <;> simp [apply_ite State.mem]

@[simp] theorem regPut_mem (s : State) (die off width val hw : Nat) : (regPut s die off width val hw).mem = s.mem := by
  unfold regPut
  split <;> simp [apply_ite State.mem]

@[simp] theorem commitReg_mem (s : State) (die off width : Nat) : (commitReg s die off width).mem = s.mem := by
  unfold commitReg
  split <;> rfl

@[simp] theorem partCommit_mem (s : State) (md : Nat) : (partCommit s md).mem = s.mem := by
  unfold partCommit
  split <;> simp [mem_foldl]

@[simp] theorem quotaCommitWrite_mem (s : State) : (quotaCommitWrite s).mem = s.mem := by
  unfold quotaCommitWrite
  split <;> simp

@[simp] theorem arbCommit_mem (s : State) (die : Nat) : (arbCommit s die).mem = s.mem := by
  unfold arbCommit
  split <;> simp [mem_foldl]

@[simp] theorem treelineCommit_mem (s : State) : (treelineCommit s).mem = s.mem := by
  unfold treelineCommit
  split <;> simp

@[simp] theorem commitTrigger_mem (s : State) (die off width val : Nat) :
    (commitTrigger s die off width val).mem = s.mem := by
  unfold commitTrigger
  repeat' split
  all_goals simp

@[simp] theorem logAppend_mem (s : State) (kind die arg : Nat) (digest : Line) :
    (logAppend s kind die arg digest).mem = s.mem := rfl

@[simp] theorem recheck_mem (s : State) : (recheck s).1.mem = s.mem := by
  simp only [recheck]
  repeat' split
  all_goals simp

end Sys2Proof.Machine
end

section
/-! PROOF. Memory under start-up: a function leaves memory alone, or keeps it canonical. -/

namespace Sys2Proof.Machine

@[simp] theorem showFuses_mem (s : State) : (showFuses s).mem = s.mem := rfl

@[simp] theorem coldStart_mem (s : State) : (coldStart s).mem = s.mem := rfl

@[simp] theorem keepCurrent_mem (old s : State) : (keepCurrent old s).mem = s.mem :=
  mem_foldl _ (fun s d => setFld_mem s d _ _) _ _

@[simp] theorem coldReset_mem (s : State) : (coldReset s).mem = s.mem := by
  simp only [coldReset]
  rw [coldStart_mem, keepCurrent_mem]

@[simp] theorem railsUp_mem (s : State) : (railsUp s).mem = s.mem := by
  simp [railsUp]

@[simp] theorem powerOn_mem (s : State) (straps : BitVec 3) : (powerOn s straps).mem = s.mem := by
  unfold powerOn
  split <;> simp

@[simp] theorem memWf_powerLoss (s : State) (h : memWf s.mem = true) :
    memWf (powerLoss s).mem = true := by
  simp [powerLoss, h]

@[simp] theorem rstAssert_mem (s : State) : (rstAssert s).mem = s.mem := by
  simp [rstAssert, apply_ite State.mem]

@[simp] theorem rstRelease_mem (s : State) : (rstRelease s).mem = s.mem := by
  unfold rstRelease
  all_goals simp [apply_ite State.mem]

@[simp] theorem unitsUp_mem (s : State) (die : Nat) : (unitsUp s die).mem = s.mem := by
  unfold unitsUp
  repeat' split
  all_goals rfl

@[simp] theorem surveyCapacity_mem (s : State) (pass : Nat) : (surveyCapacity s pass).mem = s.mem := rfl

@[simp] theorem surveyKsl_mem (s : State) (x : Nat × BitVec 2 × BitVec 10 × BitVec 8) :
    (surveyKsl s x).mem = s.mem := by
  unfold surveyKsl
  split <;> rfl

@[simp] theorem memWf_surveyRun (s : State) (r : Survey) (h : memWf s.mem = true) :
    memWf (surveyRun s r).mem = true := by
  have dies : memWf ((List.range 2).foldl (fun s g =>
      if r.guestBad.getLsbD g then setFldAt s 0 R.HUB_COL_CTL_KILLED g 1 else s)
      (((List.range 32).filter (bitAt (surveyPass r))).foldl unitsUp (surveyCapacity (setFld (logAppend
        (modBoot s fun b => { b with pwrGood := [0, 5, 6, 7, 8, 9, 10, 13].all (bitAt (surveyPass r)) })
        1 0 0 (bytesLine Config.bootRom)) 0 R.HUB_DIE_MAP_IN_SERVICE (surveyPass r)) (surveyPass r)))).mem = true :=
    memWf_foldl _ (fun s g hs => memWf_ite (by rwa [setFldAt_mem]) hs) _ _
      (memWf_foldl _ (fun s d hs => by rwa [unitsUp_mem]) _ _ (by simpa using h))
  refine memWf_ite (by simpa using h) ?_
  refine (congrArg memWf (setBootState_mem _ _)).trans (memWf_foldl _ (fun s d hs => by rwa [logAppend_mem]) _ _ ?_)
  rw [logAppend_mem]
  refine memWf_foldl _ (fun s x hs => by rwa [surveyKsl_mem]) _ _ ?_
  refine memWf_foldl _ (fun s x hs => memWf_retireRid _ _ _ hs) _ _ ?_
  refine memWf_foldl _ (fun s x hs => memWf_ridgeRetire _ _ _ _ hs) _ _ ?_
  exact (congrArg memWf (modBoot_mem _ _)).trans dies

@[simp] theorem memWf_siteSurvey (s : State) (r : Survey) (h : memWf s.mem = true) :
    memWf (siteSurvey s r).mem = true := by
  unfold siteSurvey
  split <;> simp [h]

@[simp] theorem surveyTimeout_mem (s : State) (coolant : Bool) : (surveyTimeout s coolant).mem = s.mem := by
  unfold surveyTimeout
  split <;> simp

@[simp] theorem imageSelect_mem (s : State) : (imageSelect s).mem = s.mem := by
  have logged (l : List ImgSection) (c : List Byte) (s : State) :
      (l.foldl (fun s x => logAppend s 5 0 x.type (Config.sha512 (imgBytes c x.offset x.size))) s).mem = s.mem :=
    mem_foldl _ (fun s x => logAppend_mem ..) _ _
  simp only [imageSelect]
  repeat' split
  all_goals simp [logged]

@[simp] theorem memWf_portTrigger (s : State) (die off width val : Nat) (h : memWf s.mem = true) :
    memWf (portTrigger s die off width val).mem = true := by
  simp only [portTrigger]
  repeat' split
  all_goals simp [h]

@[simp] theorem memWf_bootWrite (s : State) (r : RegRec) (h : memWf s.mem = true) :
    memWf (bootWrite s r).mem = true := by
  unfold bootWrite
  split <;> simp [h]

@[simp] theorem memWf_bootBlocks (rs : List RegRec) (pick : Nat → Bool) (s : State) (die : Nat)
    (h : memWf s.mem = true) :
    memWf (bootBlocks rs pick s die).mem = true := by
  unfold bootBlocks
  all_goals simp +contextual [memWf_foldl, h]

@[simp] theorem fabPortsStart_mem (s : State) (die : Nat) : (fabPortsStart s die).mem = s.mem := by
  simp [fabPortsStart, mem_foldl]

@[simp] theorem memWf_buildClaims (s : State) (rs : List RegRec) (h : memWf s.mem = true) :
    memWf (buildClaims s rs).mem = true :=
  memWf_foldl _ (fun s _ hs => memWf_filter _ s.mem hs) _ _ h

@[simp] theorem blowFuses_mem (s : State) : (blowFuses s).mem = s.mem := by
  unfold blowFuses
  split <;> rfl

/-- Register blocks of the boot image. -/
theorem memWf_bootDies (rs : List RegRec) (pick : Nat → Bool) (l : List Nat) {s : State} (h : memWf s.mem = true) :
    memWf (l.foldl (bootBlocks rs pick) s).mem = true :=
  memWf_foldl _ (fun s die hs => memWf_bootBlocks rs pick s die hs) _ _ h

@[simp] theorem memWf_bootSteps (s : State) (h : memWf s.mem = true) : memWf (bootSteps s).mem = true := by
  refine memWf_bootBlocks _ _ _ _ (memWf_kslEnable _ _ _ (memWf_kslEnable _ _ _
    (memWf_foldl _ (fun s r hs => memWf_bootWrite _ _ hs) _ _ ?_)))
  rw [treelineCommit_mem]
  refine memWf_bootBlocks _ _ _ _ (memWf_foldl _ (fun s die hs => ?_) _ _ (memWf_bootDies _ _ _ ?_))
  · exact memWf_ite (by simpa using hs) hs
  · exact memWf_ite (memWf_buildClaims _ _ (memWf_bootDies _ _ _ (memWf_bootDies _ _ _ h)))
      (memWf_bootDies _ _ _ (memWf_bootDies _ _ _ h))

@[simp] theorem memWf_bootSequence (s : State) (h : memWf s.mem = true) :
    memWf (bootSequence s).mem = true := by
  unfold bootSequence
  split <;> simp [apply_ite State.mem, h]

@[simp] theorem bootTimeout_mem (s : State) : (bootTimeout s).mem = s.mem := by
  unfold bootTimeout
  split <;> simp

@[simp] theorem fabTimeout_mem (s : State) : (fabTimeout s).mem = s.mem := by
  unfold fabTimeout
  split <;> simp

end Sys2Proof.Machine
end

section
/-! PROOF. Memory under the lane instructions: a function leaves memory alone, or keeps it canonical. -/

namespace Sys2Proof.Machine

@[simp] theorem laneWrite_mem (s : State) (sp slot vd pred : Nat) (pneg : Bool) (f : Group → Nat → W32) (g : Group) :
    (laneWrite s sp slot vd pred pneg f g).mem = s.mem := rfl

@[simp] theorem predWrite_mem (s : State) (sp slot p pred : Nat) (pneg : Bool) (f : Group → Nat → Bool) (g : Group) :
    (predWrite s sp slot p pred pneg f g).mem = s.mem := rfl

@[simp] theorem memWf_intReg (s : State) (sp slot : Nat) (w : W64) (h : memWf s.mem = true) :
    memWf (intReg s sp slot w).mem = true := by
  unfold intReg
  all_goals simp [apply_ite State.mem, h]

@[simp] theorem memWf_intImm (s : State) (sp slot : Nat) (w : W64) (h : memWf s.mem = true) :
    memWf (intImm s sp slot w).mem = true := by
  simp [intImm, h]

@[simp] theorem memWf_fpReg (s : State) (sp slot : Nat) (w : W64) (h : memWf s.mem = true) :
    memWf (fpReg s sp slot w).mem = true := by
  unfold fpReg
  all_goals simp [apply_ite State.mem, h]

@[simp] theorem memWf_fpImm (s : State) (sp slot : Nat) (w : W64) (h : memWf s.mem = true) :
    memWf (fpImm s sp slot w).mem = true := by
  simp [fpImm, h]

@[simp] theorem memWf_specialFunction (s : State) (sp slot : Nat) (w : W64) (h : memWf s.mem = true) :
    memWf (specialFunction s sp slot w).mem = true := by
  simp [specialFunction, h]

@[simp] theorem memWf_cvt (s : State) (sp slot : Nat) (w : W64) (h : memWf s.mem = true) :
    memWf (cvt s sp slot w).mem = true := by
  simp [cvt, h]

@[simp] theorem memWf_br (s : State) (sp slot : Nat) (w : W64) (h : memWf s.mem = true) :
    memWf (br s sp slot w).mem = true := by
  unfold br
  all_goals simp [apply_ite State.mem, h]

@[simp] theorem memWf_brC (s : State) (sp slot : Nat) (w w2 : W64) (h : memWf s.mem = true) :
    memWf (brC s sp slot w w2).mem = true :=
  memWf_classIssue (fun g => by dsimp only; repeat' split
                                all_goals simp [h]) h

@[simp] theorem memWf_groupEnd (s : State) (sp slot : Nat) (g : Group) (h : memWf s.mem = true) :
    memWf (groupEnd s sp slot g).mem = true := by
  simp [groupEnd, h]

@[simp] theorem memWf_exitLanes (s : State) (sp slot : Nat) (w : W64) (h : memWf s.mem = true) :
    memWf (exitLanes s sp slot w).mem = true :=
  memWf_classIssue (fun g => by dsimp only; split <;> simp [h]) h

@[simp] theorem memWf_nopLane (s : State) (sp slot : Nat) (w : W64) (h : memWf s.mem = true) :
    memWf (nopLane s sp slot w).mem = true := by
  simp [nopLane, h]

@[simp] theorem memWf_movSp (s : State) (sp slot : Nat) (w : W64) (h : memWf s.mem = true) :
    memWf (movSp s sp slot w).mem = true :=
  memWf_classIssue (fun g => by split <;> simp [h]) h

@[simp] theorem memWf_laneShfl (s : State) (sp slot : Nat) (w : W64) (h : memWf s.mem = true) :
    memWf (laneShfl s sp slot w).mem = true := by
  simp [laneShfl, h]

@[simp] theorem memWf_laneVote (s : State) (sp slot : Nat) (w : W64) (h : memWf s.mem = true) :
    memWf (laneVote s sp slot w).mem = true := by
  unfold laneVote
  all_goals simp [apply_ite State.mem, h]

end Sys2Proof.Machine
end

section
/-! PROOF. Memory under resets and register writes: a function leaves memory alone, or keeps it canonical. -/

namespace Sys2Proof.Machine

@[simp] theorem memWf_poolWarm (s : State) (h : memWf s.mem = true) : memWf (poolWarm s).mem = true := by
  simp only [poolWarm, modTiers_mem]
  refine memWf_foldl _ (fun s m hs => ?_) _ _ h
  repeat' split
  all_goals simp [hs]

@[simp] theorem epochRise_mem (s : State) (p : Nat) : (epochRise s p).mem = s.mem := rfl

@[simp] theorem resetsWarm_mem (s : State) : (resetsWarm s).mem = s.mem := by
  simp [resetsWarm, mem_foldl]

/-- The units that a warm reset reaches are empty. -/
theorem memWf_unitsWarm (s : State) (h : memWf s.mem = true) :
    memWf ((List.range 32).foldl regWarm (epochRise (epochRise ((List.range 2).foldl (fun s g => siteEmpty s g)
      (pwrWarm (fabWarmReset (poolWarm (resetsWarm (cachesFlush s)))))) 0) 1)).mem = true := by
  rw [mem_foldl _ regWarm_mem, epochRise_mem, epochRise_mem, mem_foldl _ fun s g => siteEmpty_mem ..]
  simp [h]

@[simp] theorem memWf_warmRun (s : State) (h : memWf s.mem = true) : memWf (warmRun s).mem = true := by
  have warm := memWf_unitsWarm s h
  revert warm
  simp only [warmRun, setBootState_mem]
  generalize (List.range 32).foldl regWarm _ = t
  exact fun ht => memWf_journalFlush _ _ ht

@[simp] theorem memWf_warmReset (s : State) (h : memWf s.mem = true) :
    memWf (warmReset s).mem = true := by
  simp only [warmReset]
  split <;> simp [h]

@[simp] theorem resetRefused_mem (s : State) : (resetRefused s).mem = s.mem := rfl

@[simp] theorem memWf_resetWhole (s : State) (ctx : BitVec 16) (act : State → State)
    (hact : ∀ s, memWf s.mem = true → memWf (act s).mem = true) (h : memWf s.mem = true) :
    memWf (resetWhole s ctx act).mem = true := by
  unfold resetWhole
  repeat' split
  all_goals simp [h, hact]

@[simp] theorem memWf_resetPart (s : State) (refused : Bool) (act : State → State)
    (hact : ∀ s, memWf s.mem = true → memWf (act s).mem = true) (h : memWf s.mem = true) :
    memWf (resetPart s refused act).mem = true := by
  unfold resetPart
  repeat' split
  all_goals simp [h, hact]

@[simp] theorem memWf_dieResetBegin (s : State) (die : Nat) (h : memWf s.mem = true) :
    memWf (dieResetBegin s die).mem = true := by
  unfold dieResetBegin
  repeat' split
  all_goals simp [h]

@[simp] theorem memWf_resetDie (s : State) (ctx : BitVec 16) (die : Nat) (h : memWf s.mem = true) :
    memWf (resetDie s ctx die).mem = true := by
  unfold resetDie
  all_goals simp +contextual [h]

@[simp] theorem memWf_writebackTimeout (s : State) (die : Nat) (h : memWf s.mem = true) :
    memWf (writebackTimeout s die).mem = true := by
  unfold writebackTimeout
  repeat' split
  all_goals simp [h]

@[simp] theorem dieEvent_mem (s : State) (kind die : Nat) : (dieEvent s kind die).mem = s.mem := by
  simp [dieEvent]

@[simp] theorem dieResetOver_mem (s : State) (e : DieReset) (kind die : Nat) :
    (dieResetOver s e kind die).mem = s.mem := by
  unfold dieResetOver
  split <;> simp

@[simp] theorem memWf_dieBack (s : State) (die : Nat) (h : memWf s.mem = true) :
    memWf (dieBack s die).mem = true := by
  unfold dieBack
  split <;> simp [h]

@[simp] theorem memWf_dieResetDone (s : State) (die : Nat) (pass : Bool) (h : memWf s.mem = true) :
    memWf (dieResetDone s die pass).mem = true := by
  simp only [dieResetDone]
  repeat' split
  all_goals simp [h]

@[simp] theorem memWf_resetContext (s : State) (ctx target : BitVec 16) (h : memWf s.mem = true) :
    memWf (resetContext s ctx target).mem = true := by
  unfold resetContext
  all_goals simp +contextual [h]

@[simp] theorem memWf_ctxUnload (s : State) (ctx : BitVec 16) (h : memWf s.mem = true) :
    memWf (ctxUnload s ctx).mem = true := by
  unfold ctxUnload
  all_goals simp +contextual [h]

@[simp] theorem ctxResetEnd_mem (s : State) : (ctxResetEnd s).mem = s.mem := by
  unfold ctxResetEnd
  repeat' split
  all_goals simp

@[simp] theorem memWf_contextResetDone (s : State) (h : memWf s.mem = true) :
    memWf (contextResetDone s).mem = true := by
  simp only [contextResetDone]
  repeat' split
  all_goals simp [h]

@[simp] theorem secRequest_mem (s : State) (ctx : BitVec 16) (kind addr bufk : Nat) :
    (secRequest s ctx kind addr bufk).mem = s.mem := by
  unfold secRequest
  repeat' split
  all_goals rfl

@[simp] theorem secEnd_mem (s : State) (result : Nat) : (secEnd s result).mem = s.mem := rfl

@[simp] theorem secCheck_mem (s : State) (r : SecReq) (a n : Nat) (write : Bool) :
    (secCheck s r a n write).1.mem = s.mem := by
  simp only [secCheck]
  split <;> simp

@[simp] theorem memWf_secAnswer (s : State) (r : SecReq) (buf : Nat) (b : List Byte) (h : memWf s.mem = true) :
    memWf (secAnswer s r buf b).mem = true := by
  simp only [secAnswer]
  repeat' split
  all_goals simp [h]

@[simp] theorem memWf_secServe (s : State) (r : SecReq) (h : memWf s.mem = true) :
    memWf (secServe s r).mem = true := by
  simp only [secServe]
  repeat' split
  all_goals simp [h]

@[simp] theorem memWf_secComplete (s : State) (h : memWf s.mem = true) :
    memWf (secComplete s).mem = true := by
  simp only [secComplete]
  repeat' split
  all_goals simp [h]

@[simp] theorem memWf_hubTrigger (s : State) (off width val : Nat) (ctx : BitVec 16) (h : memWf s.mem = true) :
    memWf (hubTrigger s off width val ctx).mem = true := by
  unfold hubTrigger
  repeat' split
  all_goals simp +contextual [h]

@[simp] theorem memWf_cmdTrigger (s : State) (die off width val : Nat) (ctx : BitVec 16) (h : memWf s.mem = true) :
    memWf (cmdTrigger s die off width val ctx).mem = true := by
  unfold cmdTrigger
  repeat' split
  all_goals simp [h]

@[simp] theorem memWf_regWriteFull (s : State) (die off width val hw : Nat) (ctx : BitVec 16) (h : memWf s.mem = true) :
    memWf (regWriteFull s die off width val hw ctx).mem = true := by
  unfold regWriteFull
  repeat' split
  all_goals simp [h]

@[simp] theorem memWf_registerWrite (s : State) (die off width : Nat) (val hw : W64) (ctx : BitVec 16)
    (h : memWf s.mem = true) :
    memWf (registerWrite s die off width val hw ctx).mem = true := by
  simp only [registerWrite]
  repeat' split
  all_goals simp [h]

@[simp] theorem memWf_colRequest (s : State) (g : Nat) (ctx : BitVec 16) (off width : Nat) (write : Option W64)
    (h : memWf s.mem = true) :
    memWf (colRequest s g ctx off width write).mem = true := by
  unfold colRequest
  split <;> simp [h]

end Sys2Proof.Machine
end

section
/-! PROOF. Memory under the management endpoint: a function leaves memory alone, or keeps it canonical. -/

namespace Sys2Proof.Machine

@[simp] theorem memWf_downEnd (s : State) (h : memWf s.mem = true) :
    memWf (downEnd s).mem = true := by
  simp [downEnd, h]

@[simp] theorem memWf_drainDone (s : State) (h : memWf s.mem = true) :
    memWf (drainDone s).mem = true := by
  unfold drainDone
  split <;> simp [h]

@[simp] theorem dropOutbound_mem (s : State) : (dropOutbound s).mem = s.mem := rfl

@[simp] theorem memWf_drainTimeout (s : State) (h : memWf s.mem = true) : memWf (drainTimeout s).mem = true := by
  simp only [drainTimeout]
  split
  · exact h
  · refine memWf_downEnd _ ?_
    rw [dropOutbound_mem]
    exact memWf_foldl _ (fun s c hs => memWf_endCmd s c.1 5 0x0F hs) _ _ h

@[simp] theorem addressAssign_mem (s : State) (addr : BitVec 7) : (addressAssign s addr).mem = s.mem := by
  unfold addressAssign
  split <;> rfl

@[simp] theorem alertRead_mem (s : State) : (alertRead s).mem = s.mem := by
  unfold alertRead
  split <;> rfl

@[simp] theorem setEid_mem (s : State) (eid : BitVec 8) : (setEid s eid).mem = s.mem := by
  unfold setEid
  split <;> rfl

@[simp] theorem pldmReply_mem (s : State) (r : MgmtReply) : (pldmReply s r).mem = s.mem := by
  unfold pldmReply
  split <;> rfl

@[simp] theorem setCopy_mem (s : State) (b : Bool) (c : List Byte) : (setCopy s b c).mem = s.mem := rfl

@[simp] theorem firmwareUpdate_mem (s : State) (off : Nat) (b : List Byte) (last : Bool) :
    (firmwareUpdate s off b last).mem = s.mem := by
  unfold firmwareUpdate
  split <;> simp [apply_ite State.mem]

@[simp] theorem updateVerify_mem (s : State) : (updateVerify s).mem = s.mem := by
  unfold updateVerify
  split <;> rfl

@[simp] theorem jtagSet_mem (s : State) (i : JtagInstr) : (jtagSet s i).mem = s.mem := by
  unfold jtagSet
  split <;> rfl

@[simp] theorem jtagLow_mem (s : State) (i : JtagInstr) : (jtagLow s i).mem = s.mem := by
  simp [jtagLow]

end Sys2Proof.Machine
end

section
/-! PROOF. A command runs and answers a next state (O56, O57), and keeps memory canonical (O60). -/

namespace Sys2Proof.Machine

/-- An outcome that, where it is a next state, has canonical memory. -/
def KeepsMem (o : Host.Outcome State Fault Refusal) : Prop := ∀ t, o = .next t → memWf t.mem = true

theorem keepsMem_next {t : State} (h : memWf t.mem = true) : KeepsMem (.next t) := by
  rintro _ ⟨⟩
  exact h

theorem keepsMem_fault (f : Fault) : KeepsMem (.fault f) := by
  rintro t ⟨⟩

theorem keepsMem_ite {p : Prop} [Decidable p] {a b : Host.Outcome State Fault Refusal} (ha : KeepsMem a)
    (hb : KeepsMem b) :
    KeepsMem (if p then a else b) := by
  split
  · exact ha
  · exact hb

/-- Memory stays canonical under every command: the commands that name an operation of their own have its lemma, the rest
are conditions and wrappers around such operations. -/
theorem keepsMem_exec (c : Instr) (s : State) (h : memWf s.mem = true) : KeepsMem (exec c s) := by
  cases c
  case inputSample =>
    exact keepsMem_ite (keepsMem_fault _) (keepsMem_next (memWf_powered _ _ (fun s hs => by simp [hs]) h))
  case inputVoltageTrip =>
    refine keepsMem_ite (keepsMem_fault _) (keepsMem_next (memWf_powered _ _ (fun s hs => ?_) h))
    exact memWf_ite (memWf_railsOff _ hs) hs
  case cboClean => exact keepsMem_next (memWf_hartClean _ _ _ _ _ (fun s l hs => by simp [hs]) h)
  case cboFlush => exact keepsMem_next (memWf_hartClean _ _ _ _ _ (fun s l hs => by simp [hs]) h)
  case coolantSample => exact keepsMem_next (memWf_powered _ _ (fun s hs => by simp [hs]) h)
  case resetWarm => exact keepsMem_next (memWf_resetWhole _ _ _ (fun s hs => by simp [hs]) h)
  case guestCacheableRequest => exact keepsMem_next (memWf_ite h (by simp [h]))
  case pldmWarmReset => exact keepsMem_next (memWf_ite (by simp [h]) h)
  case pldmPowerdown => exact keepsMem_next (memWf_ite (by simp [h]) h)
  case jtagSamplePreload => exact keepsMem_next (memWf_ite (by simp [h]) h)
  all_goals exact keepsMem_next (by simp [h])

/-- Settles O60: every command's effect keeps memory canonical, and so does the passing of time. -/
theorem everyStepKeepsMemoryCanonical : Obligations.EveryStepKeepsMemoryCanonical := by
  intro s t h e
  unfold step at e
  split at e
  · cases e
    exact h
  · next c cs _ => exact keepsMem_exec c { s with pending := cs } h t e

/-- Settles O57: every arm of `exec` is a next state but the two that report an input voltage. -/
theorem everyCommandCompletes : Obligations.EveryCommandCompletes := by
  intro c s hsample htrip
  cases c
  case inputSample v i p b => exact ⟨_, if_neg (Nat.not_lt.mpr (hsample v i p b rfl))⟩
  case inputVoltageTrip v => exact ⟨_, if_neg (Nat.not_lt.mpr (htrip v rfl))⟩
  all_goals exact ⟨_, rfl⟩

/-- Settles O56, by the two cases of the queue. -/
theorem stepRunsTheFrontCommand : Obligations.StepRunsTheFrontCommand := by
  refine ⟨fun c cs s hq => ?_, fun s hq => ?_⟩
  · simp only [step, hq]
  · simp only [step, hq, tick]

end Sys2Proof.Machine
end

section
/-! PROOF. The commands of HUB_QUEUE_CMD (R345 to R347, R357 to R359). -/

namespace Sys2Proof.Machine

theorem queueCmd_of_busy {s : State} (busy : fld s 0 R.HUB_QUEUE_STATUS_BUSY = 1) (refused : Bool) (act : State → State) :
    queueCmd s refused act = setFld s 0 R.HUB_QUEUE_STATUS_DROPPED 1 := if_pos busy

theorem queueCmd_of_refused {s : State} (idle : fld s 0 R.HUB_QUEUE_STATUS_BUSY = 0) {refused : Bool} (bad : refused = true)
    (act : State → State) : queueCmd s refused act = setFld s 0 R.HUB_QUEUE_STATUS_RESULT 0x0F := by
  simp [queueCmd, idle, bad]

theorem queueCmd_of_allowed {s : State} (idle : fld s 0 R.HUB_QUEUE_STATUS_BUSY = 0) {refused : Bool}
    (good : refused = false)
    (act : State → State) : queueCmd s refused act = act (setFld s 0 R.HUB_QUEUE_STATUS_RESULT 0) := by
  simp [queueCmd, idle, good]

/-- A descriptor that is taken makes its queue active. -/
theorem state_of_readQueue {s : State} {n : Nat} {y : QueueSt} (h : readQueue s n = some y) : y.state = 1 := by
  simp only [readQueue] at h
  split at h
  · cases h
  · cases h
    rfl

/-! ## The commands of a queue that halts -/

/-- A queue but for the count of its open commands, which the end of a command lowers. -/
def QueueSt.sansOpened (q : QueueSt) : QueueSt := { q with opened := 0 }

theorem queue_journalPut (s : State) (r : JRec) (n : Nat) : (journalPut s r).queue n = s.queue n := rfl

theorem queue_journalCarry (s : State) (n : Nat) : (journalCarry s).queue n = s.queue n := by
  simp only [journalCarry]
  repeat' split
  all_goals rfl

theorem queue_journalFlush (rs : List JRec) (s : State) (n : Nat) : (journalFlush rs s).queue n = s.queue n := by
  induction rs generalizing s with
  | nil => rfl
  | cons r rs ih =>
    rw [journalFlush]
    split
    · rw [ih, queue_journalPut, queue_journalCarry]
    · rfl

/-- A record changes no queue. -/
theorem queue_journal (s : State) (cid : Nat) (event : BitVec 3) (status : Byte) (n : Nat) :
    (journal s cid event status).queue n = s.queue n := by
  unfold journal
  split
  · rfl
  · exact queue_journalFlush _ _ _

/-- The end of a command changes of a queue the count of its open commands alone. -/
theorem sansOpened_endCmd (s : State) (cid : Nat) (event : BitVec 3) (status : Byte) (n : Nat) :
    ((endCmd s cid event status).queue n).sansOpened = (s.queue n).sansOpened := by
  unfold endCmd
  split
  · rfl
  · next c _ =>
    split
    · rfl
    · rw [queue_journal]
      by_cases own : n = c.queue.toNat
      · rw [own, queue_modQueue_self]
        rfl
      · rw [queue_modQueue_ne _ _ own]
        rfl

/-- A command of queue `q` that is accepted and not started. -/
def AcceptedIn (s : State) (q : BitVec 18) (cid : Nat) : Prop := ∃ c, s.cmd? cid = some c ∧ c.queue = q ∧ c.st = .accepted

theorem AcceptedIn.of_sansRecord {s t : State} {q : BitVec 18} {cid : Nat} (h : AcceptedIn t q cid)
    (same : (t.cmd? cid).map Cmd.sansRecord = (s.cmd? cid).map Cmd.sansRecord) : AcceptedIn s q cid := by
  obtain ⟨c, command, queue, st⟩ := h
  rw [command] at same
  obtain ⟨d, found, alike⟩ := Option.map_eq_some_iff.mp same.symm
  exact ⟨d, found, (congrArg Cmd.queue alike).trans queue, (congrArg Cmd.st alike).trans st⟩

/-- A command that is accepted after the end of one was so before, and is another. -/
theorem AcceptedIn.of_endCmd {s : State} {q : BitVec 18} {cid k : Nat} {event : BitVec 3} {status : Byte}
    (h : AcceptedIn (endCmd s cid event status) q k) : AcceptedIn s q k ∧ k ≠ cid := by
  have other : k = cid → ∀ c, s.cmd? cid = some c → c.st ≠ .accepted → AcceptedIn s q k → False := by
    rintro rfl c command st ⟨d, found, -, accepted⟩
    cases command.symm.trans found
    exact st accepted
  unfold endCmd at h
  split at h
  · next none =>
    refine ⟨h, ?_⟩
    rintro rfl
    obtain ⟨c, command, -⟩ := h
    cases none.symm.trans command
  · next c command =>
    split at h
    · next st => exact ⟨h, fun same => other same c command (by simp [st]) h⟩
    · have before := h.of_sansRecord (cmd?_journal_sansRecord _ _ _ _ _)
      obtain ⟨d, found, queue, st⟩ := before
      have different : k ≠ cid := by
        rintro rfl
        cases (cmd?_setCmd_self s k { c with st := .ended status, running := false }).symm.trans found
        cases st
      exact ⟨⟨d, (cmd?_setCmd_ne s _ different).symm.trans found, queue, st⟩, different⟩

/-- Of commands that end one after another, none is accepted. -/
theorem AcceptedIn.of_ends {q : BitVec 18} {k : Nat} {event : BitVec 3} {status : Byte} (l : List (Nat × Cmd)) {s : State}
    (h : AcceptedIn (l.foldl (fun s c => endCmd s c.1 event status) s) q k) : AcceptedIn s q k ∧ ∀ c ∈ l, k ≠ c.1 := by
  induction l generalizing s with
  | nil => exact ⟨h, by simp⟩
  | cons c l ih =>
    obtain ⟨after, others⟩ := ih h
    obtain ⟨before, here⟩ := after.of_endCmd
    exact ⟨before, by simpa [here] using others⟩

/-- A queue that has halted. -/
def QueueSt.halted (q : QueueSt) (status : Byte) : QueueSt :=
  { q with state := 2, haltStatus := status, fetched := none, rereads := none, ringBusy := false, ringGot := [] }

theorem haltQueue_of_not_active {s : State} {n : Nat} (inactive : (s.queue n).state ≠ 1) (status : Byte) (tags : Nat × Nat) :
    haltQueue s n status tags = s := if_pos inactive

/-- A queue that halts stops fetching, and keeps all else but the count of its open commands. -/
theorem sansOpened_haltQueue {s : State} {n : Nat} (active : (s.queue n).state = 1) (status : Byte) (tags : Nat × Nat) :
    ((haltQueue s n status tags).queue n).sansOpened = ((s.queue n).halted status).sansOpened := by
  have stopped : ((modQueue s n (·.halted status)).queue n).sansOpened = ((s.queue n).halted status).sansOpened := by
    rw [queue_modQueue_self]
  have ended : ∀ (l : List (Nat × Cmd)) (event : BitVec 3) (u : State),
      ((l.foldl (fun s c => endCmd s c.1 event status) u).queue n).sansOpened = (u.queue n).sansOpened :=
    fun l event u => foldl_read_of_keeps (read := fun s : State => (s.queue n).sansOpened)
      (fun c _ s => sansOpened_endCmd s c.1 event status n) u
  simp only [haltQueue, active, ne_eq, not_true_eq_false, if_false]
  split
  · exact stopped
  · split
    · exact (ended _ _ _).trans stopped
    · exact (ended _ _ _).trans stopped

/-- A submission queue that halts has no command that is accepted and not started. -/
theorem not_acceptedIn_haltQueue {s : State} {q : BitVec 18} (active : (s.queue q.toNat).state = 1)
    (submission : (s.queue q.toNat).kind = 0) (status : Byte) (tags : Nat × Nat) (cid : Nat) :
    ¬ AcceptedIn (haltQueue s q.toNat status tags) q cid := by
  have ended : ∀ (event : BitVec 3) (u : State),
      ¬ AcceptedIn ((u.qs.cmds.filter fun c => c.2.queue.toNat == q.toNat && c.2.st == .accepted).foldl
        (fun s c => endCmd s c.1 event status) u) q cid := by
    intro event u after
    obtain ⟨⟨c, command, queue, st⟩, others⟩ := AcceptedIn.of_ends _ after
    exact others (cid, c) (List.mem_filter.mpr ⟨mem_of_tget? command, by simp [queue, st]⟩) rfl
  simp only [haltQueue, active, submission, ne_eq, not_true_eq_false, if_false]
  split
  · exact ended _ _
  · exact ended _ _

/-! ## The commands of the window -/

/-- What HUB_QUEUE_STATE shows of a queue. -/
def queueReport (q : QueueSt) : List (FRef × Nat) :=
  [(R.HUB_QUEUE_STATE_STATE, q.state), (R.HUB_QUEUE_STATE_KIND, q.kind), (R.HUB_QUEUE_STATE_HALT_STATUS, q.haltStatus.toNat),
    (R.HUB_QUEUE_STATE_PHASE, q.pos / q.size), (R.HUB_QUEUE_STATE_INDEX, q.pos % q.size),
    (R.HUB_QUEUE_STATE_OPEN, if q.kind = 2 then 0 else q.opened)]

theorem queueReport_apart (q : QueueSt) : ((queueReport q).map Prod.fst).Pairwise FRef.Apart := by
  have fields : (queueReport q).map Prod.fst = [R.HUB_QUEUE_STATE_STATE, R.HUB_QUEUE_STATE_KIND,
    R.HUB_QUEUE_STATE_HALT_STATUS, R.HUB_QUEUE_STATE_PHASE, R.HUB_QUEUE_STATE_INDEX, R.HUB_QUEUE_STATE_OPEN] := rfl
  rw [fields]
  decide

/-- A query of an idle window shows the queue in HUB_QUEUE_STATE. -/
theorem queueQuery_of_idle {s : State} (idle : fld s 0 R.HUB_QUEUE_STATUS_BUSY = 0) (n : Nat) :
    queueQuery s n = setFlds 0 (queueReport (s.queue n)) (setFld s 0 R.HUB_QUEUE_STATUS_RESULT 0) :=
  queueCmd_of_allowed idle rfl _

theorem QueueSt.size_pos (q : QueueSt) : 0 < q.size := Nat.two_pow_pos _

theorem queueEnable_of_busy {s : State} (busy : fld s 0 R.HUB_QUEUE_STATUS_BUSY = 1) (n : Nat) :
    queueEnable s n = setFld s 0 R.HUB_QUEUE_STATUS_DROPPED 1 := by
  simp only [queueEnable, queueCmd_of_busy busy]

theorem queueHalt_of_busy {s : State} (busy : fld s 0 R.HUB_QUEUE_STATUS_BUSY = 1) (n : Nat) :
    queueHalt s n = setFld s 0 R.HUB_QUEUE_STATUS_DROPPED 1 := queueCmd_of_busy busy _ _

theorem queueResume_of_busy {s : State} (busy : fld s 0 R.HUB_QUEUE_STATUS_BUSY = 1) (n : Nat) :
    queueResume s n = setFld s 0 R.HUB_QUEUE_STATUS_DROPPED 1 := by
  simp only [queueResume, queueCmd_of_busy busy]

theorem queueDisable_of_busy {s : State} (busy : fld s 0 R.HUB_QUEUE_STATUS_BUSY = 1) (n : Nat) :
    queueDisable s n = setFld s 0 R.HUB_QUEUE_STATUS_DROPPED 1 := by
  simp only [queueDisable, queueCmd_of_busy busy]

theorem queueQuery_of_busy {s : State} (busy : fld s 0 R.HUB_QUEUE_STATUS_BUSY = 1) (n : Nat) :
    queueQuery s n = setFld s 0 R.HUB_QUEUE_STATUS_DROPPED 1 := queueCmd_of_busy busy _ _

section Idle
variable {s : State} (idle : fld s 0 R.HUB_QUEUE_STATUS_BUSY = 0) {n : Nat}
include idle

/-- An idle window takes the descriptor of a disabled queue. -/
theorem queueEnable_of_descriptor {y : QueueSt} (disabled : (s.queue n).state = 0) (descriptor : readQueue s n = some y) :
    queueEnable s n = modQueue (setFld s 0 R.HUB_QUEUE_STATUS_RESULT 0) n fun _ => y := by
  simp only [queueEnable, descriptor]
  exact queueCmd_of_allowed idle (by simp [disabled]) _

theorem queueEnable_of_refused (bad : (s.queue n).state ≠ 0 ∨ readQueue s n = none) :
    queueEnable s n = setFld s 0 R.HUB_QUEUE_STATUS_RESULT 0x0F := by
  simp only [queueEnable]
  exact queueCmd_of_refused idle (by simpa using bad) _

theorem queueHalt_of_active (active : (s.queue n).state = 1) :
    queueHalt s n = haltQueue (setFld s 0 R.HUB_QUEUE_STATUS_RESULT 0) n 0x0F (0, 0) :=
  queueCmd_of_allowed idle (by simp [active]) _

theorem queueHalt_of_refused (bad : (s.queue n).state ≠ 1) : queueHalt s n = setFld s 0 R.HUB_QUEUE_STATUS_RESULT 0x0F :=
  queueCmd_of_refused idle (by simpa using bad) _

/-- An idle window makes a halted queue active, which holds no doorbell. -/
theorem queueResume_of_halted (halted : (s.queue n).state = 2) (stays : (s.queue n).disabling = false)
    (bell : (s.queue n).heldBell = none) : queueResume s n =
      modQueue (setFld s 0 R.HUB_QUEUE_STATUS_RESULT 0) n fun q => { q with state := 1, heldBell := none } := by
  simp only [queueResume, bell]
  exact queueCmd_of_allowed idle (by simp [halted, stays]) _

theorem queueResume_of_refused (bad : (s.queue n).state ≠ 2) :
    queueResume s n = setFld s 0 R.HUB_QUEUE_STATUS_RESULT 0x0F := by
  simp only [queueResume]
  exact queueCmd_of_refused idle (by simp [bad]) _

/-- An idle window begins to disable a submission queue. -/
theorem queueDisable_of_enabled (enabled : (s.queue n).state ≠ 0) (stays : (s.queue n).disabling = false)
    (submission : (s.queue n).kind = 0) : queueDisable s n =
      setFld (modQueue (haltQueue (setFld s 0 R.HUB_QUEUE_STATUS_RESULT 0) n 0x0F (0, 0)) n
        fun q => { q with disabling := true })
        0 R.HUB_QUEUE_STATUS_BUSY 1 := by
  simp only [queueDisable]
  exact queueCmd_of_allowed idle (by simp [enabled, stays, submission]) _

theorem queueDisable_of_refused (bad : (s.queue n).state = 0) :
    queueDisable s n = setFld s 0 R.HUB_QUEUE_STATUS_RESULT 0x0F := by
  simp only [queueDisable]
  exact queueCmd_of_refused idle (by simp [bad]) _

end Idle

/-- Settles O31: each command by its cases, with what a halt leaves and what a query shows as lemmas. -/
theorem queueCommandsChangeTheQueueState : Obligations.QueueCommandsChangeTheQueueState := by
  intro s q n x dropped refused
  refine ⟨fun busy => ?busy, fun idle => ⟨?enableBad, ?haltBad, ?resumeBad, ?disableBad, ?enable, ?halt, ?resume, ?disable,
    ?query⟩, ?done, ?notDone⟩
  case busy =>
    exact ⟨congrArg Host.Outcome.next (queueEnable_of_busy busy n), congrArg Host.Outcome.next (queueHalt_of_busy busy n),
      congrArg Host.Outcome.next (queueResume_of_busy busy n), congrArg Host.Outcome.next (queueDisable_of_busy busy n),
      congrArg Host.Outcome.next (queueQuery_of_busy busy n)⟩
  case enableBad => exact fun bad => congrArg Host.Outcome.next (queueEnable_of_refused idle bad)
  case haltBad => exact fun bad => congrArg Host.Outcome.next (queueHalt_of_refused idle bad)
  case resumeBad => exact fun bad => congrArg Host.Outcome.next (queueResume_of_refused idle bad)
  case disableBad => exact fun bad => congrArg Host.Outcome.next (queueDisable_of_refused idle bad)
  case enable =>
    intro y disabled descriptor
    refine ⟨_, congrArg Host.Outcome.next (queueEnable_of_descriptor idle disabled descriptor), queue_modQueue_self ..,
      state_of_readQueue descriptor, fun k other => queue_modQueue_ne _ _ other, ?_, fun _ => rfl, rfl⟩
    exact fld_setFld_self s 0 R.HUB_QUEUE_STATUS_RESULT 0 (by decide)
  case halt =>
    intro active
    have same := sansOpened_haltQueue (s := setFld s 0 R.HUB_QUEUE_STATUS_RESULT 0) (n := n) active 0x0F (0, 0)
    refine ⟨_, congrArg Host.Outcome.next (queueHalt_of_active idle active), congrArg QueueSt.state same,
      congrArg QueueSt.haltStatus same, congrArg QueueSt.fetched same, ?_⟩
    intro submission cid c command own accepted
    exact not_acceptedIn_haltQueue (s := setFld s 0 R.HUB_QUEUE_STATUS_RESULT 0) active submission 0x0F (0, 0) cid
      ⟨c, command, own, accepted⟩
  case resume =>
    intro halted stays bell
    refine ⟨_, congrArg Host.Outcome.next (queueResume_of_halted idle halted stays bell), ?_,
      fun k other => queue_modQueue_ne _ _ other, fun _ => rfl, rfl⟩
    rw [queue_modQueue_self]
  case disable =>
    intro enabled stays submission
    have started : x.state ≠ 0 := by rcases enabled with active | halted <;> omega
    have stopped : ((haltQueue (setFld s 0 R.HUB_QUEUE_STATUS_RESULT 0) n 0x0F (0, 0)).queue n).state = 2 := by
      rcases enabled with active | halted
      · exact congrArg QueueSt.state
          (sansOpened_haltQueue (s := setFld s 0 R.HUB_QUEUE_STATUS_RESULT 0) (n := n) active 0x0F (0, 0))
      · rw [haltQueue_of_not_active (s := setFld s 0 R.HUB_QUEUE_STATUS_RESULT 0) (halted ▸ by decide)]
        exact halted
    exact ⟨_, congrArg Host.Outcome.next (queueDisable_of_enabled idle started stays submission),
      congrArg QueueSt.disabling (queue_modQueue_self ..), (congrArg QueueSt.state (queue_modQueue_self ..)).trans stopped,
      fld_setFld_self _ 0 R.HUB_QUEUE_STATUS_BUSY 1 (by decide)⟩
  case query =>
    have shows := fun f v here fits => fld_setFlds_of_mem (f := f) (x := v) (queueReport_apart x) here fits 0
      (setFld s 0 R.HUB_QUEUE_STATUS_RESULT 0)
    refine ⟨_, congrArg Host.Outcome.next (queueQuery_of_idle idle n), ?_,
      (setFld_onlyRegs s 0 R.HUB_QUEUE_STATUS_RESULT 0).sameMemory.trans (sameMemory_setFlds ..), fun small => ?_, ?_,
      fun size pos => ⟨?_, ?_⟩⟩
    · rfl
    · exact shows _ _ (by simp [queueReport]) ⟨by decide, by decide, small⟩
    · exact shows _ _ (by simp [queueReport]) ⟨by decide, by decide, x.haltStatus.isLt⟩
    · have fits : x.size ≤ 2 ^ 24 := Nat.pow_le_pow_right (by decide) size
      exact shows _ _ (by simp [queueReport]) ⟨by decide, by decide, (Nat.mod_lt _ x.size_pos).trans_le fits⟩
    · exact shows _ _ (by simp [queueReport]) ⟨by decide, by decide, Nat.div_lt_of_lt_mul (show x.pos < x.size * 2 by omega)⟩
  case done =>
    intro leaving closed
    refine ⟨_, congrArg Host.Outcome.next (if_pos ⟨leaving, closed⟩), congrArg QueueSt.state (queue_modQueue_self ..),
      fld_setFld_self _ 0 R.HUB_QUEUE_STATUS_BUSY 0 (by decide), fun _ => rfl, rfl⟩
  case notDone =>
    exact fun stays => congrArg Host.Outcome.next (if_neg fun h => Bool.noConfusion (stays.symm.trans h.1))

end Sys2Proof.Machine
end

section
/-! PROOF. Doorbells, fetches, acceptance and hand-off of queue commands (R348 to R356). -/

namespace Sys2Proof.Machine

/-! ## Doorbells -/

/-- A doorbell that has come is taken, where the module runs and it did not come through a KSL port. -/
theorem doorbell_of_arrived {s : State} {q : BitVec 18} {ctx : BitVec 16} {val : W64} {src : Nat} (inside : src < 2 ^ 42)
    (runs : moduleStopped s = false)
    (arrived : s.net.find? (fun m => match m with | .doorbell a b c _ => a == q && b == ctx && c == val | _ => false)
      = some (.doorbell q ctx val src)) :
    doorbell s q ctx val = (takeBell (recv s (.doorbell q ctx val src)) q.toNat ctx val.toNat src).1 := by
  have runs' : moduleStopped (recv s (.doorbell q ctx val src)) = false := runs
  unfold doorbell
  split
  · next src' found =>
    cases found.symm.trans arrived
    simp only [runs', Bool.false_eq_true, if_false]
    rw [if_neg fun h => Nat.not_le.mpr inside h.1]
  · next other => exact absurd arrived (other q ctx val src)

/-- A doorbell of a submission queue's own context moves its bell. -/
theorem takeBell_of_submission {s : State} {n val : Nat} (submission : (s.queue n).kind = 0)
    (good : bellBad (s.queue n) val = false) (src : Nat) : takeBell s n (s.queue n).ctx val src =
      (modQueue s n fun q => { q with bell := bits val 23 0 + (if bitAt val 24 then q.size else 0) }, false) := by
  simp [takeBell, submission, good]

/-- A doorbell of a queue's own context that is out of its range is counted. -/
theorem takeBell_of_bad {s : State} {n val : Nat} (bad : bellBad (s.queue n) val = true) (src : Nat) :
    takeBell s n (s.queue n).ctx val src = (bumpErr s 0 R.HUB_QUEUE_ERR_DB_DROPPED, false) := by
  simp [takeBell, bad]

/-! ## Fetches -/

/-- Context 0 may access all of memory. -/
theorem claimOk_hub (s : State) (pa : Nat) (write : Bool) : claimOk s 0 pa write = true := rfl

/-- A queue of context 0 whose ring is in the module reads a slot at once. -/
theorem ringRead_of_hub (s : State) {q : QueueSt} (hub : q.ctx = 0) (i : Nat) : ringRead s q i =
    (claimCacheFill s (slotAddr q i), some (cohRead (claimCacheFill s (slotAddr q i)) (slotAddr q i) 64)) := by
  rw [ringRead, hub]
  rfl

/-- A fetch reads the slot at the fetch position. -/
theorem fetchStart_of_hub {s : State} {n : Nat} (free : (s.queue n).ringBusy = false) (inside : (s.queue n).ring < hostBase)
    (hub : (s.queue n).ctx = 0) {b : List Byte}
    (slot : cohRead (claimCacheFill s (slotAddr (s.queue n) 0)) (slotAddr (s.queue n) 0) 64 = (b, false)) :
    fetchStart s n = fetchGo (claimCacheFill s (slotAddr (s.queue n) 0)) n b := by
  simp only [fetchStart, free, Bool.false_eq_true, if_false, if_neg (Nat.not_le.mpr inside), ringRead_of_hub s hub, slot]

theorem OnlyXlt.queue {s t : State} (h : OnlyXlt s t) (n : Nat) : t.queue n = s.queue n := by rw [h]; rfl

theorem OnlyXlt.sameRegs {s t : State} (h : OnlyXlt s t) : SameRegs s t := by rw [h]; exact ⟨rfl, rfl⟩

theorem fetchGo_of_cmd {s : State} {n k : Nat} {b : List Byte} (check : fetchCheck (s.queue n) b = .cmd k) :
    fetchGo s n b = modQueue s n fun q => { q with fetched := some ⟨b, k⟩, rereads := none, ringGot := [] } := by
  simp only [fetchGo, check]

/-- A torn slot that was read again fewer than 63 times is read again. -/
theorem fetchGo_of_torn {s : State} {n k e f : Nat} {b : List Byte} (check : fetchCheck (s.queue n) b = .torn e f)
    (again : (s.queue n).rereads = some k) (few : k < 63) :
    fetchGo s n b = modQueue s n fun q => { q with rereads := some (k + 1), ringGot := [] } := by
  simp only [fetchGo, check, fetchTorn, again]
  exact if_pos (by omega)

/-! ## Acceptance and hand-off -/

theorem nextCid_journalCarry (s : State) : (journalCarry s).qs.nextCid = s.qs.nextCid := by
  simp only [journalCarry]
  repeat' split
  all_goals rfl

theorem nextCid_journalFlush (rs : List JRec) (s : State) : (journalFlush rs s).qs.nextCid = s.qs.nextCid := by
  induction rs generalizing s with
  | nil => rfl
  | cons r rs ih =>
    rw [journalFlush]
    split
    · exact (ih _).trans (nextCid_journalCarry s)
    · rfl

/-- A record changes no number of a command. -/
theorem nextCid_journal (s : State) (cid : Nat) (event : BitVec 3) (status : Byte) :
    (journal s cid event status).qs.nextCid = s.qs.nextCid := by
  unfold journal
  split
  · rfl
  · exact nextCid_journalFlush _ _

/-- The command that a fetch brought. -/
def fetchedCmd (s : State) (n : Nat) (f : Fetched) : Cmd :=
  let q := s.queue n
  let w := leNat (f.bytes.take 8)
  { queue := BitVec.ofNat 18 n, index := q.pos % q.size, stag := BitVec.ofNat 16 w, kind := BitVec.ofNat 8 (bits w 23 16)
    tag := BitVec.ofNat 32 (bits w 63 32), prio := bits (leNat ((f.bytes.drop 8).take 8)) 2 0, ctx := q.ctx
    fence := bitAt w 24, body := ((f.bytes.drop 16).take 48) ++ ((f.bytes.drop 80).take 48), acceptedAt := s.time }

/-- The queue and its completion queue have counted a fetched command, and the hub has numbered it. -/
def fetchCounted (s : State) (n : Nat) (f : Fetched) : State :=
  let q := s.queue n
  let cid := s.qs.nextCid
  let pos := (q.pos + f.slots) % (2 * q.size)
  let wrap := q.size ≤ q.pos % q.size + f.slots
  let s := modQueue s n fun q => { q with pos := pos, laps := q.laps + b2n wrap, fetched := none, opened := q.opened + 1 }
  let s := modQueue s q.link.toNat fun c => { c with opened := c.opened + 1 }
  let s := bumpEventAt s 0 R.HUB_QUEUE_ACCEPTED_COUNT 0 R.HUB_QUEUE_OVF_ACCEPTED_OVF 0 1
  { s with qs := { s.qs with nextCid := cid + 1 } }

theorem former_fetchCounted (s : State) (n : Nat) (f : Fetched) : (fetchCounted s n f).former = s.former := by
  rw [fetchCounted, bumpEventAt_onlyRegs]
  rfl

theorem queue_bumpEventAt (s : State) (die : Nat) (c : FRef) (i : Nat) (o : FRef) (b n k : Nat) :
    (bumpEventAt s die c i o b n).queue k = s.queue k := by rw [State.queue, bumpEventAt_qs, State.queue]

/-- A well-formed command with room for its completion is accepted and journalled. -/
theorem commandAccept_of_room {s : State} {q : BitVec 18} {f : Fetched} (active : (s.queue q.toNat).state = 1)
    (fetched : (s.queue q.toNat).fetched = some f) (runs : moduleStopped s = false) (time : W64)
    (room : acceptOk (setTime s time) (s.queue q.toNat) f = true) (good : cmdMalformed f.bytes f.slots = false)
    (unbound : boundTo s q = none) : commandAccept s q.toNat time =
      journal (setCmd (fetchCounted (setTime s time) q.toNat f) s.qs.nextCid (fetchedCmd (setTime s time) q.toNat f))
        s.qs.nextCid 1 0 := by
  have same : (setTime s time).queue q.toNat = s.queue q.toNat := rfl
  have runs' : moduleStopped (setTime s time) = false := runs
  have good' : ∀ (u : State) (b : Bool), u.former = s.former →
      (cmdMalformed f.bytes f.slots || (b && (boundTo u (BitVec.ofNat 18 q.toNat)).isSome)) = false := by
    intro u b former
    rw [boundTo, former, BitVec.ofNat_toNat, BitVec.setWidth_eq, good]
    simpa [boundTo] using fun _ => unbound
  have record := former_of_sansRecords (journal_sansRecords (setCmd (fetchCounted (setTime s time) q.toNat f) s.qs.nextCid
    (fetchedCmd (setTime s time) q.toNat f)) s.qs.nextCid 1 0)
  simp only [commandAccept, same, active, fetched, if_true, runs', room, Bool.not_true, Bool.or_false, Bool.false_eq_true,
    if_false]
  exact (if_neg (Bool.eq_false_iff.mp (good' _ _ (record.trans (former_fetchCounted ..))))).trans rfl

/-- What a record leaves of the command that it is about. -/
theorem cmd?_journal_of_cmd {s : State} {cid : Nat} {c : Cmd} (command : s.cmd? cid = some c) (event : BitVec 3)
    (status : Byte) : ∃ c', (journal s cid event status).cmd? cid = some c' ∧ c'.sansRecord = c.sansRecord := by
  have same := cmd?_journal_sansRecord s cid event status cid
  rw [command] at same
  exact Option.map_eq_some_iff.mp same

/-- What counting a fetched command leaves of the two queues. -/
theorem queue_fetchCounted (s : State) {n : Nat} (f : Fetched) (other : (s.queue n).link.toNat ≠ n) :
    (fetchCounted s n f).queue n = { s.queue n with
      pos := ((s.queue n).pos + f.slots) % (2 * (s.queue n).size)
      laps := (s.queue n).laps + b2n ((s.queue n).size ≤ (s.queue n).pos % (s.queue n).size + f.slots), fetched := none
      opened := (s.queue n).opened + 1 } ∧
    (fetchCounted s n f).queue (s.queue n).link.toNat = { s.queue (s.queue n).link.toNat with
      opened := (s.queue (s.queue n).link.toNat).opened + 1 } := by
  exact ⟨(queue_bumpEventAt ..).trans ((queue_modQueue_ne _ _ other.symm).trans (queue_modQueue_self ..)),
    (queue_bumpEventAt ..).trans ((queue_modQueue_self ..).trans
      (congrArg (fun q : QueueSt => { q with opened := q.opened + 1 }) (queue_modQueue_ne _ _ other)))⟩

/-- An accepted command that ends. -/
theorem cmd?_finishCmd_of_accepted {s : State} {cid : Nat} {c : Cmd} (command : s.cmd? cid = some c)
    (accepted : c.st = .accepted) (status : Byte) :
    ∃ c', (finishCmd s cid status).cmd? cid = some c' ∧ c'.st = .ended status := by
  have ends : finishCmd s cid status = journal (modQueue (setCmd s cid { c with st := .ended status, running := false })
      c.queue.toNat fun q => { q with opened := q.opened - 1 }) cid 3 status := by
    simp only [finishCmd, endCmd, command, accepted]
  obtain ⟨c', found, same⟩ :=
    cmd?_journal_of_cmd (s := modQueue (setCmd s cid { c with st := .ended status, running := false })
      c.queue.toNat fun q => { q with opened := q.opened - 1 }) (cmd?_setCmd_self ..) 3 status
  exact ⟨c', ends ▸ found, congrArg Cmd.st same⟩

/-- The oldest accepted command of a queue that nothing holds starts, or ends where its context is gone. -/
theorem commandHandoff_of_next {s : State} {n cid : Nat} {c : Cmd} (next : nextHandoff s n = some (cid, c))
    (other : c.kind ≠ 5)
    (acked : journalAcked s c = true) (met : fenceMet s cid c = true) (time : W64) :
    commandHandoff s n time = if (s.ctx? c.ctx).isNone then finishCmd (setTime s time) cid 0x04
      else journal (setCmd (setTime s time) cid { c with st := .started }) cid 2 0 := by
  have next' : nextHandoff (setTime s time) n = some (cid, c) := next
  have acked' : journalAcked (setTime s time) c = true := acked
  have met' : fenceMet (setTime s time) cid c = true := met
  simp only [commandHandoff, next', acked', met', other, decide_false, Bool.not_true, Bool.or_self, Bool.false_eq_true,
    if_false]
  rfl

/-- Settles O32: doorbells, fetches, acceptance and hand-off, each by the case of the model that its hypotheses select. -/
theorem commandsAreFetchedAcceptedAndStarted : Obligations.CommandsAreFetchedAcceptedAndStarted := by
  intro s q n x
  refine ⟨fun ctx val src inside runs arrived => ⟨?rung, ?dropped⟩, ?fetch, ?torn, ?accept,
    fun time cid c next command other acked met => ⟨?start, ?gone⟩⟩
  case rung =>
    rintro enabled rfl submission good
    have rings := takeBell_of_submission (s := recv s (.doorbell q x.ctx val src)) (n := n) submission good src
    refine ⟨_, congrArg Host.Outcome.next ((doorbell_of_arrived inside runs arrived).trans (congrArg Prod.fst rings)),
      queue_modQueue_self .., rfl, ⟨fun _ => rfl, rfl⟩, rfl, rfl⟩
  case dropped =>
    rintro rfl bad
    have drops := takeBell_of_bad (s := recv s (.doorbell q x.ctx val src)) (n := n) bad src
    exact congrArg Host.Outcome.next ((doorbell_of_arrived inside runs arrived).trans (congrArg Prod.fst drops))
  case fetch =>
    intro active submission none first due free inside hub b slot check
    have fill := claimCacheFill_onlyXlt s (slotAddr x 0)
    have runs : queueFetch s n = fetchStart s n :=
      if_pos ⟨active, submission, Option.isNone_iff_eq_none.mpr none, Option.isNone_iff_eq_none.mpr first, due⟩
    have go := fetchGo_of_cmd (s := claimCacheFill s (slotAddr x 0)) (n := n) (k := 1) (b := b) ((fill.queue n).symm ▸ check)
    refine ⟨_, congrArg Host.Outcome.next (runs.trans ((fetchStart_of_hub free inside hub slot).trans go)),
      congrArg QueueSt.fetched (queue_modQueue_self ..), fill.sameMemory, fill.sameRegs⟩
  case torn =>
    intro k active again few free inside hub b e f slot check
    have fill := claimCacheFill_onlyXlt s (slotAddr x 0)
    have runs : tornReread s n = fetchStart s n := if_pos ⟨active, Option.isSome_iff_exists.mpr ⟨k, again⟩⟩
    have go := fetchGo_of_torn (s := claimCacheFill s (slotAddr x 0)) (n := n) (b := b) (e := e) (f := f)
      ((fill.queue n).symm ▸ check) ((fill.queue n).symm ▸ again) few
    refine ⟨_, congrArg Host.Outcome.next (runs.trans ((fetchStart_of_hub free inside hub slot).trans go)),
      congrArg QueueSt.rereads (queue_modQueue_self ..), ?_, fill.sameMemory⟩
    exact (congrArg QueueSt.state (queue_modQueue_self ..)).trans ((congrArg QueueSt.state (fill.queue n)).trans active)
  case accept =>
    intro time f active fetched one runs room other good unbound
    have accepts := commandAccept_of_room active fetched runs time room good unbound
    obtain ⟨c', found, same⟩ := cmd?_journal_of_cmd (cmd?_setCmd_self (fetchCounted (setTime s time) n f) s.qs.nextCid
      (fetchedCmd (setTime s time) n f)) 1 0
    obtain ⟨here, linked⟩ := queue_fetchCounted (setTime s time) f other
    have queues : ∀ k, (commandAccept s n time).queue k = (fetchCounted (setTime s time) n f).queue k := by
      intro k
      rw [accepts, queue_journal]
      rfl
    refine ⟨commandAccept s n time, c', rfl, accepts ▸ found, ?_, ?_, congrArg Cmd.index same, congrArg Cmd.st same,
      congrArg Cmd.ctx same, congrArg Cmd.acceptedAt same, ?_, ?_, ?_, ?_⟩
    · rw [accepts, nextCid_journal]
      rfl
    · exact (congrArg Cmd.queue same).trans (show BitVec.ofNat 18 q.toNat = q by simp)
    · rw [queues, here, one]
      rfl
    · rw [queues, here]
    · rw [queues, here]
      rfl
    · exact (queues _).trans linked ▸ rfl
  case start =>
    intro context
    obtain ⟨c', found, same⟩ := cmd?_journal_of_cmd (cmd?_setCmd_self (setTime s time) cid { c with st := .started }) 2 0
    have starts : commandHandoff s n time = journal (setCmd (setTime s time) cid { c with st := .started }) cid 2 0 := by
      rw [commandHandoff_of_next next other acked met, if_neg (by simpa using Option.isSome_iff_ne_none.mp context)]
    have body := congrArg Cmd.body same
    exact ⟨commandHandoff s n time, c', rfl, starts ▸ found, congrArg Cmd.st same, body⟩
  case gone =>
    intro context
    have accepted : c.st = .accepted := by
      have named := List.find?_some next
      simp only [Bool.and_eq_true, beq_iff_eq] at named
      exact named.2
    have ends : commandHandoff s n time = finishCmd (setTime s time) cid 0x04 := by
      rw [commandHandoff_of_next next other acked met, if_pos (by simpa using context)]
    obtain ⟨c', found, st⟩ := cmd?_finishCmd_of_accepted (s := setTime s time) command accepted 0x04
    exact ⟨commandHandoff s n time, c', rfl, ends ▸ found, st⟩

end Sys2Proof.Machine
end

section
/-! PROOF. Fabric ports and peers (R372 to R376, R380, R511). -/

namespace Sys2Proof.Machine

/-! ## Registers of a logical port -/

/-- STATE of a logical port of a cage. -/
def stateField (b : Bool) : FRef := if b then R.FAB_PORT_STAT_STATE_B else R.FAB_PORT_STAT_STATE_A

/-- ENABLE of a logical port of a cage. -/
def enableField (b : Bool) : FRef := if b then R.FAB_PORT_CFG_ENABLE_B else R.FAB_PORT_CFG_ENABLE_A

/-- A logical port's die, cage and half. -/
theorem lp_parts (p : Nat) (b : Bool) :
    lpDie (2 * p + b2n b) = 11 + p / 4 ∧ (2 * p + b2n b) / 2 % 4 = p % 4 ∧ (2 * p + b2n b) % 2 = b2n b := by
  cases b <;> simp only [lpDie, b2n, Bool.false_eq_true, if_false, if_true] <;> omega

theorem lpState_eq (s : State) (p : Nat) (b : Bool) :
    lpState s (2 * p + b2n b) = fldAt s (11 + p / 4) (stateField b) (p % 4) := by
  obtain ⟨die, cage, half⟩ := lp_parts p b
  rw [lpState, die, cage, half]
  cases b <;> rfl

theorem setLpState_eq (s : State) (p : Nat) (b : Bool) (n : Nat) :
    setLpState s (2 * p + b2n b) n = setFldAt s (11 + p / 4) (stateField b) (p % 4) n := by
  obtain ⟨die, cage, half⟩ := lp_parts p b
  rw [setLpState, die, cage, half]
  cases b <;> rfl

theorem lpExists_eq (s : State) (p : Nat) (b : Bool) : lpExists s (2 * p + b2n b) =
    (b2n b == 0 || fldAt s (11 + p / 4) R.FAB_PORT_CFG_BREAKOUT (p % 4) == 1) := by
  obtain ⟨die, cage, half⟩ := lp_parts p b
  rw [lpExists, die, cage, half]

/-- A port whose STATE was set shows it. -/
theorem lpState_setLpState (s : State) (lp : Nat) {n : Nat} (small : n < 16) : lpState (setLpState s lp n) lp = n := by
  unfold lpState setLpState
  split
  · exact fldAt_setFldAt_of_fits _ _ _ (by decide) small
  · exact fldAt_setFldAt_of_fits _ _ _ (by decide) small

/-- The ports of a cage have a STATE each. -/
theorem lpState_setLpState_other (s : State) (p n : Nat) :
    lpState (setLpState s (2 * p + 1) n) (2 * p) = lpState s (2 * p) := by
  have first := fun s => lpState_eq s p false
  have second := setLpState_eq s p true n
  simp only [b2n, Bool.false_eq_true, if_false, if_true, Nat.add_zero] at first second
  rw [first, first, second]
  exact fldAt_setFldAt_of_apart _ _ _ _ (by decide)

/-- With no flow to a peer, none is moved to another port. -/
theorem remapFlows_of_no_flow {old s : State} (none : s.fab.tx = []) : remapFlows old s = s := by
  rw [remapFlows, none]
  rfl

/-- Registers alone, and the fuses, say what a field reads as. -/
theorem fldAt_congr {s t : State} (regs : t.regs = s.regs) (fuses : t.boot.fuses = s.boot.fuses) (die : Nat) (f : FRef)
    (i : Nat) : fldAt t die f i = fldAt s die f i := by
  simp only [fldAt, regRaw, regs, fuses]

/-- The fabric's readiness leaves memory, registers and fuses. -/
theorem fabReady_spec (s : State) : SameMemory s (fabReady s) ∧ ∀ lp, lpState (fabReady s) lp = lpState s lp := by
  unfold fabReady
  split
  · rw [(setBootState_eq s 4).2]
    exact ⟨⟨fun _ => rfl, rfl⟩, fun lp => fldAt_congr rfl rfl _ _ _⟩
  · exact ⟨⟨fun _ => rfl, rfl⟩, fun _ => rfl⟩

theorem bnot_ne_true {b : Bool} (h : b = true) : ¬ (!b) = true := by simp [h]

/-! ## Ports -/

section Enable
variable {s : State} {p : Nat} {b : Bool} (there : lpExists s (2 * p + b2n b) = true)

/-- A port whose ENABLE is set exists as before. -/
theorem lpExists_setEnable (x : Nat) :
    lpExists (setFldAt s (11 + p / 4) (enableField b) (p % 4) x) (2 * p + b2n b) = lpExists s (2 * p + b2n b) := by
  rw [lpExists_eq, lpExists_eq, fldAt_setFldAt_of_apart _ _ _ _ (by cases b <;> decide)]

theorem lpState_setEnable (x : Nat) :
    lpState (setFldAt s (11 + p / 4) (enableField b) (p % 4) x) (2 * p + b2n b) = lpState s (2 * p + b2n b) := by
  rw [lpState_eq, lpState_eq, fldAt_setFldAt_of_off_ne _ _ _ _ (by cases b <;> decide)]

theorem enable_setLpState (t : State) (n : Nat) :
    fldAt (setLpState t (2 * p + b2n b) n) (11 + p / 4) (enableField b) (p % 4) =
    fldAt t (11 + p / 4) (enableField b) (p % 4) := by
  rw [setLpState_eq, fldAt_setFldAt_of_off_ne _ _ _ _ (by cases b <;> decide)]

theorem enable_setEnable (t : State) {x : Nat} (bit : x < 2) :
    fldAt (setFldAt t (11 + p / 4) (enableField b) (p % 4) x) (11 + p / 4) (enableField b) (p % 4) = x :=
  fldAt_setFldAt_of_fits _ _ _ (by cases b <;> decide) (by cases b <;> exact bit)

include there

/-- An enabled port whose module is present begins to train. -/
theorem fabEnable_of_present (idle : lpState s (2 * p + b2n b) = 0) (present : cagePresent s p = true) :
    fabEnable s p b true = setLpState (setFldAt s (11 + p / 4) (enableField b) (p % 4) 1) (2 * p + b2n b) 1 := by
  unfold fabEnable
  refine (if_neg (bnot_ne_true ((lpExists_setEnable 1).trans there))).trans
    ((if_neg (by decide)).trans (if_pos ⟨(lpState_setEnable 1).trans idle, present⟩))

/-- A disabled port is off. -/
theorem fabEnable_of_off (none : s.fab.tx = []) :
    fabEnable s p b false = setLpState (setFldAt s (11 + p / 4) (enableField b) (p % 4) 0) (2 * p + b2n b) 0 := by
  unfold fabEnable
  refine (if_neg (bnot_ne_true ((lpExists_setEnable 0).trans there))).trans ((if_pos rfl).trans (remapFlows_of_no_flow none))

end Enable

/-- A link that comes up, or goes down, moves its enabled port. -/
theorem fabLink_of_enabled {s : State} {lp : Nat} (there : lpExists s lp = true) (enabled : lpEnabled s lp = true)
    (none : s.fab.tx = []) : (lpState s lp = 1 → fabLink s lp true = fabReady (setLpState s lp 2)) ∧
      (lpState s lp = 2 → fabLink s lp false = setLpState s lp 1) := by
  have same : ∀ n, remapFlows s (setLpState s lp n) = setLpState s lp n := fun n => remapFlows_of_no_flow none
  refine ⟨fun training => ?_, fun up => ?_⟩
  · simp [fabLink, there, enabled, training, same]
  · simp [fabLink, there, enabled, up, same]

/-- A port of a cage that is present again begins to train where it is enabled and off. -/
def portBegins (s : State) (lp : Nat) : State :=
  if lpExists s lp && lpEnabled s lp && lpState s lp == 0 then setLpState s lp 1 else s

theorem fabPresent_eq (s : State) (p : Nat) : fabPresent s p =
    portBegins (portBegins (modFab s fun x => { x with missing := x.missing &&& ~~~((1 : BitVec 8) <<< p) }) (2 * p))
      (2 * p + 1) := rfl

theorem portBegins_onlyRegs (s : State) (lp : Nat) : OnlyRegs s (portBegins s lp) := by
  unfold portBegins
  split
  · rfl
  · exact OnlyRegs.refl s

theorem lpState_portBegins_self {s : State} {lp : Nat} (there : lpExists s lp = true) (enabled : lpEnabled s lp = true)
    (off : lpState s lp = 0) : lpState (portBegins s lp) lp = 1 := by
  rw [portBegins, if_pos (by simp [there, enabled, off])]
  exact lpState_setLpState s lp (by decide)

theorem lpState_portBegins_other (s : State) (p : Nat) : lpState (portBegins s (2 * p + 1)) (2 * p) = lpState s (2 * p) := by
  unfold portBegins
  split
  · exact lpState_setLpState_other s p 1
  · rfl

/-- The first port of a cage exists always. -/
theorem lpExists_first (s : State) (p : Nat) : lpExists s (2 * p) = true := by simp [lpExists]

/-- A cage that a module is in again is not missing one. -/
theorem getLsbD_clear (m : BitVec 8) (p : Fin 8) : (m &&& ~~~((1 : BitVec 8) <<< p.val)).getLsbD p = false := by
  simp

/-! ## Peers -/

section Peers
variable {s : State} (idle : fld s 11 R.FAB_PEER_STATUS_BUSY = 0)
include idle

theorem peerCmd_of_failed {result : Nat} (bad : result ≠ 0) (act : State → State) :
    peerCmd s result act = setFld s 11 R.FAB_PEER_STATUS_RESULT result := by
  simp [peerCmd, idle, bad]

theorem peerCmd_of_good (act : State → State) : peerCmd s 0 act = act (setFld s 11 R.FAB_PEER_STATUS_RESULT 0) := by
  simp [peerCmd, idle]

theorem peerLoad_of_no_entry {p : Nat} (none : readPeer s p = none) :
    peerLoad s p = setFld s 11 R.FAB_PEER_STATUS_RESULT 0x0F := by
  simp only [peerLoad, none]
  exact peerCmd_of_failed idle (by decide) id

theorem peerLoad_of_loaded {p : Nat} {e : Peer} (entry : readPeer s p = some e) (loaded : (s.peer? p).isSome) :
    peerLoad s p = setFld s 11 R.FAB_PEER_STATUS_RESULT 0x0F := by
  simp only [peerLoad, entry, loaded, Bool.true_or, if_true]
  exact peerCmd_of_failed idle (by decide) _

/-- A good entry, with the next session number. -/
def peerLoaded (s : State) (p : Nat) (e : Peer) : State :=
  modFab (setFld s 11 R.FAB_PEER_STATUS_RESULT 0) fun x => { x with
    peers := tset x.peers p e, sessions := tset x.sessions p ((tget x.sessions p 0 + 1) % 65536)
    tx := x.tx.filter fun t => t.1 / 16 != p }

/-- A good entry is loaded, and may send its first frame. -/
theorem peerLoad_of_good {p : Nat} {e : Peer} (entry : readPeer s p = some e) (fresh : s.peer? p = none)
    (near : e.direct = true ∨ e.self = true) (plain : e.secure = false) (whole : e.compress = false) :
    peerLoad s p = peerLoaded s p e ∨ ∃ f, peerLoad s p = putFrame (peerLoaded s p e) f := by
  have relay : (!e.direct && !e.self) = false := by
    rcases near with h | h <;> simp [h]
  simp only [peerLoad, entry, fresh, relay, plain, whole, Option.isSome_none, Bool.false_and, Bool.or_self,
    Bool.false_eq_true, if_false, peerCmd_of_good idle]
  split
  · exact Or.inr ⟨_, rfl⟩
  · exact Or.inl rfl

/-- An unloaded peer that nothing is in flight for is gone. -/
theorem peerUnload_of_quiet (p : Nat) (tx : s.fab.tx = []) (reads : s.fab.reads = []) (sets : s.fab.sets = [])
    (cmds : s.qs.cmds = []) : peerUnload s p = modFab (setFld s 11 R.FAB_PEER_STATUS_RESULT 0) fun x => { x with
      peers := tdel x.peers p, tx := x.tx.filter fun t => t.1 / 16 != p, rx := x.rx.filter fun t => t.1 / 16 != p } := by
  rw [peerUnload, peerCmd_of_good idle]
  have packets : peerPackets (setFld s 11 R.FAB_PEER_STATUS_RESULT 0) p none = [] := by
    rw [peerPackets, show (setFld s 11 R.FAB_PEER_STATUS_RESULT 0).fab.tx = [] from tx]
    rfl
  have asked : peerReads (setFld s 11 R.FAB_PEER_STATUS_RESULT 0) p none = [] := by
    rw [peerReads, show (setFld s 11 R.FAB_PEER_STATUS_RESULT 0).fab.reads = [] from reads]
    rfl
  have colls : peerColls (setFld s 11 R.FAB_PEER_STATUS_RESULT 0) p = [] := by
    rw [peerColls, show (setFld s 11 R.FAB_PEER_STATUS_RESULT 0).fab.sets = [] from sets]
    rfl
  have fabs : peerFabs (setFld s 11 R.FAB_PEER_STATUS_RESULT 0) p = [] := by
    rw [peerFabs, show (setFld s 11 R.FAB_PEER_STATUS_RESULT 0).qs.cmds = [] from cmds]
    rfl
  simp only [packets, asked, colls, fabs, List.foldl_nil]

end Peers

/-- Settles O34: ports by the registers of a port, peers by the entry that is read. -/
theorem fabricPortsComeUpAndPeersAreLoaded : Obligations.FabricPortsComeUpAndPeersAreLoaded := by
  intro s quiet
  refine ⟨fun p b => ?enable, fun lp there enabled => ?link, fun p => ?pause, fun lp addr me e self entry => ?arp,
    fun p => ?present, fun p idle => ⟨?noEntry, ?loaded, ?load, ?unload⟩⟩
  case enable =>
    intro lp f there
    refine ⟨fun off present => ⟨_, congrArg Host.Outcome.next (fabEnable_of_present there off present),
      lpState_setLpState _ _ (by decide), ?_, fun _ => rfl, rfl⟩,
      _, congrArg Host.Outcome.next (fabEnable_of_off there quiet), lpState_setLpState _ _ (by decide), ?_,
        fun _ => rfl, rfl⟩
    · exact (enable_setLpState (b := b) _ _).trans (enable_setEnable s (by decide))
    · exact (enable_setLpState (b := b) _ _).trans (enable_setEnable s (by decide))
  case link =>
    obtain ⟨up, down⟩ := fabLink_of_enabled there enabled quiet
    obtain ⟨memory, state⟩ := fabReady_spec (setLpState s lp 2)
    exact ⟨fun training => ⟨_, congrArg Host.Outcome.next (up training),
        (state lp).trans (lpState_setLpState _ _ (by decide)), memory⟩,
      fun here => ⟨_, congrArg Host.Outcome.next (down here), lpState_setLpState _ _ (by decide), fun _ => rfl, rfl⟩⟩
  case pause =>
    refine ⟨_, rfl, ?_, fldAt_bumpErrAt s _ _ _ (by decide) (by decide) rfl⟩
    exact bumpErrAt_onlyRegs ..
  case arp =>
    refine ⟨fun own up here => ?_, fun other => ?_⟩
    · exact congrArg Host.Outcome.next (by simp [fabArp, self, entry, own, up, here])
    · exact congrArg Host.Outcome.next (by simp [fabArp, self, entry, other])
  case present =>
    have only := (portBegins_onlyRegs
      (modFab s fun x => { x with missing := x.missing &&& ~~~((1 : BitVec 8) <<< p.val) }) (2 * p)).trans
      (portBegins_onlyRegs _ (2 * p + 1))
    refine ⟨_, congrArg Host.Outcome.next (fabPresent_eq s p), only.sameMemory, ?_, fun enabled off => ?_⟩
    · rw [only]
      exact congrArg (!·) (getLsbD_clear _ p)
    · rw [lpState_portBegins_other]
      exact lpState_portBegins_self (lpExists_first _ _) enabled off
  case noEntry => exact fun none => congrArg Host.Outcome.next (peerLoad_of_no_entry idle none)
  case loaded => exact fun e entry loaded => congrArg Host.Outcome.next (peerLoad_of_loaded idle entry loaded)
  case load =>
    intro e entry fresh near plain whole
    have spec : ∀ t : State, t = peerLoaded s p.toNat e ∨ (∃ f, t = putFrame (peerLoaded s p.toNat e) f) →
        SameMemory s t ∧ t.peer? p.toNat = some e ∧ fld t 11 R.FAB_PEER_STATUS_RESULT = 0 ∧
          tget t.fab.sessions p.toNat 0 = (tget s.fab.sessions p.toNat 0 + 1) % 65536 ∧
          (∀ q, q ≠ p.toNat → t.peer? q = s.peer? q) := by
      rintro t (rfl | ⟨f, rfl⟩)
      all_goals exact ⟨⟨fun _ => rfl, rfl⟩, tget?_tset_self .., fld_setFld_self s 11 R.FAB_PEER_STATUS_RESULT 0 (by decide),
        tget_tset_self .., fun q other => tget?_tset_ne _ _ other⟩
    exact ⟨_, rfl, spec _ (peerLoad_of_good idle entry fresh near plain whole)⟩
  case unload =>
    intro reads sets cmds
    exact ⟨_, congrArg Host.Outcome.next (peerUnload_of_quiet idle p.toNat quiet reads sets cmds), ⟨fun _ => rfl, rfl⟩,
      tget?_tdel_self .., fun q other => tget?_tdel_ne _ other⟩

end Sys2Proof.Machine
end

section
/-! PROOF. Packets of the transport (R378 to R382). -/

namespace Sys2Proof.Machine

/-! ## Packets that are received -/

/-- A packet not yet received that its peer may send is performed, and waits for its report. -/
theorem kftData_of_new {s u : State} {h : KftHdr} {b : List Byte} {p op : Nat} {st : Byte}
    {act : State → Nat → Option (State × Byte)} (data : h.ptype = 0) (kind : h.op.toNat = op)
    (sender : kftFrom s h b true = .inr p) (new : kftSeen (s.rx p h.flow.toNat) h.psn = false)
      (acts : act s p = some (u, st)) :
    kftData s h b op act =
      rxCount (modRx u p h.flow.toNat fun x => { x with pend := x.pend ++ [(h.psn, st)] }) p h.flow.toNat h.ce := by
  have relevant : ¬ (h.ptype ≠ 0 ∨ h.op.toNat ≠ op) := by simp [data, kind]
  simp only [kftData, if_neg relevant, sender, new, Bool.false_eq_true, if_false, acts]

/-- A read of memory brings no more bytes than it asks for. -/
theorem length_cohRead_le (s : State) (pa n : Nat) : (cohRead s pa n).1.length ≤ n := by
  simp only [cohRead, List.length_take]
  exact Nat.min_le_left _ _

/-- A read that fits one packet is answered by one. -/
theorem kftCut_zip_of_fits {n len : Nat} {b : List Byte} (fits : b.length ≤ n) :
    (kftCut n (len / n + 1) b).zip (List.range (len / n + 1)) = [(b, 0)] := by
  rw [kftCut, if_pos fits, List.range_succ_eq_map]
  rfl

theorem kftMax_le (s : State) (p : Nat) : kftMax s p ≤ 4096 := by
  unfold kftMax
  split <;> decide

section Data
variable {s : State} {h : KftHdr} {b : List Byte} {p : Nat} (data : h.ptype = 0)
  (new : kftSeen (s.rx p h.flow.toNat) h.psn = false)
include data new

/-- A write whose check is done is performed, or refused with its status. -/
theorem kftWrite_of_checked (sender : kftFrom s h b true = .inr p) (len : h.len.toNat = b.length) (write : h.op = 0)
    {u : State} {st : Byte} (check : inboundCheck s p (lpDie h.lp.toNat) h.offset.toNat b.length true = some (u, st)) :
    kftWrite s h b = rxCount (modRx (if st = 0 then cohPut u h.offset.toNat b false else u) p h.flow.toNat
      fun x => { x with pend := x.pend ++ [(h.psn, st)] }) p h.flow.toNat h.ce := by
  rw [kftWrite, if_neg (not_not.mpr len)]
  refine kftData_of_new data (by simp [write]) sender new ?_
  simp only [check]

/-- The bytes of a response that is not the last are kept. -/
theorem kftReadRsp_of_part (sender : kftFrom s h b true = .inr p) (len : h.len.toNat = b.length) (response : h.op = 2)
    {r : KftRead} {q : OutReq} (read : tget? s.fab.reads h.opid.toNat = some r) (peer : r.peer = p) (good : h.status = 0)
    (owner : r.owner = .inl q) (part : r.got + b.length < r.len) :
    kftReadRsp s h b = rxCount (modRx (modFab s fun y => { y with
      reads := tset y.reads h.opid.toNat { r with got := r.got + b.length, data := r.data ++ b } }) p h.flow.toNat
      fun x => { x with pend := x.pend ++ [(h.psn, 0)] }) p h.flow.toNat h.ce := by
  rw [kftReadRsp, if_neg (not_not.mpr len)]
  refine kftData_of_new data (by simp [response]) sender new ?_
  simp only [read, peer, good, owner, ne_eq, not_true_eq_false, if_false, if_neg (Nat.not_le.mpr part)]

/-- A read of this module's memory that its check refuses is answered by a status alone. -/
theorem kftReadReq_of_refused {len : Nat} (sender : kftFrom s h (leBytes 8 len) true = .inr p) (request : h.op = 1)
    {u : State}
    {st : Byte} (check : inboundCheck s p (lpDie h.lp.toNat) h.offset.toNat len false = some (u, st)) (bad : st ≠ 0) :
    kftReadReq s h len = rxCount (modRx u p h.flow.toNat fun x => { x with pend := x.pend ++ [(h.psn, st)] })
      p h.flow.toNat h.ce := by
  refine kftData_of_new data (by simp [request]) sender new ?_
  simp only [check]
  rw [if_pos (Or.inl bad), if_neg bad]

/-- A read of this module's memory that fits one packet is answered by one. -/
theorem kftReadReq_of_fits {len : Nat} (sender : kftFrom s h (leBytes 8 len) true = .inr p) (request : h.op = 1) {u : State}
    (check : inboundCheck s p (lpDie h.lp.toNat) h.offset.toNat len false = some (u, 0)) (asks : len ≠ 0)
    (fits : len ≤ kftMax u p) (clean : (cohRead u h.offset.toNat len).2 = false) :
    kftReadReq s h len = rxCount (modRx (kftSend u p h.flow.toNat {
      op := 2, offset := h.offset.toNat, opid := h.opid.toNat, data := (cohRead u h.offset.toNat len).1 }) p h.flow.toNat
      fun x => { x with pend := x.pend ++ [(h.psn, 0)] }) p h.flow.toNat h.ce := by
  have short : ¬ 2 ^ 36 < len := by have := kftMax_le u p; omega
  have one := kftCut_zip_of_fits (len := len) ((length_cohRead_le u h.offset.toNat len).trans fits)
  refine kftData_of_new data (by simp [request]) sender new ?_
  simp only [check, asks, short, clean, one, ne_eq, not_true_eq_false, or_self, Bool.false_eq_true, if_false,
    List.foldl_cons, List.foldl_nil, Nat.mul_zero, Nat.add_zero]

end Data

/-! ## The receiving end -/

@[simp] theorem rx_modRx_self (s : State) (p f : Nat) (g : KftRx → KftRx) : (modRx s p f g).rx p f = g (s.rx p f) :=
  tget_tmod_self ..

@[simp] theorem tx_modTx_self (s : State) (p f : Nat) (g : KftTx → KftTx) : (modTx s p f g).tx p f = g (s.tx p f) :=
  tget_tmod_self ..

/-- An ACK of a flow that has a port says what was received, and counts anew. -/
theorem kftAckSend_of_port {s : State} {p f lp : Nat} (port : flowPort s p f = some lp) :
    ∃ (y : KftHdr) (give : Nat), kftAckSend s p f none =
        putFrame (modRx s p f fun x => { x with fresh := 0, ece := false, grant := x.grant - give }) (.kft y []) ∧
      y.ptype = 1 ∧ y.ackPsn = (s.rx p f).next ∧ y.ackMap = ackMap (s.rx p f) := by
  simp only [kftAckSend, port]
  exact ⟨_, _, rfl, rfl, rfl, rfl⟩

/-- What ACK_PSN has passed is no longer kept; nothing else changes. -/
theorem rxAdvance_spec (n : Nat) (x : KftRx) : (rxAdvance n x).pend = x.pend ∧ (rxAdvance n x).grant = x.grant := by
  induction n generalizing x with
  | zero => exact ⟨rfl, rfl⟩
  | succ n ih =>
    rw [rxAdvance]
    split
    · exact ih _
    · exact ⟨rfl, rfl⟩

/-- The next packet advances ACK_PSN by one, where no later one has come. -/
theorem rxAdvance_of_next {x : KftRx} (got : x.got = [x.next]) : (rxAdvance 1 x).next = x.next + 1 := by
  simp [rxAdvance, got]

/-- A packet that was performed well waits no longer, and gives its credit back. -/
theorem kftPerformed_of_good {s : State} {p f : Nat} {psn : W32}
    (pending : (s.rx p f).pend.find? (fun e => e.1 == psn) = some (psn, 0)) :
    kftPerformed s p f psn = modRx s p f fun x =>
      rxAdvance (x.got.length + 1)
        { x with pend := x.pend.erase (psn, 0), got := x.got ++ [psn], grant := x.grant + 1 } := by
  simp only [kftPerformed, pending, if_true]

/-! ## The sending end -/

theorem cwndRise_spec (n : Nat) (x : KftTx) :
    (cwndRise n x).unacked = x.unacked ∧ (cwndRise n x).credits = x.credits ∧ (cwndRise n x).queue = x.queue := by
  induction n generalizing x with
  | zero => exact ⟨rfl, rfl, rfl⟩
  | succ n ih =>
    rw [cwndRise]
    split
    · exact ih _
    · exact ih _

theorem halve_spec (x : KftTx) : (halve x).unacked = x.unacked ∧ (halve x).queue = x.queue := by
  unfold halve
  split
  · split
    · exact ⟨rfl, rfl⟩
    · exact ⟨rfl, rfl⟩
  · exact ⟨rfl, rfl⟩

/-- With nothing waiting to be sent, a flow sends nothing. -/
theorem kftPump_of_empty {s : State} {p f : Nat} (empty : (s.tx p f).queue = []) : kftPump s p f = s := by
  rw [kftPump, empty]
  rfl

/-- Replies that are acknowledged end no operation. -/
theorem packetDone_replies (l : List KftSent) (replies : ∀ k ∈ l, k.pkt.owner = .reply) (st : KftSent → Byte) (s : State) :
    l.foldl (fun s k => packetDone s k.pkt (st k)) s = s ∧
      ∀ g : KftSent → Option Nat, (∀ k, k.pkt.owner = .reply → g k = none) → l.filterMap g = [] := by
  refine ⟨foldl_read_of_keeps (read := id) (fun k here s => ?_) s,
    fun g noCommand => List.filterMap_eq_nil_iff.mpr fun k here => noCommand k (replies k here)⟩
  simp only [packetDone, replies k here, id]

/-- An ACK of all that a flow of replies sent leaves nothing unacknowledged. -/
theorem kftAck_of_all {s : State} {h : KftHdr} {p : Nat} (sender : kftFrom s h [] true = .inr p) (ack : h.ptype = 1)
    (noEce : h.ece = false) (empty : (s.tx p h.flow.toNat).queue = [])
    (all : ∀ k ∈ (s.tx p h.flow.toNat).unacked, seqReached (k.psn + 1) h.ackPsn = true ∧ k.pkt.owner = .reply) :
    kftAck s h = modTx s p h.flow.toNat fun x => cwndAck { x with
      unacked := [], credits := x.credits - (s.tx p h.flow.toNat).unacked.length + h.credits.toNat }
      (s.tx p h.flow.toNat).unacked.length false := by
  have done : ∀ acked : KftSent → Bool, (∀ k ∈ (s.tx p h.flow.toNat).unacked, acked k = true) →
      (s.tx p h.flow.toNat).unacked.filter acked = (s.tx p h.flow.toNat).unacked ∧
        (s.tx p h.flow.toNat).unacked.filter (fun k => !acked k) = [] :=
    fun acked each => ⟨List.filter_eq_self.mpr each, List.filter_eq_nil_iff.mpr fun k here => by simp [each k here]⟩
  obtain ⟨taken, left⟩ := done (fun k => seqReached (k.psn + 1) h.ackPsn ||
      (decide ((k.psn - h.ackPsn - 1).toNat < 64) && h.ackMap.getLsbD (k.psn - h.ackPsn - 1).toNat) ||
      (h.status != 0 && k.psn == h.psn)) fun k here => by
    simp only [(all k here).1, Bool.true_or]
  obtain ⟨still, noCommand⟩ := packetDone_replies (s.tx p h.flow.toNat).unacked (fun k here => (all k here).2)
    (fun k => if k.psn = h.psn then h.status else 0) (modTx s p h.flow.toNat fun x => cwndAck { x with
      unacked := [], credits := x.credits - (s.tx p h.flow.toNat).unacked.length + h.credits.toNat }
      (s.tx p h.flow.toNat).unacked.length false)
  have quiet : kftPump (modTx s p h.flow.toNat fun x => cwndAck { x with
      unacked := [], credits := x.credits - (s.tx p h.flow.toNat).unacked.length + h.credits.toNat }
      (s.tx p h.flow.toNat).unacked.length false) p h.flow.toNat = _ := kftPump_of_empty (by
    rw [tx_modTx_self]
    exact (cwndRise_spec _ _).2.2.trans empty)
  simp only [kftAck, ack, ne_eq, not_true_eq_false, if_false, sender, noEce, Bool.false_eq_true, taken, left, still,
    List.any_nil, quiet]
  rw [noCommand _ fun k reply => by simp only [reply], List.foldl_nil]

/-- Counting an event leaves the fields of other registers of the die. -/
theorem fld_bumpEventAt_of_off_ne (s : State) (die i bit n : Nat) {c o g : FRef}
    (h : g.off ≠ c.off + c.stride * i ∧ g.off ≠ o.off) : fld (bumpEventAt s die c i o bit n) die g = fld s die g := by
  have counted : ∀ v, fld (setFldAt s die c i v) die g = fld s die g := fun v =>
    fldAt_setFldAt_reg _ _ _ _ _ _ _ _ (by simpa [regKey] using h.1)
  unfold bumpEventAt
  dsimp only
  split
  · exact counted _
  · exact (fld_setFld_of_off_ne _ _ _ h.2).trans (counted _)

/-- A sending end that counts a packet sent again. -/
def KftTx.resent (x : KftTx) (psn : W32) : KftTx :=
  { x with unacked := x.unacked.map fun k => if k.psn == psn then { k with resends := k.resends + 1 } else k }

/-- A flow whose window is halved has sent a packet again. -/
def sentAgain (s : State) (p f lp : Nat) (k : KftSent) : State :=
  kftPut (modTx (modTx s p f halve) p f (·.resent k.psn)) lp p f k ((halve (s.tx p f)).wrapOf k.psn)

/-- A timeout sends the packet again, halves the window, and does not give the flow up while it may be sent again. -/
theorem kftRto_of_again {s : State} {p f lp : Nat} {k : KftSent} (alone : (s.tx p f).unacked = [k])
    (port : flowPort s p f = some lp) (may : k.resends + 1 < fld s (lpDie lp) R.FAB_KFT_CFG_RETRY_MAX) :
    kftRto s p f k.psn = bumpEventAt (sentAgain s p f lp k) (lpDie lp) R.FAB_EVT_COUNT 0 R.FAB_OVF_OVF 0 1 := by
  have halved : (halve (s.tx p f)).unacked = [k] := (halve_spec _).1.trans alone
  have port' : flowPort (modTx s p f halve) p f = some lp := port
  have again : [k].filter (fun j => j.psn == k.psn) = [k] := by simp
  simp only [kftRto, kftResend, alone, List.any_cons, beq_self_eq_true, Bool.true_or, if_true, port', tx_modTx_self, halved,
    again, List.foldl_cons, List.foldl_nil, List.length_singleton]
  have limit : fld (bumpEventAt (sentAgain s p f lp k) (lpDie lp) R.FAB_EVT_COUNT 0 R.FAB_OVF_OVF 0 1) (lpDie lp)
    R.FAB_KFT_CFG_RETRY_MAX =
      fld s (lpDie lp) R.FAB_KFT_CFG_RETRY_MAX := fld_bumpEventAt_of_off_ne _ _ _ _ _ (by decide)
  unfold sentAgain KftTx.resent at limit
  refine if_neg ?_
  rw [limit]
  simpa using may

theorem fab_bumpEventAt (s : State) (die : Nat) (c : FRef) (i : Nat) (o : FRef) (bit n : Nat) :
    (bumpEventAt s die c i o bit n).fab = s.fab := by rw [bumpEventAt_onlyRegs]

theorem sentAgain_spec {s : State} {p f lp : Nat} {k : KftSent} (alone : (s.tx p f).unacked = [k]) :
    ((sentAgain s p f lp k).tx p f).unacked = [{ k with resends := k.resends + 1 }] ∧
      ((sentAgain s p f lp k).tx p f).cwnd = (halve (s.tx p f)).cwnd ∧
      (sentAgain s p f lp k).fab.frames.length = s.fab.frames.length + 1 := by
  have sent : (sentAgain s p f lp k).tx p f = (halve (s.tx p f)).resent k.psn :=
    (tx_modTx_self (modTx s p f halve) p f (·.resent k.psn)).trans
      (congrArg (·.resent k.psn) (tx_modTx_self s p f halve))
  rw [sent]
  refine ⟨?_, rfl, List.length_append⟩
  rw [KftTx.resent, (halve_spec _).1, alone]
  simp

/-- Settles O35: what is received by the cases of `kftData`, what is sent by the flow that the acknowledgement or the timeout
leaves. -/
theorem transportPacketsArePerformedAndAcknowledged : Obligations.TransportPacketsArePerformedAndAcknowledged := by
  intro s h b p f x took
  refine ⟨fun sender data new len => ⟨?write, ?refused, ?part⟩,
    fun len u st sender data request new check => ⟨?asks, ?answered⟩,
    ?session, ?ack, fun peer psn same => ?flows⟩
  case write =>
    intro u write check
    have performs := kftWrite_of_checked data new sender len write check
    rw [if_pos rfl] at performs
    exact congrArg Host.Outcome.next performs
  case refused =>
    intro u st write check bad
    have refuses := kftWrite_of_checked data new sender len write check
    rw [if_neg bad] at refuses
    exact congrArg Host.Outcome.next refuses
  case part =>
    intro r q response read peer good owner part
    exact congrArg Host.Outcome.next (kftReadRsp_of_part data new sender len response read peer good owner part)
  case asks => exact fun bad => congrArg Host.Outcome.next (kftReadReq_of_refused data new sender request check bad)
  case answered =>
    rintro rfl asks fits clean
    have nonzero : len.toNat ≠ 0 := fun zero => asks (BitVec.eq_of_toNat_eq zero)
    exact congrArg Host.Outcome.next (kftReadReq_of_fits data new sender request check nonzero fits clean)
  case session =>
    intro sender session
    have starts : kftSession s h = modFab s fun x => { x with
        theirs := tset x.theirs p h.session.toNat, rx := x.rx.filter fun e => e.1 / 16 != p } := by
      simp only [kftSession, session, ne_eq, not_true_eq_false, if_false, sender]
    refine ⟨_, congrArg Host.Outcome.next starts, ⟨fun _ => rfl, rfl⟩, ⟨rfl, rfl⟩, tget?_tset_self .., fun e here => ?_⟩
    simpa using (List.mem_filter.mp here).2
  case ack =>
    intro sender ack _ noEce _ empty all
    refine ⟨_, congrArg Host.Outcome.next (kftAck_of_all sender ack noEce empty all), ⟨fun _ => rfl, rfl⟩, ⟨rfl, rfl⟩,
      ?_, ?_⟩
    · rw [tx_modTx_self]
      exact (cwndRise_spec _ _).1
    · rw [tx_modTx_self]
      exact (cwndRise_spec _ _).2.1
  case flows =>
    subst same
    refine ⟨fun pending => ?performed, fun quiet => ?noAck, fun lp due port => ?ackTimer,
      fun lp k alone same port may => ?rto,
      fun done empty => ?stays, fun open_ => ?abandon⟩
    case performed =>
      obtain ⟨pend, grant⟩ := rxAdvance_spec (x.got.length + 1)
        { x with pend := x.pend.erase (psn, 0), got := x.got ++ [psn], grant := x.grant + 1 }
      refine ⟨_, congrArg Host.Outcome.next (kftPerformed_of_good pending), ⟨fun _ => rfl, rfl⟩, ⟨rfl, rfl⟩, ?_, ?_, ?_⟩
      · rw [rx_modRx_self]
        exact pend
      · rw [rx_modRx_self]
        exact grant
      · rintro rfl got
        rw [rx_modRx_self, got]
        exact rxAdvance_of_next rfl
    case noAck =>
      exact congrArg Host.Outcome.next (if_neg (by simp [quiet, x, f]))
    case ackTimer =>
      obtain ⟨y, give, sends, ptype, ackPsn, map⟩ := kftAckSend_of_port port
      refine ⟨_, y, congrArg Host.Outcome.next ((if_pos due).trans sends), ⟨fun _ => rfl, rfl⟩, ⟨rfl, rfl⟩, rfl,
        ptype, ackPsn, map, ?_⟩
      exact congrArg KftRx.fresh (rx_modRx_self s peer.toNat f fun x =>
        { x with fresh := 0, ece := false, grant := x.grant - give })
    case rto =>
      subst same
      obtain ⟨unacked, cwnd, frames⟩ := sentAgain_spec (p := peer.toNat) (lp := lp) alone
      have kept := fab_bumpEventAt (sentAgain s peer.toNat f lp k) (lpDie lp) R.FAB_EVT_COUNT 0 R.FAB_OVF_OVF 0 1
      have tx := fun u : State => fun same : u.fab = (sentAgain s peer.toNat f lp k).fab =>
        congrArg (fun y : Fabric => tget y.tx (flowKey peer.toNat f) {}) same
      exact ⟨_, congrArg Host.Outcome.next (kftRto_of_again alone port may),
        SameMemory.trans ⟨fun _ => rfl, rfl⟩ (sameMemory_bumpEventAt (sentAgain s peer.toNat f lp k) ..),
        (congrArg KftTx.unacked (tx _ kept)).trans unacked, (congrArg KftTx.cwnd (tx _ kept)).trans cwnd,
        (congrArg (fun y : Fabric => y.frames.length) kept).trans frames⟩
    case stays => exact congrArg Host.Outcome.next (if_pos ⟨done, empty⟩)
    case abandon => exact congrArg Host.Outcome.next (if_neg fun h => open_ h.1)

end Sys2Proof.Machine
end

section
/-! PROOF. FAB_WRITE and FAB_READ (R386 to R389). -/

namespace Sys2Proof.Machine

theorem kind_of_runnable {s : State} {cid kind : Nat} {c : Cmd} (runs : runnable s cid kind = some c) :
    s.cmd? cid = some c ∧ c.st = .started ∧ c.kind.toNat = kind := by
  unfold runnable at runs
  split at runs
  · next command =>
    split at runs
    · next can => cases runs; exact ⟨command, can.1, can.2.1⟩
    · cases runs
  · cases runs

/-- A started command that ends has ended with the status. -/
theorem ended_endCmd {s : State} {cid : Nat} {c : Cmd} (command : s.cmd? cid = some c) (runs : c.st = .started)
    (event : BitVec 3) (status : Byte) : ∃ x, (endCmd s cid event status).cmd? cid = some x ∧ x.st = .ended status := by
  obtain ⟨x, found, same⟩ := cmd?_endCmd_self event status command runs
  exact ⟨x, found, congrArg Cmd.st same⟩

/-! ## What a command of the fabric does when it may go -/

theorem fabDue_setCmd (s : State) (cid : Nat) (c : Cmd) :
    fabDue (setCmd s cid c) { c with running := true } = fabDue s c := rfl

/-- A command that may go moves its bytes, or asks for them, by its kind. -/
theorem fabGo_of_due {s : State} {cid : Nat} {c : Cmd} (command : s.cmd? cid = some c) (runs : c.running = true)
    (due : fabDue s c = true) : fabGo s cid = if c.kind = 0x10 then fabSignal (fabMove (bodyBits c 0x10 36 0) s cid) cid
      else if c.kind = 0x11 then fabAsk s cid c else s := by
  simp only [fabGo, command, runs, due, Bool.not_true, Bool.or_self, Bool.false_eq_true, if_false]

theorem fabGo_of_not_due {s : State} {cid : Nat} {c : Cmd} (command : s.cmd? cid = some c) (later : fabDue s c = false) :
    fabGo s cid = s := by
  simp only [fabGo, command, later, Bool.not_false, Bool.or_true, if_true]

section Start
variable {s : State} {cid kind : Nat} {c : Cmd} (runs : runnable s cid kind = some c) (new : c.running = false)
include runs new

/-- A command that breaks R388 ends with 0x0F. -/
theorem fabStart_of_bad (bad : fabBad c (kind = 0x10) = true) : fabStart s cid kind = finishCmd s cid 0x0F := by
  simp only [fabStart, runs, new, bad, Bool.false_eq_true, if_false, if_true]

/-- A good command runs, and goes when it may. -/
theorem fabStart_of_good (good : fabBad c (kind = 0x10) = false) :
    fabStart s cid kind = fabGo (setCmd s cid { c with running := true }) cid := by
  simp only [fabStart, runs, new, good, Bool.false_eq_true, if_false]

theorem fabStart_of_later (good : fabBad c (kind = 0x10) = false) (later : fabDue s c = false) :
    fabStart s cid kind = setCmd s cid { c with running := true } :=
  (fabStart_of_good runs new good).trans (fabGo_of_not_due (cmd?_setCmd_self ..) later)

theorem fabStart_of_due (good : fabBad c (kind = 0x10) = false) (due : fabDue s c = true) : fabStart s cid kind =
    if c.kind = 0x10 then fabSignal (fabMove (bodyBits c 0x10 36 0) (setCmd s cid { c with running := true }) cid) cid
      else if c.kind = 0x11 then fabAsk (setCmd s cid { c with running := true }) cid { c with running := true }
      else setCmd s cid { c with running := true } :=
  (fabStart_of_good runs new good).trans (fabGo_of_due (c := { c with running := true }) (cmd?_setCmd_self ..) rfl due)

end Start

/-! ## Sending -/

/-- `t` is `s` but for the sending ends of flows and the frames on the fabric. -/
def OnlySends (s t : State) : Prop := t = { s with fab := { s.fab with tx := t.fab.tx, frames := t.fab.frames } }

theorem OnlySends.trans {s t u : State} (h : OnlySends s t) (h' : OnlySends t u) : OnlySends s u := by
  unfold OnlySends at *
  rw [h', h]

theorem modTx_onlySends (s : State) (p f : Nat) (g : KftTx → KftTx) : OnlySends s (modTx s p f g) := rfl

theorem kftPut_onlySends (s : State) (lp p f : Nat) (k : KftSent) (wrap : Nat) : OnlySends s (kftPut s lp p f k wrap) := rfl

theorem kftGo_onlySends (n : Nat) (s : State) (p f : Nat) : OnlySends s (kftGo n s p f) := by
  induction n generalizing s with
  | zero => rfl
  | succ n ih =>
    simp only [kftGo]
    split
    · split
      · exact (modTx_onlySends ..).trans ((kftPut_onlySends ..).trans (ih _))
      · rfl
    · rfl

/-- What is sent changes the flow and the frames alone. -/
theorem kftSend_onlySends (s : State) (p f : Nat) (k : KftPkt) : OnlySends s (kftSend s p f k) :=
  (modTx_onlySends ..).trans (kftGo_onlySends ..)

theorem modCmd_of_cmd {s : State} {cid : Nat} {c : Cmd} (command : s.cmd? cid = some c) (f : Cmd → Cmd) :
    modCmd s cid f = setCmd s cid (f c) := by
  simp only [modCmd, command]

/-- What the hub keeps of a FAB_READ that has asked its peer. -/
def fabReadOf (cid : Nat) (c : Cmd) : KftRead :=
  { peer := bodyBits c 0x08 49 42, flow := bodyBits c 0x08 52 50, offset := bodyBits c 0x08 41 0
    len := bodyBits c 0x10 36 0, owner := .inr cid }

/-- A FAB_READ with its request outstanding. -/
def fabAsking (c : Cmd) : Cmd := { c with windowWrites := c.windowWrites + 1, progress := bodyBits c 0x10 36 0 }

/-- A read that may go asks its peer once for all its bytes. -/
theorem fabAsk_eq {s : State} {cid : Nat} {c : Cmd} (command : s.cmd? cid = some c) (fresh : c.progress = 0)
    (runs : c.stopped = none)
    (peer : peerOk s (bodyBits c 0x08 49 42) (bodyBits c 0x08 41 0 + bodyBits c 0x10 36 0 - 1) = true) :
    fabAsk s cid c = kftSend (setCmd (setCmd (modFab s fun x => { x with
        nextOp := x.nextOp + 1, reads := tset x.reads (s.fab.nextOp % 2 ^ 24) (fabReadOf cid c) }) cid
          { c with windowWrites := c.windowWrites + 1 }) cid (fabAsking c))
      (bodyBits c 0x08 49 42) (bodyBits c 0x08 52 50) {
        op := 1, offset := bodyBits c 0x08 41 0, opid := s.fab.nextOp % 2 ^ 24, data :=
          leBytes 8 (bodyBits c 0x10 36 0), owner := .read (s.fab.nextOp % 2 ^ 24) } := by
  have may : ¬ (c.progress ≠ 0 ∨ c.stopped.isSome = true) := by simp [fresh, runs]
  have counted := modCmd_of_cmd (s := modFab s fun x => { x with
    nextOp := x.nextOp + 1, reads := tset x.reads (s.fab.nextOp % 2 ^ 24) (fabReadOf cid c) }) (cid := cid) command
    fun c => { c with windowWrites := c.windowWrites + 1 }
  have moved := modCmd_of_cmd (cmd?_setCmd_self (modFab s fun x => { x with
    nextOp := x.nextOp + 1, reads := tset x.reads (s.fab.nextOp % 2 ^ 24) (fabReadOf cid c) }) cid
    { c with windowWrites := c.windowWrites + 1 }) fun d => { d with progress := bodyBits c 0x10 36 0 }
  unfold fabReadOf at counted moved
  simp only [fabAsk, if_neg may, peer, Bool.not_true, Bool.false_eq_true, if_false, cmdOut, counted, moved]
  rfl

theorem fabAsk_spec {s : State} {cid : Nat} {c : Cmd} (command : s.cmd? cid = some c) (fresh : c.progress = 0)
    (runs : c.stopped = none)
    (peer : peerOk s (bodyBits c 0x08 49 42) (bodyBits c 0x08 41 0 + bodyBits c 0x10 36 0 - 1) = true) :
    SameMemory s (fabAsk s cid c) ∧ (fabAsk s cid c).cmd? cid = some (fabAsking c) ∧
      tget? (fabAsk s cid c).fab.reads (s.fab.nextOp % 2 ^ 24) = some (fabReadOf cid c) := by
  rw [fabAsk_eq command fresh runs peer, kftSend_onlySends]
  exact ⟨⟨fun _ => rfl, rfl⟩, cmd?_setCmd_self .., tget?_tset_self ..⟩

/-! ## Instants and ends -/

/-- TIMED_FAB_START makes a read due whose instant has come. -/
theorem timedFab_of_due {s : State} {cid : Nat} {c : Cmd} {time : W64} (command : s.cmd? cid = some c)
    (runs : c.running = true) (read : c.kind = 0x11) (timed : bodyBits c 0x08 53 53 = 1)
    (due : bodyBits c 0x18 63 0 ≤ (setTime s time).time.toNat) :
    timedFab s cid time = fabAsk (setCmd (setTime s time) cid { c with due := true }) cid { c with due := true } := by
  have command' : (setTime s time).cmd? cid = some c := command
  have may : fabDue (setCmd (setTime s time) cid { c with due := true }) { c with due := true } = true := by simp [fabDue]
  have goes := fabGo_of_due (cmd?_setCmd_self (setTime s time) cid { c with due := true }) runs may
  have reaches : (c.running && (c.kind == 0x10 || c.kind == 0x11) && bodyBits c 0x08 53 53 == 1
      && decide (bodyBits c 0x18 63 0 ≤ (setTime s time).time.toNat)) = true := by
    rw [runs, read, timed, decide_eq_true due]
    rfl
  have noWrite : c.kind ≠ 0x10 := read ▸ by decide
  simp only [timedFab, command', reaches, if_true]
  exact goes.trans ((if_neg noWrite).trans (if_pos read))

theorem timedFab_of_early {s : State} {cid : Nat} {c : Cmd} {time : W64} (command : s.cmd? cid = some c)
    (early : (setTime s time).time.toNat < bodyBits c 0x18 63 0) : timedFab s cid time = setTime s time := by
  have command' : (setTime s time).cmd? cid = some c := command
  simp only [timedFab, command', decide_eq_false (Nat.not_le.mpr early), Bool.and_false, Bool.false_eq_true, if_false]

/-- A read that has asked does not ask again. -/
theorem fabGo_of_asked {s : State} {cid : Nat} {c : Cmd} (command : s.cmd? cid = some c) (runs : c.running = true)
    (read : c.kind = 0x11) (asked : c.progress ≠ 0) : fabGo s cid = s := by
  have still : fabAsk s cid c = s := if_pos (Or.inl asked)
  cases due : fabDue s c with
  | false => exact fabGo_of_not_due command due
  | true => simp only [fabGo_of_due command runs due, read, still]; rfl

/-- A read with nothing outstanding and all its bytes ends. -/
theorem fabComplete_of_full {s : State} {cid : Nat} {c : Cmd} (command : s.cmd? cid = some c) (runs : c.running = true)
    (read : c.kind = 0x11) (settled : c.windowWrites = 0) (full : c.progress = bodyBits c 0x10 36 0)
    (asks : bodyBits c 0x10 36 0 ≠ 0) :
    fabComplete s cid = endCmd s cid (if c.stopped.getD 0 = 0x0F then 5 else 3) (c.stopped.getD 0) := by
  have quiet := fabGo_of_asked command runs read (full ▸ asks)
  simp only [fabComplete, quiet, command, runs, read, settled, full]
  simp

/-- Settles O36: a command is checked first, then begins, asks, falls due or ends by the case of its operation. -/
theorem fabricCommandsRunAndEnd : Obligations.FabricCommandsRunAndEnd := by
  intro s cid c ended off len peer
  refine ⟨fun runs new => ⟨?badWrite, ?laterWrite, ?write⟩, fun runs new => ⟨?badRead, ?laterRead, ?read⟩,
    fun time command runs read timed => ⟨?due, ?early⟩, ?complete⟩
  case badWrite =>
    intro bad
    obtain ⟨command, started, -⟩ := kind_of_runnable runs
    exact ⟨_, congrArg Host.Outcome.next (fabStart_of_bad runs new bad), ended_endCmd command started 3 0x0F⟩
  case laterWrite => exact fun good later => congrArg Host.Outcome.next (fabStart_of_later runs new good later)
  case write =>
    intro good due
    obtain ⟨-, -, kind⟩ := kind_of_runnable runs
    refine congrArg Host.Outcome.next ((fabStart_of_due runs new good due).trans (if_pos ?_))
    exact BitVec.eq_of_toNat_eq kind
  case badRead =>
    intro bad
    obtain ⟨command, started, -⟩ := kind_of_runnable runs
    exact ⟨_, congrArg Host.Outcome.next (fabStart_of_bad runs new bad), ended_endCmd command started 3 0x0F⟩
  case laterRead => exact fun good later => congrArg Host.Outcome.next (fabStart_of_later runs new good later)
  case read =>
    intro good due fresh unstopped open_
    obtain ⟨-, -, kind⟩ := kind_of_runnable runs
    have read : c.kind = 0x11 := BitVec.eq_of_toNat_eq kind
    have asks : fabStart s cid 0x11 = fabAsk (setCmd s cid { c with running := true }) cid { c with running := true } := by
      rw [fabStart_of_due runs new good due, read]
      rfl
    obtain ⟨memory, command, reads⟩ := fabAsk_spec (s := setCmd s cid { c with running := true })
      (c := { c with running := true }) (cmd?_setCmd_self ..) fresh unstopped open_
    exact ⟨_, _, congrArg Host.Outcome.next asks, memory, command, rfl, rfl, reads⟩
  case due => exact fun due => congrArg Host.Outcome.next (timedFab_of_due command runs read timed due)
  case early => exact fun early => congrArg Host.Outcome.next (timedFab_of_early command early)
  case complete =>
    intro command started runs read settled full asks
    exact ⟨_, congrArg Host.Outcome.next (fabComplete_of_full command runs read settled full asks),
      ended_endCmd command started _ _⟩

end Sys2Proof.Machine
end

section
/-! PROOF. Alpenglow time: PTP and 1PPS (R383 to R386, R508). -/

namespace Sys2Proof.Machine

/-- Nothing waits for time: no kernel, no command, no set, no die with a grant to come. -/
structure NothingTimed (s : State) : Prop where
  kernels : s.kernels = []
  cmds : s.qs.cmds = []
  sets : s.fab.sets = []
  dies : s.pwr.dies = []

theorem timedStarts_of_nothing {s : State} (h : NothingTimed s) : timedStarts s = s := by
  have grants : stepGrants s = s := by rw [stepGrants, h.dies]; rfl
  rw [timedStarts, grants, h.kernels]
  simp only [tkeys, List.map_nil, List.foldl_nil, h.cmds, h.sets, List.flatMap_nil]

/-- The fabric's readiness changes STATE of the status window and the alert alone. -/
theorem fabReady_eq (s : State) : ∃ n m, fabReady s = { s with boot := { s.boot with state := n }, mgmt := m } := by
  unfold fabReady
  split
  · exact ⟨_, _, (setBootState_eq s 4).2⟩
  · exact ⟨_, _, rfl⟩

/-! ## STATE and OFFSET -/

/-- With no set registered, a change of STATE changes registers alone, and of HUB_AG_STATUS only STATE and STEPPED. -/
theorem agChange_spec {s : State} (noSets : s.fab.sets = []) {st : Nat} (small : st < 8) (stepped : Bool) :
    let t := agChange s st stepped
    OnlyRegs s t ∧ agState t = st ∧ (stepped = true → fld t 0 R.HUB_AG_STATUS_STEPPED = 1) ∧
      ∀ f : FRef, f.Apart R.HUB_AG_STATUS_STATE → f.Apart R.HUB_AG_STATUS_STEPPED → fld t 0 f = fld s 0 f := by
  have silent : ∀ u : State, u.fab.sets = [] → agEvent u stepped = u := by
    intro u none
    rw [agEvent, none]
    rfl
  have quiet : agChange s st stepped = if stepped then setFld (setFld s 0 R.HUB_AG_STATUS_STATE st) 0
    R.HUB_AG_STATUS_STEPPED 1
      else setFld s 0 R.HUB_AG_STATUS_STATE st := by
    unfold agChange
    dsimp only
    split
    · exact silent _ (by split <;> exact noSets)
    · rfl
  have state : fld (setFld s 0 R.HUB_AG_STATUS_STATE st) 0 R.HUB_AG_STATUS_STATE = st :=
    (fld_setFld_self _ _ _ _ (by decide)).trans (Nat.mod_eq_of_lt small)
  intro t
  rw [show t = _ from quiet]
  cases stepped with
  | false => exact ⟨rfl, state, nofun, fun f first _ => fld_setFld_of_bits_apart _ _ _ first⟩
  | true =>
    refine ⟨rfl, (fld_setFld_of_bits_apart _ _ _ (by decide)).trans state, fun _ => fld_setFld_self _ _ _ _ (by decide),
      fun f first second => ?_⟩
    exact (fld_setFld_of_bits_apart _ _ _ second).trans (fld_setFld_of_bits_apart _ _ _ first)

/-- Does time step forward to a PTP time? -/
def stepsTo (s : State) (ptp : W64) : Bool :=
  decide (0 < ptp.toNat - s.time.toNat) &&
    (agState s == 0 || decide (fld s 0 R.HUB_AG_CFG_STEP_US * 1000 < ptp.toNat - s.time.toNat))

/-- A measurement records OFFSET, and steps time forward or leaves it. -/
theorem agMeasure_eq (s : State) (ptp : W64) : agMeasure s ptp =
    ({ setFld s 0 R.HUB_AG_STATUS_OFFSET ((s.time - ptp).toNat % 2 ^ 32) with
        time := if stepsTo s ptp then ptp else s.time }, stepsTo s ptp) := by
  have step : fld (setFld s 0 R.HUB_AG_STATUS_OFFSET ((s.time - ptp).toNat % 2 ^ 32)) 0 R.HUB_AG_CFG_STEP_US =
      fld s 0 R.HUB_AG_CFG_STEP_US := fld_setFld_of_off_ne _ _ _ (by decide)
  unfold agMeasure
  dsimp only
  rw [step, setFld_time]
  split
  · next h =>
    have steps : stepsTo s ptp = true := by simpa [stepsTo] using h
    rw [steps]
    rfl
  · next h =>
    have stays : stepsTo s ptp = false := by
      rw [Bool.eq_false_iff]
      simpa [stepsTo] using h
    rw [stays]
    rfl

/-- Time that steps does not go back. -/
theorem le_of_stepsTo {s : State} {ptp : W64} (h : stepsTo s ptp = true) : s.time ≤ ptp := by
  simp only [stepsTo, Bool.and_eq_true, decide_eq_true_eq] at h
  rw [BitVec.le_def]
  omega

/-- The state after a measurement of time, with STATE `st`. -/
def measured (s : State) (ptp : W64) (st : Nat) : State := agChange (agMeasure s ptp).1 st (agMeasure s ptp).2

/-- What a measurement leaves: memory, the fabric, and all of HUB_AG_STATUS but OFFSET, STATE and STEPPED. -/
theorem measured_spec {s : State} (quiet : NothingTimed s) (ptp : W64) {st : Nat} (small : st < 8) :
    let t := measured s ptp st
    NothingTimed t ∧ SameMemory s t ∧ t.fab = s.fab ∧ t.time = (if stepsTo s ptp then ptp else s.time) ∧ agState t = st ∧
      fld t 0 R.HUB_AG_STATUS_OFFSET = (s.time - ptp).toNat % 2 ^ 32 ∧
      fld t 0 R.HUB_AG_STATUS_PORT = fld s 0 R.HUB_AG_STATUS_PORT ∧
      (stepsTo s ptp = true → fld t 0 R.HUB_AG_STATUS_STEPPED = 1) := by
  obtain ⟨only, state, steps, others⟩ := agChange_spec (s := (agMeasure s ptp).1) (by rw [agMeasure_eq]; exact quiet.sets)
    small (agMeasure s ptp).2
  intro t
  have only' : OnlyRegs (agMeasure s ptp).1 t := only
  have at_ : ∀ f : FRef, f.Apart R.HUB_AG_STATUS_STATE → f.Apart R.HUB_AG_STATUS_STEPPED →
      fld t 0 f = fld (setFld s 0 R.HUB_AG_STATUS_OFFSET ((s.time - ptp).toNat % 2 ^ 32)) 0 f := by
    intro f first second
    refine (others f first second).trans ?_
    rw [agMeasure_eq]
    rfl
  have flag : (agMeasure s ptp).2 = stepsTo s ptp := by rw [agMeasure_eq]
  rw [agMeasure_eq] at only'
  refine ⟨?_, ?_, ?_, ?_, state, ?_, ?_, fun h => steps (flag.trans h)⟩
  · rw [only']
    exact ⟨quiet.kernels, quiet.cmds, quiet.sets, quiet.dies⟩
  · rw [only']
    exact ⟨fun _ => rfl, rfl⟩
  · rw [only']
    rfl
  · rw [only']
  · refine (at_ _ (by decide) (by decide)).trans ((fld_setFld_self _ _ _ _ (by decide)).trans ?_)
    exact Nat.mod_mod ..
  · exact (at_ _ (by decide) (by decide)).trans (fld_setFld_of_bits_apart _ _ _ (by decide))

/-! ## PTP messages -/

/-- STATE after a message of PTP that 1PPS does not correct. -/
def ptpState (s : State) (m : PtpMsg) : Nat :=
  if m.steady ∧ (m.ptp.toInt - s.time.toInt).natAbs < 100 ∧ agState s ≠ 0 then 2 else 1

theorem ptpState_lt (s : State) (m : PtpMsg) : ptpState s m < 8 := by
  unfold ptpState
  split <;> decide

theorem agState_setFld (s : State) (x : Nat) {f : FRef} (apart : R.HUB_AG_STATUS_STATE.Apart f) :
    agState (setFld s 0 f x) = agState s := fld_setFld_of_bits_apart _ _ _ apart

/-- STATE of the window and the alert do not say what a register reads as, nor what waits for time. -/
theorem fabReady_spec' (s : State) : (∀ die f, fld (fabReady s) die f = fld s die f) ∧ (fabReady s).time = s.time ∧
    (NothingTimed s → NothingTimed (fabReady s)) := by
  obtain ⟨n, m, same⟩ := fabReady_eq s
  rw [same]
  exact ⟨fun _ _ => fldAt_congr rfl rfl _ _ _, rfl, fun h => ⟨h.kernels, h.cmds, h.sets, h.dies⟩⟩

/-- With 1PPS not in use a message measures time against its own. -/
theorem ptpMessage_of_ptp {s : State} (quiet : NothingTimed s) (noPps : ppsInUse s = false) (m : PtpMsg) : ptpMessage s m =
    fabReady (measured (setFld s 0 R.HUB_AG_STATUS_PORT m.port.toNat) m.ptp (ptpState s m)) := by
  have state : agState (setFld s 0 R.HUB_AG_STATUS_PORT m.port.toNat) = agState s := agState_setFld _ _ (by decide)
  have st : (if (m.steady && decide ((m.ptp.toInt - s.time.toInt).natAbs < 100) && agState s != 0) = true then 2 else 1) =
      ptpState s m := by simp [ptpState, and_assoc]
  obtain ⟨still, -⟩ := measured_spec (s := setFld s 0 R.HUB_AG_STATUS_PORT m.port.toNat)
    ⟨quiet.kernels, quiet.cmds, quiet.sets, quiet.dies⟩ m.ptp (ptpState_lt s m)
  have none := timedStarts_of_nothing ((fabReady_spec' _).2.2 still)
  unfold measured at none ⊢
  simp only [ptpMessage, noPps, Bool.false_eq_true, false_and, if_false, state, st, none, ite_self]

/-! ## Edges of 1PPS -/

/-- First edge of the run that an edge now belongs to. -/
def edgeRun (s : State) : W64 :=
  match s.fab.ppsLast, s.fab.ppsFirst with
  | some l, some f => if s.time.toNat < l.toNat + 2000000000 then f else s.time
  | _, _ => s.time

/-- Is a lost input still lost after an edge now? -/
def edgeLost (s : State) : Bool :=
  s.fab.ppsLost && !(s.fab.ppsLost && decide ((edgeRun s).toNat + 16000000000 ≤ s.time.toNat))

/-- An edge now is recorded. -/
def edgeTaken (s : State) : State :=
  modFab s fun x => { x with ppsFirst := some (edgeRun s), ppsLast := some s.time, ppsLost := edgeLost s }

/-- Time that reaches nothing starts nothing. -/
theorem ite_timedStarts (c : Bool) {u v : State} (same : u = v) (none : timedStarts v = v) :
    (if c then timedStarts u else u) = v := by
  subst same
  rw [none, ite_self]

/-- An input that was not lost is not lost after an edge. -/
theorem edgeLost_of_kept {s : State} (h : s.fab.ppsLost = false) : edgeLost s = false := by rw [edgeLost, h]; rfl

/-- A lost input whose run has lasted 16 s is found again. -/
theorem edgeLost_of_run {s : State} {l f : W64} (last : s.fab.ppsLast = some l) (first : s.fab.ppsFirst = some f)
    (near : s.time.toNat < l.toNat + 2000000000) (long : f.toNat + 16000000000 ≤ s.time.toNat) : edgeLost s = false := by
  have run : edgeRun s = f := by
    rw [edgeRun, last, first]
    exact if_pos near
  rw [edgeLost, run, decide_eq_true long, Bool.and_true]
  exact Bool.and_not_self _

/-- An edge of an enabled input is recorded, and measures time where the input is in use. -/
theorem ppsEdge_of_on {s : State} (quiet : NothingTimed s) (on : fld s 0 R.HUB_AG_CFG_PPS_EN = 1) (w : W64) :
    ppsEdge s w = if edgeLost (setTime s w) = true ∨ agState s = 0 then edgeTaken (setTime s w)
      else measured (edgeTaken (setTime s w)) (BitVec.ofNat 64 (nearestSecond (setTime s w).time.toNat)) (agState s) := by
  have on' : fld (setTime s w) 0 R.HUB_AG_CFG_PPS_EN = 1 := on
  have small : agState s < 8 := bits_lt _ _ _
  obtain ⟨still, -⟩ := measured_spec (s := edgeTaken (setTime s w)) ⟨quiet.kernels, quiet.cmds, quiet.sets, quiet.dies⟩
    (BitVec.ofNat 64 (nearestSecond (setTime s w).time.toNat)) small
  have none := timedStarts_of_nothing still
  unfold ppsEdge
  refine (if_neg (by rw [on']; decide)).trans (ite_congr rfl (fun _ => rfl) fun _ => ?_)
  exact ite_timedStarts _ rfl none

/-- Settles O39: a message or an edge measures time against its own instant, recording OFFSET and stepping time forward or
leaving it; the rest is the branch of the timeout that the hypothesis names. -/
theorem alpenglowTimeFollowsPtpAndOnePps : Obligations.AlpenglowTimeFollowsPtpAndOnePps := by
  intro s kernels cmds sets dies
  have quiet : NothingTimed s := ⟨kernels, cmds, sets, dies⟩
  refine ⟨fun m noPps => ?ptp, fun w => ⟨?holdover, ?stays, ?noPps, ?edge, ?loss⟩⟩
  case ptp =>
    intro behind stepped
    have port : agState (setFld s 0 R.HUB_AG_STATUS_PORT m.port.toNat) = agState s := agState_setFld _ _ (by decide)
    have step : stepsTo (setFld s 0 R.HUB_AG_STATUS_PORT m.port.toNat) m.ptp = stepped := by
      rw [stepsTo, port, fld_setFld_of_off_ne _ _ _ (by decide)]
      rfl
    obtain ⟨-, memory, -, time, state, offset, named, steps⟩ := measured_spec
      (s := setFld s 0 R.HUB_AG_STATUS_PORT m.port.toNat) ⟨kernels, cmds, sets, dies⟩ m.ptp (ptpState_lt s m)
    obtain ⟨same, clock, -⟩ := fabReady_spec' (measured (setFld s 0 R.HUB_AG_STATUS_PORT m.port.toNat) m.ptp (ptpState s m))
    rw [step] at time steps
    refine ⟨_, congrArg Host.Outcome.next (ptpMessage_of_ptp quiet noPps m),
      SameMemory.trans (SameMemory.trans ⟨fun _ => rfl, rfl⟩ memory) (fabReady_spec _).1, clock.trans time,
      (same _ _).trans state, (same _ _).trans (named.trans ?_), (same _ _).trans offset,
      fun h => (same _ _).trans (steps h)⟩
    exact (fld_setFld_self _ _ _ _ (by decide)).trans (Nat.mod_eq_of_lt m.port.isLt)
  case holdover =>
    intro locked
    have state : agState (setTime s w) = 2 := locked
    obtain ⟨only, lost, -, others⟩ := agChange_spec (s := setFld (setTime s w) 0 R.HUB_AG_STATUS_LOST 1) sets
      (show 3 < 8 by decide) false
    refine ⟨_, congrArg Host.Outcome.next (if_pos state), ?_, ?_, lost, ?_⟩
    · exact SameMemory.trans ⟨fun _ => rfl, rfl⟩ only.sameMemory
    · rw [only]
      rfl
    · exact (others _ (by decide) (by decide)).trans (fld_setFld_self _ _ _ _ (by decide))
  case stays => exact fun other => congrArg Host.Outcome.next (if_neg other)
  case noPps => exact fun off => congrArg Host.Outcome.next (if_pos off)
  case edge =>
    intro on
    have small : agState s < 8 := bits_lt _ _ _
    obtain ⟨-, memory, fabric, time, state, offset, -⟩ := measured_spec (s := edgeTaken (setTime s w))
      ⟨kernels, cmds, sets, dies⟩ (BitVec.ofNat 64 (nearestSecond (setTime s w).time.toNat)) small
    have edge := ppsEdge_of_on quiet on w
    by_cases idle : edgeLost (setTime s w) = true ∨ agState s = 0
    · rw [if_pos idle] at edge
      refine ⟨_, congrArg Host.Outcome.next edge, ⟨fun _ => rfl, rfl⟩, BitVec.le_refl _, rfl, rfl, fun kept => ?_,
        fun l f _ last first near long => edgeLost_of_run (s := setTime s w) last first near long⟩
      have found := edgeLost_of_kept (s := setTime s w) kept
      refine ⟨found, fun unlocked => absurd idle ?_⟩
      rw [found, not_or]
      exact ⟨nofun, unlocked⟩
    · rw [if_neg idle] at edge
      have found : edgeLost (setTime s w) = false := by
        rw [Bool.eq_false_iff]
        exact fun h => idle (.inl h)
      refine ⟨_, congrArg Host.Outcome.next edge, memory, ?_, state, ?_, fun _ => ⟨?_, fun _ => offset⟩,
        fun _ _ _ _ _ _ _ => ?_⟩
      · refine BitVec.le_trans (BitVec.le_refl (setTime s w).time) (time ▸ ?_)
        by_cases steps : stepsTo (edgeTaken (setTime s w)) (BitVec.ofNat 64 (nearestSecond (setTime s w).time.toNat)) = true
        · rw [if_pos steps]
          exact le_of_stepsTo steps
        · rw [if_neg steps]
          exact BitVec.le_refl _
      · exact congrArg Fabric.ppsLast fabric
      · exact (congrArg Fabric.ppsLost fabric).trans found
      · exact (congrArg Fabric.ppsLost fabric).trans found
  case loss =>
    intro l last late
    have last' : (setTime s w).fab.ppsLast = some l := last
    have loses : ppsLoss s w =
      modFab (setTime s w) fun x => { x with ppsLost := true, ppsFirst := none, ppsLast := none } := by
      simp only [ppsLoss, last']
      exact if_pos late
    refine ⟨_, congrArg Host.Outcome.next loses, ⟨fun _ => rfl, rfl⟩, ⟨rfl, rfl⟩, ?_, rfl⟩
    simp [ppsInUse, modFab]

end Sys2Proof.Machine
end

section
/-! PROOF. Ridge modules: frames in order, resends, retrains and retirement (R399 to R402, R405, R406, R410). -/

namespace Sys2Proof.Machine

/-- `t` is `s` but for the modules of Ridge links. -/
def OnlyRidgeMods (s t : State) : Prop := t = { s with ridge := { s.ridge with mods := t.ridge.mods } }

theorem OnlyRidgeMods.refl (s : State) : OnlyRidgeMods s s := rfl

theorem OnlyRidgeMods.trans {s t u : State} (h : OnlyRidgeMods s t) (h' : OnlyRidgeMods t u) : OnlyRidgeMods s u := by
  unfold OnlyRidgeMods at *
  rw [h', h]

theorem modRmod_onlyRidgeMods (s : State) (k : Nat) (f : RidgeModule → RidgeModule) : OnlyRidgeMods s (modRmod s k f) := rfl

theorem ridgeOwe_onlyRidgeMods (s : State) (origin : Option (Nat × Nat)) : OnlyRidgeMods s (ridgeOwe s origin) := by
  cases origin with
  | none => exact .refl s
  | some o => exact modRmod_onlyRidgeMods ..

theorem OnlyRidgeMods.foldl {α : Type} {f : State → α → State} (each : ∀ s x, OnlyRidgeMods s (f s x)) (l : List α)
    (s : State) : OnlyRidgeMods s (l.foldl f s) := by
  induction l generalizing s with
  | nil => exact .refl s
  | cons x l ih => exact (each s x).trans (ih _)

/-! ## What a change of a module leaves of a module -/

theorem rmod_modRmod (s : State) (k d m : Nat) (f : RidgeModule → RidgeModule) :
    (modRmod s k f).rmod d m = if ridgeKey d m = k then f (s.rmod d m) else s.rmod d m := by
  unfold State.rmod modRmod
  simp only [tmod, tget_tset]
  split
  · next same => rw [same]
  · rfl

/-- A change that keeps a part of a module keeps it of every module. -/
theorem rmod_modRmod_keeps {α : Type} (part : RidgeModule → α) {f : RidgeModule → RidgeModule}
    (keeps : ∀ x, part (f x) = part x)
    (s : State) (k d m : Nat) : part ((modRmod s k f).rmod d m) = part (s.rmod d m) := by
  rw [rmod_modRmod]
  split
  · exact keeps _
  · rfl

/-! ## Receiving -/

/-- The module after the frame that is next in its sequence. -/
def frameTaken (s : State) (d m : Nat) (f : FrameHdr) : State :=
  modRmod s (ridgeKey d m) fun y => { ridgeAcks y f with rxSeq := f.seq.toNat, discard := false, ackDue := true }

section Receive

variable {s : State} {d m : Nat} {f : FrameHdr} (up : ridgeUp s d m = true) (here : (s.rmod d m).retraining = false)
include up here

theorem ridgeReceive_of_bad (bad : f.crcOk = false ∨ f.cls = 7) (b : BitVec 1920) : ridgeReceive s d m f b =
    modRmod s (ridgeKey d m) fun y => { y with discard := true, nakDue := true } := by
  have bad' : (!f.crcOk) = true ∨ f.cls = 7 := by simpa using bad
  simp only [ridgeReceive, up, here, bad', Bool.not_true, Bool.or_self, Bool.false_eq_true, if_false, if_true]

variable (good : f.crcOk = true)
include good

theorem ridgeReceive_of_idle (idle : f.cls = 6) (b : BitVec 1920) : ridgeReceive s d m f b =
    modRmod s (ridgeKey d m) fun y => ridgeAcks y f := by
  have fine : ¬((!f.crcOk) = true ∨ f.cls = 7) := by simp [good, idle]
  simp only [ridgeReceive, up, here, fine, Bool.not_true, Bool.or_self, Bool.false_eq_true, if_false]
  exact if_pos idle

variable (data : f.cls.toNat < 6)
include data

/-- A good data frame is the next one of its sequence, or it is not. -/
theorem ridgeReceive_of_data (b : BitVec 1920) : ridgeReceive s d m f b =
    if f.seq.toNat = ((s.rmod d m).rxSeq + 1) % 1024 then
      ridgeDeliver (frameTaken s d m f) d m
        { stream := f.stream.toNat, cls := f.cls.toNat, hop := f.hop.toNat, first := f.first, last := f.last, payload := b }
    else if (s.rmod d m).discard ∨ (f.seq.toNat + 1023 - (s.rmod d m).rxSeq) % 1024 ≥ 512 then s
    else modRmod s (ridgeKey d m) fun y => { y with discard := true, nakDue := true } := by
  have not7 : f.cls ≠ 7 := fun h => absurd data (by rw [h]; decide)
  have not6 : f.cls ≠ 6 := fun h => absurd data (by rw [h]; decide)
  have fine : ¬((!f.crcOk) = true ∨ f.cls = 7) := by
    rw [good]
    exact not_or.mpr ⟨nofun, not7⟩
  unfold ridgeReceive
  refine (if_neg ?_).trans ((if_neg fine).trans (if_neg not6))
  simp [up, here]

end Receive

/-- What a module has received: its sequence, whether it discards and whether it owes an acknowledgement. -/
def RidgeModule.received (x : RidgeModule) : Nat × Bool × Bool := (x.rxSeq, x.discard, x.ackDue)

theorem ridgeOwe_received (s : State) (o : Nat × Nat) (d m : Nat) :
    ((ridgeOwe s (some o)).rmod d m).received = (s.rmod d m).received := by
  refine rmod_modRmod_keeps RidgeModule.received ?_ s o.1 d m
  exact fun _ => rfl

/-- A frame that is taken out of a buffer or sent on changes what the modules owe or have to send. -/
theorem ridgeDeliver_keeps (s : State) (d m : Nat) (g : RFrame) :
    SameMemory s (ridgeDeliver s d m g) ∧ SameRegs s (ridgeDeliver s d m g) ∧
      ∀ d' m', ((ridgeDeliver s d m g).rmod d' m').received = (s.rmod d' m').received := by
  unfold ridgeDeliver
  dsimp only
  split
  · exact ⟨⟨fun _ => rfl, rfl⟩, ⟨rfl, rfl⟩, ridgeOwe_received s _⟩
  · split
    · refine ⟨⟨fun _ => rfl, rfl⟩, ⟨rfl, rfl⟩, rmod_modRmod_keeps RidgeModule.received ?_ s _⟩
      exact fun _ => rfl
    · exact ⟨⟨fun _ => rfl, rfl⟩, ⟨rfl, rfl⟩, ridgeOwe_received _ _⟩

/-- A frame goes on by the module of its stream's next hop. -/
theorem outq_ridgeDeliver {s : State} {g : RFrame} {r : Route} (route : tget? s.ridge.routes g.stream = some r) {n : Nat}
    (next : r.mods[g.hop]? = some n) (d m : Nat) : ((ridgeDeliver s d m g).rmod d n).outq =
      (s.rmod d n).outq ++ [{ g with hop := g.hop + 1, origin := some (ridgeKey d m, bufKey g.cls g.hop) }] := by
  simp only [ridgeDeliver, route, next, rmod_modRmod_self]

/-- A frame at its last hop is delivered. -/
theorem delivered_ridgeDeliver {s : State} {g : RFrame} {r : Route} (route : tget? s.ridge.routes g.stream = some r)
    (last : r.mods[g.hop]? = none) (d m : Nat) : tget (ridgeDeliver s d m g).ridge.delivered g.stream [] =
      tget s.ridge.delivered g.stream [] ++ [g] := by
  simp only [ridgeDeliver, route, last, ridgeOwe, modRmod, tget_tmod_self]

/-! ## Resends -/

/-- Frames put on the wire follow those sent before, and leave the replay buffer. -/
theorem foldl_ridgeWire (fs : List RFrame) (x : RidgeModule) : (fs.foldl ridgeWire x).replay = x.replay ∧
    ∃ sent, (fs.foldl ridgeWire x).wire = x.wire ++ sent ∧ sent.map Prod.snd = fs.map (·.payload) := by
  induction fs generalizing x with
  | nil => exact ⟨rfl, [], (List.append_nil _).symm, rfl⟩
  | cons f fs ih =>
    obtain ⟨replay, sent, wire, payloads⟩ := ih (ridgeWire x f)
    refine ⟨replay, (ridgeHeader x f, f.payload) :: sent, ?_, congrArg (f.payload :: ·) payloads⟩
    rw [List.foldl_cons, wire]
    exact List.append_assoc ..

/-- The frames of the replay buffer that a NAK asks for again. -/
def nakKept (x : RidgeModule) (ack : Nat) : List RFrame :=
  x.replay.filter fun r => !decide ((ack + 1024 - r.seq) % 1024 < 512)

/-- A module after it has sent the frames again that a NAK asks for. -/
def nakResent (x : RidgeModule) (ack : Nat) : RidgeModule :=
  let fs := (nakKept x ack).map fun r => { r with resends := r.resends + 1 }
  { fs.foldl ridgeWire { x with replay := fs } with retraining := fs.any fun r => decide (8 ≤ r.resends) }

theorem ridgeResend_of_up {s : State} {d m : Nat} (up : ridgeUp s d m = true) (here : (s.rmod d m).retraining = false)
    (ack : Nat) : ridgeResend s d m ack = modRmod s (ridgeKey d m) fun x => nakResent x ack := by
  unfold ridgeResend
  exact if_neg (by simp [up, here])

theorem nakResent_spec (x : RidgeModule) (ack : Nat) :
    (nakResent x ack).replay = (nakKept x ack).map (fun r => { r with resends := r.resends + 1 }) ∧
      ((nakResent x ack).wire.drop x.wire.length).map Prod.snd = (nakKept x ack).map (·.payload) ∧
      ((nakResent x ack).retraining = true ↔ ∃ r ∈ nakKept x ack, 7 ≤ r.resends) := by
  obtain ⟨replay, sent, wire, payloads⟩ := foldl_ridgeWire ((nakKept x ack).map fun r => { r with resends := r.resends + 1 })
    { x with replay := (nakKept x ack).map fun r => { r with resends := r.resends + 1 } }
  refine ⟨replay, ?_, ?_⟩
  · rw [show (nakResent x ack).wire = _ from wire, List.drop_left, payloads, List.map_map]
    rfl
  · rw [show (nakResent x ack).retraining = ((nakKept x ack).map _).any _ from rfl, List.any_eq_true]
    simp

/-! ## Retrains -/

theorem ridgeRetrain_ok {s : State} {d m : Nat} (up : ridgeUp s d m = true) : ridgeRetrain s d m true =
    modRmod s (ridgeKey d m) fun x =>
      { x with retraining := false, fails := 0, replay := x.replay.map fun r => { r with resends := 0 } } := by
  simp only [ridgeRetrain, up, Bool.not_true, Bool.false_eq_true, if_false, if_true]

/-- A failed retrain is counted, and a third in a row retires the module. -/
theorem ridgeRetrain_failed {s : State} {d m : Nat} (up : ridgeUp s d m = true) : ridgeRetrain s d m false =
    if 2 ≤ (s.rmod d m).fails then ridgeRetire
      (modRmod s (ridgeKey d m) fun y => { y with retraining := true, fails := y.fails + 1 }) d m
    else modRmod s (ridgeKey d m) fun y => { y with retraining := true, fails := y.fails + 1 } := by
  simp only [ridgeRetrain, up, Bool.not_true, Bool.false_eq_true, if_false, rmod_modRmod_self]
  exact ite_congr (propext Nat.succ_le_succ_iff) (fun _ => rfl) fun _ => rfl

/-! ## Retirement -/

theorem bitAt_eq_testBit (v i : Nat) : bitAt v i = v.testBit i := by
  rw [Nat.testBit_eq_decide_div_mod_eq]
  rfl

/-- A set field of one die leaves the same field of another. -/
theorem fld_setFld_of_die_ne (s : State) {d k : Nat} (other : k ≠ d) (f : FRef) (x : Nat) :
    fld (setFld s d f x) k f = fld s k f := by
  refine fldAt_setFldAt_reg _ _ _ _ _ _ _ _ fun same => other ?_
  unfold regKey at same
  omega

/-- A map with one bit cleared. -/
theorem bitAt_clearBit {v n : Nat} (fits : v < 2 ^ n) (m i : Nat) :
    bitAt (setBits v m m 0 % 2 ^ n) i = (bitAt v i && !decide (i = m)) := by
  rw [bitAt_eq_testBit, Nat.testBit_mod_two_pow, testBit_setBits _ _ _ _ _ le_rfl, Nat.zero_testBit, bitAt_eq_testBit,
    ← Nat.mod_eq_of_lt fits, Nat.testBit_mod_two_pow]
  by_cases bit : i = m
  · simp [bit]
  · have apart : ¬(m ≤ i ∧ i ≤ m) := fun h => bit (le_antisymm h.2 h.1)
    simp [bit, apart]

/-- A module that is cleared is out of service at that end, and no other is. -/
theorem ridgeUp_clearRidge (s : State) (d m d' m' : Nat) :
    ridgeUp (clearRidge s d m) d' m' = (ridgeUp s d' m' && !decide (d' = d ∧ m' = m)) := by
  by_cases same : d' = d
  · subst same
    rw [ridgeUp, clearRidge, fld_setFld_self _ _ _ _ (by decide)]
    refine (bitAt_clearBit (fldAt_lt ..) m m').trans ?_
    simp [ridgeUp, fld]
  · rw [ridgeUp, clearRidge, fld_setFld_of_die_ne _ same]
    simp [same, ridgeUp]

/-- A module that is cleared leaves the queue of reliability events. -/
theorem relQueue_clearRidge (s : State) (d m : Nat) :
    fld (clearRidge s d m) 0 R.HUB_REL_QUEUE_VALID = fld s 0 R.HUB_REL_QUEUE_VALID := by
  by_cases hub : d = 0
  · subst hub
    exact fld_setFld_of_off_ne _ _ _ (by decide)
  · refine fldAt_setFldAt_reg _ _ _ _ _ _ _ _ fun same => hub ?_
    simp only [regKey] at same
    omega

/-- With no test and no calibration open, a retired resource ends none. -/
theorem tasksGone_of_idle {s : State} (tests : s.svc.tests = []) (cairn : s.svc.cairn = []) (r : Rid) :
    tasksGone s r = s := by
  simp [tasksGone, cairnEnd, tests, cairn]

theorem moveFrames_onlyRidgeMods (s : State) (d m : Nat) : OnlyRidgeMods s (moveFrames s d m) := by
  refine OnlyRidgeMods.trans (modRmod_onlyRidgeMods s _ _) (OnlyRidgeMods.trans (OnlyRidgeMods.foldl (fun u f => ?_) _ _)
    (OnlyRidgeMods.foldl (fun u f => ?_) _ _))
  · dsimp only
    split
    · exact modRmod_onlyRidgeMods ..
    · exact .refl u
  · dsimp only
    split
    · exact modRmod_onlyRidgeMods ..
    · exact ridgeOwe_onlyRidgeMods ..

/-- An error of the hub that is counted leaves the map of modules of every die. -/
theorem ridgeUp_bumpErr_hub (s : State) (d m : Nat) :
    ridgeUp (bumpErr s 0 R.HUB_REL_QUEUE_DROPPED) d m = ridgeUp s d m := by
  refine congrArg (bitAt · m) ?_
  by_cases hub : d = 0
  · subst hub
    exact fld_bumpErr_of_off_ne s 0 (by decide)
  · unfold bumpErr bumpErrAt
    simp only
    split
    · exact fldAt_setFldAt_reg _ _ _ _ _ _ _ _ (regKey_ne_die hub (by decide) (by decide))
    · rfl

/-- Both ends of a module cleared, with no arbiter of theirs and no stream. -/
def ridgeEndsCleared (s : State) (d m e n : Nat) : State :=
  { clearRidge (clearRidge s d m) e n with
    arbs := s.arbs.filter fun a => a.1 != arbKey d m && a.1 != arbKey e n, ridge := { s.ridge with routes := [] } }

theorem foldl_filter_of_nil {α β : Type} {l : List α} {W : β} (none : l = []) (p : α → Bool) (f : β → α → β) :
    (l.filter p).foldl f W = W := by
  subst none
  rfl

section Retire

variable {s : State} (routes : s.ridge.routes = []) (tests : s.svc.tests = []) (cairn : s.svc.cairn = [])
  (noQueue : fld s 0 R.HUB_REL_QUEUE_VALID = 0)
include routes tests cairn noQueue

omit noQueue in
/-- With no stream, a retired module's two ends are cleared and its frames dropped. -/
theorem ridgeRetire_of_no_route {d m e n : Nat} (up : ridgeUp s d m = true) (far : ridgeFar d m = some (e, n)) :
    ridgeRetire s d m = retiredEvent (moveFrames (moveFrames (ridgeEndsCleared s d m e n) d m) e n) (rid 4 d m) 0 none := by
  have idle : ∀ r, tasksGone (clearRidge (clearRidge s d m) e n) r = clearRidge (clearRidge s d m) e n :=
    tasksGone_of_idle tests cairn
  have routes' : (clearRidge (clearRidge s d m) e n).ridge.routes = [] := routes
  have moved := (moveFrames_onlyRidgeMods (ridgeEndsCleared s d m e n) d m).trans (moveFrames_onlyRidgeMods _ e n)
  have kept : (retiredEvent (moveFrames (moveFrames (ridgeEndsCleared s d m e n) d m) e n) (rid 4 d m) 0
    none).ridge.routes = [] := by
    rw [retiredEvent, relEvent_frame, drawFree_ridge, moved]
    rfl
  simp only [ridgeRetire, far, up, Bool.not_true, Bool.false_eq_true, if_false, idle, routes', List.map_nil]
  exact foldl_filter_of_nil kept _ _

/-- A retired module is out of service at both its ends, and no other is. -/
theorem ridgeRetire_spec {d m e n : Nat} (up : ridgeUp s d m = true) (far : ridgeFar d m = some (e, n)) :
    let t := ridgeRetire s d m
    SameMemory s t ∧ ∀ d' m',
      ridgeUp t d' m' = (ridgeUp s d' m' && !decide (d' = d ∧ m' = m) && !decide (d' = e ∧ m' = n)) := by
  intro t
  have moved := (moveFrames_onlyRidgeMods (ridgeEndsCleared s d m e n) d m).trans (moveFrames_onlyRidgeMods _ e n)
  have same : t = bumpErr (drawFree (moveFrames (moveFrames (ridgeEndsCleared s d m e n) d m) e n)).2 0
    R.HUB_REL_QUEUE_DROPPED := by
    refine (ridgeRetire_of_no_route routes tests cairn up far).trans (relEvent_of_no_queue ?_ _ _ _)
    refine (fldAt_congr ?_ ?_ _ _ _).trans
      ((relQueue_clearRidge (clearRidge s d m) e n).trans ((relQueue_clearRidge s d m).trans noQueue))
    · rw [drawFree_regs, moved]
      rfl
    · rw [drawFree_boot, moved]
      rfl
  rw [same]
  refine ⟨⟨fun a => ?_, ?_⟩, fun d' m' => ?_⟩
  · rw [bumpErr_onlyRegs]
    rw [moved]
    rfl
  · rw [bumpErr_onlyRegs]
    rw [moved]
    rfl
  · rw [ridgeUp_bumpErr_hub, ← ridgeUp_clearRidge, ← ridgeUp_clearRidge, moved]
    rfl

end Retire

/-- Settles O40: a frame is received by its case (bad, idle, next in its sequence, or to be discarded), the next one is
delivered by its stream's route; a NAK sends the replay buffer's tail; a retired module's two bits are cleared. -/
theorem ridgeModulesDeliverFramesInOrder : Obligations.RidgeModulesDeliverFramesInOrder := by
  intro s d m up x k
  refine ⟨?receive, ?resend, ?ok, fun first => ?failed,
    fun e n far routes tests cairn noQueue => ⟨?retire, fun third => ?third⟩⟩
  case receive =>
    intro here f b fr
    refine ⟨?next, ?bad, ?idle, ?drop⟩
    case next =>
      intro good data inOrder
      have received := (ridgeReceive_of_data up here good data b).trans (if_pos inOrder)
      obtain ⟨memory, regs, kept⟩ := ridgeDeliver_keeps (frameTaken s d m f) d m fr
      have own := kept d m
      rw [frameTaken, rmod_modRmod_self] at own
      refine ⟨_, congrArg Host.Outcome.next received, SameMemory.trans ⟨fun _ => rfl, rfl⟩ memory, regs,
        congrArg Prod.fst own, congrArg (·.2.1) own, congrArg (·.2.2) own, fun r route => ⟨fun n next => ?_, fun last => ?_⟩⟩
      · refine ⟨_, (outq_ridgeDeliver (s := frameTaken s d m f) (g := fr) route next d m).trans (congrArg (· ++ _) ?_), rfl⟩
        refine rmod_modRmod_keeps RidgeModule.outq ?_ s _ d n
        exact fun _ => rfl
      · exact delivered_ridgeDeliver (s := frameTaken s d m f) (g := fr) route last d m
    case bad => exact fun bad => congrArg Host.Outcome.next (ridgeReceive_of_bad up here bad b)
    case idle => exact fun good idle => congrArg Host.Outcome.next (ridgeReceive_of_idle up here good idle b)
    case drop =>
      intro good data other drops
      exact congrArg Host.Outcome.next
        ((ridgeReceive_of_data up here good data b).trans ((if_neg other).trans (if_pos (.inl drops))))
  case resend =>
    intro here a kept
    refine ⟨_, congrArg Host.Outcome.next (ridgeResend_of_up up here a.toNat), ⟨fun _ => rfl, rfl⟩, ⟨rfl, rfl⟩, ?_⟩
    rw [rmod_modRmod_self]
    exact nakResent_spec x a.toNat
  case ok => exact congrArg Host.Outcome.next (ridgeRetrain_ok up)
  case failed => exact congrArg Host.Outcome.next ((ridgeRetrain_failed up).trans (if_neg (Nat.not_le.mpr first)))
  case retire =>
    obtain ⟨memory, service⟩ := ridgeRetire_spec routes tests cairn noQueue up far
    refine ⟨_, rfl, memory, ?_, ?_, fun d' m' _ here there => ?_⟩
    · simp [ridgeModuleRetire, service]
    · simp [ridgeModuleRetire, service]
    · have here' : ¬(d' = d.val ∧ m' = m.val) := fun h => here (Prod.ext h.1 h.2)
      have there' : ¬(d' = e ∧ m' = n) := fun h => there (Prod.ext h.1 h.2)
      simp [ridgeModuleRetire, service, here', there']
  case third =>
    obtain ⟨memory, service⟩ := ridgeRetire_spec
      (s := modRmod s (ridgeKey d m) fun y => { y with retraining := true, fails := y.fails + 1 }) routes tests cairn
        noQueue up far
    refine ⟨_, congrArg Host.Outcome.next ((ridgeRetrain_failed up).trans (if_pos third)),
      SameMemory.trans ⟨fun _ => rfl, rfl⟩ memory, ?_, ?_⟩
    · simp [service]
    · simp [service]

end Sys2Proof.Machine
end

section
/-! PROOF. Grant decisions of arbiters, pre-emption and the watchdog of locked tasks (R410, R413 to R419). -/

namespace Sys2Proof.Machine

/-! ## Arbiters of units -/

/-- What waits at an arbiter where one request alone waits is picked. -/
theorem arbPick_single (s : State) (d a : Nat) (w : ArbReq) : arbPick s d a [w] = some w := rfl

section Single

variable {s : State} {d a : Nat} {w : ArbReq} (queue : (s.arb d a).queue = [w]) (records : (s.arb d a).records = [])
include queue records

/-- A free resource goes to the one request that waits. -/
theorem arbDecide_of_free (free : (s.arb d a).holder = none) : arbDecide s d a =
    modArb (arbAge s d a w [w]) d a fun t =>
      { t with holder := some w, queue := t.queue.erase w, records := t.records.erase w } := by
  simp only [arbDecide, queue, records, List.append_nil, arbPick_single, free]

theorem arbDecide_of_locked {h : ArbReq} (held : (s.arb d a).holder = some h) (locked : (s.arb d a).locked = true) :
    arbDecide s d a = s := by
  simp only [arbDecide, queue, records, List.append_nil, arbPick_single, held, locked, if_true]

/-- A holder outside a locked sequence loses the resource to the one request of higher rank that waits. -/
theorem arbDecide_of_preempt {h : ArbReq} (held : (s.arb d a).holder = some h) (unlocked : (s.arb d a).locked = false)
    (higher : effRank s d a h < effRank s d a w) (room : 0 < arbRecords d a) : arbDecide s d a =
      modArb (bumpEvent (arbAge s d a w [w]) d R.ARB_PREEMPTS_COUNT R.ARB_OVF_PREEMPTS_OVF) d a fun t =>
        { t with holder := some w, queue := t.queue.erase w, records := t.records.erase w ++ [h] } := by
  simp only [arbDecide, queue, records, List.append_nil, arbPick_single, held, unlocked, Bool.false_eq_true, if_false]
  exact if_pos ⟨higher, room⟩

end Single

theorem arbGrant_of_unit {s : State} {d a : Nat} (up : dieUp s d = true) (unit : 64 ≤ a) (notTier : a ≠ 192) :
    arbGrant s d a = arbDecide s d a := by
  simp only [arbGrant, up, Bool.not_true, Bool.false_eq_true, if_false, if_neg (Nat.not_lt.mpr unit), notTier, false_and]

/-! ## Ridge modules -/

/-- The one frame that waits, of a class that has a credit, is the one that is ready. -/
theorem ridgeReady_single {s : State} {d m : Nat} {f : RFrame} (outq : (s.rmod d m).outq = [f]) (cls : f.cls < 6)
    (credit : ridgeCredit s d m f = true) : ridgeReady s d m = [f] := by
  have each : ∀ c : Nat, ([f].find? fun g => g.cls == c && ridgeCredit s d m g) = if f.cls = c then some f else none := by
    intro c
    rw [List.find?_singleton, credit, Bool.and_true]
    exact ite_congr (propext beq_iff_eq) (fun _ => rfl) fun _ => rfl
  unfold ridgeReady
  simp only [outq, each]
  generalize f.cls = c at cls
  interval_cases c <;> rfl

/-- A module that a frame waits at alone sends it. -/
theorem ridgeGrant_of_frame {s : State} {d m : Nat} {f : RFrame} (up : ridgeUp s d m = true)
    (here : (s.rmod d m).retraining = false) (free : (s.arb d m).holder = none) (queue : (s.arb d m).queue = [])
    (outq : (s.rmod d m).outq = [f]) (own : f.origin = none) (cls : f.cls < 6) (credit : ridgeCredit s d m f = true)
    (room : (s.rmod d m).replay.length < replayFrames) : ridgeGrant s d m =
      arbTaskEnd (modRmod (arbAge s d m { input := f.cls, id := 0 } [{ input := f.cls, id := 0 }]) (ridgeKey d m) fun y =>
        ridgeSend { y with outq := y.outq.erase f } f) d m f.cls := by
  simp only [ridgeGrant, up, here, free, queue, if_neg (Nat.not_le.mpr room), ridgeReady_single outq cls credit,
    List.map_cons,
    List.map_nil, List.append_nil, arbPick_single, if_pos cls, List.find?_singleton, BEq.rfl, if_true, own, ridgeOwe,
      Bool.not_true,
    Bool.or_self, Bool.false_eq_true, if_false]

theorem ridgeSend_outq (x : RidgeModule) (f : RFrame) : (ridgeSend x f).outq = x.outq := rfl

/-- A frame goes on the wire with the next sequence, and takes a place in the replay buffer. -/
theorem ridgeSend_spec (x : RidgeModule) {f : RFrame} (own : f.origin = none) : ∃ h : FrameHdr,
    (ridgeSend x f).wire = x.wire ++ [(h, f.payload)] ∧ h.seq.toNat = (x.txSeq + 1) % 1024 ∧
      (ridgeSend x f).replay = x.replay ++ [{ f with seq := (x.txSeq + 1) % 1024 }] := by
  obtain ⟨stream, cls, hop, first, last, payload, seq, resends, origin⟩ := f
  subst own
  refine ⟨_, rfl, ?_, rfl⟩
  exact (BitVec.toNat_ofNat ..).trans (Nat.mod_eq_of_lt (Nat.mod_lt _ (by decide)))

/-! ## The watchdog -/

/-- A set register leaves the watchdog's counter of every die, where it is another. -/
theorem fld_setFldAt_apart (s : State) (d die i x : Nat) {f g : FRef}
    (window : f.off + f.stride * i < 2 ^ 28 ∧ g.off < 2 ^ 28)
    (off : g.off ≠ f.off + f.stride * i) : fld (setFldAt s d f i x) die g = fld s die g := by
  obtain ⟨inside, inside'⟩ := window
  refine fldAt_setFldAt_reg _ _ _ _ _ _ _ _ fun same => off ?_
  simp only [regKey, Nat.mul_zero, Nat.add_zero] at same
  omega

/-- Decisions leave memory, the tests, the locks of arbiters and the watchdogs' counters. -/
structure Decides (s t : State) : Prop where
  memory : SameMemory s t
  svc : t.svc = s.svc
  locked : ∀ d a, (t.arb d a).locked = (s.arb d a).locked
  watchdog : ∀ die, fld t die R.ARB_ERR_WATCHDOG = fld s die R.ARB_ERR_WATCHDOG

theorem Decides.refl (s : State) : Decides s s := ⟨⟨fun _ => rfl, rfl⟩, rfl, fun _ _ => rfl, fun _ => rfl⟩

theorem Decides.trans {s t u : State} (h : Decides s t) (h' : Decides t u) : Decides s u :=
  ⟨h.memory.trans h'.memory, h'.svc.trans h.svc, fun d a => (h'.locked d a).trans (h.locked d a),
    fun die => (h'.watchdog die).trans (h.watchdog die)⟩

theorem Decides.foldl {α : Type} {f : State → α → State} {l : List α} (each : ∀ x ∈ l, ∀ s, Decides s (f s x)) (s : State) :
    Decides s (l.foldl f s) := by
  induction l generalizing s with
  | nil => exact .refl s
  | cons x l ih =>
    exact (each x (List.mem_cons_self ..) s).trans (ih (fun y mem => each y (List.mem_cons_of_mem _ mem)) _)

theorem arb_modArb (s : State) (d a d' a' : Nat) (f : Arbiter → Arbiter) : (modArb s d a f).arb d' a' =
    if arbKey d' a' = arbKey d a then f (s.arb d' a') else s.arb d' a' := by
  unfold State.arb modArb
  simp only [tmod, tget_tset]
  split
  · next same => rw [same]
  · rfl

theorem decides_modArb (s : State) (d a : Nat) {f : Arbiter → Arbiter} (keeps : ∀ x, (f x).locked = x.locked) :
    Decides s (modArb s d a f) := by
  refine ⟨⟨fun _ => rfl, rfl⟩, rfl, fun d' a' => ?_, fun _ => rfl⟩
  rw [arb_modArb]
  split
  · exact keeps _
  · rfl

theorem decides_modRmod (s : State) (k : Nat) (f : RidgeModule → RidgeModule) : Decides s (modRmod s k f) :=
  ⟨⟨fun _ => rfl, rfl⟩, rfl, fun _ _ => rfl, fun _ => rfl⟩

theorem decides_ridgeOwe (s : State) (origin : Option (Nat × Nat)) : Decides s (ridgeOwe s origin) := by
  cases origin with
  | none => exact .refl s
  | some o => exact decides_modRmod ..

theorem decides_setFldAt (s : State) (d i x : Nat) {f : FRef}
    (apart : f.off + f.stride * i < 2 ^ 28 ∧ R.ARB_ERR_WATCHDOG.off ≠ f.off + f.stride * i) :
      Decides s (setFldAt s d f i x) :=
  ⟨⟨fun _ => rfl, rfl⟩, rfl, fun _ _ => rfl, fun die => fld_setFldAt_apart s d die i x ⟨apart.1, by decide⟩ apart.2⟩

theorem arb_bumpEvent (s : State) (die : Nat) (c o : FRef) (d a : Nat) : (bumpEvent s die c o).arb d a = s.arb d a := by
  rw [bumpEvent_onlyRegs]
  rfl

theorem decides_preempts (s : State) (d : Nat) : Decides s (bumpEvent s d R.ARB_PREEMPTS_COUNT R.ARB_OVF_PREEMPTS_OVF) := by
  unfold bumpEvent bumpEventAt
  dsimp only
  split
  · exact decides_setFldAt _ _ _ _ (by decide)
  · exact (decides_setFldAt s d 0 _ (by decide)).trans (decides_setFldAt _ _ _ _ (by decide))

theorem decides_arbAge (s : State) (d a : Nat) (w : ArbReq) (l : List ArbReq) : Decides s (arbAge s d a w l) :=
  decides_modArb _ _ _ fun _ => rfl

theorem decides_arbTaskEnd (s : State) (d a i : Nat) : Decides s (arbTaskEnd s d a i) := decides_modArb _ _ _ fun _ => rfl

theorem decides_arbDecide (s : State) (d a : Nat) : Decides s (arbDecide s d a) := by
  unfold arbDecide
  dsimp only
  split
  · exact .refl s
  · split
    · exact (decides_arbAge ..).trans (decides_modArb _ _ _ fun _ => rfl)
    · split
      · exact .refl s
      · split
        · exact ((decides_arbAge ..).trans (decides_preempts ..)).trans (decides_modArb _ _ _ fun _ => rfl)
        · exact decides_arbAge ..

/-- A module's decision for one of the requests that wait: a frame goes, or a task takes the module. -/
def ridgeTake (d m : Nat) (ready : List RFrame) (waiting : List ArbReq) (s : State) (w : ArbReq) : State :=
  match (if w.input < 6 then ready.find? fun f => f.cls == w.input else none) with
  | some f => arbTaskEnd (ridgeOwe (modRmod (arbAge s d m w waiting) (ridgeKey d m) fun y =>
      ridgeSend { y with outq := y.outq.erase f } f) f.origin) d m w.input
  | none => modArb (arbAge s d m w waiting) d m fun t => { t with holder := some w, queue := t.queue.erase w }

theorem decides_ridgeTake (d m : Nat) (ready : List RFrame) (waiting : List ArbReq) (s : State) (w : ArbReq) :
    Decides s (ridgeTake d m ready waiting s w) := by
  unfold ridgeTake
  split
  · exact (((decides_arbAge ..).trans (decides_modRmod ..)).trans (decides_ridgeOwe ..)).trans (decides_arbTaskEnd ..)
  · exact (decides_arbAge ..).trans (decides_modArb _ _ _ fun _ => rfl)

theorem decides_ridgeGrant (s : State) (d m : Nat) : Decides s (ridgeGrant s d m) := by
  unfold ridgeGrant
  dsimp only
  split
  · exact .refl s
  · split
    · exact decides_modRmod ..
    · exact decides_ridgeTake ..
    · exact .refl s
    · split
      · exact .refl s
      · split
        · refine (decides_preempts s d).trans (Decides.trans (decides_modArb _ d m ?_) (decides_ridgeTake ..))
          exact fun _ => rfl
        · exact decides_arbAge ..

theorem decides_arbGrant (s : State) (d : Nat) {a : Nat} (notTier : a ≠ 192) : Decides s (arbGrant s d a) := by
  unfold arbGrant
  split
  · exact .refl s
  · split
    · exact decides_ridgeGrant ..
    · rw [if_neg fun h => notTier h.1]
      exact decides_arbDecide ..

theorem decides_modHbm (s : State) (md : Nat) (f : HbmDie → HbmDie) : Decides s (modHbm s md f) := by
  have tiers : ∀ (u : State) (x : Tiers), Decides u { u with tiers := x } :=
    fun u x => ⟨⟨fun _ => rfl, rfl⟩, rfl, fun _ _ => rfl, fun _ => rfl⟩
  have priority : ∀ (now : Bool) (u : State), Decides u
      ((List.range 4).foldl (fun s j => setFldAt s (5 + md) R.MEM_HBM_STACK_PRIORITY j (b2n now)) u) := by
    refine fun now u => Decides.foldl (fun j small s => decides_setFldAt _ _ _ _ ?_) u
    have small' := List.mem_range.mp small
    interval_cases j <;> decide
  unfold modHbm
  dsimp only
  split
  · exact ((tiers ..).trans (priority ..)).trans (tiers ..)
  · exact (tiers ..).trans (priority ..)

theorem decides_bumpErr (s : State) (d : Nat) {c : FRef} (apart : c.off + c.stride * 0 < 2 ^ 28 ∧
    R.ARB_ERR_WATCHDOG.off ≠ c.off + c.stride * 0) : Decides s (bumpErr s d c) := by
  unfold bumpErr bumpErrAt
  dsimp only
  split
  · exact decides_setFldAt _ _ _ _ apart
  · exact .refl s

/-- A task that holds a resource alone lets it go when it ends. -/
theorem arbDrop_of_held {s : State} {r : Rid} {h : ArbReq} {d a i : Nat} (held : (s.arb d a).holder = some h)
    (input : h.input = i)
    (serves : h.id = ridNum r) :
    let t := arbDrop s (some (d, a, i)) r
    SameMemory s t ∧ t.svc = s.svc ∧ t.regs = s.regs ∧ t.boot = s.boot ∧ (t.arb d a).locked = false := by
  have hit : (h.input == i && h.id == ridNum r) = true := by simp [input, serves]
  intro t
  have dropped : t = arbTaskEnd (modArb (modArb s d a fun x => { x with
      queue := x.queue.filter fun x => !(x.input == i && x.id == ridNum r)
      records := x.records.filter fun x => !(x.input == i && x.id == ridNum r) }) d a fun x =>
        { x with holder := none, locked := false }) d a h.input := by
    simp only [t, arbDrop, held, hit, if_true, arbRelease, arb_modArb_self]
  rw [dropped]
  refine ⟨⟨fun _ => rfl, rfl⟩, rfl, rfl, rfl, ?_⟩
  simp [arbTaskEnd]

theorem decides_relEvent (s : State) (typ : Byte) (ctx : BitVec 16) (body : List Byte) :
    Decides s (relEvent s typ ctx body) := by
  unfold relEvent
  dsimp only
  split
  · exact ⟨⟨fun _ => rfl, rfl⟩, rfl, fun _ _ => rfl, fun _ => rfl⟩
  · exact decides_bumpErr _ _ (by decide)

theorem decides_ite {c : Prop} [Decidable c] {s t u : State} (yes : Decides s t) (no : Decides s u) :
    Decides s (if c then t else u) := by
  split
  · exact yes
  · exact no

/-- A test that holds a resource ends: the resource is free, and no test is open. -/
theorem testEnd_spec {s : State} {x : SelfTest} {h : ArbReq} {d a i : Nat} (tests : s.svc.tests = [x])
    (place : testArb x.rid = some (d, a, i)) (held : (s.arb d a).holder = some h) (input : h.input = i)
    (serves : h.id = ridNum x.rid) (result : Byte) :
    let t := testEnd s x result
    SameMemory s t ∧ t.svc.tests = [] ∧ (t.arb d a).locked = false ∧
      ∀ die, fld t die R.ARB_ERR_WATCHDOG = fld s die R.ARB_ERR_WATCHDOG := by
  obtain ⟨memory, svc, regs, boot, locked⟩ := arbDrop_of_held
    (s := modSvc s fun v => { v with tests := v.tests.erase x }) (r := x.rid) held input serves
  have decides : Decides (arbDrop (modSvc s fun v => { v with tests := v.tests.erase x }) (some (d, a, i)) x.rid)
      (testEnd s x result) := by
    unfold testEnd
    rw [place]
    refine .trans (.trans (decides_ite (decides_modHbm ..) (.refl _)) (decides_ite ?_ (.refl _))) (decides_relEvent ..)
    exact .trans (.trans (decides_setFldAt _ _ _ _ (by decide)) (decides_setFldAt _ _ _ _ (by decide)))
      (decides_setFldAt _ _ _ _ (by decide))
  refine ⟨SameMemory.trans (t := modSvc s fun v => { v with tests := v.tests.erase x }) ⟨fun _ => rfl, rfl⟩
    (memory.trans decides.memory), ?_, (decides.locked _ _).trans locked, fun die => ?_⟩
  · rw [decides.svc, svc]
    exact (congrArg (·.erase x) tests).trans (List.erase_cons_head ..)
  · exact (decides.watchdog die).trans (fldAt_congr regs (congrArg Boot.fuses boot) _ _ _)

/-- Settles O41: each decision is `arbDecide`'s or `ridgeGrant`'s case for one request; a watchdog ends the test that its
resource's holder serves, and the decision that follows leaves the lock and the counter. -/
theorem arbitersGrantAndPreemptByRank : Obligations.ArbitersGrantAndPreemptByRank := by
  intro s d up
  refine ⟨fun a w unit notTier queue records => ⟨fun free => ?free, fun h held locked => ?locked,
    fun h held unlocked higher room => ?preempt⟩, fun m f service here free queue outq own cls credit room => ?frame,
    fun a h i x notTier held place input serves tests rid none => ?watchdog⟩
  case free =>
    refine ⟨_, congrArg Host.Outcome.next ((arbGrant_of_unit up unit notTier).trans (arbDecide_of_free queue records free)),
      ⟨fun _ => rfl, rfl⟩, ⟨rfl, rfl⟩, ?_⟩
    simp [arbAge, queue]
  case locked =>
    exact congrArg Host.Outcome.next
      ((arbGrant_of_unit up unit notTier).trans (arbDecide_of_locked queue records held locked))
  case preempt =>
    refine ⟨_, congrArg Host.Outcome.next ((arbGrant_of_unit up unit notTier).trans
      (arbDecide_of_preempt queue records held unlocked higher room)), (decides_preempts (arbAge s d a w [w]) d).memory, ?_⟩
    rw [arb_modArb_self, arb_bumpEvent]
    simp [arbAge, queue, records]
  case frame =>
    obtain ⟨h, wire, seq, replay⟩ := ridgeSend_spec { (s.rmod d m) with outq := (s.rmod d m).outq.erase f } own
    have granted := ridgeGrant_of_frame service here free queue outq own cls credit room
    have arb : arbGrant s d m = ridgeGrant s d m := by
      simp only [arbGrant, up, Bool.not_true, Bool.false_eq_true, if_false, m.isLt, if_true]
    have module : ∀ u v : State, ∀ g l, (arbTaskEnd (modRmod (arbAge s d m l [l]) (ridgeKey d m) g) d m f.cls).rmod d m =
        g (s.rmod d m) := fun u v g l => rmod_modRmod_self (arbAge s d m l [l]) d m g
    refine ⟨_, h, congrArg Host.Outcome.next (arb.trans granted), ⟨fun _ => rfl, rfl⟩, ⟨rfl, rfl⟩, ?_, ?_, seq, ?_⟩
    · rw [module s s, ridgeSend_outq, outq]
      exact List.erase_cons_head ..
    · rw [module s s, wire]
    · rw [module s s, replay]
  case watchdog =>
    have place' : testArb x.rid = some (d.val, a, i) := by rw [rid, place]
    obtain ⟨memory, ended, locked, counter⟩ := testEnd_spec (s := bumpErr s d R.ARB_ERR_WATCHDOG) (x := x) (h := h)
      (by rw [bumpErr_onlyRegs]; exact tests) place' (by rw [bumpErr_onlyRegs]; exact held) input
      (by rw [rid]; exact serves.symm) 0x0C
    have decided := decides_arbGrant (testEnd (bumpErr s d R.ARB_ERR_WATCHDOG) x 0x0C) d notTier
    have fires : lockWatchdog s d a = arbGrant (testEnd (bumpErr s d R.ARB_ERR_WATCHDOG) x 0x0C) d a := by
      simp [lockWatchdog, up, held, place, input, tests, rid]
    refine ⟨_, congrArg Host.Outcome.next fires, ?_, ?_, ?_, ?_⟩
    · exact SameMemory.trans (OnlyRegs.sameMemory (bumpErrAt_onlyRegs s d R.ARB_ERR_WATCHDOG 0))
        (memory.trans decided.memory)
    · exact (congrArg Service.tests decided.svc).trans ended
    · exact (decided.locked _ _).trans locked
    · exact (decided.watchdog _).trans ((counter _).trans (fldAt_bumpErrAt _ _ _ _ (by decide) (by decide) (by decide)))

end Sys2Proof.Machine
end

section
/-! PROOF. The Col gate: windows, rates, admission and the killing of a guest (R422 to R429). -/

namespace Sys2Proof.Machine

/-! ## Violations -/

theorem violation_onlyRegs (s : State) (g : Nat) (inbound : Bool) (cause addr : Nat) :
    OnlyRegs s (violation s g inbound cause addr) := by
  unfold violation
  dsimp only
  split
  · exact bumpErrAt_onlyRegs ..
  · exact OnlyRegs.trans (bumpErrAt_onlyRegs s 0 R.HUB_COL_CTL_VIOLATIONS g) rfl

@[simp] theorem site_violation (s : State) (g : Nat) (inbound : Bool) (cause addr k : Nat) :
    (violation s g inbound cause addr).site k = s.site k := by
  rw [violation_onlyRegs s g inbound cause addr]
  rfl

/-- A violation is counted. -/
theorem violation_counted (s : State) (g : Nat) (inbound : Bool) (cause addr : Nat) :
    fldAt (violation s g inbound cause addr) 0 R.HUB_COL_CTL_VIOLATIONS g =
      min 0xFFFF (fldAt s 0 R.HUB_COL_CTL_VIOLATIONS g + 1) := by
  refine Eq.trans ?_ (fldAt_bumpErrAt s 0 R.HUB_COL_CTL_VIOLATIONS g (by decide) (by decide) (by decide))
  unfold violation
  dsimp only
  split
  · rfl
  · rw [fldAt_setFldAt_of_off_ne _ _ _ _ (by decide), fldAt_setFldAt_of_off_ne _ _ _ _ (by decide),
      fldAt_setFldAt_of_off_ne _ _ _ _ (by decide), fldAt_setFldAt_of_off_ne _ _ _ _ (by decide)]

/-- A violation is recorded where no record stands. -/
theorem violation_recorded {s : State} {g : Nat} (none : fldAt s 0 R.HUB_COL_VADDR_VALID g = 0) (inbound : Bool)
    {cause addr : Nat}
    (small : cause < 16) (fits : addr < 2 ^ 52) :
    let t := violation s g inbound cause addr
    fldAt t 0 R.HUB_COL_VADDR_VALID g = 1 ∧ fldAt t 0 R.HUB_COL_VADDR_INBOUND g = b2n inbound ∧
      fldAt t 0 R.HUB_COL_VADDR_CAUSE g = cause ∧ fldAt t 0 R.HUB_COL_VADDR_ADDR g = addr := by
  have none' : ¬fldAt (bumpErrAt s 0 R.HUB_COL_CTL_VIOLATIONS g) 0 R.HUB_COL_VADDR_VALID g = 1 := by
    rw [fldAt_bumpErrAt_of_off_ne _ _ _ (by decide), none]
    decide
  have flag : b2n inbound < 2 := by cases inbound <;> decide
  intro t
  have record : t = setFldAt
      (setFldAt (setFldAt (setFldAt (bumpErrAt s 0 R.HUB_COL_CTL_VIOLATIONS g) 0 R.HUB_COL_VADDR_VALID g 1)
        0 R.HUB_COL_VADDR_INBOUND g (b2n inbound)) 0 R.HUB_COL_VADDR_CAUSE g cause) 0 R.HUB_COL_VADDR_ADDR g addr :=
    if_neg none'
  rw [record]
  refine ⟨?_, ?_, ?_, fldAt_setFldAt_of_fits _ _ _ (by decide) fits⟩
  · rw [fldAt_setFldAt_of_apart _ _ _ _ (by decide), fldAt_setFldAt_of_apart _ _ _ _ (by decide),
      fldAt_setFldAt_of_apart _ _ _ _ (by decide)]
    exact fldAt_setFldAt_of_fits _ _ _ (by decide) (by decide)
  · rw [fldAt_setFldAt_of_apart _ _ _ _ (by decide), fldAt_setFldAt_of_apart _ _ _ _ (by decide)]
    exact fldAt_setFldAt_of_fits _ _ _ (by decide) flag
  · rw [fldAt_setFldAt_of_apart _ _ _ _ (by decide)]
    exact fldAt_setFldAt_of_fits _ _ _ (by decide) small

/-! ## Requests of a guest -/

section Request

variable {s : State} {g : Nat} {h : GuestHdr} (up : dieUp s (14 + g) = true) (alive : siteKilled s g = false)
include up alive

theorem guestRequest_of_refused {cause : Nat} (refused : guestCheck s g h = .inl cause) (d : Line) : guestRequest s g h d =
    guestTell (violation s g false cause h.addr.toNat) g h.tag 0x0A none := by
  simp only [guestRequest, up, alive, refused, Bool.not_true, Bool.or_self, Bool.false_eq_true, if_false]

theorem guestRequest_of_passed {ctx : BitVec 16} (passed : guestCheck s g h = .inr ctx) (d : Line) : guestRequest s g h d =
    guestRun (modSite s g fun c => { c with reqs := c.reqs ++ [{ hdr := h, ctx := ctx, data := d }] }) g := by
  simp only [guestRequest, up, alive, passed, Bool.not_true, Bool.or_self, Bool.false_eq_true, if_false]

end Request

/-- A refused request: it is answered with 0x0A, counted, and recorded where no record stands. -/
theorem refused_spec (s : State) (g : Nat) (tag : BitVec 10) {cause : Nat} (small : cause < 16) (addr : BitVec 52) :
    let t := guestTell (violation s g false cause addr.toNat) g tag 0x0A none
    SameMemory s t ∧ (t.site g).answers = (s.site g).answers ++ [(tag, 0x0A, none)] ∧ (t.site g).reqs = (s.site g).reqs ∧
      fldAt t 0 R.HUB_COL_CTL_VIOLATIONS g = min 0xFFFF (fldAt s 0 R.HUB_COL_CTL_VIOLATIONS g + 1) ∧
      (fldAt s 0 R.HUB_COL_VADDR_VALID g = 0 → fldAt t 0 R.HUB_COL_VADDR_VALID g = 1 ∧
        fldAt t 0 R.HUB_COL_VADDR_INBOUND g = 0 ∧ fldAt t 0 R.HUB_COL_VADDR_ADDR g = addr.toNat) ∧
      (fldAt s 0 R.HUB_COL_VADDR_VALID g = 0 → fldAt t 0 R.HUB_COL_VADDR_CAUSE g = cause) := by
  have only := violation_onlyRegs s g false cause addr.toNat
  refine ⟨only.sameMemory, ?_, ?_, violation_counted .., fun none => ?_, fun none => ?_⟩
  · rw [guestTell, site_modSite_self, site_violation]
  · rw [guestTell, site_modSite_self, site_violation]
  · obtain ⟨valid, inbound, -, at_⟩ := violation_recorded none false small addr.isLt
    exact ⟨valid, inbound, at_⟩
  · obtain ⟨-, -, cause, -⟩ := violation_recorded none false small addr.isLt
    exact cause

theorem inl_of_ite {α β : Type} {c : Prop} [Decidable c] {a n : α} {b : β}
    (h : (if c then .inl a else .inr b : α ⊕ β) = .inl n) : a = n := by
  split at h
  · injection h
  · cases h

/-- The causes of refusal. -/
theorem guestCheck_cause_lt {s : State} {g : Nat} {h : GuestHdr} {n : Nat} (refused : guestCheck s g h = .inl n) :
    n < 16 := by
  unfold guestCheck at refused
  split at refused
  · injection refused with cause
    omega
  · split at refused
    · injection refused with cause
      omega
    · rw [← inl_of_ite refused]
      decide

/-- The only request of a site goes when its rate is not limited. -/
theorem guestRun_single {s u : State} {g : Nat} {r : GuestReq} {st : Byte} {a : Line} (only : (s.site g).reqs = [r])
    (waits : r.st = .waiting) (free : fldAt s 0 R.HUB_COL_RATE_RATE g = 0)
      (done : guestDo (fillSite s g) g r = some (u, st, a)) :
    guestRun s g = modSite u g fun x => { x with reqs := [{ r with st := .done st a }] } := by
  have only' : ((fillSite s g).site g).reqs = [r] := by rw [fillSite, site_modSite_self]; exact only
  have free' : fldAt (fillSite s g) 0 R.HUB_COL_RATE_RATE g = 0 := free
  simp [guestRun, only, guestPump, only', waits, free', guestMayGo, done]

/-- The only request of a site waits while the bucket of its limited rate has too few tokens. -/
theorem guestRun_waits {s : State} {g : Nat} {r : GuestReq} (only : (s.site g).reqs = [r])
    (waits : r.st = .waiting) (rated : fldAt s 0 R.HUB_COL_RATE_RATE g ≠ 0)
      (few : ((fillSite s g).site g).bucket < guestCost) :
    guestRun s g = fillSite s g := by
  have only' : ((fillSite s g).site g).reqs = [r] := by rw [fillSite, site_modSite_self]; exact only
  have rated' : fldAt (fillSite s g) 0 R.HUB_COL_RATE_RATE g ≠ 0 := rated
  simp [guestRun, only, guestPump, only', waits, rated', few]

theorem guestRun_of_none {s : State} {g : Nat} (none : (s.site g).reqs = []) : guestRun s g = fillSite s g := by
  rw [guestRun, none]
  rfl

/-- What a filled bucket is. -/
theorem fillSite_eq (s : State) (g : Nat) : fillSite s g = modSite s g fun x => { x with
    bucket := min (fldAt s 0 R.HUB_COL_RATE_BURST g * 4096)
      ((s.site g).bucket + (s.time.toNat - (s.site g).filled.toNat) * fldAt s 0 R.HUB_COL_RATE_RATE g)
    filled := s.time } := rfl

/-- The answer of the only request returns to the guest. -/
theorem answerReturn_of_done {s : State} {g : Nat} {r : GuestReq} {st : Byte} {a : Line} (only : (s.site g).reqs = [r])
    (done : r.st = .done st a) : answerReturn s g r.hdr.tag =
      fillSite (guestTell (modSite s g fun c => { c with reqs := c.reqs.erase r }) g r.hdr.tag st
        (if r.hdr.op = 1 ∧ (st = 0 ∨ st = 0x06) then some a else none)) g := by
  have found : (s.site g).reqs.find? (fun x => x.hdr.tag == r.hdr.tag && x.st != .waiting) = some r := by
    simp [only, done]
  simp only [answerReturn, found, done]
  refine guestRun_of_none ?_
  simp [guestTell, only]

/-! ## Requests to a guest -/

/-- The gate answers or forwards a request, or refuses it. -/
theorem colRequest_forwards {s : State} {g : Nat} (site : g < 2) (up : dieUp s (14 + g) = true) {off : Nat}
    (other : gateAnswers off = false) (ctx : BitVec 16) (w : Nat) (v : Option W64) : colRequest s g ctx off w v =
      if admitted s g ctx then modSite s g fun c => { c with
        inbound := c.inbound ++ [⟨c.nextId, ctx, off, w, v⟩], nextId := c.nextId + 1 }
      else replyIn (violation s g true 3 (windowBase + (14 + g) * 2 ^ 28 + off)) g off none 0x0A := by
  have guest : 14 + g = 14 ∨ 14 + g = 15 := by omega
  cases v with
  | none => cases h : admitted s g ctx <;> simp [colRequest, colInbound, up, other, h]
  | some v =>
    have this : 14 + g - 14 = g := by omega
    rw [colRequest, regWriteFull, if_pos guest, this]
    cases h : admitted s g ctx <;> simp [colInbound, up, other, h]

theorem colRequest_reads {s : State} {g : Nat} (up : dieUp s (14 + g) = true) {off : Nat} (own : gateAnswers off = true)
    (ctx : BitVec 16) (w : Nat) : colRequest s g ctx off w none =
      replyIn s g off (some (BitVec.ofNat 64 (regRead s (14 + g) off w))) 0 := by
  simp only [colRequest, colInbound, up, own, Bool.not_true, Bool.false_eq_true, if_false, if_true, Option.isSome_none]

theorem colRequest_writes {s : State} {g : Nat} (site : g < 2) {off : Nat} (own : gateAnswers off = true) (ctx : BitVec 16)
    (w : Nat) (v : W64)
    (up : dieUp (commitTrigger (regPut s (14 + g) off w v.toNat 0) (14 + g) off w v.toNat) (14 + g) = true) :
    colRequest s g ctx off w (some v) =
      replyIn (commitTrigger (regPut s (14 + g) off w v.toNat 0) (14 + g) off w v.toNat) g off none 0 := by
  have guest : 14 + g = 14 ∨ 14 + g = 15 := by omega
  have this : 14 + g - 14 = g := by omega
  simp only [colRequest, regWriteFull, guest, own, if_true, colInbound, this, up, Bool.not_true, Bool.false_eq_true,
    if_false,
    Option.isSome_some]

/-- The only forwarded request is the one that an answer names. -/
theorem takeIn_single {s : State} {g : Nat} {r : GuestIn} (only : (s.site g).inbound = [r]) (f : State → GuestIn → State) :
    takeIn s g r.id f = f (modSite s g fun c => { c with inbound := c.inbound.erase r }) r := by
  have found : (s.site g).inbound.find? (fun x => x.id == r.id) = some r := by simp [only]
  rw [takeIn, found]

/-! ## Killing a guest -/

theorem colKill_of_killed {s : State} {g : Nat} (killed : siteKilled s g = true) : colKill s g = s := if_pos killed

/-- Answers to what waits for a guest follow those given before. -/
theorem foldl_replyIn (l : List GuestIn) (s : State) (g : Nat) :
    let t := l.foldl (fun s r => replyIn s g r.off none 0x0B) s
    t = { s with col := t.col } ∧ (t.site g).replies = (s.site g).replies ++ l.map fun r => ⟨r.off, none, 0x0B⟩ := by
  induction l generalizing s with
  | nil => exact ⟨rfl, (List.append_nil _).symm⟩
  | cons r l ih =>
    obtain ⟨same, replies⟩ := ih (replyIn s g r.off none 0x0B)
    refine ⟨same, replies.trans ?_⟩
    rw [replyIn, site_modSite_self]
    exact List.append_assoc ..

/-- An emptied site has nothing to answer and no tokens. -/
theorem siteEmpty_spec (s : State) (g : Nat) :
    let t := siteEmpty s g
    t = { s with col := t.col } ∧ (t.site g).reqs = [] ∧ (t.site g).inbound = [] ∧ (t.site g).bucket = 0 ∧
      (t.site g).replies = (s.site g).replies ++ (s.site g).inbound.map fun r => ⟨r.off, none, 0x0B⟩ := by
  obtain ⟨same, replies⟩ := foldl_replyIn (s.site g).inbound s g
  intro t
  have site : t.site g = { ((s.site g).inbound.foldl (fun s r => replyIn s g r.off none 0x0B) s).site g with
      inbound := [], reqs := [], bucket := 0 } := site_modSite_self ..
  rw [site]
  refine ⟨?_, rfl, rfl, rfl, replies⟩
  have only : t = { (s.site g).inbound.foldl (fun s r => replyIn s g r.off none 0x0B) s with col := t.col } := rfl
  rw [only, same]

/-- A site marked as killed and taken out of service. -/
def siteOut (s : State) (g : Nat) : State :=
  let s := setFldAt s 0 R.HUB_COL_CTL_KILLED g 1
  setFld s 0 R.HUB_DIE_MAP_IN_SERVICE (setBits (fld s 0 R.HUB_DIE_MAP_IN_SERVICE) (14 + g) (14 + g) 0)

/-- A killed site is out of service, and no other die. -/
theorem colKill_spec {s : State} {g : Nat} (alive : siteKilled s g = false) (site : g < 2) :
    let t := colKill s g
    SameMemory s t ∧ siteKilled t g = true ∧ (∀ d, dieUp t d = (dieUp s d && !decide (d = 14 + g))) ∧ (t.site g).reqs = [] ∧
      (t.site g).inbound = [] ∧ (t.site g).bucket = 0 ∧
      (t.site g).replies = (s.site g).replies ++ (s.site g).inbound.map fun r => ⟨r.off, none, 0x0B⟩ := by
  obtain ⟨same, reqs, inbound, bucket, replies⟩ := siteEmpty_spec (siteOut s g) g
  have killed : colKill s g = siteEmpty (siteOut s g) g := by
    rw [colKill, alive]
    rfl
  have field : ∀ f i, fldAt (siteEmpty (siteOut s g) g) 0 f i = fldAt (siteOut s g) 0 f i := by
    intro f i
    rw [same]
    rfl
  rw [killed]
  refine ⟨?_, ?_, fun d => ?_, reqs, inbound, bucket, replies⟩
  · rw [same]
    exact ⟨fun _ => rfl, rfl⟩
  · rw [siteKilled, field, siteOut, setFld, fldAt_setFldAt_reg _ _ _ _ _ _ _ _ ?_,
      fldAt_setFldAt_of_fits _ _ _ (by decide) (by decide)]
    · rfl
    · unfold regKey
      simp only [Nat.mul_zero, Nat.add_zero]
      omega
  · have other : fld (setFldAt s 0 R.HUB_COL_CTL_KILLED g 1) 0 R.HUB_DIE_MAP_IN_SERVICE =
      fld s 0 R.HUB_DIE_MAP_IN_SERVICE := by
      refine fldAt_setFldAt_reg _ _ _ _ _ _ _ _ ?_
      unfold regKey
      simp only [Nat.mul_zero, Nat.add_zero]
      omega
    rw [dieUp, fld, field, siteOut]
    refine (congrArg (bitAt · d) (fld_setFld_self _ _ _ _ (by decide))).trans ?_
    rw [other]
    exact bitAt_clearBit (fldAt_lt ..) (14 + g) d

/-- The two ways that a read or a write of a guest's own row ends (R422 to R425). -/
theorem guestRow {s : State} {g : Nat} {h : GuestHdr} (up : dieUp s (14 + g) = true) (alive : siteKilled s g = false)
    {ctx : BitVec 16} (passed : guestCheck s g h = .inr ctx) (free : fldAt s 0 R.HUB_COL_RATE_RATE g = 0)
    (none : (s.site g).reqs = []) {u : State} {st : Byte} {a : Line} {d : Line} {r : GuestReq}
    (req : r = { hdr := h, ctx := ctx, data := d })
    (done : guestDo (fillSite (modSite s g fun x => { x with reqs := [r] }) g) g r = some (u, st, a)) :
    guestRequest s g h d = modSite u g fun x => { x with reqs := [{ r with st := .done st a }] } := by
  subst req
  have queued : (modSite s g fun c => { c with reqs := c.reqs ++ [{ hdr := h, ctx := ctx, data := d }] }) =
      modSite s g fun x => { x with reqs := [{ hdr := h, ctx := ctx, data := d }] } := by
    simp only [modSite, tmod]
    rw [show (tget s.col g {}).reqs = [] from none]
    rfl
  rw [guestRequest_of_passed up alive passed, queued]
  exact guestRun_single (by rw [site_modSite_self]) rfl free done

/-- Settles O42: each request is the case of `guestRequest` or `colRequest` that its hypotheses name; a pump with one request
sends it or leaves it, and a killed site is emptied. -/
theorem colGatePolicesGuests : Obligations.ColGatePolicesGuests := by
  refine ⟨?_, ?_⟩
  · intro s g h dat up alive refused row
    have refuses : ∀ (c : Instr) (k : GuestHdr) (d : Line) (n : Nat), k.tag = h.tag → k.addr = h.addr →
        guestCheck s g k = .inl n → exec c s = .next (guestRequest s g k d) → ∃ t, exec c s = .next t ∧ refused t ∧
          (fldAt s 0 R.HUB_COL_VADDR_VALID g = 0 → fldAt t 0 R.HUB_COL_VADDR_CAUSE g = n) := by
      intro c k d n tag addr refusal runs
      rw [guestRequest_of_refused up alive refusal, tag, addr] at runs
      obtain ⟨memory, answers, reqs, count, record, cause⟩ := refused_spec s g h.tag (guestCheck_cause_lt refusal) h.addr
      exact ⟨_, runs, ⟨memory, answers, reqs, count, record⟩, cause⟩
    have rows : ∀ (c : Instr) (op : BitVec 4) (d : Line), exec c s = .next (guestRequest s g { h with op := op } d) →
      row c op d := by
      intro c op d runs
      refine ⟨fun n refusal => ?_, ?_⟩
      · obtain ⟨t, next, spec, -⟩ := refuses c { h with op := op } d n rfl rfl refusal runs
        exact ⟨t, next, spec⟩
      · intro ctx u st a passed free none r done
        exact runs.trans (congrArg Host.Outcome.next (guestRow up alive passed free none rfl done))
    refine ⟨rows _ _ _ rfl, rows _ _ _ rfl, rows _ _ _ rfl, fun other => ?cacheable, fun w r => ?release,
      fun r st a only tag done => ?answer⟩
    case cacheable =>
      have refusal : guestCheck s g h = .inl 0 := if_pos (other.imp_right .inl)
      have outside : ¬(1 ≤ h.op.toNat ∧ h.op.toNat ≤ 3) := by
        rcases other with zero | big
        · simp [zero]
        · omega
      exact refuses _ h 0 0 rfl rfl refusal (congrArg Host.Outcome.next (if_neg outside))
    case release =>
      refine ⟨fun none => ?_, fun only waits rated few => ?_⟩
      · exact congrArg Host.Outcome.next (guestRun_of_none (s := setTime s w) none)
      · refine congrArg Host.Outcome.next (guestRun_waits (s := setTime s w) only waits rated ?_)
        rw [fillSite_eq, site_modSite_self]
        exact few
    case answer =>
      have returned := answerReturn_of_done only done
      rw [tag] at returned
      refine ⟨_, congrArg Host.Outcome.next returned, ⟨fun _ => rfl, rfl⟩, ⟨rfl, rfl⟩, ?_, ?_⟩
      · simp [fillSite_eq, guestTell, only]
      · simp [fillSite_eq, guestTell]
  · intro s g up
    refine ⟨fun ctx off w v other => ⟨fun admits => ?forward, fun stranger => ?stranger⟩,
      fun ctx off w own => ⟨?reads, ?writes⟩, fun r only => ⟨fun d st => ?answer, ?timeout⟩, fun killed => ?killed,
      fun alive => ⟨rfl, ?kill⟩⟩
    case forward =>
      have forwarded := (colRequest_forwards g.isLt up other ctx w v).trans (if_pos admits)
      refine ⟨_, congrArg Host.Outcome.next forwarded, ⟨fun _ => rfl, rfl⟩, ⟨rfl, rfl⟩, ?_⟩
      rw [site_modSite_self]
      exact ⟨rfl, rfl⟩
    case stranger =>
      have only := violation_onlyRegs s g true 3 (windowBase + (14 + g) * 2 ^ 28 + off.toNat)
      refine ⟨_, congrArg Host.Outcome.next
        ((colRequest_forwards g.isLt up other ctx w v).trans (if_neg (Bool.eq_false_iff.mp stranger))),
        SameMemory.trans only.sameMemory ⟨fun _ => rfl, rfl⟩, ?_, ?_, violation_counted ..⟩
      · rw [replyIn, site_modSite_self, site_violation]
      · rw [replyIn, site_modSite_self, site_violation]
    case reads => exact congrArg Host.Outcome.next (colRequest_reads up own ctx w)
    case writes =>
      intro v u up'
      exact congrArg Host.Outcome.next (colRequest_writes g.isLt own ctx w v up')
    case answer =>
      refine ⟨_, congrArg Host.Outcome.next (takeIn_single only _), ⟨fun _ => rfl, rfl⟩, ⟨rfl, rfl⟩, ?_⟩
      simp [replyIn, only]
    case timeout =>
      have only' := violation_onlyRegs (modSite s g fun c => { c with inbound := c.inbound.erase r }) g true 4
        (windowBase + (14 + g) * 2 ^ 28 + r.off)
      refine ⟨_, congrArg Host.Outcome.next (takeIn_single only _), ?_, ?_⟩
      · exact SameMemory.trans (t := modSite s g fun c => { c with inbound := c.inbound.erase r }) ⟨fun _ => rfl, rfl⟩
          (SameMemory.trans only'.sameMemory ⟨fun _ => rfl, rfl⟩)
      · simp [replyIn, only]
    case killed => exact ⟨congrArg Host.Outcome.next (colKill_of_killed killed),
      congrArg Host.Outcome.next (colKill_of_killed killed)⟩
    case kill =>
      obtain ⟨memory, killed, service, reqs, inbound, bucket, replies⟩ := colKill_spec alive g.isLt
      refine ⟨_, rfl, memory, killed, ?_, fun d other _ => ?_, reqs, inbound, bucket, replies⟩
      · simp [service]
      · simp [service, other]

end Sys2Proof.Machine
end

section
/-! PROOF. Measurements: the input, the rails and the estimator (R430 to R433, R444 to R447). -/

namespace Sys2Proof.Machine

/-! ## The input -/

theorem mem_setAdd_self (l : List Nat) (x : Nat) : x ∈ setAdd l x := by
  unfold setAdd
  split
  · next h => exact List.contains_iff_mem.mp h
  · exact List.mem_cons_self ..

theorem not_mem_setDel_self (l : List Nat) (x : Nat) : x ∉ setDel l x := by simp [setDel]

/-- TLM_FAIL reports failed telemetry. -/
theorem fld_setInput_tlmFail (s : State) : fld (setInput s) 0 R.HUB_PWR_STATE_TLM_FAIL = b2n (tlmFailed s) := by
  have flag : b2n (tlmFailed s) < 2 := by cases tlmFailed s <;> decide
  simp only [setInput]
  rw [fld_setFld_of_off_ne _ _ _ (by decide), fld_setFld_of_bits_apart _ _ _ (by decide),
    fld_setFld_self _ _ _ _ (by decide)]
  exact Nat.mod_eq_of_lt flag

/-- The report of the cap leaves the fields of HUB_PWR_INPUT but ETA. -/
theorem fld_setInput_input (s : State) {f : FRef} (here : f.off ≠ R.HUB_PWR_STATE_EFF_CAP.off)
    (apart : f.Apart R.HUB_PWR_INPUT_ETA) : fld (setInput s) 0 f = fld s 0 f := by
  simp only [setInput]
  rw [fld_setFld_of_bits_apart _ _ _ apart, fld_setFld_of_off_ne _ _ _ here]
  exact fld_setFld_of_off_ne _ _ _ here

theorem tlmFailed_of_mem {s : State} {x : Nat} (failed : x ∈ s.pwr.failed) : tlmFailed s = true := by
  rw [tlmFailed, bne_iff_ne]
  exact List.ne_nil_of_mem failed

/-- The registers of a sample of the input: its values, and the flags of a voltage out of range. -/
def inputShown (s : State) (v i p : Nat) : State :=
  let s := setFld (setFld (setFld s 0 R.HUB_PWR_INPUT_VIN v) 0 R.HUB_PWR_INPUT_IIN i) 0 R.HUB_PWR_INPUT_PIN p
  let s := if v < 4000 then setFld s 0 R.HUB_PWR_STATE_VIN_LOW 1 else s
  if 5000 < v then setFld s 0 R.HUB_PWR_STATE_VIN_HIGH 1 else s

theorem OnlyRegs.ite {c : Prop} [Decidable c] {s t u : State} (yes : OnlyRegs s t) (no : OnlyRegs s u) :
    OnlyRegs s (if c then t else u) := by
  split
  · exact yes
  · exact no

theorem inputShown_onlyRegs (s : State) (v i p : Nat) : OnlyRegs s (inputShown s v i p) := by
  have shown : OnlyRegs s
    (setFld (setFld (setFld s 0 R.HUB_PWR_INPUT_VIN v) 0 R.HUB_PWR_INPUT_IIN i) 0 R.HUB_PWR_INPUT_PIN p) := rfl
  have low := shown.trans (OnlyRegs.ite (c := v < 4000) (setFld_onlyRegs _ 0 R.HUB_PWR_STATE_VIN_LOW 1) (OnlyRegs.refl _))
  exact low.trans (OnlyRegs.ite (setFld_onlyRegs _ 0 R.HUB_PWR_STATE_VIN_HIGH 1) (OnlyRegs.refl _))

/-- The flags are in another register than the values. -/
theorem fld_inputShown (s : State) (v i p : Nat) {f : FRef} (off : f.off ≠ R.HUB_PWR_STATE_VIN_LOW.off) :
    fld (inputShown s v i p) 0 f =
      fld (setFld (setFld (setFld s 0 R.HUB_PWR_INPUT_VIN v) 0 R.HUB_PWR_INPUT_IIN i) 0 R.HUB_PWR_INPUT_PIN p) 0 f := by
  have low : ∀ (c : Prop) [Decidable c] (t : State),
    fld (if c then setFld t 0 R.HUB_PWR_STATE_VIN_LOW 1 else t) 0 f = fld t 0 f := by
    intro c _ t
    split
    · exact fld_setFld_of_off_ne _ _ _ off
    · rfl
  have high : ∀ (c : Prop) [Decidable c] (t : State),
    fld (if c then setFld t 0 R.HUB_PWR_STATE_VIN_HIGH 1 else t) 0 f = fld t 0 f := by
    intro c _ t
    split
    · exact fld_setFld_of_off_ne _ _ _ off
    · rfl
  exact (high _ _).trans (low _ _)

/-- A sample enters the history and says whether the input's telemetry is good. -/
def inputNoted (s : State) (v p : Nat) : State :=
  { s with pwr := { s.pwr with
    hist := ((railSum s, 4 * p, v) :: s.pwr.hist).take 1000
    failed := if p != 0 && p ≤ 9000 then setDel s.pwr.failed 40 else setAdd s.pwr.failed 40 } }

theorem inputSample_of_calm (s : State) {i : Nat} (calm : i < 20000) (v p : Nat) :
    inputSample s v i p false = setInput (inputNoted (inputShown s v i p) v p) := by
  unfold inputSample
  exact (if_neg Bool.false_ne_true).trans (if_neg (Nat.not_le.mpr calm))

/-! ## Reports of modes -/

/-- A reliability event leaves every register but the count of dropped events. -/
theorem fld_relEvent_apart (s : State) (typ : Byte) (ctx : BitVec 16) (body : List Byte) (die : Nat) {g : FRef}
    (apart : g.off < 2 ^ 28 ∧ g.off ≠ R.HUB_REL_QUEUE_DROPPED.off) : fld (relEvent s typ ctx body) die g = fld s die g := by
  unfold relEvent bumpErr bumpErrAt
  dsimp only
  split
  · rfl
  · split
    · exact fld_setFldAt_apart _ _ _ _ _ ⟨by decide, apart.1⟩ apart.2
    · rfl

/-- What a reliability event leaves: memory and the power controllers. -/
theorem relEvent_keeps (s : State) (typ : Byte) (ctx : BitVec 16) (body : List Byte) :
    SameMemory s (relEvent s typ ctx body) ∧ (relEvent s typ ctx body).pwr = s.pwr := by
  rw [relEvent_frame]
  exact ⟨⟨fun _ => rfl, rfl⟩, rfl⟩

/-- A mode is entered. -/
theorem setMode_spec (s : State) (die : Nat) {mode : Nat} (small : mode < 4) :
    SameMemory s (setMode s die mode) ∧ (setMode s die mode).pwr = s.pwr ∧
      fld (setMode s die mode) die R.PWR_STATUS_MODE = mode ∧
      fld (setMode s die mode) 0 R.HUB_PWR_STATE_TLM_FAIL = fld s 0 R.HUB_PWR_STATE_TLM_FAIL := by
  obtain ⟨memory, pwr⟩ := relEvent_keeps (setFld s die R.PWR_STATUS_MODE mode) 0x17 0
    (body4 (die + fld s die R.PWR_STATUS_MODE * 2 ^ 5 + mode * 2 ^ 7) (ratF32 (s.pwrDie die).g) 0 0)
  refine ⟨SameMemory.trans (t := setFld s die R.PWR_STATUS_MODE mode) ⟨fun _ => rfl, rfl⟩ memory, pwr, ?_, ?_⟩
  · refine (fld_relEvent_apart _ _ _ _ _ (by decide)).trans ((fld_setFld_self _ _ _ _ (by decide)).trans ?_)
    exact Nat.mod_eq_of_lt small
  · exact (fld_relEvent_apart _ _ _ _ _ (by decide)).trans (fld_setFldAt_apart _ _ _ _ _ (by decide) (by decide))

/-- Failed telemetry is reported. -/
theorem failed_setInput (s : State) (x : Nat) :
    let t := setInput { s with pwr := { s.pwr with failed := setAdd s.pwr.failed x } }
    SameMemory s t ∧ x ∈ t.pwr.failed ∧ fld t 0 R.HUB_PWR_STATE_TLM_FAIL = 1 := by
  refine ⟨⟨fun _ => rfl, rfl⟩, mem_setAdd_self .., ?_⟩
  rw [fld_setInput_tlmFail, tlmFailed_of_mem (mem_setAdd_self s.pwr.failed x)]
  rfl

/-- A rail group that is failed puts its die in mode 2. -/
theorem groupFailed_spec (s : State) (g : Nat) :
    SameMemory s (groupFailed s g) ∧ g ∈ (groupFailed s g).pwr.failed ∧
      fld (groupFailed s g) 0 R.HUB_PWR_STATE_TLM_FAIL = 1 ∧
      fld (groupFailed s g) (groupDie g) R.PWR_STATUS_MODE = 2 := by
  obtain ⟨memory, failed, flag⟩ := failed_setInput s g
  obtain ⟨memory', pwr, mode, flag'⟩ := setMode_spec
    (modPwr (setInput { s with pwr := { s.pwr with failed := setAdd s.pwr.failed g } }) (groupDie g) fun p =>
      { p with good := 0, goodM := 0, goodE := 0 }) (groupDie g) (show 2 < 4 by decide)
  unfold groupFailed
  dsimp only
  split
  · next already => exact ⟨memory, failed, flag, already⟩
  · exact ⟨memory.trans memory', pwr ▸ failed, flag'.trans flag, mode⟩

/-! ## Samples of rails -/

/-- A die after a rail group has reported. -/
def groupNoted (s : State) (d x m : Nat) : State :=
  modPwr s d fun p => { p with meas := tset p.meas x m, got := setAdd p.got x }

/-- A die whose domain's sample is taken. -/
def groupSampled (s : State) (d x m : Nat) : State := modPwr (groupNoted s d x m) d fun p => { p with got := [] }

theorem pwrDie_groupSampled (s : State) (d x m : Nat) : (groupSampled s d x m).pwrDie d =
    { s.pwrDie d with meas := tset (s.pwrDie d).meas x m, got := [] } := by
  rw [groupSampled, pwrDie_modPwr_self, groupNoted, pwrDie_modPwr_self]

theorem mem_setAdd {l : List Nat} {x y : Nat} : y ∈ setAdd l x ↔ y = x ∨ y ∈ l := by
  unfold setAdd
  split
  · next h =>
    have here := List.contains_iff_mem.mp h
    exact ⟨.inr, fun h => h.elim (· ▸ here) id⟩
  · exact List.mem_cons

section Rail

variable {s : State} {x m : Nat} (up : dieUp s (groupDie x) = true) (some_ : 0 < m) (fits : m ≤ railMax x)
include up some_ fits

/-- A domain's sample waits for all of its groups. -/
theorem railSample_of_partial (e : Nat) {y : Nat} (group : y ∈ domainOf (groupDie x)) (other : y ≠ x)
    (waits : y ∉ (s.pwrDie (groupDie x)).got) : railSample s x m e = groupNoted s (groupDie x) x m := by
  have good : ¬(m = 0 ∨ railMax x < m) := by omega
  have notAll : ¬(domainOf (groupDie x)).all ((groupNoted s (groupDie x) x m).pwrDie (groupDie x)).got.contains = true := by
    rw [List.all_eq_true]
    intro all
    have here := List.contains_iff_mem.mp (all y group)
    rw [groupNoted, pwrDie_modPwr_self, mem_setAdd] at here
    exact here.elim other waits
  unfold railSample
  dsimp only
  rw [if_neg good]
  exact (if_neg (bnot_ne_true up)).trans (if_neg notAll)

/-- A tensor die's domain is one group: each of its reports is a sample. -/
theorem railSample_of_tensor (tensor : x < 16) (e : Nat) : ∃ ok, railSample s x m e =
    domainSample (groupSampled s (groupDie x) x m) (groupDie x) m e ok := by
  have good : ¬(m = 0 ∨ railMax x < m) := by omega
  have alone : domainOf (groupDie x) = [x] := by simp [groupDie, domainOf, tensor]
  have all : (domainOf (groupDie x)).all ((groupNoted s (groupDie x) x m).pwrDie (groupDie x)).got.contains = true := by
    rw [alone, groupNoted, pwrDie_modPwr_self]
    simp [mem_setAdd]
  have measured : (((domainOf (groupDie x)).map fun y =>
      (y, tget ((groupNoted s (groupDie x) x m).pwrDie (groupDie x)).meas y 0)).map Prod.snd).sum = m := by
    rw [alone, groupNoted, pwrDie_modPwr_self]
    simp
  unfold railSample
  dsimp only
  rw [if_neg good]
  exact ⟨_, ((if_neg (bnot_ne_true up)).trans (if_pos all)).trans (congrArg (fun k => domainSample
    (groupSampled s (groupDie x) x m) (groupDie x) k e _) measured)⟩

end Rail

/-! ## The estimator -/

/-- A die whose estimator is set by the samples that disagreed. -/
def recalibrated (s : State) (d m e : Nat) : State :=
  bumpErr (modPwr (modPwr s d fun p => { p with repM := p.repM + m, repE := p.repE + e }) d fun p =>
    { p with g := (((s.pwrDie d).disM + m : Nat) : Rat) / (((s.pwrDie d).disE + e : Nat) : Rat)
             dis := 0, disM := 0, disE := 0, agree := 0 }) d R.PWR_ERR_RECAL

/-- How far a measurement is from what the estimator expects. -/
def estimateOff (p : PwrDie) (m e : Nat) : Rat :=
  if p.g * (e : Rat) < (m : Rat) then (m : Rat) - p.g * (e : Rat) else p.g * (e : Rat) - (m : Rat)

theorem estimateOff_congr {p q : PwrDie} (gain : p.g = q.g) (m e : Nat) : estimateOff p m e = estimateOff q m e := by
  rw [estimateOff, gain, estimateOff]

section Sample

variable {s : State} {d e : Nat} (mode : fld s d R.PWR_STATUS_MODE = 0) (some_ : 0 < e)
include mode some_

theorem domainSample_of_near {m : Nat} (near : estimateOff (s.pwrDie d) m e ≤ (0.2 : Rat) * (m : Rat)) (ok : Bool) :
    domainSample s d m e ok = modPwr (modPwr s d fun p => { p with repM := p.repM + m, repE := p.repE + e }) d fun p =>
      { p with g := p.g + ((m : Rat) / (e : Rat) - p.g) / 64, dis := 0, disM := 0, disE := 0 } := by
  have mode' : fld (modPwr s d fun p => { p with repM := p.repM + m, repE := p.repE + e }) d R.PWR_STATUS_MODE = 0 := mode
  have near' : (decide ((0.2 : Rat) * (m : Rat) < estimateOff (s.pwrDie d) m e)) = false := decide_eq_false (not_lt.mpr near)
  unfold estimateOff at near'
  simp only [domainSample, mode', near', Bool.not_false, if_true, quotient, if_neg some_.ne']

theorem domainSample_of_far {m : Nat} (far : (0.2 : Rat) * (m : Rat) < estimateOff (s.pwrDie d) m e)
    (last : (s.pwrDie d).dis = 49) (ok : Bool) : domainSample s d m e ok =
      setMode (recalibrated s d m e) d 1 := by
  have mode' : fld (modPwr s d fun p => { p with repM := p.repM + m, repE := p.repE + e }) d R.PWR_STATUS_MODE = 0 := mode
  have far' : (decide ((0.2 : Rat) * (m : Rat) < estimateOff (s.pwrDie d) m e)) = true := decide_eq_true far
  unfold estimateOff at far'
  have count : ¬49 + 1 < 50 := by decide
  have total : (s.pwrDie d).disE + e ≠ 0 := by omega
  simp only [domainSample, mode', far', last, Bool.not_true, Bool.false_eq_true, if_false, quotient, if_neg count,
    if_neg total]
  rfl

/-- A sample that agrees moves g by a 64th of the difference; the 50th in a row that does not sets g and mode 1. -/
theorem domainSample_spec (m : Nat) (ok : Bool) :
    (estimateOff (s.pwrDie d) m e ≤ (0.2 : Rat) * (m : Rat) →
      SameMemory s (domainSample s d m e ok) ∧ SameRegs s (domainSample s d m e ok) ∧
      ((domainSample s d m e ok).pwrDie d).g = (s.pwrDie d).g + ((m : Rat) / (e : Rat) - (s.pwrDie d).g) / 64 ∧
        ((domainSample s d m e ok).pwrDie d).dis = 0 ∧ ((domainSample s d m e ok).pwrDie d).got = (s.pwrDie d).got) ∧
    ((0.2 : Rat) * (m : Rat) < estimateOff (s.pwrDie d) m e → (s.pwrDie d).dis = 49 →
      SameMemory s (domainSample s d m e ok) ∧
      ((domainSample s d m e ok).pwrDie d).g =
        (((s.pwrDie d).disM + m : Nat) : Rat) / (((s.pwrDie d).disE + e : Nat) : Rat) ∧
        fld (domainSample s d m e ok) d R.PWR_STATUS_MODE = 1) := by
  refine ⟨fun near => ?_, fun far last => ?_⟩
  · rw [domainSample_of_near mode some_ near, pwrDie_modPwr_self, pwrDie_modPwr_self]
    exact ⟨⟨fun _ => rfl, rfl⟩, ⟨rfl, rfl⟩, rfl, rfl, rfl⟩
  · obtain ⟨memory, pwr, entered, -⟩ := setMode_spec (recalibrated s d m e) d (show 1 < 4 by decide)
    have die : (recalibrated s d m e).pwrDie d = { s.pwrDie d with
        repM := (s.pwrDie d).repM + m, repE := (s.pwrDie d).repE + e, dis := 0, disM := 0, disE := 0, agree := 0
        g := (((s.pwrDie d).disM + m : Nat) : Rat) / (((s.pwrDie d).disE + e : Nat) : Rat) } := by
      rw [recalibrated, State.pwrDie, bumpErr_onlyRegs]
      refine (pwrDie_modPwr_self _ d _).trans ?_
      rw [pwrDie_modPwr_self]
    rw [domainSample_of_far mode some_ far last]
    refine ⟨SameMemory.trans ?_ memory, ?_, entered⟩
    · rw [recalibrated, bumpErr_onlyRegs]
      exact ⟨fun _ => rfl, rfl⟩
    · rw [State.pwrDie, pwr]
      exact congrArg PwrDie.g die

end Sample

theorem groupSampled_mode {s : State} {d : Nat} (mode : fld s d R.PWR_STATUS_MODE = 0) (x m : Nat) :
    fld (groupSampled s d x m) d R.PWR_STATUS_MODE = 0 := mode

theorem powered_of_power {s : State} (power : s.boot.powered = true) (f : State → State) : powered s f = f s := if_pos power

theorem setInput_pwr (s : State) : (setInput s).pwr = s.pwr := rfl

/-- Settles O43: a sample of the input sets its registers and the report of the cap; a source that fails sets the mode of its
die; a tensor die's domain has one group, whose report is a sample for its estimator. -/
theorem measurementsSetCapAndEstimator : Obligations.MeasurementsSetCapAndEstimator := by
  intro s
  refine ⟨fun v i p b high => ?overvoltage, fun v i p power low calm => ?sample, fun v power low => ⟨?inRange, ?outOfRange⟩,
    fun x power noQueue up => ?timeout, fun x m e up some_ fits => ?rail⟩
  case overvoltage => exact ⟨if_pos high, if_pos high⟩
  case sample =>
    have runs := ((powered_of_power power fun s =>
      inputSample s v.toNat i.toNat p.toNat false).trans (inputSample_of_calm s calm v.toNat p.toNat))
    have shown := inputShown_onlyRegs s v.toNat i.toNat p.toNat
    have pwr : (inputShown s v.toNat i.toNat p.toNat).pwr = s.pwr := by rw [shown]
    have value : ∀ {f : FRef} {x : BitVec 16}, f.off ≠ R.HUB_PWR_STATE_EFF_CAP.off → f.Apart R.HUB_PWR_INPUT_ETA →
        fld (setFld (setFld (setFld s 0 R.HUB_PWR_INPUT_VIN v.toNat) 0 R.HUB_PWR_INPUT_IIN i.toNat) 0
          R.HUB_PWR_INPUT_PIN p.toNat)
          0 f = x.toNat → fld (setInput (inputNoted (inputShown s v.toNat i.toNat p.toNat) v.toNat p.toNat)) 0 f = x.toNat :=
      fun off apart same => (fld_setInput_input _ off apart).trans ((fld_inputShown s _ _ _ off).trans same)
    refine ⟨_, (if_neg (Nat.not_lt.mpr low)).trans (congrArg Host.Outcome.next runs),
      SameMemory.trans shown.sameMemory ⟨fun _ => rfl, rfl⟩,
      value (by decide) (by decide) ?vin, value (by decide) (by decide) ?iin, value (by decide) (by decide) ?pin,
      fld_setInput_effCap _, ?hist, fun bad => ?failed, fun some_ fits => ?good⟩
    case vin =>
      rw [fld_setFld_of_bits_apart _ _ _ (by decide), fld_setFld_of_bits_apart _ _ _ (by decide),
        fld_setFld_self _ _ _ _ (by decide)]
      exact Nat.mod_eq_of_lt v.isLt
    case iin =>
      rw [fld_setFld_of_bits_apart _ _ _ (by decide), fld_setFld_self _ _ _ _ (by decide)]
      exact Nat.mod_eq_of_lt i.isLt
    case pin =>
      rw [fld_setFld_self _ _ _ _ (by decide)]
      exact Nat.mod_eq_of_lt p.isLt
    case hist =>
      have sum : railSum (inputShown s v.toNat i.toNat p.toNat) = railSum s := by rw [railSum, pwr, railSum]
      exact congrArg (fun k => some (k, 4 * p.toNat, v.toNat)) sum
    case failed =>
      have notOk : (p.toNat != 0 && decide (p.toNat ≤ 9000)) = false := by
        rcases bad with zero | high
        · simp [zero]
        · simp [Nat.not_le.mpr high]
      have here : 40 ∈ (inputNoted (inputShown s v.toNat i.toNat p.toNat) v.toNat p.toNat).pwr.failed := by
        simp only [inputNoted, notOk, Bool.false_eq_true, if_false]
        exact mem_setAdd_self ..
      refine ⟨here, (fld_setInput_tlmFail _).trans ?_⟩
      rw [tlmFailed_of_mem here]
      rfl
    case good =>
      have ok : (p.toNat != 0 && decide (p.toNat ≤ 9000)) = true := by
        have nonzero : p.toNat ≠ 0 := fun h => some_ (BitVec.eq_of_toNat_eq h)
        simp [fits, nonzero]
      simp only [setInput_pwr, inputNoted, ok, if_true]
      exact not_mem_setDel_self _ _
  case inRange =>
    exact fun above below => (if_neg (Nat.not_lt.mpr low)).trans (congrArg Host.Outcome.next
      ((powered_of_power power _).trans (if_neg (not_or.mpr ⟨Nat.not_lt.mpr above, Nat.not_lt.mpr below⟩))))
  case outOfRange =>
    exact fun out => ⟨_, (if_neg (Nat.not_lt.mpr low)).trans (congrArg Host.Outcome.next
      ((powered_of_power power _).trans (if_pos out))), rfl, rfl, rfl, rfl, rfl⟩
  case timeout =>
    by_cases input : x.val = 40
    · obtain ⟨memory, failed, flag⟩ := failed_setInput s 40
      refine ⟨_, congrArg Host.Outcome.next ((powered_of_power power _).trans (if_pos input)), memory, input ▸ failed, flag,
        fun other => absurd input other⟩
    · obtain ⟨memory, failed, flag, mode⟩ := groupFailed_spec
        (modPwr s (groupDie x) fun p => { p with meas := tset p.meas x 0 }) x
      exact ⟨_, congrArg Host.Outcome.next ((powered_of_power power _).trans ((if_neg input).trans
        (if_pos (up.resolve_left input)))), SameMemory.trans ⟨fun _ => rfl, rfl⟩ memory, failed, flag, fun _ => mode⟩
  case rail =>
    intro d p q off
    refine ⟨fun ⟨y, group, other, waits⟩ => ?_, fun tensor mode average => ?_⟩
    · exact congrArg Host.Outcome.next (railSample_of_partial up some_ fits e group other waits)
    · obtain ⟨ok, sample⟩ := railSample_of_tensor up some_ fits tensor e
      obtain ⟨near, far⟩ := domainSample_spec (groupSampled_mode mode x m) average m ok
      rw [pwrDie_groupSampled] at near far
      refine ⟨fun close => ?_, fun wide last _ => ?_⟩
      · obtain ⟨memory, regs, spec⟩ := near close
        exact ⟨_, congrArg Host.Outcome.next sample, SameMemory.trans ⟨fun _ => rfl, rfl⟩ memory, regs, spec⟩
      · obtain ⟨memory, spec⟩ := far wide last
        exact ⟨_, congrArg Host.Outcome.next sample, SameMemory.trans ⟨fun _ => rfl, rfl⟩ memory, spec⟩

end Sys2Proof.Machine
end

section
/-! PROOF. Budgets: reports, grants, loans and the control loop (R437 to R443, R446). -/

namespace Sys2Proof.Machine

/-! ## Limits -/

/-- LIMIT is what a die has been granted, less what it lent, plus what it borrowed. -/
theorem limit_setLimit {s : State} {d : Nat}
    (fits : fld s d R.PWR_STATUS_GRANT + heldOf (s.pwrDie d) - (s.pwrDie d).lent < 65536) :
    fld (setLimit s d) d R.PWR_STATUS_LIMIT = fld s d R.PWR_STATUS_GRANT + heldOf (s.pwrDie d) - (s.pwrDie d).lent :=
  (fld_setFld_self _ _ _ _ (by decide)).trans (Nat.mod_eq_of_lt fits)

theorem fld_setLimit (s : State) (d : Nat) {f : FRef} (apart : f.Apart R.PWR_STATUS_LIMIT) :
    fld (setLimit s d) d f = fld s d f := fld_setFld_of_bits_apart _ _ _ apart

theorem setLimit_onlyRegs (s : State) (d : Nat) : OnlyRegs s (setLimit s d) := rfl

theorem pwrDie_setLimit (s : State) (d k : Nat) : (setLimit s d).pwrDie k = s.pwrDie k := rfl

/-- A grant that comes into effect is the die's, with its loans. -/
theorem applyGrant_spec (s : State) (d k : Nat) {v : Nat} (fits : v + heldOf (s.pwrDie d) < 65536) :
    let t := applyGrant s d k v
    fld t d R.PWR_STATUS_GRANT = v ∧ fld t d R.PWR_STATUS_LIMIT = v + heldOf (s.pwrDie d) - (s.pwrDie d).lent ∧
      fld t d R.PWR_STATUS_STALE = fld s d R.PWR_STATUS_STALE := by
  have granted : fld (setFld (modPwr s d fun p => { p with next := none, gotFor := some k }) d R.PWR_STATUS_GRANT v) d
      R.PWR_STATUS_GRANT = v :=
        (fld_setFld_self _ _ _ _ (by decide)).trans (Nat.mod_eq_of_lt (lt_of_le_of_lt (Nat.le_add_right ..) fits))
  have die : (setFld (modPwr s d fun p => { p with next := none, gotFor := some k }) d R.PWR_STATUS_GRANT v).pwrDie d =
      { s.pwrDie d with next := none, gotFor := some k } := pwrDie_modPwr_self ..
  refine ⟨(fld_setLimit _ _ (by decide)).trans granted, ?_, (fld_setLimit _ _ (by decide)).trans ?_⟩
  · refine (limit_setLimit ?_).trans ?_
    · rw [granted, die]
      show v + heldOf (s.pwrDie d) - _ < _
      omega
    · rw [granted, die]
      rfl
  · exact fld_setFld_of_bits_apart _ _ _ (by decide)

/-- What a grant that comes into effect leaves. -/
theorem applyGrant_keeps (s : State) (d k v : Nat) :
    let t := applyGrant s d k v
    SameMemory s t ∧ t.time = s.time ∧ t.pwr.grants = s.pwr.grants ∧
      t.pwrDie d = { s.pwrDie d with next := none, gotFor := some k } :=
  ⟨⟨fun _ => rfl, rfl⟩, rfl, rfl, pwrDie_modPwr_self ..⟩

/-! ## Reports -/

/-- What a die asks for (R437). -/
def demandOf (s : State) (d : Nat) : Rat :=
  if (s.pwrDie d).ticks.any Prod.snd then ((ceilOf s d : Nat) : Rat)
  else max ((floorOf s d : Nat) : Rat) ((1.1 : Rat) * (((s.pwrDie d).high : Nat) : Rat) / 10)

theorem powerReport_of_up {s : State} {d : Nat} (up : dieUp s d = true) (k : Nat) : powerReport s d k =
    let u := modPwr s d fun p => { p with repM := 0, repE := 0, high := 0 }
    { u with pwr := { u.pwr with
        reports := tset s.pwr.reports d ⟨k, demandOf s d, (s.pwrDie d).repM, (s.pwrDie d).repE⟩
          } } := if_neg (bnot_ne_true up)

/-! ## Grants -/

/-- The grants name each die in service once. -/
theorem computeGrants_keys (s : State) (k : Nat) : ((computeGrants s k).map Prod.fst).Nodup := by
  have all : ((((List.range 32).filter (dieUp s)).map (wantOf s k)).map PwrWant.die).Nodup := by
    rw [List.map_map]
    exact (List.map_id _).symm ▸ List.nodup_range.filter _
  have split : (((((List.range 32).filter (dieUp s)).map (wantOf s k)).filter fun w =>
        !(dieClass false w.die == 1 || dieClass false w.die == 7)) ++
      (((List.range 32).filter (dieUp s)).map (wantOf s k)).filter fun w =>
        !!(dieClass false w.die == 1 || dieClass false w.die == 7)).Perm
          (((List.range 32).filter (dieUp s)).map (wantOf s k)) :=
    List.filter_append_perm ..
  have keys : (computeGrants s k).map Prod.fst = (((((List.range 32).filter (dieUp s)).map (wantOf s k)).filter fun w =>
        !(dieClass false w.die == 1 || dieClass false w.die == 7)) ++
      (((List.range 32).filter (dieUp s)).map (wantOf s k)).filter fun w =>
        !!(dieClass false w.die == 1 || dieClass false w.die == 7)).map PwrWant.die := by
    unfold computeGrants
    simp only [List.map_append, List.map_map]
    rfl
  rw [keys]
  exact ((split.map _).nodup_iff).mpr all

/-- A table that takes a list of entries holds each of them, when no key comes twice. -/
theorem tget?_foldl_grants (k : Nat) (l : List (Nat × Rat)) (distinct : (l.map Prod.fst).Nodup) (s : State) :
    let t := l.foldl (fun s e => { s with pwr := { s.pwr with grants := tset s.pwr.grants e.1 (k, e.2.floor.toNat) } }) s
    t = { s with pwr := { s.pwr with grants := t.pwr.grants } } ∧
      (∀ e ∈ l, tget? t.pwr.grants e.1 = some (k, e.2.floor.toNat)) ∧
      ∀ i, i ∉ l.map Prod.fst → tget? t.pwr.grants i = tget? s.pwr.grants i := by
  induction l generalizing s with
  | nil => exact ⟨rfl, nofun, fun _ _ => rfl⟩
  | cons e l ih =>
    obtain ⟨fresh, distinct'⟩ := List.nodup_cons.mp distinct
    obtain ⟨only, entries, others⟩ := ih distinct'
      { s with pwr := { s.pwr with grants := tset s.pwr.grants e.1 (k, e.2.floor.toNat) } }
    refine ⟨only, fun x mem => ?_, fun i out => ?_⟩
    · rcases List.mem_cons.mp mem with rfl | mem
      · exact (others _ fresh).trans (tget?_tset_self ..)
      · exact entries x mem
    · rw [List.map_cons, List.mem_cons, not_or] at out
      obtain ⟨ne, out'⟩ := out
      exact (others i out').trans (tget?_tset_ne _ _ ne)

theorem grantCompute_of_locked {s : State} (up : dieUp s 0 = true)
    (locked : bitAt (fld s 0 R.LOCK_STATE_LOCKED) 0 = true) (k : Nat) :
    grantCompute s k = (computeGrants s k).foldl (fun s e =>
      { s with pwr := { s.pwr with grants := tset s.pwr.grants e.1 (k, e.2.floor.toNat) } })
        { s with pwr := { s.pwr with reports := s.pwr.reports.filter fun r => k < r.2.k } } :=
  if_neg (by simp [up, locked])

theorem grantCompute_of_open {s : State} (unlocked : bitAt (fld s 0 R.LOCK_STATE_LOCKED) 0 = false) (k : Nat) :
    grantCompute s k = s := if_pos (.inr (by rw [unlocked]; rfl))

/-- A die that takes the grant in its slot. -/
def grantTaken (s : State) (d : Nat) (w : W64) : State :=
  setFld { setTime s w with pwr := { s.pwr with grants := tdel s.pwr.grants d } } d R.PWR_STATUS_STALE 0

/-- A grant that has come to a die's slot is taken (R440). -/
theorem grantReceive_of_slot {s : State} {d k v : Nat} (up : dieUp s d = true)
    (slot : tget? s.pwr.grants d = some (k, v)) (w : W64) :
    grantReceive s d w = if 100000 * k ≤ (setTime s w).time.toNat then applyGrant (grantTaken s d w) d k v
      else modPwr (grantTaken s d w) d fun p => { p with next := some (k, v) } := by
  have slot' : tget? (setTime s w).pwr.grants d = some (k, v) := slot
  have up' : dieUp { setTime s w with pwr := { s.pwr with grants := tdel s.pwr.grants d } } d = true := up
  simp only [grantReceive, slot']
  exact if_neg (bnot_ne_true up')

theorem stale_grantTaken (s : State) (d : Nat) (w : W64) : fld (grantTaken s d w) d R.PWR_STATUS_STALE = 0 :=
  fld_setFld_self _ _ _ _ (by decide)

/-! ## Epochs -/

/-- A die at the start of an epoch: loans of earlier epochs are over. -/
def epochStarted (s : State) (d k : Nat) : State :=
  modPwr (setTime s (BitVec.ofNat 64 (100000 * k))) d fun p => { p with
    epoch := k
    lent := if p.epoch < k then 0 else p.lent
    loans := p.loans.filter fun l => k ≤ l.1 }

/-- The limit of a die that starts an epoch: its grant's, when one has come. -/
def epochLimited (s : State) (d k : Nat) : State :=
  match (s.pwrDie d).next with
  | some (n, v) => if n ≤ k then applyGrant (epochStarted s d k) d n v else setLimit (epochStarted s d k) d
  | none => setLimit (epochStarted s d k) d

theorem epochLimited_of_next {s : State} {d k v : Nat} (next : (s.pwrDie d).next = some (k, v)) :
    epochLimited s d k = applyGrant (epochStarted s d k) d k v := by
  rw [epochLimited, next]
  exact if_pos le_rfl

theorem epochLimited_of_none {s : State} {d : Nat} (none : (s.pwrDie d).next = none) (k : Nat) :
    epochLimited s d k = setLimit (epochStarted s d k) d := by rw [epochLimited, none]

theorem pwrDie_epochStarted (s : State) (d k : Nat) : (epochStarted s d k).pwrDie d = { s.pwrDie d with
    epoch := k, lent := if (s.pwrDie d).epoch < k then 0 else (s.pwrDie d).lent
    loans := (s.pwrDie d).loans.filter fun l => k ≤ l.1 } := pwrDie_modPwr_self ..

theorem epochBoundary_of_up {s : State} {d : Nat} (up : dieUp s d = true) (k : Nat) : epochBoundary s d k =
    if ((epochLimited s d k).pwrDie d).gotFor = some k then epochLimited s d k
    else setFld (epochLimited s d k) d R.PWR_STATUS_STALE 1 := by
  have next : ((epochStarted s d k).pwrDie d).next = (s.pwrDie d).next := by rw [pwrDie_epochStarted]
  unfold epochBoundary epochLimited
  refine (if_neg (bnot_ne_true up)).trans ?_
  rw [← next]
  rfl

/-- What the limit of an epoch leaves. -/
theorem epochLimited_keeps (s : State) (d k : Nat) :
    SameMemory s (epochLimited s d k) ∧ ((epochLimited s d k).pwrDie d).epoch = k ∧
      ((epochLimited s d k).pwrDie d).lent = (if (s.pwrDie d).epoch < k then 0 else (s.pwrDie d).lent) ∧
      ((epochLimited s d k).pwrDie d).loans = (s.pwrDie d).loans.filter fun l => k ≤ l.1 := by
  have started := pwrDie_epochStarted s d k
  have limited : SameMemory s (setLimit (epochStarted s d k) d) := ⟨fun _ => rfl, rfl⟩
  unfold epochLimited
  split
  · next n v _ =>
    obtain ⟨memory, -, -, die⟩ := applyGrant_keeps (epochStarted s d k) d n v
    split
    · rw [die, started]
      exact ⟨SameMemory.trans (t := epochStarted s d k) ⟨fun _ => rfl, rfl⟩ memory, rfl, rfl, rfl⟩
    · rw [pwrDie_setLimit, started]
      exact ⟨limited, rfl, rfl, rfl⟩
  · rw [pwrDie_setLimit, started]
    exact ⟨limited, rfl, rfl, rfl⟩

/-- What a die holds of loans does not grow when loans end. -/
theorem heldOf_epochStarted_le (s : State) (d k : Nat) : heldOf ((epochStarted s d k).pwrDie d) ≤ heldOf (s.pwrDie d) := by
  rw [pwrDie_epochStarted]
  exact List.Sublist.sum_le_sum ((List.filter_sublist ..).map _) fun _ _ => Nat.zero_le _

theorem grant_epochStarted (s : State) (d k : Nat) (f : FRef) : fld (epochStarted s d k) d f = fld s d f := rfl

/-! ## Loans -/

theorem not_mem_lendTo (d : Nat) : d ∉ lendTo d := by
  unfold lendTo
  split
  · next h =>
    rw [List.mem_cons, List.mem_cons, not_or, not_or]
    exact ⟨by omega, by omega, List.not_mem_nil⟩
  · split
    · rw [List.mem_filter, List.mem_cons, List.mem_cons]
      rintro ⟨here | here | here, -⟩
      · omega
      · omega
      · cases here
    · exact List.not_mem_nil

/-- A die's neighbours after it has told them whether it was limited. -/
def lendTold (s : State) (d : Nat) (near : List Nat) (limited : Bool) : State :=
  near.foldl (fun s n => modPwr s n fun q => { q with status := tset q.status d limited }) s

/-- Neighbours are told, and nothing else changes. -/
theorem lendTold_spec (s : State) (d : Nat) (near : List Nat) (limited : Bool) :
    let t := lendTold s d near limited
    t = { s with pwr := { s.pwr with dies := t.pwr.dies } } ∧
      (∀ n, n ∉ near → t.pwrDie n = s.pwrDie n) ∧
      ∀ n, (n ∈ near ∨ tget? (s.pwrDie n).status d = some limited) → tget? (t.pwrDie n).status d = some limited := by
  induction near generalizing s with
  | nil => exact ⟨rfl, fun _ _ => rfl, fun n h => h.elim (fun mem => nomatch mem) id⟩
  | cons n near ih =>
    obtain ⟨only, others, told⟩ := ih (modPwr s n fun q => { q with status := tset q.status d limited })
    refine ⟨only, fun i out => ?_, fun i h => told i ?_⟩
    · rw [List.mem_cons, not_or] at out
      exact (others i out.2).trans (pwrDie_modPwr_ne _ _ out.1)
    · by_cases here : i = n
      · subst here
        rw [pwrDie_modPwr_self]
        exact .inr (tget?_tset_self ..)
      · rw [pwrDie_modPwr_ne _ _ here]
        exact h.imp_left fun mem => (List.mem_cons.mp mem).resolve_left here

section Lend

variable {s : State} {d : Nat}

theorem lendTick_of_off (off : fld s d R.PWR_CFG_LEND_EN = 0 ∨ lendTo d = []) : lendTick s d = s := if_pos (.inr off)

/-- Tokens that a die can spare for a loan (R442). -/
def spareOf (s : State) (d : Nat) : Nat :=
  min (fld s d R.PWR_STATUS_LIMIT - heldOf (s.pwrDie d))
    ((((fld s d R.PWR_STATUS_LIMIT : Nat) : Rat) -
      (1.1 : Rat) * (((((s.pwrDie d).ticks.take 10).map Prod.fst).foldl max 0 : Nat) : Rat)).floor.toNat) / 4 * 4

/-- May a die lend: 10 ticks, each 10 W below its limit? -/
def mayLend (s : State) (d : Nat) : Bool :=
  ((s.pwrDie d).ticks.take 10).length == 10 && ((s.pwrDie d).ticks.take 10).all fun t => t.1 + 40 < fld s d
    R.PWR_STATUS_LIMIT

/-- A loan made by `d` to `n` of what it can spare. -/
def lent (s : State) (d n : Nat) (u : State) (turn : Bool) : State :=
  sendLoan (setLimit (modPwr u d fun q => { q with lent := q.lent + spareOf s d, turn := turn }) d) d n (s.pwrDie d).epoch
    (spareOf s d) false

/-- The order in which a die's neighbours come. -/
def lendOrder (s : State) (d : Nat) : List Nat :=
  if (s.pwrDie d).turn then ((lendTo d).filter (dieUp s)).reverse else (lendTo d).filter (dieUp s)

/-- A die's state after it has told its neighbours whether its last ticks were limited. -/
def told (s : State) (d : Nat) : State :=
  lendTold s d ((lendTo d).filter (dieUp s)) (((s.pwrDie d).ticks.take 10).any Prod.snd)

variable (up : dieUp s d = true) (on : fld s d R.PWR_CFG_LEND_EN = 1) (some_ : lendTo d ≠ [])
include up on some_

theorem lendTick_of_on : lendTick s d =
    match (lendOrder s d).find? fun n => tget ((told s d).pwrDie d).status n false with
    | none => told s d
    | some n =>
      if (!mayLend s d) = true ∨ spareOf s d < 4 then told s d
      else lent s d n (told s d) (((lendTo d).filter (dieUp s)).head? == some n) := by
  obtain ⟨only, -⟩ := lendTold_spec s d ((lendTo d).filter (dieUp s)) (((s.pwrDie d).ticks.take 10).any Prod.snd)
  have limit : fld (told s d) d R.PWR_STATUS_LIMIT = fld s d R.PWR_STATUS_LIMIT := by
    unfold told
    rw [only]
    rfl
  have ready : ¬((!dieUp s d) = true ∨ fld s d R.PWR_CFG_LEND_EN = 0 ∨ lendTo d = []) := by simp [up, on, some_]
  have fold : ((lendTo d).filter (dieUp s)).foldl (fun u n => modPwr u n fun q =>
      { q with status := tset q.status d (((s.pwrDie d).ticks.take 10).any Prod.snd) }) s = told s d := rfl
  unfold lendTick
  rw [if_neg ready]
  simp only [fold, limit]
  rfl

end Lend

/-- What a die that tells its neighbours keeps. -/
theorem told_spec (s : State) (d : Nat) :
    SameMemory s (told s d) ∧ SameRegs s (told s d) ∧ (told s d).pwrDie d = s.pwrDie d ∧
      (∀ f, fld (told s d) d f = fld s d f) ∧
      ∀ n ∈ (lendTo d).filter (dieUp s),
        tget? ((told s d).pwrDie n).status d = some (((s.pwrDie d).ticks.take 10).any Prod.snd) := by
  obtain ⟨only, others, tells⟩ := lendTold_spec s d ((lendTo d).filter (dieUp s)) (((s.pwrDie d).ticks.take 10).any Prod.snd)
  have self : d ∉ (lendTo d).filter (dieUp s) := fun mem => not_mem_lendTo d (List.mem_of_mem_filter mem)
  refine ⟨?_, ?_, others d self, fun f => ?_, fun n mem => tells n (.inl mem)⟩
  · rw [told, only]
    exact ⟨fun _ => rfl, rfl⟩
  · rw [told, only]
    exact ⟨rfl, rfl⟩
  · rw [told, only]
    rfl

section Lend

variable {s : State} {d : Nat}

theorem mayLend_of_below (full : ((s.pwrDie d).ticks.take 10).length = 10)
    (below : ∀ x ∈ (s.pwrDie d).ticks.take 10, x.1 + 40 < fld s d R.PWR_STATUS_LIMIT) : mayLend s d = true := by
  rw [mayLend, Bool.and_eq_true, beq_iff_eq, List.all_eq_true]
  exact ⟨full, fun x mem => decide_eq_true (below x mem)⟩

theorem length_of_mayLend (may : mayLend s d = true) : ((s.pwrDie d).ticks.take 10).length = 10 := by
  rw [mayLend, Bool.and_eq_true, beq_iff_eq] at may
  exact may.1

theorem ne_of_found {n : Nat} {q : Nat → Bool} (found : (lendOrder s d).find? q = some n) : n ≠ d := by
  rintro rfl
  have mem := List.mem_of_find?_eq_some found
  have near : n ∈ (lendTo n).filter (dieUp s) := by
    unfold lendOrder at mem
    split at mem
    · exact List.mem_reverse.mp mem
    · exact mem
  exact not_mem_lendTo n (List.mem_of_mem_filter near)

/-- A die that lends tells its neighbours, and makes a loan or none. -/
theorem lendTick_cases (up : dieUp s d = true) (on : fld s d R.PWR_CFG_LEND_EN = 1) (some_ : lendTo d ≠ []) :
    (lendTick s d = told s d ∧ ∀ n, (lendOrder s d).find? (fun n => tget (s.pwrDie d).status n false) = some n →
      mayLend s d = true → ¬4 ≤ spareOf s d) ∨
    ∃ n turn, (lendOrder s d).find? (fun n => tget (s.pwrDie d).status n false) = some n ∧ mayLend s d = true ∧
      lendTick s d = lent s d n (told s d) turn := by
  obtain ⟨-, -, die, -⟩ := told_spec s d
  have ticked := lendTick_of_on up on some_
  rw [die] at ticked
  cases found : (lendOrder s d).find? fun n => tget (s.pwrDie d).status n false with
  | none =>
    rw [found] at ticked
    exact .inl ⟨ticked, nofun⟩
  | some n =>
    rw [found] at ticked
    dsimp only at ticked
    by_cases poor : (!mayLend s d) = true ∨ spareOf s d < 4
    · rw [if_pos poor] at ticked
      refine .inl ⟨ticked, fun _ _ may enough => ?_⟩
      rw [may] at poor
      exact poor.elim Bool.false_ne_true (Nat.not_lt.mpr enough)
    · rw [if_neg poor, ] at ticked
      rw [not_or, Bool.not_eq_true, Bool.not_eq_false'] at poor
      exact .inr ⟨n, _, rfl, poor.1, ticked⟩

end Lend

/-- A loan raises what a die has lent, and goes to the neighbour's slot. -/
theorem lent_spec (s u : State) {d n : Nat} (other : n ≠ d) (turn : Bool) :
    let t := lent s d n u turn
    SameMemory u t ∧ (∀ i, (t.pwrDie i).status = (u.pwrDie i).status) ∧ (t.pwrDie d).lent = (u.pwrDie d).lent + spareOf s d ∧
      (fld u d R.PWR_STATUS_GRANT + heldOf (u.pwrDie d) < 65536 → fld t d R.PWR_STATUS_LIMIT =
        fld u d R.PWR_STATUS_GRANT + heldOf (u.pwrDie d) - ((u.pwrDie d).lent + spareOf s d)) ∧
      tget? (t.pwrDie n).slots d = some ((s.pwrDie d).epoch, spareOf s d, false) := by
  have die : (modPwr u d fun q => { q with lent := q.lent + spareOf s d, turn := turn }).pwrDie d =
      { u.pwrDie d with lent := (u.pwrDie d).lent + spareOf s d, turn := turn } := pwrDie_modPwr_self ..
  refine ⟨⟨fun _ => rfl, rfl⟩, fun i => ?_, ?_, fun fits => ?_, ?_⟩
  · have sent : ∀ (v : State) k,
      ((sendLoan v d n (s.pwrDie d).epoch (spareOf s d) false).pwrDie k).status = (v.pwrDie k).status := by
      intro v k
      by_cases here : k = n
      · rw [here, sendLoan, pwrDie_modPwr_self]
      · rw [sendLoan, pwrDie_modPwr_ne _ _ here]
    rw [lent, sent, pwrDie_setLimit]
    by_cases here : i = d
    · rw [here, die]
    · rw [pwrDie_modPwr_ne _ _ here]
  · rw [lent, sendLoan, pwrDie_modPwr_ne _ _ other.symm, pwrDie_setLimit, die]
  · refine (limit_setLimit ?_).trans ?_
    · rw [die]
      exact lt_of_le_of_lt (Nat.sub_le ..) fits
    · rw [die]
      rfl
  · rw [lent, sendLoan, pwrDie_modPwr_self]
    exact tget?_tset_self ..

section Loan

variable {s : State} {d src k amount : Nat} {rest : Tbl (Nat × Nat × Bool)} (up : dieUp s d = true)
  (slots : (s.pwrDie d).slots = (src, k, amount, false) :: rest)
include slots

/-- A loan of an earlier epoch is void. -/
theorem loanReceive_of_void (old : k < (s.pwrDie d).epoch) :
    loanReceive s d = modPwr s d fun p => { p with slots := tdel p.slots src } := by
  have epoch : ((modPwr s d fun p => { p with slots := tdel p.slots src }).pwrDie d).epoch = (s.pwrDie d).epoch := by
    rw [pwrDie_modPwr_self]
  simp only [loanReceive, slots]
  exact if_pos (.inr (epoch.symm ▸ old))

include up

/-- A loan of this epoch that fits below CEIL is taken whole. -/
theorem loanReceive_of_fits (current : (s.pwrDie d).epoch ≤ k) (room : amount ≤ ceilOf s d - fld s d R.PWR_STATUS_LIMIT) :
    loanReceive s d = setLimit (modPwr (modPwr s d fun p => { p with slots := tdel p.slots src }) d fun q =>
      { q with loans := (k, amount) :: q.loans }) d := by
  have epoch : ((modPwr s d fun p => { p with slots := tdel p.slots src }).pwrDie d).epoch = (s.pwrDie d).epoch := by
    rw [pwrDie_modPwr_self]
  have good : ¬((!dieUp (modPwr s d fun p => { p with slots := tdel p.slots src }) d) = true ∨
      k < ((modPwr s d fun p => { p with slots := tdel p.slots src }).pwrDie d).epoch) :=
    not_or.mpr ⟨bnot_ne_true up, by rw [epoch]; exact Nat.not_lt.mpr current⟩
  have take : min amount (ceilOf (modPwr s d fun p => { p with slots := tdel p.slots src }) d -
      fld (modPwr s d fun p => { p with slots := tdel p.slots src }) d R.PWR_STATUS_LIMIT) = amount := min_eq_left room
  simp only [loanReceive, slots]
  refine (if_neg good).trans ((if_neg Bool.false_ne_true).trans ?_)
  rw [take]
  exact if_neg (Nat.lt_irrefl amount)

end Loan

/-! ## The control loop -/

/-- What the control loop compares with the limit, in mode 0 (R446). -/
def estimateOf (p : PwrDie) (e : Nat) : Nat := (p.g * ((e : Nat) : Rat)).floor.toNat

section Control

variable {s : State} {d : Nat}

theorem pctlOf_of_run (mode : fld s d R.PWR_STATUS_MODE = 0) : pctlOf s d = estimateOf (s.pwrDie d) (s.pwrDie d).e := by
  simp only [pctlOf, mode]
  rfl

/-- A die whose PCTL is shown. -/
def pctlShown (s : State) (d : Nat) : State := setFld s d R.PWR_STATUS_PCTL (min 65535 (pctlOf s d))

theorem free_pctlShown (free : fld s d R.PWR_STATUS_THROTTLE = 0) :
    ¬(fld (pctlShown s d) d R.PWR_STATUS_THROTTLE == 1) = true := by
  rw [pctlShown, fld_setFld_of_bits_apart _ _ _ (by decide), free]
  decide

theorem controlLoop_of_above (free : fld s d R.PWR_STATUS_THROTTLE = 0) (above : fld s d R.PWR_STATUS_LIMIT < pctlOf s d)
    (calm : ramping s d = false) (room : (s.pwrDie d).step < maxSteps d) : controlLoop s d =
      (modPwr (pctlShown s d) d fun p => { p with step := p.step + 1 }, true) := by
  have calm' : ¬ramping (pctlShown s d) d = true := Bool.eq_false_iff.mp calm
  unfold controlLoop
  exact (if_neg (free_pctlShown free)).trans ((if_pos above).trans ((if_neg calm').trans (if_pos room)))

theorem controlLoop_of_top (free : fld s d R.PWR_STATUS_THROTTLE = 0) (under : pctlOf s d ≤ fld s d R.PWR_STATUS_LIMIT)
    (top : (s.pwrDie d).step = 0) : controlLoop s d =
      (modPwr (pctlShown s d) d fun p => { p with gaps := false }, false) := by
  unfold controlLoop
  exact (if_neg (free_pctlShown free)).trans ((if_neg (Nat.not_lt.mpr under)).trans (if_neg fun h => h.2 top))

/-- A die whose control loop rests on PCTL, with a new estimate. -/
def loopShown (s : State) (d e : Nat) : State :=
  setFld (modPwr s d fun p => { p with e := e }) d R.PWR_STATUS_PCTL (min 65535 (estimateOf (s.pwrDie d) e))

/-- A tick is noted after the loop has acted. -/
def tickNoted (s : State) (d c : Nat) (lowered : Bool) : State :=
  modPwr s d fun p =>
    { p with
      ticks := ((c, lowered) :: p.ticks).take 20
      lowered := false
      sum := if 10 ≤ p.cnt + 1 then 0 else p.sum + c
      cnt := if 10 ≤ p.cnt + 1 then 0 else p.cnt + 1
      high := if 10 ≤ p.cnt + 1 then max p.high (p.sum + c) else p.high }

/-- The loop acts on the new estimate, and the tick is noted. -/
theorem controlTick_of_run (up : dieUp s d = true) (mode : fld s d R.PWR_STATUS_MODE = 0) (e : Nat) : controlTick s d e =
    let r := controlLoop (modPwr s d fun p => { p with e := e }) d
    tickNoted r.1 d (pctlOf r.1 d) r.2 := by
  have mode' : ¬fld (modPwr s d fun p => { p with e := e }) d R.PWR_STATUS_MODE = 1 := by
    rw [show fld (modPwr s d fun p => { p with e := e }) d R.PWR_STATUS_MODE = 0 from mode]
    decide
  unfold controlTick
  refine (if_neg (bnot_ne_true up)).trans ?_
  dsimp only
  rw [if_neg mode']
  rfl

theorem estimate_noted (mode : fld s d R.PWR_STATUS_MODE = 0) (e : Nat) :
    pctlOf (modPwr s d fun p => { p with e := e }) d = estimateOf (s.pwrDie d) e := by
  rw [pctlOf_of_run (s := modPwr s d fun p => { p with e := e }) mode, pwrDie_modPwr_self]
  rfl

theorem pctlShown_noted (mode : fld s d R.PWR_STATUS_MODE = 0) (e : Nat) :
    pctlShown (modPwr s d fun p => { p with e := e }) d = loopShown s d e := by
  rw [pctlShown, estimate_noted mode, loopShown]

theorem mode_loopShown (mode : fld s d R.PWR_STATUS_MODE = 0) (e : Nat) : fld (loopShown s d e) d R.PWR_STATUS_MODE = 0 :=
  (fld_setFld_of_bits_apart _ _ _ (by decide)).trans mode

theorem pwrDie_loopShown (s : State) (d e : Nat) : (loopShown s d e).pwrDie d = { s.pwrDie d with e := e } :=
    pwrDie_modPwr_self ..

/-- PCTL is what the loop compares, as far as its bits go. -/
theorem pctl_loopShown (s : State) (d e : Nat) :
    fld (loopShown s d e) d R.PWR_STATUS_PCTL = min 65535 (estimateOf (s.pwrDie d) e) :=
  (fld_setFld_self _ _ _ _ (by decide)).trans (Nat.mod_eq_of_lt (Nat.lt_succ_of_le (min_le_left ..)))

/-- A change that keeps g and the estimate keeps what the loop compares. -/
theorem pctlOf_loopShown (mode : fld s d R.PWR_STATUS_MODE = 0) (e : Nat) {f : PwrDie → PwrDie}
    (keeps : ∀ p, (f p).g = p.g ∧ (f p).e = p.e) : pctlOf (modPwr (loopShown s d e) d f) d = estimateOf (s.pwrDie d) e := by
  obtain ⟨gain, estimate⟩ := keeps ((loopShown s d e).pwrDie d)
  rw [pctlOf_of_run (s := modPwr (loopShown s d e) d f) (mode_loopShown mode e), pwrDie_modPwr_self, estimateOf, gain,
    estimate, pwrDie_loopShown]
  rfl

variable (up : dieUp s d = true) (mode : fld s d R.PWR_STATUS_MODE = 0) (free : fld s d R.PWR_STATUS_THROTTLE = 0)
include up mode free

/-- A tick above the limit lowers the clock one step. -/
theorem controlTick_of_above (e : Nat) (above : fld s d R.PWR_STATUS_LIMIT < estimateOf (s.pwrDie d) e)
    (calm : ramping s d = false) (room : (s.pwrDie d).step < maxSteps d) : controlTick s d e =
      tickNoted (modPwr (loopShown s d e) d fun p => { p with step := p.step + 1 }) d (estimateOf (s.pwrDie d) e) true := by
  have acts := controlLoop_of_above (s := modPwr s d fun p => { p with e := e }) free
    (by rw [estimate_noted mode]; exact above)
    calm (by rw [pwrDie_modPwr_self]; exact room)
  rw [pctlShown_noted mode] at acts
  rw [controlTick_of_run up mode, acts]
  exact congrArg (tickNoted _ d · true) (pctlOf_loopShown mode e fun _ => ⟨rfl, rfl⟩)

/-- A tick at the top of the clock under the limit leaves the clock. -/
theorem controlTick_of_top (e : Nat) (under : estimateOf (s.pwrDie d) e ≤ fld s d R.PWR_STATUS_LIMIT)
    (top : (s.pwrDie d).step = 0) : controlTick s d e =
      tickNoted (modPwr (loopShown s d e) d fun p => { p with gaps := false }) d (estimateOf (s.pwrDie d) e) false := by
  have acts := controlLoop_of_top (s := modPwr s d fun p => { p with e := e }) free
    (by rw [estimate_noted mode]; exact under)
    (by rw [pwrDie_modPwr_self]; exact top)
  rw [pctlShown_noted mode] at acts
  rw [controlTick_of_run up mode, acts]
  exact congrArg (tickNoted _ d · false) (pctlOf_loopShown mode e fun _ => ⟨rfl, rfl⟩)

end Control

/-- Settles O44: reports, grants and epochs by the state that each leaves in the die's controller; a loan is made when the
neighbour is found and enough can be spared, and is taken when it is of this epoch; the loop by its two cases. -/
theorem budgetsAreGrantedLentAndHeld : Obligations.BudgetsAreGrantedLentAndHeld := by
  refine ⟨?_, ?_⟩
  · intro s d k p
    refine ⟨fun up => ?report, fun up locked => ?grants,
      fun unlocked => congrArg Host.Outcome.next (grantCompute_of_open unlocked k),
      fun w v up slot fits => ?receive, fun up fits => ?epoch⟩
    case report =>
      refine ⟨_, _, congrArg Host.Outcome.next (powerReport_of_up up k), ⟨fun _ => rfl, rfl⟩, ⟨rfl, rfl⟩,
        tget?_tset_self .., rfl,
        rfl, rfl, fun ⟨x, mem, limited⟩ => ?_, fun free => ?_⟩
      · exact if_pos (List.any_eq_true.mpr ⟨x, mem, limited⟩)
      · refine if_neg fun any => ?_
        obtain ⟨x, mem, limited⟩ := List.any_eq_true.mp any
        exact absurd ((free x mem).symm.trans limited) Bool.false_ne_true
    case grants =>
      obtain ⟨only, entries, -⟩ := tget?_foldl_grants k (computeGrants s k) (computeGrants_keys s k)
        { s with pwr := { s.pwr with reports := s.pwr.reports.filter fun r => k < r.2.k } }
      refine ⟨_, congrArg Host.Outcome.next (grantCompute_of_locked up locked k), ?_, ?_, entries⟩
      · rw [only]
        exact ⟨fun _ => rfl, rfl⟩
      · rw [only]
        exact ⟨rfl, rfl⟩
    case receive =>
      intro now
      by_cases begun : 100000 * k ≤ now.toNat
      · obtain ⟨grant, lim, kept⟩ := applyGrant_spec (grantTaken s d w) d k fits
        obtain ⟨memory, time, grants, die⟩ := applyGrant_keeps (grantTaken s d w) d k v
        refine ⟨_, congrArg Host.Outcome.next ((grantReceive_of_slot up slot w).trans (if_pos begun)),
          SameMemory.trans (t := grantTaken s d w) ⟨fun _ => rfl, rfl⟩ memory, time, ?_, kept.trans (stale_grantTaken ..),
          fun _ => ⟨grant, lim, ?_⟩, fun later => absurd begun (Nat.not_le.mpr later)⟩
        · rw [grants]
          exact tget?_tdel_self ..
        · rw [die]
      · refine ⟨_, congrArg Host.Outcome.next ((grantReceive_of_slot up slot w).trans (if_neg begun)),
          ⟨fun _ => rfl, rfl⟩, rfl,
          tget?_tdel_self .., stale_grantTaken .., fun now => absurd now begun, fun _ => ⟨?_, ?_, ?_⟩⟩
        · rw [pwrDie_modPwr_self]
        · exact fld_setFld_of_bits_apart _ _ _ (by decide)
        · exact fld_setFld_of_bits_apart _ _ _ (by decide)
    case epoch =>
      obtain ⟨memory, epoch, lent, loans⟩ := epochLimited_keeps s d k
      have boundary := epochBoundary_of_up up k
      obtain ⟨t, ends, regs, grant, stale⟩ : ∃ t, epochBoundary s d k = t ∧ t = { epochLimited s d k with regs := t.regs } ∧
          fld t d R.PWR_STATUS_GRANT = fld (epochLimited s d k) d R.PWR_STATUS_GRANT ∧
          fld t d R.PWR_STATUS_STALE = if ((epochLimited s d k).pwrDie d).gotFor = some k then
            fld (epochLimited s d k) d R.PWR_STATUS_STALE else 1 := by
        by_cases got : ((epochLimited s d k).pwrDie d).gotFor = some k
        · rw [if_pos got] at boundary ⊢
          exact ⟨_, boundary, rfl, rfl, rfl⟩
        · rw [if_neg got] at boundary ⊢
          exact ⟨_, boundary, rfl, fld_setFld_of_bits_apart _ _ _ (by decide), fld_setFld_self _ _ _ _ (by decide)⟩
      have die : t.pwrDie d = (epochLimited s d k).pwrDie d := by rw [regs]; rfl
      refine ⟨t, congrArg Host.Outcome.next ends, ?_, ?_, fun older => ?_, fun l mem => ?_, fun l mem current => ?_,
        fun v next small => ?_, fun absent => ?_⟩
      · rw [regs]
        exact memory
      · rw [die, epoch]
      · rw [die, lent]
        exact if_pos older
      · rw [die, loans, List.mem_filter] at mem
        exact of_decide_eq_true mem.2
      · rw [die, loans, List.mem_filter]
        exact ⟨mem, decide_eq_true current⟩
      · obtain ⟨granted, -, kept⟩ := applyGrant_spec (epochStarted s d k) d k
          (lt_of_le_of_lt (Nat.add_le_add_left (heldOf_epochStarted_le s d k) v) small)
        obtain ⟨-, -, -, after⟩ := applyGrant_keeps (epochStarted s d k) d k v
        have limited := epochLimited_of_next (show (s.pwrDie d).next = some (k, v) from next)
        have got : ((epochLimited s d k).pwrDie d).gotFor = some k := by rw [limited, after]
        rw [die, got, grant, stale, if_pos got, limited]
        exact ⟨granted, rfl, kept⟩
      · have limited := epochLimited_of_none (s := s) (d := d) absent k
        have got : ((epochLimited s d k).pwrDie d).gotFor = p.gotFor := by rw [limited, pwrDie_setLimit, pwrDie_epochStarted]
        refine ⟨?_, fun other => ?_⟩
        · rw [grant, limited]
          exact fld_setLimit _ _ (by decide)
        · rw [stale, got]
          exact if_neg other
  · intro s d up p last limit near
    refine ⟨fun off => congrArg Host.Outcome.next (lendTick_of_off off), fun on some_ => ?lend,
      fun src k amount rest slots => ⟨fun old => congrArg Host.Outcome.next (loanReceive_of_void slots old),
        fun current room fits => ?loan⟩,
      fun e mode free => ?control⟩
    case lend =>
      obtain ⟨memory, regs, die, fields, tells⟩ := told_spec s d
      rcases lendTick_cases up on some_ with ⟨quiet, poor⟩ | ⟨n, turn, found, may, loan⟩
      · refine ⟨_, congrArg Host.Outcome.next quiet, memory, tells, fun _ => ⟨regs, congrArg PwrDie.lent die⟩, ?_⟩
        intro n found full below fits top amount enough
        exact absurd enough (poor n found (mayLend_of_below full below))
      · obtain ⟨memory', status, raised, lowered, slot⟩ := lent_spec s (told s d) (ne_of_found found) turn
        rw [die, fields] at lowered
        rw [die] at raised
        refine ⟨_, congrArg Host.Outcome.next loan, memory.trans memory', fun i mem => ?_, fun short => ?_, ?_⟩
        · rw [status]
          exact tells i mem
        · exact absurd (length_of_mayLend may) (Nat.ne_of_lt short)
        · intro n' found' full below fits top amount enough
          obtain rfl : n = n' := Option.some.inj (found.symm.trans found')
          exact ⟨raised, lowered fits, slot⟩
    case loan =>
      have die : (modPwr (modPwr s d fun p => { p with slots := tdel p.slots src }) d fun q =>
          { q with loans := (k, amount) :: q.loans }).pwrDie d =
          { s.pwrDie d with slots := tdel (s.pwrDie d).slots src, loans := (k, amount) :: (s.pwrDie d).loans } := by
        rw [pwrDie_modPwr_self, pwrDie_modPwr_self]
      refine ⟨_, congrArg Host.Outcome.next (loanReceive_of_fits up slots current room), ⟨fun _ => rfl, rfl⟩, ?_, ?_, ?_⟩
      · rw [pwrDie_setLimit, die]
      · rw [pwrDie_setLimit, die]
      · have held : heldOf { s.pwrDie d with slots := tdel (s.pwrDie d).slots src, loans := (k, amount) :: (s.pwrDie d).loans } =
            heldOf (s.pwrDie d) + amount := Nat.add_comm ..
        refine (limit_setLimit ?_).trans ?_
        · rw [die, held, ← Nat.add_assoc]
          exact lt_of_le_of_lt (Nat.sub_le ..) fits
        · rw [die, held]
          rfl
    case control =>
      intro c
      refine ⟨fun above calm room => ?_, fun under top => ?_⟩
      · refine ⟨_, congrArg Host.Outcome.next (controlTick_of_above up mode free e above calm room), ⟨fun _ => rfl, rfl⟩,
          pctl_loopShown s d e, ?_, ?_⟩
        · rw [tickNoted, pwrDie_modPwr_self, pwrDie_modPwr_self, pwrDie_loopShown]
        · rw [tickNoted, pwrDie_modPwr_self]
          rfl
      · have small : c < 65536 := lt_of_le_of_lt under (fldAt_lt ..)
        refine ⟨_, congrArg Host.Outcome.next (controlTick_of_top up mode free e under top), ⟨fun _ => rfl, rfl⟩,
          (pctl_loopShown s d e).trans (min_eq_right (Nat.le_of_lt_succ small)), ?_, ?_, ?_⟩
        · rw [tickNoted, pwrDie_modPwr_self, pwrDie_modPwr_self, pwrDie_loopShown]
          exact top
        · rw [tickNoted, pwrDie_modPwr_self, pwrDie_modPwr_self]
        · rw [tickNoted, pwrDie_modPwr_self]
          rfl

end Sys2Proof.Machine
end

section
/-! PROOF. Droop and heat (R448, R449, R451 to R454). -/

namespace Sys2Proof.Machine

/-- Changes of a power controller that agree on it are the same. -/
theorem modPwr_congr {s : State} {d : Nat} {f g : PwrDie → PwrDie} (same : f (s.pwrDie d) = g (s.pwrDie d)) :
    modPwr s d f = modPwr s d g := by
  unfold modPwr tmod
  rw [show f (tget s.pwr.dies d {}) = g (tget s.pwr.dies d {}) from same]

/-! ## Droop -/

/-- An event that is counted: the count wraps at its width. -/
theorem fld_bumpEventAt_self (s : State) (die : Nat) {c o : FRef} (bit n : Nat) (h : c.lo = 0 ∧ c.hi = 63)
    (apart : c.off ≠ o.off) :
    fld (bumpEventAt s die c 0 o bit n) die c = (fld s die c + n) % 2 ^ 64 := by
  obtain ⟨lo, hi⟩ := h
  have counted : fld (setFldAt s die c 0 ((fldAt s die c 0 + n) % 2 ^ 64)) die c = (fld s die c + n) % 2 ^ 64 := by
    refine (fldAt_setFldAt_self _ _ _ _ _ (by omega) (by omega)).trans ?_
    rw [lo, hi]
    exact Nat.mod_mod ..
  unfold bumpEventAt
  dsimp only
  split
  · exact counted
  · exact (fld_setFld_of_off_ne _ _ _ apart).trans counted

/-- A count leaves the other fields of the register of its overflow flag. -/
theorem fld_bumpEventAt_of_apart (s : State) (die bit n : Nat) {c o g : FRef} (off : g.off ≠ c.off) (apart : g.Apart o) :
    fld (bumpEventAt s die c 0 o bit n) die g = fld s die g := by
  have counted : ∀ v, fld (setFldAt s die c 0 v) die g = fld s die g := fun v => fld_setFld_of_off_ne s die v off
  unfold bumpEventAt
  dsimp only
  split
  · exact counted _
  · exact (fld_setFld_of_bits_apart _ _ _ apart).trans (counted _)

/-- A die whose rail group's droop is counted and noted. -/
def droopNoted (s : State) (d x : Nat) : State :=
  modPwr (bumpEventAt s d R.PWR_DROOPS_COUNT 0 R.PWR_STATUS_DROOP_OVF 0 1) d fun p =>
    { p with asserting := x :: p.asserting, droop := if stretches x then 1 else p.droop }

theorem droopAssert_of_new {s : State} {x : Nat} (up : dieUp s (groupDie x) = true)
    (new : x ∉ (s.pwrDie (groupDie x)).asserting) : droopAssert s x =
      if stretches x then setFld (droopNoted s (groupDie x) x) (groupDie x) R.PWR_STATUS_DROOP 1
      else droopNoted s (groupDie x) x := by
  unfold droopAssert
  exact if_neg (by simp [up, new])

theorem droopNoted_spec (s : State) (d x : Nat) :
    SameMemory s (droopNoted s d x) ∧ (droopNoted s d x).pwrDie d = { s.pwrDie d with
      asserting := x :: (s.pwrDie d).asserting, droop := if stretches x then 1 else (s.pwrDie d).droop } ∧
      fld (droopNoted s d x) d R.PWR_DROOPS_COUNT = (fld s d R.PWR_DROOPS_COUNT + 1) % 2 ^ 64 ∧
      fld (droopNoted s d x) d R.PWR_STATUS_DROOP = fld s d R.PWR_STATUS_DROOP := by
  refine ⟨?_, ?_, fld_bumpEventAt_self s d 0 1 (by decide) (by decide),
    fld_bumpEventAt_of_apart s d 0 1 (by decide) (by decide)⟩
  · rw [droopNoted, bumpEventAt_onlyRegs]
    exact ⟨fun _ => rfl, rfl⟩
  · rw [droopNoted, pwrDie_modPwr_self, State.pwrDie, bumpEventAt_onlyRegs]
    rfl

/-- The last rail group of a die that releases DROOP_N starts the hold. -/
theorem droopRelease_of_last {s : State} {x : Nat} (alone : (s.pwrDie (groupDie x)).asserting = [x])
    (stretched : (s.pwrDie (groupDie x)).droop = 1) :
    droopRelease s x = modPwr s (groupDie x) fun p => { p with asserting := [], droop := 2 } := by
  have here : (s.pwrDie (groupDie x)).asserting.contains x = true := by simp [alone]
  unfold droopRelease
  refine (if_neg (bnot_ne_true here)).trans (modPwr_congr ?_)
  simp [alone, stretched]

/-! ## Heat -/

section Heat

variable {s : State} {d : Nat} {l : List (BitVec 8)} {tj : Nat} (up : dieUp s d = true) (some_ : l ≠ [])
  (hottest : (l.map (·.toNat)).foldl max 0 = tj)
include up some_ hottest

/-- A sample of temperatures shows the hottest; what follows is by what it is. -/
theorem tjSample_of_up : tjSample s d l =
    if 110 ≤ tj then trip (setFld s d R.PWR_STATUS_TJ tj) d tj
    else if fld s d R.PWR_STATUS_THROTTLE = 1 then
      if 97 ≤ tj then modPwr (setFld s d R.PWR_STATUS_TJ tj) d fun p => { p with step := min (maxSteps d) (p.step + 1) }
      else setFld (setFld s d R.PWR_STATUS_TJ tj) d R.PWR_STATUS_THROTTLE 0
    else if 100 ≤ tj then
      thermalEvent (bumpErr (modPwr (setFld (setFld s d R.PWR_STATUS_TJ tj) d R.PWR_STATUS_THROTTLE 1) d fun p =>
        { p with step := min (maxSteps d) (p.step + 1) }) d R.PWR_ERR_THERMAL) d 0 tj
    else setFld s d R.PWR_STATUS_TJ tj := by
  have throttle : fld (setFld s d R.PWR_STATUS_TJ tj) d R.PWR_STATUS_THROTTLE = fld s d R.PWR_STATUS_THROTTLE :=
    fld_setFld_of_bits_apart _ _ _ (by decide)
  have ready : ¬((!dieUp s d) = true ∨ l = []) := not_or.mpr ⟨bnot_ne_true up, some_⟩
  subst hottest
  unfold tjSample
  refine (if_neg ready).trans (ite_congr rfl (fun _ => rfl) fun _ => ?_)
  refine ite_congr ?_ (fun _ => rfl) fun _ => rfl
  rw [throttle, beq_iff_eq]

end Heat

/-- A die that every module needs switches the rails off when it trips. -/
theorem trip_of_vital {d : Nat} (vital : d = 0 ∨ (5 ≤ d ∧ d ≤ 10) ∨ d = 13) (s : State) (temp : Nat) :
    trip s d temp = railsOff (faultOut s) := by
  have class_ : dieClass false d = 0 ∨ dieClass false d = 2 ∨ dieClass false d = 4 := by
    rcases vital with rfl | ⟨low, high⟩ | rfl
    · exact .inl rfl
    · have notHub : ¬d = 0 := by omega
      have notCompute : ¬d ≤ 4 := by omega
      exact .inr (.inl (by simp [dieClass, notHub, notCompute, high]))
    · exact .inr (.inr rfl)
  unfold trip
  rcases class_ with class_ | class_ | class_ <;> rw [class_] <;> rfl

/-- A report of heat changes no register but the count of dropped events. -/
theorem fld_thermalEvent (s : State) (d kind temp die : Nat) {g : FRef}
    (apart : g.off < 2 ^ 28 ∧ g.off ≠ R.HUB_REL_QUEUE_DROPPED.off) : fld (thermalEvent s d kind temp) die g = fld s die g :=
  fld_relEvent_apart _ _ _ _ _ apart

/-- A die throttled by its heat. -/
def heatThrottled (s : State) (d tj : Nat) : State :=
  bumpErr (modPwr (setFld (setFld s d R.PWR_STATUS_TJ tj) d R.PWR_STATUS_THROTTLE 1) d fun p =>
    { p with step := min (maxSteps d) (p.step + 1) }) d R.PWR_ERR_THERMAL

theorem heatThrottled_spec (s : State) (d : Nat) {tj : Nat} (small : tj < 256) :
    let t := heatThrottled s d tj
    SameMemory s t ∧ fld t d R.PWR_STATUS_TJ = tj ∧ fld t d R.PWR_STATUS_THROTTLE = 1 ∧
      (t.pwrDie d).step = min (maxSteps d) ((s.pwrDie d).step + 1) ∧
      fld t d R.PWR_ERR_THERMAL = min 0xFFFF (fld s d R.PWR_ERR_THERMAL + 1) := by
  refine ⟨?_, ?_, ?_, ?_, ?_⟩
  · rw [heatThrottled, bumpErr_onlyRegs]
    exact ⟨fun _ => rfl, rfl⟩
  · refine (fld_bumpErr_of_off_ne _ _ (by decide)).trans ((fld_setFld_of_bits_apart _ _ _ (by decide)).trans ?_)
    exact (fld_setFld_self _ _ _ _ (by decide)).trans (Nat.mod_eq_of_lt small)
  · exact (fld_bumpErr_of_off_ne _ _ (by decide)).trans (fld_setFld_self _ _ _ _ (by decide))
  · rw [heatThrottled, State.pwrDie, bumpErr_onlyRegs]
    exact congrArg PwrDie.step (pwrDie_modPwr_self ..)
  · refine (fldAt_bumpErrAt _ _ _ _ (by decide) (by decide) (by decide)).trans (congrArg (fun n => min 0xFFFF (n + 1)) ?_)
    exact (fld_setFld_of_off_ne _ _ _ (by decide)).trans (fld_setFld_of_off_ne _ _ _ (by decide))

/-! ## Coolant -/

/-- The registers of a sample of the coolant, with the event of a limit that has come to bind. -/
def coolantShown (s : State) (temp : Nat) : State :=
  let t := setInput (setFld s 0 R.HUB_PWR_STATE_INLET temp)
  if coolantLimit t < 7500 ∧ 7500 ≤ coolantLimit s then thermalEvent t 0 3 temp else t

theorem coolantSample_eq (s : State) (temp : Nat) : coolantSample s temp =
    if 50 ≤ temp then orderlyDown (faultOut (coolantShown s temp)) else coolantShown s temp := rfl

theorem coolantShown_spec {s : State} (none : fld s 0 R.HUB_REL_QUEUE_VALID = 0) {temp : Nat} (small : temp < 256) :
    let t := coolantShown s temp
    OnlyRegs s t ∧ fld t 0 R.HUB_PWR_STATE_INLET = temp ∧
      fld t 0 R.HUB_PWR_STATE_EFF_CAP = (effCap t / 25).floor.toNat := by
  have inlet : fld (setInput (setFld s 0 R.HUB_PWR_STATE_INLET temp)) 0 R.HUB_PWR_STATE_INLET = temp :=
    (fld_setInput_inlet _).trans ((fld_setFld_self _ _ _ _ (by decide)).trans (Nat.mod_eq_of_lt small))
  have none' : fld (setInput (setFld s 0 R.HUB_PWR_STATE_INLET temp)) 0 R.HUB_REL_QUEUE_VALID = 0 := by
    simp only [setInput]
    rw [fld_setFld_of_off_ne _ _ _ (by decide), fld_setFld_of_off_ne _ _ _ (by decide),
      fld_setFld_of_off_ne _ _ _ (by decide)]
    exact (fld_setFld_of_off_ne _ _ _ (by decide)).trans none
  unfold coolantShown
  dsimp only
  split
  · have event : thermalEvent (setInput (setFld s 0 R.HUB_PWR_STATE_INLET temp)) 0 3 temp = _ :=
      relEvent_of_no_queue none' _ _ _
    have cap : effCap (thermalEvent (setInput (setFld s 0 R.HUB_PWR_STATE_INLET temp)) 0 3 temp) =
        effCap (setInput (setFld s 0 R.HUB_PWR_STATE_INLET temp)) := by
      refine effCap_congr ?_ (fld_thermalEvent _ _ _ _ _ (by decide)) (fld_thermalEvent _ _ _ _ _ (by decide))
      rw [event, bumpErr_onlyRegs]
    refine ⟨?_, (fld_thermalEvent _ _ _ _ _ (by decide)).trans inlet, ?_⟩
    · rw [event]
      exact OnlyRegs.trans (s := s) (t := setInput (setFld s 0 R.HUB_PWR_STATE_INLET temp)) rfl (bumpErr_onlyRegs ..)
    · rw [cap]
      exact (fld_thermalEvent _ _ _ _ _ (by decide)).trans (fld_setInput_effCap _)
  · exact ⟨rfl, inlet, fld_setInput_effCap _⟩

/-- An orderly power-down asked for with FAULT_N asserted (R454, R504). -/
theorem orderlyDown_faultOut {s : State} (power : s.boot.powered = true) (running : s.boot.down = false) :
    let t := orderlyDown (faultOut s)
    t.boot.faultN = true ∧ (s.boot.state < 3 → t.boot.powered = false) ∧ (3 ≤ s.boot.state → t.boot.state = 6) := by
  have ready : ¬((!(faultOut s).boot.powered) || (faultOut s).boot.down) = true := by
    rw [show (faultOut s).boot.powered = true from power, show (faultOut s).boot.down = false from running]
    decide
  unfold orderlyDown
  rw [if_neg ready]
  by_cases early : (faultOut s).boot.state < 3
  · rw [if_pos early]
    exact ⟨rfl, fun _ => rfl, fun late => absurd early (Nat.not_lt.mpr late)⟩
  · rw [if_neg early]
    obtain ⟨state, same⟩ := setBootState_eq (modBoot (faultOut s) fun b => { b with down := true }) 6
    refine ⟨?_, fun early' => absurd early' early, fun _ => state⟩
    rw [same]
    rfl

/-- Settles O45: droop and heat by the case of each model function that the hypotheses name. -/
theorem droopStretchesAndHeatThrottles : Obligations.DroopStretchesAndHeatThrottles := by
  intro s
  refine ⟨fun x up new => ?assert,
    fun x alone stretched => congrArg Host.Outcome.next (droopRelease_of_last alone stretched),
    fun d => ⟨fun held => ?hold, fun recovering => ?recovery⟩, fun d l up some_ => ?heat,
    fun c power running none => ⟨fun cool => ?cool, fun hot => ?hot⟩⟩
  case assert =>
    intro d
    obtain ⟨memory, die, count, droop⟩ := droopNoted_spec s d x
    have asserted := droopAssert_of_new up new
    cases stretched : stretches x with
    | true =>
      rw [stretched] at asserted die
      refine ⟨_, congrArg Host.Outcome.next (asserted.trans (if_pos rfl)),
        SameMemory.trans memory ⟨fun _ => rfl, rfl⟩, ?_, ?_, fun _ => ⟨?_, ?_⟩, nofun⟩
      · exact congrArg PwrDie.asserting die
      · exact (fld_setFld_of_off_ne _ _ _ (by decide)).trans count
      · exact congrArg PwrDie.droop die
      · exact fld_setFld_self _ _ _ _ (by decide)
    | false =>
      rw [stretched] at asserted die
      exact ⟨_, congrArg Host.Outcome.next (asserted.trans (if_neg Bool.false_ne_true)), memory,
        congrArg PwrDie.asserting die, count, nofun,
        fun _ => ⟨by rw [die]; rfl, droop⟩⟩
  case hold => exact congrArg Host.Outcome.next (modPwr_congr (by simp [held]))
  case recovery =>
    refine ⟨_, congrArg Host.Outcome.next (if_pos recovering), ⟨fun _ => rfl, rfl⟩, ?_, fld_setFld_self _ _ _ _ (by decide)⟩
    exact congrArg PwrDie.droop (pwrDie_modPwr_self ..)
  case heat =>
    intro tj
    have sample := tjSample_of_up (tj := tj) up some_ rfl
    refine ⟨fun cool free => ?_, fun cool throttled => ?_, fun hot below free noQueue => ?_, fun trips vital => ?_⟩
    · have notThrottled : ¬fld s d R.PWR_STATUS_THROTTLE = 1 := by rw [free]; decide
      exact congrArg Host.Outcome.next
        (sample.trans ((if_neg (by omega)).trans ((if_neg notThrottled).trans (if_neg (by omega)))))
    · refine ⟨_, congrArg Host.Outcome.next
        (sample.trans ((if_neg (by omega)).trans ((if_pos throttled).trans (if_neg (by omega))))),
        rfl, ?_, fld_setFld_self _ _ _ _ (by decide)⟩
      refine (fld_setFld_of_bits_apart _ _ _ (by decide)).trans ((fld_setFld_self _ _ _ _ (by decide)).trans ?_)
      exact Nat.mod_eq_of_lt (show tj < 256 by omega)
    · have notThrottled : ¬fld s d R.PWR_STATUS_THROTTLE = 1 := by rw [free]; decide
      obtain ⟨memory, shown, throttle, step, count⟩ := heatThrottled_spec s d (show tj < 256 by omega)
      obtain ⟨memory', pwr⟩ := relEvent_keeps (heatThrottled s d tj) 0x16 0 (body4 (d + 0 * 2 ^ 5 + tj * 2 ^ 16) 0 0 0)
      refine ⟨_, congrArg Host.Outcome.next
        (sample.trans ((if_neg (by omega)).trans ((if_neg notThrottled).trans (if_pos hot)))),
        memory.trans memory', (fld_thermalEvent _ _ _ _ _ (by decide)).trans shown,
        (fld_thermalEvent _ _ _ _ _ (by decide)).trans throttle, ?_, (fld_thermalEvent _ _ _ _ _ (by decide)).trans count⟩
      exact (congrArg (fun p => (tget p.dies d {}).step) pwr).trans step
    · exact ⟨_, congrArg Host.Outcome.next (sample.trans ((if_pos trips).trans (trip_of_vital vital _ tj))), rfl, rfl⟩
  case cool =>
    exact ⟨_, congrArg Host.Outcome.next ((if_pos power).trans (if_neg (Nat.not_le.mpr cool))),
      coolantShown_spec none c.isLt⟩
  case hot =>
    obtain ⟨only, -⟩ := coolantShown_spec none c.isLt
    have boot : (coolantShown s c.toNat).boot = s.boot := by rw [only]
    have down := orderlyDown_faultOut (s := coolantShown s c.toNat) (by rw [boot]; exact power) (by rw [boot]; exact running)
    rw [boot] at down
    exact ⟨_, congrArg Host.Outcome.next ((if_pos power).trans (if_pos hot)), down⟩

end Sys2Proof.Machine
end

section
/-! PROOF. Power-on, RESET_N, the survey, the choice of an image, boot and locks (R457 to R462, R467, R473, R502, R503, R510). -/

namespace Sys2Proof.Machine

/-! ## Power and RESET_N -/

theorem setFldAt_onlyRegs (s : State) (die : Nat) (f : FRef) (i x : Nat) : OnlyRegs s (setFldAt s die f i x) := rfl

theorem showFuses_onlyRegs (s : State) : OnlyRegs s (showFuses s) := rfl

/-- A cold start changes registers, the salt of the tiers and what is drawn at random. -/
theorem coldStart_eq (s : State) :
    ∃ regs tiers free, coldStart s = { s with regs := regs, tiers := tiers, free := free } := by
  have draws : ∀ f, modTiers (drawFree (drawFree (drawFree s).2).2).2 f =
    { s with tiers := f s.tiers, free := s.free + 1 + 1 + 1 } :=
    fun _ => rfl
  have only : OnlyRegs (modTiers (drawFree (drawFree (drawFree s).2).2).2 fun t => { t with salt := (drawFree s).1 })
    (coldStart s) :=
    OnlyRegs.trans (OnlyRegs.trans (setFldAt_onlyRegs ..) (setFldAt_onlyRegs ..)) (showFuses_onlyRegs _)
  rw [only, draws]
  exact ⟨_, _, _, rfl⟩

/-- What the rails' coming up leaves of the module. -/
theorem railsUp_spec (s : State) :
    let t := railsUp s
    SameMemory s t ∧ t.boot.powered = true ∧ t.boot.state = 0 ∧ t.boot.vin = s.boot.vin ∧ t.boot.straps = s.boot.straps := by
  intro t
  obtain ⟨regs, tiers, free, same⟩ := coldStart_eq { modBoot s fun b => { b with powered := true, state := 0 } with
    ksl := s.ksl.map fun p => (p.1, { p.2 with powered := true }) }
  rw [show t = _ from same]
  exact ⟨⟨fun _ => rfl, rfl⟩, rfl, rfl, rfl, rfl⟩

theorem powerOn_of_off {s : State} (off : s.boot.powered = false) (none : s.boot.vin = false) (x : BitVec 3) :
    powerOn s x = railsUp (modBoot s fun b => { b with vin := true, straps := x }) := by
  rw [powerOn, off, none]
  rfl

theorem powerOn_of_on {s : State} (on : s.boot.powered = true ∨ s.boot.vin = true) (x : BitVec 3) : powerOn s x = s :=
  if_pos (by simpa using on)

theorem rstAssert_of_power {s : State} (power : s.boot.powered = true) :
    rstAssert s = modBoot (coldReset s) fun b => { b with rstLow := true } := by
  rw [rstAssert, power]
  rfl

/-- RESET_N resets the module, and holds it in reset. -/
theorem rstAssert_spec {s : State} (power : s.boot.powered = true) :
    (rstAssert s).boot.rstLow = true ∧ (rstAssert s).boot.state = 0 ∧ (rstAssert s).time = 0 ∧ (rstAssert s).mem = s.mem ∧
      (rstAssert s).poison = s.poison ∧ (rstAssert s).spurs = [] ∧ (rstAssert s).harts = [] ∧
      (rstAssert s).boot.fuses = s.boot.fuses := by
  obtain ⟨u, same, state, time, mem, poison, spurs, harts, fuses⟩ :
    ∃ u, rstAssert s = (modBoot u fun b => { b with rstLow := true }) ∧
      u.boot.state = 0 ∧ u.time = 0 ∧ u.mem = s.mem ∧ u.poison = s.poison ∧ u.spurs = [] ∧ u.harts = [] ∧
      u.boot.fuses = s.boot.fuses := by
    obtain ⟨state, time, mem, poison, spurs, harts, -, fuses, -⟩ := coldReset_spec s
    exact ⟨coldReset s, rstAssert_of_power power, state, time, mem, poison, spurs, harts, fuses⟩
  rw [same]
  exact ⟨rfl, state, time, mem, poison, spurs, harts, fuses⟩

/-! ## The survey -/

theorem bootFail_spec (s : State) {cause : Nat} (small : cause < 8) :
    let t := bootFail s cause
    SameMemory s t ∧ t.boot.state = 5 ∧ fld t 0 R.HUB_SEC_STATUS_CAUSE = cause := by
  obtain ⟨state, same⟩ := setBootState_eq (setFld s 0 R.HUB_SEC_STATUS_CAUSE cause) 5
  refine ⟨?_, state, ?_⟩
  · rw [bootFail, same]
    exact ⟨fun _ => rfl, rfl⟩
  · rw [bootFail, same]
    refine (fldAt_congr ?_ ?_ _ _ _).trans ((fld_setFld_self s 0 _ _ (by decide)).trans (Nat.mod_eq_of_lt small))
    · rfl
    · rfl

/-- The identity of a guest site decides of that site alone. -/
theorem bitAt_surveyPass (r : Survey) {d : Nat} (notGuest : d ≠ 14 ∧ d ≠ 15) :
    bitAt (surveyPass r) d = bitAt r.dies.toNat d := by
  have step : ∀ (c : Bool) (v g : Nat), d ≠ 14 + g →
    bitAt (if c then setBits v (14 + g) (14 + g) 0 else v) d = bitAt v d := by
    intro c v g other
    split
    · rw [bitAt_eq_testBit, testBit_setBits _ _ _ _ _ le_rfl, if_neg fun h => other (le_antisymm h.2 h.1), bitAt_eq_testBit]
    · rfl
  exact (step _ _ 1 notGuest.2).trans (step _ _ 0 notGuest.1)

theorem surveyPass_of_good {r : Survey} (good : r.guestBad = 0) : surveyPass r = r.dies.toNat := by
  rw [surveyPass, good]
  rfl

/-- The survey past its checks keeps memory, PWR_GOOD and the map of dies. -/
structure Surveys (s t : State) : Prop where
  memory : SameMemory s t
  pwrGood : t.boot.pwrGood = s.boot.pwrGood
  map : fld t 0 R.HUB_DIE_MAP_IN_SERVICE = fld s 0 R.HUB_DIE_MAP_IN_SERVICE

theorem Surveys.refl (s : State) : Surveys s s := ⟨⟨fun _ => rfl, rfl⟩, rfl, rfl⟩

theorem Surveys.trans {s t u : State} (h : Surveys s t) (h' : Surveys t u) : Surveys s u :=
  ⟨h.memory.trans h'.memory, h'.pwrGood.trans h.pwrGood, h'.map.trans h.map⟩

theorem Surveys.foldl {α : Type} {f : State → α → State} (each : ∀ s x, Surveys s (f s x)) (l : List α) (s : State) :
    Surveys s (l.foldl f s) := by
  induction l generalizing s with
  | nil => exact .refl s
  | cons x l ih => exact (each s x).trans (ih _)

theorem Surveys.ite {c : Prop} [Decidable c] {s t u : State} (yes : Surveys s t) (no : Surveys s u) :
    Surveys s (if c then t else u) := by
  split
  · exact yes
  · exact no

theorem surveys_setFldAt (s : State) (die i x : Nat) {f : FRef}
    (apart : f.off + f.stride * i < 2 ^ 28 ∧ R.HUB_DIE_MAP_IN_SERVICE.off ≠ f.off + f.stride * i) :
      Surveys s (setFldAt s die f i x) :=
  ⟨⟨fun _ => rfl, rfl⟩, rfl, fld_setFldAt_apart s die 0 i x ⟨apart.1, by decide⟩ apart.2⟩

/-- A register of the hub behind the map of dies. -/
theorem surveys_setFldAt_hub (s : State) (i x : Nat) {f : FRef} (behind : R.HUB_DIE_MAP_IN_SERVICE.off < f.off) :
    Surveys s (setFldAt s 0 f i x) := by
  refine ⟨⟨fun _ => rfl, rfl⟩, rfl, fldAt_setFldAt_reg _ _ _ _ _ _ _ _ fun same => ?_⟩
  simp only [regKey] at same
  have place : R.HUB_DIE_MAP_IN_SERVICE.off = 24 := rfl
  omega

theorem surveys_logAppend (s : State) (kind die arg : Nat) (digest : Line) : Surveys s (logAppend s kind die arg digest) :=
  ⟨⟨fun _ => rfl, rfl⟩, rfl, fldAt_congr rfl rfl _ _ _⟩

theorem surveys_unitsUp (s : State) (d : Nat) : Surveys s (unitsUp s d) := by
  have map : ∀ (u : State) (n v : Nat), n < 3 → Surveys u (setFldAt u d R.UNIT_MAP_IN_SERVICE n v) := by
    intro u n v small
    refine surveys_setFldAt u d n v ?_
    interval_cases n <;> decide
  have field : ∀ (u : State) {f : FRef} (v : Nat), f.off + f.stride * 0 < 2 ^ 28 ∧
    R.HUB_DIE_MAP_IN_SERVICE.off ≠ f.off + f.stride * 0 →
      Surveys u (setFld u d f v) := fun u _ v apart => surveys_setFldAt u d 0 v apart
  refine Surveys.trans ?_ (field _ _ (by decide))
  refine .ite (map _ 0 _ (by decide)) (.ite ((map _ 0 _ (by decide)).trans (map _ 1 _ (by decide)))
    (.ite ((map _ 0 _ (by decide)).trans (field _ _ (by decide)))
      (.ite (((map _ 0 _ (by decide)).trans (map _ 1 _ (by decide))).trans
      (map _ 2 _ (by decide))) (.ite ((map _ 0 _ (by decide)).trans (field _ _ (by decide))) (.refl _)))))

theorem surveys_surveyCapacity (s : State) (pass : Nat) : Surveys s (surveyCapacity s pass) :=
  ((surveys_setFldAt_hub _ 0 _ (by decide)).trans (surveys_setFldAt_hub _ 0 _ (by decide))).trans
    (surveys_setFldAt_hub _ 0 _ (by decide))

theorem surveys_surveyKsl (s : State) (x : Nat × (BitVec 2 × BitVec 10 × BitVec 8)) : Surveys s (surveyKsl s x) := by
  unfold surveyKsl
  exact .ite (((surveys_setFldAt_hub _ _ _ (by decide)).trans (surveys_setFldAt_hub _ _ _ (by decide))).trans
    (surveys_setFldAt_hub _ _ _ (by decide))) (.refl s)

/-- The survey has begun: PWR_GOOD, and the boot ROM in the log. -/
def surveyBegun (s : State) (needed : Bool) : State :=
  logAppend (modBoot s fun b => { b with pwrGood := needed }) 1 0 0 (bytesLine Config.bootRom)

/-- A die that every module needs is missing. -/
theorem surveyRun_of_missing {s : State} {r : Survey} {d : Nat} (needed : d ∈ [0, 5, 6, 7, 8, 9, 10, 13])
    (missing : bitAt (surveyPass r) d = false) : surveyRun s r = bootFail (surveyBegun s false) 2 := by
  have none : [0, 5, 6, 7, 8, 9, 10, 13].all (bitAt (surveyPass r)) = false := by
    rw [List.all_eq_false]
    exact ⟨d, needed, Bool.eq_false_iff.mp missing⟩
  simp only [surveyRun, none, Bool.not_false, Bool.true_or, if_true]
  rfl

/-- The dies that pass are in service. -/
theorem surveyRun_of_pass {s : State} {r : Survey} {c : Nat}
    (needed : ∀ d ∈ [0, 5, 6, 7, 8, 9, 10, 13], bitAt (surveyPass r) d = true)
    (core : c ∈ [1, 2, 3, 4]) (passes : bitAt (surveyPass r) c = true) (modules : r.ridgeBad = []) (units : r.failed = []) :
    ∃ t, surveyRun s r = setBootState t 1 ∧
      Surveys (setFld (surveyBegun s true) 0 R.HUB_DIE_MAP_IN_SERVICE (surveyPass r)) t := by
  have all : [0, 5, 6, 7, 8, 9, 10, 13].all (bitAt (surveyPass r)) = true := List.all_eq_true.mpr needed
  have any : [1, 2, 3, 4].any (bitAt (surveyPass r)) = true := List.any_eq_true.mpr ⟨c, core, passes⟩
  have killed : ∀ u : State, Surveys u ((List.range 2).foldl (fun u g =>
      if r.guestBad.getLsbD g then setFldAt u 0 R.HUB_COL_CTL_KILLED g 1 else u) u) :=
    Surveys.foldl (fun u g => .ite (surveys_setFldAt_hub _ _ _ (by decide)) (.refl u)) _
  have resets : ∀ (u : State) x, Surveys u (modBoot u fun b => { b with resets := x }) := fun u _ =>
    ⟨⟨fun _ => rfl, rfl⟩, rfl, fldAt_congr rfl rfl _ _ _⟩
  have missing : ∀ (u : State) x, Surveys u { u with fab := { u.fab with missing := x } } := fun u _ =>
    ⟨⟨fun _ => rfl, rfl⟩, rfl, rfl⟩
  simp only [surveyRun, all, any, Bool.not_true, Bool.or_self, Bool.false_eq_true, if_false, modules, units, List.foldl_nil]
  refine ⟨_, rfl, ?_⟩
  refine .trans ?_ (Surveys.foldl (fun u d => surveys_logAppend ..) _ _)
  refine .trans ?_ (surveys_logAppend ..)
  refine .trans ?_ (missing ..)
  refine .trans ?_ (Surveys.foldl surveys_surveyKsl _ _)
  refine .trans ?_ (resets ..)
  refine .trans ?_ (killed _)
  exact (surveys_surveyCapacity ..).trans (Surveys.foldl surveys_unitsUp _ _)

theorem siteSurvey_of_wait (s : State) {r : Survey} (wait : r.inputOk = false ∨ r.coolantOk = false) :
    siteSurvey s r = s := by
  unfold siteSurvey
  refine if_pos ?_
  rcases wait with wait | wait <;> simp [wait]

section Survey

variable {s : State} (power : s.boot.powered = true) (high : s.boot.rstLow = false)
include power high

theorem siteSurvey_of_ready (state : s.boot.state = 0) {r : Survey} (input : r.inputOk = true)
    (coolant : r.coolantOk = true) :
    siteSurvey s r = surveyRun s r := by
  unfold siteSurvey
  exact if_neg (by simp [power, high, state, input, coolant])

theorem surveyTimeout_of_ready (state : s.boot.state = 0) (b : Bool) :
    surveyTimeout s b = bootFail s (if b then 4 else 1) := by
  unfold surveyTimeout
  exact if_neg (by simp [power, high, state])

theorem bootTimeout_of_early (early : s.boot.state < 3) : bootTimeout s = bootFail s 6 := by
  unfold bootTimeout
  exact if_neg (by simp [power, high, early])

end Survey

/-! ## The choice of an image -/

/-- The status that shows the chosen copy. -/
def imageShown (s : State) (b o : Bool) (c : List Byte) : State :=
  setFld (setFld (setFld (modBoot s fun x => { x with image := imgBytes c 0 (imgLength c), fuseDue := true })
    0 R.HUB_SEC_STATUS_COPY (b2n b)) 0 R.HUB_SEC_STATUS_OTHER_VALID (b2n o)) 0 R.HUB_SEC_STATUS_VKEY (imgVkey c)

/-- Entries of the log change the log alone. -/
structure Logs (s t : State) : Prop where
  memory : SameMemory s t
  image : t.boot.image = s.boot.image
  fields : ∀ f, fld t 0 f = fld s 0 f

theorem Logs.refl (s : State) : Logs s s := ⟨⟨fun _ => rfl, rfl⟩, rfl, fun _ => rfl⟩

theorem Logs.trans {s t u : State} (h : Logs s t) (h' : Logs t u) : Logs s u :=
  ⟨h.memory.trans h'.memory, h'.image.trans h.image, fun f => (h'.fields f).trans (h.fields f)⟩

theorem logs_logAppend (s : State) (kind die arg : Nat) (digest : Line) : Logs s (logAppend s kind die arg digest) :=
  ⟨⟨fun _ => rfl, rfl⟩, rfl, fun _ => fldAt_congr rfl rfl _ _ _⟩

theorem Logs.foldl {α : Type} {f : State → α → State} (each : ∀ s x, Logs s (f s x)) (l : List α) (s : State) :
    Logs s (l.foldl f s) := by
  induction l generalizing s with
  | nil => exact .refl s
  | cons x l ih => exact (each s x).trans (ih _)

theorem imageSelect_of_copy {s : State} (state : s.boot.state = 1) {b o : Bool}
    (chosen : chooseCopy s.boot.fuses s.boot.flash = some (b, o)) : ∃ t, imageSelect s = setBootState t 2 ∧
      Logs (imageShown s b o (if b then s.boot.flash.b else s.boot.flash.a)) t := by
  have log : ∀ (c : Prop) [Decidable c] (u : State) k d a x, Logs u (if c then logAppend u k d a x else u) := by
    intro c _ u k d a x
    split
    · exact logs_logAppend ..
    · exact .refl u
  simp only [imageSelect, chosen]
  refine ⟨_, if_neg (not_not.mpr state), ?_⟩
  refine .trans ?_ (Logs.foldl (fun u x => logs_logAppend ..) _ _)
  refine .trans ?_ (logs_logAppend ..)
  exact (logs_logAppend ..).trans (log _ _ _ _ _ _)

theorem imageSelect_of_none {s : State} (state : s.boot.state = 1) (none : chooseCopy s.boot.fuses s.boot.flash = none) :
    imageSelect s = bootFail s 3 := by
  simp only [imageSelect, none]
  exact if_neg (not_not.mpr state)

theorem b2n_lt (b : Bool) : b2n b < 2 := by cases b <;> decide

theorem imageShown_spec (s : State) (b o : Bool) (c : List Byte) :
    fld (imageShown s b o c) 0 R.HUB_SEC_STATUS_COPY = b2n b ∧
      fld (imageShown s b o c) 0 R.HUB_SEC_STATUS_OTHER_VALID = b2n o ∧
      fld (imageShown s b o c) 0 R.HUB_SEC_STATUS_VKEY = imgVkey c := by
  refine ⟨?_, ?_, ?_⟩
  · refine (fld_setFld_of_bits_apart _ _ _ (by decide)).trans ((fld_setFld_of_bits_apart _ _ _ (by decide)).trans ?_)
    exact (fld_setFld_self _ _ _ _ (by decide)).trans (Nat.mod_eq_of_lt (b2n_lt b))
  · refine (fld_setFld_of_bits_apart _ _ _ (by decide)).trans ?_
    exact (fld_setFld_self _ _ _ _ (by decide)).trans (Nat.mod_eq_of_lt (b2n_lt o))
  · exact (fld_setFld_self _ _ _ _ (by decide)).trans (Nat.mod_eq_of_lt (bits_lt _ _ _))

/-! ## Boot -/

/-- Registers read the same where they hold the same and the partner code is the same. -/
theorem fldAt_congr_partner {s t : State} (regs : t.regs = s.regs) (partner : t.boot.fuses.partner = s.boot.fuses.partner)
    (die : Nat) (f : FRef) (i : Nat) : fldAt t die f i = fldAt s die f i := by
  simp only [fldAt, regRaw, regs, partner]

/-- The fuses are shown in HUB_SEC_STATUS alone. -/
theorem fld_showFuses (s : State) (die : Nat) {f : FRef} (apart : f.off < 2 ^ 28 ∧ f.off ≠ R.HUB_SEC_STATUS_SVN_MIN.off) :
    fld (showFuses s) die f = fld s die f := by
  obtain ⟨inside, off⟩ := apart
  exact (fld_setFldAt_apart _ _ _ _ _ ⟨by decide, inside⟩ off).trans
    ((fld_setFldAt_apart _ _ _ _ _ ⟨by decide, inside⟩ off).trans
    (fld_setFldAt_apart _ _ _ _ _ ⟨by decide, inside⟩ off))

/-- Fuses are blown once, and no register but HUB_SEC_STATUS shows it. -/
theorem blowFuses_spec (s : State) :
    let t := blowFuses s
    t.mem = s.mem ∧ t.boot.fuseDue = false ∧ ∀ die {f : FRef}, f.off < 2 ^ 28 ∧ f.off ≠ R.HUB_SEC_STATUS_SVN_MIN.off →
      fld t die f = fld s die f := by
  unfold blowFuses
  dsimp only
  split
  · next done =>
    rw [Bool.not_eq_true', ] at done
    exact ⟨rfl, done, fun _ _ _ => rfl⟩
  · exact ⟨rfl, rfl, fun die _ apart => (fld_showFuses _ die apart).trans (fldAt_congr_partner rfl rfl _ _ _)⟩

theorem fabReady_state {s : State} (state : s.boot.state = 3) :
    (fabReady s).boot.state = 3 ∨ (fabReady s).boot.state = 4 := by
  unfold fabReady
  split
  · exact .inr (setBootState_eq s 4).1
  · exact .inl state

/-- A module that has booted runs: its fuses are blown, and its registers are those that boot wrote. -/
theorem ready_spec (s : State) :
    let t := fabReady (setBootState (blowFuses s) 3)
    (t.boot.state = 3 ∨ t.boot.state = 4) ∧ t.mem = s.mem ∧ t.boot.fuseDue = false ∧
      ∀ die {f : FRef}, f.off < 2 ^ 28 ∧ f.off ≠ R.HUB_SEC_STATUS_SVN_MIN.off → fld t die f = fld s die f := by
  obtain ⟨mem, fuseDue, fields⟩ := blowFuses_spec s
  obtain ⟨state, same⟩ := setBootState_eq (blowFuses s) 3
  obtain ⟨n, m, same'⟩ := fabReady_eq (setBootState (blowFuses s) 3)
  refine ⟨fabReady_state state, ?_, ?_, fun die f apart => ?_⟩
  · rw [same', same]
    exact mem
  · rw [same', same]
    exact fuseDue
  · rw [same', same]
    exact (fldAt_congr_partner rfl rfl _ _ _).trans (fields die apart)

theorem bootSequence_of_bad {s : State} (state : s.boot.state = 2) (bad : bootChecked (bootSteps s) = false) :
    bootSequence s = bootFail (bootSteps s) 5 := by
  unfold bootSequence
  rw [if_neg (not_not.mpr state)]
  exact if_pos (by rw [bad]; rfl)

theorem bootSequence_of_good {s : State} (state : s.boot.state = 2) (good : bootChecked (bootSteps s) = true) :
    ∃ x, bootSequence s = fabReady (setBootState (blowFuses { bootSteps s with fab := x }) 3) := by
  unfold bootSequence
  rw [if_neg (not_not.mpr state)]
  exact ⟨_, if_neg (by rw [good]; exact Bool.false_ne_true)⟩

theorem lockAll_of_bootChecked {s : State} (good : bootChecked s = true) {d : Nat} (die : d < 32) (up : dieUp s d = true) :
    fld s d R.LOCK_STATE_ALL = 1 := by
  rw [bootChecked, Bool.and_eq_true, List.all_eq_true (l := List.range 32)] at good
  have locked := good.2 d (List.mem_range.mpr die)
  rw [up] at locked
  exact beq_iff_eq.mp locked

/-! ## Locks -/

/-- Priority service of a memory die's stacks is shown in its HBM block alone. -/
theorem fld_modHbm (s : State) (md : Nat) (f : HbmDie → HbmDie) (die : Nat) {g : FRef}
    (before : g.off < R.MEM_HBM_STACK_PRIORITY.off) :
    fld (modHbm s md f) die g = fld s die g := by
  have shown : ∀ (now : Bool) (l : List Nat) (u : State), (∀ j ∈ l, j < 4) →
      fld (l.foldl (fun s j => setFldAt s (5 + md) R.MEM_HBM_STACK_PRIORITY j (b2n now)) u) die g = fld u die g := by
    intro now l u small
    induction l generalizing u with
    | nil => rfl
    | cons j l ih =>
      have first := small j (List.mem_cons_self ..)
      refine (ih _ fun i mem => small i (List.mem_cons_of_mem _ mem)).trans (fld_setFldAt_apart _ _ _ _ _ ⟨?_, ?_⟩ ?_)
      · interval_cases j <;> decide
      · exact before.trans (by decide)
      · exact Nat.ne_of_lt (Nat.lt_add_right _ before)
  have tiers : ∀ (u : State) (x : Tiers), fld { u with tiers := x } die g = fld u die g := fun _ _ => rfl
  unfold modHbm
  dsimp only
  split
  · exact (tiers _ _).trans ((shown _ _ _ fun j mem => List.mem_range.mp mem).trans (tiers _ _))
  · exact (shown _ _ _ fun j mem => List.mem_range.mp mem).trans (tiers _ _)

/-- A die whose lock register takes what a write sets. -/
def lockShown (s : State) (d bs : Nat) : State :=
  setFld (setFld s d R.LOCK_STATE_LOCKED (fld s d R.LOCK_STATE_LOCKED ||| (bs % 2 ^ 19))) d R.LOCK_STATE_ALL
    (b2n ((rwlBlocks d).all (bitAt (fld s d R.LOCK_STATE_LOCKED ||| (bs % 2 ^ 19)))))

/-- What follows a lock leaves memory and the lock register. -/
structure LockKept (d : Nat) (s t : State) : Prop where
  memory : SameMemory s t
  fields : ∀ {g : FRef}, g.off < R.MEM_HBM_STACK_PRIORITY.off → fld t d g = fld s d g

theorem LockKept.trans {d : Nat} {s t u : State} (h : LockKept d s t) (h' : LockKept d t u) : LockKept d s u :=
  ⟨h.memory.trans h'.memory, fun before => (h'.fields before).trans (h.fields before)⟩

theorem lockKept_ite {d : Nat} {c : Prop} [Decidable c] {s t : State} (yes : LockKept d s t) :
    LockKept d s (if c then t else s) := by
  split
  · exact yes
  · exact ⟨⟨fun _ => rfl, rfl⟩, fun _ => rfl⟩

/-- Locks change the register that shows them. -/
theorem lockSet_of_up {s : State} {d : Nat} (up : dieUp s d = true) (bs : Nat) :
    LockKept d (lockShown s d bs) (lockSet s d bs) := by
  unfold lockSet
  rw [if_neg (bnot_ne_true up)]
  have hbm : ∀ f, LockKept d (lockShown s d bs) (modHbm (lockShown s d bs) (d - 5) f) := fun f =>
    ⟨(decides_modHbm ..).memory, fld_modHbm _ _ _ _⟩
  have ranges : ∀ (u : State) f, LockKept d u (modTiers u f) := fun u f => ⟨⟨fun _ => rfl, rfl⟩, fun _ => rfl⟩
  exact (lockKept_ite (hbm _)).trans (lockKept_ite (ranges _ _))

theorem lockShown_spec (s : State) (d : Nat) (b : BitVec 19) :
    fld (lockShown s d b.toNat) d R.LOCK_STATE_LOCKED = fld s d R.LOCK_STATE_LOCKED ||| b.toNat ∧
      fld (lockShown s d b.toNat) d R.LOCK_STATE_ALL =
        b2n ((rwlBlocks d).all (bitAt (fld s d R.LOCK_STATE_LOCKED ||| b.toNat))) := by
  have bits : b.toNat % 2 ^ 19 = b.toNat := Nat.mod_eq_of_lt b.isLt
  have fits : fld s d R.LOCK_STATE_LOCKED ||| b.toNat < 2 ^ 19 := Nat.or_lt_two_pow (fldAt_lt ..) b.isLt
  unfold lockShown
  rw [bits]
  refine ⟨(fld_setFld_of_bits_apart _ _ _ (by decide)).trans ?_, ?_⟩
  · exact (fld_setFld_self _ _ _ _ (by decide)).trans (Nat.mod_eq_of_lt fits)
  · exact (fld_setFld_self _ _ _ _ (by decide)).trans (Nat.mod_eq_of_lt (b2n_lt _))

/-- Settles O46: the rails' coming up, the survey, the choice of an image and boot by the case of each that the hypotheses
name; what follows a case's decisive write leaves the registers and memory that the statement speaks of. -/
theorem startUpSurveysChoosesAnImageAndBoots : Obligations.StartUpSurveysChoosesAnImageAndBoots := by
  intro s
  refine ⟨fun x => ⟨fun on => congrArg Host.Outcome.next (powerOn_of_on on x), fun off none => ?on⟩,
    ⟨_, rfl, rfl, rfl, rfl, rfl, rfl, rfl, rfl⟩,
    fun power => ?assert, fun power => ?release, fun off input => ?restart, fun power high state => ?survey,
      fun state => ?image,
    fun state => ⟨fun bad => ?badBoot, fun good => ?boot⟩, fun power high early => ?timeout,
      fun state => congrArg Host.Outcome.next (if_pos state),
    fun other => congrArg Host.Outcome.next (if_neg other), fun d b up => ?lock⟩
  case on =>
    obtain ⟨memory, powered, state, vin, straps⟩ := railsUp_spec (modBoot s fun b => { b with vin := true, straps := x })
    exact ⟨_, congrArg Host.Outcome.next (powerOn_of_off off none x), memory, powered, vin, straps, state⟩
  case assert =>
    exact ⟨_, rfl, rstAssert_spec power⟩
  case release =>
    refine ⟨_, congrArg Host.Outcome.next (if_neg ?_), ⟨fun _ => rfl, rfl⟩, ⟨rfl, rfl⟩, rfl, rfl⟩
    simp [modBoot, power]
  case restart =>
    obtain ⟨memory, powered, state, -⟩ := railsUp_spec { modBoot s fun b => { b with rstLow := false } with
      mgmt := { s.mgmt with jtag := if s.mgmt.jtag = .extest ∨ s.mgmt.jtag = .highz then .bypass else s.mgmt.jtag } }
    refine ⟨_, congrArg Host.Outcome.next (if_pos ?_), powered, state⟩
    simp [modBoot, off, input]
  case survey =>
    refine ⟨fun r wait => congrArg Host.Outcome.next (siteSurvey_of_wait s wait), fun r d input coolant needed missing => ?_,
      fun r c input coolant sites units modules needed core passes => ?_, fun b => ?_⟩
    · have notGuest : d ≠ 14 ∧ d ≠ 15 := by
        have all : ∀ x ∈ [0, 5, 6, 7, 8, 9, 10, 13], x ≠ 14 ∧ x ≠ 15 := by decide
        exact all d needed
      have run := surveyRun_of_missing (s := s) needed ((bitAt_surveyPass r notGuest).trans missing)
      obtain ⟨memory, failed, cause⟩ := bootFail_spec (surveyBegun s false) (show 2 < 8 by decide)
      exact ⟨_, congrArg Host.Outcome.next ((siteSurvey_of_ready power high state input coolant).trans run),
        SameMemory.trans (t := surveyBegun s false) ⟨fun _ => rfl, rfl⟩ memory, failed, cause⟩
    · have pass := surveyPass_of_good sites
      obtain ⟨t, run, survey⟩ :=
        surveyRun_of_pass (s := s) (r := r) (by rw [pass]; exact needed) core (by rw [pass]; exact passes)
        modules units
      obtain ⟨one, same⟩ := setBootState_eq t 1
      refine ⟨_, congrArg Host.Outcome.next ((siteSurvey_of_ready power high state input coolant).trans run), ?_, one,
        ?_, ?_⟩
      · rw [same]
        exact SameMemory.trans (t := surveyBegun s true) ⟨fun _ => rfl, rfl⟩ survey.memory
      · rw [same]
        exact survey.pwrGood
      · rw [same]
        refine (fldAt_congr_partner rfl rfl _ _ _).trans (survey.map.trans ((fld_setFld_self _ _ _ _ (by decide)).trans ?_))
        rw [pass]
        exact Nat.mod_eq_of_lt r.dies.isLt
    · have spec := bootFail_spec s (cause := if b then 4 else 1) (by cases b <;> decide)
      exact ⟨_, congrArg Host.Outcome.next (surveyTimeout_of_ready power high state b), spec⟩
  case image =>
    cases chosen : chooseCopy s.boot.fuses s.boot.flash with
    | none => exact ⟨_, congrArg Host.Outcome.next (imageSelect_of_none state chosen), bootFail_spec s (by decide)⟩
    | some c =>
      obtain ⟨b, o⟩ := c
      obtain ⟨t, selects, logs⟩ := imageSelect_of_copy state chosen
      obtain ⟨copy, other, key⟩ := imageShown_spec s b o (if b then s.boot.flash.b else s.boot.flash.a)
      obtain ⟨two, same⟩ := setBootState_eq t 2
      have fields : ∀ f, fld (setBootState t 2) 0 f = fld t 0 f := by
        intro f
        rw [same]
        exact fldAt_congr_partner rfl rfl _ _ _
      refine ⟨_, congrArg Host.Outcome.next selects, ?_, two, ?_, (fields _).trans ((logs.fields _).trans copy),
        (fields _).trans ((logs.fields _).trans other), (fields _).trans ((logs.fields _).trans key)⟩
      · rw [same]
        exact SameMemory.trans (t := imageShown s b o _) ⟨fun _ => rfl, rfl⟩ logs.memory
      · rw [same]
        exact logs.image
  case badBoot =>
    obtain ⟨-, failed, cause⟩ := bootFail_spec (bootSteps s) (show 5 < 8 by decide)
    exact ⟨_, congrArg Host.Outcome.next (bootSequence_of_bad state bad), failed, cause⟩
  case boot =>
    obtain ⟨x, boots⟩ := bootSequence_of_good state good
    obtain ⟨ready, mem, fuseDue, fields⟩ := ready_spec { bootSteps s with fab := x }
    refine ⟨_, congrArg Host.Outcome.next boots, ready, mem, fuseDue, fun d die up => ?_⟩
    have up' : dieUp (bootSteps s) d = true := (congrArg (bitAt · d) (fields 0 (by decide))).symm.trans up
    exact (fields d (by decide)).trans (lockAll_of_bootChecked good die up')
  case timeout => exact ⟨_, congrArg Host.Outcome.next (bootTimeout_of_early power high early), bootFail_spec s (by decide)⟩
  case lock =>
    obtain ⟨memory, fields⟩ := lockSet_of_up up b.toNat
    obtain ⟨locked, all⟩ := lockShown_spec s d b
    exact ⟨_, rfl, SameMemory.trans (t := lockShown s d b.toNat) ⟨fun _ => rfl, rfl⟩ memory,
      (fields (by decide)).trans locked,
      (fields (by decide)).trans all⟩

end Sys2Proof.Machine
end

section
/-! PROOF. Rebuild, Scree and Cairn (R480, R483 to R488). -/

namespace Sys2Proof.Machine

/-! ## Rebuild -/

/-- What is rebuilt of a memory die's stacks is not what priority service changes. -/
theorem rebuilding_modHbm (s : State) (md : Nat) (f : HbmDie → HbmDie) (j : Nat) :
    rebuilding (modHbm s md f) md j = (f (tget s.tiers.hbm md {})).rebuilding.getLsbD j := by
  have shown : ∀ (now : Bool) (l : List Nat) (u : State),
      (l.foldl (fun s j => setFldAt s (5 + md) R.MEM_HBM_STACK_PRIORITY j (b2n now)) u).tiers = u.tiers :=
    fun now l u => foldl_read_of_keeps (read := State.tiers) (step := fun s j =>
      setFldAt s (5 + md) R.MEM_HBM_STACK_PRIORITY j (b2n now)) (fun _ _ _ => rfl) u
  unfold rebuilding modHbm
  dsimp only
  split
  · rw [shown, tget_tmod_self, tget_tmod_self]
  · rw [shown, tget_tmod_self]

theorem rebuildStep_of_run {s : State} {md j : Nat} (runs : rebuilding s md j = true) :
    rebuildStep s md j = modSvc s fun v => { v with rebuilt := tmod v.rebuilt (md * 4 + j) 0 (· + 1) } := if_pos runs

/-- One bit of four cleared. -/
theorem getLsbD_cleared (v : BitVec 4) (j i : Fin 4) :
    (v &&& ~~~((1 : BitVec 4) <<< j.val)).getLsbD i = (v.getLsbD i && !decide (i = j)) := by
  have all : ∀ (v : BitVec 4) (j i : Fin 4),
    (v &&& ~~~((1 : BitVec 4) <<< j.val)).getLsbD i = (v.getLsbD i && !decide (i = j)) := by
    decide
  exact all v j i

/-! ## Scree -/

theorem setPoison_svc (s : State) (ln : Nat) (p : Bool) : (setPoison s ln p).svc = s.svc := by rw [setPoison_frame]

theorem relEvent_svc (s : State) (typ : Byte) (ctx : BitVec 16) (body : List Byte) :
    (relEvent s typ ctx body).svc = s.svc := by
  rw [relEvent_frame]

/-- The rest of what a line reads as: what is kept of poison, when the line is in use. -/
theorem linePoison_of_stores {s t : State} {ln : Nat} (poison : t.poison = s.poison) (tiers : t.tiers = s.tiers)
    (inUse : lineRetired s ln = false) (struck : linePoison s ln = true) : linePoison t ln = true := by
  unfold linePoison at struck ⊢
  rw [inUse, Bool.false_or] at struck
  rw [poison, tiers, struck, Bool.or_true]

/-- A report of a lost codeword changes registers, queues, arbiters and the tests that wait. -/
def OnlyReports (s t : State) : Prop :=
  t = { s with regs := t.regs, qs := t.qs, arbs := t.arbs, svc := { s.svc with tests := t.svc.tests } }

theorem OnlyReports.trans {s t u : State} (h : OnlyReports s t) (h' : OnlyReports t u) : OnlyReports s u := by
  unfold OnlyReports at *
  rw [h', h]

theorem testQueue_onlyReports (s : State) (x : SelfTest) : OnlyReports s (testQueue s x) := by
  unfold testQueue
  dsimp only
  split <;> rfl

theorem relEvent_onlyReports (s : State) (typ : Byte) (ctx : BitVec 16) (body : List Byte) :
    OnlyReports s (relEvent s typ ctx body) := by
  rw [relEvent_frame]
  rfl

theorem foldl_testQueue_onlyReports (l : List Rid) (s : State) :
    OnlyReports s (l.foldl (fun s r => testQueue s { rid := r, now := false, cmd := false }) s) := by
  induction l generalizing s with
  | nil => rfl
  | cons r l ih => exact (testQueue_onlyReports s _).trans (ih _)

theorem codewordLost_onlyReports (s : State) (ln detail : Nat) : OnlyReports s (codewordLost s ln detail) :=
  (relEvent_onlyReports ..).trans (foldl_testQueue_onlyReports _ _)

theorem bumpErr_onlyReports (s : State) (c : FRef) : OnlyReports s (bumpErr s 0 c) := by
  unfold OnlyReports
  rw [bumpErr_onlyRegs]

/-- A report leaves what memory holds, its poison, and the sweep's overrun. -/
theorem OnlyReports.stores {s t : State} (h : OnlyReports s t) :
    t.mem = s.mem ∧ t.poison = s.poison ∧ t.tiers = s.tiers ∧ t.svc.hbmOver = s.svc.hbmOver := by
  unfold OnlyReports at h
  rw [h]
  exact ⟨rfl, rfl, rfl, rfl⟩

/-- The progress of a sweep that has not overrun is shown. -/
theorem screeProgress_of_hbm {s : State} (onTime : s.svc.hbmOver = false) :
    ∃ x, screeProgress s false = setFld s 0 R.HUB_SCREE_STATUS_HBM_DONE x := by
  unfold screeProgress
  rw [if_neg Bool.false_ne_true]
  exact ⟨_, if_neg fun h => Bool.false_ne_true (onTime.symm.trans h.2)⟩

theorem screeProgress_of_board {s : State} (more : s.svc.boardDone < 2 ^ 35) : screeProgress s true =
    setFld s 0 R.HUB_SCREE_STATUS_BOARD_DONE (s.svc.boardDone * 100 / 2 ^ 35) := by
  have part : s.svc.boardDone * 100 / 2 ^ 35 ≤ 100 := by omega
  unfold screeProgress
  rw [if_pos rfl]
  refine (if_neg fun h => absurd h.1 (Nat.not_le.mpr more)).trans ?_
  rw [min_eq_right part]

/-- A codeword that cannot be decoded is of a line in use, and poisons it. -/
theorem readCodeword_lost {s : State} {md ln : Nat} {e e2 : List (Fin 72)} (lost : (readCodeword s md ln e e2).2 = true) :
    (readCodeword s md ln e e2).1 = setPoison s ln true ∧ lineRetired s ln = false := by
  unfold readCodeword at lost ⊢
  dsimp only at lost ⊢
  split at lost
  · cases lost
  · next bad =>
    rw [if_neg bad]
    simp only [Bool.or_eq_true, not_or, Bool.not_eq_true] at bad
    exact ⟨rfl, bad.1.1.1⟩

theorem readCodeword_kept {s : State} {md ln : Nat} {e e2 : List (Fin 72)} (kept : (readCodeword s md ln e e2).2 = false) :
    (readCodeword s md ln e e2).1 = s := by
  unfold readCodeword at kept ⊢
  dsimp only at kept ⊢
  split at kept
  · next good => rw [if_pos good]
  · cases kept

/-- The sweep's period that ends before the sweep does, of the stacks and of the board tier. -/
theorem screePeriod_of_board {s : State} (on : fld s 0 R.HUB_SCREE_CFG_BOARD_H ≠ 0) (more : s.svc.boardDone < 2 ^ 35) :
    screePeriod s true =
      modSvc (setFld s 0 R.HUB_SCREE_STATUS_BOARD_LAG 1) fun v => { v with boardOver := true } :=
  (if_neg on).trans (if_neg (Nat.not_le.mpr more))

theorem screePeriod_of_hbm {s : State} (on : fld s 0 R.HUB_SCREE_CFG_HBM_H ≠ 0) {n : Nat} (here : n ∈ stacksUp s)
    (more : tget s.svc.hbmDone n 0 < stackLines) : screePeriod s false =
      modSvc (setFld s 0 R.HUB_SCREE_STATUS_HBM_LAG 1) fun v => { v with hbmOver := true } :=
  (if_neg on).trans (if_neg fun all =>
    absurd (of_decide_eq_true (List.all_eq_true.mp all n here)) (Nat.not_le.mpr more))

/-- A counted line is counted; memory is not touched. -/
theorem screeProgress_counted {s : State} (onTime : s.svc.hbmOver = false) (k n : Nat) (abandons : Tbl Nat → Tbl Nat) :
    ∃ t, screeProgress (modSvc s
      fun v => { v with hbmDone := tset v.hbmDone k (n + 1), abandons := abandons v.abandons }) false = t ∧
      t.mem = s.mem ∧ t.poison = s.poison ∧ t.tiers = s.tiers ∧ tget t.svc.hbmDone k 0 = n + 1 := by
  obtain ⟨shown, progress⟩ := screeProgress_of_hbm (s := modSvc s fun v => { v with
    hbmDone := tset v.hbmDone k (n + 1), abandons := abandons v.abandons }) onTime
  exact ⟨_, progress, rfl, rfl, rfl, tget_tset_self ..⟩

section Hbm

variable {s : State} {md j : Nat} (on : fld s 0 R.HUB_SCREE_CFG_HBM_H ≠ 0) (up : (stacksUp s).contains (4 * md + j) = true)
  (more : tget s.svc.hbmDone (4 * md + j) 0 < stackLines)
include on up more

/-- A step of the sweep of a stack reads its next line. -/
theorem screeHbm_of_more (e e2 : List (Fin 72)) :
    let n := tget s.svc.hbmDone (4 * md + j) 0
    let c := readCodeword s md (stackLine s (4 * md + j) n) e e2
    ∃ abandons : Tbl Nat → Tbl Nat, screeHbm s md j e e2 = screeProgress (modSvc (if c.2 then codewordLost (bumpErr c.1 0
      R.HUB_SCREE_STATUS_HBM_POISONED) (stackLine s (4 * md + j) n) 0 else c.1) fun v =>
        { v with hbmDone := tset v.hbmDone (4 * md + j) (n + 1), abandons := abandons v.abandons }) false := by
  have ready : ¬(fld s 0 R.HUB_SCREE_CFG_HBM_H = 0 || !(stacksUp s).contains (4 * md + j) ||
      stackLines ≤ tget s.svc.hbmDone (4 * md + j) 0) = true := by
    rw [up]
    simp [on, Nat.not_le.mpr more]
  unfold screeHbm
  exact ⟨_, if_neg ready⟩

variable (onTime : s.svc.hbmOver = false) (e e2 : List (Fin 72))
include onTime

/-- A line that is read leaves memory, and the sweep goes on. -/
theorem screeHbmStep_of_kept
    (kept : (readCodeword s md (stackLine s (4 * md + j) (tget s.svc.hbmDone (4 * md + j) 0)) e e2).2 = false) :
    ∃ t, screeHbm s md j e e2 = t ∧ SameMemory s t ∧
      tget t.svc.hbmDone (4 * md + j) 0 = tget s.svc.hbmDone (4 * md + j) 0 + 1 := by
  obtain ⟨abandons, step⟩ := screeHbm_of_more on up more e e2
  generalize tget s.svc.hbmDone (4 * md + j) 0 = n at kept step
  rw [kept, if_neg Bool.false_ne_true, readCodeword_kept kept] at step
  obtain ⟨t, progress, mem, poison, -, done⟩ := screeProgress_counted onTime (4 * md + j) n abandons
  exact ⟨t, step.trans progress, ⟨fun a => congrArg (memByte · a) mem, poison⟩, done⟩

/-- A line that is lost is poisoned, and the sweep goes on. -/
theorem screeHbmStep_of_lost
    (lost : (readCodeword s md (stackLine s (4 * md + j) (tget s.svc.hbmDone (4 * md + j) 0)) e e2).2 = true) :
    ∃ t, screeHbm s md j e e2 = t ∧ (∀ a, memByte t.mem a = memByte s.mem a) ∧
      linePoison t (stackLine s (4 * md + j) (tget s.svc.hbmDone (4 * md + j) 0)) = true ∧
      tget t.svc.hbmDone (4 * md + j) 0 = tget s.svc.hbmDone (4 * md + j) 0 + 1 := by
  obtain ⟨abandons, step⟩ := screeHbm_of_more on up more e e2
  generalize tget s.svc.hbmDone (4 * md + j) 0 = n at lost step ⊢
  generalize stackLine s (4 * md + j) n = ln at lost step ⊢
  obtain ⟨poisons, inUse⟩ := readCodeword_lost lost
  rw [lost, if_pos rfl, poisons] at step
  obtain ⟨mem, poison, tiers, overran⟩ := ((bumpErr_onlyReports (setPoison s ln true)
    R.HUB_SCREE_STATUS_HBM_POISONED).trans (codewordLost_onlyReports _ ln 0)).stores
  rw [setPoison_svc, onTime] at overran
  generalize codewordLost _ _ _ = u at step mem poison tiers overran
  obtain ⟨t, progress, mem', poison', tiers', done⟩ := screeProgress_counted overran (4 * md + j) n abandons
  exact ⟨t, step.trans progress, fun a => congrArg (memByte · a) (mem'.trans (mem.trans (setPoison_mem ..))),
    linePoison_of_stores (poison'.trans poison) (tiers'.trans tiers) ((lineRetired_setPoison ..).trans inUse)
      (linePoison_setPoison ..), done⟩

end Hbm

section Board

variable {s : State} (on : fld s 0 R.HUB_SCREE_CFG_BOARD_H ≠ 0) (up : dieUp s 13 = true) (more : s.svc.boardDone < 2 ^ 35)
  (inUse : lineRetired s (boardBase / 64 + s.svc.boardDone) = false)
include on up more inUse

/-- A step of the sweep of the board tier reads its next line. -/
theorem screeBoard_of_more (linkErr : Bool) : screeBoard s linkErr = screeProgress (modSvc
    (if 2 ^ 35 ≤ s.svc.boardDone ∨ (!linkErr) = true ∨ linePoison s (boardBase / 64 + s.svc.boardDone) = true then s
      else relEvent (bumpErr (setPoison s (boardBase / 64 + s.svc.boardDone) true) 0
        R.HUB_SCREE_STATUS_BOARD_POISONED) 0x11 0
        (relBody (rid 0x0D 13 (boardChannel ((boardBase / 64 + s.svc.boardDone) * 64))) 2 6
          ((boardBase / 64 + s.svc.boardDone) * 64) 1 0 0)) fun v => { v with boardDone := s.svc.boardDone + 1 }) true := by
  have ready : ¬(fld s 0 R.HUB_SCREE_CFG_BOARD_H = 0 ∨ 2 ^ 35 ≤ s.svc.boardDone ∨ (!dieUp s 13) = true) :=
    not_or.mpr ⟨on, not_or.mpr ⟨Nat.not_le.mpr more, bnot_ne_true up⟩⟩
  have next : (s.svc.boardDone :: (List.range 128).map fun i => (s.svc.boardDone / 32 + 1 + i) * 32).find?
      (fun k => !lineRetired s (boardBase / 64 + k)) = some s.svc.boardDone :=
    List.find?_cons_of_pos (by rw [inUse]; rfl)
  simp only [screeBoard, next]
  exact if_neg ready

end Board

/-! ## Cairn -/

theorem cairnStart_of_idle {s : State} {r : Rid} (up : ridUp s r = true) (period : cairnPeriod s r ≠ 0)
    (idle : s.svc.cairn = [])
    {d a i : Nat} (place : cairnArb r = some (d, a, i)) : cairnStart s r =
      arbAsk (modSvc s fun v => { v with cairn := v.cairn ++ [ridNum r] }) d a { input := i, id := ridNum r } := by
  have ready : ¬(!ridUp s r || cairnPeriod s r == 0 || s.svc.cairn.any fun n => cairnPlace (numRid n) == cairnPlace
    r) = true := by
    simp [up, period, idle]
  unfold cairnStart
  rw [if_neg ready, place]

/-- A release, or none, changes arbiters alone. -/
theorem arbRelease_onlyArbs (s : State) (held : Bool) (d a : Nat) : (if held then arbRelease s d a else s) =
    { s with arbs := (if held then arbRelease s d a else s).arbs } := by
  cases held with
  | false => rfl
  | true =>
    rw [if_pos rfl]
    unfold arbRelease
    split <;> rfl

/-- A dropped request changes arbiters alone. -/
theorem arbDrop_onlyArbs (s : State) (where_ : Option (Nat × Nat × Nat)) (r : Rid) :
    arbDrop s where_ r = { s with arbs := (arbDrop s where_ r).arbs } := by
  match where_ with
  | none => rfl
  | some (d, a, i) => exact arbRelease_onlyArbs (modArb s d a fun x => { x with
      queue := x.queue.filter fun y => !(y.input == i && y.id == ridNum r)
      records := x.records.filter fun y => !(y.input == i && y.id == ridNum r) }) _ d a

theorem arbDrop_spec (s : State) (where_ : Option (Nat × Nat × Nat)) (r : Rid) :
    SameMemory s (arbDrop s where_ r) ∧ (arbDrop s where_ r).svc = s.svc := by
  rw [arbDrop_onlyArbs]
  exact ⟨⟨fun _ => rfl, rfl⟩, rfl⟩

/-- A task of Cairn that ends, and the state it leaves. -/
def cairnDropped (s : State) (r : Rid) : State :=
  arbDrop (modSvc s fun v => { v with cairn := v.cairn.erase (ridNum r) }) (cairnArb r) r

theorem cairnEnd_of_open {s : State} {r : Rid} (only : s.svc.cairn = [ridNum r]) (abandoned : Bool) :
    cairnEnd s r abandoned =
    if abandoned then taskAbandoned (cairnDropped s r) r true
    else modSvc (cairnDropped s r) fun v => { v with abandons := tdel v.abandons (ridNum r) } := by
  unfold cairnEnd
  exact if_neg (by simp [only])

theorem cairnDropped_spec {s : State} {r : Rid} (only : s.svc.cairn = [ridNum r]) :
    SameMemory s (cairnDropped s r) ∧ (cairnDropped s r).svc = { s.svc with cairn := [] } := by
  obtain ⟨memory, svc⟩ := arbDrop_spec (modSvc s fun v => { v with cairn := v.cairn.erase (ridNum r) }) (cairnArb r) r
  refine ⟨SameMemory.trans (t := modSvc s fun v => { v with cairn := v.cairn.erase (ridNum r) }) ⟨fun _ => rfl, rfl⟩
    memory, ?_⟩
  rw [cairnDropped, svc]
  simp [modSvc, only]

/-- An abandoned task of Cairn is counted and reported. -/
theorem taskAbandoned_spec (s : State) (r : Rid) : SameMemory s (taskAbandoned s r true) ∧ (taskAbandoned s r true).svc =
    { s.svc with abandons := tset s.svc.abandons (ridNum r) (min 255 (tget s.svc.abandons (ridNum r) 0 + 1)) } := by
  have key : ridNum r + b2n (!true) * 2 ^ 32 = ridNum r := by simp [b2n]
  unfold taskAbandoned
  rw [key]
  dsimp only
  generalize body4 _ _ _ _ = body
  exact ⟨SameMemory.trans ⟨fun _ => rfl, rfl⟩ (relEvent_keeps ..).1, relEvent_svc ..⟩

/-- Settles O49: a rebuild changes its own table, a line that Scree reads is counted and poisons itself when it is lost, and a task
of Cairn waits for its arbiter until it ends. -/
theorem backgroundServicesRunStepByStep : Obligations.BackgroundServicesRunStepByStep := by
  intro s m j
  refine ⟨fun runs => ?step, ?done, fun e e2 on up more => ?hbm,
    fun on up more inUse => ⟨?board, fun clean noQueue => ?boardLost⟩,
    fun on more => ?boardPeriod, fun on n here more => ?hbmPeriod, fun r d a i up period idle place => ?calibrate,
      fun r only => ⟨?ended, fun noQueue => ?abandoned⟩⟩
  case step =>
    exact ⟨_, congrArg Host.Outcome.next (rebuildStep_of_run runs), ⟨fun _ => rfl, rfl⟩, ⟨rfl, rfl⟩, tget_tmod_self ..⟩
  case done =>
    have bits : ∀ i : Fin 4, rebuilding (rebuildDone s m j) m i = (rebuilding s m i && !decide (i = j)) := by
      intro i
      exact (rebuilding_modHbm s m _ i).trans (getLsbD_cleared _ j i)
    refine ⟨_, rfl, ?_, (bits j).trans (by simp), fun i other => (bits i).trans (by simp [other]), tget?_tdel_self ..⟩
    exact (decides_modHbm s m fun h => { h with rebuilding := h.rebuilding &&& ~~~((1 : BitVec 4) <<< j.val) }).memory
  case hbm =>
    dsimp only
    intro onTime
    constructor
    · intro kept
      obtain ⟨t, run, rest⟩ := screeHbmStep_of_kept on up more onTime e e2 kept
      exact ⟨t, congrArg Host.Outcome.next run, rest⟩
    · intro lost _
      obtain ⟨t, run, rest⟩ := screeHbmStep_of_lost on up more onTime e e2 lost
      exact ⟨t, congrArg Host.Outcome.next run, rest⟩
  case board =>
    have step := screeBoard_of_more on up (Nat.lt_of_succ_lt more) inUse false
    rw [if_pos (.inr (.inl rfl)), screeProgress_of_board more] at step
    refine ⟨_, congrArg Host.Outcome.next step, ⟨fun _ => rfl, rfl⟩, rfl, ?_⟩
    refine (fld_setFld_self _ _ _ _ (by decide)).trans (Nat.mod_eq_of_lt ?_)
    have wide : 2 ^ (R.HUB_SCREE_STATUS_BOARD_DONE.hi - R.HUB_SCREE_STATUS_BOARD_DONE.lo + 1) = 256 := by decide
    rw [wide]
    change (s.svc.boardDone + 1) * 100 / 2 ^ 35 < 256
    omega
  case boardLost =>
    have step := screeBoard_of_more on up (Nat.lt_of_succ_lt more) inUse true
    rw [if_neg (not_or.mpr ⟨Nat.not_le.mpr (Nat.lt_of_succ_lt more), not_or.mpr ⟨by decide, by simp [clean]⟩⟩),
      screeProgress_of_board more] at step
    refine ⟨_, congrArg Host.Outcome.next step, rfl, ?_, ?_⟩
    · obtain ⟨-, poison, tiers, -⟩ := ((bumpErr_onlyReports (setPoison s (boardBase / 64 + s.svc.boardDone) true)
        R.HUB_SCREE_STATUS_BOARD_POISONED).trans (relEvent_onlyReports _ 0x11 0
          (relBody (rid 0x0D 13 (boardChannel ((boardBase / 64 + s.svc.boardDone) * 64))) 2 6
            ((boardBase / 64 + s.svc.boardDone) * 64) 1 0 0))).stores
      exact linePoison_of_stores (s := setPoison s (boardBase / 64 + s.svc.boardDone) true) poison tiers
        ((lineRetired_setPoison ..).trans inUse) (linePoison_setPoison ..)
    · refine (fld_setFld_of_bits_apart _ _ _ (by decide)).trans ?_
      refine (fld_relEvent_apart _ _ _ _ 0 (by decide)).trans ?_
      refine (fldAt_bumpErrAt _ 0 R.HUB_SCREE_STATUS_BOARD_POISONED 0 (by decide) (by decide) (by decide)).trans ?_
      rw [fldAt_congr (sameRegs_setPoison s _ true).1 (congrArg (·.boot.fuses) (setPoison_frame s _ true))]
      rfl
  case boardPeriod =>
    exact ⟨_, congrArg Host.Outcome.next (screePeriod_of_board on more), ⟨fun _ => rfl, rfl⟩,
      fld_setFld_self _ _ _ _ (by decide), rfl⟩
  case hbmPeriod =>
    exact ⟨_, congrArg Host.Outcome.next (screePeriod_of_hbm on here more), ⟨fun _ => rfl, rfl⟩,
      fld_setFld_self _ _ _ _ (by decide), rfl⟩
  case calibrate =>
    refine ⟨_, congrArg Host.Outcome.next (cairnStart_of_idle up period idle place), ⟨fun _ => rfl, rfl⟩, ⟨rfl, rfl⟩, ?_, ?_⟩
    · exact congrArg (· ++ _) idle
    · exact congrArg Arbiter.queue
        (arb_modArb_self _ d a fun x => { x with queue := x.queue ++ [{ input := i, id := ridNum r }] })
  case ended =>
    obtain ⟨memory, svc⟩ := cairnDropped_spec only
    refine ⟨_, congrArg Host.Outcome.next ((cairnEnd_of_open only false).trans (if_neg Bool.false_ne_true)), memory,
      ?_, tget?_tdel_self ..⟩
    exact congrArg Service.cairn svc
  case abandoned =>
    obtain ⟨memory, svc⟩ := cairnDropped_spec only
    have step := (cairnEnd_of_open only true).trans (if_pos rfl)
    obtain ⟨counts, abandons⟩ := taskAbandoned_spec (cairnDropped s r) r
    refine ⟨_, congrArg Host.Outcome.next step, memory.trans counts, ?_, ?_⟩
    · rw [abandons, svc]
    · rw [abandons, svc]
      exact tget_tset_self ..

end Sys2Proof.Machine
end

section
/-! PROOF. Self-tests, telemetry and fatal errors (R490 to R492, R497, R498). -/

namespace Sys2Proof.Machine

/-! ## What says whether a resource is in service -/

/-- The fields that `ridUp` reads, of every die that has them. -/
def unitFields : List (FRef × Nat) :=
  [(R.HUB_DIE_MAP_IN_SERVICE, 0), (R.RIDGE_MAP_IN_SERVICE, 0), (R.TNS_ARRAY_MAP_IN_SERVICE, 0),
    (R.MEM_CL_MAP_IN_SERVICE, 0)] ++
    (List.range 3).map (R.UNIT_MAP_IN_SERVICE, ·) ++ (List.range 4).map (R.MEM_HBM_STACK_STACK_RETIRED, ·) ++
    (List.range 4).map (R.MEM_HBM_STACK_PCH_RETIRED, ·) ++ (List.range 4).map (R.MEM_HBM_STACK_PCH, ·)

/-- Nothing that says what is in service has changed. -/
structure UnitsKept (s t : State) : Prop where
  retired : t.svc.retired = s.svc.retired
  shown : ∀ p ∈ unitFields, ∀ die, fldAt t die p.1 p.2 = fldAt s die p.1 p.2

theorem UnitsKept.trans {s t u : State} (h : UnitsKept s t) (h' : UnitsKept t u) : UnitsKept s u :=
  ⟨h'.retired.trans h.retired, fun p mem die => (h'.shown p mem die).trans (h.shown p mem die)⟩

theorem UnitsKept.refl (s : State) : UnitsKept s s := ⟨rfl, fun _ _ _ => rfl⟩

theorem UnitsKept.ite {c : Prop} [Decidable c] {s t u : State} (yes : UnitsKept s t) (no : UnitsKept s u) :
    UnitsKept s (if c then t else u) := by
  split
  · exact yes
  · exact no

theorem unitsKept_of_regs {s t : State} (retired : t.svc.retired = s.svc.retired) (regs : t.regs = s.regs)
    (boot : t.boot = s.boot) : UnitsKept s t :=
  ⟨retired, fun _ _ _ => fldAt_congr regs (congrArg Boot.fuses boot) _ _ _⟩

/-- A resource of a unit map has its bit in one of the map's first three words. -/
theorem unitBit_small {r : Rid} (ok : ridOk r = true) {m b : Nat} (place : unitBit r = some (m, b)) : m < 3 := by
  unfold unitBit at place
  dsimp only at place
  split at place
  case h_6 kind =>
    have unit : r.unit.toNat < 128 := by
      simp only [ridOk, kind, Bool.and_eq_true, decide_eq_true_eq] at ok
      exact ok.2
    cases place
    omega
  all_goals cases place
  all_goals decide

theorem ridUp_of_unitsKept {s t : State} (kept : UnitsKept s t) (r : Rid) : ridUp t r = ridUp s r := by
  obtain ⟨retired, shown⟩ := kept
  have map : ∀ m < 3, fldAt t r.die.toNat R.UNIT_MAP_IN_SERVICE m = fldAt s r.die.toNat R.UNIT_MAP_IN_SERVICE m :=
    fun m small => shown (_, m) (by simp [unitFields, small]) _
  have stack : ∀ j < 4,
    fldAt t r.die.toNat R.MEM_HBM_STACK_STACK_RETIRED j = fldAt s r.die.toNat R.MEM_HBM_STACK_STACK_RETIRED j :=
    fun j small => shown (_, j) (by simp [unitFields, small]) _
  have pch : ∀ j < 4, fldAt t r.die.toNat R.MEM_HBM_STACK_PCH_RETIRED j = fldAt s r.die.toNat R.MEM_HBM_STACK_PCH_RETIRED j ∧
      fldAt t r.die.toNat R.MEM_HBM_STACK_PCH j = fldAt s r.die.toNat R.MEM_HBM_STACK_PCH j :=
    fun j small => ⟨shown (_, j) (by simp [unitFields, small]) _, shown (_, j) (by simp [unitFields, small]) _⟩
  have dies : dieUp t r.die.toNat = dieUp s r.die.toNat := congrArg (bitAt · _) (shown (_, 0) (by simp [unitFields]) 0)
  have ridge : ∀ m, ridgeUp t r.die.toNat m = ridgeUp s r.die.toNat m :=
    fun m => congrArg (bitAt · m) (shown (R.RIDGE_MAP_IN_SERVICE, 0) (by simp [unitFields]) _)
  unfold ridUp
  dsimp only
  rw [dies]
  cases ok : ridOk r with
  | false => rfl
  | true =>
    refine congrArg (and _) ?_
    cases place : unitBit r with
    | some at_ => exact congrArg (bitAt · at_.2) (map at_.1 (unitBit_small ok place))
    | none =>
      dsimp only
      split
      · next kind =>
        have unit : r.unit.toNat / 32 < 4 := by
          simp only [ridOk, kind, Bool.and_eq_true, decide_eq_true_eq] at ok
          omega
        rw [stack _ unit, (pch _ unit).1, (pch _ unit).2]
      · next kind =>
        have unit : r.unit.toNat < 4 := by
          simp only [ridOk, kind, Bool.and_eq_true, decide_eq_true_eq] at ok
          omega
        rw [stack _ unit]
      · rw [ridge, retired]
      · rw [ridge]
      · exact congrArg (bitAt · _) (shown (R.TNS_ARRAY_MAP_IN_SERVICE, 0) (by simp [unitFields]) _)
      · exact congrArg (bitAt · _) (shown (R.MEM_CL_MAP_IN_SERVICE, 0) (by simp [unitFields]) _)
      · rw [retired]
      · rfl

/-- A field that says nothing of what is in service: of another register, or of other bits of one. -/
def Bystander (f : FRef) (i : Nat) : Prop :=
  ∀ p ∈ unitFields, f.off + f.stride * i < 2 ^ 28 ∧ p.1.off + p.1.stride * p.2 < 2 ^ 28 ∧
    (p.1.off + p.1.stride * p.2 = f.off + f.stride * i →
      p.1.cold = f.cold ∧ f.lo ≤ f.hi ∧ f.hi < 64 ∧ p.1.lo ≤ p.1.hi ∧ (p.1.hi < f.lo ∨ f.hi < p.1.lo))

theorem unitsKept_setFldAt (s : State) (d : Nat) {f : FRef} {i : Nat} (x : Nat) (apart : Bystander f i) :
    UnitsKept s (setFldAt s d f i x) := by
  refine ⟨rfl, fun p mem die => ?_⟩
  obtain ⟨window, window', bits⟩ := apart p mem
  by_cases same : regKey die (p.1.off + p.1.stride * p.2) = regKey d (f.off + f.stride * i)
  · obtain ⟨rfl, off⟩ := regKey_inj window' window same
    obtain ⟨cold, ordered, width, ordered', other⟩ := bits off
    exact fldAt_setFldAt_bits _ _ _ _ _ _ _ off cold ordered width ordered' other
  · exact fldAt_setFldAt_reg _ _ _ _ _ _ _ _ same

theorem unitsKept_modHbm (s : State) (md : Nat) (f : HbmDie → HbmDie) : UnitsKept s (modHbm s md f) := by
  have tiers : ∀ (u : State) (x : Tiers), UnitsKept u { u with tiers := x } := fun u x => unitsKept_of_regs rfl rfl rfl
  have priority : ∀ (now : Bool) (l : List Nat) (u : State), (∀ j ∈ l, j < 4) → UnitsKept u
      (l.foldl (fun s j => setFldAt s (5 + md) R.MEM_HBM_STACK_PRIORITY j (b2n now)) u) := by
    intro now l u small
    induction l generalizing u with
    | nil => exact .refl u
    | cons j l ih =>
      refine (unitsKept_setFldAt u _ _ ?_).trans (ih _ fun k mem => small k (List.mem_cons_of_mem _ mem))
      have small' := small j (List.mem_cons_self ..)
      unfold Bystander
      interval_cases j <;> decide
  unfold modHbm
  dsimp only
  split
  · exact ((tiers ..).trans (priority _ _ _ fun _ => List.mem_range.mp)).trans (tiers ..)
  · exact (tiers ..).trans (priority _ _ _ fun _ => List.mem_range.mp)

theorem unitsKept_relEvent (s : State) (typ : Byte) (ctx : BitVec 16) (body : List Byte) :
    UnitsKept s (relEvent s typ ctx body) := by
  have apart : Bystander R.HUB_REL_QUEUE_DROPPED 0 := by unfold Bystander; decide
  unfold relEvent bumpErr bumpErrAt
  dsimp only
  split
  · exact unitsKept_of_regs rfl rfl rfl
  · split
    · exact unitsKept_setFldAt _ _ _ apart
    · exact .refl s

/-! ## Self-tests -/

/-- The number of a resource fits the field that shows it. -/
theorem ridNum_lt (r : Rid) : ridNum r < 2 ^ 32 := by
  have kind := r.kind.isLt
  have die := r.die.isLt
  have unit := r.unit.isLt
  unfold ridNum
  omega

/-- What a field of the self-test's status reads after the result and the resource were set. -/
theorem selftestStatus_shown (s : State) (result : Nat) (r : Rid) (fits : result < 256) :
    let t := setFld (setFld s 0 R.HUB_SELFTEST_STATUS_RESULT result) 0 R.HUB_SELFTEST_STATUS_RID (ridNum r)
    fld t 0 R.HUB_SELFTEST_STATUS_RESULT = result ∧ fld t 0 R.HUB_SELFTEST_STATUS_RID = ridNum r ∧
      fld t 0 R.HUB_SELFTEST_STATUS_BUSY = fld s 0 R.HUB_SELFTEST_STATUS_BUSY := by
  refine ⟨?_, ?_, ?_⟩
  · refine (fld_setFld_of_bits_apart _ _ _ (by decide)).trans ((fld_setFld_self _ _ _ _ (by decide)).trans ?_)
    exact Nat.mod_eq_of_lt fits
  · exact (fld_setFld_self _ _ _ _ (by decide)).trans (Nat.mod_eq_of_lt (ridNum_lt r))
  · exact (fld_setFld_of_bits_apart _ _ _ (by decide)).trans (fld_setFld_of_bits_apart _ _ _ (by decide))

section Request

variable {s : State} {c : BitVec 16} {v : Nat} (up : dieUp s 0 = true)
include up

theorem selftestRequest_of_busy (busy : fld s 0 R.HUB_SELFTEST_STATUS_BUSY = 1) :
    selftestRequest s c v = setFld s 0 R.HUB_SELFTEST_STATUS_DROPPED 1 := by
  unfold selftestRequest
  dsimp only
  rw [if_neg (bnot_ne_true up), if_pos busy]

variable (open_ : fld s 0 R.HUB_SELFTEST_STATUS_BUSY = 0)
include open_

theorem selftestRequest_of_invalid (invalid : ridOk (numRid (v / 2 ^ 32)) = false ∨ c ≠ 0) : selftestRequest s c v =
    setFld (setFld s 0 R.HUB_SELFTEST_STATUS_RESULT 0x0F) 0 R.HUB_SELFTEST_STATUS_RID (ridNum (numRid (v / 2 ^ 32))) := by
  have refused : (!ridOk (numRid (v / 2 ^ 32)) || c != 0) = true := by simpa using invalid
  unfold selftestRequest
  dsimp only
  rw [if_neg (bnot_ne_true up), if_neg (by omega), if_pos refused]

variable (from0 : c = 0) (ok : ridOk (numRid (v / 2 ^ 32)) = true)
include from0 ok

theorem selftestRequest_of_down (down : ridUp s (numRid (v / 2 ^ 32)) = false) : selftestRequest s c v =
    setFld (setFld s 0 R.HUB_SELFTEST_STATUS_RESULT 0x0B) 0 R.HUB_SELFTEST_STATUS_RID (ridNum (numRid (v / 2 ^ 32))) := by
  unfold selftestRequest
  dsimp only
  rw [if_neg (bnot_ne_true up), if_neg (by omega), if_neg (by rw [ok, from0]; decide), if_pos (by rw [down]; rfl)]

theorem selftestRequest_of_up (here : ridUp s (numRid (v / 2 ^ 32)) = true) (notCore : (numRid (v / 2 ^ 32)).kind ≠ 9) :
    selftestRequest s c v = testQueue (setFld (setFld s 0 R.HUB_SELFTEST_STATUS_BUSY 1) 0 R.HUB_SELFTEST_STATUS_RID
      (ridNum (numRid (v / 2 ^ 32)))) { rid := numRid (v / 2 ^ 32), now := bitAt v 31, cmd := true } := by
  unfold selftestRequest
  dsimp only
  rw [if_neg (bnot_ne_true up), if_neg (by omega), if_neg (by rw [ok, from0]; decide), if_neg (bnot_ne_true here),
    if_neg (by rw [decide_eq_false notCore]; exact Bool.false_ne_true)]

end Request

/-- A queued test waits at the end of the queue, and shows in no register. -/
theorem testQueue_spec (s : State) (x : SelfTest) :
    SameMemory s (testQueue s x) ∧ (testQueue s x).svc.tests = s.svc.tests ++ [x] ∧ (testQueue s x).regs = s.regs ∧
      (testQueue s x).boot = s.boot := by
  unfold testQueue
  dsimp only
  split
  · exact ⟨⟨fun _ => rfl, rfl⟩, rfl, rfl, rfl⟩
  · exact ⟨⟨fun _ => rfl, rfl⟩, rfl, rfl, rfl⟩

/-- The arbiter that a running test holds is locked. -/
def testLocked (s : State) (r : Rid) : State :=
  match testArb r with
  | some (die, a, _) => modArb s die a fun x => { x with locked := true }
  | none => s

/-- What a running test does to its resource: a memory channel is tested, a collective's step is recorded. -/
def testBegun (s : State) (r : Rid) : State :=
  if r.kind = 1 then
    modHbm s (r.die.toNat - 5) fun h => { h with testing := h.testing ||| ((1 : BitVec 4) <<< (r.unit.toNat / 32)) }
  else if r.kind = 7 then
    match clRunning s (r.die.toNat - 5) r.unit.toNat with
    | some (id, c) => setCl s id { c with phase := .record r.unit.toNat }
    | none => s
  else s

theorem testLocked_spec (s : State) (r : Rid) : SameMemory s (testLocked s r) ∧ (testLocked s r).svc = s.svc := by
  unfold testLocked
  split
  · exact ⟨⟨fun _ => rfl, rfl⟩, rfl⟩
  · exact ⟨⟨fun _ => rfl, rfl⟩, rfl⟩

theorem testBegun_spec (s : State) (r : Rid) : SameMemory s (testBegun s r) ∧ (testBegun s r).svc = s.svc := by
  unfold testBegun
  split
  · exact ⟨(decides_modHbm ..).memory, (decides_modHbm ..).svc⟩
  · split
    · split
      · exact ⟨⟨fun _ => rfl, rfl⟩, rfl⟩
      · exact ⟨⟨fun _ => rfl, rfl⟩, rfl⟩
    · exact ⟨⟨fun _ => rfl, rfl⟩, rfl⟩

/-- A test that may start runs; what its resource does meanwhile is no matter of memory. -/
theorem selftestStart_spec {s : State} {x : SelfTest} (tests : s.svc.tests = [x]) (waits : x.running = false)
    (may : testMayStart s x = true) :
    SameMemory s (selftestStart s) ∧ (selftestStart s).svc.tests = [{ x with running := true }] := by
  have found : s.svc.tests.find? (fun t => !t.running && testMayStart s t) = some x := by
    rw [tests]
    exact List.find?_cons_of_pos (by rw [waits, may]; rfl)
  have start : selftestStart s = testBegun (testLocked (modSvc s fun v => { v with
      tests := v.tests.map fun y => if y = x then { y with running := true } else y }) x.rid) x.rid := by
    unfold selftestStart
    rw [found]
    rfl
  obtain ⟨memory, svc⟩ := testLocked_spec (modSvc s fun v => { v with
    tests := v.tests.map fun y => if y = x then { y with running := true } else y }) x.rid
  obtain ⟨memory', svc'⟩ := testBegun_spec (testLocked (modSvc s fun v => { v with
    tests := v.tests.map fun y => if y = x then { y with running := true } else y }) x.rid) x.rid
  rw [start]
  refine ⟨SameMemory.trans ⟨fun _ => rfl, rfl⟩ (memory.trans memory'), ?_⟩
  rw [svc', svc]
  simp [modSvc, tests]

theorem selftestStart_of_none {s : State} {x : SelfTest} (tests : s.svc.tests = [x]) (waits : x.running = false)
    (may : testMayStart s x = false) : selftestStart s = s := by
  have found : s.svc.tests.find? (fun t => !t.running && testMayStart s t) = none := by
    rw [tests]
    simp [waits, may]
  unfold selftestStart
  rw [found]

/-- The memory channel that a test leaves, when no other tests it. -/
def testReleased (s : State) (x : SelfTest) : State :=
  if x.running ∧ x.rid.kind = 1 ∧ !(s.svc.tests.any fun y => y.running && y.rid.kind == 1 && y.rid.die == x.rid.die &&
      y.rid.unit.toNat / 32 == x.rid.unit.toNat / 32) then
    modHbm s (x.rid.die.toNat - 5)
      fun h => { h with testing := h.testing &&& ~~~((1 : BitVec 4) <<< (x.rid.unit.toNat / 32)) }
  else s

/-- The result of a requested test is shown. -/
def testShown (s : State) (x : SelfTest) (result : Nat) : State :=
  if x.cmd then setFld (setFld (setFld s 0 R.HUB_SELFTEST_STATUS_BUSY 0) 0 R.HUB_SELFTEST_STATUS_RESULT result) 0
    R.HUB_SELFTEST_STATUS_RID (ridNum x.rid)
  else s

theorem testEnd_eq (s : State) (x : SelfTest) (result : Byte) :
    ∃ body, testEnd s x result = relEvent (testShown (testReleased
    (arbDrop (modSvc s fun v => { v with tests := v.tests.erase x }) (testArb x.rid) x.rid) x) x result.toNat) 0x14 0 body :=
  ⟨_, rfl⟩

theorem testReleased_spec (s : State) (x : SelfTest) :
    SameMemory s (testReleased s x) ∧ (testReleased s x).svc = s.svc ∧ UnitsKept s (testReleased s x) := by
  unfold testReleased
  split
  · exact ⟨(decides_modHbm ..).memory, (decides_modHbm ..).svc, unitsKept_modHbm ..⟩
  · exact ⟨⟨fun _ => rfl, rfl⟩, rfl, .refl s⟩

theorem testShown_spec (s : State) (x : SelfTest) {result : Nat} (fits : result < 256) :
    OnlyRegs s (testShown s x result) ∧ UnitsKept s (testShown s x result) ∧ (x.cmd = true →
      fld (testShown s x result) 0 R.HUB_SELFTEST_STATUS_BUSY = 0 ∧
      fld (testShown s x result) 0 R.HUB_SELFTEST_STATUS_RESULT = result) := by
  have busy : Bystander R.HUB_SELFTEST_STATUS_BUSY 0 := by unfold Bystander; decide
  have outcome : Bystander R.HUB_SELFTEST_STATUS_RESULT 0 := by unfold Bystander; decide
  have resource : Bystander R.HUB_SELFTEST_STATUS_RID 0 := by unfold Bystander; decide
  obtain ⟨shown, -, stays⟩ := selftestStatus_shown (setFld s 0 R.HUB_SELFTEST_STATUS_BUSY 0) result x.rid fits
  unfold testShown
  split
  · exact ⟨rfl, (unitsKept_setFldAt _ _ _ busy).trans
      ((unitsKept_setFldAt _ _ _ outcome).trans (unitsKept_setFldAt _ _ _ resource)),
      fun _ => ⟨stays.trans (fld_setFld_self _ _ _ _ (by decide)), shown⟩⟩
  · next other => exact ⟨rfl, .refl s, fun cmd => absurd cmd other⟩

/-- A test that is over waits no more; its end and its result show, and what is in service stays. -/
theorem testEnd_only {s : State} {x : SelfTest} (tests : s.svc.tests = [x]) (result : Byte) :
    let t := testEnd s x result
    SameMemory s t ∧ t.svc = { s.svc with tests := [] } ∧ UnitsKept s t ∧ (x.cmd = true →
      fld t 0 R.HUB_SELFTEST_STATUS_BUSY = 0 ∧ fld t 0 R.HUB_SELFTEST_STATUS_RESULT = result.toNat) := by
  obtain ⟨body, ended⟩ := testEnd_eq s x result
  have drops := arbDrop_onlyArbs (modSvc s fun v => { v with tests := v.tests.erase x }) (testArb x.rid) x.rid
  have none : s.svc.tests.erase x = [] := by simp [tests]
  generalize arbDrop _ _ _ = u at ended drops
  have svc : u.svc = { s.svc with tests := [] } := by
    rw [drops, ← none]
    rfl
  have drop : UnitsKept s u := by
    rw [drops]
    exact unitsKept_of_regs rfl rfl rfl
  have memory : SameMemory s u := by
    rw [drops]
    exact ⟨fun _ => rfl, rfl⟩
  obtain ⟨memory', svc', kept⟩ := testReleased_spec u x
  obtain ⟨regs, kept', shown⟩ := testShown_spec (testReleased u x) x result.isLt
  intro t
  have ended : t = relEvent (testShown (testReleased u x) x result.toNat) 0x14 0 body := ended
  rw [ended]
  refine ⟨memory.trans (memory'.trans (regs.sameMemory.trans (relEvent_keeps ..).1)), ?_,
    drop.trans (kept.trans (kept'.trans (unitsKept_relEvent ..))), fun cmd => ?_⟩
  · rw [relEvent_svc, congrArg State.svc regs]
    exact svc'.trans svc
  · obtain ⟨busy, outcome⟩ := shown cmd
    exact ⟨(fld_relEvent_apart _ _ _ _ 0 (by decide)).trans busy, (fld_relEvent_apart _ _ _ _ 0 (by decide)).trans outcome⟩

/-- A resource of a die's unit map is out of service while its bit is clear. -/
theorem ridUp_of_bit_clear {s : State} {r : Rid} (kind : r.kind = 8)
    (clear : bitAt (fld s r.die.toNat R.UNIT_MAP_IN_SERVICE) r.unit.toNat = false) : ridUp s r = false := by
  have place : unitBit r = some (0, r.unit.toNat) := by
    unfold unitBit
    rw [kind]
    rfl
  unfold ridUp
  rw [place]
  exact (congrArg (and _) clear).trans (Bool.and_false _)

/-- A retired helper, with no task of its own, is out of service. -/
theorem retireRid_of_helper {s : State} {r : Rid} (kind : r.kind = 8) (tests : s.svc.tests = []) (cairn : s.svc.cairn = []) :
    SameMemory s (retireRid s r none) ∧ (retireRid s r none).svc = s.svc ∧ ridUp (retireRid s r none) r = false := by
  cases up : ridUp s r with
  | false =>
    have gone : retireRid s r none = s := by
      unfold retireRid
      exact if_pos (by rw [up]; rfl)
    rw [gone]
    exact ⟨⟨fun _ => rfl, rfl⟩, rfl, up⟩
  | true =>
    have retired : ∃ body, retireRid s r none =
        relEvent (drawFree (clearBit s r.die.toNat R.UNIT_MAP_IN_SERVICE 0 r.unit.toNat)).2 0x13 0 body := by
      have idle : tasksGone (clearBit s r.die.toNat R.UNIT_MAP_IN_SERVICE 0 r.unit.toNat) r =
          clearBit s r.die.toNat R.UNIT_MAP_IN_SERVICE 0 r.unit.toNat :=
        tasksGone_of_idle (s := clearBit s r.die.toNat R.UNIT_MAP_IN_SERVICE 0 r.unit.toNat) tests cairn r
      unfold retireRid
      dsimp only
      rw [if_neg (bnot_ne_true up), kind]
      exact ⟨_, congrArg (retiredEvent · r 0 none) idle⟩
    obtain ⟨body, retired⟩ := retired
    rw [retired]
    refine ⟨SameMemory.trans ⟨fun _ => rfl, rfl⟩ (relEvent_keeps ..).1, relEvent_svc .., ridUp_of_bit_clear kind ?_⟩
    rw [fld_relEvent_apart _ _ _ _ _ (by decide)]
    refine (congrArg (bitAt · _)
      (fldAt_setFldAt_self s r.die.toNat R.UNIT_MAP_IN_SERVICE 0 _ (by decide) (by decide))).trans ?_
    refine (bitAt_clearBit (fldAt_lt ..) _ _).trans ?_
    simp

/-- The end of the test that runs, by its result. -/
theorem selftestResult_of_run {s : State} {x : SelfTest} (tests : s.svc.tests = [x]) (runs : x.running = true) (res : Nat) :
    selftestResult s res =
      if res = 1 then retireRid (testEnd s x (if res = 0 then 0 else if res = 1 then 0x0B else 0x0C)) x.rid none
      else testEnd s x (if res = 0 then 0 else if res = 1 then 0x0B else 0x0C) := by
  have found : s.svc.tests.find? (·.running) = some x := by
    rw [tests]
    exact List.find?_cons_of_pos runs
  unfold selftestResult
  rw [found]

/-! ## Fatal errors -/

theorem setBootState_keeps (s : State) (n : Nat) : SameMemory s (setBootState s n) ∧ (setBootState s n).boot.state = n ∧
    ∀ die g, fld (setBootState s n) die g = fld s die g := by
  obtain ⟨state, only⟩ := setBootState_eq s n
  refine ⟨?_, state, fun die g => ?_⟩
  · rw [only]
    exact ⟨fun _ => rfl, rfl⟩
  · rw [only]
    rfl

theorem fatal_spec (s : State) {cause die : Nat} (causes : cause < 8) (dies : die < 32) :
    let t := fatal s cause die
    SameMemory s t ∧ t.boot.state = 5 ∧ fld t 0 R.HUB_REL_FATAL_VALID = 1 ∧ fld t 0 R.HUB_REL_FATAL_CAUSE = cause ∧
      fld t 0 R.HUB_REL_FATAL_DIE = die ∧ fld t 0 R.HUB_REL_FATAL_TIME_TIME = s.time.toNat := by
  obtain ⟨memory, state, shows⟩ := setBootState_keeps (setFld (setFld (setFld (setFld s 0 R.HUB_REL_FATAL_VALID 1) 0
    R.HUB_REL_FATAL_CAUSE cause) 0 R.HUB_REL_FATAL_DIE die) 0 R.HUB_REL_FATAL_TIME_TIME s.time.toNat) 5
  refine ⟨SameMemory.trans ⟨fun _ => rfl, rfl⟩ memory, state, (shows 0 _).trans ?_, (shows 0 _).trans ?_,
    (shows 0 _).trans ?_,
    (shows 0 _).trans ?_⟩
  · rw [fld_setFld_of_off_ne _ _ _ (by decide), fld_setFld_of_bits_apart _ _ _ (by decide),
      fld_setFld_of_bits_apart _ _ _ (by decide), fld_setFld_self _ _ _ _ (by decide)]
    rfl
  · rw [fld_setFld_of_off_ne _ _ _ (by decide), fld_setFld_of_bits_apart _ _ _ (by decide),
      fld_setFld_self _ _ _ _ (by decide)]
    exact Nat.mod_eq_of_lt causes
  · rw [fld_setFld_of_off_ne _ _ _ (by decide), fld_setFld_self _ _ _ _ (by decide)]
    exact Nat.mod_eq_of_lt dies
  · rw [fld_setFld_self _ _ _ _ (by decide)]
    exact Nat.mod_eq_of_lt s.time.isLt

/-- Settles O50: a request that is refused sets the status alone, one that is taken waits at the queue's end; an end of a test
is `testEnd`'s, and a failed test's helper is retired after it. -/
theorem selfTestsTelemetryAndFatalErrors : Obligations.SelfTestsTelemetryAndFatalErrors := by
  intro s
  refine ⟨fun c v up => ⟨fun busy => ?_,
    fun open_ => ⟨fun invalid => ?refused, fun from0 ok down => ?unavailable, fun from0 here other => ?queued⟩⟩,
    fun x tests waits => ⟨fun may => ?start, fun may => ?_, fun _ => ?timeout⟩,
      fun x tests runs _ => ⟨?passed, fun kind cairn => ?failed⟩,
    fun w => ⟨fun off => ?noRecord, fun on inHbm idle => ?recorded⟩, fun c d causes => ?fatal⟩
  · exact congrArg Host.Outcome.next (selftestRequest_of_busy up busy)
  case refused =>
    obtain ⟨result, resource, -⟩ := selftestStatus_shown s 0x0F (numRid (v.toNat / 2 ^ 32)) (by decide)
    exact ⟨_, congrArg Host.Outcome.next (selftestRequest_of_invalid up open_ invalid), rfl, result, resource⟩
  case unavailable =>
    obtain ⟨result, resource, -⟩ := selftestStatus_shown s 0x0B (numRid (v.toNat / 2 ^ 32)) (by decide)
    exact ⟨_, congrArg Host.Outcome.next (selftestRequest_of_down up open_ from0 ok down), rfl, result, resource⟩
  case queued =>
    have ok : ridOk (numRid (v.toNat / 2 ^ 32)) = true := by
      unfold ridUp at here
      simp only [Bool.and_eq_true] at here
      exact here.1.1
    obtain ⟨memory, tests, regs, boot⟩ :=
      testQueue_spec (setFld (setFld s 0 R.HUB_SELFTEST_STATUS_BUSY 1) 0 R.HUB_SELFTEST_STATUS_RID
      (ridNum (numRid (v.toNat / 2 ^ 32)))) { rid := numRid (v.toNat / 2 ^ 32), now := bitAt v.toNat 31, cmd := true }
    have shows : ∀ g, fld _ 0 g = fld _ 0 g := fun g => fldAt_congr regs (congrArg Boot.fuses boot) 0 g 0
    refine ⟨_, congrArg Host.Outcome.next (selftestRequest_of_up up open_ from0 ok here other),
      SameMemory.trans ⟨fun _ => rfl, rfl⟩ memory,
      (shows _).trans ?_, (shows _).trans ?_, tests⟩
    · exact (fld_setFld_of_bits_apart _ _ _ (by decide)).trans (fld_setFld_self _ _ _ _ (by decide))
    · exact (fld_setFld_self _ _ _ _ (by decide)).trans (Nat.mod_eq_of_lt (ridNum_lt _))
  case start =>
    obtain ⟨memory, running⟩ := selftestStart_spec tests waits may
    exact ⟨_, rfl, memory, running⟩
  · exact congrArg Host.Outcome.next (selftestStart_of_none tests waits may)
  case timeout =>
    have found : s.svc.tests.find? (fun t => !t.running) = some x := by
      rw [tests]
      exact List.find?_cons_of_pos (by rw [waits]; rfl)
    have ends : selftestTimeout s = testEnd s x 0x0C := by
      unfold selftestTimeout
      rw [found]
    obtain ⟨memory, svc, -, shown⟩ := testEnd_only tests 0x0C
    exact ⟨_, congrArg Host.Outcome.next ends, memory, congrArg Service.tests svc, shown⟩
  case passed =>
    obtain ⟨memory, svc, kept, shown⟩ := testEnd_only tests 0
    exact ⟨_, congrArg Host.Outcome.next (selftestResult_of_run tests runs 0), memory, congrArg Service.tests svc,
      ridUp_of_unitsKept kept _, shown⟩
  case failed =>
    obtain ⟨memory, svc, -, -⟩ := testEnd_only tests 0x0B
    obtain ⟨memory', svc', down⟩ := retireRid_of_helper (s := testEnd s x 0x0B) kind (congrArg Service.tests svc)
      ((congrArg Service.cairn svc).trans cairn)
    exact ⟨_, congrArg Host.Outcome.next (selftestResult_of_run tests runs 1), memory.trans memory',
      (congrArg Service.tests svc').trans (congrArg Service.tests svc), down⟩
  case noRecord => exact congrArg Host.Outcome.next (if_pos off)
  case recorded =>
    refine congrArg Host.Outcome.next ((if_neg on).trans ((if_neg fun busy => ?_).trans ?_))
    · exact bnot_ne_true idle busy.2
    · exact congrArg (setFld · 0 R.HUB_TEL_HEAD_SEQ _) (if_pos inHbm)
  case fatal =>
    have stops : fatalError s c.toNat d = fatal s c.toNat d := by
      refine if_pos ?_
      obtain ⟨rfl, die⟩ | rfl := causes
      · exact .inl ⟨rfl, die⟩
      · exact .inr rfl
    obtain spec := fatal_spec s c.isLt d.isLt
    exact ⟨_, congrArg Host.Outcome.next stops, spec⟩

end Sys2Proof.Machine
end

section
/-! PROOF. Power-down, the management endpoint, firmware update and the test access port (R504 to R507, R509). -/

namespace Sys2Proof.Machine

/-! ## Orderly power-down -/

theorem orderlyDown_of_down {s : State} (down : s.boot.down = true) : orderlyDown s = s := by
  unfold orderlyDown
  rw [if_pos (by rw [down, Bool.or_true])]

section Running

variable {s : State} (power : s.boot.powered = true) (running : s.boot.down = false)
include power running

theorem orderlyDown_of_early (early : s.boot.state < 3) : orderlyDown s = railsOff s := by
  unfold orderlyDown
  rw [if_neg (by rw [power, running]; decide), if_pos early]

/-- Once an image runs, a power-down first drains, as STATE 6. -/
theorem orderlyDown_of_late (late : 3 ≤ s.boot.state) :
    orderlyDown s = setBootState (modBoot s fun b => { b with down := true }) 6 := by
  unfold orderlyDown
  rw [if_neg (by rw [power, running]; decide), if_neg (Nat.not_lt.mpr late)]

end Running

theorem drainDone_of_drained {s : State} (down : s.boot.down = true) (empty : drained s = true) :
    drainDone s = downEnd s := by
  unfold drainDone
  rw [if_pos (by rw [down, empty]; rfl)]

theorem drainDone_of_busy {s : State} (busy : (s.boot.down && drained s) = false) : drainDone s = s := by
  unfold drainDone
  rw [if_neg (Bool.eq_false_iff.mp busy)]

theorem drainTimeout_of_down {s : State} (down : s.boot.down = true) : ∃ u, drainTimeout s = downEnd u := by
  unfold drainTimeout
  rw [if_neg (bnot_ne_true down)]
  exact ⟨_, rfl⟩

theorem drainTimeout_of_running {s : State} (running : s.boot.down = false) : drainTimeout s = s := by
  unfold drainTimeout
  rw [if_pos (by rw [running]; rfl)]

/-! ## The management endpoint -/

theorem endpointUp_of_power {s : State} (power : s.boot.powered = true) : endpointUp s = !s.boot.rstLow := by
  unfold endpointUp
  rw [power, Bool.true_and]

/-- A copy that is replaced reads as what was put there; the other copy stays. -/
theorem flashCopy_setCopy (s : State) (b : Bool) (c : List Byte) :
    flashCopy (setCopy s b c) b = c ∧ flashCopy (setCopy s b c) (!b) = flashCopy s (!b) := by
  cases b with
  | false => exact ⟨rfl, rfl⟩
  | true => exact ⟨rfl, rfl⟩

theorem firmwareUpdate_of_room {s : State} (answers : endpointUp s = true) {o : Nat} {b : List Byte}
    (room : o + b.length ≤ updateLimit (spareIsB s)) (last : Bool) : firmwareUpdate s o b last =
      modMgmt (setCopy s (spareIsB s) (flashPut (if s.mgmt.updating then flashCopy s (spareIsB s) else []) o b))
        fun m => { m with updating := !last, verifyDue := last } := by
  unfold firmwareUpdate
  dsimp only
  rw [if_neg (by simp [answers, room])]

theorem updateVerify_of_mute {s : State} (mute : endpointUp s = false) : updateVerify s = s := by
  unfold updateVerify
  rw [if_neg (by rw [mute, Bool.and_false]; exact Bool.false_ne_true)]

/-- Settles O51: each command is the case of its own operation in which the hub has power. -/
theorem managementAnswersAndPowersDown : Obligations.ManagementAnswersAndPowersDown := by
  intro s power only m
  refine ⟨fun down => ?_, fun running => ⟨fun early => ?_, fun late => ?drains⟩, fun down c ends => ?rails,
    fun down busy => ?_,
    fun running => ⟨?_, ?_⟩, fun low x y a b => ?mute, fun high => ?answers, ?ports⟩
  · exact congrArg Host.Outcome.next (orderlyDown_of_down down)
  · exact congrArg Host.Outcome.next (orderlyDown_of_early power running early)
  case drains =>
    obtain ⟨state, same⟩ := setBootState_eq (modBoot s fun b => { b with down := true }) 6
    refine ⟨_, congrArg Host.Outcome.next (orderlyDown_of_late power running late), ?_, ?_, state, ?_⟩
    · rw [same]
      exact ⟨fun _ => rfl, rfl⟩
    · rw [same]
      exact ⟨rfl, rfl⟩
    · rw [same]
      rfl
  case rails =>
    obtain rfl | ⟨rfl, empty⟩ := ends
    · obtain ⟨u, off⟩ := drainTimeout_of_down down
      exact ⟨_, congrArg Host.Outcome.next off, rfl, rfl, rfl⟩
    · exact ⟨_, congrArg Host.Outcome.next (drainDone_of_drained down empty), rfl, rfl, rfl⟩
  · exact congrArg Host.Outcome.next (drainDone_of_busy (by rw [busy, Bool.and_false]))
  · exact congrArg Host.Outcome.next (drainTimeout_of_running running)
  · exact congrArg Host.Outcome.next (drainDone_of_busy (by rw [running, Bool.false_and]))
  case mute =>
    have silent : endpointUp s = false := (endpointUp_of_power power).trans (by rw [low]; rfl)
    have not : ¬ endpointUp s = true := Bool.eq_false_iff.mp silent
    have reply : ∀ r, pldmReply s r = s := fun r => if_neg not
    refine ⟨congrArg Host.Outcome.next (if_neg not), congrArg Host.Outcome.next (if_neg ?_),
      congrArg Host.Outcome.next (if_neg ?_),
      congrArg Host.Outcome.next (reply _), congrArg Host.Outcome.next (reply _), congrArg Host.Outcome.next (reply _),
      congrArg Host.Outcome.next (if_neg not), congrArg Host.Outcome.next (if_neg not),
      congrArg Host.Outcome.next (updateVerify_of_mute silent)⟩
    · rw [silent, Bool.false_and]
      exact Bool.false_ne_true
    · rw [silent, Bool.false_and]
      exact Bool.false_ne_true
  case answers =>
    have up : endpointUp s = true := (endpointUp_of_power power).trans (by rw [high]; rfl)
    have reply : ∀ r, pldmReply s r = { s with mgmt := { m with reply := some r } } := fun r => if_pos up
    refine ⟨fun x => congrArg Host.Outcome.next (if_pos up), fun b a i3c => congrArg Host.Outcome.next (if_pos ?_),
      fun i2c => congrArg Host.Outcome.next (if_pos ?_), congrArg Host.Outcome.next (reply _),
      fun x => congrArg Host.Outcome.next (reply _), congrArg Host.Outcome.next (reply _),
        congrArg Host.Outcome.next (if_pos up),
      congrArg Host.Outcome.next (if_pos up), fun o b l room => ?update, fun due => congrArg Host.Outcome.next (if_pos ?_)⟩
    · rw [up, Bool.true_and]
      exact i3c
    · rw [up, Bool.true_and, isI3c, i2c]
      rfl
    case update =>
      obtain ⟨put, other⟩ := flashCopy_setCopy s (spareIsB s)
        (flashPut (if s.mgmt.updating then flashCopy s (spareIsB s) else []) o b)
      exact ⟨_, congrArg Host.Outcome.next (firmwareUpdate_of_room up room l), ⟨fun _ => rfl, rfl⟩, ⟨rfl, rfl⟩, put,
        other, rfl, rfl⟩
    · rw [up, Bool.and_true]
      exact due
  case ports =>
    have select : ∀ i, jtagSet s i = { s with mgmt := { m with jtag := i } } := fun i => if_pos power
    exact ⟨fun _ => congrArg Host.Outcome.next (select _), congrArg Host.Outcome.next (select _),
      fun _ => congrArg Host.Outcome.next (if_pos power), congrArg Host.Outcome.next (select _),
      congrArg Host.Outcome.next (select _)⟩

end Sys2Proof.Machine
end
